-- ==== Sys2Proof/Word.lean ====
section
/-! DEFINITION. The register word and its plainest arithmetic: field extraction and insertion by bit numbers as the
spec's register tables give them (R11: bit 0 is the least significant bit; NAME[msb:lsb]). -/
namespace Sys2Proof

/-- A BAR0 register (R12): 32 bits. -/
abbrev Word := BitVec 32

/-- A byte of memory. -/
abbrev Byte := BitVec 8

/-- Field [hi:lo] of a word, as a number (R11). -/
def Word.field (w : Word) (hi lo : Nat) : Nat := w.toNat / 2 ^ lo % 2 ^ (hi + 1 - lo)

/-- Bit `i` of a word. -/
def Word.bit (w : Word) (i : Nat) : Bool := w.toNat / 2 ^ i % 2 == 1

/-- The word with field [hi:lo] replaced by the low bits of `v` (R11). -/
def Word.setField (w : Word) (hi lo v : Nat) : Word :=
  let m := 2 ^ (hi + 1 - lo)
  BitVec.ofNat 32 (w.toNat - w.toNat / 2 ^ lo % m * 2 ^ lo + v % m * 2 ^ lo)

/-- The word with bit `i` set. -/
def Word.setBit (w : Word) (i : Nat) : Word := Word.setField w i i 1

/-- A number of `n` bits read as two's complement (R7). -/
def signedOf (n : Nat) (v : Nat) : Int := if v < 2 ^ (n - 1) then (v : Int) else (v : Int) - 2 ^ n

/-- An integer as `n` bits of two's complement, wrapped (R7). -/
def wrapTo (n : Nat) (v : Int) : Nat := (v % (2 ^ n : Int)).toNat

/-- `a` saturated at `m`. -/
def satAt (m a : Nat) : Nat := if a < m then a else m

/-- An integer saturated into the `n`-bit two's complement range. -/
def satSigned (n : Nat) (v : Int) : Int :=
  if v < -(2 ^ (n - 1) : Int) then -(2 ^ (n - 1) : Int) else if v > (2 ^ (n - 1) : Int) - 1 then (2 ^ (n - 1) : Int) - 1 else v

end Sys2Proof
end

