-- ==== Sys2Proof/Syntax.lean ====
section
/-! DEFINITION. The commands of the block: one constructor of `Instr` for each row of spec/opcode_table.json, with the
operands the command carries. Operands of host commands are the interface, the instance and the word written; operands of
events are what the outside world brings (a measured value, a frame, a completion). -/
namespace Sys2Proof

/-- The two host interfaces (R41): PCIe and the I²C sideband. -/
inductive Itf | pcie | i2c
  deriving DecidableEq, Repr

/-- A shadowed channel (R74): the time bases, the servos, the bounds, the synthesizers, the outputs, PPS and ToD pins. -/
inductive Chan
  | tb (n : Fin 8) | servo (n : Fin 8) | bnd (n : Fin 8) | syn (k : Fin 4)
  | out (k : Fin 12) | pps (k : Fin 4) | tod (k : Fin 2)
  deriving DecidableEq, Repr

/-- A source of divided edges (R89, R91): a REFIN or LO input, the Vane internal PPS, the peer's PPS or 10 MHz. -/
inductive EdgeSrc | refin (n : Fin 8) | lo (m : Fin 4) | vanePps | peerPps | peer10M
  deriving DecidableEq, Repr

/-- A configuration register of a REFIN input (R87). -/
inductive RefReg | ctl | freq | div | dly
  deriving DecidableEq, Repr

/-- A configuration register of an LO input (R92). -/
inductive LoReg | ctl | freq
  deriving DecidableEq, Repr

/-- An interval unit: a TIU-P or a lane unit. -/
inductive TiuId | p (k : Fin 12) | lane (m : Fin 18)
  deriving DecidableEq, Repr

/-- Channel of a lane timestamp unit (R105). -/
inductive LaneChan | rx | tx | freq
  deriving DecidableEq, Repr

/-- A satellite signal (R208): constellation, 0 GPS, 1 Galileo, 2 BeiDou; PRN; front end. -/
structure Signal where
  con : Fin 3
  prn : BitVec 8
  fe : Fin 2
  deriving DecidableEq, Repr

/-- What a tracking channel reports of its signal in a second (R213, R230): C/N0, 1/256 dB-Hz; elevation in degrees, azimuth in 2° steps;
whether the satellite's navigation message marks it healthy. -/
structure SigObs where
  sig : Signal
  cn0 : Nat
  el : Int
  az : Nat
  healthy : Bool
  deriving DecidableEq, Repr

/-- A decoded part of a navigation message (R208, R233): an ephemeris with its issue of data, an almanac, UTC parameters (TAI - UTC; A0,
2^-16 ns; A1, 2^-48; reference TAI second), a GGTO, ionosphere parameters, and a leap announcement (the LEAP byte of R230 and LEAP_AT). -/
inductive NavItem
  | eph (x : Signal) (iod : Nat) (bits : List Byte)
  | alm (con : Fin 3) (prn : BitVec 8) (bits : List Byte)
  | utc (con : Fin 3) (ofs : BitVec 16) (a0 a1 : Int) (tot : Nat)
  | ggto (con : Fin 3) (bits : List Byte)
  | iono (con : Fin 3) (bits : List Byte)
  | leap (ann : BitVec 8) (at_ : Nat)
  deriving DecidableEq, Repr

/-- What a second of Vane brings whether or not it has a solution (R212, R214, R230): the TAI second, noise-floor rise and clipping of the two
front ends, reports of the channels, parts of navigation messages decoded, and the predicted elevations of satellites, in degrees. -/
structure GnssSecond where
  sec : Nat
  jam0 : BitVec 8
  clip0 : BitVec 8
  jam1 : BitVec 8
  clip1 : BitVec 8
  obs : List SigObs
  nav : List NavItem
  pred : List (Fin 3 × BitVec 8 × Int)
  deriving DecidableEq, Repr

/-- What the equations of a second give (R219-R222): the time of the placed edge as the pseudoranges of each front end give it, before
GNS_FEk_DLY, in the scale of the constellation that TSCALE names, 2^-16 ns on the PTP epoch; the formal standard deviation of time without
the position's, 2^-16 ns; the rate of the raw spine against it, 2^-48; the residual of each signal in the first solve, the second and the third,
2^-8 ns; the position, cm, and the uncertainty of the survey's average with it, cm. -/
structure GnssSolution where
  edge0 : Int
  edge1 : Int
  sigma : Nat
  rate : Int
  res : List (Signal × Nat × Nat × Nat)
  pos : Int × Int × Int
  posU : Nat
  deriving DecidableEq, Repr

/-- Where the start block of a frame of a group port lies (R256, R269): its bit among the message bits of its RS(528,514) codeword, whether
alignment markers come before it in the codeword, and the lane of the group that carries the codeword. -/
structure FecAt where
  bit : Fin 5140
  markers : Bool
  lane : Fin 4
  deriving DecidableEq, Repr

/-- A start position of a port on its way to the frames' boundary (R254, R272): where a start block there lies in the FEC; how far into the spine tick
the capture unit would see it, 2^-16 ns; and the next positions that an alignment marker will occupy: after how many, and how many. -/
structure TxPos where
  fec : FecAt
  off : Fin 32768
  marker : Nat
  run : Fin 21
  deriving DecidableEq, Repr

/-- A frame as a port receives it (R259): its bytes with the FCS, a code or block error, corrected and uncorrectable FEC codewords,
and where its start block lies (R269). -/
structure RxFrame where
  bytes : List Byte
  codeErr : Bool
  corr : Nat
  uncorr : Nat
  start : FecAt
  deriving DecidableEq, Repr

/-- A write of the receive ring to host memory (R261): the buffer of the k-th descriptor of a frame, or its write-back. -/
inductive RingWrite | buffer (k : Nat) | writeBack (k : Nat)
  deriving DecidableEq, Repr

/-- A stream of Sync or Announce messages (R290): of a session in a slot, or a port's multicast stream. -/
inductive Stream | session (slot : BitVec 20) | mcast (p : Fin 16)
  deriving DecidableEq, Repr

/-- Why a client instance loses its server (R308, R311). -/
inductive LostCause | announce | sync | grant
  deriving DecidableEq, Repr

/-- A PCIe AtomicOp (R398): FetchAdd, Swap, compare and swap. -/
inductive AtomicKind | fetchAdd | swap | cas
  deriving DecidableEq, Repr

/-- A DRAM error a read meets (R326, R327): the Granary address of the word, and whether it is uncorrectable. -/
structure EccHit where
  addr : Word
  uncorrectable : Bool
  deriving DecidableEq, Repr

/-- A disturbance of one half of a complementary pair of FLT (R388): the FLT offset, the bits that change, and whether it is the inverted half. -/
structure PairUpset where
  off : BitVec 16
  bits : Word
  inverted : Bool
  deriving DecidableEq, Repr

/-- A check of the pairs (R388): half of a pair that is disturbed at it, and whether the check itself has not come yet. -/
structure PairRun where
  upset : Option PairUpset
  late : Bool
  deriving DecidableEq, Repr

/-- A tamper detection (R350): its source, and the units of 2^-15 s for which main power has been off, if it is. -/
structure TamperHit where
  source : Fin 7
  away : Nat
  deriving DecidableEq, Repr

/-- Registers of the endpoint's configuration space (R390): those of the type 0 header, and of the capabilities that the features need. -/
inductive CfgReg | id | command | rev | bar (k : Fin 6) | subsys | devCap | devCtl | linkCap | linkCtl | devCap2 | devCtl2 | msixCtl | msixTable | msixPba
  | pmCtl | aerUncor | aerCor
  deriving DecidableEq, Repr

/-- A host read: of the register at an offset of BAR0, on an interface; of bytes of the Granary through BAR2, of any size and alignment, with
the DRAM errors that it meets (R329); of a DW or QW of BAR4 (R391, R392); of configuration space; or a zero-length read of BAR0 (R392). -/
inductive HostRead | reg (itf : Itf) (off : Nat) | bar2 (addr : Word) (n : Nat) (errs : List EccHit) | bar4 (off : BitVec 14) (wide : Bool)
  | config (r : CfgReg) | zero (off : Nat)
  deriving DecidableEq, Repr

/-- A link frame that falls due (14, frame types); the sender says where on the tandem base a TWOWAY frame crosses the boundary
(R372), in 2^-16 ns. -/
inductive LinkDue
  | hello | heartbeat | time | state | key (slot : BitVec 6) | twowayRequest (launch : Nat) | twowayAnswer (launch : Nat) | ack
  deriving DecidableEq, Repr

/-- A coefficient request of the link partner (R242, R243): taps 0 c(-1), 1 c(0), 2 c(+1); or none, its coefficients on hold. -/
inductive CoefReq | increment (tap : Fin 3) | decrement (tap : Fin 3) | preset | initial | hold
  deriving DecidableEq, Repr

/-- What the receiver of a lane has for its partner (R243): a request for a tap, up or down; or that it is ready. -/
inductive TrainOwn | ask (tap : Fin 3) (up : Bool) | ready
  deriving DecidableEq, Repr

/-- What takes a lane out of lock (R240): 1 signal, 2 CDR, 3 alignment (R253). -/
inductive LossCause | signal | cdr | alignment
  deriving DecidableEq, Repr

/-- A request of the part to host memory (R402). -/
inductive HostReq
  | dmaDesc (c : Fin 16) | dmaTransfer (c : Fin 16) (addr : BitVec 64) | dmaLink (c : Fin 16)
  | rxRing (p : Fin 16) (index : BitVec 16) | txRing (p : Fin 16) (index : BitVec 16)
  deriving DecidableEq, Repr

/-- Why the host link resets (R396): DL_Down, hot reset, Function Level Reset. -/
inductive LinkReset | dlDown | hotReset | flr
  deriving DecidableEq, Repr

/-- What happens to the host interface on its link: a reset (R396); the link has trained, to a speed (0 to 3: 2.5 to 16.0 GT/s) and a width (0 to 2:
×1, ×2, ×4); Advanced Error Reporting logs errors (R390, R416); a configuration write (R390). -/
inductive LinkEvent | reset (cause : LinkReset) | trained (speed : Fin 4) (width : Fin 3) | aer (uncorrectable : Bool) (bits : BitVec 21)
  | config (r : CfgReg) (v : Word)
  deriving DecidableEq, Repr

/-- A write that can unmask a vector: the Mask bit of a vector cleared, or a DW or QW of BAR4 (R391, R394). -/
inductive MsixWrite | unmask (v : Fin 32) | bar4 (off : BitVec 14) (wide : Bool) (v : BitVec 64)
  deriving DecidableEq, Repr

/-- The commands (spec/opcode_table.json). -/
inductive Instr
  | registerWrite (itf : Itf) (off : Nat) (v : Word)
  | rcRead (r : HostRead)
  | absentAccess (itf : Itf) (off : Nat) (write : Option Word)
  | decodeMiss (itf : Itf) (off : Nat) (write : Option Word)
  | badAccess (bar4 : Bool) (addr : Nat) (write : Bool)
  | fenceOpen (itf : Itf) (v : Word)
  | fenceComplete (itf : Itf)
  | fenceSlow (itf : Itf)
  | carrierNamed (m : Fin 4)
  | carrierRampEnd
  | synsLock
  | spineForceWrite (itf : Itf) (v : Word)
  | snapReq (itf : Itf) (v : Word)
  | snapDone (itf : Itf)
  | commitWrite (itf : Itf) (ch : Chan) (v : Word)
  | commitCheck (ch : Chan)
  | lockPoint (ch : Chan)
  | commitLive (ch : Chan)
  | leapApplied (n : Fin 8)
  | smearWindowStart (n : Fin 8)
  | smearWindowEnd (n : Fin 8)
  | slotArm (itf : Itf) (s : Fin 64) (v : Word)
  | slotCancel (itf : Itf) (s : Fin 64) (v : Word)
  | slotFire (s : Fin 64)
  | evtPulseEnd (p : Fin 8)
  | refinConfigWrite (itf : Itf) (n : Fin 8) (reg : RefReg) (v : Word)
  | loConfigWrite (itf : Itf) (m : Fin 4) (reg : LoReg) (v : Word)
  | dividedEdge (src : EdgeSrc) (spacing : Nat)
  | los (src : EdgeSrc)
  | loAlarmSet (m : Fin 4)
  | loAlarmClear (m : Fin 4)
  | loTempSample (t0 t1 t2 t3 : Option (BitVec 16))
  | dieTempSample (t : BitVec 16)
  | tiuEvent (k : Fin 12) (spacing : Nat)
  | tiuConversionDone (k : Fin 12) (code : BitVec 12)
  | tiuConfigWrite (itf : Itf) (k : Fin 12) (v : Word)
  | tiuDensityTest (k : Fin 12) (nl : List Int) (sum500 sum1000 : Nat)
  | tiuCalPeriod (k : Fin 12)
  | tiuCalNow (itf : Itf) (v : Word)
  | tiuCalEnd (k : Fin 12) (sum500 sum1000 : Nat)
  | tiuCalRetry (k : Fin 12)
  | tiuResultRead (itf : Itf) (u : TiuId)
  | laneUnitEvent (m : Fin 18) (ch : LaneChan) (steps : Nat)
  | laneCalFail (m : Fin 18)
  | synSearchDone (k : Fin 4) (found : Bool) (edges : List (Fin 12 × List Nat))
  | synLoopSettled (k : Fin 4) (edges : List (Fin 12 × List Nat))
  | synLockingTimeout (k : Fin 4) (edges : List (Fin 12 × List Nat))
  | synAlignStart (k : Fin 4) (edges : List (Fin 12 × List Nat))
  | synUnlock (k : Fin 4) (edges : List (Fin 12 × List Nat))
  | rampDone (k : Fin 4) (edges : List (Fin 12 × List Nat))
  | synRealigned (k : Fin 4) (edges : List (Fin 12 × List Nat))
  | ppsEdge (k : Fin 4)
  | ppsPulseEnd (k : Fin 4)
  | todMessage (k : Fin 2)
  | todMessageEnd (k : Fin 2)
  | monitorTick
  | candidateSourceReport (c : Fin 30)
  | qualityInput (c : Fin 30) (qin : Word)
  | selPrefWrite (itf : Itf) (n : Fin 8) (v : Word)
  | ensembleCycle
  | warmupEnd (m : Fin 4)
  | trefFixed (m : Fin 4)
  | trained (m : Fin 4)
  | memberRejoin (m : Fin 4)
  | servoUpdate (n : Fin 8)
  | exceededFlagExpiry (n : Fin 8)
  | boundEval10ms (n : Fin 8)
  | mapHoldExpiry (n : Fin 8)
  | traceSecond
  | laneTrimDone (m : Fin 18) (slow fast : Word)
  | vanePpsEdge (sec : Nat)
  | gnssSolution (q : GnssSecond) (g : GnssSolution)
  | gnssMissingSecond (q : GnssSecond)
  | gnssConfigChange (itf : Itf) (off : Nat) (v : Word)
  | clkLost (k : Fin 2)
  | clkRange (k : Fin 2) (err : Word)
  | feClockReturn (k : Fin 2) (err : Word)
  | channelDrop (x : Signal)
  | signalAcquired (x : Signal) (bin : Int)
  | aidGo (itf : Itf) (v : Word)
  | aidDone
  | aidedFirstTimeout
  | gnssWake (crcOk : Bool)
  | gnsTimRead (itf : Itf)
  | deskewDone (p : Fin 16) (k1 k2 k3 : Word)
  | deskewFail (p : Fin 16)
  | linkUp (p : Fin 16)
  | frameReceive (p : Fin 16) (x : RxFrame)
  | pauseExpire (p : Fin 16)
  | pauseWd (p : Fin 16)
  | pauseHoldoffEnd (p : Fin 16)
  | esmcTx (p : Fin 16) (event : Bool)
  | esmcTimeout (p : Fin 16)
  | hostRingDeliver (p : Fin 16) (descs : List (Option (List Byte))) (bad : Option RingWrite)
  | rxTailWrite (itf : Itf) (p : Fin 16) (v : Word)
  | txTailWrite (itf : Itf) (p : Fin 16) (v : Word)
  | txFrameFetch (p : Fin 16) (descs bufs : List (Option (List Byte))) (bad : Option Nat)
  | rxRingReset (itf : Itf) (p : Fin 16) (v : Word)
  | txRingReset (itf : Itf) (p : Fin 16) (v : Word)
  | txFrameStart (p : Fin 16) (pos : TxPos) (skip : Fin 21) (bad : Option Nat)
  | txFrameEnd (p : Fin 16) (bad : Option Nat)
  | linkFaultReceived (p : Fin 16) (lf rf : Bool)
  | alignmentLockLoss (p : Fin 16)
  | launchPassedNotUp (p : Fin 16) (bad : Option Nat)
  | classify (p : Fin 16) (launch : Nat) (errs : List EccHit)
  | syncEmit (st : Stream) (launch : Nat)
  | announceEmit (st : Stream)
  | keyLoad (itf : Itf) (v : Word)
  | keyDelete (itf : Itf) (v : Word)
  | ntsRingWrite (itf : Itf) (v : Word)
  | mintGo (itf : Itf) (v : Word)
  | mintDone
  | clientRequest (k : Fin 4)
  | clientRequestRetry (k : Fin 4)
  | clientWaitTimeout (k : Fin 4)
  | clientLost (k : Fin 4) (cause : LostCause)
  | clientRenew (k : Fin 4) (grant : Fin 3)
  | storeInit (trained : Bool)
  | sessionSweep
  | lookup (itf : Itf)
  | create (itf : Itf)
  | provision (itf : Itf)
  | release (itf : Itf)
  | unpin (itf : Itf)
  | scrubLine (errs : List EccHit)
  | bar2Write (addr : Word) (bytes : List Byte)
  | atomicOp (target : Option Word) (wide : Bool) (op : AtomicKind) (a b : BitVec 64)
  | lockTimeout (addr : Word) (master : Fin 5)
  | claimFrameSend
  | claimFrameReceive (bytes : List Byte)
  | claimBoundary
  | peerStale
  | claimHoldoffEnd
  | linkFrameReceive (lane : Fin 2) (bytes : List Byte)
  | linkFrameSend (due : LinkDue)
  | linkRetry
  | linkAckTimeout
  | tndLinkDown
  | spareCheck (errs : Nat)
  | healthSecond (katPassed : Bool)
  | laneLpEnter (itf : Itf) (m : Fin 18) (v : Word)
  | laneLpExit (itf : Itf) (m : Fin 18) (v : Word)
  | groupLpWrite (itf : Itf) (v : Word)
  | laneRestart (itf : Itf) (m : Fin 18) (v : Word)
  | laneTestWrite (itf : Itf) (m : Fin 18) (v : Word)
  | lanePllReady (m : Fin 18)
  | pllFail (m : Fin 18)
  | laneCdrLock (m : Fin 18) (rx tx : Word)
  | trainDone (m : Fin 18)
  | trainFail (m : Fin 18) (signal : Bool)
  | laneAlignLock (m : Fin 18) (rx tx : Word)
  | lockLost (m : Fin 18) (cause : LossCause) (eye : Nat)
  | eyeGo (itf : Itf) (m : Fin 18) (v : Word)
  | eyePointDone (m : Fin 18) (errs : Nat)
  | prbsChkLock (m : Fin 18) (rx : List Bool)
  | prbsLockLost (m : Fin 18) (errs : Nat) (window : BitVec 64)
  | prbsInj (itf : Itf) (m : Fin 18) (v : Word)
  | prbsErrRead (itf : Itf) (m : Fin 18) (errs : Nat)
  | coefficientUpdate (m : Fin 18) (req : CoefReq) (answered : Bool) (own : Option TrainOwn)
  | entropyRetry (passed : Bool)
  | healthTestFail (restarts : Nat)
  | generate (itf : Itf) (slot : BitVec 6)
  | load (itf : Itf) (slot : BitVec 6)
  | erase (itf : Itf) (slot : BitVec 6)
  | attest (itf : Itf) (slot : BitVec 6)
  | disarm (itf : Itf) (loops : BitVec 4)
  | zeroise (itf : Itf) (burn : Bool)
  | nonceRead (itf : Itf)
  | tampArmWrite (itf : Itf) (v : Word) (intact : BitVec 4)
  | tamper (hit : TamperHit)
  | burnDone
  | burnIncomplete
  | coreDeparture
  | coreDepartureDecided (glitch : Bool)
  | vbatLoss (cellLost : Bool)
  | dmaEnable (itf : Itf) (c : Fin 16)
  | dmaDisable (itf : Itf) (c : Fin 16)
  | dmaStopped (c : Fin 16)
  | dmaDoorbell (itf : Itf) (c : Fin 16)
  | dmaDescFetched (c : Fin 16) (desc : Option (List Byte))
  | dmaTransferDone (c : Fin 16) (src : List Byte) (err : Option (BitVec 64))
  | dmaLinkRead (c : Fin 16) (next : Option (BitVec 64))
  | prfCounterRead (itf : Itf) (i : Fin 256)
  | tallyCapture (step : Bool)
  | dumpWritten (ok : Bool)
  | dumpCtlWrite (itf : Itf) (v : Word)
  | completionTimeout (r : HostReq)
  | pcieLinkReset (e : LinkEvent)
  | flrComplete
  | msixUnmask (w : MsixWrite)
  | watchRound
  | fltBresetWrite (itf : Itf) (v : Word)
  | fltCresetWrite (itf : Itf) (v : Word)
  | fltSafeReqWrite (itf : Itf) (v : Word)
  | pairCheck (run : PairRun)
  | maskWindowEnd (b : Fin 21)
  | recordClear (itf : Itf) (worst : Bool)
  | irqStatWrite (itf : Itf) (b : Fin 21) (v : Word)
  | i2cWrite (bytes : List Byte)
  | i2cRead (bytes : List Byte)
  | macCounterRead (itf : Itf) (p : Fin 16) (c : Fin 24)
  | statusBankRead (itf : Itf) (off : Nat)
  | powerOnReset (mainLost : Bool)
  | resetRelease (away : Nat) (boot : Fin 4) (unitB compat testN : Bool)
  | keysPhase (healthOk : Bool) (bad : List (Fin 64))
  | imageFetched (prim sec : List Byte)
  | loadStart (itf : Itf)
  | loadData (itf : Itf) (v : Word)
  | loadGo (itf : Itf)
  | imageVerified
  | structChecked
  | domainsUp (failed : Option (Fin 10))
  | enterRun (ms : Word)
  | keepCopy
  | fuse (itf : Itf) (req : Bool)
  | setRequire (itf : Itf)
  | ownerBurnDone (missed : BitVec 520)
  | domReqWrite (itf : Itf) (v : Word)
  | domainSwitched
  | rampFail
  | railFault (rail : Fin 10)
  | brownOut
  deriving DecidableEq, Repr

end Sys2Proof
end

