-- ==== Sys2Proof/Decode.lean ====
section
/-! DEFINITION. The command that a word spells. -/
namespace Sys2Proof

/-- The command that the low `nbits` bits of `w` spell by the opcode table: none, since no row of the table gives its command bits. -/
def decodeTableWord (nbits w : Nat) : Option Instr :=
  match nbits, w with
  | _, _ => none

end Sys2Proof
end

