-- ==== Sys2Proof/Config.lean ====
section
/-! DEFINITION. What the spec leaves to the implementation or to published standards: values with no body, so that nothing
can be proved from a number nobody stated, and the inputs a part's pins and silicon fix. -/
namespace Sys2Proof.Config

/-- A value the spec leaves open (DESIGN CHOICE, log entry 3): the `n`-th one taken, `w` bits wide. -/
opaque freeValue (w : Nat) : Nat → BitVec w

/-! What the silicon fixes (19, Reset "fixed"; R432): uninterpreted. -/

/-- silicon revision (CFG_ID.REV) -/
opaque siliconRev : BitVec 8
/-- the Limtuzel image key in mask ROM (R432) -/
opaque vendorKey : BitVec 256

/-! Functions of published standards that the spec names and does not restate (DESIGN CHOICE, log entry 7): uninterpreted. -/

/-- SHA-512 (R180, R336, R417) -/
opaque sha512 (m : List Byte) : BitVec 512
/-- HKDF-SHA-256 (RFC 5869): 32 bytes from salt, IKM and info (R339, R345, R369) -/
opaque hkdf (salt ikm info : List Byte) : BitVec 256
/-- the same with 48 bytes of output (R369) -/
opaque hkdf48 (salt ikm info : List Byte) : BitVec 384
/-- Ed25519 (RFC 8032): public half of a seed, signature, verification (R181, R340, R352, R426) -/
opaque ed25519Pub (seed : BitVec 256) : BitVec 256
opaque ed25519Sign (seed : BitVec 256) (m : List Byte) : BitVec 512
opaque ed25519Verify (pub : BitVec 256) (m : List Byte) (sig : BitVec 512) : Bool
/-- X25519 (RFC 7748) (R345); the public half of a secret -/
opaque x25519 (k u : BitVec 256) : BitVec 256
opaque x25519Pub (k : BitVec 256) : BitVec 256
/-- AES-256 key unwrap and wrap (RFC 3394) (R345, R349, R371) -/
opaque aesUnwrap (kek : BitVec 256) (w : List Byte) : Option (List Byte)
opaque aesWrap (kek : BitVec 256) (k : List Byte) : List Byte
/-- AES-128-CMAC (NIST SP 800-38B) (R295) -/
opaque cmac (key m : List Byte) : BitVec 128
/-- AEAD_AES_SIV_CMAC_256 (RFC 5297) (R302): key, nonce, associated data; open and seal -/
opaque sivOpen (key nonce ad c : List Byte) : Option (List Byte)
opaque sivSeal (key nonce ad p : List Byte) : List Byte
/-- parity or CRC of broadcast navigation bits, by the interface documents of R208 (R217) -/
opaque navBitsOk (record : List Byte) : Bool
/-- issue of data in the bits of a NAVDATA record, by the interface documents of R208 (R217) -/
opaque navIod (record : List Byte) : BitVec 16
/-- formal standard deviation of time, 2^-16 ns, from the one without the position's uncertainty and GNS_POS_U, cm (R222): the spec does not say how
they combine (DESIGN CHOICE, log entry 3) -/
opaque holdSigma (sigma posU : Nat) : BitVec 48
/-- half width in Hz of the Doppler window of a satellite, by constellation and PRN, to which a prediction narrows the search (R214): the
uncertainty of the time, 2^-8 ns, and of the position, cm (DESIGN CHOICE, log entry 3) -/
opaque searchWindow (con prn timeU posU : Nat) : BitVec 16
/-- VBAT (cell 0) and CRES (cell 1) in mV at second n of the part's running (PWR_VBAT, PWR_CRES): the supplies' own (DESIGN CHOICE, log
entry 3) -/
opaque supplyMv (cell n : Nat) : BitVec 16
/-- bits that the PRBS generator of a lane starts with (R247), which the spec does not state (DESIGN CHOICE, log entry 3) -/
opaque prbsSeed (m : Nat) : BitVec 31
/-- fixed delay of the PCS pipeline of a lane mode, 2^-16 ns, received and transmitted (R269); the spec gives one of them (pcsFixed) -/
opaque pcsDelay (mode : Nat) (tx : Bool) : BitVec 32
/-- FEC_RX or FEC_TX of a frame whose start block lies at a bit of its codeword, with or without alignment markers before it, 2^-16 ns (R269):
the spec names what it is computed from, not the formula (DESIGN CHOICE, log entry 3) -/
opaque fecDelay (tx : Bool) (bit : Nat) (markers : Bool) : BitVec 32
/-- octets of a PTP message that its ICV covers (IEEE 1588-2019 clause 16.14) (R295): the message up to the ICV is given -/
opaque authOctets (m : List Byte) : List Byte
/-- secParamIndicator of an AUTHENTICATION TLV with a sequenceNo (IEEE 1588-2019 clause 16.14) -/
opaque authSpiSeq : Byte
/-- whether a receiver may ignore a TLV of a type (IEEE 1588-2019) (R287) -/
opaque tlvIgnorable (typ : Nat) : Bool
/-- controlField of a message type, first flag byte, and logMessageInterval where the chapter gives none (IEEE 1588-2019):
message type, unicast, two-step, log period -/
opaque ptpControl (typ : Nat) : Byte
opaque ptpFlags (typ : Nat) (unicast twoStep : Bool) : Byte
opaque ptpLog (typ : Nat) (unicast : Bool) (log : Byte) : Byte

/-- the expanded table of the image's values, whose format is not published (R433) -/
opaque expandedTable (image : List Byte) : List Byte

/-- one step of the two-state estimator of the reference track (R146), whose gains the spec does not state (DESIGN CHOICE, log entry 3): time
constant ENS_HOLD_TAU in s, the estimates YH and DH before it, the frequency that the residual shows, 2^-48, and the seconds since the one
before; the new YH and DH -/
opaque trackStep (tau : Nat) (yh dh y : Int) (dt : Int) : Int × Int

/-! Header fields of the packets the part originates that no rule gives (DESIGN CHOICE, log entry 11): uninterpreted. -/

/-- IPv4 type of service, identification and fragment word; traffic class and flow label of IPv6; time to live or hop limit -/
opaque ipTos : Byte
opaque ip4Ident : BitVec 16
opaque ip4Frag : BitVec 16
opaque ip6Flow : BitVec 28
opaque ipTtl : Byte
/-- priority and drop-eligible bits of a VLAN tag -/
opaque vlanPrio : BitVec 4
/-- portNumber of a port's or a client instance's portIdentity -/
opaque ptpPort (client : Bool) (i : Nat) : BitVec 16
/-- whether a GRANT_UNICAST_TRANSMISSION TLV invites renewal (IEEE 1588-2019 clause 16.1) -/
opaque grantRenewal : Bool
/-- sequenceId of the first message of a stream -/
opaque seqStart : BitVec 16
/-- MAC address at which a client instance's server is reached: the part resolves none (R283) -/
opaque serverMac (k : Nat) : BitVec 48
/-- multicast addresses of the profiles' streams: MAC address, and IP address -/
opaque mcastMac (profile : Nat) (v6 : Bool) : BitVec 48
opaque mcastIp (v6 : Bool) : BitVec 128

end Sys2Proof.Config
end

