-- ==== Sys2Proof/Machine/FaultTable.lean ====
section
/-! DEFINITION. The fault kinds: the complete list of R380, each with its source, kind and severity. -/
namespace Sys2Proof.Machine

/-- What a fault message is apart from its context word (R376): source, kind and severity (0 info, 1 correctable,
2 uncorrectable-contained, 3 fatal). -/
structure FaultId where
  src : Nat
  kind : Nat
  sev : Nat
  deriving DecidableEq, Repr

/-- 0x00/0x01 ABSENT (R380). -/
def Flt.cfgAbsent : FaultId := ⟨0x00, 0x01, 1⟩
/-- 0x00/0x02 FENCE (R380). -/
def Flt.cfgFence : FaultId := ⟨0x00, 0x02, 0⟩
/-- 0x00/0x03 FENCE_SLOW (R380). -/
def Flt.cfgFenceSlow : FaultId := ⟨0x00, 0x03, 1⟩
/-- 0x00/0x04 CFG_BAD (R380). -/
def Flt.cfgCfgBad : FaultId := ⟨0x00, 0x04, 1⟩
/-- 0x01/0x01 IMAGE_LOADED (R380). -/
def Flt.cfgImageLoaded : FaultId := ⟨0x01, 0x01, 0⟩
/-- 0x01/0x02 COMPAT (R380). -/
def Flt.cfgCompat : FaultId := ⟨0x01, 0x02, 0⟩
/-- 0x01/0x03 SHADOW_ECC (R380). -/
def Flt.cfgShadowEcc : FaultId := ⟨0x01, 0x03, 2⟩
/-- 0x08/0x01 REFUSED (R380). -/
def Flt.pwrRefused : FaultId := ⟨0x08, 0x01, 1⟩
/-- 0x08/0x02 DOMAIN_CHANGE (R380). -/
def Flt.pwrDomainChange : FaultId := ⟨0x08, 0x02, 0⟩
/-- 0x08/0x03 RAIL_FAULT (R380). -/
def Flt.pwrRailFault : FaultId := ⟨0x08, 0x03, 3⟩
/-- 0x08/0x04 THERMAL (R380). -/
def Flt.pwrThermal : FaultId := ⟨0x08, 0x04, 2⟩
/-- 0x10/0x01 PAIR_MISMATCH (R380). -/
def Flt.fltPairMismatch : FaultId := ⟨0x10, 0x01, 3⟩
/-- 0x10/0x02 SAFE_REQ (R380). -/
def Flt.fltSafeReq : FaultId := ⟨0x10, 0x02, 3⟩
/-- 0x10/0x03 LOG_OVERRUN (R380). -/
def Flt.fltLogOverrun : FaultId := ⟨0x10, 0x03, 1⟩
/-- 0x10/0x04 BRESET (R380). -/
def Flt.fltBreset : FaultId := ⟨0x10, 0x04, 0⟩
/-- 0x10/0x05 CFG_BAD (R380). -/
def Flt.fltCfgBad : FaultId := ⟨0x10, 0x05, 1⟩
/-- 0x10/0x06 NMI_UNSENT (R380). -/
def Flt.fltNmiUnsent : FaultId := ⟨0x10, 0x06, 1⟩
/-- 0x18/0x01 DECODE (R380). -/
def Flt.mtxDecode : FaultId := ⟨0x18, 0x01, 1⟩
/-- 0x18/0x02 BAD_ACCESS (R380). -/
def Flt.mtxBadAccess : FaultId := ⟨0x18, 0x02, 1⟩
/-- 0x18/0x03 BUS_ERR (R380). -/
def Flt.mtxBusErr : FaultId := ⟨0x18, 0x03, 2⟩
/-- 0x18/0x04 LOCK_TIMEOUT (R380). -/
def Flt.mtxLockTimeout : FaultId := ⟨0x18, 0x04, 1⟩
/-- 0x19/0x01 LINK_DOWN (R380). -/
def Flt.pcieLinkDown : FaultId := ⟨0x19, 0x01, 2⟩
/-- 0x19/0x02 PCIE_ERR (R380). -/
def Flt.pciePcieErr : FaultId := ⟨0x19, 0x02, 1⟩
/-- 0x20/0x01 DESC_BAD (R380). -/
def Flt.dmaDescBad : FaultId := ⟨0x20, 0x01, 1⟩
/-- 0x20/0x02 BUS_ERR (R380). -/
def Flt.dmaBusErr : FaultId := ⟨0x20, 0x02, 2⟩
/-- 0x20/0x03 CFG_BAD (R380). -/
def Flt.dmaCfgBad : FaultId := ⟨0x20, 0x03, 1⟩
/-- 0x28/0x01 DUMP_LATE (R380). -/
def Flt.prfDumpLate : FaultId := ⟨0x28, 0x01, 1⟩
/-- 0x28/0x02 DUMP_ERR (R380). -/
def Flt.prfDumpErr : FaultId := ⟨0x28, 0x02, 1⟩
/-- 0x28/0x03 CFG_BAD (R380). -/
def Flt.prfCfgBad : FaultId := ⟨0x28, 0x03, 1⟩
/-- 0x30/0x01 COMMIT_REFUSED (R380). -/
def Flt.spnCommitRefused : FaultId := ⟨0x30, 0x01, 1⟩
/-- 0x30/0x02 CARRIER_SWITCH (R380). -/
def Flt.spnCarrierSwitch : FaultId := ⟨0x30, 0x02, 0⟩
/-- 0x30/0x03 CARRIER_LOST (R380). -/
def Flt.spnCarrierLost : FaultId := ⟨0x30, 0x03, 1⟩
/-- 0x30/0x04 NO_CARRIER (R380). -/
def Flt.spnNoCarrier : FaultId := ⟨0x30, 0x04, 2⟩
/-- 0x30/0x05 FADJ_CLAMP (R380). -/
def Flt.spnFadjClamp : FaultId := ⟨0x30, 0x05, 1⟩
/-- 0x30/0x06 STEP (R380). -/
def Flt.spnStep : FaultId := ⟨0x30, 0x06, 0⟩
/-- 0x30/0x07 LEAP_APPLIED (R380). -/
def Flt.spnLeapApplied : FaultId := ⟨0x30, 0x07, 0⟩
/-- 0x31/0x01 SLOT_REFUSED (R380). -/
def Flt.spnSlotRefused : FaultId := ⟨0x31, 0x01, 1⟩
/-- 0x31/0x02 SLOT_LATE (R380). -/
def Flt.spnSlotLate : FaultId := ⟨0x31, 0x02, 0⟩
/-- 0x31/0x03 SLOT_SKIPPED (R380). -/
def Flt.spnSlotSkipped : FaultId := ⟨0x31, 0x03, 0⟩
/-- 0x31/0x04 EVT_OVERLAP (R380). -/
def Flt.spnEvtOverlap : FaultId := ⟨0x31, 0x04, 0⟩
/-- 0x38/0x01 LOS (R380). -/
def Flt.refLos : FaultId := ⟨0x38, 0x01, 1⟩
/-- 0x38/0x02 GROSS (R380). -/
def Flt.refGross : FaultId := ⟨0x38, 0x02, 1⟩
/-- 0x38/0x03 CLEAR (R380). -/
def Flt.refClear : FaultId := ⟨0x38, 0x03, 0⟩
/-- 0x38/0x04 CFG_BAD (R380). -/
def Flt.refCfgBad : FaultId := ⟨0x38, 0x04, 1⟩
/-- 0x38/0x05 LO_ALARM (R380). -/
def Flt.refLoAlarm : FaultId := ⟨0x38, 0x05, 1⟩
/-- 0x38/0x06 TEMP_FAIL (R380). -/
def Flt.refTempFail : FaultId := ⟨0x38, 0x06, 1⟩
/-- 0x3C/0x01 CAL_FAIL (R380). -/
def Flt.tiuCalFail : FaultId := ⟨0x3C, 0x01, 2⟩
/-- 0x3C/0x02 ABANDON (R380). -/
def Flt.tiuAbandon : FaultId := ⟨0x3C, 0x02, 0⟩
/-- 0x3C/0x03 CFG_BAD (R380). -/
def Flt.tiuCfgBad : FaultId := ⟨0x3C, 0x03, 1⟩
/-- 0x3D/0x01 LANE_CAL_FAIL (R380). -/
def Flt.laneUnitLaneCalFail : FaultId := ⟨0x3D, 0x01, 2⟩
/-- 0x3D/0x02 ABANDON (R380). -/
def Flt.laneUnitAbandon : FaultId := ⟨0x3D, 0x02, 0⟩
/-- 0x40/0x01 DISQUALIFIED (R380). -/
def Flt.selDisqualified : FaultId := ⟨0x40, 0x01, 1⟩
/-- 0x40/0x02 SOFT_DQ (R380). -/
def Flt.selSoftDq : FaultId := ⟨0x40, 0x02, 1⟩
/-- 0x40/0x03 QUALIFIED (R380). -/
def Flt.selQualified : FaultId := ⟨0x40, 0x03, 0⟩
/-- 0x41/0x01 SWITCH (R380). -/
def Flt.selSwitch : FaultId := ⟨0x41, 0x01, 0⟩
/-- 0x41/0x02 HOLDOVER (R380). -/
def Flt.selHoldover : FaultId := ⟨0x41, 0x02, 1⟩
/-- 0x41/0x03 CONTESTED (R380). -/
def Flt.selContested : FaultId := ⟨0x41, 0x03, 1⟩
/-- 0x41/0x04 CFG_BAD (R380). -/
def Flt.selCfgBad : FaultId := ⟨0x41, 0x04, 1⟩
/-- 0x44/0x01 MEMBER_LOST (R380). -/
def Flt.ensMemberLost : FaultId := ⟨0x44, 0x01, 1⟩
/-- 0x44/0x02 MEMBER_REJOIN (R380). -/
def Flt.ensMemberRejoin : FaultId := ⟨0x44, 0x02, 0⟩
/-- 0x44/0x03 OUTLIER (R380). -/
def Flt.ensOutlier : FaultId := ⟨0x44, 0x03, 0⟩
/-- 0x44/0x04 TRAINED (R380). -/
def Flt.ensTrained : FaultId := ⟨0x44, 0x04, 0⟩
/-- 0x44/0x05 NO_MEMBER (R380). -/
def Flt.ensNoMember : FaultId := ⟨0x44, 0x05, 2⟩
/-- 0x45/0x01 COMMIT_REFUSED (R380). -/
def Flt.ensCommitRefused : FaultId := ⟨0x45, 0x01, 1⟩
/-- 0x45/0x02 LOCKED (R380). -/
def Flt.ensLocked : FaultId := ⟨0x45, 0x02, 0⟩
/-- 0x45/0x03 UNLOCK (R380). -/
def Flt.ensUnlock : FaultId := ⟨0x45, 0x03, 1⟩
/-- 0x45/0x04 HOLDOVER_ENTER (R380). -/
def Flt.ensHoldoverEnter : FaultId := ⟨0x45, 0x04, 1⟩
/-- 0x45/0x05 HOLDOVER_EXIT (R380). -/
def Flt.ensHoldoverExit : FaultId := ⟨0x45, 0x05, 0⟩
/-- 0x45/0x06 STEP (R380). -/
def Flt.ensStep : FaultId := ⟨0x45, 0x06, 0⟩
/-- 0x48/0x01 EXCEEDED (R380). -/
def Flt.bndExceeded : FaultId := ⟨0x48, 0x01, 2⟩
/-- 0x48/0x02 UNBOUNDED (R380). -/
def Flt.bndUnbounded : FaultId := ⟨0x48, 0x02, 1⟩
/-- 0x48/0x03 MAP_CHANGE (R380). -/
def Flt.bndMapChange : FaultId := ⟨0x48, 0x03, 0⟩
/-- 0x48/0x04 COMMIT_REFUSED (R380). -/
def Flt.bndCommitRefused : FaultId := ⟨0x48, 0x04, 1⟩
/-- 0x48/0x05 CFG_BAD (R380). -/
def Flt.bndCfgBad : FaultId := ⟨0x48, 0x05, 1⟩
/-- 0x49/0x01 TRACE_OVERRUN (R380). -/
def Flt.bndTraceOverrun : FaultId := ⟨0x49, 0x01, 1⟩
/-- 0x49/0x02 TRACE_UNSIGNED (R380). -/
def Flt.bndTraceUnsigned : FaultId := ⟨0x49, 0x02, 1⟩
/-- 0x4C/0x01 COMMIT_REFUSED (R380). -/
def Flt.synCommitRefused : FaultId := ⟨0x4C, 0x01, 1⟩
/-- 0x4C/0x02 LOCKED (R380). -/
def Flt.synLocked : FaultId := ⟨0x4C, 0x02, 0⟩
/-- 0x4C/0x03 LOCK_FAIL (R380). -/
def Flt.synLockFail : FaultId := ⟨0x4C, 0x03, 2⟩
/-- 0x4C/0x04 UNLOCK (R380). -/
def Flt.synUnlock : FaultId := ⟨0x4C, 0x04, 2⟩
/-- 0x4C/0x05 RAMP_DONE (R380). -/
def Flt.synRampDone : FaultId := ⟨0x4C, 0x05, 0⟩
/-- 0x50/0x01 COMMIT_REFUSED (R380). -/
def Flt.outCommitRefused : FaultId := ⟨0x50, 0x01, 1⟩
/-- 0x50/0x02 GUARD (R380). -/
def Flt.outGuard : FaultId := ⟨0x50, 0x02, 1⟩
/-- 0x50/0x03 ALIGN_LOST (R380). -/
def Flt.outAlignLost : FaultId := ⟨0x50, 0x03, 1⟩
/-- 0x50/0x04 PPS_SKIPPED (R380). -/
def Flt.outPpsSkipped : FaultId := ⟨0x50, 0x04, 0⟩
/-- 0x54/0x01 SRC_VALID (R380). -/
def Flt.gnsSrcValid : FaultId := ⟨0x54, 0x01, 0⟩
/-- 0x54/0x02 SRC_LOST (R380). -/
def Flt.gnsSrcLost : FaultId := ⟨0x54, 0x02, 1⟩
/-- 0x54/0x03 EXCLUDED (R380). -/
def Flt.gnsExcluded : FaultId := ⟨0x54, 0x03, 0⟩
/-- 0x54/0x04 SURVEY_DONE (R380). -/
def Flt.gnsSurveyDone : FaultId := ⟨0x54, 0x04, 0⟩
/-- 0x54/0x05 TIME_FAR (R380). -/
def Flt.gnsTimeFar : FaultId := ⟨0x54, 0x05, 1⟩
/-- 0x54/0x06 STORE_BAD (R380). -/
def Flt.gnsStoreBad : FaultId := ⟨0x54, 0x06, 1⟩
/-- 0x54/0x07 CFG_BAD (R380). -/
def Flt.gnsCfgBad : FaultId := ⟨0x54, 0x07, 1⟩
/-- 0x54/0x08 MSG_OVERRUN (R380). -/
def Flt.gnsMsgOverrun : FaultId := ⟨0x54, 0x08, 1⟩
/-- 0x54/0x09 AID_ERR (R380). -/
def Flt.gnsAidErr : FaultId := ⟨0x54, 0x09, 1⟩
/-- 0x55/0x01 CLK_LOST (R380). -/
def Flt.gnsClkLost : FaultId := ⟨0x55, 0x01, 1⟩
/-- 0x55/0x02 CLK_RANGE (R380). -/
def Flt.gnsClkRange : FaultId := ⟨0x55, 0x02, 1⟩
/-- 0x55/0x03 INTERF (R380). -/
def Flt.gnsInterf : FaultId := ⟨0x55, 0x03, 1⟩
/-- 0x58/0x01 LOCKED (R380). -/
def Flt.lanLocked : FaultId := ⟨0x58, 0x01, 0⟩
/-- 0x58/0x02 LOCK_LOST (R380). -/
def Flt.lanLockLost : FaultId := ⟨0x58, 0x02, 1⟩
/-- 0x58/0x03 TRAIN_FAIL (R380). -/
def Flt.lanTrainFail : FaultId := ⟨0x58, 0x03, 1⟩
/-- 0x58/0x04 PLL_FAIL (R380). -/
def Flt.lanPllFail : FaultId := ⟨0x58, 0x04, 2⟩
/-- 0x58/0x05 CFG_BAD (R380). -/
def Flt.lanCfgBad : FaultId := ⟨0x58, 0x05, 1⟩
/-- 0x59/0x01 PRBS_LOCK_LOST (R380). -/
def Flt.lanPrbsLockLost : FaultId := ⟨0x59, 0x01, 0⟩
/-- 0x59/0x02 EYE_ABORT (R380). -/
def Flt.lanEyeAbort : FaultId := ⟨0x59, 0x02, 0⟩
/-- 0x5C/0x01 LINK_UP (R380). -/
def Flt.macLinkUp : FaultId := ⟨0x5C, 0x01, 0⟩
/-- 0x5C/0x02 LINK_DOWN (R380). -/
def Flt.macLinkDown : FaultId := ⟨0x5C, 0x02, 1⟩
/-- 0x5C/0x03 DESKEW_FAIL (R380). -/
def Flt.macDeskewFail : FaultId := ⟨0x5C, 0x03, 1⟩
/-- 0x5C/0x04 FIFO_DROP (R380). -/
def Flt.macFifoDrop : FaultId := ⟨0x5C, 0x04, 1⟩
/-- 0x5C/0x05 PAUSE_WD (R380). -/
def Flt.macPauseWd : FaultId := ⟨0x5C, 0x05, 1⟩
/-- 0x5C/0x06 CFG_BAD (R380). -/
def Flt.macCfgBad : FaultId := ⟨0x5C, 0x06, 1⟩
/-- 0x5D/0x01 RING_DROP (R380). -/
def Flt.macRingDrop : FaultId := ⟨0x5D, 0x01, 1⟩
/-- 0x5D/0x02 RING_ERR (R380). -/
def Flt.macRingErr : FaultId := ⟨0x5D, 0x02, 2⟩
/-- 0x5D/0x03 DESC_BAD (R380). -/
def Flt.macDescBad : FaultId := ⟨0x5D, 0x03, 1⟩
/-- 0x5D/0x04 LAUNCH_LATE (R380). -/
def Flt.macLaunchLate : FaultId := ⟨0x5D, 0x04, 0⟩
/-- 0x60/0x01 CFG_BAD (R380). -/
def Flt.pktCfgBad : FaultId := ⟨0x60, 0x01, 1⟩
/-- 0x60/0x02 INFLIGHT_FULL (R380). -/
def Flt.pktInflightFull : FaultId := ⟨0x60, 0x02, 0⟩
/-- 0x60/0x03 ADMIT_DENIED (R380). -/
def Flt.pktAdmitDenied : FaultId := ⟨0x60, 0x03, 0⟩
/-- 0x60/0x04 HOST_LIMIT (R380). -/
def Flt.pktHostLimit : FaultId := ⟨0x60, 0x04, 1⟩
/-- 0x60/0x05 NTP_LIMIT (R380). -/
def Flt.pktNtpLimit : FaultId := ⟨0x60, 0x05, 1⟩
/-- 0x60/0x06 DREQ_LIMIT (R380). -/
def Flt.pktDreqLimit : FaultId := ⟨0x60, 0x06, 0⟩
/-- 0x61/0x01 NO_KEY (R380). -/
def Flt.pktNoKey : FaultId := ⟨0x61, 0x01, 1⟩
/-- 0x61/0x02 AUTH_LOST (R380). -/
def Flt.pktAuthLost : FaultId := ⟨0x61, 0x02, 2⟩
/-- 0x61/0x03 KEY_LOAD_ERR (R380). -/
def Flt.pktKeyLoadErr : FaultId := ⟨0x61, 0x03, 1⟩
/-- 0x61/0x04 MINT_ERR (R380). -/
def Flt.pktMintErr : FaultId := ⟨0x61, 0x04, 1⟩
/-- 0x62/0x01 CLIENT_RUN (R380). -/
def Flt.pktClientRun : FaultId := ⟨0x62, 0x01, 0⟩
/-- 0x62/0x02 CLIENT_LOST (R380). -/
def Flt.pktClientLost : FaultId := ⟨0x62, 0x02, 1⟩
/-- 0x62/0x03 CLIENT_DENIED (R380). -/
def Flt.pktClientDenied : FaultId := ⟨0x62, 0x03, 1⟩
/-- 0x64/0x01 CFG_BAD (R380). -/
def Flt.cstCfgBad : FaultId := ⟨0x64, 0x01, 1⟩
/-- 0x64/0x02 BAR2_WRITE (R380). -/
def Flt.cstBar2Write : FaultId := ⟨0x64, 0x02, 1⟩
/-- 0x64/0x03 BUCKET_FULL (R380). -/
def Flt.cstBucketFull : FaultId := ⟨0x64, 0x03, 0⟩
/-- 0x64/0x04 SLOT_RETIRED (R380). -/
def Flt.cstSlotRetired : FaultId := ⟨0x64, 0x04, 1⟩
/-- 0x65/0x01 ECC_CE (R380). -/
def Flt.cstEccCe : FaultId := ⟨0x65, 0x01, 1⟩
/-- 0x65/0x02 ECC_UE (R380). -/
def Flt.cstEccUe : FaultId := ⟨0x65, 0x02, 2⟩
/-- 0x65/0x03 INIT_FAIL (R380). -/
def Flt.cstInitFail : FaultId := ⟨0x65, 0x03, 2⟩
/-- 0x68/0x01 CFG_BAD (R380). -/
def Flt.keyCfgBad : FaultId := ⟨0x68, 0x01, 1⟩
/-- 0x68/0x02 CMD_FAIL (R380). -/
def Flt.keyCmdFail : FaultId := ⟨0x68, 0x02, 1⟩
/-- 0x68/0x03 SLOT_FAULT (R380). -/
def Flt.keySlotFault : FaultId := ⟨0x68, 0x03, 2⟩
/-- 0x68/0x04 ENTROPY_FAIL (R380). -/
def Flt.keyEntropyFail : FaultId := ⟨0x68, 0x04, 2⟩
/-- 0x68/0x05 NO_ROOT (R380). -/
def Flt.keyNoRoot : FaultId := ⟨0x68, 0x05, 2⟩
/-- 0x68/0x06 CHEST_LOST (R380). -/
def Flt.keyChestLost : FaultId := ⟨0x68, 0x06, 2⟩
/-- 0x68/0x07 ROOT_CREATED (R380). -/
def Flt.keyRootCreated : FaultId := ⟨0x68, 0x07, 0⟩
/-- 0x69/0x01 TAMPER (R380). -/
def Flt.keyTamper : FaultId := ⟨0x69, 0x01, 2⟩
/-- 0x69/0x02 BURN_DONE (R380). -/
def Flt.keyBurnDone : FaultId := ⟨0x69, 0x02, 0⟩
/-- 0x69/0x03 BURN_INCOMPLETE (R380). -/
def Flt.keyBurnIncomplete : FaultId := ⟨0x69, 0x03, 2⟩
/-- 0x69/0x04 DISARMED (R380). -/
def Flt.keyDisarmed : FaultId := ⟨0x69, 0x04, 1⟩
/-- 0x6C/0x01 RETRY (R380). -/
def Flt.tndRetry : FaultId := ⟨0x6C, 0x01, 1⟩
/-- 0x6C/0x02 LINK_DOWN (R380). -/
def Flt.tndLinkDown : FaultId := ⟨0x6C, 0x02, 1⟩
/-- 0x6C/0x03 PAIRED (R380). -/
def Flt.tndPaired : FaultId := ⟨0x6C, 0x03, 0⟩
/-- 0x6C/0x04 AUTH_FAIL (R380). -/
def Flt.tndAuthFail : FaultId := ⟨0x6C, 0x04, 1⟩
/-- 0x6C/0x05 CFG_MISMATCH (R380). -/
def Flt.tndCfgMismatch : FaultId := ⟨0x6C, 0x05, 1⟩
/-- 0x6C/0x06 LANE_SWAP (R380). -/
def Flt.tndLaneSwap : FaultId := ⟨0x6C, 0x06, 1⟩
/-- 0x6C/0x07 CFG_BAD (R380). -/
def Flt.tndCfgBad : FaultId := ⟨0x6C, 0x07, 1⟩
/-- 0x6D/0x01 ROLE_ACTIVE (R380). -/
def Flt.tndRoleActive : FaultId := ⟨0x6D, 0x01, 0⟩
/-- 0x6D/0x02 ROLE_STANDBY (R380). -/
def Flt.tndRoleStandby : FaultId := ⟨0x6D, 0x02, 0⟩
/-- 0x6D/0x03 PEER_STALE (R380). -/
def Flt.tndPeerStale : FaultId := ⟨0x6D, 0x03, 2⟩
/-- 0x6D/0x04 CLAIM_OUT_FAIL (R380). -/
def Flt.tndClaimOutFail : FaultId := ⟨0x6D, 0x04, 2⟩
/-- 0x6D/0x05 STRAP_CLASH (R380). -/
def Flt.tndStrapClash : FaultId := ⟨0x6D, 0x05, 2⟩
/-- 0x6D/0x06 SELFTEST_FAIL (R380). -/
def Flt.tndSelftestFail : FaultId := ⟨0x6D, 0x06, 1⟩
/-- 0x6D/0x07 KEY_MIRROR_FAIL (R380). -/
def Flt.tndKeyMirrorFail : FaultId := ⟨0x6D, 0x07, 1⟩

end Sys2Proof.Machine
end

