-- ==== Sys2Proof/Machine/Regs.lean ====
section
/-! DEFINITION. The register map of BAR0 (chapters 01-18, register tables; 19 R461-R463): for every register its place, its
fields' access codes as masks (R14) and its Reset column (R19). The Reset column of an `img`, `strap` or `fixed` field is
entered as 0 (R19: an `img` field reads 0 until the image is loaded). -/
namespace Sys2Proof.Machine

/-- One row of a register table: `n1` instances every `s1` bytes, each holding `n2` copies every `s2` bytes, from window
offset `off`. The masks say which bits have which access code (R14); the bits in none are RO. `resv` bits are reserved and
read 0 (R18). -/
structure RegDesc where
  /-- offset inside the block's window of 1 MiB -/
  off : Nat
  /-- instance stride in bytes; 0 for one instance -/
  s1 : Nat := 0
  /-- instances -/
  n1 : Nat := 1
  /-- inner stride in bytes; 0 for one -/
  s2 : Nat := 0
  /-- inner copies -/
  n2 : Nat := 1
  rw : Nat := 0
  rc : Nat := 0
  w1c : Nat := 0
  w1s : Nat := 0
  wo : Nat := 0
  sh : Nat := 0
  resv : Nat := 0
  /-- the Reset column (R19) -/
  rst : Nat := 0
  deriving DecidableEq, Repr

/-- Whether a row names window offset `o`. -/
def RegDesc.covers (d : RegDesc) (o : Nat) : Bool :=
  let r := o - d.off
  let i := if d.s1 = 0 then 0 else r / d.s1
  let r' := if d.s1 = 0 then r else r % d.s1
  let j := if d.s2 = 0 then 0 else r' / d.s2
  let r'' := if d.s2 = 0 then r' else r' % d.s2
  decide (d.off ≤ o) && decide (i < d.n1) && decide (j < d.n2) && decide (r'' = 0)

/-- Registers of CFG (register map of its chapter). -/
def cfgRegs : List RegDesc := [
  /- CFG_ID -/ { off := 0x0000, resv := 0xFF, rst := 0x94400000 },
  /- CFG_STAT -/ { off := 0x0010, resv := 0x1FFFF, rst := 0xC000000 },
  /- CFG_GEN -/ { off := 0x0014 },
  /- CFG_REFUSE -/ { off := 0x0018, resv := 0x3FFF00 },
  /- CFG_REFUSE_DETAIL -/ { off := 0x001C },
  /- CFG_IRQ_STAT -/ { off := 0x0020, w1c := 0x1F, resv := 0xFFFFFFE0 },
  /- CFG_IRQ_EN -/ { off := 0x0024, rw := 0x1F, resv := 0xFFFFFFE0 },
  /- CFG_COMPAT -/ { off := 0x0028, resv := 0xFFFFFFF8 },
  /- CFG_BUILD -/ { off := 0x002C },
  /- CFG_LOAD_CTL -/ { off := 0x0030, wo := 0xC0000000, resv := 0x3FFFFFFF },
  /- CFG_LOAD_ADDR -/ { off := 0x0034, rw := 0x7FFFF, resv := 0xFFF80000 },
  /- CFG_LOAD_DATA -/ { off := 0x0038, wo := 0xFFFFFFFF },
  /- CFG_OWNER_HASHi -/ { off := 0x0040, s1 := 0x4, n1 := 8, rw := 0xFFFFFFFF },
  /- CFG_OWNER_CMD -/ { off := 0x0060, wo := 0xFF000103, resv := 0xFFFEFC },
  /- CFG_OWNER_STAT -/ { off := 0x0064, resv := 0x7FFF0FF },
  /- CFG_KEEP_LO -/ { off := 0x0070 },
  /- CFG_KEEP_HI -/ { off := 0x0074, resv := 0xFFFF0000 },
  /- CFG_START_MS -/ { off := 0x0078 },
  /- CFG_FENCE -/ { off := 0x0100, wo := 0xFF1FFFFF, resv := 0xE00000 },
  /- CFG_FENCE_STAT -/ { off := 0x0104, resv := 0xFC }]

/-- Registers of PWR (register map of its chapter). -/
def pwrRegs : List RegDesc := [
  /- PWR_CAP -/ { off := 0x0000, resv := 0xFFFFFC00 },
  /- PWR_DOM_REQ -/ { off := 0x0010, rw := 0x3FF, resv := 0xFFFFFC00 },
  /- PWR_DOM_STAT -/ { off := 0x0014, resv := 0x70FFFC00, rst := 0x13 },
  /- PWR_IRQ_STAT -/ { off := 0x0020, w1c := 0xF, resv := 0xFFFFFFF0 },
  /- PWR_IRQ_EN -/ { off := 0x0024, rw := 0xF, resv := 0xFFFFFFF0 },
  /- PWR_RAIL_STAT -/ { off := 0x0030, w1c := 0x3FF0000, resv := 0xFC00FC00 },
  /- PWR_IO_CTL -/ { off := 0x0034, rw := 0xF, resv := 0xFFFFFFF0 },
  /- PWR_THERM -/ { off := 0x0040, rw := 0xFFFF, resv := 0xFFFF0000, rst := 0x6400 },
  /- PWR_DIE_MAX -/ { off := 0x0044, rc := 0xFFFF, resv := 0xFFFF0000, rst := 0x8000 },
  /- PWR_VBAT -/ { off := 0x0050, resv := 0xFFFF0000 },
  /- PWR_CRES -/ { off := 0x0054, resv := 0xFFFF0000 }]

/-- Registers of FLT (register map of its chapter), part 0. -/
def fltRegs0 : List RegDesc := [
  /- FLT_CAP -/ { off := 0x0000, resv := 0xFFFF0000, rst := 0x400 },
  /- FLT_CTL -/ { off := 0x0010, rw := 0x3, resv := 0xFFFFFFFC, rst := 0x2 },
  /- FLT_STAT -/ { off := 0x0014, w1c := 0x20000000, resv := 0x1FFFFFFC, rst := 0x40000000 },
  /- FLT_IRQ_STAT -/ { off := 0x0020, w1c := 0x7, resv := 0xFFFFFFF8 },
  /- FLT_IRQ_EN -/ { off := 0x0024, rw := 0x7, resv := 0xFFFFFFF8 },
  /- FLT_NMI_STAT -/ { off := 0x0028, w1c := 0x1, resv := 0xFFFFFFFE },
  /- FLT_FIRST -/ { off := 0x0030, w1c := 0x1000, resv := 0x2000 },
  /- FLT_FIRST_CTX -/ { off := 0x0034 },
  /- FLT_WORST -/ { off := 0x0038, w1c := 0x1000, resv := 0x2000 },
  /- FLT_WORST_CTX -/ { off := 0x003C },
  /- FLT_LOG_WR -/ { off := 0x0040 },
  /- FLT_LOG_RD -/ { off := 0x0044, rw := 0xFFFFFFFF },
  /- FLT_LOG_W0 -/ { off := 0x0048 },
  /- FLT_LOG_W1 -/ { off := 0x004C },
  /- FLT_LOG_W2 -/ { off := 0x0050 },
  /- FLT_LOG_W3 -/ { off := 0x0054 },
  /- FLT_LOG_STAT -/ { off := 0x0058, rc := 0xFFFF, resv := 0xFFFF0000 },
  /- FLT_BRESET -/ { off := 0x0060, wo := 0x1FFFFF, resv := 0xFFE00000 },
  /- FLT_MASK_STAT -/ { off := 0x0064, resv := 0xFFE00000 },
  /- FLT_MASKED_CNT -/ { off := 0x0068, rc := 0xFFFFFFFF }]

/-- Registers of FLT (register map of its chapter), part 1. -/
def fltRegs1 : List RegDesc := [
  /- FLT_CRESET -/ { off := 0x0070, wo := 0xFF000000, resv := 0xFFFFFF },
  /- FLT_SAFE_REQ -/ { off := 0x0074, wo := 0xFFFF, resv := 0xFFFF0000 },
  /- FLT_SAFE_STAT -/ { off := 0x0078, resv := 0x3FFF0000 },
  /- FLT_RESET_CAUSE -/ { off := 0x007C, resv := 0x3FFF00FF },
  /- FLT_REACTs -/ { off := 0x1000, s1 := 0x4, n1 := 256, rw := 0x1F1F1F00, resv := 0xE0E0E0FF, rst := 0x12110100 },
  /- FLT_SRCs -/ { off := 0x1400, s1 := 0x4, n1 := 256, w1c := 0xF0000000, resv := 0xF000000 }]

/-- All registers of FLT. -/
def fltRegs : List RegDesc := fltRegs0 ++ fltRegs1

/-- Registers of MTX (register map of its chapter). -/
def mtxRegs : List RegDesc := [
  /- MTX_CAP -/ { off := 0x0000, rst := 0x2004020 },
  /- MTX_PCIE_STAT -/ { off := 0x0010, resv := 0xF00FFFF8 },
  /- MTX_IRQ_STAT -/ { off := 0x0020, w1c := 0x3F, resv := 0xFFFFFFC0 },
  /- MTX_IRQ_EN -/ { off := 0x0024, rw := 0x3F, resv := 0xFFFFFFC0 },
  /- MTX_ERR_ADDR_LO -/ { off := 0x0030 },
  /- MTX_ERR_ADDR_HI -/ { off := 0x0034 },
  /- MTX_ERR_INFO -/ { off := 0x0038, resv := 0xFFFFFF },
  /- MTX_OUTSTANDING -/ { off := 0x0040, rc := 0x3FF0000, resv := 0xFC00FC00 },
  /- MTX_I2C_STAT -/ { off := 0x0050, rc := 0xFFFF0000, resv := 0xFE80 },
  /- MTX_Mm_STAT -/ { off := 0x0100, s1 := 0x4, n1 := 5, rc := 0xFFFF0000, resv := 0xFF80 }]

/-- Registers of DMA (register map of its chapter). -/
def dmaRegs : List RegDesc := [
  /- DMA_CAP -/ { off := 0x0000, resv := 0xFFFFFF00, rst := 0x10 },
  /- DMA_IRQ_STAT -/ { off := 0x0020, w1c := 0xFFFFFFFF },
  /- DMA_IRQ_EN -/ { off := 0x0024, rw := 0xFFFFFFFF },
  /- DMA_CHc_CTL -/ { off := 0x1000, s1 := 0x40, n1 := 16, rw := 0x80000000, resv := 0x7FFFFFFF },
  /- DMA_CHc_STAT -/ { off := 0x1004, s1 := 0x40, n1 := 16, resv := 0x7FF00FF },
  /- DMA_CHc_HEAD_LO -/ { off := 0x1008, s1 := 0x40, n1 := 16, rw := 0xFFFFFFFF },
  /- DMA_CHc_HEAD_HI -/ { off := 0x100C, s1 := 0x40, n1 := 16, rw := 0xFFFFFFFF },
  /- DMA_CHc_DOORBELL -/ { off := 0x1010, s1 := 0x40, n1 := 16, wo := 0x1, resv := 0xFFFFFFFE },
  /- DMA_CHc_CUR_LO -/ { off := 0x1014, s1 := 0x40, n1 := 16 },
  /- DMA_CHc_CUR_HI -/ { off := 0x1018, s1 := 0x40, n1 := 16 },
  /- DMA_CHc_DESC_DONE -/ { off := 0x101C, s1 := 0x40, n1 := 16 },
  /- DMA_CHc_BYTES_LO -/ { off := 0x1020, s1 := 0x40, n1 := 16 },
  /- DMA_CHc_BYTES_HI -/ { off := 0x1024, s1 := 0x40, n1 := 16 }]

/-- Registers of PRF (register map of its chapter). -/
def prfRegs : List RegDesc := [
  /- PRF_CAP -/ { off := 0x0000, resv := 0xFFFF0000, rst := 0x100 },
  /- PRF_DUMP_CTL -/ { off := 0x0010, rw := 0x80000000, resv := 0x7FFFFFFF },
  /- PRF_DUMP_INT -/ { off := 0x0014, rw := 0x3FFFFF, resv := 0xFFC00000, rst := 0x3E8 },
  /- PRF_DUMP_BASE_LO -/ { off := 0x0018, rw := 0xFFFFFFFF },
  /- PRF_DUMP_BASE_HI -/ { off := 0x001C, rw := 0xFFFFFFFF },
  /- PRF_IRQ_STAT -/ { off := 0x0020, w1c := 0x7, resv := 0xFFFFFFF8 },
  /- PRF_IRQ_EN -/ { off := 0x0024, rw := 0x7, resv := 0xFFFFFFF8 },
  /- PRF_DUMP_SLOTS -/ { off := 0x0030, rw := 0x1FFFF, resv := 0xFFFE0000, rst := 0x40 },
  /- PRF_DUMP_WR -/ { off := 0x0034 },
  /- PRF_DUMP_RD -/ { off := 0x0038, rw := 0xFFFFFFFF },
  /- PRF_DUMP_STAT -/ { off := 0x003C, rc := 0xFFFFFF00, resv := 0xFC },
  /- PRF_CNTi_LO -/ { off := 0x1000, s1 := 0x8, n1 := 256 },
  /- PRF_CNTi_HI -/ { off := 0x1004, s1 := 0x8, n1 := 256, resv := 0xFFFF0000 }]

/-- Registers of SPN (register map of its chapter), part 0. -/
def spnRegs0 : List RegDesc := [
  /- SPN_CAP -/ { off := 0x0000, resv := 0xFFFF0000 },
  /- SPN_YOKE_MAP -/ { off := 0x0004 },
  /- SPN_SPINE_CTL -/ { off := 0x0010, rw := 0x13, resv := 0xFFFFFFEC },
  /- SPN_SPINE_STAT -/ { off := 0x0014, resv := 0xFF0C, rst := 0x80 },
  /- SPN_COMP_LO -/ { off := 0x0018 },
  /- SPN_COMP_HI -/ { off := 0x001C, resv := 0xFFFF0000 },
  /- SPN_SNAP_REQ -/ { off := 0x0020, wo := 0xFF, resv := 0xFFFFFF00 },
  /- SPN_SNAP_STAT -/ { off := 0x0024, resv := 0xFFFE },
  /- SPN_IRQ_STAT -/ { off := 0x0030, w1c := 0x3F, resv := 0xFFFFFFC0 },
  /- SPN_IRQ_EN -/ { off := 0x0034, rw := 0x3F, resv := 0xFFFFFFC0 },
  /- SPN_SLOT_INT_LO -/ { off := 0x0038, w1c := 0xFFFFFFFF },
  /- SPN_SLOT_INT_HI -/ { off := 0x003C, w1c := 0xFFFFFFFF },
  /- SPN_EVT_STAT -/ { off := 0x0040, w1c := 0xFF00, resv := 0xFFFF0000 },
  /- SPN_SNAP_TBn_W0 -/ { off := 0x0100, s1 := 0x20, n1 := 8 },
  /- SPN_SNAP_TBn_W1 -/ { off := 0x0104, s1 := 0x20, n1 := 8 },
  /- SPN_SNAP_TBn_W2 -/ { off := 0x0108, s1 := 0x20, n1 := 8 },
  /- SPN_SNAP_TBn_BND -/ { off := 0x010C, s1 := 0x20, n1 := 8, rst := 0xFFFFFFFF },
  /- SPN_SNAP_TBn_INFO -/ { off := 0x0110, s1 := 0x20, n1 := 8, resv := 0xFFFFFF0 },
  /- SPN_TBn_CTL -/ { off := 0x1000, s1 := 0x100, n1 := 8, sh := 0x3, resv := 0xFFFFFFFC },
  /- SPN_TBn_STAT -/ { off := 0x1004, s1 := 0x100, n1 := 8, resv := 0xFFFFFF0 }]

/-- Registers of SPN (register map of its chapter), part 1. -/
def spnRegs1 : List RegDesc := [
  /- SPN_TBn_COMMIT -/ { off := 0x1008, s1 := 0x100, n1 := 8, wo := 0x3, resv := 0xFFFFFFFC },
  /- SPN_TBn_COMMIT_STAT -/ { off := 0x100C, s1 := 0x100, n1 := 8, resv := 0xF0FC },
  /- SPN_TBn_INC_LO -/ { off := 0x1010, s1 := 0x100, n1 := 8, sh := 0xFFFFFFFF },
  /- SPN_TBn_INC_HI -/ { off := 0x1014, s1 := 0x100, n1 := 8, sh := 0xFFFFFFFF, rst := 0x80 },
  /- SPN_TBn_FADJ_LO -/ { off := 0x1018, s1 := 0x100, n1 := 8, sh := 0xFFFFFFFF },
  /- SPN_TBn_FADJ_HI -/ { off := 0x101C, s1 := 0x100, n1 := 8, sh := 0xFFFF, resv := 0xFFFF0000 },
  /- SPN_TBn_FNOW_LO -/ { off := 0x1020, s1 := 0x100, n1 := 8 },
  /- SPN_TBn_FNOW_HI -/ { off := 0x1024, s1 := 0x100, n1 := 8, resv := 0xFFFF0000 },
  /- SPN_TBn_PADJ_LO -/ { off := 0x1028, s1 := 0x100, n1 := 8, sh := 0xFFFFFFFF },
  /- SPN_TBn_PADJ_HI -/ { off := 0x102C, s1 := 0x100, n1 := 8, sh := 0xFFFFFFFF },
  /- SPN_TBn_PEND_LO -/ { off := 0x1030, s1 := 0x100, n1 := 8 },
  /- SPN_TBn_PEND_HI -/ { off := 0x1034, s1 := 0x100, n1 := 8 },
  /- SPN_TBn_SLEW -/ { off := 0x1038, s1 := 0x100, n1 := 8, sh := 0xFFFFFF, resv := 0xFF000000, rst := 0xA00 },
  /- SPN_TBn_SET_W0 -/ { off := 0x1040, s1 := 0x100, n1 := 8, sh := 0xFFFFFFFF },
  /- SPN_TBn_SET_W1 -/ { off := 0x1044, s1 := 0x100, n1 := 8, sh := 0xFFFFFFFF },
  /- SPN_TBn_SET_W2 -/ { off := 0x1048, s1 := 0x100, n1 := 8, sh := 0xFFFFFFFF },
  /- SPN_TBn_YOKE_OFS_LO -/ { off := 0x1050, s1 := 0x100, n1 := 8, sh := 0xFFFFFFFF },
  /- SPN_TBn_YOKE_OFS_HI -/ { off := 0x1054, s1 := 0x100, n1 := 8, sh := 0xFFFFFFFF },
  /- SPN_TBn_YOKE_RATIO_LO -/ { off := 0x1058, s1 := 0x100, n1 := 8, sh := 0xFFFFFFFF },
  /- SPN_TBn_YOKE_RATIO_HI -/ { off := 0x105C, s1 := 0x100, n1 := 8, sh := 0xFFFF, resv := 0xFFFF0000 }]

/-- Registers of SPN (register map of its chapter), part 2. -/
def spnRegs2 : List RegDesc := [
  /- SPN_TBn_LEAP_CTL -/ { off := 0x1060, s1 := 0x100, n1 := 8, sh := 0x3FFFF, resv := 0xFFFC0000 },
  /- SPN_TBn_LEAP_AT_LO -/ { off := 0x1064, s1 := 0x100, n1 := 8, sh := 0xFFFFFFFF },
  /- SPN_TBn_LEAP_AT_HI -/ { off := 0x1068, s1 := 0x100, n1 := 8, sh := 0xFFFF, resv := 0xFFFF0000 },
  /- SPN_TBn_SMEAR -/ { off := 0x106C, s1 := 0x100, n1 := 8, sh := 0xC001FFFF, resv := 0x3FFE0000, rst := 0x15180 },
  /- SPN_TBn_LEAP_STAT -/ { off := 0x1070, s1 := 0x100, n1 := 8, resv := 0xFFF0 },
  /- SPN_SLOT_CTL -/ { off := 0x2000, s1 := 0x20, n1 := 64, rw := 0x271F0007, w1s := 0x80000000, wo := 0x40000000, resv := 0x18E0FFF8 },
  /- SPN_SLOT_T_W0 -/ { off := 0x2004, s1 := 0x20, n1 := 64, rw := 0xFFFFFFFF },
  /- SPN_SLOT_T_W1 -/ { off := 0x2008, s1 := 0x20, n1 := 64, rw := 0xFFFFFFFF },
  /- SPN_SLOT_T_W2 -/ { off := 0x200C, s1 := 0x20, n1 := 64, rw := 0xFFFFFFFF },
  /- SPN_SLOT_PER -/ { off := 0x2010, s1 := 0x20, n1 := 64, rw := 0xFFFFFFFF },
  /- SPN_SLOT_WIDTH -/ { off := 0x2014, s1 := 0x20, n1 := 64, rw := 0xFFFFFFFF, rst := 0x64 },
  /- SPN_SLOT_CNT -/ { off := 0x2018, s1 := 0x20, n1 := 64, rw := 0xFFFFFFFF },
  /- SPN_SLOT_STAT -/ { off := 0x201C, s1 := 0x20, n1 := 64, w1c := 0x7, resv := 0xFFF8 }]

/-- All registers of SPN. -/
def spnRegs : List RegDesc := spnRegs0 ++ spnRegs1 ++ spnRegs2

/-- Registers of REF (register map of its chapter). -/
def refRegs : List RegDesc := [
  /- REF_CAP -/ { off := 0x0000, resv := 0xFFFFF000 },
  /- REF_IRQ_STAT -/ { off := 0x0010, w1c := 0xFFF, resv := 0xFFFFF000 },
  /- REF_IRQ_EN -/ { off := 0x0014, rw := 0xFFF, resv := 0xFFFFF000 },
  /- REF_DIE_TEMP -/ { off := 0x0020, resv := 0xFFFF0000 },
  /- REF_INn_CTL -/ { off := 0x1000, s1 := 0x40, n1 := 8, rw := 0xFCFFFF00, resv := 0x30000FF, rst := 0x30400 },
  /- REF_INn_FREQ -/ { off := 0x1004, s1 := 0x40, n1 := 8, rw := 0x3FFFFFFF, resv := 0xC0000000 },
  /- REF_INn_DIV -/ { off := 0x1008, s1 := 0x40, n1 := 8, rw := 0xFFFFFF, resv := 0xFF000000 },
  /- REF_INn_DLY -/ { off := 0x100C, s1 := 0x40, n1 := 8, rw := 0xFFFFFFFF },
  /- REF_INn_STAT -/ { off := 0x1010, s1 := 0x40, n1 := 8, rc := 0xFFFF0000, resv := 0xFFF0, rst := 0x2 },
  /- REF_INn_EDGES -/ { off := 0x1014, s1 := 0x40, n1 := 8 },
  /- REF_LOn_CTL -/ { off := 0x2000, s1 := 0x40, n1 := 4, rw := 0xFFFFFFC0, resv := 0x3F, rst := 0x30400 },
  /- REF_LOn_FREQ -/ { off := 0x2004, s1 := 0x40, n1 := 4, rw := 0xFFFFFFF, resv := 0xF0000000 },
  /- REF_LOn_STAT -/ { off := 0x2008, s1 := 0x40, n1 := 4, resv := 0xFFFFFF80, rst := 0x2 },
  /- REF_LOn_TEMP -/ { off := 0x200C, s1 := 0x40, n1 := 4, resv := 0xFFFF0000 }]

/-- Registers of TIU (register map of its chapter), part 0. -/
def tiuRegs0 : List RegDesc := [
  /- TIU_CAP -/ { off := 0x0000, resv := 0xC0000000 },
  /- TIU_CAL_CTL -/ { off := 0x0010, rw := 0xFFFFFF, wo := 0x80000000, resv := 0x7F000000, rst := 0x803E8 },
  /- TIU_CAL_STAT -/ { off := 0x0014, resv := 0xF000 },
  /- TIU_IRQ_STAT -/ { off := 0x0020, w1c := 0x3FFFFFFF, resv := 0xC0000000 },
  /- TIU_IRQ_EN -/ { off := 0x0024, rw := 0x3FFFFFFF, resv := 0xC0000000 },
  /- TIU_Pk_CTL -/ { off := 0x1000, s1 := 0x80, n1 := 12, rw := 0xFFF0FFFF, resv := 0x80000 },
  /- TIU_Pk_SRC -/ { off := 0x1004, s1 := 0x80, n1 := 12, resv := 0xFFFFFFF0 },
  /- TIU_Pk_STAT -/ { off := 0x1008, s1 := 0x80, n1 := 12, w1c := 0x8, resv := 0xFFE0 },
  /- TIU_Pk_SYS -/ { off := 0x100C, s1 := 0x80, n1 := 12 },
  /- TIU_Pk_RES_SEQ -/ { off := 0x1010, s1 := 0x80, n1 := 12 },
  /- TIU_Pk_RES_MEAN_LO -/ { off := 0x1014, s1 := 0x80, n1 := 12 },
  /- TIU_Pk_RES_MEAN_HI -/ { off := 0x1018, s1 := 0x80, n1 := 12 },
  /- TIU_Pk_RES_SD -/ { off := 0x101C, s1 := 0x80, n1 := 12 },
  /- TIU_Pk_RES_MIN_LO -/ { off := 0x1020, s1 := 0x80, n1 := 12 },
  /- TIU_Pk_RES_MIN_HI -/ { off := 0x1024, s1 := 0x80, n1 := 12 },
  /- TIU_Pk_RES_MAX_LO -/ { off := 0x1028, s1 := 0x80, n1 := 12 },
  /- TIU_Pk_RES_MAX_HI -/ { off := 0x102C, s1 := 0x80, n1 := 12 },
  /- TIU_Pk_RES_T_W0 -/ { off := 0x1030, s1 := 0x80, n1 := 12 },
  /- TIU_Pk_RES_T_W1 -/ { off := 0x1034, s1 := 0x80, n1 := 12 },
  /- TIU_Pk_RES_T_W2 -/ { off := 0x1038, s1 := 0x80, n1 := 12 }]

/-- Registers of TIU (register map of its chapter), part 1. -/
def tiuRegs1 : List RegDesc := [
  /- TIU_Pk_RES_INFO -/ { off := 0x103C, s1 := 0x80, n1 := 12, resv := 0xFFFC },
  /- TIU_Pk_CAL_GAIN -/ { off := 0x1040, s1 := 0x80, n1 := 12, rst := 0x100000 },
  /- TIU_Pk_CAL_OFS -/ { off := 0x1044, s1 := 0x80, n1 := 12 },
  /- TIU_Pk_RUNTS -/ { off := 0x1048, s1 := 0x80, n1 := 12, rc := 0xFFFF, resv := 0xFFFF0000 },
  /- TIU_Lm_CTL -/ { off := 0x3000, s1 := 0x80, n1 := 18, rw := 0x8000FFFF, resv := 0x3FF80000, rst := 0x40000000 },
  /- TIU_Lm_STAT -/ { off := 0x3008, s1 := 0x80, n1 := 18, w1c := 0x8, resv := 0xFFE0 },
  /- TIU_Lm_SYS -/ { off := 0x300C, s1 := 0x80, n1 := 18 },
  /- TIU_Lm_RES_SEQ -/ { off := 0x3010, s1 := 0x80, n1 := 18 },
  /- TIU_Lm_RES_MEAN_LO -/ { off := 0x3014, s1 := 0x80, n1 := 18 },
  /- TIU_Lm_RES_MEAN_HI -/ { off := 0x3018, s1 := 0x80, n1 := 18 },
  /- TIU_Lm_RES_SD -/ { off := 0x301C, s1 := 0x80, n1 := 18 },
  /- TIU_Lm_RES_MIN_LO -/ { off := 0x3020, s1 := 0x80, n1 := 18 },
  /- TIU_Lm_RES_MIN_HI -/ { off := 0x3024, s1 := 0x80, n1 := 18 },
  /- TIU_Lm_RES_MAX_LO -/ { off := 0x3028, s1 := 0x80, n1 := 18 },
  /- TIU_Lm_RES_MAX_HI -/ { off := 0x302C, s1 := 0x80, n1 := 18 },
  /- TIU_Lm_RES_T_W0 -/ { off := 0x3030, s1 := 0x80, n1 := 18 },
  /- TIU_Lm_RES_T_W1 -/ { off := 0x3034, s1 := 0x80, n1 := 18 },
  /- TIU_Lm_RES_T_W2 -/ { off := 0x3038, s1 := 0x80, n1 := 18 },
  /- TIU_Lm_RES_INFO -/ { off := 0x303C, s1 := 0x80, n1 := 18, resv := 0xFFFC },
  /- TIU_Lm_VCAL_SLOW -/ { off := 0x3040, s1 := 0x80, n1 := 18 }]

/-- Registers of TIU (register map of its chapter), part 2. -/
def tiuRegs2 : List RegDesc := [
  /- TIU_Lm_VCAL_FAST -/ { off := 0x3044, s1 := 0x80, n1 := 18 }]

/-- All registers of TIU. -/
def tiuRegs : List RegDesc := tiuRegs0 ++ tiuRegs1 ++ tiuRegs2

/-- Registers of SEL (register map of its chapter), part 0. -/
def selRegs0 : List RegDesc := [
  /- SEL_CAP -/ { off := 0x0000, resv := 0xC0000000 },
  /- SEL_AGREE_TOL -/ { off := 0x0010, rw := 0xFFFFFFFF, rst := 0x36F9 },
  /- SEL_ENS_TOL -/ { off := 0x0014, rw := 0xFFFFFFFF, rst := 0x15FD },
  /- SEL_IRQ_STAT -/ { off := 0x0020, w1c := 0xF, resv := 0xFFFFFFF0 },
  /- SEL_IRQ_EN -/ { off := 0x0024, rw := 0xF, resv := 0xFFFFFFF0 },
  /- SEL_CAND_CHG -/ { off := 0x0028, w1c := 0x3FFFFFFF, resv := 0xC0000000 },
  /- SEL_MON_SEQ -/ { off := 0x002C },
  /- SEL_PROFp_FS1 -/ { off := 0x0100, s1 := 0x40, n1 := 8, rw := 0xFFFFFFFF, rst := 0x55E63B },
  /- SEL_PROFp_FH1 -/ { off := 0x0104, s1 := 0x40, n1 := 8, rw := 0xFFFFFFFF, rst := 0x1AD7F29 },
  /- SEL_PROFp_FS10 -/ { off := 0x0108, s1 := 0x40, n1 := 8, rw := 0xFFFFFFFF, rst := 0x89705 },
  /- SEL_PROFp_FH10 -/ { off := 0x010C, s1 := 0x40, n1 := 8, rw := 0xFFFFFFFF, rst := 0x2AF31D },
  /- SEL_PROFp_FS100 -/ { off := 0x0110, s1 := 0x40, n1 := 8, rw := 0xFFFFFFFF, rst := 0xDBE6 },
  /- SEL_PROFp_FH100 -/ { off := 0x0114, s1 := 0x40, n1 := 8, rw := 0xFFFFFFFF, rst := 0x44B82 },
  /- SEL_PROFp_CUSUM_K -/ { off := 0x0118, s1 := 0x40, n1 := 8, rw := 0xFFFFFFFF, rst := 0x8000 },
  /- SEL_PROFp_CUSUM_H -/ { off := 0x011C, s1 := 0x40, n1 := 8, rw := 0xFFFFFFFF, rst := 0x640000 },
  /- SEL_CANDc_CTL -/ { off := 0x1000, s1 := 0x80, n1 := 30, rw := 0xC70FFF00, resv := 0x38F000FF, rst := 0xE00 },
  /- SEL_CANDc_WTR -/ { off := 0x1004, s1 := 0x80, n1 := 30, rw := 0xFFF, resv := 0xFFFFF000, rst := 0x12C },
  /- SEL_CANDc_U -/ { off := 0x1008, s1 := 0x80, n1 := 30, rw := 0xFFFFFFFF },
  /- SEL_CANDc_UEFF -/ { off := 0x100C, s1 := 0x80, n1 := 30, rst := 0xFFFFFFFF },
  /- SEL_CANDc_STAT -/ { off := 0x1010, s1 := 0x80, n1 := 30, resv := 0x38, rst := 0xF0000 }]

/-- Registers of SEL (register map of its chapter), part 1. -/
def selRegs1 : List RegDesc := [
  /- SEL_CANDc_QIN -/ { off := 0x1014, s1 := 0x80, n1 := 30 },
  /- SEL_CANDc_F1_LO -/ { off := 0x1018, s1 := 0x80, n1 := 30 },
  /- SEL_CANDc_F1_HI -/ { off := 0x101C, s1 := 0x80, n1 := 30, resv := 0xFFFF0000 },
  /- SEL_CANDc_F10_LO -/ { off := 0x1020, s1 := 0x80, n1 := 30 },
  /- SEL_CANDc_F10_HI -/ { off := 0x1024, s1 := 0x80, n1 := 30, resv := 0xFFFF0000 },
  /- SEL_CANDc_F100_LO -/ { off := 0x1028, s1 := 0x80, n1 := 30 },
  /- SEL_CANDc_F100_HI -/ { off := 0x102C, s1 := 0x80, n1 := 30, resv := 0xFFFF0000 },
  /- SEL_CANDc_CUSUM_POS -/ { off := 0x1030, s1 := 0x80, n1 := 30 },
  /- SEL_CANDc_CUSUM_NEG -/ { off := 0x1034, s1 := 0x80, n1 := 30 },
  /- SEL_CANDc_DQ_CNT -/ { off := 0x1038, s1 := 0x80, n1 := 30, rc := 0xFFFF, resv := 0xFFFF0000 },
  /- SEL_TBn_MEMBERS -/ { off := 0x3000, s1 := 0x40, n1 := 8, resv := 0xC0000000 },
  /- SEL_TBn_CTL -/ { off := 0x3004, s1 := 0x40, n1 := 8, rw := 0x31F, resv := 0xFFFFFCE0 },
  /- SEL_TBn_STAT -/ { off := 0x3008, s1 := 0x40, n1 := 8, resv := 0xE8E0, rst := 0x1F },
  /- SEL_TBn_STEP_LO -/ { off := 0x300C, s1 := 0x40, n1 := 8 },
  /- SEL_TBn_STEP_HI -/ { off := 0x3010, s1 := 0x40, n1 := 8 }]

/-- All registers of SEL. -/
def selRegs : List RegDesc := selRegs0 ++ selRegs1

/-- Registers of ENS (register map of its chapter), part 0. -/
def ensRegs0 : List RegDesc := [
  /- ENS_CAP -/ { off := 0x0000, resv := 0xFFFF00F0 },
  /- ENS_CTL -/ { off := 0x0010, rw := 0xFF03, resv := 0xFFFF00FC, rst := 0x501 },
  /- ENS_TAUW -/ { off := 0x0014, rw := 0xFFFFFFFF, rst := 0x15180 },
  /- ENS_HOLD_TAU -/ { off := 0x0018, rw := 0xFFFFFFFF, rst := 0x2710 },
  /- ENS_STAT -/ { off := 0x0020, resv := 0xFFFFF070 },
  /- ENS_SEQ -/ { off := 0x0024 },
  /- ENS_IRQ_STAT -/ { off := 0x0030, w1c := 0x1F, resv := 0xFFFFFFE0 },
  /- ENS_IRQ_EN -/ { off := 0x0034, rw := 0x1F, resv := 0xFFFFFFE0 },
  /- ENS_TB_CHG -/ { off := 0x0038, w1c := 0xFF, resv := 0xFFFFFF00 },
  /- ENS_LOm_CTL -/ { off := 0x0100, s1 := 0x40, n1 := 4, rw := 0x800FFF00, resv := 0x7FF000FF },
  /- ENS_LOm_STAT -/ { off := 0x0104, s1 := 0x40, n1 := 4, resv := 0xFF00 },
  /- ENS_LOm_TRAINED -/ { off := 0x0108, s1 := 0x40, n1 := 4 },
  /- ENS_LOm_PHASE_LO -/ { off := 0x010C, s1 := 0x40, n1 := 4 },
  /- ENS_LOm_PHASE_HI -/ { off := 0x0110, s1 := 0x40, n1 := 4 },
  /- ENS_LOm_FREQ_LO -/ { off := 0x0114, s1 := 0x40, n1 := 4 },
  /- ENS_LOm_FREQ_HI -/ { off := 0x0118, s1 := 0x40, n1 := 4, resv := 0xFFFF0000 },
  /- ENS_LOm_DRIFT -/ { off := 0x011C, s1 := 0x40, n1 := 4 },
  /- ENS_LOm_TCO -/ { off := 0x0120, s1 := 0x40, n1 := 4 },
  /- ENS_LOm_REJECTS -/ { off := 0x0124, s1 := 0x40, n1 := 4, rc := 0xFFFF, resv := 0xFFFF0000 },
  /- ENS_LOm_TREF -/ { off := 0x0128, s1 := 0x40, n1 := 4, resv := 0xFFFF0000 }]

/-- Registers of ENS (register map of its chapter), part 1. -/
def ensRegs1 : List RegDesc := [
  /- ENS_TBn_CTL -/ { off := 0x1000, s1 := 0x100, n1 := 8, sh := 0xF, resv := 0xFFFFFFF0, rst := 0x9 },
  /- ENS_TBn_STAT -/ { off := 0x1004, s1 := 0x100, n1 := 8, resv := 0xFFE0, rst := 0xC00001F },
  /- ENS_TBn_COMMIT -/ { off := 0x1008, s1 := 0x100, n1 := 8, wo := 0x3, resv := 0xFFFFFFFC },
  /- ENS_TBn_COMMIT_STAT -/ { off := 0x100C, s1 := 0x100, n1 := 8, resv := 0xF0FC },
  /- ENS_TBn_STEP_THR -/ { off := 0x1010, s1 := 0x100, n1 := 8, sh := 0xFFFFFFFF, rst := 0x3E800 },
  /- ENS_TBn_LOCK_THR -/ { off := 0x1014, s1 := 0x100, n1 := 8, sh := 0xFFFFFFFF, rst := 0xA00 },
  /- ENS_TBn_UNLOCK_THR -/ { off := 0x1018, s1 := 0x100, n1 := 8, sh := 0xFFFFFFFF, rst := 0xC800 },
  /- ENS_TBn_CNT -/ { off := 0x101C, s1 := 0x100, n1 := 8, sh := 0xFFFF, resv := 0xFFFF0000, rst := 0x410 },
  /- ENS_TBn_KPp -/ { off := 0x1040, s1 := 0x100, n1 := 8, s2 := 0x10, n2 := 3, sh := 0xFFFF, resv := 0xFFFF0000 },
  /- ENS_TBn_KIp -/ { off := 0x1044, s1 := 0x100, n1 := 8, s2 := 0x10, n2 := 3, sh := 0xFFFFFFFF },
  /- ENS_TBn_FMAXp -/ { off := 0x1048, s1 := 0x100, n1 := 8, s2 := 0x10, n2 := 3, sh := 0xFFFFFFFF },
  /- ENS_TBn_SLEWp -/ { off := 0x104C, s1 := 0x100, n1 := 8, s2 := 0x10, n2 := 3, sh := 0xFFFFFF, resv := 0xFF000000 },
  /- ENS_TBn_ERR_LO -/ { off := 0x1080, s1 := 0x100, n1 := 8 },
  /- ENS_TBn_ERR_HI -/ { off := 0x1084, s1 := 0x100, n1 := 8 },
  /- ENS_TBn_RESID -/ { off := 0x1088, s1 := 0x100, n1 := 8, rst := 0xFFFFFFFF },
  /- ENS_TBn_INTEG_LO -/ { off := 0x108C, s1 := 0x100, n1 := 8 },
  /- ENS_TBn_INTEG_HI -/ { off := 0x1090, s1 := 0x100, n1 := 8, resv := 0xFFFF0000 },
  /- ENS_TBn_HFREQ_LO -/ { off := 0x1094, s1 := 0x100, n1 := 8 },
  /- ENS_TBn_HFREQ_HI -/ { off := 0x1098, s1 := 0x100, n1 := 8, resv := 0xFFFF0000 },
  /- ENS_TBn_HDRIFT -/ { off := 0x109C, s1 := 0x100, n1 := 8 }]

/-- Registers of ENS (register map of its chapter), part 2. -/
def ensRegs2 : List RegDesc := [
  /- ENS_TBn_HOLD_SEC -/ { off := 0x10A0, s1 := 0x100, n1 := 8 },
  /- ENS_TBn_ENV_K0 -/ { off := 0x10A4, s1 := 0x100, n1 := 8, rst := 0xFFFFFFFF },
  /- ENS_TBn_ENV_K1 -/ { off := 0x10A8, s1 := 0x100, n1 := 8, rst := 0xFFFFFFFF },
  /- ENS_TBn_ENV_K2 -/ { off := 0x10AC, s1 := 0x100, n1 := 8, rst := 0xFFFFFFFF },
  /- ENS_TBn_ENV_KT -/ { off := 0x10B0, s1 := 0x100, n1 := 8, rst := 0xFFFFFFFF },
  /- ENS_TBn_ENV_TDEV -/ { off := 0x10B4, s1 := 0x100, n1 := 8, resv := 0xFFFF0000 },
  /- ENS_TBn_UPDATES -/ { off := 0x10B8, s1 := 0x100, n1 := 8 }]

/-- All registers of ENS. -/
def ensRegs : List RegDesc := ensRegs0 ++ ensRegs1 ++ ensRegs2

/-- Registers of BND (register map of its chapter), part 0. -/
def bndRegs0 : List RegDesc := [
  /- BND_CAP -/ { off := 0x0000, resv := 0xFFFFFE00 },
  /- BND_CTL -/ { off := 0x0010, rw := 0xFF01, resv := 0xFFFF00FE, rst := 0xFF01 },
  /- BND_PTP_TLV -/ { off := 0x0020, rw := 0xFFFF0000, resv := 0xFFFF, rst := 0x80000000 },
  /- BND_PTP_ORG -/ { off := 0x0024, rw := 0xFFFFFF, resv := 0xFF000000, rst := 0x4AB107 },
  /- BND_PTP_SUB -/ { off := 0x0028, rw := 0xFFFFFF, resv := 0xFF000000, rst := 0x1 },
  /- BND_NTP_TYPE -/ { off := 0x002C, rw := 0xFFFF, resv := 0xFFFF0000, rst := 0xF5B1 },
  /- BND_IRQ_STAT -/ { off := 0x0030, w1c := 0x3F, resv := 0xFFFFFFC0 },
  /- BND_IRQ_EN -/ { off := 0x0034, rw := 0x3F, resv := 0xFFFFFFC0 },
  /- BND_TRACE_WR -/ { off := 0x0040 },
  /- BND_TRACE_RD -/ { off := 0x0044, rw := 0xFFFFFFFF },
  /- BND_TRACE_STAT -/ { off := 0x0048, rc := 0xFFFF0000, resv := 0xFFF8 },
  /- BND_TBn_BOUND -/ { off := 0x1000, s1 := 0x100, n1 := 8, rst := 0xFFFFFFFF },
  /- BND_TBn_FLAGS -/ { off := 0x1004, s1 := 0x100, n1 := 8, resv := 0xFFF80000, rst := 0x60008 },
  /- BND_TBn_COMMIT -/ { off := 0x1008, s1 := 0x100, n1 := 8, wo := 0x3, resv := 0xFFFFFFFC },
  /- BND_TBn_COMMIT_STAT -/ { off := 0x100C, s1 := 0x100, n1 := 8, resv := 0xF0FC },
  /- BND_TBn_B_REF -/ { off := 0x1010, s1 := 0x100, n1 := 8, rst := 0xFFFFFFFF },
  /- BND_TBn_B_MEAS -/ { off := 0x1014, s1 := 0x100, n1 := 8, rst := 0xFFFFFFFF },
  /- BND_TBn_B_SERVO -/ { off := 0x1018, s1 := 0x100, n1 := 8, rst := 0xFFFFFFFF },
  /- BND_TBn_B_HOLD -/ { off := 0x101C, s1 := 0x100, n1 := 8, rst := 0xFFFFFFFF },
  /- BND_TBn_B_STEP -/ { off := 0x1020, s1 := 0x100, n1 := 8 }]

/-- Registers of BND (register map of its chapter), part 1. -/
def bndRegs1 : List RegDesc := [
  /- BND_TBn_COMPUTED -/ { off := 0x1024, s1 := 0x100, n1 := 8, rst := 0xFFFFFFFF },
  /- BND_TBn_HOLD_T -/ { off := 0x1028, s1 := 0x100, n1 := 8 },
  /- BND_TBn_TINT_LO -/ { off := 0x102C, s1 := 0x100, n1 := 8 },
  /- BND_TBn_TINT_HI -/ { off := 0x1030, s1 := 0x100, n1 := 8, resv := 0xFFFF0000 },
  /- BND_TBn_EXCEED_CNT -/ { off := 0x1034, s1 := 0x100, n1 := 8, rc := 0xFFFF, resv := 0xFFFF0000 },
  /- BND_TBn_QUAL -/ { off := 0x1038, s1 := 0x100, n1 := 8, rst := 0xFFF800F0 },
  /- BND_TBn_SHRINK -/ { off := 0x103C, s1 := 0x100, n1 := 8, sh := 0xFFFFFF, resv := 0xFF000000, rst := 0x100 },
  /- BND_TBn_MAP_CFG -/ { off := 0x1040, s1 := 0x100, n1 := 8, sh := 0xFFFF, resv := 0xFFFF0000, rst := 0xA },
  /- BND_TBn_MAPk_THR -/ { off := 0x1080, s1 := 0x100, n1 := 8, s2 := 0x8, n2 := 8, sh := 0xFFFFFFFF },
  /- BND_TBn_MAPk_OUT -/ { off := 0x1084, s1 := 0x100, n1 := 8, s2 := 0x8, n2 := 8, sh := 0xFFFFFFFF }]

/-- All registers of BND. -/
def bndRegs : List RegDesc := bndRegs0 ++ bndRegs1

/-- Registers of SYN (register map of its chapter). -/
def synRegs : List RegDesc := [
  /- SYN_SYNS_STAT -/ { off := 0x0010, resv := 0xFFC0FFFE },
  /- SYN_IRQ_STAT -/ { off := 0x0020, w1c := 0x3F, resv := 0xFFFFFFC0 },
  /- SYN_IRQ_EN -/ { off := 0x0024, rw := 0x3F, resv := 0xFFFFFFC0 },
  /- SYN_k_CTL -/ { off := 0x1000, s1 := 0x100, n1 := 4, sh := 0x80000003, resv := 0x7FFFFFFC },
  /- SYN_k_STAT -/ { off := 0x1004, s1 := 0x100, n1 := 4, resv := 0x7C0F8FC },
  /- SYN_k_COMMIT -/ { off := 0x1008, s1 := 0x100, n1 := 4, wo := 0x3, resv := 0xFFFFFFFC },
  /- SYN_k_COMMIT_STAT -/ { off := 0x100C, s1 := 0x100, n1 := 4, resv := 0xF0FC },
  /- SYN_k_FREQ -/ { off := 0x1010, s1 := 0x100, n1 := 4, sh := 0xFFFFFFFF },
  /- SYN_k_RESLEW -/ { off := 0x1014, s1 := 0x100, n1 := 4, sh := 0xFFFFFFFF, rst := 0x10C6F7A0 },
  /- SYN_k_OUTMAP -/ { off := 0x1018, s1 := 0x100, n1 := 4, resv := 0xFFFFF000 },
  /- SYN_k_LOCKS -/ { off := 0x101C, s1 := 0x100, n1 := 4 },
  /- SYN_k_RAMP_CTL -/ { off := 0x1020, s1 := 0x100, n1 := 4, sh := 0xF, resv := 0xFFFFFFF0 },
  /- SYN_k_RAMPs_END_LO -/ { off := 0x1040, s1 := 0x100, n1 := 4, s2 := 0x10, n2 := 8, sh := 0xFFFFFFFF },
  /- SYN_k_RAMPs_END_HI -/ { off := 0x1044, s1 := 0x100, n1 := 4, s2 := 0x10, n2 := 8, sh := 0xFFFF, resv := 0xFFFF0000 },
  /- SYN_k_RAMPs_DUR -/ { off := 0x1048, s1 := 0x100, n1 := 4, s2 := 0x10, n2 := 8, sh := 0xFFFF, resv := 0xFFFF0000 }]

/-- Registers of OUT (register map of its chapter), part 0. -/
def outRegs0 : List RegDesc := [
  /- OUT_CAP -/ { off := 0x0000, resv := 0xC0FFF000 },
  /- OUT_IRQ_STAT -/ { off := 0x0020, w1c := 0x1F, resv := 0xFFFFFFE0 },
  /- OUT_IRQ_EN -/ { off := 0x0024, rw := 0x1F, resv := 0xFFFFFFE0 },
  /- OUT_k_CTL -/ { off := 0x1000, s1 := 0x40, n1 := 12, sh := 0xFC00FFFF, resv := 0x3FF0000, rst := 0x400028F },
  /- OUT_k_STAT -/ { off := 0x1004, s1 := 0x40, n1 := 12, resv := 0xFFFFF8C0 },
  /- OUT_k_COMMIT -/ { off := 0x1008, s1 := 0x40, n1 := 12, wo := 0x3, resv := 0xFFFFFFFC },
  /- OUT_k_COMMIT_STAT -/ { off := 0x100C, s1 := 0x40, n1 := 12, resv := 0xF0FC },
  /- OUT_k_DIV -/ { off := 0x1010, s1 := 0x40, n1 := 12, sh := 0xFFFFFF, resv := 0xFF000000 },
  /- OUT_k_HIGH -/ { off := 0x1014, s1 := 0x40, n1 := 12, sh := 0xFFFFFF, resv := 0xFF000000 },
  /- OUT_k_PHASE_LO -/ { off := 0x1018, s1 := 0x40, n1 := 12, sh := 0xFFFFFFFF },
  /- OUT_k_PHASE_HI -/ { off := 0x101C, s1 := 0x40, n1 := 12, sh := 0xFFFFFFFF },
  /- OUT_k_DLY -/ { off := 0x1020, s1 := 0x40, n1 := 12, sh := 0xFFFFFFFF },
  /- OUT_k_GUARD -/ { off := 0x1024, s1 := 0x40, n1 := 12, rc := 0xFFFF, resv := 0xFFFF0000 },
  /- OUT_PPSk_CTL -/ { off := 0x2000, s1 := 0x40, n1 := 4, sh := 0xF7000000, resv := 0x8FFFFFF },
  /- OUT_PPSk_STAT -/ { off := 0x2004, s1 := 0x40, n1 := 4, w1c := 0x2, resv := 0xFFFFF8F8 },
  /- OUT_PPSk_COMMIT -/ { off := 0x2008, s1 := 0x40, n1 := 4, wo := 0x3, resv := 0xFFFFFFFC },
  /- OUT_PPSk_COMMIT_STAT -/ { off := 0x200C, s1 := 0x40, n1 := 4, resv := 0xF0FC },
  /- OUT_PPSk_PERIOD -/ { off := 0x2010, s1 := 0x40, n1 := 4, sh := 0xFFFFFFFF, rst := 0x3B9ACA00 },
  /- OUT_PPSk_WIDTH -/ { off := 0x2014, s1 := 0x40, n1 := 4, sh := 0xFFFFFFFF, rst := 0x3E8 },
  /- OUT_PPSk_OFS_LO -/ { off := 0x2018, s1 := 0x40, n1 := 4, sh := 0xFFFFFFFF }]

/-- Registers of OUT (register map of its chapter), part 1. -/
def outRegs1 : List RegDesc := [
  /- OUT_PPSk_OFS_HI -/ { off := 0x201C, s1 := 0x40, n1 := 4, sh := 0xFFFFFFFF },
  /- OUT_PPSk_DLY -/ { off := 0x2020, s1 := 0x40, n1 := 4, sh := 0xFFFFFFFF },
  /- OUT_PPSk_ALIGN_OFS_LO -/ { off := 0x2024, s1 := 0x40, n1 := 4, sh := 0xFFFFFFFF },
  /- OUT_PPSk_ALIGN_OFS_HI -/ { off := 0x2028, s1 := 0x40, n1 := 4, sh := 0xFFFFFFFF },
  /- OUT_PPSk_TRACK_RATE -/ { off := 0x202C, s1 := 0x40, n1 := 4, sh := 0xFFFFFF, resv := 0xFF000000, rst := 0xA00 },
  /- OUT_PPSk_SKIPS -/ { off := 0x2030, s1 := 0x40, n1 := 4, rc := 0xFFFF, resv := 0xFFFF0000 },
  /- OUT_TODk_CTL -/ { off := 0x3000, s1 := 0x40, n1 := 2, sh := 0xFF0701FF, resv := 0xF8FE00, rst := 0x60040001 },
  /- OUT_TODk_STAT -/ { off := 0x3004, s1 := 0x40, n1 := 2, resv := 0xFFFFF8 },
  /- OUT_TODk_COMMIT -/ { off := 0x3008, s1 := 0x40, n1 := 2, wo := 0x3, resv := 0xFFFFFFFC },
  /- OUT_TODk_COMMIT_STAT -/ { off := 0x300C, s1 := 0x40, n1 := 2, resv := 0xF0FC },
  /- OUT_EVTp_CTL -/ { off := 0x3800, s1 := 0x10, n1 := 8, rw := 0xC0000000, resv := 0x3FFFFFFF },
  /- OUT_EVTp_DLY -/ { off := 0x3804, s1 := 0x10, n1 := 8, rw := 0xFFFFFFFF }]

/-- All registers of OUT. -/
def outRegs : List RegDesc := outRegs0 ++ outRegs1

/-- Registers of GNS (register map of its chapter), part 0. -/
def gnsRegs0 : List RegDesc := [
  /- GNS_CAP -/ { off := 0x0000, resv := 0xF0FFFC, rst := 0xC0000000 },
  /- GNS_CTL -/ { off := 0x0010, rw := 0xFF000307, resv := 0xF8FCF8, rst := 0x7000000 },
  /- GNS_STAT -/ { off := 0x0014, resv := 0xF0000, rst := 0xC000000 },
  /- GNS_IRQ_STAT -/ { off := 0x0018, w1c := 0x3F, resv := 0xFFFFFFC0 },
  /- GNS_IRQ_EN -/ { off := 0x001C, rw := 0x3F, resv := 0xFFFFFFC0 },
  /- GNS_ACCEPT -/ { off := 0x0020, rw := 0xFFFFFFFF, rst := 0x1E0A020A },
  /- GNS_CONS_TOL -/ { off := 0x0024, rw := 0xFFFFFFFF, rst := 0x3200 },
  /- GNS_RAIM_THR -/ { off := 0x0028, rw := 0xFFFFFFFF, rst := 0x6400 },
  /- GNS_TU_MAX -/ { off := 0x002C, rw := 0xFFFFFFFF, rst := 0x3E800 },
  /- GNS_ANT_U -/ { off := 0x0030, rw := 0xFFFFFFFF },
  /- GNS_SCALE_U -/ { off := 0x0034, rw := 0xFFFFFFFF, rst := 0x500 },
  /- GNS_IPPS_DLY -/ { off := 0x0038, rw := 0xFFFFFFFF },
  /- GNS_SURVEY -/ { off := 0x0040, rw := 0xFFFFFF, resv := 0xFF000000, rst := 0xE10 },
  /- GNS_POS_X -/ { off := 0x0044, rw := 0xFFFFFFFF },
  /- GNS_POS_Y -/ { off := 0x0048, rw := 0xFFFFFFFF },
  /- GNS_POS_Z -/ { off := 0x004C, rw := 0xFFFFFFFF },
  /- GNS_POS_U -/ { off := 0x0050, rw := 0xFFFFFFFF },
  /- GNS_PPS_CTL -/ { off := 0x0060, rw := 0xC0FFFFFF, resv := 0x3F000000, rst := 0x64 },
  /- GNS_PPS_OFS -/ { off := 0x0064, rw := 0xFFFFFFFF },
  /- GNS_AID_ADDR -/ { off := 0x0070, rw := 0xFFFFFFFF }]

/-- Registers of GNS (register map of its chapter), part 1. -/
def gnsRegs1 : List RegDesc := [
  /- GNS_AID_LEN -/ { off := 0x0074, rw := 0xFFFFFF, resv := 0xFF000000 },
  /- GNS_AID_CTL -/ { off := 0x0078, wo := 0x1, resv := 0xFFFFFFFE },
  /- GNS_AID_STAT -/ { off := 0x007C, resv := 0xFFFC },
  /- GNS_MSG_BASE -/ { off := 0x0080, rw := 0xFFFFFFFF },
  /- GNS_MSG_SLOTS -/ { off := 0x0084, rw := 0xFFFFFFFF, rst := 0x1000 },
  /- GNS_MSG_WR -/ { off := 0x0088 },
  /- GNS_MSG_RD -/ { off := 0x008C, rw := 0xFFFFFFFF },
  /- GNS_MSG_STAT -/ { off := 0x0090, rc := 0xFFFFFFFF },
  /- GNS_STORE_STAT -/ { off := 0x00A0, resv := 0x3F000000 },
  /- GNS_FEk_CFG -/ { off := 0x0100, s1 := 0x20, n1 := 2, rw := 0xF0FF007F, resv := 0xF00FF80, rst := 0x180000 },
  /- GNS_FEk_IF -/ { off := 0x0104, s1 := 0x20, n1 := 2, rw := 0xFFFFFFFF },
  /- GNS_FEk_DLY -/ { off := 0x0108, s1 := 0x20, n1 := 2, rw := 0xFFFFFFFF },
  /- GNS_FEk_STAT -/ { off := 0x010C, s1 := 0x20, n1 := 2, resv := 0xFFF8 },
  /- GNS_FEk_CLKERR -/ { off := 0x0110, s1 := 0x20, n1 := 2 },
  /- GNS_TIMi -/ { off := 0x0200, s1 := 0x4, n1 := 16 }]

/-- All registers of GNS. -/
def gnsRegs : List RegDesc := gnsRegs0 ++ gnsRegs1

/-- Registers of LAN (register map of its chapter), part 0. -/
def lanRegs0 : List RegDesc := [
  /- LAN_CAP -/ { off := 0x0000, resv := 0xFFFC0000 },
  /- LAN_IRQ_STAT -/ { off := 0x0010, w1c := 0x1F, resv := 0xFFFFFFE0 },
  /- LAN_IRQ_EN -/ { off := 0x0014, rw := 0x1F, resv := 0xFFFFFFE0 },
  /- LAN_LOCK_CHG -/ { off := 0x0018, w1c := 0x3FFFF, resv := 0xFFFC0000 },
  /- LAN_GROUP_LP -/ { off := 0x001C, rw := 0xF, resv := 0xFFFFFFF0 },
  /- LAN_Lm_CTL -/ { off := 0x1000, s1 := 0x100, n1 := 18, rw := 0xBF000000, wo := 0x40000000, resv := 0xFFFFF0 },
  /- LAN_Lm_STAT -/ { off := 0x1004, s1 := 0x100, n1 := 18, resv := 0xFFFFFE0 },
  /- LAN_Lm_TXEQ -/ { off := 0x1008, s1 := 0x100, n1 := 18, rw := 0x1F3F0F, resv := 0xFFE0C0F0, rst := 0x3F00 },
  /- LAN_Lm_TXEQ_NOW -/ { off := 0x100C, s1 := 0x100, n1 := 18, resv := 0xFFE0C0F0 },
  /- LAN_Lm_TRAIN_STAT -/ { off := 0x1010, s1 := 0x100, n1 := 18 },
  /- LAN_Lm_LOSSES -/ { off := 0x1014, s1 := 0x100, n1 := 18, rc := 0xFFFF, resv := 0xFFFF0000 },
  /- LAN_Lm_LOCKS -/ { off := 0x1018, s1 := 0x100, n1 := 18 },
  /- LAN_Lm_DLY_RX -/ { off := 0x101C, s1 := 0x100, n1 := 18 },
  /- LAN_Lm_DLY_TX -/ { off := 0x1020, s1 := 0x100, n1 := 18 },
  /- LAN_Lm_PRBS_CTL -/ { off := 0x1024, s1 := 0x100, n1 := 18, rw := 0xC73F0000, wo := 0x20000000, resv := 0x18C0FFFF, rst := 0x4000000 },
  /- LAN_Lm_PRBS_ERR -/ { off := 0x1028, s1 := 0x100, n1 := 18, rc := 0xFFFFFFFF },
  /- LAN_Lm_PRBS_BITS_LO -/ { off := 0x102C, s1 := 0x100, n1 := 18 },
  /- LAN_Lm_PRBS_BITS_HI -/ { off := 0x1030, s1 := 0x100, n1 := 18, resv := 0xFFFF0000 },
  /- LAN_Lm_PRBS_INJ_CNT -/ { off := 0x1034, s1 := 0x100, n1 := 18, rc := 0xFFFFFFFF },
  /- LAN_Lm_PRBS_STAT -/ { off := 0x1038, s1 := 0x100, n1 := 18, rc := 0xFFFF0000, resv := 0xFFFE }]

/-- Registers of LAN (register map of its chapter), part 1. -/
def lanRegs1 : List RegDesc := [
  /- LAN_Lm_EYE_CTL -/ { off := 0x1040, s1 := 0x100, n1 := 18, rw := 0x7FFF1F, wo := 0x80000000, resv := 0x7F8000E0, rst := 0xA },
  /- LAN_Lm_EYE_STAT -/ { off := 0x1044, s1 := 0x100, n1 := 18, w1c := 0x6, resv := 0xFFFFFFF8 },
  /- LAN_Lm_EYE_ERR -/ { off := 0x1048, s1 := 0x100, n1 := 18 }]

/-- All registers of LAN. -/
def lanRegs : List RegDesc := lanRegs0 ++ lanRegs1

/-- Registers of MAC (register map of its chapter), part 0. -/
def macRegs0 : List RegDesc := [
  /- MAC_CAP -/ { off := 0x0000, resv := 0xFFF00000 },
  /- MAC_IRQ_STAT -/ { off := 0x0010, w1c := 0x3F, resv := 0xFFFFFFC0 },
  /- MAC_IRQ_EN -/ { off := 0x0014, rw := 0x3F, resv := 0xFFFFFFC0 },
  /- MAC_LINK_CHG -/ { off := 0x0018, w1c := 0xFFFF, resv := 0xFFFF0000 },
  /- MAC_Pp_CTL -/ { off := 0x1000, s1 := 0x400, n1 := 16, rw := 0xF8003FFF, resv := 0x7FFC000, rst := 0x180005F2 },
  /- MAC_Pp_STAT -/ { off := 0x1004, s1 := 0x400, n1 := 16, resv := 0x3FFF800 },
  /- MAC_Pp_ADDR_LO -/ { off := 0x1008, s1 := 0x400, n1 := 16, rw := 0xFFFFFFFF },
  /- MAC_Pp_ADDR_HI -/ { off := 0x100C, s1 := 0x400, n1 := 16, rw := 0xFFFF, resv := 0xFFFF0000 },
  /- MAC_Pp_PAUSE_WD -/ { off := 0x1010, s1 := 0x400, n1 := 16, rw := 0xFF00FFFF, resv := 0xFF0000, rst := 0x64002710 },
  /- MAC_Pp_PAUSE_STAT -/ { off := 0x1014, s1 := 0x400, n1 := 16 },
  /- MAC_Pp_RX_DLY -/ { off := 0x1020, s1 := 0x400, n1 := 16 },
  /- MAC_Pp_TX_DLY -/ { off := 0x1024, s1 := 0x400, n1 := 16 },
  /- MAC_Pp_EXT_RX -/ { off := 0x1028, s1 := 0x400, n1 := 16, rw := 0xFFFFFFFF },
  /- MAC_Pp_EXT_TX -/ { off := 0x102C, s1 := 0x400, n1 := 16, rw := 0xFFFFFFFF },
  /- MAC_Pp_CAL_U -/ { off := 0x1030, s1 := 0x400, n1 := 16, rst := 0xFFFFFFFF },
  /- MAC_Pp_SKEW -/ { off := 0x1034, s1 := 0x400, n1 := 16 },
  /- MAC_Pp_ESMC_CTL -/ { off := 0x1040, s1 := 0x400, n1 := 16, rw := 0xF0000000, resv := 0xFFFFFFF, rst := 0x30000000 },
  /- MAC_Pp_ESMC_RX -/ { off := 0x1044, s1 := 0x400, n1 := 16, resv := 0xFF0000F0, rst := 0xFF000F },
  /- MAC_Pp_RX_BASE_LO -/ { off := 0x1080, s1 := 0x400, n1 := 16, rw := 0xFFFFFFFF },
  /- MAC_Pp_RX_BASE_HI -/ { off := 0x1084, s1 := 0x400, n1 := 16, rw := 0xFFFFFFFF }]

/-- Registers of MAC (register map of its chapter), part 1. -/
def macRegs1 : List RegDesc := [
  /- MAC_Pp_RX_SIZE -/ { off := 0x1088, s1 := 0x400, n1 := 16, rw := 0x1FFFF, resv := 0xFFFE0000, rst := 0x100 },
  /- MAC_Pp_RX_HEAD -/ { off := 0x108C, s1 := 0x400, n1 := 16, resv := 0xFFFF0000 },
  /- MAC_Pp_RX_TAIL -/ { off := 0x1090, s1 := 0x400, n1 := 16, rw := 0xFFFF, resv := 0xFFFF0000 },
  /- MAC_Pp_RX_CTL -/ { off := 0x1094, s1 := 0x400, n1 := 16, rw := 0x80000000, wo := 0x40000000, resv := 0x3FFFFFFF },
  /- MAC_Pp_TX_BASE_LO -/ { off := 0x10A0, s1 := 0x400, n1 := 16, rw := 0xFFFFFFFF },
  /- MAC_Pp_TX_BASE_HI -/ { off := 0x10A4, s1 := 0x400, n1 := 16, rw := 0xFFFFFFFF },
  /- MAC_Pp_TX_SIZE -/ { off := 0x10A8, s1 := 0x400, n1 := 16, rw := 0x1FFFF, resv := 0xFFFE0000, rst := 0x100 },
  /- MAC_Pp_TX_HEAD -/ { off := 0x10AC, s1 := 0x400, n1 := 16, resv := 0xFFFF0000 },
  /- MAC_Pp_TX_TAIL -/ { off := 0x10B0, s1 := 0x400, n1 := 16, rw := 0xFFFF, resv := 0xFFFF0000 },
  /- MAC_Pp_TX_CTL -/ { off := 0x10B4, s1 := 0x400, n1 := 16, rw := 0x80000000, wo := 0x40000000, resv := 0x3FFFFFFF },
  /- MAC_Pp_RING_STAT -/ { off := 0x10B8, s1 := 0x400, n1 := 16, resv := 0xFFFFFFFC },
  /- MAC_Pp_CNTi_LO -/ { off := 0x1100, s1 := 0x400, n1 := 16, s2 := 0x8, n2 := 24, rc := 0xFFFFFFFF },
  /- MAC_Pp_CNTi_HI -/ { off := 0x1104, s1 := 0x400, n1 := 16, s2 := 0x8, n2 := 24, resv := 0xFFFF0000 }]

/-- All registers of MAC. -/
def macRegs : List RegDesc := macRegs0 ++ macRegs1

/-- Registers of PKT (register map of its chapter), part 0. -/
def pktRegs0 : List RegDesc := [
  /- PKT_CAP -/ { off := 0x0000, resv := 0xFFF00000 },
  /- PKT_STAT -/ { off := 0x0014, resv := 0x3FFFC000 },
  /- PKT_INFLIGHT_PEAK -/ { off := 0x0018, rc := 0x3FFF, resv := 0xFFFFC000 },
  /- PKT_IRQ_STAT -/ { off := 0x0020, w1c := 0x7F, resv := 0xFFFFFF80 },
  /- PKT_IRQ_EN -/ { off := 0x0024, rw := 0x7F, resv := 0xFFFFFF80 },
  /- PKT_SESSIONS -/ { off := 0x0028, resv := 0xFFE00000 },
  /- PKT_BUDGET -/ { off := 0x0030, rw := 0xFFFFFFFF, rst := 0x3567E00 },
  /- PKT_BUDGET_USED -/ { off := 0x0034 },
  /- PKT_NTP_RATE -/ { off := 0x0038, rw := 0xFFFFFFFF, rst := 0x3D0900 },
  /- PKT_HOST_RATE -/ { off := 0x003C, rw := 0xFFFFFFFF, rst := 0x1002710 },
  /- PKT_GRANT_DUR -/ { off := 0x0040, rw := 0xFFFFFFFF, rst := 0x3E8000A },
  /- PKT_CLOCK_ID_LO -/ { off := 0x0044, rw := 0xFFFFFFFF },
  /- PKT_CLOCK_ID_HI -/ { off := 0x0048, rw := 0xFFFFFFFF },
  /- PKT_NTP_CFG -/ { off := 0x004C, rw := 0xFF800000, resv := 0x7FFFFF, rst := 0xE2000000 },
  /- PKT_REFIDc -/ { off := 0x0060, s1 := 0x4, n1 := 8, rw := 0xFFFFFFFF },
  /- PKT_Pp_CTL -/ { off := 0x1000, s1 := 0x80, n1 := 16, rw := 0x8F0FFF00, resv := 0xFF, rst := 0x1000000 },
  /- PKT_Pp_TX_KEY_ID -/ { off := 0x1004, s1 := 0x80, n1 := 16, rw := 0xFFFFFFFF },
  /- PKT_Pp_MCAST_INT -/ { off := 0x1008, s1 := 0x80, n1 := 16, rw := 0xFFFFFF00, resv := 0xFF, rst := 0xFCFDFC00 },
  /- PKT_Pp_BUDGET -/ { off := 0x100C, s1 := 0x80, n1 := 16, rw := 0xFFFFFFFF },
  /- PKT_Pp_BUDGET_USED -/ { off := 0x1010, s1 := 0x80, n1 := 16 }]

/-- Registers of PKT (register map of its chapter), part 1. -/
def pktRegs1 : List RegDesc := [
  /- PKT_Pp_UTC -/ { off := 0x1014, s1 := 0x80, n1 := 16, rw := 0x87000000, resv := 0x78FFFFFF },
  /- PKT_Pp_ANN_Q -/ { off := 0x1018, s1 := 0x80, n1 := 16, rw := 0xFFFFFFFF, rst := 0x4E5D8080 },
  /- PKT_IFk_CTL -/ { off := 0x2000, s1 := 0x40, n1 := 64, rw := 0xFC0F0FFF, resv := 0x3F0F000, rst := 0x8000000 },
  /- PKT_IFk_MAC_LO -/ { off := 0x2004, s1 := 0x40, n1 := 64, rw := 0xFFFFFFFF },
  /- PKT_IFk_MAC_HI -/ { off := 0x2008, s1 := 0x40, n1 := 64, rw := 0xFFFF, resv := 0xFFFF0000 },
  /- PKT_IFk_IP0 -/ { off := 0x2010, s1 := 0x40, n1 := 64, rw := 0xFFFFFFFF },
  /- PKT_IFk_IP1 -/ { off := 0x2014, s1 := 0x40, n1 := 64, rw := 0xFFFFFFFF },
  /- PKT_IFk_IP2 -/ { off := 0x2018, s1 := 0x40, n1 := 64, rw := 0xFFFFFFFF },
  /- PKT_IFk_IP3 -/ { off := 0x201C, s1 := 0x40, n1 := 64, rw := 0xFFFFFFFF },
  /- PKT_SPPs -/ { off := 0x3000, s1 := 0x4, n1 := 16, rw := 0xE0000000, resv := 0x1FFFFFFF },
  /- PKT_KEY_CMD -/ { off := 0x3200, wo := 0xC00000FF, resv := 0x3FFFFF00 },
  /- PKT_KEY_ID -/ { off := 0x3204, rw := 0xFFFFFFFF },
  /- PKT_KEY_SPP -/ { off := 0x3208, rw := 0x3F0F, resv := 0xFFFFC0F0 },
  /- PKT_KEY_FROM_LO -/ { off := 0x320C, rw := 0xFFFFFFFF },
  /- PKT_KEY_FROM_HI -/ { off := 0x3210, rw := 0xFFFF, resv := 0xFFFF0000 },
  /- PKT_KEY_TO_LO -/ { off := 0x3214, rw := 0xFFFFFFFF },
  /- PKT_KEY_TO_HI -/ { off := 0x3218, rw := 0xFFFF, resv := 0xFFFF0000 },
  /- PKT_KEY_WRAP0 -/ { off := 0x3220, wo := 0xFFFFFFFF },
  /- PKT_KEY_WRAP1 -/ { off := 0x3224, wo := 0xFFFFFFFF },
  /- PKT_KEY_WRAP2 -/ { off := 0x3228, wo := 0xFFFFFFFF }]

/-- Registers of PKT (register map of its chapter), part 2. -/
def pktRegs2 : List RegDesc := [
  /- PKT_KEY_WRAP3 -/ { off := 0x322C, wo := 0xFFFFFFFF },
  /- PKT_KEY_WRAP4 -/ { off := 0x3230, wo := 0xFFFFFFFF },
  /- PKT_KEY_WRAP5 -/ { off := 0x3234, wo := 0xFFFFFFFF },
  /- PKT_KEY_STAT -/ { off := 0x3240, resv := 0x3E00FF00 },
  /- PKT_NTS_CTL -/ { off := 0x3400, rw := 0xF, resv := 0xFFFFFFF0, rst := 0x8 },
  /- PKT_NTS_KIDr -/ { off := 0x3410, s1 := 0x4, n1 := 4, rw := 0xFFFFFFFF },
  /- PKT_NTS_RING -/ { off := 0x3420, rw := 0xFF, resv := 0xFFFFFF00 },
  /- PKT_MINT_SRC -/ { off := 0x3440, rw := 0xFFFFFFFF },
  /- PKT_MINT_DST -/ { off := 0x3444, rw := 0xFFFFFFFF },
  /- PKT_MINT_CNT -/ { off := 0x3448, rw := 0x1FFFF, resv := 0xFFFE0000, rst := 0x1 },
  /- PKT_MINT_CTL -/ { off := 0x344C, wo := 0x1, resv := 0xFFFFFFFE },
  /- PKT_MINT_STAT -/ { off := 0x3450, resv := 0x3FFE0000 },
  /- PKT_CLk_CTL -/ { off := 0x4000, s1 := 0x100, n1 := 4, rw := 0x808FFF00, resv := 0x707000FF },
  /- PKT_CLk_SRV0 -/ { off := 0x4004, s1 := 0x100, n1 := 4, rw := 0xFFFFFFFF },
  /- PKT_CLk_SRV1 -/ { off := 0x4008, s1 := 0x100, n1 := 4, rw := 0xFFFFFFFF },
  /- PKT_CLk_SRV2 -/ { off := 0x400C, s1 := 0x100, n1 := 4, rw := 0xFFFFFFFF },
  /- PKT_CLk_SRV3 -/ { off := 0x4010, s1 := 0x100, n1 := 4, rw := 0xFFFFFFFF },
  /- PKT_CLk_KEY_ID -/ { off := 0x4014, s1 := 0x100, n1 := 4, rw := 0xFFFFFFFF },
  /- PKT_CLk_INT -/ { off := 0x4018, s1 := 0x100, n1 := 4, rw := 0xFFFFFF00, resv := 0xFF, rst := 0xFC00FC00 },
  /- PKT_CLk_DUR -/ { off := 0x401C, s1 := 0x100, n1 := 4, rw := 0xFFFF, resv := 0xFFFF0000, rst := 0x12C }]

/-- Registers of PKT (register map of its chapter), part 3. -/
def pktRegs3 : List RegDesc := [
  /- PKT_CLk_BLOCK -/ { off := 0x4020, s1 := 0x100, n1 := 4, rw := 0xFFFF, resv := 0xFFFF0000, rst := 0x10 },
  /- PKT_CLk_DWIN -/ { off := 0x4024, s1 := 0x100, n1 := 4, rw := 0xFFFFFFFF, rst := 0x1400 },
  /- PKT_CLk_STAT -/ { off := 0x4028, s1 := 0x100, n1 := 4, resv := 0xF000000, rst := 0xFFFE00 },
  /- PKT_CLk_SRV_ID_LO -/ { off := 0x402C, s1 := 0x100, n1 := 4 },
  /- PKT_CLk_SRV_ID_HI -/ { off := 0x4030, s1 := 0x100, n1 := 4 },
  /- PKT_CLk_DELAY_LO -/ { off := 0x4034, s1 := 0x100, n1 := 4 },
  /- PKT_CLk_DELAY_HI -/ { off := 0x4038, s1 := 0x100, n1 := 4 },
  /- PKT_CLk_RES_SEQ -/ { off := 0x4040, s1 := 0x100, n1 := 4 },
  /- PKT_CLk_RES_MEAN_LO -/ { off := 0x4044, s1 := 0x100, n1 := 4 },
  /- PKT_CLk_RES_MEAN_HI -/ { off := 0x4048, s1 := 0x100, n1 := 4 },
  /- PKT_CLk_RES_SD -/ { off := 0x404C, s1 := 0x100, n1 := 4 },
  /- PKT_CLk_RES_MIN_LO -/ { off := 0x4050, s1 := 0x100, n1 := 4 },
  /- PKT_CLk_RES_MIN_HI -/ { off := 0x4054, s1 := 0x100, n1 := 4 },
  /- PKT_CLk_RES_MAX_LO -/ { off := 0x4058, s1 := 0x100, n1 := 4 },
  /- PKT_CLk_RES_MAX_HI -/ { off := 0x405C, s1 := 0x100, n1 := 4 },
  /- PKT_CLk_RES_T_W0 -/ { off := 0x4060, s1 := 0x100, n1 := 4 },
  /- PKT_CLk_RES_T_W1 -/ { off := 0x4064, s1 := 0x100, n1 := 4 },
  /- PKT_CLk_RES_T_W2 -/ { off := 0x4068, s1 := 0x100, n1 := 4 },
  /- PKT_CLk_RES_INFO -/ { off := 0x406C, s1 := 0x100, n1 := 4, resv := 0xFFFC },
  /- PKT_CNTi_LO -/ { off := 0x5000, s1 := 0x8, n1 := 24, rc := 0xFFFFFFFF }]

/-- Registers of PKT (register map of its chapter), part 4. -/
def pktRegs4 : List RegDesc := [
  /- PKT_CNTi_HI -/ { off := 0x5004, s1 := 0x8, n1 := 24, resv := 0xFFFF0000 }]

/-- All registers of PKT. -/
def pktRegs : List RegDesc := pktRegs0 ++ pktRegs1 ++ pktRegs2 ++ pktRegs3 ++ pktRegs4

/-- Registers of CST (register map of its chapter), part 0. -/
def cstRegs0 : List RegDesc := [
  /- CST_CAP -/ { off := 0x0000, resv := 0xFFE00000, rst := 0x100000 },
  /- CST_CTL -/ { off := 0x0010, rw := 0x1, resv := 0xFFFFFFFE, rst := 0x1 },
  /- CST_STAT -/ { off := 0x0014, resv := 0x7FE00000 },
  /- CST_AGE -/ { off := 0x0018, rw := 0xFFFFFFFF, rst := 0xE10 },
  /- CST_SCRUB_PERIOD -/ { off := 0x001C, rw := 0x1FFFF, resv := 0xFFFE0000, rst := 0x5460 },
  /- CST_IRQ_STAT -/ { off := 0x0020, w1c := 0x3F, resv := 0xFFFFFFC0 },
  /- CST_IRQ_EN -/ { off := 0x0024, rw := 0x3F, resv := 0xFFFFFFC0 },
  /- CST_ECC_CE -/ { off := 0x0030, rc := 0xFFFFFFFF },
  /- CST_ECC_UE -/ { off := 0x0034, rc := 0xFFFFFFFF },
  /- CST_ECC_LAST -/ { off := 0x0038 },
  /- CST_SCRUB_PASSES -/ { off := 0x003C },
  /- CST_BUCKET_FULL -/ { off := 0x0040, rc := 0xFFFFFFFF },
  /- CST_RETIRED -/ { off := 0x0044, resv := 0xFFE00000 },
  /- CST_CMD -/ { off := 0x0100, wo := 0xF0000000, resv := 0xFFFFFFF },
  /- CST_CMD_STAT -/ { off := 0x0104, resv := 0x70E00000 },
  /- CST_SLOT -/ { off := 0x0108, rw := 0x1FFFFF, resv := 0xFFE00000 },
  /- CST_KEYi -/ { off := 0x0110, s1 := 0x4, n1 := 10, rw := 0xFFFFFFFF },
  /- CST_KWi -/ { off := 0x0140, s1 := 0x4, n1 := 6, wo := 0xFFFFFFFF },
  /- CST_KW_ID -/ { off := 0x0158, rw := 0xFFFFFFFF },
  /- CST_KW_CFG -/ { off := 0x015C, rw := 0x3F0F, resv := 0xFFFFC0F0 }]

/-- Registers of CST (register map of its chapter), part 1. -/
def cstRegs1 : List RegDesc := [
  /- CST_HOTi -/ { off := 0x0180, s1 := 0x4, n1 := 16 }]

/-- All registers of CST. -/
def cstRegs : List RegDesc := cstRegs0 ++ cstRegs1

/-- Registers of KEY (register map of its chapter). -/
def keyRegs : List RegDesc := [
  /- KEY_CAP -/ { off := 0x0000, resv := 0xFFFFF000, rst := 0xF40 },
  /- KEY_STAT -/ { off := 0x0010, resv := 0xFFFFFFC0 },
  /- KEY_IRQ_STAT -/ { off := 0x0020, w1c := 0x1F, resv := 0xFFFFFFE0 },
  /- KEY_IRQ_EN -/ { off := 0x0024, rw := 0x1F, resv := 0xFFFFFFE0 },
  /- KEY_ID_PUBi -/ { off := 0x0040, s1 := 0x4, n1 := 8 },
  /- KEY_XPUBi -/ { off := 0x0060, s1 := 0x4, n1 := 8 },
  /- KEY_NONCEi -/ { off := 0x0080, s1 := 0x4, n1 := 4 },
  /- KEY_CMD -/ { off := 0x0100, wo := 0xF0000F7F, resv := 0xFFFF080 },
  /- KEY_CMD_STAT -/ { off := 0x0104, resv := 0x70FFFFC0 },
  /- KEY_EPHi -/ { off := 0x0110, s1 := 0x4, n1 := 8, wo := 0xFFFFFFFF },
  /- KEY_WRAPi -/ { off := 0x0130, s1 := 0x4, n1 := 10, wo := 0xFFFFFFFF },
  /- KEY_BUFi -/ { off := 0x0160, s1 := 0x4, n1 := 16, rw := 0xFFFFFFFF },
  /- KEY_SLOTs_STAT -/ { off := 0x1000, s1 := 0x4, n1 := 64, resv := 0x3FF0000 },
  /- KEY_TAMP_ARM -/ { off := 0x2000, w1s := 0xF, resv := 0xFFFFFFF0 },
  /- KEY_TAMP_CFG -/ { off := 0x2004, rw := 0xF, resv := 0xFFFFFFF0 },
  /- KEY_TAMP_LIVE -/ { off := 0x2008, resv := 0xFFFFFFF0 },
  /- KEY_TAMP_REC -/ { off := 0x2010, w1c := 0x780000FF, resv := 0x7FFFF00 },
  /- KEY_TAMP_TIME_LO -/ { off := 0x2014 },
  /- KEY_TAMP_TIME_HI -/ { off := 0x2018, resv := 0xFFFF0000 },
  /- KEY_TAMP_COUNT -/ { off := 0x201C, resv := 0xFFFF0000 }]

/-- Registers of TND (register map of its chapter), part 0. -/
def tndRegs0 : List RegDesc := [
  /- TND_CAP -/ { off := 0x0000, resv := 0xFC000000 },
  /- TND_CTL -/ { off := 0x0010, rw := 0xFFC00000, resv := 0x80FFF },
  /- TND_STAT -/ { off := 0x0014, resv := 0xFF0000 },
  /- TND_LINK_STAT -/ { off := 0x0018, resv := 0x1FFFFFF },
  /- TND_IRQ_STAT -/ { off := 0x0020, w1c := 0x7F, resv := 0xFFFFFF80 },
  /- TND_IRQ_EN -/ { off := 0x0024, rw := 0x7F, resv := 0xFFFFFF80 },
  /- TND_CLAIM_OWN -/ { off := 0x0030 },
  /- TND_CLAIM_PEER -/ { off := 0x0034 },
  /- TND_CLAIM_ERR -/ { off := 0x0038, rc := 0xFFFFFFFF },
  /- TND_HYST -/ { off := 0x0040, rw := 0xFFFFFFFF, rst := 0x3200 },
  /- TND_HB_TO -/ { off := 0x0044, rw := 0xFFFF, resv := 0xFFFF0000, rst := 0x3E8 },
  /- TND_PPS_DLY -/ { off := 0x0048, rw := 0xFFFFFFFF },
  /- TND_10M_DLY -/ { off := 0x004C, rw := 0xFFFFFFFF },
  /- TND_LINK_ASYM -/ { off := 0x0050, rw := 0xFFFFFFFF },
  /- TND_XCHK_TOL -/ { off := 0x0054, rw := 0xFFFFFFFF, rst := 0x200 },
  /- TND_ENS_TOL -/ { off := 0x0058, rw := 0xFFFFFFFF, rst := 0xAFF },
  /- TND_KEY_MIRROR_LO -/ { off := 0x0060, rw := 0xFFFFFFFF },
  /- TND_KEY_MIRROR_HI -/ { off := 0x0064, rw := 0xFFFFFFFF },
  /- TND_ALIGN_OFS_LO -/ { off := 0x0070 },
  /- TND_ALIGN_OFS_HI -/ { off := 0x0074 }]

/-- Registers of TND (register map of its chapter), part 1. -/
def tndRegs1 : List RegDesc := [
  /- TND_TWOWAY_OFS_LO -/ { off := 0x0078 },
  /- TND_TWOWAY_OFS_HI -/ { off := 0x007C },
  /- TND_RETRIES -/ { off := 0x0080, rc := 0xFFFFFFFF },
  /- TND_HANDOVERS -/ { off := 0x0084 },
  /- TND_AUTH_FAILS -/ { off := 0x0088, rc := 0xFFFFFFFF },
  /- TND_PEER_CFG_GEN -/ { off := 0x0090 },
  /- TND_PEER_TB_STATE -/ { off := 0x0094 },
  /- TND_PEER_BOUND -/ { off := 0x0098, rst := 0xFFFFFFFF },
  /- TND_PEER_HEALTH -/ { off := 0x009C, resv := 0xFFFF0000 }]

/-- All registers of TND. -/
def tndRegs : List RegDesc := tndRegs0 ++ tndRegs1

/-- The blocks of BAR0 (R461): each owns the 1 MiB window whose number is given. -/
def blockRegs (win : Nat) : List RegDesc :=
  match win with
  | 0x00 => cfgRegs
  | 0x01 => pwrRegs
  | 0x02 => fltRegs
  | 0x03 => mtxRegs
  | 0x04 => dmaRegs
  | 0x05 => prfRegs
  | 0x10 => spnRegs
  | 0x11 => refRegs
  | 0x12 => tiuRegs
  | 0x13 => selRegs
  | 0x14 => ensRegs
  | 0x15 => bndRegs
  | 0x16 => synRegs
  | 0x17 => outRegs
  | 0x18 => gnsRegs
  | 0x20 => lanRegs
  | 0x21 => macRegs
  | 0x22 => pktRegs
  | 0x23 => cstRegs
  | 0x24 => keyRegs
  | 0x25 => tndRegs
  | _ => []

/-- The register a BAR0 offset names, if any (R462). -/
def findReg (a : Nat) : Option RegDesc := (blockRegs (a / 0x100000)).find? (fun d => d.covers (a % 0x100000))

/-- Reset maps of the tables that give a value per row: the servo gain table (05, p = 0 ACQ, 1 TRACK, 2 EXIT) and the
map rows of the bound (06). -/
def tableReset (a : Nat) : Option Nat :=
  let o := a % 0x100000
  if a / 0x100000 = 0x14 ∧ 0x1000 ≤ o ∧ o < 0x1800 then
    match (o - 0x1000) % 0x100 with
    | 0x40 => some 0x00001685
    | 0x44 => some 0x045737B8
    | 0x48 => some 0x10C6F7A0
    | 0x4C => some 0x00006400
    | 0x50 => some 0x00000241
    | 0x54 => some 0x000B1CB8
    | 0x58 => some 0x002AF31D
    | 0x5C => some 0x00000A00
    | 0x60 => some 0x000006C1
    | 0x64 => some 0x00640272
    | 0x68 => some 0x01AD7F29
    | 0x6C => some 0x00000A00
    | _ => none
  else if a / 0x100000 = 0x15 ∧ 0x1000 ≤ o ∧ o < 0x1800 then
    match (o - 0x1000) % 0x100 with
    | 0x80 => some 0x00006400 | 0x84 => some 0x84062021
    | 0x88 => some 0x00044C00 | 0x8C => some 0x86060021
    | 0x90 => some 0x00044C00 | 0x94 => some 0xB8070021
    | 0x98 => some 0x00271000 | 0x9C => some 0xBE8C0042
    | 0xA0 => some 0x0186A000 | 0xA4 => some 0xBE960082
    | 0xA8 => some 0xFFFFFFFE | 0xAC => some 0xBEA000B3
    | 0xB0 => some 0xFFFFFFFF | 0xB4 => some 0xFFF800F0
    | _ => none
  else none

/-- The value of a register after power-on reset (R19). -/
def resetNat (a : Nat) : Nat :=
  match tableReset a with
  | some v => v
  | none => match findReg a with
    | some d => d.rst
    | none => 0

/-- The value of a register after power-on reset, as a word (R19). -/
def resetWord (a : Nat) : Word := BitVec.ofNat 32 (resetNat a)

end Sys2Proof.Machine
end

