-- ==== Sys2Proof/Machine/SMap.lean ====
section
/-! DEFINITION. Sparse maps from addresses to values in ONE canonical form: keys strictly rising, no entry equal to what an
unlisted key reads as. The register file, the values in force, the banks and the Granary are held this way. -/
namespace Sys2Proof.Machine

/-- What key `k` reads as; `dv` says what an unlisted key reads as. -/
def mapGet {α : Type} (dv : Nat → α) : List (Nat × α) → Nat → α
  | [], k => dv k
  | (k', v) :: r, k => if k' = k then v else mapGet dv r k

/-- Key `k` set to `v`, the canonical form kept. -/
def mapSet {α : Type} [DecidableEq α] (dv : Nat → α) : List (Nat × α) → Nat → α → List (Nat × α)
  | [], k, v => if v = dv k then [] else [(k, v)]
  | (k', v') :: r, k, v =>
    if k < k' then (if v = dv k then (k', v') :: r else (k, v) :: (k', v') :: r)
    else if k' = k then (if v = dv k then r else (k, v) :: r)
    else (k', v') :: mapSet dv r k v

/-- The canonical form: keys above `lo` and strictly rising, no entry at its default. -/
def mapWfFrom {α : Type} [DecidableEq α] (dv : Nat → α) : Nat → List (Nat × α) → Bool
  | _, [] => true
  | lo, (k, v) :: r => decide (lo ≤ k) && !(decide (v = dv k)) && mapWfFrom dv (k + 1) r

/-- The canonical form of a whole map. -/
def mapWf {α : Type} [DecidableEq α] (dv : Nat → α) (m : List (Nat × α)) : Bool := mapWfFrom dv 0 m

/-- A register file: BAR0 offsets and words. -/
abbrev RegFile := List (Nat × Word)

/-- The Granary's bytes (R312): Granary addresses and bytes, sparse. -/
abbrev Memory := List Host.Cell

/-- What a byte of the Granary that nothing has written reads as: 0 (R313 zeroes the store before READY). -/
def unwritten (_ : Nat) : Byte := 0

/-- The canonical form of the Granary's bytes. -/
def Memory.wf (m : Memory) : Bool := mapWf unwritten m

end Sys2Proof.Machine
end

