-- ==== Sys2Proof/Machine/State.lean ====
section
/-! DEFINITION. The state of one UT-9440: its register file, the values in force behind shadowed fields, the internal state of
its blocks, and the queue of commands that are waiting. Every field is plain data. -/
namespace Sys2Proof.Machine

/-- How a command can stop the machine. The spec describes every error of the block as an effect on its state (a fault
message, a refusal code, a completion with Completer Abort), so the one fault is the end of the free values, which no step
reaches. Nobody raises it; safe. -/
inductive Fault
  /-- Never raised: the block has no state in which the spec stops it. Safe. -/
  | stuck
  deriving DecidableEq, Repr

/-- Why a command has no meaning here. -/
inductive Refusal
  /-- The command named has no meaning yet. Raised by an arm of `exec` only; safe. -/
  | notModelled (mnemonic : String)
  deriving DecidableEq, Repr

/-- One latched fault message (R376). -/
structure FaultMsg where
  src : Nat
  kind : Nat
  sev : Nat
  ctx : Word
  deriving DecidableEq, Repr

/-- What a port transmits between frames (R258). -/
inductive LinkSignal | idle | remoteFault
  deriving DecidableEq, Repr

/-- What the part puts out: on its pins, its links and its host bus. The model keeps them in order, newest first (log
entry 6). -/
inductive Emit
  /-- MSI-X message of a vector (R394), with the address and the data of its table entry (R391) -/
  | msix (vec addr : Nat) (data : Word)
  /-- HOST_NMI_N driven low (R384) -/
  | nmi
  /-- EVT pin `p`: a pulse of `width` ns begins at base time `at_`, ps, active level `high` (R81, R82, R205) -/
  | evt (p : Nat) (at_ : Int) (width : Nat) (high : Bool)
  /-- EVT pin `p` stays active: a pulse of `width` ns from base time `at_`, ps, is merged with the one before it (R84) -/
  | evtMore (p : Nat) (at_ : Int) (width : Nat)
  /-- PPS pin `k`: a pulse of `width` ns begins at base time `at_`, ps; `high` is its level (R193, R197) -/
  | pps (k : Nat) (at_ : Int) (width : Nat) (high : Bool)
  /-- GNSS_PPS: a pulse of `width` µs begins on spine tick `at_` (R228) -/
  | gnssPps (at_ : Int) (width : Nat) (high : Bool)
  /-- ToD pin `k` sends these bits, each 1/`rate` s long, from the leading edge of the first start bit at base time `start`,
  2^-40 ns; the line idles high (R201-R203) -/
  | tod (k : Nat) (start rate : Nat) (bits : List Bool)
  /-- port `p` has sent a frame, with its FCS (R264); `ts` is its TX timestamp, 2^-16 ns (R268) -/
  | frame (p : Nat) (bytes : List Byte) (ts : Nat)
  /-- port `p` begins to transmit remote fault or idle for the fault it receives; none: it sends frames again (R258) -/
  | linkSignal (p : Nat) (sig : Option LinkSignal)
  /-- bytes written to host memory at a bus address (R261, R404) -/
  | hostWrite (addr : Nat) (bytes : List Byte)
  /-- a read of host memory: bus address and length -/
  | hostRead (addr : Nat) (len : Nat)
  /-- CLAIM_OUT sends a claim frame: INDEX to CRC (R361) -/
  | claim (bytes : List Byte)
  /-- tandem lane `lane` sends a link frame (R366) -/
  | link (lane : Nat) (bytes : List Byte)
  /-- the I²C sideband sends bytes to the controller: data and PEC, or a NACK where there is none (R397, R398) -/
  | i2c (bytes : List Byte)
  /-- lane `m` answers a coefficient request for tap `tap` with status 1 updated, 2 minimum, 3 maximum (R243) -/
  | train (m tap status : Nat)
  /-- lane `m` asks its partner for one step of tap `tap`, up or down (R243) -/
  | trainAsk (m tap : Nat) (up : Bool)
  /-- lane `m` declares its receiver ready (R243) -/
  | trainReady (m : Nat)
  deriving DecidableEq, Repr

/-- What the last read of an interface returned: a value, or the bytes of a BAR2 read (R329), which may be poisoned (R327); or Completer Abort
(R392, R393). -/
structure Completion where
  value : BitVec 64 := 0
  aborted : Bool := false
  bytes : List Byte := []
  poisoned : Bool := false
  deriving DecidableEq, Repr

/-- A fence that is open on an interface (R42): the word written to CFG_FENCE. -/
structure Fence where
  tag : Nat
  mask : Nat
  /-- tick at which it opened, and whether CFG/FENCE_SLOW has been raised (R46) -/
  since : Nat := 0
  slow : Bool := false
  deriving DecidableEq, Repr

/-- A committed set of shadowed values (R75-R78): the words copied, each with the stamp its pending flag had, and the
boundary the commit named. -/
structure CommitSet where
  boundary : Nat
  vals : List (Nat × Word × Nat)
  /-- time of the channel's base at which it goes live, 2^-40 ns; 0 for IMMEDIATE (R77) -/
  target : Nat := 0
  fixed : Bool := false
  deriving DecidableEq, Repr

/-- An access held by the handshake: interface, BAR0 offset, word written. -/
structure HeldWrite where
  itf : Itf
  off : Nat
  v : Word
  /-- the bytes of a BAR2 write at Granary address `off` (R331), or as many of a BAR2 read -/
  bar2 : Option (List Byte) := none
  /-- it is a read (R41) -/
  read : Bool := false
  /-- it was issued after the fence that is open (R42) -/
  fenced : Bool := false
  /-- the errors that the line has brought, of a read of PRBS_ERR that says so (R251) -/
  errs : Option Nat := none
  deriving DecidableEq, Repr

/-- The commit machine of one shadowed channel (R74-R79). -/
structure CommitChan where
  /-- the staging set while a copy or its check runs (R75) -/
  staging : Option CommitSet := none
  armed : Option CommitSet := none
  /-- a set armed behind one that is already fixed (R78) -/
  behind : Option CommitSet := none
  /-- writes held while the copy runs, oldest first (R75) -/
  held : List HeldWrite := []
  /-- a set whose boundary fell while a ToD message was being sent (R204) -/
  due : Option CommitSet := none
  deriving DecidableEq, Repr

/-- One time base (R55-R72). Times are in 2^-40 ns. -/
structure TBase where
  /-- value, 2^-40 ns, modulo 2^48 s -/
  time : Nat := 0
  /-- residue of the frequency product, 2^-48 of 2^-40 ns (R56) -/
  res : Nat := 0
  /-- how far it has run since start-up, without its steps, 2^-40 ns: the clock that the lanes it serves transmit by (R275) -/
  osc : Nat := 0
  /-- host share of PEND, 2^-40 ns (R59) -/
  pendHost : Int := 0
  /-- servo share of PEND, 2^-40 ns (R59) -/
  pendServo : Int := 0
  /-- remainders of the slew slices, 10^-9 of 2^-40 ns (R60) -/
  remHost : Nat := 0
  remServo : Nat := 0
  /-- slew rate of the servo share, 2^-8 ns/s (R60) -/
  servoRate : Nat := 0
  /-- frequency adjustment in force, 2^-48 (R58) -/
  fnow : Int := 0
  /-- steering phase p (R145), 2^-40 ns: adjustments, slices and steps since start-up; and its residue, 2^-48 of that -/
  phase : Int := 0
  phaseRes : Nat := 0
  /-- a step occurred since the previous capture, per interface (R64) -/
  steppedP : Bool := false
  steppedI : Bool := false
  /-- a smear window is open (R72) -/
  smearing : Bool := false
  /-- the leap of the open window has been applied (R72, CENTRE mode) -/
  leapDone : Bool := false
  /-- master second at which the open window began, in half seconds -/
  winStart : Nat := 0
  /-- inside a repeated leap second (R71) -/
  leapSec : Bool := false
  /-- the UTC count at which the repeated second ends -/
  leapSecEnd : Nat := 0
  /-- steps of the base since start-up -/
  steps : Nat := 0
  deriving DecidableEq, Repr

/-- One scheduler slot (R80-R83). -/
structure Slot where
  armed : Bool := false
  /-- number of the next occurrence -/
  occ : Nat := 0
  /-- armed under LATE_OK with a target that fails the 2.0 µs rule (R81) -/
  late : Bool := false
  /-- a forward step passed occurrences: the first of them, and how many beyond it (R83) -/
  skip : Option (Nat × Nat) := none
  deriving DecidableEq, Repr

/-- The carrier ramp of R49: the compensation before and after it, in 2^-48, and the ticks run. -/
structure Ramp where
  fromComp : Int
  toComp : Int
  ticks : Nat := 0
  deriving DecidableEq, Repr

/-- Spine and time bases (chapter 02). -/
structure Spn where
  bases : List TBase := List.replicate 8 {}
  slots : List Slot := List.replicate 64 {}
  /-- carrier compensation, 2^-48 (R48) -/
  comp : Int := 0
  ramp : Option Ramp := none
  /-- SYNS is on DCO hold after losing its carrier (R50) -/
  hold : Bool := false
  /-- a carrier was lost and the next lock is the switch of R50 -/
  lossSwitch : Bool := false
  /-- spine ticks since start-up -/
  ticks : Nat := 0
  /-- the eight bases as they stood on the tick before, 2^-40 ns (R81) -/
  prev : List Nat := List.replicate 8 0
  /-- phase of the raw spine count against the ensemble time scale: less the sum of COMP (R48, R145), 2^-40 ns, and residue -/
  rawPhase : Int := 0
  rawRes : Nat := 0
  /-- the spine epoch (R107) -/
  epoch : Nat := 0
  /-- captures in progress, per interface: the mask, and whether the capture tick has passed (R64, R65) -/
  snapP : Option (Nat × Bool) := none
  snapI : Option (Nat × Bool) := none
  /-- masks whose capture falls on the running tick, whose end it takes the values of (R64) -/
  takeP : Option Nat := none
  takeI : Option Nat := none
  /-- reads of snapshot words held while BUSY, oldest first (R65) -/
  snapRd : List (Itf × Nat) := []
  /-- snapshot requests held while BUSY (R65) -/
  snapHeld : List HeldWrite := []
  /-- pulses being driven on each EVT pin (R84): when each ends on the spine, 2^-40 ns, and whether the pin shows it -/
  evtOn : List (List (Int × Bool)) := List.replicate 8 []
  /-- the last pulse of each EVT pin that has ended, the same (R84) -/
  evtEnd : List (Option (Int × Bool)) := List.replicate 8 none
  deriving DecidableEq, Repr

/-- The activity monitor of one edge source (R89): consecutive correct edges, whether a previous edge exists in the present
run, and, for the sources without a REF status register, LOS and GROSS. -/
structure Monitor where
  good : Nat := 0
  /-- tick of the last divided edge -/
  at_ : Nat := 0
  seen : Bool := false
  los : Bool := true
  gross : Bool := false
  /-- LOS_LIM as the last divided edge found it (R91); and, of an LO, the tick from which its alarm level is observed (R94) -/
  lim : Option Nat := none
  almFrom : Nat := 0
  deriving DecidableEq, Repr

/-- What an event's stop edge latches (R97, R107): the values of the eight bases, the spine ticks, and the steering phase of
the unit's grid. -/
structure Capture where
  times : List Nat := []
  ticks : Nat := 0
  phase : Int := 0
  deriving DecidableEq, Repr

/-- What a frame's crossing of the boundary latches (R105, R177, R268): the time of the capture in the port's base, 2^-40 ns, the
P of that base and the Bluta record body on that tick, and the bases then. -/
structure Stamp where
  t : Nat := 0
  p : Nat := 0xFFFFFFFF
  bluta : List Byte := []
  cap : Capture := {}
  deriving DecidableEq, Repr

/-- One interval unit: a TIU-P (R97-R114) or the FREQ channel of a lane unit (R105). -/
structure TiuUnit where
  /-- the first gain and offset run has passed (R99) -/
  ready : Bool := false
  /-- the correction of each of the 64 segments of codes for non-linearity, 1/256 code (R99) -/
  nl : List Int := List.replicate 64 0
  /-- sums of the 256 corrected codes of one and of two spine periods, 1/256 code, of the last successful run (R100) -/
  sum500 : Nat := 0
  sum1000 : Nat := 0
  /-- consecutive failed runs (R103) -/
  fails : Nat := 0
  /-- a retry is due 10 ms after the tick of a failed run (R103) -/
  retry : Option Nat := none
  /-- one further run is wanted when the running one ends (R102) -/
  again : Bool := false
  /-- die temperature at the last run (R100) -/
  runTemp : Word := 0
  /-- spine tick from which PERIOD counts: the end of the last run, or the last write of PERIOD since; none before the first run has ended
  (R100) -/
  calFrom : Option Nat := none
  /-- events counted, for DECIM (R98) -/
  events : Nat := 0
  /-- events whose conversion runs, oldest first (R97) -/
  converting : List Capture := []
  /-- the previous converted sample, unwrapped (R108) -/
  prev : Option Int := none
  /-- an unwrap reset came since the last result (R108) -/
  restart : Bool := true
  /-- N of the running block; 0 when none runs (R110) -/
  blockN : Nat := 0
  cnt : Nat := 0
  sum : Int := 0
  sumSq : Nat := 0
  minS : Int := 0
  maxS : Int := 0
  noPair : Nat := 0
  /-- sums over the block of the differences of the eight bases from the grid, 2^-40 ns (R107) -/
  dsum : List Int := List.replicate 8 0
  /-- the unit's last event time in each base, 2^-16 ns, and what its stop edge latched -/
  lastE : Option (List Int) := none
  lastCap : Capture := {}
  /-- the last result: mean in the grid base and re-expressed in each base (R107), time of its last event in each
  base, 2^-16 ns, what that event latched, and whether it was the first after an unwrap reset -/
  resMean : Int := 0
  resIn : List Int := []
  resEs : List Int := []
  resCap : Capture := {}
  resRestart : Bool := false
  /-- results completed since start-up -/
  results : Nat := 0
  /-- what the last RX and TX event of a lane unit latched (R105, R268) -/
  stampRx : Stamp := {}
  stampTx : Stamp := {}
  deriving DecidableEq, Repr

/-- What a serial lane counts and times (R240-R251). Ticks are of the spine. -/
structure LaneRt where
  /-- tick of the entry into its state -/
  since : Nat := 0
  /-- a coefficient request to the partner is not answered yet (R243) -/
  asked : Bool := false
  /-- its receiver has said that it is ready (R243) -/
  ready : Bool := false
  /-- errors and bits checked since the last read of PRBS_ERR by each interface, and the tick up to which bits are counted (R251) -/
  errP : Nat := 0
  errI : Nat := 0
  bitsP : Nat := 0
  bitsI : Nat := 0
  /-- the same, and losses of lock, since TND last read the spare lane (R366) -/
  errT : Nat := 0
  bitsT : Nat := 0
  chkTick : Nat := 0
  /-- bits checked since the line last said how many errors they held (R248, R251) -/
  fresh : Nat := 0
  /-- bits the generator has sent since it started, up to a point of the transmit clock, 2^-40 ns; and the 64-bit words of single injections
  (R250) -/
  genBits : Nat := 0
  genAt : Nat := 0
  injs : List Nat := []
  /-- tick at which the running scan point began, and the mismatches reported of it (R246) -/
  eyeTick : Nat := 0
  eyeCnt : Option Nat := none
  deriving DecidableEq, Repr

/-- A ramp of a synthesizer under way (R190): the core frequency it began at, 2^-16 Hz, the value of the base then, 2^-40 ns, FREQ in
force then, Hz, and its segments: END, 2^-16 Hz, and DUR, ms. -/
structure SynRamp where
  fromFreq : Nat
  start : Int
  ref : Nat
  segs : List (Nat × Nat)
  deriving DecidableEq, Repr

/-- One synthesizer (R185-R190). -/
structure Syn where
  /-- tick of the entry into its state (R188) -/
  since : Nat := 0
  ramp : Option SynRamp := none
  /-- value of the base at entry into ALIGN_WAIT, 2^-40 ns (R188) -/
  alignFrom : Int := 0
  /-- phase of the core less its ideal, 1/(10^9·2^40) of a core cycle, before the ramp under way; in REALIGN at `moveFrom`, the value of
  the base since which the phase moves, 2^-40 ns (R189) -/
  off : Int := 0
  moveFrom : Int := 0
  deriving DecidableEq, Repr

/-- What makes the waveform of an output (R191, R193): nothing, the divided core, an edge generator on the base (the fallback path), or the
core while its loop settles, whose edges the spec does not give. -/
inductive WaveKind | low | core | own | loose
  deriving DecidableEq, Repr

/-- A waveform of an output from a base time on, 2^-40 ns (R193): period in core cycles, cycles high (0: half), and where an edge lies:
PHASE of the divided core, a rising edge of an edge generator; 2^-40 ns. An edge generator has a core frequency of its own, 2^-16 Hz. -/
structure Wave where
  from_ : Int := 0
  /-- the last rising edge of the output before a low waveform, where the spec gives it (R192) -/
  edge : Option Int := none
  /-- format of the stage while the waveform is in force (R195) -/
  fmt : Nat := 0
  kind : WaveKind := .low
  freq : Nat := 0
  div : Nat := 1
  high : Nat := 0
  org : Int := 0
  deriving DecidableEq, Repr

/-- A block result as a consumer sees it (R110, R112): results since start-up, mean in the result's own base and in each base,
2^-16 ns, time in its own base and in each base, 2^-16 ns, ticks, phase of the grid, restart flag, statistics, and systematic
uncertainty. -/
structure CandRes where
  count : Nat := 0
  mean : Int := 0
  meanIn : List Int := []
  time : Int := 0
  timeIn : List Int := []
  ticks : Nat := 0
  phase : Int := 0
  restart : Bool := false
  n : Nat := 0
  sd : Nat := 0
  lo : Int := 0
  hi : Int := 0
  sys : Nat := 0
  /-- the uncertainty its source reports beside it, 2^-8 ns (R119) -/
  unc : Nat := 0xFFFFFFFF
  deriving DecidableEq, Repr

/-- The monitors of one candidate (R122-R125): history entries x (2^-16 ns) and T (2^-16 ns), newest first, the CUSUM sums,
the stale count and the results already taken. -/
structure CandMon where
  hist : List (Int × Int) := []
  splus : Nat := 0
  sminus : Nat := 0
  stale : Nat := 0
  taken : Nat := 0
  deriving DecidableEq, Repr

/-- The warm-up test of a member (R142): what its frequency is measured against (the set of other members as a mask, or 16 + the candidate),
the phase at the start of the running 100 s window, 2^-16 ns, the cycles of the window, and the phase change of the window before it. -/
structure WarmRun where
  ref : Nat
  start : Int
  cnt : Nat := 0
  last : Option Int := none
  deriving DecidableEq, Repr

/-- One ensemble member (R136-R143): phase, 2^-65 s, frequency, 2^-64, drift, 2^-64 /s, temperature coefficient, 2^-56 /°C. -/
structure Member where
  x : Int := 0
  y : Int := 0
  d : Int := 0
  c : Int := 0
  /-- covariance of x, y, d, c in the same units: xx, xy, xd, xc, yy, yd, yc, dd, dc, cc (R137, R138) -/
  cov : List Int := List.replicate 10 0
  /-- results of its unit already taken, and cycles without a new one -/
  taken : Nat := 0
  noRes : Nat := 0
  /-- it was in WARMUP when it failed -/
  fromWarm : Bool := false
  /-- sum and number of the temperature samples of the cycle, and the mean of the last cycle (R137), 1/256 °C -/
  tempSum : Int := 0
  tempCnt : Nat := 0
  temp : Int := 0
  /-- cycles in LEARNING since it left WARMUP, sums for TREF over the first hour of them, and whether TREF is fixed (R137) -/
  learnCyc : Nat := 0
  trefSum : Int := 0
  trefCnt : Nat := 0
  trefFixed : Bool := false
  /-- span of temperature seen, 1/256 °C -/
  tMin : Option Int := none
  tMax : Option Int := none
  /-- spine tick of the latest entry into WARMUP, the warm-up test, and whether it has passed (R142) -/
  warmTick : Nat := 0
  warm : Option WarmRun := none
  warmOk : Bool := false
  /-- phase against the ensemble at entry into REJOIN, 2^-16 ns, the cycles since, and the model held from then: y, d, c (R142) -/
  joinX : Int := 0
  joinCyc : Nat := 0
  joinY : Int := 0
  joinD : Int := 0
  joinC : Int := 0
  /-- weight in force and the weight the last cycle computed for the next, 2^-32 (R139, R140) -/
  w : Nat := 0
  wNext : Nat := 0
  deriving DecidableEq, Repr

/-- What phase hold holds of a time-and-phase result (R164, R166): the ticks of its T, its terms and the coefficients published at it. -/
structure Held where
  tick : Option Nat := none
  ref : Nat := 0xFFFFFFFF
  meas : Nat := 0xFFFFFFFF
  servo : Nat := 0xFFFFFFFF
  k : Nat × Nat × Nat × Nat := (0xFFFFFFFF, 0xFFFFFFFF, 0xFFFFFFFF, 0xFFFFFFFF)
  deriving DecidableEq, Repr

/-- Servo, reference track and bound of one base (R145-R171). -/
structure BaseCtl where
  /-- phase kept of a frequency-only candidate (R150), 2^-16 ns -/
  anchor : Option Int := none
  /-- T of the previous result in the base, 2^-16 ns; absent after a step of the base -/
  prevT : Option Int := none
  /-- T of the last applied result of a time-and-phase candidate in each base (R300), 2^-16 ns -/
  refT : List Int := []
  /-- |e| of the last 16 updates, newest first, 2^-16 ns (R154) -/
  errs : List Nat := []
  urun : Nat := 0
  run : Nat := 0
  everLocked : Bool := false
  /-- results of the followed candidate already applied -/
  taken : Nat := 0
  /-- state in which FIRST was set (R151) -/
  firstSt : Nat := 0
  /-- spine tick of the last estimate of YH, and whether one has been made since start-up (R146, R147) -/
  th : Nat := 0
  fitted : Bool := false
  /-- the residual the track used last: candidate, x and T, 2^-16 ns (R146) -/
  trk : Option (Nat × Int × Int) := none
  /-- candidate of the last applied result, and the measurement term of that result without the 20 ps of a carrier switch -/
  lastCand : Option Nat := none
  meas : Nat := 0xFFFFFFFF
  /-- what is held of the last applied time-and-phase result outside EXIT (R164, R166), and the ticks of T of the last applied result outside
  EXIT (R158) -/
  held : Held := {}
  secTick : Option Nat := none
  /-- the same of the results applied in the present EXIT, which count when the base leaves EXIT -/
  exitHeld : Option Held := none
  exitSec : Option Nat := none
  /-- member temperatures at the last reference measurement (R148) -/
  tempH : Option (List Int) := none
  /-- published bound in 1/(2·10^9) of 2^-8 ns, none when unbounded (R168) -/
  pFine : Option Nat := none
  stepPrev : Nat := 0
  evalTick : Nat := 0
  /-- spine tick at which EXCEEDED was set (R170) -/
  exceeded : Option Nat := none
  /-- a better row that is first, and the spine tick since which it is (R171) -/
  betterRow : Option (Nat × Nat) := none
  deriving DecidableEq, Repr

/-- Ensemble engine (R136-R148). -/
structure Ens where
  members : List Member := List.replicate 4 {}
  ctl : List BaseCtl := List.replicate 8 {}
  cands : List CandMon := List.replicate 30 {}
  /-- the 20 ps of a carrier switch stand until the next cycle (R49) -/
  carSwitch : Bool := false
  /-- the target of the ramp of R49 under way -/
  rampTo : Nat := 0
  /-- TB0 second of the last completed cycle, and the monitor tick and the servo updates that wait for the next (R138) -/
  sec : Nat := 0
  /-- TB0 second of the last monitor tick (R122) -/
  tickSec : Option Nat := none
  waitTick : Bool := false
  waitServo : List Nat := []
  /-- the member that stands first for carrier, and since which tick (R144) -/
  first : Option (Nat × Nat) := none
  deriving DecidableEq, Repr

/-- A trace record: TYPE, the TB0 time of the record, 2^-40 ns, whether records are missing before it (R180), and its payload. -/
structure TraceRec where
  typ : Nat
  stamp : Nat
  gap : Bool
  payload : List Byte
  deriving DecidableEq, Repr

/-- Trace writer (R178-R181). -/
structure Trace where
  /-- first 16 bytes of the digest of the last record (R180) -/
  prevHash : List Byte := List.replicate 16 0
  /-- a START record has been written in this start -/
  started : Bool := false
  /-- keep-counter time at start (START record), 2^-40 ns -/
  start : Nat := 0
  /-- the writer was stopped since the last record -/
  gap : Bool := false
  /-- overwriting unread records (R179) -/
  overrun : Bool := false
  /-- records that wait while PD6 is on and the store is not READY, oldest first (R25, R313) -/
  queue : List TraceRec := []
  /-- the subkey was rotated while the writer was off: a SUBKEY record comes first (R181) -/
  subkeyDue : Bool := false
  /-- TB0 second whose SECOND records are written, and whether those of the present one wait for its cycle (R178) -/
  sec : Nat := 0
  waitSecond : Bool := false
  deriving DecidableEq, Repr

/-- Secrets (R333-R356). Shares and keys are values; the Chest copies are stored XOR the mask (R342). -/
structure Keys where
  /-- root field: 0 BLANK, 1 VALID, 2 DAMAGED, 3 DESTROYED, and the root its shares combine to -/
  rootField : Nat := 0
  root : BitVec 256 := 0
  /-- derived keys, in PD4 (R339): identity seed, load secret, Chest mask -/
  derived : Option (BitVec 256 × BitVec 256 × BitVec 256) := none
  copyA : List (BitVec 256) := List.replicate 64 0
  copyB : List (BitVec 256) := List.replicate 64 0
  /-- slots whose two commit-word forms disagree (R342) -/
  bad : List Nat := []
  nonce : Option (BitVec 128) := none
  /-- a tamper or a ZEROISE in this start disabled authenticated services (R356); one without a burn (R353) -/
  notAuth : Bool := false
  chestOnly : Bool := false
  /-- AUTH_LOST has been raised in this start (R299) -/
  authLost : Bool := false
  /-- key use frozen by a departure of the core rail, and the tick at which its 10 µs end; the KEY command held meanwhile (R443) -/
  frozen : Bool := false
  frozenTo : Nat := 0
  cmd : Option Word := none
  /-- tick since which a stopped DRBG waits for its next retry (R334) -/
  retryFrom : Nat := 0
  /-- tick up to which a zeroisation is under way (R350), and the tick at which a root burn under way began (R337, R351) -/
  zeroTo : Nat := 0
  burnFrom : Option Nat := none
  /-- VBAT was lost since the last start, and whether the record cell was lost with it (R354) -/
  vbatLost : Option Bool := none
  /-- messages of events on VBAT alone, for the first rounds of Watch (R357) -/
  later : List FaultMsg := []
  deriving DecidableEq, Repr

/-! ### Frames -/

/-- A session key (R317): port, flags (bit 0 IPV6, 1 MAC_KEY, 2 TAGGED), VLAN, address (16 bytes, as the hot line) and
sourcePortIdentity. -/
structure SessKey where
  port : Nat
  flags : Nat
  vid : Nat
  addr : List Byte
  pid : List Byte
  deriving DecidableEq, Repr

/-- A token bucket (R282, R301): tokens taken and not yet returned, in 1/(2·10^9), at a spine tick. -/
structure Bucket where
  used : Nat := 0
  tick : Nat := 0
  deriving DecidableEq, Repr

/-- A frame stored in a port's receive FIFO (R260): without its FCS, with its RX timestamp in 2^-16 ns (R268), P, Bluta body and the bases on
that tick. -/
structure RxStored where
  bytes : List Byte
  ts : Nat
  p : Nat
  bluta : List Byte
  cap : Capture := {}
  deriving DecidableEq, Repr

/-- A frame on its way to the host receive ring, with its reason (R282). -/
structure HostFrame where
  f : RxStored
  reason : Nat
  deriving DecidableEq, Repr

/-- Addressing of a frame the part sends: MAC addresses, VLAN, and IP and UDP where it has them (`l2`: EtherType 0x88F7 alone). -/
structure Encap where
  dmac : List Byte
  smac : List Byte
  vid : Option Nat
  l2 : Bool
  v6 : Bool
  sip : List Byte
  dip : List Byte
  sport : Nat
  dport : Nat
  deriving DecidableEq, Repr

/-- The authentication an originated PTP message carries (R298): SPP, keyID, sequenceNo where SEQ is 1, and the key. -/
structure AuthOut where
  spp : Nat
  keyId : Nat
  seq : Option Nat
  key : List Byte
  deriving DecidableEq, Repr

/-- What an NTP response still needs on its launch tick (R300-R304): the first 48 bytes of the request, its RX timestamp, whether
it carries the Bluta record, whether it is an NTS NAK, the copied Unique Identifier field, and the S2C key, nonce and plaintext of
the Authenticator of an NTS response. -/
structure NtpBuild where
  req : List Byte
  rx : Nat
  bluta : Bool
  nak : Bool
  uid : List Byte
  nts : Option (List Byte × List Byte × List Byte)
  deriving DecidableEq, Repr

/-- What a queued frame holds. The fields that belong to the launch tick are filled in when it starts. -/
inductive TxBody
  | raw (bytes : List Byte)
  | ptp (e : Encap) (msg : List Byte) (bluta : Bool) (auth : Option AuthOut)
  | ntp (e : Encap) (b : NtpBuild)
  deriving DecidableEq, Repr

/-- What a session message records once it has left (R315, R316): slot, record type, sequenceId, timestamp carried, 2^-16 ns, P,
correctionField, and whether it is authenticated and a two-step Sync. -/
structure SessMark where
  slot : Nat
  typ : Nat
  seqId : Nat
  ts : Nat
  p : Nat
  corr : Int
  auth : Bool
  twoStep : Bool
  deriving DecidableEq, Repr

/-- What the Follow_Up of a two-step Sync repeats (R291): sequenceId, log interval byte and slot. -/
structure FollowUp where
  seqId : Nat
  log : Byte
  slot : Option Nat
  deriving DecidableEq, Repr

/-- A frame queued at a port's transmit arbiter (R273). -/
structure TxFrame where
  body : TxBody
  /-- launch time, 2^-16 ns of the port's base -/
  launch : Option Nat := none
  lateDrop : Bool := false
  late : Bool := false
  tsReq : Bool := false
  /-- descriptor indices of a host frame, and whether its write-back is still due (R265) -/
  descs : List Nat := []
  wb : Bool := true
  /-- PKT counter that counts it when sent -/
  kind : Option Nat := none
  /-- it counts as in flight (R306) -/
  inFlight : Bool := false
  mark : Option SessMark := none
  follow : Option FollowUp := none
  /-- client instance and sequenceId, where it is its Delay_Req (R309) -/
  client : Option (Nat × Nat) := none
  esmc : Bool := false
  /-- FEC_TX of the frame (R269) and what the lane of its codeword adds (R256), 2^-16 ns -/
  fec : Int := 0
  /-- its launch time is the TX timestamp of a start position, at which alone it starts (R291, R300) -/
  onGrid : Bool := false
  /-- a forward step of the base went past its launch time (R272) -/
  passed : Bool := false
  /-- its launch time passed while the port was UP (R274) -/
  upPast : Bool := false
  deriving DecidableEq, Repr

/-- The write-back of a transmit frame that has left or been dropped, as the ring engine still owes it (R264): its descriptors, TX timestamp where it
goes into it, with its bound, and STATUS. -/
structure TxBack where
  descs : List Nat
  ts : Option Nat
  bound : Nat
  status : Nat
  deriving DecidableEq, Repr

/-- One Ethernet port (R254-R278). -/
structure MacPort where
  fifo : List RxStored := []
  fifoRun : Bool := false
  ringRun : Bool := false
  /-- frames sent to the host path, oldest first -/
  host : List HostFrame := []
  /-- the three sources of the arbiter (R273), oldest first, and the frame in transmission with the source it came from -/
  esmc : List TxFrame := []
  pkt : List TxFrame := []
  ring : List TxFrame := []
  cur : Option (Nat × TxFrame) := none
  /-- the running paused interval (R266, R267): spine ticks at which it began and at which it ends -/
  pauseFrom : Nat := 0
  pauseTo : Nat := 0
  /-- PAUSE frames are ignored after a watchdog break (R267), and the tick of the break or of the last PAUSE frame since -/
  ignoring : Bool := false
  pauseLast : Nat := 0
  /-- a frame has crossed the boundary and is being received -/
  rxIn : Bool := false
  /-- DESKEW_FAIL has been raised since the entry into DESKEW (R257), and the tick of that entry -/
  deskewFail : Bool := false
  deskewAt : Nat := 0
  /-- measured skew of each lane of a group against its lowest lane, 2^-16 ns (R256) -/
  skews : List Int := [0, 0, 0, 0]
  /-- write-backs of the transmit ring that are due, oldest first -/
  back : List TxBack := []
  /-- tick of the last ESMC information PDU sent, and the quality last sent (R276) -/
  infoTx : Option Nat := none
  sentQ : Option (Nat × Nat) := none
  /-- host limiter (R282) -/
  lim : Bucket := {}
  /-- messages sent by the port's multicast streams: Sync, Announce; and the last sequenceNo of R298 -/
  syncSeq : Nat := 0
  annSeq : Nat := 0
  authSeq : Nat := 0
  deriving DecidableEq, Repr

/-- One entry of the group key table (R296). -/
structure GroupKey where
  valid : Bool := false
  keyId : Nat := 0
  spp : Nat := 0
  slot : Nat := 0
  from_ : Nat := 0
  to_ : Nat := 0
  wrapped : List Byte := []
  deriving DecidableEq, Repr

/-- An RX time of a client instance (R309): in the port's base, 2^-16 ns, and the bases on its tick. -/
structure RxAt where
  t : Nat
  cap : Capture
  deriving DecidableEq, Repr

/-- One client instance (R308-R310). Times in 2^-16 ns. -/
structure Client where
  /-- grants held: Announce, Sync, Delay_Resp -/
  grants : Nat := 0
  announces : Nat := 0
  syncs : Nat := 0
  /-- the requests sent last were denied or ran out of time -/
  failed : Bool := false
  /-- results delivered in this RUN -/
  first : Bool := true
  /-- last accepted sequenceNo, and the last one sent -/
  rxSeq : Nat := 0
  txSeq : Nat := 0
  /-- a two-step Sync that waits for its Follow_Up: sequenceId, t2, correctionField -/
  wait : Option (Nat × RxAt × Int) := none
  /-- t2 less t1 of the latest Sync, with its t2 -/
  sync : Option (Int × RxAt) := none
  /-- the Delay_Req that waits for its answer: sequenceId, t2 - t1 and t2 of the Sync it pairs with, t3 -/
  req : Option (Nat × Int × RxAt × Option Nat) := none
  /-- ticks (R308): its requests were sent, they failed, it entered WAIT, the last Announce and the last Sync were accepted -/
  asked : Nat := 0
  failAt : Nat := 0
  waitAt : Nat := 0
  annAt : Nat := 0
  syncAt : Nat := 0
  /-- tick and duration, s, of each grant: Announce, Sync, Delay_Resp -/
  grantAt : List (Nat × Nat) := [(0, 0), (0, 0), (0, 0)]
  /-- messages sent: Signaling and Delay_Req; the tick of the last Delay_Req -/
  sigSeq : Nat := 0
  reqSeq : Nat := 0
  reqTick : Option Nat := none
  /-- exchanges of the running block, oldest first: offset, delay, t2; both in 2^-16 ns, t2 also as a time -/
  exch : List (Int × Int × RxAt) := []
  deriving DecidableEq, Repr

/-- A packet the scheduler builds, which waits while 8,192 packets are in flight (R306). -/
inductive PktBuild
  /-- the gratuitous announcement of an interface (R283) -/
  | gratuitous (k : Nat)
  /-- a client instance's Signaling with its TLVs, and its Delay_Req (R308, R309) -/
  | signal (k : Nat) (tlvs : List Byte)
  | delayReq (k : Nat)
  /-- a stream's Sync with its launch time, and its Announce (R290) -/
  | sync (st : Stream) (launch : Nat)
  | announce (st : Stream)
  /-- the Follow_Up of a Sync that left port p with a TX timestamp (R291) -/
  | follow (p : Nat) (f : FollowUp) (ts : Nat) (stamp : Stamp)
  deriving DecidableEq, Repr

/-- Packet engines (R280-R310). -/
structure Pkt where
  clients : List Client := List.replicate 4 {}
  /-- group key table, by entry -/
  keys : List (Nat × GroupKey) := []
  ntp : Bucket := {}
  /-- last event of each kind and port (R280): 64 × kind + port, and its tick plus 1 -/
  runs : List (Nat × Nat) := []
  /-- messages sent in each session: 4 × slot + type (0 Sync, 1 Announce, 2 Signaling) -/
  seqs : List (Nat × Nat) := []
  /-- place of the last occurrence of each stream (R290), 2^-40 ns plus 1: 4 × slot + type, with slot 2^20 + p for the streams of port p -/
  places : List (Nat × Nat) := []
  /-- builds that wait for a place in flight, oldest first (R306) -/
  builds : List PktBuild := []
  deriving DecidableEq, Repr

/-- Client store (R312-R332). -/
structure Cst where
  /-- hash seeds (R318) -/
  seed1 : Nat := 0
  seed2 : Nat := 0
  seed3 : Nat := 0
  /-- the training and zeroing of this power-up of PD6 have ended, and whether they failed (R313) -/
  ready : Option Bool := none
  /-- words of the DRAM whose content has an error that no read has met yet, or that an uncorrectable error left as found (R326, R327) -/
  flaws : List EccHit := []
  /-- allocated and retired slots, ascending (R322, R327) -/
  used : List Nat := []
  retired : List Nat := []
  /-- Granary address of the next line to scrub (R328), and the tick at which the pass is due to begin -/
  scrubAt : Nat := 0
  scrubTick : Nat := 0
  /-- TB0 second of the last sweep (R323) -/
  sweepSec : Option Nat := none
  /-- tick, plus 1, at which CST/ECC_CE was last raised (R326) -/
  ceTick : Nat := 0
  /-- the scrub pass under way, and the last complete one, met an uncorrectable error (R328, R374) -/
  passUe : Bool := false
  lastUe : Bool := false
  deriving DecidableEq, Repr

/-- What start-up keeps (R417-R435). -/
structure Img where
  /-- the load buffer (R420, R433), and whether its last byte has been written -/
  buf : List Byte := []
  full : Bool := false
  /-- the source under verification: 0 primary, 1 secondary, 2 host load; and the copies already chosen (R419) -/
  src : Nat := 0
  tried : List Nat := []
  /-- OWNER_PUB of the loaded image (R434); 0 where absent -/
  pub : BitVec 256 := 0
  /-- the image's register values and its header's COMPAT flag (R423, R424, R435) -/
  regs : RegFile := []
  compat : Bool := false
  /-- SUBSYS_VID and SUBSYS_ID of its header (R421, R430): the ID in bits 31 to 16 -/
  subsys : Nat := 0
  /-- the owner row (R434): hash, its complement, PRESENT and REQUIRE bits; what a running burn adds to each -/
  ownerHash : BitVec 256 := 0
  ownerComp : BitVec 256 := 0
  ownerBits : BitVec 8 := 0
  burnHash : BitVec 256 := 0
  burnComp : BitVec 256 := 0
  burnBits : BitVec 8 := 0
  deriving DecidableEq, Repr

/-- A capture of Tally that waits to be written (R413, R414). -/
structure DumpRec where
  seq : Nat
  bytes : List Byte
  deriving DecidableEq, Repr

/-- Tally's dumps (R413-R415). -/
structure Prf where
  /-- captures not yet written, oldest first -/
  queue : List DumpRec := []
  /-- no capture since EN was set -/
  first : Bool := true
  /-- time, 2^-16 ns, and octet counters (received and sent, by port) of the previous capture -/
  prevT : Nat := 0
  prevOct : List Nat := []
  /-- the last capture instant that was captured or lay before EN was set, in INTERVALs since the PTP epoch (R413) -/
  instant : Nat := 0
  /-- requests of each fast-layer master when its held requests were last counted, and of all of them at the last read of PEAK (R400) -/
  seen : List (Nat × Nat) := []
  peakSeen : Nat := 0
  deriving DecidableEq, Repr

/-- Watch (R376-R389). -/
structure Watch where
  /-- the log: entry index modulo 1,024 and its four words (R381) -/
  log : List (Nat × Word × Word × Word × Word) := []
  /-- number of the next round (R377) -/
  round : Nat := 0
  /-- messages held from before Watch started, each due a round of its own (R429) -/
  early : Nat := 0
  /-- fence bits of the blocks whose masking window is open, each with the tick of its reset (R387) -/
  windows : List (Nat × Nat) := []
  /-- complementary pairs whose halves differ: FLT offset, and the bits in which the inverted half fails to be the complement (R388) -/
  split : List (Nat × Word) := []
  /-- kind of the message of the entry into the safe state, until Watch takes it: it belongs to the NMI event of the entry (R389); 0 none -/
  entry : Nat := 0
  deriving DecidableEq, Repr

/-- Power (R441-R450). -/
structure Pwr where
  /-- main power is off (R443, R354) -/
  mainOff : Bool := false
  /-- PWR/THERMAL has been raised and no sample has been at or below ALARM - 5 °C since (R450) -/
  hot : Bool := false
  /-- the keep-counter (R431): its value, 2^-15 s, at a spine tick, and whether it holds a time -/
  keep : Nat := 0
  keepTick : Nat := 0
  keepValid : Bool := false
  /-- its value at the last copy from TB0 (R445) -/
  keepCopy : Nat := 0
  /-- DOM_REQ writes held while a request runs, and accesses held while a domain ramps: offset and word written, oldest first
  (R448) -/
  reqs : List HeldWrite := []
  waits : List (Itf × Nat × Option Word) := []
  /-- tick at which the domain that switches now began to (R447) -/
  domTick : Nat := 0
  deriving DecidableEq, Repr

/-- A good claim frame of the peer (R361): its boundary, STATUS and two claims. -/
structure ClaimFrame where
  idx : Nat
  status : Nat
  c1 : Nat
  c2 : Nat
  deriving DecidableEq, Repr

/-- A link frame that is not yet acknowledged (R367). -/
structure LinkFrame where
  seq : Nat
  typ : Nat
  payload : List Byte
  resends : Nat := 0
  /-- tick of its first send, and the last of its four times for a resend that has passed (R367) -/
  sent : Nat := 0
  slot : Nat := 0
  deriving DecidableEq, Repr

/-- The peer's model of a shared member (R371, STATE frame): state, frequency 2^-48, drift 2^-64 /s, coefficient
2^-56 /°C, TREF 1/256 °C, TRAINED_SEC. -/
structure PeerMember where
  st : Nat := 0
  y : Int := 0
  d : Int := 0
  c : Int := 0
  tref : Nat := 0
  sec : Nat := 0
  deriving DecidableEq, Repr

/-- Tandem unit (R358-R374). -/
structure Tnd where
  /-- the peer's last TIME frame (R372): second, bound, QL, reference class and role it carried -/
  peerSec : Nat := 0
  peerBound : Nat := 0xFFFFFFFF
  peerQl : Nat := 15
  peerClass : Nat := 0
  peerRole : Nat := 0
  /-- own claims for the running microsecond boundary of the tandem base and the next two (R361) -/
  c0 : Nat := 0
  c1 : Nat := 0
  c2 : Nat := 0
  /-- the boundary of `c0`, and the last one at which the claims were compared, in µs of the tandem base (R361, R364) -/
  cAt : Nat := 0
  cmpAt : Option Nat := none
  /-- when a unit that has become ACTIVE drives the shared stages, on the spine, 2^-40 ns: 20 ns after its boundary (R364) -/
  driveFrom : Int := 0
  /-- the last two good frames of the peer, newest first (R362, R364) -/
  frames : List ClaimFrame := []
  /-- ticks of the good frames of the last 5 µs, newest first, with their PEER_FRESH (R363) -/
  heard : List (Nat × Bool) := []
  /-- frames that failed their CRC since the last good one -/
  crcBad : Nat := 0
  /-- within 5 µs of the power-up of PD9 the peer claim is unknown (R362) -/
  holdoff : Bool := true
  upTick : Nat := 0
  /-- health bits whose test has failed in the running TB0 second (R374) -/
  failed : Nat := 0xFF00
  /-- the last known-answer run failed; the peer PPS and TWOWAY disagree (R374) -/
  katBad : Bool := false
  xchkBad : Bool := false
  /-- TB0 second of the last HEALTH_SECOND (R374) -/
  healthSec : Nat := 0
  /-- own and peer nonce of HELLO, and the keys derived on entry to PAIRED (R369) -/
  nonce : Nat := 0
  peerNonce : Option Nat := none
  macK : List Byte := []
  kek : BitVec 256 := 0
  /-- next SEQ to send, next to accept (none before the first frame of a session), frames without ACK, oldest first (R367) -/
  txSeq : Nat := 0
  rxSeq : Option Nat := none
  unacked : List LinkFrame := []
  /-- a valid HELLO of the other UNIT has come, and the own HELLO was acknowledged -/
  helloSeen : Bool := false
  helloAcked : Bool := false
  /-- unit B holds its frames until unit A is heard again (R367) -/
  hold : Bool := false
  /-- the carrying lane was changed and has not relocked yet (R366) -/
  relock : Bool := false
  /-- CFG_MISMATCH has been raised since the generations last agreed (R370) -/
  mismatch : Bool := false
  /-- a TWOWAY request that waits for its answer: its t1, and its arrival t2, 2^-16 ns; whether an offset was measured since
  PAIRED (R372) -/
  twoway : Option (List Byte × Nat) := none
  twowayOk : Bool := false
  /-- the tandem base has stepped since the last result of candidate 25 (R373) -/
  stepped : Bool := false
  /-- tick at which the last TIME frame arrived; the latest result of the peer PPS with the second of its TIME frame; a result that waits for
  that frame, with whether it restarts the monitors (R372) -/
  timeTick : Option Nat := none
  ppsRes : CandRes := {}
  edgeWait : Option Bool := none
  /-- of each Chest slot whose KEYS frame has gone out: the tick, plus 1, and the ACTIVE and GEN of the key it sent (14, frame types) -/
  keyAt : List (Nat × Nat × Nat) := []
  peers : List PeerMember := List.replicate 4 {}
  /-- ticks of the last valid frame received (R368), of the last HELLO and HEARTBEAT sent, of the last look at the spare lane; and the seconds
  whose TIME, STATE and TWOWAY request have gone out (14, frame types) -/
  rxAt : Nat := 0
  helloAt : Option Nat := none
  beatAt : Option Nat := none
  spareAt : Option Nat := none
  timeSec : Option Nat := none
  stateSec : Option Nat := none
  askSec : Option Nat := none
  deriving DecidableEq, Repr

/-- UTC parameters as a constellation broadcasts them (R218): TAI - UTC, A0 (2^-16 ns), A1 (2^-48), reference TAI second. -/
structure UtcPar where
  con : Nat
  ofs : BitVec 16
  a0 : Int
  a1 : Int
  tot : Nat
  deriving DecidableEq, Repr

/-- The hot-start store in PD0 (R233): decoded items, each with the keep-counter time of its write, 2^-15 s; the position, cm, with its
uncertainty, the seconds of the survey and the time of its write. -/
structure HotStore where
  items : List (NavItem × Nat) := []
  pos : Option (Int × Int × Int × Nat × Nat × Nat) := none
  deriving DecidableEq, Repr

/-- What a search knows (R214): the time estimate's uncertainty, 2^-8 ns, the position's, cm, and the satellites whose orbit is held. -/
structure SearchKnow where
  timeU : Option Nat := none
  posU : Option Nat := none
  sats : List (Fin 3 × BitVec 8) := []
  deriving DecidableEq, Repr

/-- GNSS baseband (R208-R234). -/
structure Gns where
  /-- seconds without a delivered result in VALID, and the MEAN of the last counted solution (R225, R226) -/
  misses : Nat := 0
  lastMean : Option Int := none
  /-- TIME_FAR has been raised in the running chain -/
  farRaised : Bool := false
  /-- a configuration change waits for the next solution (R227), and POS_MODE as it last acted (R219) -/
  cfgChange : Bool := false
  posCtl : Nat := 0
  /-- results of the unit already used, and whether one that was not counted followed a step or an abandoned block (R225) -/
  taken : Nat := 0
  restarted : Bool := false
  /-- seconds of the running survey, the sums of its positions, cm, their number, and the average's uncertainty (R219) -/
  survey : Nat := 0
  sumPos : Int × Int × Int := (0, 0, 0)
  cntPos : Nat := 0
  avgU : Nat := 0
  /-- signals tracked, and those of them below MASK_CN0 - 3 dB-Hz with the spine tick since which they are (R213) -/
  tracked : List Signal := []
  weak : List (Signal × Nat) := []
  /-- predicted elevations, the signal the search found last, its passes, and the pass in which aiding was last applied with what the search knew
before it (R214, R215); uncertainty of a position stored or solved, cm -/
  pred : List (Fin 3 × BitVec 8 × Int) := []
  found : Option Signal := none
  pass : Nat := 0
  aidPass : Option Nat := none
  aidWas : SearchKnow := {}
  posHeld : Option Nat := none
  /-- spine tick of the power-up, acquisition waits for an aiding TIME record, and the store is still to be read (R215, R234) -/
  upTick : Nat := 0
  aidWait : Bool := false
  wake : Bool := false
  /-- the time estimate's uncertainty, 2^-8 ns, and the TIME record last applied (R217) -/
  timeU : Option Nat := none
  aidTime : List Byte := []
  /-- broadcast data supplied by the host (R217) -/
  navData : List (List Byte) := []
  /-- ephemerides held, by satellite: issue of data, and whether it was decoded from the sky (R217); almanacs; constellations with a GGTO; UTC
  parameters, latest first; the leap announcement: LEAP byte and LEAP_AT (R230) -/
  eph : List (Fin 3 × BitVec 8 × Nat × Bool) := []
  alm : List (Fin 3 × BitVec 8) := []
  ggto : List (Fin 3) := []
  utc : List UtcPar := []
  leap : BitVec 8 := 0
  leapAt : Nat := 0
  /-- the last internal PPS edge: its second and its spine tick; and the latest solution: a TAI second, its raw spine time, 2^-40 ns, and the
  rate, 2^-48 (R223) -/
  edge : Option (Nat × Nat) := none
  fit : Option (Nat × Int × Int) := none
  /-- TAI second of the last accepted solution and its MEAN (R230) -/
  solSec : Option Nat := none
  solMean : Int := 0
  /-- second whose solution, or lack of one, has been evaluated (R226, R230) -/
  doneSec : Option Nat := none
  /-- overwriting unread messages (R229), and the messages that wait for the store, type and bytes 8 to 63 (R25) -/
  overrun : Bool := false
  queue : List (Nat × List Byte) := []
  hot : HotStore := {}
  deriving DecidableEq, Repr

/-- One PPS pin (R197-R200). -/
structure PpsPin where
  /-- edges after this time are still to come, 2^-40 ns of the base; the last edge emitted or passed -/
  last : Option Nat := none
  /-- an alignment under ONCE still waits for its result (R200) -/
  once : Bool := false
  /-- remainder of the phase a TRACK alignment still has to move, 2^-16 ns -/
  track : Int := 0
  /-- base time at which the pulse under way ends, 2^-40 ns, and the steps the base had taken when it began -/
  ends : Nat := 0
  steps : Nat := 0
  deriving DecidableEq, Repr

/-- A ToD message waiting to start: the triggering edge, the base time at which its count is START_OFS's zero (the edge, moved by a leap
since), the Bluta record body, its FLAGS, P and the map row in force on its tick, and the steps its base had taken (R202). -/
structure TodTrigger where
  edge : Nat
  from_ : Nat
  bluta : List Byte
  flags : Nat
  p : Nat
  qual : Word
  steps : Nat
  deriving DecidableEq, Repr

/-- One ToD channel (R201-R204): a message waiting to start, the messages sent, and of the message being sent the base time at
which its last stop bit ends, 2^-40 ns, and the steps the base had taken when it began. -/
structure TodChan where
  trig : Option TodTrigger := none
  sent : Nat := 0
  ends : Nat := 0
  steps : Nat := 0
  deriving DecidableEq, Repr

/-- The PCIe endpoint (R390, R391): the MSI-X table's words by BAR4 offset, Vector Control apart, and the writable registers of configuration
space; Bus Master Enable is in MTX_PCIE_STAT. -/
structure Pcie where
  table : List (Nat × Word) := []
  command : Word := 0
  bars : List Word := List.replicate 6 0
  devCtl : Word := 0x2810
  linkCtl : Word := 0
  devCtl2 : Word := 0
  funcMask : Bool := false
  pmCtl : Word := 0
  aerUncor : Word := 0
  aerCor : Word := 0
  deriving DecidableEq, Repr

/-- The machine. -/
structure State where
  /-- every register's stored value: the shadow of an SH field (R14), the value of any other -/
  regs : RegFile := []
  /-- values in force behind the SH fields (R17) -/
  live : RegFile := []
  /-- shadowed registers whose pending flag is set, with the stamp of the last write (R74) -/
  pendSh : List (Nat × Nat) := []
  /-- stamp of the last shadow write -/
  shStamp : Nat := 0
  /-- the read banks of PCIe and I²C (R113) -/
  bankP : RegFile := []
  bankI : RegFile := []
  /-- what the last read of each interface returned -/
  rdP : Option Completion := none
  rdI : Option Completion := none
  /-- the open fence of each interface (R42), and the accesses that wait for it or behind an earlier access to their block,
  oldest first (R41, R46) -/
  fenceP : Option Fence := none
  fenceI : Option Fence := none
  heldP : List HeldWrite := []
  heldI : List HeldWrite := []
  /-- the commit machines, in the order of `Chan.idx` -/
  chans : List CommitChan := List.replicate 46 {}
  spn : Spn := {}
  /-- activity monitors: REFIN0-7, LO0-3, Vane PPS, peer PPS, peer 10 MHz (R89) -/
  monitors : List Monitor := List.replicate 15 {}
  /-- TIU-P0 to TIU-P11 and the FREQ channels of lane units 0 to 17 -/
  tiuP : List TiuUnit := List.replicate 12 {}
  tiuL : List TiuUnit := List.replicate 18 {}
  /-- SYN0-SYN3; the waveforms of OUT0-OUT11, each from its time on, oldest first; the PPS pins; TOD0 and TOD1 -/
  syns : List Syn := List.replicate 4 {}
  outs : List (List Wave) := List.replicate 12 []
  pps : List PpsPin := List.replicate 4 {}
  tod : List TodChan := List.replicate 2 {}
  /-- LANE0-LANE15, TLANE0, TLANE1 -/
  lanes : List LaneRt := List.replicate 18 {}
  ens : Ens := {}
  /-- results that a source forms itself: candidates 24 (R225), 25 in TWOWAY (R372), 26 to 29 (R309) -/
  srcRes : List CandRes := List.replicate 6 {}
  tnd : Tnd := {}
  gns : Gns := {}
  mac : List MacPort := List.replicate 16 {}
  pkt : Pkt := {}
  cst : Cst := {}
  img : Img := {}
  pwr : Pwr := {}
  /-- the descriptor that each DMA channel holds (R403) -/
  dma : List (List Byte) := List.replicate 16 []
  prf : Prf := {}
  flt : Watch := {}
  trace : Trace := {}
  keys : Keys := {}
  /-- messages latched at the fault collector, oldest first (R376) -/
  faults : List FaultMsg := []
  /-- MSI-X vectors that are masked, and the pending bit array (R394) -/
  vecMask : Nat := 0xFFFFFFFF
  pba : Nat := 0
  pcie : Pcie := {}
  /-- Tally's counters, by index (R411) -/
  tally : List (Nat × Nat) := []
  /-- the Granary (R312) -/
  mem : Memory := []
  /-- what the part has put out, newest first -/
  out : List Emit := []
  /-- free values taken so far (log entry 3) -/
  free : Nat := 0
  /-- commands that are waiting, first in, first out -/
  pending : List Instr := []
  deriving DecidableEq, Repr

/-- The machine right after power-on reset (R19). -/
def State.reset : State := {}

end Sys2Proof.Machine
end

