-- ==== Sys2Proof/Machine/Ops.lean ====
section
/-! DEFINITION. The named operations over the register file, the values in force, the Granary, the interrupts, the fault
messages and the counters. -/
namespace Sys2Proof.Machine

/-- The outcome every command ends in. -/
abbrev Out := Host.Outcome State Fault Refusal

/-! ### Registers -/

/-- The stored word of the register at BAR0 offset `o`. -/
def State.rd (s : State) (o : Nat) : Word := mapGet resetWord s.regs o

/-- The register at `o` set to `v`. -/
def State.wr (s : State) (o : Nat) (v : Word) : State := { s with regs := mapSet resetWord s.regs o v }

/-- Field [hi:lo] of the register at `o`, as a number. -/
def State.f (s : State) (o hi lo : Nat) : Nat := (s.rd o).field hi lo

/-- Bit `i` of the register at `o`. -/
def State.b (s : State) (o i : Nat) : Bool := (s.rd o).bit i

/-- Field [hi:lo] of the register at `o` set to `v`. -/
def State.setF (s : State) (o hi lo v : Nat) : State := s.wr o ((s.rd o).setField hi lo v)

/-- Bit `i` of the register at `o` set to `v`. -/
def State.setB (s : State) (o i : Nat) (v : Bool) : State := s.setF o i i (if v then 1 else 0)

/-- A wrapping count: field [hi:lo] of the register at `o` counts up by `n`. -/
def State.count (s : State) (o hi lo n : Nat) : State := s.setF o hi lo (s.f o hi lo + n)

/-- A saturating count: field [hi:lo] counts up by `n` and stays at its largest value. -/
def State.countSat (s : State) (o hi lo n : Nat) : State :=
  s.setF o hi lo (satAt (2 ^ (hi + 1 - lo) - 1) (s.f o hi lo + n))

/-- A 64-bit value in a _LO/_HI pair. -/
def State.rd64 (s : State) (o : Nat) : Nat := (s.rd o).toNat + (s.rd (o + 4)).toNat * 2 ^ 32

/-- A _LO/_HI pair set to the low 64 bits of `v`. -/
def State.wr64 (s : State) (o v : Nat) : State :=
  (s.wr o (BitVec.ofNat 32 v)).wr (o + 4) (BitVec.ofNat 32 (v / 2 ^ 32))

/-- A register set to the low 32 bits of `v`. -/
def State.wrN (s : State) (o v : Nat) : State := s.wr o (BitVec.ofNat 32 v)

/-- A signed 64-bit value into a _LO/_HI pair. -/
def State.wrS64 (s : State) (o : Nat) (v : Int) : State := s.wr64 o (wrapTo 64 v)

/-- A signed 48-bit value into a _LO/_HI pair whose _HI [31:16] is reserved. -/
def State.wrS48 (s : State) (o : Nat) (v : Int) : State := s.wr64 o (wrapTo 48 v)

/-- The value in force behind the shadowed register at `o` (R17). -/
def State.lv (s : State) (o : Nat) : Word := mapGet resetWord s.live o

/-- The value in force at `o` set to `v`. -/
def State.setLv (s : State) (o : Nat) (v : Word) : State := { s with live := mapSet resetWord s.live o v }

/-- Field [hi:lo] of the value in force at `o`. -/
def State.lf (s : State) (o hi lo : Nat) : Nat := (s.lv o).field hi lo

/-- Bit `i` of the value in force at `o`. -/
def State.lb (s : State) (o i : Nat) : Bool := (s.lv o).bit i

/-- A 64-bit value in force. -/
def State.lv64 (s : State) (o : Nat) : Nat := (s.lv o).toNat + (s.lv (o + 4)).toNat * 2 ^ 32

/-! ### Blocks (R461) -/

/-- The blocks of BAR0 (R461), in the order of their fence bits. -/
inductive Blk
  | cfg | pwr | flt | mtx | dma | prf | spn | ref | tiu | sel | ens | bnd | syn | out | gns | lan | mac | pkt | cst | key | tnd
  deriving DecidableEq, Repr

/-- Fence bit of a block (R42). -/
def Blk.bit : Blk → Nat
  | .cfg => 0 | .pwr => 1 | .flt => 2 | .mtx => 3 | .dma => 4 | .prf => 5 | .spn => 6 | .ref => 7 | .tiu => 8 | .sel => 9
  | .ens => 10 | .bnd => 11 | .syn => 12 | .out => 13 | .gns => 14 | .lan => 15 | .mac => 16 | .pkt => 17 | .cst => 18
  | .key => 19 | .tnd => 20

/-- Every block, by its fence bit. -/
def Blk.all : List Blk :=
  [.cfg, .pwr, .flt, .mtx, .dma, .prf, .spn, .ref, .tiu, .sel, .ens, .bnd, .syn, .out, .gns, .lan, .mac, .pkt, .cst, .key, .tnd]

/-- Base of a block in BAR0 (R461). -/
def Blk.base : Blk → Nat
  | .cfg => 0x00000000 | .pwr => 0x00100000 | .flt => 0x00200000 | .mtx => 0x00300000 | .dma => 0x00400000
  | .prf => 0x00500000 | .spn => 0x01000000 | .ref => 0x01100000 | .tiu => 0x01200000 | .sel => 0x01300000
  | .ens => 0x01400000 | .bnd => 0x01500000 | .syn => 0x01600000 | .out => 0x01700000 | .gns => 0x01800000
  | .lan => 0x02000000 | .mac => 0x02100000 | .pkt => 0x02200000 | .cst => 0x02300000 | .key => 0x02400000
  | .tnd => 0x02500000

/-- The block that owns a BAR0 offset (R461). -/
def Blk.ofOff (a : Nat) : Option Blk := Blk.all.find? (fun b => decide (b.base ≤ a) && decide (a < b.base + 0x100000))

/-- MSI-X vector of a block (R394). -/
def Blk.vector : Blk → Nat
  | .flt => 1 | .cfg => 2 | .pwr => 3 | .mtx => 4 | .dma => 5 | .prf => 6 | b => b.bit + 1

/-- BAR0 offset of a block's IRQ_STAT; IRQ_EN is at the offset plus 4 (R463). -/
def Blk.irqOff (b : Blk) : Nat :=
  b.base + (match b with
    | .spn | .ens | .bnd => 0x30
    | .ref | .lan | .mac => 0x10
    | .gns => 0x18
    | _ => 0x20)

/-- Bit of a block's IRQ_STAT that a discarded write sets, in the blocks that have one. -/
def Blk.cfgBadBit : Blk → Option Nat
  | .sel => some 3 | .bnd => some 5 | .gns => some 5 | .lan => some 4 | .mac => some 5 | .tnd => some 6
  | _ => none

/-- The CFG_BAD fault of a block (R380); PWR reports a discarded write as PWR/REFUSED (18). -/
def Blk.cfgBadFault : Blk → Option FaultId
  | .cfg => some Flt.cfgCfgBad | .flt => some Flt.fltCfgBad | .dma => some Flt.dmaCfgBad | .prf => some Flt.prfCfgBad
  | .sel => some Flt.selCfgBad | .bnd => some Flt.bndCfgBad | .gns => some Flt.gnsCfgBad | .lan => some Flt.lanCfgBad
  | .mac => some Flt.macCfgBad | .pkt => some Flt.pktCfgBad | .cst => some Flt.cstCfgBad | .key => some Flt.keyCfgBad
  | .tnd => some Flt.tndCfgBad
  | _ => none

/-! ### Emissions, interrupts, fault messages -/

/-- The part puts `e` out. -/
def State.emit (s : State) (e : Emit) : State := { s with out := e :: s.out }

/-- A block's summary: IRQ_STAT AND IRQ_EN (R394). -/
def State.summary (s : State) (b : Blk) : Word := s.rd b.irqOff &&& s.rd (b.irqOff + 4)

/-- A vector is masked: by its own Mask bit or by the Function Mask (R384, R394). -/
def State.masked (s : State) (v : Nat) : Bool := s.pcie.funcMask || s.vecMask.testBit v

/-- A word of the MSI-X table, Vector Control apart (R391). -/
def State.msixWord (s : State) (o : Nat) : Word := mapGet (fun _ => 0) s.pcie.table o

/-- The message of a vector goes out, to the address and with the data of its table entry (R391). -/
def State.msixSend (s : State) (v : Nat) : State :=
  s.emit (.msix v ((s.msixWord (16 * v + 4)).toNat * 2 ^ 32 + (s.msixWord (16 * v)).toNat) (s.msixWord (16 * v + 8)))

/-- The part sends a vector, or sets its PBA bit while it is masked (R394). A message needs Bus Master Enable
(MTX_PCIE_STAT.BME). -/
def State.sendVector (s : State) (v : Nat) : State :=
  if s.masked v then { s with pba := s.pba ||| 2 ^ v }
  else if s.b 0x00300010 2 then s.msixSend v
  else s

/-- A status event sets bit `i` of a block's IRQ_STAT; the vector is sent when the summary changes from zero to non-zero
(R394). -/
def State.irq (s : State) (b : Blk) (i : Nat) : State :=
  let s' := s.setB b.irqOff i true
  if s.summary b = 0 ∧ s'.summary b ≠ 0 then s'.sendVector b.vector else s'

/-- A block sends a fault message to Watch, which latches it (R376). -/
def State.raise (s : State) (f : FaultId) (ctx : Nat) : State :=
  { s with faults := s.faults ++ [⟨f.src, f.kind, f.sev, BitVec.ofNat 32 ctx⟩] }

/-- A host write at `o` is discarded: the block raises CFG_BAD with the BAR0 offset [15:0] in [31:16]. -/
def State.cfgBad (s : State) (b : Blk) (o : Nat) : State :=
  let s := match b.cfgBadBit with
    | some i => s.irq b i
    | none => s
  match b.cfgBadFault with
  | some f => s.raise f (o % 0x10000 * 0x10000)
  | none => s

/-- Tally counts `n` more of event `i`; 48 bits, wrapping (R411). -/
def State.tallyAdd (s : State) (i n : Nat) : State :=
  { s with tally := mapSet (fun _ => 0) s.tally i ((mapGet (fun _ => 0) s.tally i + n) % 2 ^ 48) }

/-- Counter `i` of Tally. -/
def State.tallyGet (s : State) (i : Nat) : Nat := mapGet (fun _ => 0) s.tally i

/-- The next free value, `w` bits wide, and the state after it is taken (log entry 3). -/
def State.takeFree (s : State) (w : Nat) : Nat × State := ((Config.freeValue w s.free).toNat, { s with free := s.free + 1 })

/-- The next `n` free values, signed, `w` bits wide (log entry 3). -/
def State.takeFrees (s : State) (w : Nat) : Nat → List Int × State
  | 0 => ([], s)
  | n + 1 =>
    let a := s.takeFree w
    let b := State.takeFrees a.2 w n
    (signedOf w a.1 :: b.1, b.2)

/-! ### The Granary -/

/-- The byte at Granary address `a`. -/
def State.mget (s : State) (a : Nat) : Byte := mapGet unwritten s.mem a

/-- The byte at Granary address `a` set to `v`. -/
def State.mset (s : State) (a : Nat) (v : Byte) : State := { s with mem := mapSet unwritten s.mem a v }

/-- Bytes written from Granary address `a` on, in ascending order. -/
def State.mwrite (s : State) (a : Nat) : List Byte → State
  | [] => s
  | v :: r => (s.mset a v).mwrite (a + 1) r

/-- `n` bytes read from Granary address `a` on. -/
def State.mread (s : State) (a n : Nat) : List Byte := (List.range n).map (fun i => s.mget (a + i))

/-- A number as `n` little-endian bytes (R13). -/
def leBytes : Nat → Nat → List Byte
  | 0, _ => []
  | n + 1, v => BitVec.ofNat 8 v :: leBytes n (v / 256)

/-- A number as `n` big-endian bytes (R13: line formats). -/
def beBytes (n v : Nat) : List Byte := (leBytes n v).reverse

/-- The number in little-endian bytes. -/
def leNat : List Byte → Nat
  | [] => 0
  | b :: r => b.toNat + 256 * leNat r

/-- The number in big-endian bytes. -/
def beNat (l : List Byte) : Nat := leNat l.reverse

/-! ### Interfaces -/

/-- The bank of an interface (R113). -/
def State.bank (s : State) (i : Itf) : RegFile :=
  match i with
  | .pcie => s.bankP
  | .i2c => s.bankI

/-- The bank of an interface set. -/
def State.setBank (s : State) (i : Itf) (m : RegFile) : State :=
  match i with
  | .pcie => { s with bankP := m }
  | .i2c => { s with bankI := m }

/-- Register `o` as the bank of an interface holds it. -/
def State.bankRd (s : State) (i : Itf) (o : Nat) : Word := mapGet resetWord (s.bank i) o

/-- Register `o` of an interface's bank set. -/
def State.bankWr (s : State) (i : Itf) (o : Nat) (v : Word) : State := s.setBank i (mapSet resetWord (s.bank i) o v)

/-- A read of interface `i` completes. -/
def State.complete (s : State) (i : Itf) (c : Completion) : State :=
  match i with
  | .pcie => { s with rdP := some c }
  | .i2c => { s with rdI := some c }

/-- One bit step of CRC-8 with polynomial 0x07 (R361). -/
def crc8Step (c : Nat) : Nat := if c / 2 ^ 7 % 2 = 1 then (c * 2 % 256) ^^^ 0x07 else c * 2 % 256

/-- CRC-8 over bytes: polynomial 0x07, initial value 0, no reflection, no final XOR (R361). -/
def crc8 (l : List Byte) : Nat :=
  l.foldl (fun c x => crc8Step (crc8Step (crc8Step (crc8Step (crc8Step (crc8Step (crc8Step (crc8Step (c ^^^ x.toNat))))))))) 0

/-- A read of the register at BAR0 offset `a` answers a word. On the I²C sideband the data and the PEC go out, the PEC over every byte
of the transaction (R397). -/
def State.answer (s : State) (i : Itf) (a : Nat) (v : Word) : State :=
  match i with
  | .pcie => s.complete .pcie { value := v.setWidth 64 }
  | .i2c =>
    let ad := s.f 0x00300050 6 0
    let d := beBytes 4 v.toNat
    let pec := crc8 ([BitVec.ofNat 8 (ad * 2)] ++ beBytes 4 a ++ [BitVec.ofNat 8 (ad * 2 + 1)] ++ d)
    (s.complete .i2c { value := v.setWidth 64 }).emit (.i2c (d ++ [BitVec.ofNat 8 pec]))

/-- A time in 2^-40 ns rounded to the nearest 1 ps, halves up (R193). -/
def psOf (t : Int) : Int := (2000 * t + 2 ^ 40) / 2 ^ 41

/-- Element `n` of a list set by a function, the rest unchanged. -/
def listMod {α : Type} (l : List α) (n : Nat) (g : α → α) : List α :=
  match l, n with
  | [], _ => []
  | x :: r, 0 => g x :: r
  | x :: r, n + 1 => x :: listMod r n g

end Sys2Proof.Machine
end

