-- ==== Sys2Proof/Machine/Spine.lean ====
section
/-! DEFINITION. The spine tick and the time bases (02 R53-R72), spine-time values (R63), snapshots (R64, R65). -/
namespace Sys2Proof.Machine

/-! ### Units and values -/

/-- One second in 2^-40 ns. -/
def secU : Nat := 1000000000 * 2 ^ 40

/-- The range of a time base: 2^48 s, in 2^-40 ns. -/
def timeMod : Nat := 2 ^ 48 * secU

/-- 2^-16 ns in 2^-40 ns. -/
def subU : Nat := 2 ^ 24

/-- BAR0 offset of SPN_TBn_CTL's window. -/
def tbOff (n : Nat) : Nat := 0x01001000 + n * 0x100

/-- Whether the structure creates TBn (SPN_CAP.PRESENT, R53). -/
def State.tbPresent (s : State) (n : Nat) : Bool := s.b 0x01000000 n && decide (n < 8)

/-- Whether TBn is yoked (SPN_CAP.YOKED). -/
def State.tbYoked (s : State) (n : Nat) : Bool := s.b 0x01000000 (8 + n)

/-- Master of a yoked base (SPN_YOKE_MAP). -/
def State.tbMaster (s : State) (n : Nat) : Nat := s.f 0x01000004 (4 * n + 2) (4 * n)

/-- Yoke type RATIO (SPN_YOKE_MAP); OFFSET otherwise. -/
def State.tbRatio (s : State) (n : Nat) : Bool := s.b 0x01000004 (4 * n + 3)

/-- An OFFSET-type yoked base (R67). -/
def State.tbOffsetYoked (s : State) (n : Nat) : Bool := s.tbYoked n && !s.tbRatio n

/-- MODE in force of an unyoked base is HOST (R54). -/
def State.tbHost (s : State) (n : Nat) : Bool := s.lb (tbOff n) 0 && !s.tbYoked n

/-- The base record of TBn. -/
def State.base (s : State) (n : Nat) : TBase := s.spn.bases.getD n {}

/-- The base record of TBn changed by `g`. -/
def State.modBase (s : State) (n : Nat) (g : TBase → TBase) : State :=
  { s with spn := { s.spn with bases := listMod s.spn.bases n g } }

/-- The spine block changed by `g`. -/
def State.modSpn (s : State) (g : Spn → Spn) : State := { s with spn := g s.spn }

/-- LEAP_OFS in force, seconds, signed (R67). -/
def State.leapOfs (s : State) (n : Nat) : Int := signedOf 16 (s.lf (tbOff n + 0x60) 15 0)

/-- DIR in force (R70). -/
def State.leapDir (s : State) (n : Nat) : Nat := s.lf (tbOff n + 0x60) 17 16

/-- LEAP_AT in force, master seconds (R70). -/
def State.leapAt (s : State) (n : Nat) : Nat := s.lv64 (tbOff n + 0x64) % 2 ^ 48

/-- YOKE_OFS in force, 2^-40 ns (R67). -/
def State.yokeOfs (s : State) (n : Nat) : Int := signedOf 64 (s.lv64 (tbOff n + 0x50)) * subU

/-- W in force, seconds (R72). -/
def State.smearW (s : State) (n : Nat) : Nat := s.lf (tbOff n + 0x6C) 16 0

/-- +1 for an inserted, -1 for a deleted second (R72). -/
def leapSign (dir : Nat) : Int := if dir = 1 then 1 else if dir = 3 then -1 else 0

/-- Start of the smear window of a scheduled leap, in half master seconds (R72). -/
def State.smearStart2 (s : State) (n : Nat) : Nat :=
  if s.lb (tbOff n + 0x6C) 30 then 2 * s.leapAt n - s.smearW n else 2 * s.leapAt n - 2 * s.smearW n

/-- A smeared leap of an OFFSET-type base is scheduled and its window is not open yet (R72). -/
def State.smearWaits (s : State) (n : Nat) : Bool :=
  s.tbOffsetYoked n && s.lb (tbOff n + 0x6C) 31 && decide (leapSign (s.leapDir n) ≠ 0) && !(s.base n).smearing

/-- Start of the smear window that master time `m` lies in, if it lies in one: the window that is open, or one whose start the master has
reached on this tick (R72). -/
def State.smearFrom (s : State) (n m : Nat) : Option Nat :=
  if (s.base n).smearing then some (s.base n).winStart
  else if s.smearWaits n && decide (s.smearStart2 n * (secU / 2) ≤ m) then some (s.smearStart2 n)
  else none

/-- Smear progress of an OFFSET-type base at master time `m`, 2^-40 ns (R72): linear over the window, less the second that
LEAP_OFS has taken over once the leap is applied. -/
def State.smearProgress (s : State) (n : Nat) (m : Nat) : Int :=
  match s.smearFrom n m with
  | some start2 =>
    let el : Nat := m - start2 * (secU / 2)
    let el := if el < s.smearW n * secU then el else s.smearW n * secU
    let dir := s.leapDir n
    leapSign dir * (el / s.smearW n : Nat) - (if (s.base n).leapDone then leapSign dir * secU else 0)
  | none => 0

/-- The unsmeared leap of TBn is due: its master has reached LEAP_AT and LEAP_APPLIED has not come yet on this tick (R71). -/
def State.leapDue (s : State) (n : Nat) : Bool :=
  s.tbOffsetYoked n && decide (leapSign (s.leapDir n) ≠ 0) && !s.lb (tbOff n + 0x6C) 31 && !(s.base n).smearing
    && decide (s.leapAt n * secU ≤ (s.base (s.tbMaster n)).time)

/-- The value of TBn, 2^-40 ns (R55, R67, R68). On the tick where the master reaches LEAP_AT it has the new LEAP_OFS (R71). -/
def State.tbTime (s : State) (n : Nat) : Nat :=
  if s.tbOffsetYoked n then
    let m := (s.base (s.tbMaster n)).time
    let ofs := s.leapOfs n + (if s.leapDue n then leapSign (s.leapDir n) else 0)
    (((m : Int) + s.yokeOfs n - ofs * secU - s.smearProgress n m) % (timeMod : Int)).toNat
  else (s.base n).time

/-- The count of TBn in the frame that its edges, its armed sets and its slots are in: on the tick of an unsmeared leap, until LEAP_APPLIED,
the one before the leap (R71). -/
def State.countNow (s : State) (n : Nat) : Nat :=
  if s.leapDue n then (((s.tbTime n : Int) + leapSign (s.leapDir n) * secU) % (timeMod : Int)).toNat else s.tbTime n

/-- The count of TBn at LEAP_AT before its leap, 2^-40 ns (R70). -/
def State.leapCount (s : State) (n : Nat) : Int := s.leapAt n * secU + s.yokeOfs n - s.leapOfs n * secU

/-- Seconds of TBn. -/
def State.tbSec (s : State) (n : Nat) : Nat := s.tbTime n / secU

/-- The three words W0, W1, W2 of a spine-time value (R63), truncated to 2^-16 ns (R55). -/
def timeWords (t : Nat) : Word × Word × Word :=
  let sec := t / secU
  let ns := t % secU / 2 ^ 40
  let sub := t % 2 ^ 40 / 2 ^ 24
  (BitVec.ofNat 32 ns, BitVec.ofNat 32 (sec % 2 ^ 16 * 2 ^ 16 + sub), BitVec.ofNat 32 (sec / 2 ^ 16))

/-- The 2^-40 ns value of the words of R63. -/
def timeOfWords (w0 w1 w2 : Word) : Nat :=
  (w2.toNat * 2 ^ 16 + w1.field 31 16) * secU + w0.toNat * 2 ^ 40 + w1.field 15 0 * 2 ^ 24

/-- A valid spine time has its nanoseconds field below 1,000,000,000 (R8). -/
def validTime (w0 : Word) : Bool := decide (w0.toNat < 1000000000)

/-- The twelve bytes of a spine-time value in memory (R63, R13). -/
def timeBytes (t : Nat) : List Byte :=
  let w := timeWords t
  leBytes 4 w.1.toNat ++ leBytes 4 w.2.1.toNat ++ leBytes 4 w.2.2.toNat

/-! ### The spine tick -/

/-- Saturation of the frequency sum (R56): ±2^47 - 1. -/
def satFreq (f : Int) : Int := if f > 2 ^ 47 - 1 then 2 ^ 47 - 1 else if f < -(2 ^ 47 - 1) then -(2 ^ 47 - 1) else f

/-- COMP in force on this tick: during the ramp of R49 it moves linearly over 200,000,000 ticks. -/
def State.compNow (s : State) : Int :=
  match s.spn.ramp with
  | none => s.spn.comp
  | some r => r.fromComp + (r.toComp - r.fromComp) * r.ticks / 200000000

/-- The slice of a pending share on one tick: rate in 2^-8 ns/s, the remainder carried (R60). Answers the slice, the share
left and the remainder left. -/
def slewSlice (rate : Nat) (pend : Int) (rem : Nat) : Int × Int × Nat :=
  if pend = 0 then (0, 0, 0)
  else
    let acc := rem + rate * 2 ^ 31
    let q : Int := (acc / 1000000000 : Nat)
    if pend.natAbs ≤ q.natAbs then (pend, 0, 0)
    else if pend > 0 then (q, pend - q, acc % 1000000000)
    else (-q, pend + q, acc % 1000000000)

/-- One tick of an unyoked base: increment `inc`, frequency `f`, of which `comp` is the carrier compensation, host slew rate
(R56, R60). The steering phase takes the adjustment and the slices (R145). Answers the base and its advance. -/
def TBase.tick (b : TBase) (inc : Nat) (f comp : Int) (slew : Nat) : TBase × Int :=
  let r := (b.res : Int) + inc * f
  let q := (b.phaseRes : Int) + inc * (f - comp)
  let h := slewSlice slew b.pendHost b.remHost
  let v := slewSlice b.servoRate b.pendServo b.remServo
  let adv := (inc : Int) + r / 2 ^ 48 + h.1 + v.1
  ({ b with time := (((b.time : Int) + adv) % (timeMod : Int)).toNat
            res := (r % 2 ^ 48).toNat, osc := (b.osc + adv).toNat
            phase := b.phase + q / 2 ^ 48 + h.1 + v.1, phaseRes := (q % 2 ^ 48).toNat
            pendHost := h.2.1, remHost := h.2.2, pendServo := v.2.1, remServo := v.2.2 }, adv)

/-- One tick of a RATIO-type base whose master advances by `adv`, of which `padv` is steering (R68). -/
def TBase.tickRatio (b : TBase) (adv padv ratio : Int) : TBase :=
  let r := (b.res : Int) + adv * ratio
  { b with time := (((b.time : Int) + adv + r / 2 ^ 48) % (timeMod : Int)).toNat, res := (r % 2 ^ 48).toNat
           osc := (b.osc + adv + r / 2 ^ 48).toNat, phase := b.phase + padv + r / 2 ^ 48 }

/-- Advance of unyoked base `n` on the coming tick. -/
def State.advanceOf (s : State) (n : Nat) : TBase × Int :=
  (s.base n).tick (s.lv64 (tbOff n + 0x10)) (satFreq ((s.base n).fnow + s.compNow)) s.compNow (s.lf (tbOff n + 0x38) 23 0)

/-- Base `n` after the coming spine tick (R56, R67, R68). An OFFSET-type base has no value of its own. -/
def State.tickedBase (s : State) (n : Nat) : TBase :=
  if !s.tbPresent n then s.base n
  else if !s.tbYoked n then (s.advanceOf n).1
  else if s.tbRatio n then
    let m := s.advanceOf (s.tbMaster n)
    (s.base n).tickRatio m.2 (m.1.phase - (s.base (s.tbMaster n)).phase) (signedOf 48 (s.lv64 (tbOff n + 0x58) % 2 ^ 48))
  else s.base n

/-- The nominal increment: 500 ps in 2^-40 ns (R57). -/
def nominalInc : Nat := 0x8000000000

/-- The raw spine count at `t` ticks, 2^-40 ns from the spine epoch (R107). -/
def State.rawTime (s : State) (t : Nat) : Nat := (t - s.spn.epoch) * nominalInc

/-- All bases after the coming tick. -/
def State.tickBases (s : State) : State :=
  let q := (s.spn.rawRes : Int) - nominalInc * s.compNow
  { s with spn := { s.spn with
      rawPhase := s.spn.rawPhase + q / 2 ^ 48
      rawRes := (q % 2 ^ 48).toNat
      prev := (List.range 8).map s.tbTime
      bases := (List.range 8).map s.tickedBase
      ticks := s.spn.ticks + 1
      ramp := s.spn.ramp.map (fun r => { r with ticks := if r.ticks < 200000000 then r.ticks + 1 else r.ticks }) } }

/-- The repeated leap second of a base ends when its count passes it (R71). -/
def State.endLeapSec (s : State) (n : Nat) : State :=
  if (s.base n).leapSec && decide ((s.base n).leapSecEnd ≤ s.tbSec n) then s.modBase n (fun b => { b with leapSec := false }) else s

/-! ### Snapshots (R64, R65) -/

/-- Information word of a captured base. -/
def State.snapInfo (s : State) (i : Itf) (n : Nat) : Word :=
  let b := s.base n
  let st := match i with
    | .pcie => b.steppedP
    | .i2c => b.steppedI
  BitVec.ofNat 32 (s.f (0x01401004 + n * 0x100) 31 28 * 2 ^ 28 + (if st then 8 else 0) + (if b.leapSec then 4 else 0)
    + (if b.smearing then 2 else 0) + 1)

/-- One base captured into an interface's bank: the value, the bound and the information word; all-zero words and an
unbounded bound for an absent base (R65). -/
def State.capture (s : State) (i : Itf) (n : Nat) : State :=
  let o := 0x01000100 + n * 0x20
  if s.tbPresent n then
    let w := timeWords (s.tbTime n)
    let s' := ((((s.bankWr i o w.1).bankWr i (o + 4) w.2.1).bankWr i (o + 8) w.2.2).bankWr i (o + 12)
      (s.rd (0x01501000 + n * 0x100))).bankWr i (o + 16) (s.snapInfo i n)
    s'.modBase n (fun b => match i with
      | .pcie => { b with steppedP := false }
      | .i2c => { b with steppedI := false })
  else
    ((((s.bankWr i o 0).bankWr i (o + 4) 0).bankWr i (o + 8) 0).bankWr i (o + 12) 0xFFFFFFFF).bankWr i (o + 16) 0

/-- The capture in progress of an interface. -/
def State.snapOf (s : State) (i : Itf) : Option (Nat × Bool) :=
  match i with
  | .pcie => s.spn.snapP
  | .i2c => s.spn.snapI

/-- The capture in progress of an interface set. -/
def State.setSnap (s : State) (i : Itf) (x : Option (Nat × Bool)) : State :=
  match i with
  | .pcie => s.modSpn (fun p => { p with snapP := x })
  | .i2c => s.modSpn (fun p => { p with snapI := x })

/-- The mask whose capture falls on the running tick of an interface, and the same set. -/
def State.takeOf (s : State) (i : Itf) : Option Nat :=
  match i with
  | .pcie => s.spn.takeP
  | .i2c => s.spn.takeI
def State.setTake (s : State) (i : Itf) (x : Option Nat) : State :=
  match i with
  | .pcie => s.modSpn (fun p => { p with takeP := x })
  | .i2c => s.modSpn (fun p => { p with takeI := x })

/-- The capture tick of a request begins: every base of the mask is captured on it (R64). -/
def State.captureTick (s : State) (i : Itf) : State :=
  match s.snapOf i with
  | some (mask, false) => (s.setSnap i (some (mask, true))).setTake i (some mask)
  | _ => s

/-- The capture tick ends: the values, bounds and information in force on it, after all that went live on it, are captured (R64). -/
def State.captureEnd (s : State) (i : Itf) : State :=
  match s.takeOf i with
  | some mask => ((List.range 8).foldl (fun s n => if mask.testBit n then s.capture i n else s) s).setTake i none
  | none => s

/-- A snapshot request on an interface; while BUSY it is held until the earlier capture completes (R64, R65). -/
def State.snapRequest (s : State) (i : Itf) (mask : Nat) : State :=
  match s.snapOf i with
  | none => (s.setSnap i (some (mask, false)))
  | some _ => s.modSpn (fun p => { p with snapHeld := p.snapHeld ++ [{ itf := i, off := 0x01000020, v := BitVec.ofNat 32 mask }] })

/-- SPN_SNAP_STAT as an interface reads it: SEQ in its bank, BUSY. -/
def State.snapStat (s : State) (i : Itf) : Word :=
  (s.bankRd i 0x01000024).setField 0 0 (if (s.snapOf i).isSome then 1 else 0)

/-- One spine tick: captures of the tick that ends are taken, the bases advance, repeated leap seconds end, and the tick of captures that
wait begins. The model's step on an empty queue (log entry 4). -/
def spineTick (s : State) : State :=
  let s := ((s.captureEnd .pcie).captureEnd .i2c).tickBases
  let s := (List.range 8).foldl State.endLeapSec s
  (s.captureTick .pcie).captureTick .i2c

/-! ### What a jump of a base's count does to its slots and pins -/

/-- Window of PPSk. -/
def ppsOff (k : Nat) : Nat := 0x01702000 + k * 0x40

/-- Window of slot s (SPN_SLOT_CTL). -/
def spnSlot (i : Nat) : Nat := 0x01002000 + i * 0x20

/-- Target of a slot, 2^-40 ns (R63). -/
def State.slotTarget (s : State) (i : Nat) : Nat :=
  timeOfWords (s.rd (spnSlot i + 4)) (s.rd (spnSlot i + 8)) (s.rd (spnSlot i + 0x0C))

/-- Slot record. -/
def State.slot (s : State) (i : Nat) : Slot := s.spn.slots.getD i {}

/-- Slot record changed by `g`. -/
def State.modSlot (s : State) (i : Nat) (g : Slot → Slot) : State :=
  s.modSpn (fun p => { p with slots := listMod p.slots i g })

/-- Time of occurrence k of a slot (R83). -/
def State.slotAt (s : State) (i k : Nat) : Nat := s.slotTarget i + k * (s.rd (spnSlot i + 0x10)).toNat * 2 ^ 40

/-- The first occurrence of a slot at or after `lo`, from occurrence `k` on (R83). -/
def State.slotFrom (s : State) (i k lo : Nat) : Nat :=
  let per := (s.rd (spnSlot i + 0x10)).toNat * 2 ^ 40
  let t := s.slotAt i k
  if per = 0 ∨ lo ≤ t then k else k + (lo - t + per - 1) / per

/-- The count of base `n` passes over the times from `lo` to `hi` in one tick: a slot with occurrences there fires once for them, with
SKIPPED (R71, R83), after those before `lo` that are due. -/
def State.slotPass (s : State) (n lo hi : Nat) : State :=
  (List.range 64).foldl (fun s i =>
    let sl := s.slot i
    let per := (s.rd (spnSlot i + 0x10)).toNat * 2 ^ 40
    let cnt := (s.rd (spnSlot i + 0x18)).toNat
    let k := s.slotFrom i (match sl.skip with
      | some (a, m) => a + m + 1
      | none => sl.occ) lo
    let t := s.slotAt i k
    if sl.armed ∧ s.f (spnSlot i) 26 24 = n ∧ lo ≤ t ∧ t ≤ hi ∧ (per = 0 → k = 0) ∧ (per ≠ 0 → cnt ≠ 0 → k < cnt) then
      let more := if per = 0 then 0 else (hi - t) / per
      let more := if per ≠ 0 ∧ cnt ≠ 0 then min more (cnt - 1 - k) else more
      s.modSlot i (fun x => { x with skip := some (match x.skip with
        | some (a, _) => (a, k + more - a)
        | none => (k, more)) })
    else s) s

/-- The PPS pins of base `n` at an unsmeared leap, whose new count begins at `c` (R71): of an inserted second the edges from `c` on come
again; those of a deleted second, which are before `c`, do not come. A pulse under way, and what waits on a ToD channel of the pin, end
when they would have: the leap is time that runs on. -/
def State.leapPps (s : State) (n c : Nat) (inserted : Bool) : State :=
  let run := fun (t : Nat) => if inserted then t - secU else t + secU
  { s with
    pps := (List.range 4).map (fun k =>
      let p := s.pps.getD k {}
      if s.f (ppsOff k + 4) 10 8 = n then
        { p with last := p.last.map (fun t => if inserted then min t (c - 1) else max t (c - 1)), ends := run p.ends }
      else p)
    tod := (List.range 2).map (fun k =>
      let t := s.tod.getD k {}
      if s.f (ppsOff (s.f (0x01703004 + k * 0x40) 2 1) + 4) 10 8 = n then
        { t with ends := run t.ends, trig := t.trig.map (fun g => { g with from_ := run g.from_ }) }
      else t) }

/-- Window of SYNk. -/
def synOff (k : Nat) : Nat := 0x01601000 + k * 0x100

/-- Window of OUTk. -/
def outOff (k : Nat) : Nat := 0x01701000 + k * 0x40

/-- Record of SYNk. -/
def State.syn (s : State) (k : Nat) : Syn := s.syns.getD k {}

/-- Time base of SYNk. -/
def State.synTb (s : State) (k : Nat) : Nat := s.f (synOff k + 4) 10 8

/-- Base times kept for the synthesizers of base `n` and their outputs follow the base over a jump of its count by `d`, 2^-40 ns: the signal
itself does not jump. -/
def State.synShift (s : State) (n : Nat) (d : Int) : State :=
  { s with
    syns := (List.range 4).map (fun k =>
      let y := s.syn k
      if s.synTb k = n then
        { y with ramp := y.ramp.map (fun r => { r with start := r.start + d }), alignFrom := y.alignFrom + d, moveFrom := y.moveFrom + d }
      else y)
    outs := (List.range 12).map (fun j =>
      let ws := s.outs.getD j []
      if s.f (outOff j + 4) 10 8 = n then
        ws.map (fun w => { w with from_ := w.from_ + d, edge := w.edge.map (· + d), org := if w.kind = .own then w.org + d else w.org })
      else ws) }

/-- The smear window of a scheduled leap opens, if the master has reached its start (R72). -/
def State.smearOpen (s : State) (n : Nat) : State :=
  if s.smearWaits n && decide (s.smearStart2 n * (secU / 2) ≤ s.tbTime (s.tbMaster n)) then
    s.modBase n (fun b => { b with smearing := true, leapDone := false, winStart := s.smearStart2 n })
  else s

/-- SMEAR_WINDOW_START (R72): the window of a scheduled leap opens; the progress begins at 0. It opens only on an
OFFSET-type base with a leap scheduled and SMEAR.EN in force, once the master has reached its start. -/
def execSmearWindowStart (n : Fin 8) (s : State) : Out := .next (s.smearOpen n)

/-- SMEAR_WINDOW_END (R72): the window closes, SMEARING clears and DIR in force returns to 0: R71 says that of a leap without smear; that
DIR stays in force until the window ends is a DESIGN CHOICE (log entry 52). -/
def execSmearWindowEnd (n : Fin 8) (s : State) : Out :=
  if (s.base n).smearing && (s.base n).leapDone
      && decide ((s.base n).winStart * (secU / 2) + s.smearW n * secU ≤ s.tbTime (s.tbMaster n)) then
    let o := tbOff n + 0x60
    .next ((s.setLv o ((s.lv o).setField 17 16 0)).modBase n (fun b => { b with smearing := false, leapDone := false }))
  else .next s

end Sys2Proof.Machine
end

