-- ==== Sys2Proof/Machine/Tiu.lean ====
section
/-! DEFINITION. The interval units (03 R97-R114): event times, samples, blocks and results, abandoning a block. -/
namespace Sys2Proof.Machine

/-! ### Units -/

/-- Window of an interval unit (TIU_Pk_CTL, TIU_Lm_CTL). -/
def tiuOff : TiuId → Nat
  | .p k => 0x01201000 + k.val * 0x80
  | .lane m => 0x01203000 + m.val * 0x80

/-- The unit's internal state. -/
def State.unit (s : State) : TiuId → TiuUnit
  | .p k => s.tiuP.getD k.val {}
  | .lane m => s.tiuL.getD m.val {}

/-- The unit's internal state changed by `g`. -/
def State.modUnit (s : State) (u : TiuId) (g : TiuUnit → TiuUnit) : State :=
  match u with
  | .p k => { s with tiuP := listMod s.tiuP k.val g }
  | .lane m => { s with tiuL := listMod s.tiuL m.val g }

/-- Index of a source among the activity monitors. -/
def edgeIdx : EdgeSrc → Nat
  | .refin n => n.val | .lo m => 8 + m.val | .vanePps => 12 | .peerPps => 13 | .peer10M => 14

/-- Code of a source in TIU_Pk_SRC. -/
def edgeCode : EdgeSrc → Nat
  | .refin n => n.val | .vanePps => 8 | .peerPps => 9 | .peer10M => 10 | .lo m => 11 + m.val

/-- The source of TIU_Pk_SRC's code; 0xF is unrouted. -/
def edgeOfCode (c : Nat) : Option EdgeSrc :=
  if h : c < 8 then some (.refin ⟨c, h⟩)
  else if c = 8 then some .vanePps
  else if c = 9 then some .peerPps
  else if c = 10 then some .peer10M
  else if h : c - 11 < 4 then some (.lo ⟨c - 11, h⟩)
  else none

/-- The source a TIU-P is routed to (R28): TIU-P8 to TIU-P11 measure LO0 to LO3, the others what TIU_Pk_SRC says. -/
def State.unitSrc (s : State) (k : Fin 12) : Option EdgeSrc :=
  if h : 8 ≤ k.val then some (.lo ⟨k.val - 8, by omega⟩)
  else if s.b 0x01200000 k then edgeOfCode (s.f (tiuOff (.p k) + 4) 3 0) else none

/-- The TIU-P routed to a source, if one is. -/
def State.routedUnit (s : State) (x : EdgeSrc) : Option (Fin 12) :=
  (List.finRange 12).find? (fun k => s.unitSrc k = some x)

/-- Nominal divided event frequency of a source in Hz (R87, R91, R92). -/
def State.fDiv (s : State) : EdgeSrc → Nat
  | .refin n => let d := s.f (0x01101008 + n.val * 0x40) 23 0; if d = 0 then 0 else s.f (0x01101004 + n.val * 0x40) 29 0 / d
  | .lo _ => 1000
  | .vanePps => 1
  | .peerPps => 1
  | .peer10M => 1000000

/-- Nominal event frequency of a unit. -/
def State.unitFreq (s : State) : TiuId → Nat
  | .p k => match s.unitSrc k with
    | some x => s.fDiv x
    | none => 0
  | .lane _ => 1000

/-- Compensation delay of a source, 2^-16 ns (R90, R91). -/
def State.srcDelay (s : State) : EdgeSrc → Int
  | .refin n => signedOf 32 (s.rd (0x0110100C + n.val * 0x40)).toNat
  | .lo _ => 0
  | .vanePps => signedOf 32 (s.rd 0x01800038).toNat
  | .peerPps => signedOf 32 (s.rd 0x02500048).toNat
  | .peer10M => signedOf 32 (s.rd 0x0250004C).toNat

/-- Whether a source is failed: LOS, GROSS or, for an LO, its alarm (R89, R94). -/
def State.srcFailed (s : State) : EdgeSrc → Bool
  | .refin n => s.b (0x01101010 + n.val * 0x40) 1 || s.b (0x01101010 + n.val * 0x40) 2
  | .lo m => let o := 0x01102008 + m.val * 0x40; s.b o 1 || s.b o 2 || s.b o 4
  | x => let mo := s.monitors.getD (edgeIdx x) {}; mo.los || mo.gross

/-- Grid base of a unit (R107). -/
def State.gridBase (s : State) (u : TiuId) : Nat := s.f (tiuOff u) 18 16

/-- The stop selection in force (R107): TIU-P8 to TIU-P11 and the lane units measure against the raw spine grid. -/
def State.stopSel (s : State) : TiuId → Nat
  | .p k => if 8 ≤ k.val then 1 else s.f (tiuOff (.p k)) 29 28
  | .lane _ => 1

/-- UNWRAP in force (R108). -/
def State.unwraps (s : State) : TiuId → Bool
  | .p k => if 8 ≤ k.val then true else s.b (tiuOff (.p k)) 30
  | .lane _ => true

/-- SYS of a unit, 2^-8 ns (R104, the performance tables of TIU-P and lane units): 20 ps for an input pin, 12 ps for an internal
source, 8 ps for a lane unit, rounded up (log entry 17). The table names REFIN paths and internal sources; that an LO, which also comes in
by a pin, takes the 20 ps of a REFIN path is the model's choice (log entry 43). -/
def State.unitSys (s : State) : TiuId → Nat
  | .p k => match s.unitSrc k with
    | some (.refin _) | some (.lo _) => 6
    | some _ => 4
    | none => 0
  | .lane _ => 3

/-- ALIGN_MODE in force of PPSk. -/
def State.alignMode (s : State) (k : Nat) : Nat := s.lf (ppsOff k) 29 28

/-- The alignment source of a PPS pin fails or abandons (R200): the pin keeps its OFS, what a TRACK alignment still owes is dropped, ALIGN_LOST
sets, OUT/ALIGN_LOST is raised once. -/
def State.alignLost (s : State) (u : Nat) : State :=
  (List.range 4).foldl (fun s k =>
    if s.b 0x01700000 (24 + k) ∧ s.alignMode k ≠ 0 ∧ s.lf (ppsOff k) 26 24 = u ∧ !s.b (ppsOff k + 4) 2 then
      let s : State := { s with pps := listMod s.pps k (fun p => { p with track := 0 }) }
      ((s.setB (ppsOff k + 4) 2 true).raise Flt.outAlignLost (k + u * 16)).irq .out 3
    else s) s

/-! ### Abandoning a block (R111) -/

/-- A block is abandoned: no result, STAT.ABANDON set, TIU/ABANDON raised with the cause (1 configuration, 2 source failure,
3 step, 4 calibration failure); the unwrap state is reset (R108). Nothing happens to a unit with no running block, but its
unwrap state is reset. An event whose conversion still runs makes no sample of the next block either, which the spec does not say (DESIGN
CHOICE, log entry 54). -/
def State.abandon (s : State) (u : TiuId) (cause : Nat) : State :=
  let run := (s.unit u).blockN ≠ 0
  let s := s.modUnit u (fun t => { t with blockN := 0, cnt := 0, prev := none, restart := true, converting := [], noPair := 0 })
  if run then
    let s := (s.setB (tiuOff u + 8) 3 true).setB (tiuOff u + 8) 0 false
    match u with
    | .p k => (s.raise Flt.tiuAbandon (k.val + cause * 16)).alignLost k.val
    | .lane m => s.raise Flt.laneUnitAbandon (m.val + cause * 32)
  else s

/-- The source of a unit fails: its block is abandoned and SRC_FAIL set (R111, R114). -/
def State.unitSrcFail (s : State) (u : TiuId) : State :=
  let s := (s.abandon u 2).setB (tiuOff u + 8) 1 true
  match u with
  | .p k => s.alignLost k.val
  | .lane _ => s

/-- A step of base `n` abandons the block of every unit on its grid (R111); the raw spine grid takes no account of steps
(R107). -/
def State.abandonGrid (s : State) (n : Nat) : State :=
  (List.finRange 12).foldl (fun s k =>
    if s.gridBase (.p k) = n ∧ s.stopSel (.p k) ≠ 1 ∧ s.b 0x01200000 k then s.abandon (.p k) 3 else s) s

/-! ### Samples and results -/

/-- The integer square root, by bits: the largest r below 2^n with r^2 at most v. -/
def isqrtFrom : Nat → Nat → Nat → Nat
  | 0, _, r => r
  | n + 1, v, r => isqrtFrom n v (if (r + 2 ^ n) * (r + 2 ^ n) ≤ v then r + 2 ^ n else r)

/-- The integer square root of a number below 2^256. -/
def isqrt (v : Nat) : Nat := isqrtFrom 128 v 0

/-- One second in 2^-16 ns. -/
def sec16 : Nat := 1000000000 * 65536

/-- Grid point `j` of a grid of `f` points per second, counted from second 0 of the base: exact, truncated to 2^-16 ns (R107). -/
def gridPoint (j : Int) (f : Nat) : Int := j * sec16 / f

/-- The grid point that places event time `e` in [-P/2, +P/2) (R107). -/
def gridIndex (e : Int) (f : Nat) : Int :=
  let k := e * f / sec16
  if 2 * (e - gridPoint k f) * f < sec16 then k else k + 1

/-- The sample of event time `e` against a grid of `f` points per second, in [-P/2, +P/2) (R107); times in 2^-16 ns. -/
def gridSample (e : Int) (f : Nat) : Int := e - gridPoint (gridIndex e f) f

/-- The sample of `e` moved by the whole multiple of P that places it within P/2 of the previous one: taken against the grid point
of its own edge (R108). -/
def unwrapSample (e prev : Int) (f : Nat) : Int :=
  let m := ((prev - gridSample e f) * f * 2 + sec16) / (2 * sec16)
  e - gridPoint (gridIndex e f - m) f

/-- A sample moved by the whole multiple of P that places it within P/2 of the previous one (R108), where no grid point is its own:
STOP_SEL = OTHER. -/
def unwrapOther (x prev : Int) (f : Nat) : Int := x + gridPoint (((prev - x) * f * 2 + sec16) / (2 * sec16)) f

/-- The event time of a conversion (R97): T(t2) - (CAL_OFS + CAL_GAIN x code) - DLY, exact, truncated to 2^-16 ns toward the
earlier time. `t` is in 2^-40 ns, `dly` in 2^-16 ns; the coefficients are those of the last run at full precision (R100):
gain 500 ps over the difference of the mean codes, offset 500 ps less gain times the first mean. `code8` is the corrected code in 1/256 code
(R99), the sums are of 256 such codes. -/
def eventTime (t : Int) (dly : Int) (s500 s1000 : Nat) (code8 : Int) : Int :=
  let den : Int := (s1000 : Int) - s500
  if den ≤ 0 then (t - dly * 2 ^ 24) / 2 ^ 24
  else ((t - dly * 2 ^ 24) * den - 2 ^ 39 * (den + 256 * code8 - s500)) / (den * 2 ^ 24)

/-- A code of the converter with the correction of its segment of 64 codes, 1/256 code (R99). -/
def TiuUnit.corrected (t : TiuUnit) (code : Nat) : Int := 256 * (code : Int) + t.nl.getD (code / 64) 0

/-- The phase of base n against the ensemble time scale (R145); of a yoked OFFSET base, its master's. -/
def State.basePhase (s : State) (n : Nat) : Int := (s.base (if s.tbOffsetYoked n then s.tbMaster n else n)).phase

/-- The phase of a unit's grid against the ensemble time scale (R145): its grid base's, a yoked OFFSET base's master's, or the
raw spine count's. -/
def State.gridPhase (s : State) (u : TiuId) : Int :=
  if s.stopSel u = 1 then s.spn.rawPhase
  else s.basePhase (s.gridBase u)

/-- What a frame's event latches of the bases on this tick, for a port on base n. -/
def State.latchBase (s : State) (n : Nat) : Capture :=
  { times := (List.range 8).map s.tbTime, ticks := s.spn.ticks, phase := s.basePhase n }

/-- What the stop edge of an event latches on this tick (R97, R107). -/
def State.latch (s : State) (u : TiuId) : Capture :=
  { times := (List.range 8).map s.tbTime, ticks := s.spn.ticks, phase := s.gridPhase u }

/-- Differences of the eight bases from a unit's grid at a capture, 2^-40 ns (R107); none for STOP_SEL = OTHER. -/
def State.gridDiffs (s : State) (u : TiuId) (c : Capture) : List Int :=
  let g : Int := if s.stopSel u = 1 then (s.rawTime c.ticks : Int) else (c.times.getD (s.gridBase u) 0 : Int)
  c.times.map (fun (t : Nat) => if s.stopSel u = 2 then 0 else (t : Int) - g)

/-- A result set in the register window of a unit (R110, R112): sequence and N, mean, deviation, extremes, time, information.
The result is the unit's latest; consumers read it there. -/
def State.blockResult (s : State) (u : TiuId) : State :=
  let t := s.unit u
  let n := t.cnt
  let o := tiuOff u
  let mean := t.sum / n
  let var : Nat := ((n : Int) * t.sumSq - t.sum * t.sum).toNat
  let sd := satAt 0xFFFFFFFF (isqrt var / n)
  let e := (t.lastE.getD []).getD (s.gridBase u) 0
  let time := (e * 2 ^ 24 % (timeMod : Int)).toNat
  let w := timeWords time
  let seq := s.f (o + 0x10) 31 16 + 1
  let s := s.wrN (o + 0x10) (seq % 2 ^ 16 * 2 ^ 16 + n % 2 ^ 16)
  let s := ((s.wrS64 (o + 0x14) mean).wrN (o + 0x1C) sd).wrS64 (o + 0x20) t.minS
  let s := (((s.wrS64 (o + 0x28) t.maxS).wr (o + 0x30) w.1).wr (o + 0x34) w.2.1).wr (o + 0x38) w.2.2
  let s := s.wrN (o + 0x3C) (satAt 0xFFFF t.noPair * 2 ^ 16 + (if t.restart then 2 else 0) + 1)
  let s := (s.count (o + 8) 31 16 1).setB (o + 8) 0 false
  let s := s.modUnit u (fun t => { t with
    blockN := 0, cnt := 0, restart := false, noPair := 0, resMean := mean, resEs := t.lastE.getD [], resCap := t.lastCap
    resIn := t.dsum.map (fun d => (t.sum * 2 ^ 24 + d) / (n * 2 ^ 24)), resRestart := t.restart, results := t.results + 1 })
  match u with
  | .p k => s.irq .tiu k.val
  | .lane m => s.irq .tiu (12 + m.val)

/-- A converted sample enters the block; the first one starts it with the N in force (R110, R111). -/
def State.addSample (s : State) (u : TiuId) (x : Int) (es : List Int) (c : Capture) : State :=
  let t := s.unit u
  let first := t.blockN = 0
  let n := if first then s.f (tiuOff u) 15 0 else t.blockN
  let d := s.gridDiffs u c
  let s := s.modUnit u (fun t => { t with
    blockN := n, cnt := (if first then 0 else t.cnt) + 1
    sum := (if first then 0 else t.sum) + x, sumSq := (if first then 0 else t.sumSq) + x.natAbs * x.natAbs
    minS := if first then x else if x < t.minS then x else t.minS
    maxS := if first then x else if x > t.maxS then x else t.maxS
    dsum := if first then d else List.zipWith (· + ·) t.dsum d
    prev := some x, lastE := some es, lastCap := c })
  let s := s.setB (tiuOff u + 8) 0 true
  if n ≤ (s.unit u).cnt then s.blockResult u else s

/-- An event forms no sample: its time is kept for other units (R109). -/
def State.noSample (s : State) (u : TiuId) (es : List Int) (c : Capture) : State :=
  s.modUnit u (fun t => { t with noPair := t.noPair + 1, lastE := some es, lastCap := c })

/-- An event becomes a sample of its unit (R107-R109). `es` are its times in the eight bases, `raw` its time in the raw spine
count. -/
def State.sampleEvent (s : State) (u : TiuId) (es : List Int) (raw : Int) (c : Capture) : State :=
  let f := s.unitFreq u
  let sel := s.stopSel u
  let e := es.getD (s.gridBase u) 0
  if f = 0 then s
  else if sel = 2 then
    match u with
    | .lane _ => s
    | .p k =>
      match (s.tiuP.getD (s.f (tiuOff (.p k)) 27 24) {}).lastE with
      | some eo =>
        let x := e - eo.getD (s.gridBase u) 0
        if 2 * x.natAbs * f ≤ sec16 then
          s.addSample u (match s.unwraps u, (s.unit u).prev with
            | true, some p => unwrapOther x p f
            | _, _ => x) es c
        else s.noSample u es c
      | none => s.noSample u es c
  else
    let e := if sel = 1 then raw else e
    let x := if s.unwraps u then (match (s.unit u).prev with
        | some p => unwrapSample e p f
        | none => gridSample e f) else gridSample e f
    s.addSample u x es c

end Sys2Proof.Machine
end

