-- ==== Sys2Proof/Machine/Health.lean ====
section
/-! DEFINITION. The health word of the tandem unit (14 R374): its tests and the fall of its bits. The bits rise at a TB0 second
(Tandem.lean). -/
namespace Sys2Proof.Machine

/-- Window of TODk. -/
def todOff (k : Nat) : Nat := 0x01703000 + k * 0x40

/-- Synthesizer states (SYN_k_STAT.STATE). -/
def synOFF : Nat := 0
def synSEARCH : Nat := 1
def synLOCKING : Nat := 2
def synALIGN : Nat := 3
def synRUN : Nat := 4
def synRAMP : Nat := 5
def synREALIGN : Nat := 6
def synFAIL : Nat := 7

/-- State of SYNk. -/
def State.synState (s : State) (k : Nat) : Nat := s.f (synOff k + 4) 31 28

/-- Whether domain `d` is on (PWR_DOM_STAT.ON). -/
def State.domOn (s : State) (d : Nat) : Bool := s.b 0x00100014 d

/-- The tandem base (TND_CTL.TB). -/
def State.tandemTb (s : State) : Nat := s.f 0x02500010 18 16

/-- The link is PAIRED (TND_LINK_STAT.STATE). -/
def State.paired (s : State) : Bool := decide (s.f 0x02500018 31 28 = 4)

/-- Whether a pair of shared members disagrees (R374, ENS_OK): both TRAINED in both units, and the frequency between them differs by
more than TND_ENS_TOL between the two models (2^-48; the own model is kept in 2^-64). -/
def State.ensPairBad (s : State) (a b : Nat) : Bool :=
  let st := fun (m : Nat) => s.f (0x01400104 + m * 0x40) 3 0
  let own := fun (m : Nat) => (s.ens.members.getD m {}).y / 2 ^ 16
  let peer := fun (m : Nat) => s.tnd.peers.getD m {}
  s.b 0x02500010 (12 + a) && s.b 0x02500010 (12 + b) && decide (st a = 3) && decide (st b = 3)
    && decide ((peer a).st = 3) && decide ((peer b).st = 3)
    && decide ((s.rd 0x02500058).toNat < ((own a - own b) - ((peer a).y - (peer b).y)).natAbs)

/-- Reset window of a block by its fence bit, in spine ticks (15, block reset dependencies). -/
def resetWindow (bit : Nat) : Nat :=
  match bit with
  | 7 => 100000
  | 8 => 400000000
  | 12 => 10000000
  | 14 => 200000000
  | 15 => 4000000
  | 16 => 40000
  | 17 => 100000
  | 18 => 800000000
  | 20 => 2000000
  | _ => 20000

/-- Whether the test of a health bit passes (R374). SPARE_OK cannot run for lack of a peer, and passes, while the link is not
PAIRED (log entry 10). -/
def State.healthTest (s : State) (bit : Nat) : Bool :=
  let tb := s.tandemTb
  match bit with
  | 15 =>
    let m := if s.tbYoked tb then s.tbMaster tb else tb
    let st := s.f (0x01401004 + m * 0x100) 31 28
    decide (3 ≤ st ∧ st ≤ 5) && decide ((s.rd (0x01501000 + tb * 0x100)).toNat ≠ 0xFFFFFFFF)
  | 14 =>
    (List.range 12).all (fun j => !s.b 0x02500000 j ||
      (let st := s.synState (s.f (outOff j + 4) 5 4); decide (4 ≤ st ∧ st ≤ 6)))
    && (List.range 4).all (fun k => !s.b 0x02500000 (20 + k) || s.lb (ppsOff k) 31)
    && (List.range 2).all (fun k => !s.b 0x02500000 (24 + k) || s.lb (todOff k) 31)
  | 13 => s.b 0x02400010 3
  | 12 => !s.tnd.katBad
  | 11 => !s.tnd.xchkBad
  | 10 => !s.paired || !(List.range 4).any (fun a => (List.range a).any (fun b => s.ensPairBad a b))
  | 9 => !s.b 0x00100000 6 || (s.b 0x02300014 31 && !s.cst.lastUe)
  | 8 => !s.paired || s.b 0x02500018 25
  | _ => true

/-- BOUND_SCORE (R374). -/
def State.boundScore (s : State) : Nat :=
  let p := (s.rd (0x01501000 + s.tandemTb * 0x100)).toNat
  if p = 0xFFFFFFFF then 0
  else
    let p' := if s.f 0x02500014 31 30 = 2 then p - (s.rd 0x02500040).toNat else p
    255 - min 255 ((p' + 2047) / 2048)

/-- A health bit falls in the round in which its test fails, with TND/SELFTEST_FAIL; the failure is kept for the second
(R374). -/
def State.healthBit (s : State) (bit : Nat) : State :=
  if s.healthTest bit then s
  else
    let s := { s with tnd := { s.tnd with failed := s.tnd.failed ||| 2 ^ bit } }
    if s.b 0x02500014 bit then ((s.setB 0x02500014 bit false).raise Flt.tndSelftestFail bit).irq .tnd 3 else s

/-- The health word in a round in which something it tests may have changed (R374); nothing while PD9 is off. -/
def State.healthFall (s : State) : State :=
  if s.domOn 9 then
    ([15, 14, 13, 12, 11, 10, 9, 8].foldl State.healthBit s).setF 0x02500014 7 0 s.boundScore
  else s

end Sys2Proof.Machine
end

