-- ==== Sys2Proof/Machine/Gate.lean ====
section
/-! DEFINITION. Where a host access goes: registers that are absent (01 R33, 19 R462), accesses before RUN (17 R430), writes that
a fence holds (01 R42, R46). -/
namespace Sys2Proof.Machine

/-- The part is in phase RUN (CFG_STAT.PHASE, R428). -/
def State.running (s : State) : Bool := decide (s.f 0x00000010 31 28 = 9)

/-- Instance number of a window offset in a range of instances, if it lies there. -/
def instOf (o base stride n : Nat) : Option Nat :=
  if base ≤ o ∧ o < base + stride * n then some ((o - base) / stride) else none

/-- Whether an instance in the range fails a test. -/
def instFails (o base stride n : Nat) (ok : Nat → Bool) : Bool :=
  match instOf o base stride n with
  | some i => !ok i
  | none => false

/-- Whether the register at a BAR0 offset is absent: its element is not in the structure (R33) or its domain is off (R462). CAP,
IRQ_STAT and IRQ_EN of every block are always there. -/
def State.absent (s : State) (a : Nat) : Bool :=
  match Blk.ofOff a with
  | none => false
  | some b =>
    let o := a - b.base
    if o = 0 ∨ a = b.irqOff ∨ a = b.irqOff + 4 then false
    else match b with
      | .spn => instFails o 0x1000 0x100 8 s.tbPresent
      | .ref => instFails o 0x1000 0x40 8 (fun n => s.domOn 2 &&
            (List.range 12).any (fun k => s.b 0x01200000 k && decide (k < 8) && decide (s.f (0x01201004 + k * 0x80) 3 0 = n)))
          || instFails o 0x2000 0x40 4 (fun m => s.b 0x01100000 (8 + m))
      | .tiu => instFails o 0x1000 0x80 12 (fun k => s.b 0x01200000 k && (decide (8 ≤ k) || s.domOn 2))
          || instFails o 0x3000 0x80 18 (fun m => s.b 0x02000000 m && s.domOn (if m < 16 then 7 else 9))
      | .sel => instFails o 0x1000 0x80 30 (fun c => s.b 0x01300000 c) || instFails o 0x3000 0x40 8 s.tbPresent
      | .ens => instFails o 0x0100 0x40 4 (fun m => s.b 0x01400000 m) || instFails o 0x1000 0x100 8 s.tbPresent
      | .bnd => instFails o 0x1000 0x100 8 s.tbPresent
      | .syn => !s.domOn 3
      | .out => !s.domOn 3 || instFails o 0x1000 0x40 12 (fun k => s.b 0x01700000 k)
          || instFails o 0x2000 0x40 4 (fun k => s.b 0x01700000 (24 + k)) || instFails o 0x3000 0x40 2 (fun k => s.b 0x01700000 (28 + k))
      | .gns => !s.domOn 8 || instFails o 0x0100 0x20 2 (fun k => s.b 0x01800000 k)
      | .lan => instFails o 0x1000 0x100 18 (fun m => s.b 0x02000000 m && s.domOn (if m < 16 then 7 else 9))
      | .mac => !s.domOn 7 || instFails o 0x1000 0x400 16 (fun p => s.b 0x02100000 p)
      | .pkt => !s.domOn 5 || instFails o 0x1000 0x80 16 (fun p => s.b 0x02200000 p)
          || instFails o 0x4000 0x100 4 (fun k => s.b 0x02200000 (16 + k))
      | .tnd => !s.domOn 9
      | _ => false

/-- An access to an absent register (R33): CFG/ABSENT with its offset. -/
def State.absentHit (s : State) (a : Nat) : State := (s.raise Flt.cfgAbsent a).irq .cfg 3

/-- The open fence of an interface, and its accesses that wait. -/
def State.fence (s : State) (i : Itf) : Option Fence := match i with
  | .pcie => s.fenceP
  | .i2c => s.fenceI
def State.heldBy (s : State) (i : Itf) : List HeldWrite := match i with
  | .pcie => s.heldP
  | .i2c => s.heldI

/-- An access waits, behind those of its interface that wait already. -/
def State.hold (s : State) (h : HeldWrite) : State :=
  let h := { h with fenced := (s.fence h.itf).isSome }
  match h.itf with
  | .pcie => { s with heldP := s.heldP ++ [h] }
  | .i2c => { s with heldI := s.heldI ++ [h] }

/-- Whether a mask names the block of an offset. -/
def masks (mask a : Nat) : Bool :=
  match Blk.ofOff a with
  | some b => mask.testBit b.bit
  | none => false

/-- A BAR0 offset in the block that an access belongs to: a BAR2 write belongs to CST (R331). -/
def HeldWrite.at_ (h : HeldWrite) : Nat := if h.bar2.isSome then 0x02300000 else h.off

/-- A write to CFG_FENCE. -/
def HeldWrite.isFence (h : HeldWrite) : Bool := !h.read && h.bar2.isNone && decide (h.off = 0x100)

/-- A write of an interface issued now waits for a fence (R42, R46): one of its fences, open or itself held, names the block, or
it is a fence and one is open. -/
def State.fenceHolds (s : State) (i : Itf) (a : Nat) : Bool :=
  match s.fence i with
  | none => false
  | some f => decide (a = 0x100) || masks f.mask a || (s.heldBy i).any (fun h => h.isFence && masks (h.v.field 20 0) a)

/-! ### Domains (R35, R447, R448) -/

/-- Domains that a domain needs beyond PD0, PD1 and PD4 (01, power domains). -/
def domNeeds (d : Nat) : List Nat := if d = 5 then [6, 7] else if d = 8 then [2] else if d = 9 then [2, 3] else []

/-- A set of domains, as bits, leaves no domain on without one that it needs (R35). -/
def domClosed (t : Nat) : Bool := (List.range 10).all (fun d => !t.testBit d || (domNeeds d).all t.testBit)

/-- Orders of switching off and on (R447). -/
def offOrder : List Nat := [9, 8, 5, 7, 6, 3, 2]
def onOrder : List Nat := [2, 3, 6, 7, 5, 8, 9]

/-- A request is in progress, and its target. -/
def State.domBusy (s : State) : Bool := s.b 0x00100014 31
def State.domTarget (s : State) : Nat := s.f 0x00100010 9 0

/-- The domain that the request in progress switches next (R447). -/
def State.domNext (s : State) : Option Nat :=
  match offOrder.find? (fun d => s.domOn d && !(s.domTarget).testBit d) with
  | some d => some d
  | none => onOrder.find? (fun d => !s.domOn d && (s.domTarget).testBit d)

/-- The domain whose state decides whether the register at `a` is there (R462). -/
def regDomain (a : Nat) : Option Nat :=
  match Blk.ofOff a with
  | none => none
  | some b =>
    let o := a - b.base
    let lane := fun (base stride : Nat) => match instOf o base stride 18 with
      | some m => some (if m < 16 then 7 else 9)
      | none => none
    if o = 0 ∨ a = b.irqOff ∨ a = b.irqOff + 4 then none
    else match b with
      | .ref => if (instOf o 0x1000 0x40 8).isSome then some 2 else none
      | .tiu => if (instOf o 0x1000 0x80 8).isSome then some 2 else lane 0x3000 0x80
      | .syn | .out => some 3
      | .gns => some 8
      | .lan => lane 0x1000 0x100
      | .mac => some 7
      | .pkt => some 5
      | .tnd => some 9
      | _ => none

/-- A host access to `a` waits because its domain is ramping (R448). -/
def State.ramping (s : State) (a : Nat) : Bool := s.domBusy && (s.domNext).isSome && decide (regDomain a = s.domNext)

/-! ### Accesses that wait (R41, R75) -/

/-- The SH bits of the register at `a`. -/
def shMask (a : Nat) : Word :=
  match findReg a with
  | some d => BitVec.ofNat 32 d.sh
  | none => 0

/-! ### Shadowed channels (R74-R79) -/

/-- Index of a channel's commit machine. -/
def chanIdx : Chan → Nat
  | .tb n => n.val | .servo n => 8 + n.val | .bnd n => 16 + n.val | .syn k => 24 + k.val
  | .out k => 28 + k.val | .pps k => 40 + k.val | .tod k => 44 + k.val

/-- Every shadowed channel, in the order of `chanIdx`. -/
def allChans : List Chan :=
  (List.finRange 8).map .tb ++ (List.finRange 8).map .servo ++ (List.finRange 8).map .bnd ++ (List.finRange 4).map .syn
    ++ (List.finRange 12).map .out ++ (List.finRange 4).map .pps ++ (List.finRange 2).map .tod

/-- Window of a channel, and its length. -/
def chanOff : Chan → Nat
  | .tb n => tbOff n.val | .servo n => 0x01401000 + n.val * 0x100 | .bnd n => 0x01501000 + n.val * 0x100
  | .syn k => synOff k.val | .out k => outOff k.val | .pps k => ppsOff k.val | .tod k => todOff k.val
def chanLen : Chan → Nat
  | .out _ | .pps _ | .tod _ => 0x40
  | _ => 0x100

/-- The commit machine of a channel, and the machine changed by `g`. -/
def State.chan (s : State) (ch : Chan) : CommitChan := s.chans.getD (chanIdx ch) {}
def State.modChan (s : State) (ch : Chan) (g : CommitChan → CommitChan) : State :=
  { s with chans := listMod s.chans (chanIdx ch) g }

/-- The outputs mapped to SYNk (SYN_k_OUTMAP). -/
def State.mapped (s : State) (k : Nat) : List Nat := (List.range 12).filter (fun j => s.b (synOff k + 0x18) j)

/-- Whether an offset lies in a channel's shadows; a synthesizer's take in those of its mapped outputs (R194). -/
def State.inChan (s : State) (ch : Chan) (a : Nat) : Bool :=
  (decide (chanOff ch ≤ a) && decide (a < chanOff ch + chanLen ch)) ||
    (match ch with
    | .syn k => (s.mapped k.val).any (fun j => decide (outOff j ≤ a) && decide (a < outOff j + 0x40))
    | _ => false)

/-- The channel whose copy holds a shadow write at `a` (R75). -/
def State.copying (s : State) (a : Nat) : Option Chan :=
  allChans.find? (fun ch => (s.chan ch).staging.isSome && s.inChan ch a)

/-- The channel whose copy holds a write at `a`: to one of its shadows, or to its COMMIT (R75). -/
def State.joins (s : State) (a : Nat) : Option Chan :=
  match allChans.find? (fun ch => decide (chanOff ch + 8 = a) && (s.chan ch).staging.isSome) with
  | some ch => some ch
  | none => if shMask a = 0 then none else s.copying a

/-- Two offsets lie in one block. -/
def sameBlk (a b : Nat) : Bool := decide (Blk.ofOff a = Blk.ofOff b)

/-- An access of the I²C sideband is held beyond the queue of its interface: the clock is stretched and no later one arrives (R398). -/
def State.i2cStretch (s : State) : Bool :=
  let m := fun (h : HeldWrite) => decide (h.itf = .i2c)
  s.chans.any (fun c => c.held.any m) || s.spn.snapHeld.any m || s.spn.snapRd.any (fun r => decide (r.1 = .i2c)) || s.pwr.reqs.any m
    || s.pwr.waits.any (fun w => decide (w.1 = .i2c))

/-- A KEY_CMD write while a KEY command runs is held until it ends (R344). -/
def State.keyBusy (s : State) (a : Nat) (write : Bool) : Bool := s.keys.cmd.isSome && write && decide (a = 0x02400100)

/-- An earlier access of the interface to the block of `a` is held by the handshake, and not where an access to `a` would queue behind it
(R41): by a commit copy (R75), a snapshot (R65), a domain request or a domain that ramps (R448); or a KEY command runs (R344), or the
sideband's clock is stretched (R398). -/
def State.heldElse (s : State) (i : Itf) (a : Nat) (write : Bool) : Bool :=
  (decide (i = .i2c) && s.i2cStretch) || s.keyBusy a write
    || allChans.any (fun ch => (s.chan ch).held.any (fun h => decide (h.itf = i) && sameBlk h.off a)
      && !(write && decide (s.joins a = some ch)))
    || (s.spn.snapHeld.any (fun h => decide (h.itf = i)) && sameBlk 0x01000020 a && !(write && decide (a = 0x01000020)))
    || (s.spn.snapRd.any (fun r => decide (r.1 = i)) && sameBlk 0x01000100 a
      && !(!write && decide (0x01000100 ≤ a ∧ a < 0x01000200)))
    || (s.pwr.reqs.any (fun h => decide (h.itf = i)) && sameBlk 0x00100010 a && !(write && decide (a = 0x00100010)))
    || (s.pwr.waits.any (fun w => decide (w.1 = i) && sameBlk w.2.1 a) && !s.ramping a)

/-- An access of an interface to `a` waits behind an earlier one to the same block (R41), on the sideband behind any (R398). -/
def State.behind (s : State) (i : Itf) (a : Nat) (write : Bool) : Bool :=
  (s.heldBy i).any (fun h => h.bar2.isNone && (decide (i = .i2c) || sameBlk h.off a)) || s.heldElse i a write

/-! ### A host access (R33, R42, R430, R448) -/

/-- Tally counts a host access to a register (R411): PCIe accesses cross the fast layer as master 0. -/
def State.regTally (s : State) (i : Itf) (write : Bool) : State :=
  match i with
  | .i2c => s.tallyAdd 0xB6 1
  | .pcie => ((s.tallyAdd (if write then 0xB5 else 0xB4) 1).tallyAdd (if write then 0xA1 else 0xA0) 4).tallyAdd 0xA2 1

/-- The host interfaces work: from the KEYS phase on, and not in TEST (R397, R421, R428). -/
def State.hostOn (s : State) : Bool := decide (2 ≤ s.f 0x00000010 31 28) && decide (s.f 0x00000010 31 28 ≠ 11)

/-- A host write reaches the register at `a`: counted; discarded without record before RUN outside CFG (R430), held by a fence or behind
an earlier access to its block (R41), held while its domain ramps (R448), discarded at an absent register, or done by `g`. -/
def State.reach (s : State) (i : Itf) (a : Nat) (v : Word) (g : State → State) : State :=
  if !s.hostOn then s
  else
    let s := s.regTally i true
    if !s.running ∧ Blk.ofOff a ≠ some .cfg then s
    else if s.fenceHolds i a || s.behind i a true then s.hold { itf := i, off := a, v := v }
    else if s.ramping a then { s with pwr := { s.pwr with waits := s.pwr.waits ++ [(i, a, some v)] } }
    else if s.absent a then s.absentHit a
    else g s

/-- The writable bits of the register at `a`. -/
def rwMask (a : Nat) : Word :=
  match findReg a with
  | some d => BitVec.ofNat 32 d.rw
  | none => 0

/-- The RW fields of the register at `a` take a written word; its other bits stay. -/
def State.rwStore (s : State) (a : Nat) (v : Word) : State :=
  s.wr a ((s.rd a &&& ~~~(rwMask a)) ||| (v &&& rwMask a))

end Sys2Proof.Machine
end

