-- ==== Sys2Proof/Machine/OutOps.lean ====
section
/-! DEFINITION. Shared operations of the synthesizers and outputs (07 R185-R200): the phase of a synthesizer's core and its ramp, the
waveforms of the outputs, squelch, the period guard, what a step of a base does to them, PPS edge times. -/
namespace Sys2Proof.Machine

/-- State of SYNk set. -/
def State.setSynState (s : State) (k v : Nat) : State := s.setF (synOff k + 4) 31 28 v

/-- Something done to every output mapped to SYNk. -/
def State.forMapped (s : State) (k : Nat) (g : State → Nat → State) : State := (s.mapped k).foldl g s

/-! ### The core (R185-R190) -/

/-- Record of SYNk changed by `g`. -/
def State.modSyn (s : State) (k : Nat) (g : Syn → Syn) : State := { s with syns := listMod s.syns k g }

/-- The value of SYNk's base. -/
def State.synNow (s : State) (k : Nat) : Int := s.tbTime (s.synTb k)

/-- Whether a synthesizer state drives its outputs (07, synthesizer states). -/
def synDrives (st : Nat) : Bool := decide (st = synRUN ∨ st = synRAMP ∨ st = synREALIGN)

/-- Core frequency a ramp has reached `el` (2^-40 ns) after it began at `f`, 2^-16 Hz, along segments of an end and a duration
in ms (R190). -/
def rampReached : List (Nat × Nat) → Nat → Int → Nat
  | [], f, _ => f
  | (e, d) :: r, f, el =>
    let dur : Int := d * 1000000 * 2 ^ 40
    if el < dur then ((f : Int) + ((e : Int) - f) * el / dur).toNat else rampReached r e (el - dur)

/-- Core cycles that a ramp has gained on `ref` Hz in that time, 2^-17/(10^9·2^40) of a cycle (R190). -/
def rampGain (ref : Nat) : List (Nat × Nat) → Nat → Int → Int
  | [], f, el => 2 * ((f : Int) - ref * 65536) * el
  | (e, d) :: r, f, el =>
    let dur : Int := d * 1000000 * 2 ^ 40
    if el < dur then ((f : Int) + rampReached [(e, d)] f el - 2 * ref * 65536) * el
    else ((f : Int) + e - 2 * ref * 65536) * dur + rampGain ref r e (el - dur)

/-- How long a ramp lasts, 2^-40 ns (R190). -/
def rampLasts (segs : List (Nat × Nat)) : Nat := segs.foldl (fun n p => n + p.2 * 1000000 * 2 ^ 40) 0

/-- Core frequency of SYNk now, 2^-16 Hz. -/
def State.synFreqNow (s : State) (k : Nat) : Nat :=
  match (s.syn k).ramp with
  | none => (s.lv (synOff k + 0x10)).toNat * 65536
  | some r => rampReached r.segs r.fromFreq (s.synNow k - r.start)

/-- The frequency, Hz, against which the phase of SYNk's core is counted. -/
def State.synRef (s : State) (k : Nat) : Nat :=
  match (s.syn k).ramp with
  | none => (s.lv (synOff k + 0x10)).toNat
  | some r => r.ref

/-- Cycles after which every output mapped to SYNk is at the same place of its period again. -/
def State.synCommon (s : State) (k : Nat) : Nat := (s.mapped k).foldl (fun n j => n.lcm (s.lf (outOff j + 0x10) 23 0)) 1

/-- The value of least magnitude that differs from `x` by a multiple of `m`. -/
def nearestMod (x : Int) (m : Nat) : Int := let r := x % m; if 2 * r ≤ m then r else r - m

/-- The frequencies, Hz, half way between the centres 1.6 GHz × 2^((b + 0.5) / 64) of neighbouring bands, rounded down (R186). -/
def bandMids : List Nat :=
  [1617446572, 1635059411, 1652864040, 1670862550, 1689057050, 1707449675, 1726042583, 1744837955, 1763837994, 1783044931,
   1802461017, 1822088531, 1841929774, 1861987074, 1882262784, 1902759282, 1923478972, 1944424285, 1965597677, 1987001632]
  ++ [2008638662, 2030511303, 2052622121, 2074973710, 2097568693, 2120409718, 2143499466, 2166840645, 2190435993, 2214288277,
   2238400295, 2262774876, 2287414879, 2312323194, 2337502743, 2362956479, 2388687388, 2414698488, 2440992831, 2467573500]
  ++ [2494443614, 2521606324, 2549064816, 2576822312, 2604882067, 2633247373, 2661921557, 2690907983, 2720210049, 2749831195,
   2779774893, 2810044657, 2840644037, 2871576623, 2902846042, 2934455963, 2966410093, 2998712181, 3031366016, 3064375428]
  ++ [3097744288, 3131476512, 3165576056]

/-- The band whose centre lies nearest a core frequency, Hz (R186). -/
def bandOf (f : Nat) : Nat := (bandMids.filter (fun m => decide (m < f))).length

/-- The phase move that REALIGN still owes `el` (2^-40 ns) after it began, 1/(10^9·2^40) of a cycle (R189): the amount of smallest magnitude
that returns every mapped output to its phase, less what the offset of `rate`, 2^-48, has moved at `freq` Hz. -/
def realignLeft (off : Int) (common freq rate : Nat) (el : Int) : Int :=
  let x := nearestMod off (common * secU)
  let done : Int := freq * rate * el / 2 ^ 48
  if x.natAbs ≤ done then 0 else if 0 < x then x - done else x + done

/-- Phase of SYNk's core less its ideal, 1/(10^9·2^40) of a cycle. -/
def State.corePhase (s : State) (k : Nat) : Int :=
  let y := s.syn k
  match y.ramp with
  | some r => y.off + rampGain r.ref r.segs r.fromFreq (s.synNow k - r.start) / 2 ^ 17
  | none =>
    if s.synState k = synREALIGN then
      realignLeft y.off (s.synCommon k) (s.synRef k) (s.lv (synOff k + 0x14)).toNat (s.synNow k - y.moveFrom)
    else y.off

/-- SYNk begins to move its phase from where it is (R189). -/
def State.realignHere (s : State) (k : Nat) (off : Int) : State := s.modSyn k (fun y => { y with ramp := none, off := off, moveFrom := s.synNow k })

/-! ### Waveforms of the outputs (R191-R196) -/

/-- Synthesizer of output j. -/
def State.outSyn (s : State) (j : Nat) : Nat := s.f (outOff j + 4) 5 4

/-- A period of a waveform, 1/(10^9·2^40) of a core cycle. -/
def Wave.period (w : Wave) : Nat := w.div * secU

/-- How long it is high, in the same unit (R193): HIGH cycles, or half the period. -/
def Wave.highFor (w : Wave) : Nat := if w.high = 0 then w.div * (secU / 2) else w.high * secU

/-- Core frequency behind a waveform of SYNk, 2^-16 Hz. -/
def State.waveFreq (s : State) (k : Nat) (w : Wave) : Nat := if w.kind = .own then w.freq else s.synFreqNow k

/-- Where in its period a waveform of SYNk is at base time `t`, 1/(10^9·2^40) of a core cycle after its rising edge (R193). -/
def State.wavePos (s : State) (k : Nat) (w : Wave) (t : Int) : Int :=
  let f := s.waveFreq k w
  (if w.kind = .own then (t - w.org) * f / 65536
    else s.synRef k * s.synNow k + s.corePhase k + (t - s.synNow k - w.org) * f / 65536) % w.period

/-- Base time it takes at 2^-16 Hz `f` to run `x`, rounded up. -/
def cyclesTime (x : Int) (f : Nat) : Int := if f = 0 then 0 else -(-(x * 65536) / f)

/-- The first rising edge of a waveform at or after `t`. -/
def State.nextRise (s : State) (k : Nat) (w : Wave) (t : Int) : Int :=
  let p := s.wavePos k w t
  if p = 0 then t else t + cyclesTime (w.period - p) (s.waveFreq k w)

/-- Its last rising edge at or before `t`. -/
def State.lastRise (s : State) (k : Nat) (w : Wave) (t : Int) : Int := t - s.wavePos k w t * 65536 / s.waveFreq k w

/-- FMT in force of output j (R195). -/
def State.outFmt (s : State) (j : Nat) : Nat := s.lf (outOff j) 30 28

/-- The waveform of output j at base time `t`: low before the first. -/
def State.waveAt (s : State) (j : Nat) (t : Int) : Wave :=
  ((s.outs.getD j []).filter (fun w => decide (w.from_ ≤ t))).getLastD { fmt := s.outFmt j }

/-- The waveform of output j in force now, those that are to follow it, and the last of them all. -/
def State.waveNow (s : State) (j : Nat) : Wave := s.waveAt j (s.synNow (s.outSyn j))
def State.waveNext (s : State) (j : Nat) : List Wave := (s.outs.getD j []).filter (fun w => decide (s.synNow (s.outSyn j) < w.from_))
def State.waveLast (s : State) (j : Nat) : Wave := (s.waveNext j).getLastD (s.waveNow j)

/-- Waveforms of output j set. -/
def State.setWaves (s : State) (j : Nat) (ws : List Wave) : State := { s with outs := listMod s.outs j (fun _ => ws) }

/-- The programmed waveform of output j (R193): at its synthesizer's divided core, or on the fallback path at the target frequency. -/
def State.target (s : State) (j : Nat) (kind : WaveKind) : Wave :=
  { kind := kind, fmt := s.outFmt j, freq := (s.lv (synOff (s.outSyn j) + 0x10)).toNat * 65536
    div := s.lf (outOff j + 0x10) 23 0, high := s.lf (outOff j + 0x14) 23 0, org := s.lv64 (outOff j + 0x18) * subU }

/-- A waveform of output j runs on without its synthesizer, at the frequency and phase it has (R191); one that is to follow, from its edge. -/
def State.frozen (s : State) (j : Nat) (w : Wave) : Wave :=
  let k := s.outSyn j
  if w.kind = .core then { w with kind := .own, freq := s.synFreqNow k, org := s.lastRise k w (max w.from_ (s.synNow k)) } else w

/-- The waveforms of SYNk's outputs are taken off their synthesizer, which changes. -/
def State.freezeOuts (s : State) (k : Nat) : State :=
  s.forMapped k (fun s j => s.setWaves j ((s.waveNow j :: s.waveNext j).map (s.frozen j)))

/-- F_CEIL of output j, for a target at core frequency `f`, 2^-16 Hz, in 2^-32 Hz times DIV (R192). -/
def State.ceilOf (s : State) (j f : Nat) : Nat := f * (65536 + s.lf (outOff j) 15 0)

/-- Whether the frequency of a waveform does not exceed the ceiling of output j (R191). -/
def State.underCeil (s : State) (j : Nat) (w : Wave) : Bool :=
  let tgt := s.target j .own
  decide (w.freq * 65536 * tgt.div ≤ s.ceilOf j tgt.freq * w.div)

/-- The last rising edge of output j up to now: none where the spec does not give it, before the first and as a loop settles. -/
def State.lastEdge (s : State) (j : Nat) : Option Int :=
  let w := s.waveNow j
  match w.kind with
  | .low => w.edge
  | .loose => none
  | _ => some (s.lastRise (s.outSyn j) w (s.synNow (s.outSyn j)))

/-- When what happens to SYNk on this tick happens: on the second of its base that the tick has reached, if there is one, else now
(R187, R188: a set and the dividers go by the boundary). -/
def State.synEvent (s : State) (k : Nat) : Int :=
  let now := s.synNow k
  let sec := now / secU * secU
  if (s.spn.prev.getD (s.synTb k) 0 : Int) < sec ∧ now - sec < 1000 * 2 ^ 40 then sec else now

/-- A rising edge at `t` up to the 1 ps with which the stages place edges (R193). -/
def State.risesAt (s : State) (k : Nat) (w : Wave) (t : Int) : Bool :=
  let p := s.wavePos k w t
  let tol : Int := s.waveFreq k w * 2 ^ 39 / 1000 / 65536
  decide (p ≤ tol) || decide ((w.period : Int) - p ≤ tol)

/-- A waveform joins at its first rising edge that comes no earlier than the end of the cycle in force, and no less than a period of its own
after the last rising edge (R191). A cycle that ends at the event itself ends there, and the edge there may already be the new one's. -/
def State.join (s : State) (j : Nat) (cur w : Wave) : List Wave :=
  let k := s.outSyn j
  let t := s.synEvent k
  match cur.kind with
  | .low => [cur, { w with from_ := s.nextRise k w ((s.waveNext j).foldl (fun m x => max m x.from_) t) }]
  | .loose => [cur, { w with from_ := s.nextRise k w t }]
  | _ =>
    let per := cyclesTime cur.period (s.waveFreq k cur)
    let e1 := if s.risesAt k cur t then t else s.lastRise k cur t + per
    let e2 := s.nextRise k w (max e1 (e1 - per + cyclesTime w.period (s.waveFreq k w)))
    if e1 < e2 then [cur, { cur with kind := .low, fmt := w.fmt, from_ := e1, edge := some (e1 - per) }, { w with from_ := e2 }]
    else [cur, { w with from_ := e2 }]

/-- OUT/GUARD for `runs` runs in which the guard of output j suppressed `n` rising edges (R192). -/
def State.guardCount (s : State) (j n runs : Nat) : State :=
  (List.range runs).foldl (fun s _ => (s.raise Flt.outGuard j).irq .out 2) (s.countSat (outOff j + 0x24) 15 0 n)

/-- The waveforms that output j is to show, under its guard (R192): the first rising edge of a waveform that follows a low one is suppressed where
it comes sooner after the last edge than F_CEIL allows, and the waveform begins with its next. The count and the message come as the waveform
is scheduled (DESIGN CHOICE, log entry 53). -/
def State.guarded (s : State) (j : Nat) (ws : List Wave) : State :=
  let k := s.outSyn j
  let w := ws.getLastD {}
  let before := (ws.dropLast.getLastD {})
  let soon := match before.kind, w.kind with
    | .low, .core | .low, .own => match before.edge with
      | some e => decide ((w.from_ - e) * s.ceilOf j (s.target j .own).freq < (s.lf (outOff j + 0x10) 23 0 * secU * 2 ^ 32 : Nat))
      | none => false
    | _, _ => false
  if soon then
    (s.guardCount j 1 1).setWaves j (ws.dropLast ++ [{ w with from_ := w.from_ + cyclesTime w.period (s.waveFreq k w) }])
  else s.setWaves j ws

/-- What drives an output while its synthesizer is in state `st` (R188, R191): held low, its synthesizer (PASS)
or the fallback path. An output whose EN is 0 is held low (R196). -/
def State.squelchSource (s : State) (j st : Nat) : Nat :=
  if !s.lb (outOff j) 31 then 0
  else if st = synOFF then 0
  else if synDrives st then 1
  else match s.lf (outOff j) 27 26 with
    | 0 => 0
    | 1 => 2
    | _ => if st = synFAIL then 0 else 1

/-- Output j is driven as its synthesizer's state `st` says (R187, R191, R196): held low at once, or from the end of the cycle's high part
under HOLD_LOW; by the divided core; by the core as its loop settles; or by the fallback path, at the frequency and phase it had where
that is not above the ceiling, else at its target. A waveform of the right kind that runs or is to follow stays. -/
def State.drive (s : State) (j st : Nat) : State :=
  let k := s.outSyn j
  let now := s.synNow k
  let cur := s.waveNow j
  let src := s.squelchSource j st
  let p := s.wavePos k cur now
  let all := cur :: s.waveNext j
  let last := s.waveLast j
  let low : Wave := { kind := .low, fmt := s.outFmt j, from_ := now, edge := s.lastEdge j }
  let s := s.setF (outOff j + 4) 3 2 src
  if src = 0 then
    if s.lb (outOff j) 31 && decide (s.lf (outOff j) 27 26 = 0) && decide (st ≠ synOFF)
        && (decide (cur.kind = .core) || decide (cur.kind = .own)) && decide (p < cur.highFor) then
      s.setWaves j [cur, { low with from_ := now + cyclesTime (cur.highFor - p) (s.waveFreq k cur) }]
    else s.setWaves j [low]
  else if src = 1 then
    if synDrives st then (if last.kind = .core then s.setWaves j all else s.guarded j (s.join j cur (s.target j .core)))
    else s.setWaves j [{ s.target j .loose with from_ := now }]
  else if last.kind = .own && s.underCeil j last then s.setWaves j all
  else s.guarded j (s.join j cur (s.target j .own))

/-- SYNk enters a state, and its mapped outputs are driven as the state table says (R188). The dividers it starts on entry to RUN are at their
phase (R187). -/
def State.synEnter (s : State) (k st : Nat) : State :=
  let s := if synDrives st then s else s.freezeOuts k
  let s := (s.setSynState k st).modSyn k (fun y =>
    let y : Syn := { y with since := s.spn.ticks }
    if st = synALIGN then { y with alignFrom := s.synNow k } else if st = synRUN then { y with off := 0 } else y)
  (s.forMapped k (fun s j => s.drive j st)).healthFall

/-- ALIGNED of every mapped output and of the synthesizer. -/
def State.synAligned (s : State) (k : Nat) (v : Bool) : State :=
  ((s.setB (synOff k + 4) 27 v).forMapped k (fun s j => s.setB (outOff j + 4) 1 v))

/-- SYNk enters SEARCH: ATTEMPTS := 0 and squelch begins (R188). -/
def State.synSearch (s : State) (k : Nat) : State :=
  (((s.setF (synOff k + 4) 1 0 0).synEnter k synSEARCH).modSyn k (fun y => { y with ramp := none })).synAligned k false

/-- SYNk searches again, or enters FAIL after its third attempt, raising SYN/LOCK_FAIL (R188). -/
def State.synRetry (s : State) (k : Nat) : State :=
  if s.f (synOff k + 4) 1 0 = 2 then ((s.synEnter k synFAIL).raise Flt.synLockFail (k * 2 ^ 28)).irq .syn 4
  else (s.count (synOff k + 4) 1 0 1).synEnter k synSEARCH

/-- A step of base `n` by `d` reaches its synthesizers (R188): the cores do not move with it. -/
def State.synStep (s : State) (n : Nat) (d : Int) : State :=
  (List.range 4).foldl (fun s k =>
    let st := s.synState k
    let off := s.corePhase k - s.synRef k * d
    if s.synTb k ≠ n then s
    else if st = synRUN then
      let s := s.realignHere k off
      if s.lb (synOff k) 0 then (s.synEnter k synALIGN).synAligned k false else (s.synEnter k synREALIGN).synAligned k false
    else if st = synREALIGN then s.realignHere k off
    else if st = synRAMP then s.modSyn k (fun y => { y with off := y.off - s.synRef k * d })
    else s.modSyn k (fun y => { y with alignFrom := s.synNow k })) (s.synShift n d)

/-! ### The period guard (R192) -/

/-- The highest core frequency of SYNk's ramp, or FREQ in force: F_TARGET times DIV, 2^-16 Hz (R192). -/
def State.guardFreq (s : State) (k : Nat) : Nat :=
  match (s.syn k).ramp with
  | none => (s.lv (synOff k + 0x10)).toNat * 65536
  | some r => r.segs.foldl (fun f p => max f p.1) r.fromFreq

/-- Of rising edges that follow one another by the intervals given, those the guard suppresses, and how many runs they form: an edge
is suppressed that follows the edge before it that was not by less than the shortest period allowed. -/
def guardEdges (tooSoon : Nat → Bool) : Nat → Bool → List Nat → Nat × Nat
  | _, _, [] => (0, 0)
  | since, inRun, d :: r =>
    if tooSoon (since + d) then
      let x := guardEdges tooSoon (since + d) true r
      (x.1 + 1, x.2 + (if inRun then 0 else 1))
    else guardEdges tooSoon 0 false r

/-- The rising edges that SYNk's core, divided, has brought to its outputs in the state that ends, each given by the intervals from one to the next,
2^-40 ns: the guard of an output counts those that would pass F_CEIL, and raises OUT/GUARD for each run of them (R192). An edge generator keeps
its period, and an output held low has no edge. -/
def State.guards (s : State) (k : Nat) (edges : List (Fin 12 × List Nat)) : State :=
  let f := s.guardFreq k
  edges.foldl (fun s e =>
    let j := e.1.val
    if j ∈ s.mapped k ∧ s.f (outOff j + 4) 3 2 = 1 then
      let x := guardEdges (fun d => decide (d * s.ceilOf j f < s.lf (outOff j + 0x10) 23 0 * secU * 2 ^ 32)) 0 false e.2
      s.guardCount j x.1 x.2
    else s) s

/-- The outputs of SYNk that pass its core as its loop settles are cut off by something other than a command of the synthesizer, which would bring
their edges: how many of them the guard had suppressed, in how many runs, is free (R192; log entry 53). -/
def State.guardFree (s : State) (k : Nat) : State :=
  s.forMapped k (fun s j =>
    if (s.waveNow j).kind = .loose then
      let n := s.takeFree 16
      let r := n.2.takeFree 16
      r.2.guardCount j n.1 (if n.1 = 0 then 0 else 1 + r.1 % n.1)
    else s)

/-! ### PPS pins -/

/-- PERIOD in force of PPSk, 2^-40 ns. -/
def State.ppsPeriod (s : State) (k : Nat) : Nat := (s.lv (ppsOff k + 0x10)).toNat * 2 ^ 40

/-- OFS in force of PPSk, 2^-40 ns. -/
def State.ppsOfs (s : State) (k : Nat) : Nat := s.lv64 (ppsOff k + 0x18) * subU

/-- Base of PPSk. -/
def State.ppsTb (s : State) (k : Nat) : Nat := s.f (ppsOff k + 4) 10 8

/-- The latest edge time of a pin at or before `t` (R197): edges fall at OFS modulo PERIOD. None before the first. -/
def edgeBefore (ofs per t : Nat) : Option Nat :=
  if per = 0 ∨ t < ofs then none else some (t - (t - ofs) % per)

/-- The first edge time after `t` (R197). -/
def edgeAfter (ofs per t : Nat) : Nat :=
  if per = 0 then t else if t < ofs then ofs else t - (t - ofs) % per + per

/-- The first edge of PPSk after `t` that is still to come (R197). -/
def State.ppsAfter (s : State) (k t : Nat) : Nat :=
  edgeAfter (s.ppsOfs k) (s.ppsPeriod k) (match (s.pps.getD k {}).last with
    | some l => max l t
    | none => t)

/-- The next edge of PPSk (R197). -/
def State.ppsNext (s : State) (k : Nat) : Nat := s.ppsAfter k (((s.pps.getD k {}).last).getD (s.tbTime (s.ppsTb k)))

/-- The time at which the next edge of PPSk falls (R197, R202): one that comes after a scheduled unsmeared leap of its base falls at a time of the
count after it (R71). -/
def State.ppsNamed (s : State) (k : Nat) : Nat :=
  let n := s.ppsTb k
  let e := s.ppsNext k
  let sign := leapSign (s.leapDir n)
  let at_ := s.leapCount n
  if s.tbOffsetYoked n && decide (sign ≠ 0) && !s.lb (tbOff n + 0x6C) 31 && !(s.base n).smearing && decide (at_ ≤ e) then
    edgeAfter (s.ppsOfs k) (s.ppsPeriod k) ((at_ - sign * secU).toNat - 1)
  else e

/-- The PPS pin the image maps to a base (R77): of several, the lowest-numbered one (DESIGN CHOICE, log entry 52). -/
def State.basePps (s : State) (n : Nat) : Option Nat :=
  (List.range 4).find? (fun k => s.b 0x01700000 (24 + k) && decide (s.ppsTb k = n))

/-- Pin `k` after its base has moved from `t0` to `t1` in a step (R199): edge times a forward step passes are counted and
never emitted; edges already emitted are never repeated. -/
def State.ppsStep (s : State) (k t0 t1 : Nat) : State :=
  let s := s.setB (ppsOff k + 4) 1 true
  let per := s.ppsPeriod k
  let ofs := s.ppsOfs k
  let from_ := match (s.pps.getD k {}).last with
    | some l => max l t0
    | none => t0
  if from_ < t1 ∧ per ≠ 0 then
    let passed := (t1 + per - ofs % per) / per - (from_ + per - ofs % per) / per
    let s := { s with pps := listMod s.pps k (fun p => { p with last := some t1 }) }
    if passed = 0 then s
    else ((s.countSat (ppsOff k + 0x30) 15 0 passed).raise Flt.outPpsSkipped (satAt 0xFFFF passed * 2 ^ 16 + k)).irq .out 4
  else s

/-- A step of base `n` reaches its PPS pins. -/
def State.ppsSteps (s : State) (n t0 t1 : Nat) : State :=
  (List.range 4).foldl (fun s k =>
    if s.b 0x01700000 (24 + k) ∧ s.ppsTb k = n then s.ppsStep k t0 t1 else s) s

/-! ### Boundaries of the shadowed channels (R77) -/

/-- The time base of a channel: its own, its synthesizer's, its pin's. -/
def State.chanTb (s : State) : Chan → Nat
  | .tb n | .servo n | .bnd n => n.val
  | .syn k => s.f (synOff k.val + 4) 10 8
  | .out k => s.f (outOff k.val + 4) 10 8
  | .pps k => s.ppsTb k.val
  | .tod k => s.ppsTb (s.f (todOff k.val + 4) 2 1)

/-- The PPS pin whose edge NEXT_PPS names (R77); a PPS channel's own (R198). -/
def State.chanPps (s : State) (ch : Chan) : Option Nat :=
  match ch with
  | .pps k => some k.val
  | .tod k => some (s.f (todOff k.val + 4) 2 1)
  | ch => s.basePps (s.chanTb ch)

/-- 2.0 µs in 2^-40 ns: the lock point's lead (R77). -/
def lockLead : Nat := 2000 * 2 ^ 40

/-- The first boundary of a channel at or after `v` (R77): a second of its base, or an edge of its PPS pin; none where it has
no such boundary. -/
def State.boundaryAt (s : State) (ch : Chan) (b v : Nat) : Option Nat :=
  if b = 1 then some ((v + secU - 1) / secU * secU)
  else if b = 2 then (s.chanPps ch).map (fun k => s.ppsAfter k (v - 1))
  else none

/-- A set armed for a second or an edge takes the first one from `v` on; one not yet fixed keeps the lead of the lock point. -/
def State.aim (s : State) (ch : Chan) (v : Nat) (x : CommitSet) : CommitSet :=
  if x.boundary = 0 then x
  else { x with target := (s.boundaryAt ch x.boundary (if x.fixed then v else v + lockLead)).getD x.target }

/-- After a backward step of base `n`, the sets armed for a second or an edge take the next one as the base stands; one not yet
fixed keeps the lead of the lock point (R79). One behind a set that has a boundary takes its first boundary after that of the other, as R78
says of it: that R78 governs it after a step too is DEDUCED (log entry 52). -/
def State.retarget (s : State) (n : Nat) : State :=
  let v := s.countNow n
  { s with chans := (allChans.zip s.chans).map (fun p =>
      if s.chanTb p.1 = n then
        let a := p.2.armed.map (s.aim p.1 v)
        let after := match a with
          | some x => if x.boundary = 0 then v else max v (x.target + 1)
          | none => v
        { p.2 with armed := a, behind := p.2.behind.map (fun x =>
            if x.boundary = 0 then x
            else { x with target := (s.boundaryAt p.1 x.boundary (max after (v + lockLead))).getD x.target }) }
      else p.2) }

/-! ### A step of a base (R62) -/

/-! ### Launch times over a step (R272) -/

/-- Window of port p in MAC. -/
def macOff (p : Nat) : Nat := 0x02101000 + p * 0x400

/-- Port p. -/
def State.port (s : State) (p : Nat) : MacPort := s.mac.getD p {}
def State.modPort (s : State) (p : Nat) (g : MacPort → MacPort) : State := { s with mac := listMod s.mac p g }

/-- State of port p (MAC_Pp_STAT.STATE), its base and its lane mode. -/
def State.portSt (s : State) (p : Nat) : Nat := s.f (macOff p + 4) 31 29
def State.portBase (s : State) (p : Nat) : Nat := s.f (macOff p + 4) 10 8
def State.portMode (s : State) (p : Nat) : Nat := s.f (macOff p + 4) 7 4

/-- TX timestamp of a capture, 2^-16 ns: capture plus TX_DLY, FEC_TX and EXT_TX, truncated toward the earlier time (R268). -/
def State.txTime (s : State) (p t : Nat) (fec : Int) : Nat :=
  let o := macOff p
  (((t : Int) / 2 ^ 24) + (s.rd (o + 0x24)).toNat + fec + signedOf 32 (s.rd (o + 0x2C)).toNat).toNat

/-- Whether a step from `t0` to `t1` leaves the launch time of a frame behind (R272): a forward step past it does, a backward step before it
takes that back. -/
def stepPast (t0 t1 : Nat) (f : TxFrame) : TxFrame :=
  match f.launch with
  | some l => { f with passed := (f.passed || decide (t0 < l)) && decide (l ≤ t1) }
  | none => f

/-- Base `n` steps from `t0` to `t1` (2^-40 ns): the launch-timed frames of its ports. -/
def State.launchStep (s : State) (n t0 t1 : Nat) : State :=
  (List.range 16).foldl (fun s p =>
    if s.portBase p = n then
      let g := stepPast (s.txTime p t0 0) (s.txTime p t1 0)
      s.modPort p (fun x => { x with pkt := x.pkt.map g, ring := x.ring.map g })
    else s) s

/-- One base has been moved by a step of `d` (2^-40 ns), from `t0` to its present value: the STEPPED flags, SPN/STEP, armed
commits (R79), slots (R83), the blocks of units on its grid (R111), its synthesizers (R188), PPS pins (R199) and launch-timed
frames (R272). -/
def State.baseStepped (s : State) (n : Nat) (t0 : Nat) (d : Int) : State :=
  let s := s.modBase n (fun b => { b with steppedP := true, steppedI := true, steps := b.steps + 1 })
  let s := { s with ens := { s.ens with ctl := listMod s.ens.ctl n (fun c => { c with prevT := none }) } }
  let s := s.raise Flt.spnStep (n * 2 ^ 28 + (if d < 0 then 1 else 0))
  let s := if s.tandemTb = n then { s.setB 0x02500014 29 false with tnd := { s.tnd with stepped := true, edgeWait := none } } else s
  let s := if d < 0 then s.retarget n else s.slotPass n (t0 + 1) (s.tbTime n)
  (((s.abandonGrid n).synStep n d).ppsSteps n t0 (s.tbTime n)).launchStep n t0 (s.tbTime n)

/-- The bases yoked to base `n`. -/
def State.yokedTo (s : State) (n : Nat) : List Nat :=
  (List.range 8).filter (fun j => s.tbPresent j && s.tbYoked j && decide (s.tbMaster j = n))

/-- Base `n`, unyoked, is moved by `d` in one tick (R61, R62): its RATIO followers move with it, and where the move is larger
than 1 ns it is a step of the base and of each base yoked to it. Before RUN the bases do not count, and a value they are given is no step of
them (R429). -/
def State.moveBase (s : State) (n : Nat) (d : Int) : State :=
  let ys := s.yokedTo n
  let olds := ys.map (fun j => (j, s.tbTime j))
  let t0 := s.tbTime n
  let mv := fun (b : TBase) => { b with time := ((b.time + d) % (timeMod : Int)).toNat, phase := b.phase + d }
  let s := s.modBase n mv
  let s := ys.foldl (fun s j => if s.tbRatio j then s.modBase j mv else s) s
  if d.natAbs ≤ 2 ^ 40 ∨ !s.running then s
  else olds.foldl (fun s p => s.baseStepped p.1 p.2 d) (s.baseStepped n t0 d)

end Sys2Proof.Machine
end

