-- ==== Sys2Proof/Machine/Cand.lean ====
section
/-! DEFINITION. The candidates of the selector: the unit that measures each (04, candidate table; R28, R225, R372), its latest
result, and its effective uncertainty (R119). -/
namespace Sys2Proof.Machine

/-- Window of candidate c (SEL_CANDc_CTL). -/
def candOff (c : Nat) : Nat := 0x01301000 + c * 0x80
/-- Window of TBn's selector (SEL_TBn_MEMBERS). -/
def selOff (n : Nat) : Nat := 0x01303000 + n * 0x40
/-- Window of TBn's servo (ENS_TBn_CTL). -/
def ensOff (n : Nat) : Nat := 0x01401000 + n * 0x100
/-- Window of member m (ENS_LOm_CTL). -/
def memOff (m : Nat) : Nat := 0x01400100 + m * 0x40
/-- Window of TBn's bound (BND_TBn_BOUND). -/
def bndOff (n : Nat) : Nat := 0x01501000 + n * 0x100

/-- How the unit measures the peer (TND_CTL.C25_SRC, R372): 0 PPS, 1 TWOWAY, 2 FREQ. -/
def State.c25Src (s : State) : Nat := s.f 0x02500010 21 20

/-- The interval unit that measures a candidate, where one does. -/
def State.candUnit (s : State) (c : Nat) : Option TiuId :=
  if h : c < 8 then (s.routedUnit (.refin ⟨c, h⟩)).map .p
  else if h : c - 8 < 16 then some (.lane ⟨c - 8, by omega⟩)
  else if c = 24 then (s.routedUnit .vanePps).map .p
  else if c = 25 then
    if s.c25Src = 0 then (s.routedUnit .peerPps).map .p
    else if s.c25Src = 2 then (s.routedUnit .peer10M).map .p
    else none
  else none

/-- Whether a candidate is frequency only (R117, R372). -/
def State.candFreqOnly (s : State) (c : Nat) : Bool :=
  if c < 8 then s.b (candOff c) 30
  else if c < 24 then true
  else if c = 25 then decide (s.c25Src = 2)
  else false

/-- The latest result of an interval unit as a consumer sees it (R110, R112). -/
def State.unitRes (s : State) (u : TiuId) : CandRes :=
  let t := s.unit u
  let o := tiuOff u
  { count := t.results, mean := t.resMean, meanIn := t.resIn, time := t.resEs.getD (s.gridBase u) 0
    timeIn := t.resEs, ticks := t.resCap.ticks
    phase := t.resCap.phase, restart := t.resRestart, n := s.f (o + 0x10) 15 0, sd := (s.rd (o + 0x1C)).toNat
    lo := signedOf 64 (s.rd64 (o + 0x20)), hi := signedOf 64 (s.rd64 (o + 0x28))
    sys := s.unitSys u }

/-- The correction of the peer PPS result to the peer's second (R372), 2^-16 ns: S_peer less the base's second of the nearest
grid point to its last event. -/
def State.peerShift (s : State) (r : CandRes) : Int :=
  ((s.tnd.peerSec : Int) - (2 * r.time + sec16) / (2 * sec16)) * sec16

/-- The latest result of candidate c (R112, R225, R309, R372). -/
def State.candRes (s : State) (c : Nat) : CandRes :=
  if c = 25 ∧ s.c25Src = 0 then s.tnd.ppsRes
  else if c = 24 ∨ 26 ≤ c ∨ (c = 25 ∧ s.c25Src = 1) then s.srcRes.getD (c - 24) {}
  else match s.candUnit c with
    | none => {}
    | some u => s.unitRes u

/-- The residual of a result (R123, R145): its mean less the phase of its grid base at T, 2^-16 ns. -/
def residual (r : CandRes) : Int := r.mean - r.phase / 2 ^ 24

/-- Effective uncertainty of candidate c (SEL_CANDc_UEFF). -/
def State.uEff (s : State) (c : Nat) : Nat := (s.rd (candOff c + 0x0C)).toNat

/-- The selected candidate of TBn (SEL_TBn_STAT); 0x1F none. -/
def State.selected (s : State) (n : Nat) : Nat := s.f (selOff n + 8) 4 0

/-- STAT.ALIGNED of the tandem unit (R373): candidate 25 is selected on the tandem base, its latest mean is within 200 ps and the
base has not stepped since. -/
def State.tndAlign (s : State) : State :=
  let tb := s.tandemTb
  let m := if s.tbYoked tb then s.tbMaster tb else tb
  if s.domOn 9 then
    s.setB 0x02500014 29 (decide (s.selected m = 25) && decide ((s.candRes 25).mean.natAbs ≤ 13107) && !s.tnd.stepped)
  else s

/-- Candidate 25 has a new result (R373): TND_ALIGN_OFS and ALIGNED. -/
def State.c25Result (s : State) : State :=
  (({ s with tnd := { s.tnd with stepped := false } } : State).wrS64 0x02500070 (s.candRes 25).mean).tndAlign

/-- The cross-check of the peer PPS against TWOWAY (R374, XCHK_OK): where both have a result while the link is PAIRED, they differ by
no more than TND_XCHK_TOL. -/
def State.xchkEval (s : State) : State :=
  let d := s.tnd.ppsRes.mean - signedOf 64 (s.rd64 0x02500078)
  let bad := s.paired && s.tnd.twowayOk && decide (0 < s.tnd.ppsRes.n) && decide ((s.rd 0x02500054).toNat * 256 < d.natAbs)
  { s with tnd := { s.tnd with xchkBad := bad } }

/-- State of TBn (ENS_TBn_STAT.STATE, R156). -/
def State.tbState (s : State) (n : Nat) : Nat := s.f (ensOff n + 4) 31 28

/-- Time-base states. -/
def stFREERUN : Nat := 1
def stACQUIRING : Nat := 2
def stLOCKED : Nat := 3
def stHOLDOVER : Nat := 4
def stEXIT : Nat := 5
def stHOST : Nat := 6

/-- An unyoked base of the structure. -/
def State.freeBase (s : State) (n : Nat) : Bool := s.tbPresent n && !s.tbYoked n

/-- The bases that have a servo. -/
def State.freeBases (s : State) : List Nat := (List.range 8).filter s.freeBase

/-- Servo and bound record of TBn. -/
def State.ctl (s : State) (n : Nat) : BaseCtl := s.ens.ctl.getD n {}

/-- Servo and bound record of TBn changed by `g`. -/
def State.modCtl (s : State) (n : Nat) (g : BaseCtl → BaseCtl) : State :=
  { s with ens := { s.ens with ctl := listMod s.ens.ctl n g } }

/-- Member record of LOm. -/
def State.member (s : State) (m : Nat) : Member := s.ens.members.getD m {}

/-- Member record of LOm changed by `g`. -/
def State.modMember (s : State) (m : Nat) (g : Member → Member) : State :=
  { s with ens := { s.ens with members := listMod s.ens.members m g } }

/-- m of ENS_CTL.CONF (R163): 2, 3, 4 or 5. -/
def State.conf (s : State) : Nat := s.f 0x01400010 1 0 + 2

/-- The part is in the safe state (R389). -/
def State.safe (s : State) : Bool := s.b 0x00200014 31

end Sys2Proof.Machine
end

