-- ==== Sys2Proof/Machine/Trace.lean ====
section
/-! DEFINITION. Power domains, the Granary's ports, the matrix's errors, the Chest's keys (13 R342) and the trace writer (06 R178-R181). -/
namespace Sys2Proof.Machine

/-! ### DRAM words in error (R326, R327) -/

/-- The words with an error are the list `l`. -/
def State.setFlaws (s : State) (l : List EccHit) : State := { s with cst := { s.cst with flaws := l } }

/-- The words in error that lie in `n` bytes at `a`, or reach into them. -/
def State.flawsIn (s : State) (a n : Nat) : List EccHit :=
  s.cst.flaws.filter (fun e => decide (a < e.addr.toNat + 8) && decide (e.addr.toNat < a + n))

/-- Words of the DRAM come to hold an error, which the next read of each meets (log entry 59). -/
def State.dramFail (s : State) (es : List EccHit) : State :=
  if es.isEmpty then s else s.setFlaws (es ++ s.cst.flaws.filter (fun f => !es.any (fun e => decide (e.addr = f.addr))))

/-- A write of `n` bytes at `a` gives every word it covers new check bits. -/
def State.heal (s : State) (a n : Nat) : State :=
  if s.cst.flaws.isEmpty then s
  else s.setFlaws (s.cst.flaws.filter (fun e => !(decide (a ≤ e.addr.toNat) && decide (e.addr.toNat + 8 ≤ a + n))))

/-- A read meets an error (R326, R327): counted, its address recorded, CST/ECC_CE at most once a second or CST/ECC_UE. A corrected word is
written back. -/
def State.eccNote (s : State) (e : EccHit) : State :=
  let s := s.wr 0x02300038 e.addr
  if !e.uncorrectable then
    let s := ((s.setFlaws (s.cst.flaws.filter (fun f => decide (f.addr ≠ e.addr)))).countSat 0x02300030 31 0 1).irq .cst 0
    if s.cst.ceTick = 0 ∨ s.cst.ceTick + 2000000000 ≤ s.spn.ticks + 1 then
      (({ s with cst := { s.cst with ceTick := s.spn.ticks + 1 } } : State).raise Flt.cstEccCe e.addr.toNat)
    else s
  else ((s.countSat 0x02300034 31 0 1).raise Flt.cstEccUe e.addr.toNat).irq .cst 1

/-! ### The Granary's ports -/

/-- Fast-layer master `m` writes bytes to the Granary; Tally counts (R411). -/
def State.granWrite (s : State) (m a : Nat) (l : List Byte) : State :=
  ((((s.mwrite a l).heal a l.length).tallyAdd (0xA0 + 4 * m + 1) l.length).tallyAdd (0xA0 + 4 * m + 2) 1).tallyAdd 0xD1 1

/-- Fast-layer master `m` reads `n` bytes of the Granary at `a`; Tally counts (R411). -/
def State.granRead (s : State) (m a n : Nat) : List Byte × State :=
  (s.mread a n, ((s.tallyAdd (0xA0 + 4 * m) n).tallyAdd (0xA0 + 4 * m + 2) 1).tallyAdd 0xD0 ((n + 63) / 64))

/-- The address of the first uncorrectable word that a read of `n` bytes at `a` meets. -/
def State.damaged (s : State) (a n : Nat) : Option Nat :=
  (((s.flawsIn a n).filter (·.uncorrectable)).map (·.addr.toNat)).min?

/-! ### Crossroads (R401, R402) -/

/-- A matrix error of kind 1 DECODE, 2 BAD_ACCESS, 3 BUS_ERR or 4 LOCK_TIMEOUT (R392, R393, R401, R402): master (5 for I²C) and
address. MTX_ERR records the errors of R402. -/
def State.mtxErr (s : State) (kind master addr : Nat) : State :=
  let s := if kind = 1 ∨ kind = 3 then
      (s.wr64 0x00300030 addr).wrN 0x00300038 (master * 2 ^ 28 + kind * 2 ^ 24)
    else s
  let f := if kind = 1 then Flt.mtxDecode else if kind = 2 then Flt.mtxBadAccess else if kind = 3 then Flt.mtxBusErr else Flt.mtxLockTimeout
  (s.raise f (master * 2 ^ 28 + addr % 2 ^ 28)).irq .mtx (kind - 1)

/-! ### Chest slots (R342) -/

/-- KEY_SLOTs_STAT. -/
def slotOff (i : Nat) : Nat := 0x02401000 + i * 4

/-- ACTIVE of a slot: 0 EMPTY, 1 copy A, 2 copy B, 3 FAULT; a slot whose commit-word forms disagree is FAULT. -/
def State.slotActive (s : State) (i : Nat) : Nat := if i ∈ s.keys.bad then 3 else s.f (slotOff i) 27 26

/-- The key of a slot, unmasked with the derived Chest mask; none where the slot yields no key. -/
def State.chestKey (s : State) (i : Nat) : Option (BitVec 256) :=
  match s.keys.derived with
  | none => none
  | some (_, _, mask) =>
    if s.keys.frozen then none
    else match s.slotActive i with
      | 1 => some (s.keys.copyA.getD i 0 ^^^ mask)
      | 2 => some (s.keys.copyB.getD i 0 ^^^ mask)
      | _ => none

/-! ### Trace records -/

/-- A list cut or padded with zeros to `n` bytes. -/
def padTo (n : Nat) (l : List Byte) : List Byte := l.take n ++ List.replicate (n - l.length) 0

/-- Bytes 0 to 191 of a record (06, trace record common layout). -/
def State.recordHead (s : State) (r : TraceRec) (seq : Nat) (unsigned : Bool) : List Byte :=
  [BitVec.ofNat 8 r.typ, 1] ++ leBytes 2 256 ++ leBytes 4 seq ++ leBytes 4 (s.rd 0x00000014).toNat
    ++ leBytes 4 ((if unsigned then 1 else 0) + (if r.gap then 2 else 0))
    ++ (if r.typ = 5 then List.replicate 16 0 else padTo 16 s.trace.prevHash) ++ timeBytes r.stamp ++ padTo 148 r.payload

/-- Records are made: BND_CTL.TRACE_EN is 1 and PD6 is on (R37, R180). -/
def State.traceRuns (s : State) : Bool := s.b 0x01500010 0 && s.domOn 6

/-- The ring is writable too, which needs the store initialised (R313), and signing is not frozen (R443). -/
def State.traceOn (s : State) : Bool := s.traceRuns && s.b 0x02300014 31 && !s.keys.frozen

/-- A record with its signature by the trace subkey; zeros where the subkey is missing (R181). -/
def State.record (s : State) (r : TraceRec) : List Byte :=
  let key := s.chestKey 4
  let head := s.recordHead r (s.rd 0x01500040).toNat key.isNone
  head ++ (match key with
    | some k => leBytes 64 (Config.ed25519Sign k head).toNat
    | none => List.replicate 64 0)

/-- What follows record `seq` in the ring: an unread slot overwritten (R179), the signature missing, GAP_BEFORE, SEQ, the chain (R180). -/
def State.recordDone (s : State) (seq : Nat) (lapped unsigned gap : Bool) (digest : List Byte) : State :=
  let s2 := if lapped then
      let t := s.countSat 0x01500048 31 16 1
      if s.trace.overrun then t else (t.raise Flt.bndTraceOverrun ((seq + 2 ^ 32 - 4194304) % 2 ^ 32)).irq .bnd 3
    else s
  let s3 := if unsigned && !s.b 0x01500048 2 then (s2.raise Flt.bndTraceUnsigned 0).irq .bnd 4 else s2
  let s4 := ((s3.setB 0x01500048 2 unsigned).setB 0x01500048 1 gap).wrN 0x01500040 (seq + 1)
  { s4 with trace := { s4.trace with prevHash := digest, overrun := lapped } }

/-- A record is written to the ring (R179-R181): SEQ, overwriting of unread slots, chaining and signing. -/
def State.recordWrite (s : State) (r : TraceRec) : State :=
  let seq := (s.rd 0x01500040).toNat
  let lapped := decide (4194304 ≤ (seq + 2 ^ 32 - (s.rd 0x01500044).toNat) % 2 ^ 32)
  (s.granWrite 4 (0x90000000 + seq % 4194304 * 256) (s.record r)).recordDone seq lapped (s.chestKey 4).isNone r.gap
    (leBytes 16 (Config.sha512 (s.record r)).toNat)

/-- The records that waited for the store are written, oldest first (R25). -/
def State.traceDrain (s : State) : State :=
  if s.traceOn then s.trace.queue.foldl State.recordWrite { s with trace := { s.trace with queue := [] } } else s

/-- A record is made (R25, R37, R180). While the writer does not run there is none and the next one carries GAP_BEFORE; while PD6 is
on and the store is not READY, or signing is frozen (R443), it waits. -/
def State.tracePut (s : State) (typ : Nat) (payload : List Byte) : State :=
  if !s.traceRuns then { s with trace := { s.trace with gap := true } }
  else
    let r : TraceRec := ⟨typ, s.tbTime 0, s.trace.gap, payload⟩
    ({ s with trace := { s.trace with gap := false, queue := s.trace.queue ++ [r] } } : State).traceDrain

/-- A record goes ahead of those that wait for the store, but for a START record (R180): GAP_BEFORE goes with the first of them. -/
def State.traceAhead (s : State) (typ : Nat) (payload : List Byte) : State :=
  if s.trace.queue = [] ∨ !s.traceRuns then s.tracePut typ payload
  else
    let r : TraceRec := ⟨typ, s.tbTime 0, false, payload⟩
    let head := s.trace.queue.takeWhile (fun q => decide (q.typ = 5))
    let tail := s.trace.queue.dropWhile (fun q => decide (q.typ = 5))
    ({ s with trace := { s.trace with queue := head ++ r :: tail } } : State).traceDrain

/-- A SUBKEY record: the public half of the trace subkey and the identity key's signature over it (R181). It precedes every record that the subkey
signs, those that wait among them (R348); only the START record of a start, which R180 makes the first, stands before it (log entry 56). No record is
made while either key is missing; while the writer is off the record is owed. -/
def State.subkeyPut (s : State) : State :=
  let s := { s with trace := { s.trace with subkeyDue := !s.traceRuns } }
  match s.chestKey 4, s.keys.derived with
  | some k, some (id, _, _) =>
    let pub := leBytes 32 (Config.ed25519Pub k).toNat
    let body := timeBytes (s.tbTime 0) ++ pub
    s.traceAhead 4 (pub ++ leBytes 64 (Config.ed25519Sign id body).toNat)
  | _, _ => s

/-- The first record of a start is a START record (R180), followed by the SUBKEY record; after a rotation that found the writer off the
SUBKEY record comes first (R181). START: power-on or CRESET, and the keep-counter time at start. -/
def State.traceFirst (s : State) : State :=
  if !s.traceRuns then s
  else if s.trace.started then (if s.trace.subkeyDue then s.subkeyPut else s)
  else
    let s : State := { s with trace := { s.trace with started := true } }
    (s.tracePut 5 ([if s.f 0x0020007C 31 30 = 0 then 0 else 1, 0, 0, 0] ++ timeBytes s.trace.start)).subkeyPut

/-- A record of any other type. -/
def State.traceWrite (s : State) (typ : Nat) (payload : List Byte) : State := s.traceFirst.tracePut typ payload

/-- A SUBKEY record at a rotation of the subkey (R181). -/
def State.traceSubkey (s : State) : State :=
  if s.traceRuns && !s.trace.started then s.traceFirst else s.subkeyPut

/-- An EVENT record of a base: kind, P and the context word of the fault message it goes with; the detail field is stated
nowhere and is a free value (log entry 3). -/
def State.traceEvent (s : State) (n kind ctx : Nat) : State :=
  let d := s.takeFree 16
  d.2.traceWrite 6 ([BitVec.ofNat 8 n, BitVec.ofNat 8 kind] ++ leBytes 2 d.1 ++ leBytes 4 (s.rd (bndOff n)).toNat ++ leBytes 4 ctx)

end Sys2Proof.Machine
end

