-- ==== Sys2Proof/Machine/Bound.lean ====
section
/-! DEFINITION. The Bluta bound (06 R162-R174): its terms, the evaluation of R168, the map of R171, the record body of R174. -/
namespace Sys2Proof.Machine

/-- The unbounded code (R10). -/
def unb : Nat := 0xFFFFFFFF

/-- A quotient rounded up. -/
def ceilDiv (a b : Nat) : Nat := if b = 0 then 0 else (a + b - 1) / b

/-- A sum of bound terms (R168): unbounded when a term is, or when the sum exceeds 0xFFFF_FFFE. -/
def sumTerms (l : List Nat) : Nat :=
  if l.any (fun t => decide (unb ≤ t)) || decide (0xFFFFFFFE < l.sum) then unb else l.sum

/-- B_hold of coefficients k0, k1, k2, kT at `t` seconds and temperature integral `tint` (R168); each product saturates. -/
def holdTerm (k : Nat × Nat × Nat × Nat) (t tint : Nat) : Nat :=
  if k.1 = unb ∨ k.2.1 = unb ∨ k.2.2.1 = unb ∨ k.2.2.2 = unb then unb
  else sumTerms [k.1, satAt unb (ceilDiv (k.2.1 * t * 1000000000) (2 ^ 40)),
    satAt unb (ceilDiv (k.2.2.1 * t * t * 1000000000) (2 ^ 57)), satAt unb (ceilDiv (k.2.2.2 * tint * 1000000000) (2 ^ 56))]

/-- The spine has no carrier, or no ensemble has trained (R51, R143, R166). -/
def State.noTrain (s : State) : Bool := s.b 0x01000014 7 || decide (s.f 0x01400020 11 10 = 0)

/-- The envelope coefficients the engine publishes for a base now (R147). -/
def State.envK (s : State) (n : Nat) : Nat × Nat × Nat × Nat :=
  if s.noTrain then (unb, unb, unb, unb)
  else ((s.rd (ensOff n + 0xA4)).toNat, (s.rd (ensOff n + 0xA8)).toNat, (s.rd (ensOff n + 0xAC)).toNat, (s.rd (ensOff n + 0xB0)).toNat)

/-- The larger of each coefficient (R166). -/
def maxK (a b : Nat × Nat × Nat × Nat) : Nat × Nat × Nat × Nat :=
  (max a.1 b.1, max a.2.1 b.2.1, max a.2.2.1 b.2.2.1, max a.2.2.2 b.2.2.2)

/-- The candidate a servo follows (ENS_TBn_STAT.CAND); 0x1F none. -/
def State.followed (s : State) (n : Nat) : Nat := s.f (ensOff n + 4) 4 0

/-- Phase hold (R164). -/
def State.phaseHold (s : State) (n : Nat) : Bool :=
  let st := s.tbState n
  decide (st = stHOLDOVER) ||
    (decide (st = stACQUIRING ∨ st = stLOCKED ∨ st = stEXIT) && decide (s.followed n ≠ 0x1F) && s.candFreqOnly (s.followed n))

/-- PEND of a base, 2^-16 ns, truncated to the register's unit (R59). -/
def State.pend (s : State) (n : Nat) : Int := ((s.base n).pendHost + (s.base n).pendServo) / 2 ^ 24

/-- B_step: |PEND| rounded up to 2^-8 ns (R168). -/
def State.bStep (s : State) (n : Nat) : Nat := satAt unb (ceilDiv ((s.base n).pendHost + (s.base n).pendServo).natAbs (2 ^ 32))

/-- Whole seconds between two spine ticks (2,000,000,000 ticks a second). -/
def ticksSec (a b : Nat) : Nat := (b - a) / 2000000000

/-- The last applied result was of a frequency-only candidate, and the base, which is in the servo's hands, waits for the first result of the
time-and-phase candidate that replaced it: the bound takes no credit for it (R164). -/
def State.unfresh (s : State) (n : Nat) : Bool :=
  let st := s.tbState n
  decide (st = stACQUIRING ∨ st = stLOCKED ∨ st = stEXIT) && !s.phaseHold n
    && (match (s.ctl n).lastCand with
      | some c => s.candFreqOnly c
      | none => false)

/-- What phase hold holds of base n: of the last applied time-and-phase result, which in EXIT is the last of those applied there; where none of them
has been, and against fresh terms, it is that of before the outage (R164, R166, R168). -/
def State.heldIn (s : State) (n : Nat) : Held :=
  let c := s.ctl n
  if s.phaseHold n || s.unfresh n then c.exitHeld.getD c.held else c.held

/-- The terms of phase hold are in use: in phase hold, in EXIT, and until a time-and-phase result follows frequency-only ones (R164,
R168). -/
def State.holds (s : State) (n : Nat) : Bool := s.phaseHold n || s.unfresh n || decide (s.tbState n = stEXIT)

/-- HOLD_T (R164): whole seconds since the last applied time-and-phase result, while the terms of phase hold are in use; 0 otherwise. -/
def State.holdT (s : State) (n : Nat) : Nat :=
  if s.holds n then
    match (s.heldIn n).tick with
    | some k => satAt 0xFFFFFFFF (ticksSec k s.spn.ticks)
    | none => 0
  else 0

/-- B_meas with the 20 ps of a carrier switch (06, table of sources). The table adds them to the term; that they are added to a held term too is the
model's choice (log entry 44). -/
def State.measTerm (s : State) (m : Nat) : Nat := if m = unb then unb else m + (if s.ens.carSwitch then 6 else 0)

/-- B_ref, B_meas and B_servo in use: held in phase hold, else those of the latest result (R164). -/
def State.terms (s : State) (n : Nat) : Nat × Nat × Nat :=
  let c := s.ctl n
  if s.phaseHold n || s.unfresh n then ((s.heldIn n).ref, s.measTerm (s.heldIn n).meas, (s.heldIn n).servo)
  else ((match c.lastCand with
    | some x => s.uEff x
    | none => unb), s.measTerm c.meas, (s.rd (ensOff n + 0x88)).toNat)

/-- Coefficients in use (R166). -/
def State.kInUse (s : State) (n : Nat) : Nat × Nat × Nat × Nat :=
  if s.holds n then maxK (s.heldIn n).k (s.envK n) else s.envK n

/-- TINT of a base (R167). -/
def State.tint (s : State) (n : Nat) : Nat := s.rd64 (bndOff n + 0x2C) % 2 ^ 48

/-- The phase-hold bound H of R168 at `t` seconds. -/
def State.boundH (s : State) (n t : Nat) : Nat :=
  let c := s.heldIn n
  sumTerms [c.ref, s.measTerm c.meas, c.servo, holdTerm (maxK c.k (s.envK n)) t (s.tint n), s.bStep n]

/-- The bound F from fresh reference terms (R168). -/
def State.boundF (s : State) (n : Nat) : Nat :=
  let c := s.ctl n
  sumTerms [(match c.lastCand with
    | some x => s.uEff x
    | none => unb), s.measTerm c.meas, (s.rd (ensOff n + 0x88)).toNat, (s.envK n).1, s.bStep n]

/-- C, the computed bound of an evaluation at `t` seconds (R168). In EXIT there is no fresh term, and C is the phase-hold bound, until a
time-and-phase result has been applied (06, worked example of the return). -/
def State.boundC (s : State) (n t : Nat) : Nat :=
  let st := s.tbState n
  if st = stFREERUN ∨ st = stHOST ∨ (st = stACQUIRING ∧ !(s.ctl n).everLocked) then unb
  else if s.phaseHold n || s.unfresh n then s.boundH n t
  else if st = stEXIT then (if (s.ctl n).exitHeld.isSome then min (s.boundH n t) (s.boundF n) else s.boundH n t)
  else s.boundF n

/-- One unit of the internal published bound is 1/pScale of 2^-8 ns, so that SHRINK over one tick is a whole number. -/
def pScale : Nat := 2000000000

/-- P of an evaluation (R168), internal form: `p` the one before, `c` the computed bound, `hold` phase hold, `free` a state in
which P is C, `fall` what SHRINK and the fall of the unslewed remainder allow. -/
def boundP (p : Option Nat) (c : Nat) (free hold : Bool) (fall : Nat) : Option Nat :=
  if c = unb then none
  else if free then some (c * pScale)
  else match p with
    | none => if hold then none else some (c * pScale)
    | some q => if hold then some (max q (c * pScale)) else some (max (c * pScale) (q - fall))

/-- The published bound in 2^-8 ns, rounded up. -/
def pubBound (p : Option Nat) : Nat :=
  match p with
  | none => unb
  | some q => satAt unb (ceilDiv q pScale)

/-! ### The map of R171 -/

/-- State class bit of a base (R171); a yoked base takes its master's. -/
def State.stateClass (s : State) (n : Nat) : Nat :=
  let m := if s.tbYoked n then s.tbMaster n else n
  let st := s.tbState m
  if st = stHOLDOVER then 3
  else if s.phaseHold m then 5
  else if st = stACQUIRING then 1
  else if st = stLOCKED then 2
  else if st = stEXIT then 4
  else 0

/-- The first enabled row whose THR and STATES both hold (R171), on the values in force. -/
def State.mapRow (s : State) (n p : Nat) : Option Nat :=
  (List.range 8).find? (fun k =>
    let out := s.lv (bndOff n + 0x84 + k * 8)
    let thr := (s.lv (bndOff n + 0x80 + k * 8)).toNat
    out.bit 31 && decide (p ≤ thr) && out.bit (24 + s.stateClass n))

/-- BND_TBn_QUAL shows the OUT of the row in force (R171, R183). -/
def State.mapShow (s : State) (n : Nat) : State :=
  s.wr (bndOff n + 0x38) (s.lv (bndOff n + 0x84 + s.f (bndOff n + 4) 18 16 * 8))

/-- A row goes into force (R171): BND/MAP_CHANGE and an EVENT record. -/
def State.mapForce (s : State) (n k : Nat) : State :=
  let s := (s.setF (bndOff n + 4) 18 16 k).mapShow n
  let s := s.modCtl n (fun c => { c with betterRow := none })
  ((s.raise Flt.bndMapChange (n * 2 ^ 28 + k)).irq .bnd 2).traceEvent n 4 (n * 2 ^ 28 + k)

/-- The map after an evaluation (R171): a worse row goes into force at once, a better one waits MAP_HOLD seconds. -/
def State.mapEval (s : State) (n : Nat) : State :=
  match s.mapRow n (s.rd (bndOff n)).toNat with
  | none => s
  | some k =>
    let cur := s.f (bndOff n + 4) 18 16
    if cur < k ∨ (k < cur ∧ s.lf (bndOff n + 0x40) 15 0 = 0) then s.mapForce n k
    else if k = cur then s.modCtl n (fun c => { c with betterRow := none })
    else s.modCtl n (fun c => { c with betterRow := match c.betterRow with
      | some (r, since) => some (k, if r = k then since else s.spn.ticks)
      | none => some (k, s.spn.ticks) })

/-! ### Evaluation -/

/-- A base publishes P: BND/UNBOUNDED when it becomes unbounded after being finite (R182), then the map. -/
def State.publish (s : State) (n p : Nat) : State :=
  let old := (s.rd (bndOff n)).toNat
  let s := s.wrN (bndOff n) p
  let s := if p = unb ∧ old ≠ unb then (s.raise Flt.bndUnbounded (n * 2 ^ 28)).irq .bnd 1 else s
  (s.mapEval n).healthFall

/-- A yoked base publishes its master's P, through the ratio for a RATIO base (R169). -/
def State.publishYoked (s : State) (j p : Nat) : State :=
  if s.tbRatio j then
    let r := (signedOf 48 (s.lv64 (tbOff j + 0x58) % 2 ^ 48)).natAbs
    s.publish j (if p = unb then unb else satAt unb (ceilDiv (p * (2 ^ 48 + r)) (2 ^ 48)))
  else s.publish j p

/-- One evaluation of an unyoked base at HOLD_T plus `extra` seconds (R165, R168), and of the bases yoked to it. -/
def State.boundEvalAt (s : State) (n extra : Nat) : State :=
  if !s.freeBase n then s
  else
    let ct := s.ctl n
    let st := s.tbState n
    let t := s.holdT n + extra
    let tm := s.terms n
    let hold := s.phaseHold n
    let free := decide (st = stFREERUN ∨ st = stHOST ∨ (st = stACQUIRING ∧ !ct.everLocked))
    let c := s.boundC n t
    let fall := s.lf (bndOff n + 0x3C) 23 0 * (s.spn.ticks - ct.evalTick) + (ct.stepPrev - s.bStep n) * pScale
    let p := boundP ct.pFine c free hold fall
    let o := bndOff n
    let bh := if s.holds n then holdTerm (s.kInUse n) t (s.tint n) else (s.envK n).1
    let s1 := ((((((s.wrN (o + 0x10) tm.1).wrN (o + 0x14) tm.2.1).wrN (o + 0x18) tm.2.2).wrN (o + 0x1C) bh).wrN (o + 0x20)
      (s.bStep n)).wrN (o + 0x24) c).wrN (o + 0x28) (s.holdT n)
    let s2 := s1.modCtl n (fun x => { x with pFine := p, stepPrev := s.bStep n, evalTick := s.spn.ticks })
    let s3 := s2.publish n (pubBound p)
    (s3.yokedTo n).foldl (fun s j => s.publishYoked j (pubBound p)) s3

/-- An evaluation other than an ensemble cycle's: t = HOLD_T (R165). -/
def State.boundEval (s : State) (n : Nat) : State := s.boundEvalAt n 0

/-- Every base is evaluated (a change of carrier, R165). -/
def State.boundEvalAll (s : State) : State := s.freeBases.foldl State.boundEval s

/-! ### The Bluta record (R174) -/

/-- Reference class code of a candidate (R174). -/
def State.refClass (s : State) (c : Option Nat) : Nat :=
  match c with
  | none => 0
  | some c =>
    if c < 8 then (if s.candFreqOnly c then 2 else 1)
    else if c < 24 then 3
    else if c = 24 then 4
    else if c = 25 then (if s.candFreqOnly 25 then 6 else 5)
    else 7

/-- FLAGS of a base (R174); a yoked base takes its master's, with YOKED set (R169). -/
def State.blutaFlags (s : State) (n : Nat) : Nat :=
  let y := s.tbYoked n
  let m := if y then s.tbMaster n else n
  let st := s.tbState m
  let sel := s.selected m
  let p := (s.rd (bndOff n)).toNat
  let pm := (s.rd (bndOff m)).toNat
  let bit := fun (i : Nat) (x : Bool) => if x then 2 ^ i else 0
  bit 0 (decide (st = stLOCKED) && !s.phaseHold m) + bit 1 (decide (st = stHOLDOVER))
    + bit 2 (decide (s.f (selOff m + 8) 10 8 = 3) || (decide (sel ≠ 0x1F) && s.b (candOff sel + 0x10) 6))
    + bit 3 (decide (p = unb)) + bit 4 (decide (st = stEXIT) || decide ((s.rd (bndOff m + 0x24)).toNat < pm))
    + bit 5 (decide (0 < s.bStep m)) + bit 6 (s.phaseHold m && decide (st ≠ stHOLDOVER))
    + bit 7 (decide (s.f 0x01400020 11 10 = 1)) + bit 8 (s.ctl m).exceeded.isSome
    + bit 9 (s.base n).smearing + bit 10 (s.base n).leapSec + bit 11 s.safe + bit 12 y

/-- The body of the Bluta record of a base (R174), network order. -/
def State.blutaBody (s : State) (n : Nat) : List Byte :=
  let m := if s.tbYoked n then s.tbMaster n else n
  let c := (s.ctl m).lastCand
  [1, BitVec.ofNat 8 n] ++ beBytes 2 (s.blutaFlags n) ++ beBytes 4 (s.rd (bndOff n)).toNat
    ++ beBytes 4 (if s.phaseHold m then s.holdT m else 0)
    ++ [BitVec.ofNat 8 (s.refClass c),
        BitVec.ofNat 8 (match c with
          | some x => s.f (candOff x + 0x10) 19 16
          | none => 15),
        BitVec.ofNat 8 (c.getD 0x1F), BitVec.ofNat 8 (s.tbState n)]

/-- clockAccuracy of P (R172): the intervals of IEEE 1588-2019 from 0x17 (1 ps) to 0x30 (10 s), in tenths of
a picosecond. -/
def accRows : List (Nat × Nat) :=
  [(0x17, 10), (0x18, 25), (0x19, 100), (0x1A, 250), (0x1B, 1000), (0x1C, 2500),
   (0x1D, 10000), (0x1E, 25000), (0x1F, 100000), (0x20, 250000), (0x21, 1000000), (0x22, 2500000),
   (0x23, 10000000), (0x24, 25000000), (0x25, 100000000), (0x26, 250000000), (0x27, 1000000000), (0x28, 2500000000),
   (0x29, 10000000000), (0x2A, 25000000000), (0x2B, 100000000000), (0x2C, 250000000000), (0x2D, 1000000000000), (0x2E, 2500000000000),
   (0x2F, 10000000000000), (0x30, 100000000000000)]

/-- clockAccuracy code of a published bound (R172). -/
def clockAccuracy (p : Nat) : Nat :=
  if p = unb then 0xFE
  else match accRows.find? (fun r => decide (p * 10000 ≤ r.2 * 256)) with
    | some r => r.1
    | none => 0x31

/-- The uncertainty a clockAccuracy code reports, 2^-8 ns, rounded up (R119): its interval in the IEEE 1588-2019 enumeration; 0xFFFF_FFFF for 0xFE,
for a code without an interval, and for one whose interval exceeds the format. -/
def accUnc (acc : Nat) : Nat :=
  match accRows.find? (fun r => decide (r.1 = acc)) with
  | some r => satAt unb (ceilDiv (r.2 * 256) 10000)
  | none => unb

/-- NTP root dispersion of a published bound (R173). -/
def rootDispersion (p : Nat) : Nat := if p = unb then 0x100000 else ceilDiv (p * 65536) (256 * 1000000000)

/-- The NTP leap indicator of a base (R173): 3 under LI_ALARM; 1 or 2 in the UTC day before a scheduled second,
which starts 86,400 master seconds before LEAP_AT, or 86,399 before the deleted one (R70); else 0. -/
def State.leapIndicator (s : State) (n : Nat) : Nat :=
  if (s.rd (bndOff n + 0x38)).bit 30 then 3
  else
    let dir := s.leapDir n
    let left := (s.leapAt n : Int) - (s.tbSec (s.tbMaster n) : Int)
    if s.tbOffsetYoked n ∧ dir ≠ 0 ∧ 0 ≤ left ∧ left ≤ (if dir = 1 then 86400 else 86399) then (if dir = 1 then 1 else 2) else 0

/-! ### Commands -/

/-- EXCEEDED_FLAG_EXPIRY (R170): 86,400 s after it was set, flag EXCEEDED of a base clears. -/
def execExceededFlagExpiry (n : Fin 8) (s : State) : Out :=
  match (s.ctl n).exceeded with
  | some t => .next (if 86400 ≤ ticksSec t s.spn.ticks then s.modCtl n (fun c => { c with exceeded := none }) else s)
  | none => .next s

/-- BOUND_EVAL_10MS (R165): while PEND is not 0, the base is evaluated. -/
def execBoundEval10ms (n : Fin 8) (s : State) : Out :=
  if (s.base n).pendHost + (s.base n).pendServo ≠ 0 then .next (s.boundEval n) else .next s

/-- MAP_HOLD_EXPIRY (R171): a better row that has been first for MAP_HOLD seconds goes into force. -/
def execMapHoldExpiry (n : Fin 8) (s : State) : Out :=
  match (s.ctl n).betterRow with
  | some (k, t) => .next (if s.lf (bndOff n + 0x40) 15 0 ≤ ticksSec t s.spn.ticks then s.mapForce n k else s)
  | none => .next s

/-- SEL_TBn_STAT of a base; the selector of a yoked base is absent (R134). -/
def State.selStat (s : State) (n : Nat) : Word := if s.tbYoked n then 0x0000051F else s.rd (selOff n + 8)

/-- Payload of a SECOND record (06, SECOND payload). -/
def State.secondPayload (s : State) (n : Nat) : List Byte :=
  let o := bndOff n
  let k := s.kInUse n
  [BitVec.ofNat 8 n, BitVec.ofNat 8 (s.tbState n), BitVec.ofNat 8 ((s.ctl n).lastCand.getD 0x1F), BitVec.ofNat 8 (s.f (o + 4) 18 16)]
    ++ timeBytes (s.tbTime n) ++ leBytes 4 (s.rd o).toNat
    ++ leBytes 4 (s.rd (o + 0x10)).toNat ++ leBytes 4 (s.rd (o + 0x14)).toNat ++ leBytes 4 (s.rd (o + 0x18)).toNat
    ++ leBytes 4 (s.rd (o + 0x1C)).toNat ++ leBytes 4 (s.rd (o + 0x20)).toNat ++ leBytes 4 (s.rd (o + 0x24)).toNat
    ++ leBytes 4 (s.rd (o + 0x28)).toNat ++ leBytes 8 (s.tint n)
    ++ leBytes 4 k.1 ++ leBytes 4 k.2.1 ++ leBytes 4 k.2.2.1 ++ leBytes 4 k.2.2.2
    ++ leBytes 4 (s.rd 0x01400020).toNat ++ leBytes 4 (s.selStat n).toNat ++ leBytes 8 (wrapTo 64 (s.base n).fnow)
    ++ s.blutaBody n

/-- One SECOND record for each base of BND_CTL.TRACE_TB that is present, in ascending base order (R178). -/
def State.secondRecords (s : State) : State :=
  let s := (List.range 8).foldl (fun s n =>
    if s.b 0x01500010 (8 + n) && s.tbPresent n then s.traceWrite 1 (s.secondPayload n) else s) s
  { s with trace := { s.trace with sec := s.tbSec 0, waitSecond := false } }

end Sys2Proof.Machine
end

