-- ==== Sys2Proof/Machine/Pps.lean ====
section
/-! DEFINITION. The edges of the PPS pins and what they set off (07 R197-R202): pulses, the ToD channels that an edge triggers, and the
alignment to an input pulse. -/
namespace Sys2Proof.Machine

/-- Whether a shared pin is released: its unit is not ACTIVE, or became ACTIVE on a boundary less than 20 ns ago (R364, R365). `bit` is its bit in
TND_CAP. -/
def State.released (s : State) (bit : Nat) : Bool :=
  s.b 0x02500000 bit && (decide (s.f 0x02500014 31 30 ≠ 2) || decide (((s.spn.ticks * nominalInc : Nat) : Int) < s.tnd.driveFrom))

/-- What an output's two balls show: high impedance, two levels, or the edges of a loop that settles. -/
inductive Balls | z | level (p n : Bool) | loose
  deriving DecidableEq, Repr

/-- The base time, 2^-40 ns, that a pin shows at `t`: edges are rounded to the nearest 1 ps (R193). -/
def psSample (t : Int) : Int := ((2 * (t * 1000 / 2 ^ 40) + 1) * 2 ^ 40 - 1) / 2000

/-- The balls of output j now (R193, R196, R365): its waveform, DLY earlier, with 1 ps placement; N in phase with P in format 4, else its
complement. A shared stage of a unit that does not drive, or an unpowered one, is at high impedance. -/
def State.outBalls (s : State) (j : Nat) : Balls :=
  let k := s.outSyn j
  let t := psSample (s.synNow k) + signedOf 32 (s.lv (outOff j + 0x20)).toNat * subU
  let w := s.waveAt j t
  let pair := fun (l : Bool) => Balls.level l (if w.fmt = 4 then l else !l)
  if s.released j then .z
  else match w.kind with
    | .low => pair false
    | .loose => .loose
    | _ => pair (decide (s.wavePos k w t < w.highFor))

/-- The sets armed for the next edge of PPSk take the edge that is now the next (R77): one that is not fixed keeps the lead of the lock
point. A set whose edge has come stays as it is. -/
def State.retargetPps (s : State) (k : Nat) : State :=
  let re := fun (ch : Chan) (x : CommitSet) =>
    let v := s.countNow (s.chanTb ch)
    if x.boundary = 2 ∧ v < x.target then { x with target := s.ppsAfter k (if x.fixed then v else v + lockLead - 1) } else x
  { s with chans := (allChans.zip s.chans).map (fun p =>
      if s.chanPps p.1 = some k then { p.2 with armed := p.2.armed.map (re p.1), behind := p.2.behind.map (re p.1) } else p.2) }

/-- The edge of PPSk that is due, if one is (R197). -/
def State.ppsDue (s : State) (k : Nat) : Option Nat :=
  let now := s.tbTime (s.ppsTb k)
  let e := match (s.pps.getD k {}).last with
    | some _ => some (s.ppsNext k)
    | none => edgeBefore (s.ppsOfs k) (s.ppsPeriod k) now
  e.filter (fun t => decide (t ≤ now))

/-- OFS in force of PPSk set to `ofs`, 2^-16 ns; its first edge is the first after `last`. -/
def State.ppsMove (s : State) (k ofs last : Nat) : State :=
  let s := (s.setLv (ppsOff k + 0x18) (BitVec.ofNat 32 ofs)).setLv (ppsOff k + 0x1C) (BitVec.ofNat 32 (ofs / 2 ^ 32))
  ({ s with pps := listMod s.pps k (fun p => { p with last := some last }) } : State).retargetPps k

/-- A TRACK alignment moves OFS at an edge (R200): by no more than TRACK_RATE allows over a period, whole units as the time of
the base reaches them, and shorter only while WIDTH plus 2 ns still fits. -/
def State.trackMove (s : State) (k e : Nat) : State :=
  let p := s.pps.getD k {}
  let per := (s.lv (ppsOff k + 0x10)).toNat
  let rate := s.lf (ppsOff k + 0x2C) 23 0 * 256
  let ns := e / 2 ^ 40
  let lim : Nat := rate * (ns + per) / 1000000000 - rate * ns / 1000000000
  let room : Nat := (per - (s.lv (ppsOff k + 0x14)).toNat - 2) * 65536
  if p.track = 0 then s
  else
    let d : Int := if p.track < 0 then 0 - (min (min p.track.natAbs lim) room : Nat) else (min p.track.natAbs lim : Nat)
    let ofs := (((s.lv64 (ppsOff k + 0x18) : Int) + d) % (per * 65536 : Nat)).toNat
    let s : State := { s with pps := listMod s.pps k (fun x => { x with track := x.track - d }) }
    s.ppsMove k ofs (e + per * 2 ^ 39)

/-- What a ToD channel notes of the edge that triggers it (R202). -/
def State.todTrigger (s : State) (t k e : Nat) : State :=
  let n := s.ppsTb k
  if s.b 0x01700000 (28 + t) ∧ s.f (todOff t + 4) 2 1 = k ∧ s.lb (todOff t) 31 then
    let g : TodTrigger := ⟨e, e, s.blutaBody n, s.blutaFlags n, (s.rd (bndOff n)).toNat, s.rd (bndOff n + 0x38), (s.base n).steps⟩
    { s with tod := listMod s.tod t (fun c => { c with trig := some g }) }
  else s

/-- The next edge of a pin that drives, once it is due (R197-R199): its pulse begins DLY earlier at the ball, to the nearest 1 ps (R193);
the ToD channels mapped to it are triggered, and a TRACK alignment moves on. On the tick of an unsmeared leap the pin waits for the
leap (R71). -/
def State.ppsEdge (s : State) (k : Nat) : State :=
  let o := ppsOff k
  let n := s.ppsTb k
  if s.b 0x01700000 (24 + k) && s.lb o 31 && s.domOn 3 && !s.leapDue n then
    match s.ppsDue k with
    | none => s
    | some e =>
      let w := (s.lv (o + 0x14)).toNat
      let s := { s with pps := listMod s.pps k (fun p => { p with
        last := some e, ends := e + w * 2 ^ 40, steps := (s.base n).steps }) }
      let s := s.setB (o + 4) 0 true
      let ball := psOf ((e : Int) - signedOf 32 (s.lv (o + 0x20)).toNat * subU)
      let s := if s.released (20 + k) then s else s.emit (.pps k ball w (!s.lb o 30))
      let s := (s.todTrigger 0 k e).todTrigger 1 k e
      s.trackMove k e
  else s

/-- A result of TIU-P `u` with mean `m` reaches the alignment of the PPS pins that name it (R200): ONCE sets OFS to the
target, and the running period is lengthened, not shortened; TRACK takes the shorter way to it as the move still owed, which the
coming edges work off. ALIGN_LOST clears. -/
def State.ppsAlign (s : State) (u : Nat) (m : Int) : State :=
  (List.range 4).foldl (fun s k =>
    if s.b 0x01700000 (24 + k) ∧ s.alignMode k ≠ 0 ∧ s.lf (ppsOff k) 26 24 = u then
      let per : Nat := (s.lv (ppsOff k + 0x10)).toNat * 65536
      let ofs := s.lv64 (ppsOff k + 0x18)
      let target := ((m % per + signedOf 64 (s.lv64 (ppsOff k + 0x24))) % per).toNat
      let s := s.setB (ppsOff k + 4) 2 false
      if s.alignMode k = 1 then
        if (s.pps.getD k {}).once then
          let longer : Int := ((target : Int) - ofs) % per
          let next := s.ppsNext k + longer.toNat * subU
          let s : State := { s with pps := listMod s.pps k (fun p => { p with once := false }) }
          s.ppsMove k target (next - 1)
        else s
      else
        let d := ((target : Int) - ofs) % per
        { s with pps := listMod s.pps k (fun p => { p with track := if 2 * d < per then d else d - per }) }
    else s) s

end Sys2Proof.Machine
end

