-- ==== Sys2Proof/Machine/Ensemble.lean ====
section
/-! DEFINITION. The spine's carrier (02 R48-R52) and the ensemble engine (05 R136-R148): members, the cycle, weights, COMP, the
reference track and the envelope. -/
namespace Sys2Proof.Machine

/-- SPN_SPINE_STAT. -/
def spineStat : Nat := 0x01000014
/-- ENS_STAT. -/
def ensStat : Nat := 0x01400020
/-- Window of LOm in REF (REF_LOm_CTL). -/
def loOff (m : Nat) : Nat := 0x01102000 + m * 0x40

/-! ### Frequency in force, hold prediction, state changes -/

/-- FADJ limit of R57, 2^-48. -/
def fadjMax : Int := 281474976711

/-- The servo or the hold prediction asks for a frequency: it is clamped to the limit, with SPN/FADJ_CLAMP (R57). -/
def State.setFnow (s : State) (n : Nat) (v : Int) : State :=
  if v > fadjMax then (s.modBase n (fun b => { b with fnow := fadjMax })).raise Flt.spnFadjClamp (n * 2 ^ 28)
  else if v < -fadjMax then (s.modBase n (fun b => { b with fnow := -fadjMax })).raise Flt.spnFadjClamp (n * 2 ^ 28)
  else s.modBase n (fun b => { b with fnow := v })

/-- HP of a base now, 2^-48 (R146): YH plus DH times the time since the last estimate, DH as 0 without HOLD_DRIFT. The time counts on the spine,
fractions of a second with it. -/
def State.hp (s : State) (n : Nat) : Int :=
  let o := ensOff n
  let yh := signedOf 48 (s.rd64 (o + 0x94) % 2 ^ 48)
  let dh := if s.lb o 3 then signedOf 32 (s.rd (o + 0x9C)).toNat else 0
  yh + dh * ((s.spn.ticks : Int) - (s.ctl n).th) / (2 ^ 16 * 2000000000)

/-- The feed-forward term of a base (R156): HP where ENS_CAP gives feed-forward, else 0. -/
def State.ffTerm (s : State) (n : Nat) : Int := if s.b 0x01400000 (8 + n) then s.hp n else 0

/-- Servo profile of a state: 0 ACQ, 1 TRACK, 2 EXIT, 3 none. -/
def profOf (st : Nat) : Nat := if st = stACQUIRING then 0 else if st = stLOCKED then 1 else if st = stEXIT then 2 else 3

/-- A base enters a state (R156): status fields, profile, run counts, the slew rate of the profile, TB_CHG, an EVENT record
with the context word `ctx` of the change's fault, and an evaluation of its bound (R165). A base that leaves the servo's states
keeps the slew rate of the profile in force (R60). EVER_LOCKED ends with FREERUN and HOST; a base that leaves EXIT holds from the results
applied in it (R158, R164). -/
def State.setTbState (s : State) (n st ctx : Nat) : State :=
  let p := profOf st
  let s := (((s.setF (ensOff n + 4) 31 28 st).setF (tbOff n + 4) 31 28 st).setF (ensOff n + 4) 27 26 p).setF (ensOff n + 4) 23 16 0
  let s := s.modCtl n (fun c => { c with
    run := 0, urun := 0, everLocked := c.everLocked && decide (st ≠ stFREERUN ∧ st ≠ stHOST)
    held := c.exitHeld.getD c.held, exitHeld := none
    secTick := match c.exitSec with
      | some k => some k
      | none => c.secTick
    exitSec := none })
  let s := if p = 3 then s else s.modBase n (fun b => { b with servoRate := s.lf (ensOff n + 0x4C + p * 0x10) 23 0 })
  let s := (s.setB 0x01400038 n true).irq .ens 2
  (s.traceEvent n 1 ctx).boundEval n

/-! ### The carrier (R48-R52, R144) -/

/-- State of member m. -/
def State.memState (s : State) (m : Nat) : Nat := s.f (memOff m + 4) 3 0

/-- Whether LOm is failed as the ensemble sees it (R89, R94, R95): failed at its input, or measured by a unit that failed to calibrate three times in
a row (R103). -/
def State.loFailed (s : State) (m : Fin 4) : Bool :=
  s.srcFailed (.lo m) || decide (3 ≤ (s.unit (.p ⟨8 + m.val, by omega⟩)).fails)

/-- A member that may be named (R93, R144): eligible frequency, healthy, not FAILED and not OFF. -/
def State.carOk (s : State) (m : Nat) : Bool :=
  if h : m < 4 then s.b (loOff m + 8) 5 && !s.loFailed ⟨m, h⟩ && decide (s.memState m ≠ 0 ∧ s.memState m ≠ 4) else false

/-- Member a stands before member b (R144): past WARMUP, then CAR_PRI, then the lower number. -/
def State.carBefore (s : State) (a b : Nat) : Bool :=
  let wa := decide (s.memState a = 1)
  let wb := decide (s.memState b = 1)
  let pa := s.f (memOff a) 19 16
  let pb := s.f (memOff b) 19 16
  if wa ≠ wb then wb else if pa ≠ pb then decide (pb < pa) else decide (a < b)

/-- The first member in the order of R144. -/
def State.carFirst (s : State) : Option Nat :=
  ((List.range 4).filter s.carOk).foldl (fun best m => match best with
    | none => some m
    | some b => if s.carBefore m b then some m else some b) none

/-- The named carrier (ENS_STAT). -/
def State.named (s : State) : Option Nat := if s.b ensStat 7 then some (s.f ensStat 9 8) else none

/-- The carrier in use, while SYNS is locked. -/
def State.carrier (s : State) : Option Nat := if s.b spineStat 5 then some (s.f spineStat 1 0) else none

/-- The carrier the part wants (R52): the forced one when it may be named, else the ensemble's. -/
def State.wanted (s : State) : Option Nat :=
  if s.b 0x01000010 4 && s.carOk (s.f 0x01000010 1 0) then some (s.f 0x01000010 1 0) else s.named

/-- The ensemble names a carrier. -/
def State.name (s : State) (m : Nat) : State := ((s.setF ensStat 9 8 m).setB ensStat 7 true).irq .ens 1

/-- COMP for carrier m, 2^-48 (R138): less its frequency and, once TREF is fixed, its temperature term (R137). -/
def State.compFor (s : State) (m : Nat) : Int :=
  let r := s.member m
  0 - ((r.y + (if r.trefFixed then r.c * (r.temp - signedOf 16 (s.f (memOff m + 0x28) 15 0)) else 0)) / 2 ^ 16)

/-- FORCED reads 1 while the forced carrier is in use (R52). -/
def State.forcedBit (s : State) : State :=
  s.setB spineStat 4 (s.b 0x01000010 4 && s.b spineStat 5 && decide (s.f 0x01000010 1 0 = s.f spineStat 1 0))

/-- A planned switch starts (R49): the ramp, COMP beside it, SPN/CARRIER_SWITCH, the 20 ps of the measurement term. -/
def State.startRamp (s : State) (old new : Nat) : State :=
  let c := s.compNow
  let s := s.modSpn (fun p => { p with ramp := some { fromComp := c, toComp := s.compFor new } })
  let s := { s with ens := { s.ens with rampTo := new, carSwitch := true } }
  (((s.setB spineStat 6 true).raise Flt.spnCarrierSwitch (old * 16 + new)).irq .spn 3).boundEvalAll

/-- No eligible oscillator remains (R51): NO_CARRIER, and every bound unbounded. The lock that ends it is no switch. -/
def State.noCarrier (s : State) (old : Nat) : State :=
  ((((s.modSpn (fun p => { p with lossSwitch := false })).setB spineStat 7 true).raise Flt.spnNoCarrier old).irq .spn 3).boundEvalAll

/-- The carrier fails without notice (R50, R51): SYNS holds its DCO word and the ensemble names the first member; with none
left the spine has no carrier. -/
def State.carrierLost (s : State) (old : Nat) : State :=
  let c := s.compNow
  let s := s.modSpn (fun p => { p with comp := c, ramp := none, hold := true })
  let s := (((s.setB spineStat 5 false).setB spineStat 6 false).setB spineStat 4 false)
  let s := match s.carFirst with
    | some f => if s.named = some f then s else s.name f
    | none => s.setB ensStat 7 false
  match s.wanted with
  | some t => ((s.modSpn (fun p => { p with lossSwitch := true })).raise Flt.spnCarrierLost (old * 16 + t)).irq .spn 3
  | none => s.noCarrier old

/-- The member that stands first for carrier, with the tick since which it has (R144). -/
def State.firstEval (s : State) : State :=
  let f := match s.carFirst, s.ens.first with
    | some m, some (k, t) => if m = k then some (k, t) else some (m, s.spn.ticks)
    | some m, none => some (m, s.spn.ticks)
    | none, _ => none
  { s with ens := { s.ens with first := f } }

/-- The carrier looked at again after a round that changed a member, an LO or the forced choice (R50-R52, R144). While SYNS is not locked, the
failure of the last oscillator that could be named leaves no carrier (R51). -/
def State.carrierEval (s : State) : State :=
  let s := s.firstEval
  let had := s.named.isSome
  let s := match s.named with
    | some m => if s.carOk m then s else match s.carFirst with
      | some f => s.name f
      | none => s.setB ensStat 7 false
    | none => match s.carFirst with
      | some f => s.name f
      | none => s
  let s := s.forcedBit
  match s.carrier with
  | none => if had ∧ s.wanted.isNone ∧ !s.b spineStat 7 then s.noCarrier (s.f spineStat 1 0) else s
  | some cur =>
    if !s.carOk cur then s.carrierLost cur
    else match s.wanted with
      | none => s
      | some w => if w = cur ∨ s.b spineStat 6 then s else s.startRamp cur w

/-- Member m has stood first for 60 s without a break (R144). -/
def State.stoodFirst (s : State) (m : Nat) : Bool :=
  decide (s.carFirst = some m) && (match s.ens.first with
    | some (k, t) => decide (k = m) && decide (60 ≤ ticksSec t s.spn.ticks)
    | none => false)

/-- CARRIER_NAMED (R144): a member that has stood first for 60 s is named, and R49 applies. Any other is not named. -/
def execCarrierNamed (m : Fin 4) (s : State) : Out :=
  if s.stoodFirst m ∧ s.named ≠ some m.val then .next (s.name m.val).carrierEval else .next s

/-- CARRIER_RAMP_END (R49): the ramp ends after its 100 ms, SWITCHING clears, the new carrier is in use and counts in SWITCHES. -/
def execCarrierRampEnd (s : State) : Out :=
  match s.spn.ramp with
  | none => .next s
  | some r =>
    if r.ticks < 200000000 then .next s
    else
      let t := s.ens.rampTo
      let s := s.modSpn (fun p => { p with comp := r.toComp, ramp := none })
      let s := ((s.setB spineStat 6 false).setF spineStat 1 0 t).count spineStat 31 16 1
      .next s.forcedBit.carrierEval

/-- SYNS_LOCK (R50, R51): SYNS locks to the wanted carrier; a lock after a loss counts in SWITCHES, a first lock or one after
NO_CARRIER does not. Bounds follow at once. -/
def execSynsLock (s : State) : Out :=
  if s.b spineStat 5 then .next s
  else match s.wanted with
    | none => .next s
    | some t =>
      let loss := s.spn.lossSwitch
      let c := s.compFor t
      let s := s.modSpn (fun p => { p with comp := c, hold := false, lossSwitch := false })
      let s := ((s.setB spineStat 5 true).setF spineStat 1 0 t).setB spineStat 7 false
      let s := if loss then s.count spineStat 31 16 1 else s
      .next (s.setF 0x01600010 21 16 (bandOf 2000000000)).forcedBit.boundEvalAll

/-- A write to SPN_SPINE_CTL (R52): a forced switch, or a planned return, starts at once. -/
def State.wSpineCtl (s : State) (v : Word) : State := (s.wr 0x01000010 (v &&& 0x13)).carrierEval

/-- SPINE_FORCE_WRITE (R52). -/
def execSpineForceWrite (i : Itf) (v : Word) (s : State) : Out := .next (s.reach i 0x01000010 v (fun s => s.wSpineCtl v))

/-! ### Members (R142, R143) -/

/-- The per-kind constants of an oscillator (R137): drift floor k2 in 2^-64 /s and temperature floor kT in 2^-56 /°C, rounded up, training time and
warm-up limit in seconds. -/
structure KindRow where
  k2 : Nat
  kT : Nat
  trainMin : Nat
  warmMax : Nat

/-- Table of R137, by REF_LOm_CTL.KIND. -/
def kindRow (kind : Nat) : KindRow :=
  match kind with
  | 1 => ⟨36894, 720576, 172800, 600⟩
  | 2 => ⟨1845, 72058, 259200, 900⟩
  | 3 => ⟨18447, 360288, 172800, 300⟩
  | 4 => ⟨1844675, 7205760, 86400, 60⟩
  | _ => ⟨0, 0, 0, 0⟩

/-- Constants of member m. -/
def State.kindOf (s : State) (m : Nat) : KindRow := kindRow (s.f (loOff m) 26 24)

/-- ENS_STAT.STATE (R143): 0 NONE, 1 PROVISIONAL, 2 TRAINED. -/
def State.ensStateNow (s : State) : Nat :=
  if (List.range 4).any (fun m => decide (s.memState m = 3)) then 2
  else if (List.range 4).any (fun m => decide (s.memState m = 2)) then 1 else 0

/-- The envelope coefficients of a base (R147). -/
def State.setEnv (s : State) (n : Nat) (k : Nat × Nat × Nat × Nat) : State :=
  let o := ensOff n
  (((s.wrN (o + 0xA4) k.1).wrN (o + 0xA8) k.2.1).wrN (o + 0xAC) k.2.2.1).wrN (o + 0xB0) k.2.2.2

/-- ENS_STAT.STATE brought up to date; in NONE no coefficient is bounded (R143), and ENS/NO_MEMBER is raised when it enters NONE after having
left it (R161). The bounds follow. -/
def State.ensStateEval (s : State) : State :=
  let old := s.f ensStat 11 10
  let new := s.ensStateNow
  if new = old then s
  else
    let s := s.setF ensStat 11 10 new
    let s := if new = 0 then (s.freeBases.foldl (fun s n => s.setEnv n (unb, unb, unb, unb)) s).raise Flt.ensNoMember 0 else s
    if new = 0 ∨ old = 0 then s.boundEvalAll else s

/-- Member m enters a state. -/
def State.setMemState (s : State) (m st : Nat) : State := (s.setF (memOff m + 4) 3 0 st).irq .ens 0

/-- Phase of member m against the carrier by their latest results, 2^-16 ns; 0 without a carrier. -/
def State.zPhase (s : State) (m : Nat) : Int :=
  match s.carrier with
  | none => 0
  | some k =>
    if h : m < 4 ∧ k < 4 then
      (s.unitRes (.p ⟨8 + m, by omega⟩)).mean - (s.unitRes (.p ⟨8 + k, by omega⟩)).mean
    else 0

/-- 2^-16 ns as 2^-65 s. -/
def nsToX (v : Int) : Int := v * 2 ^ 49 / 1000000000

/-- 2^-65 s as 2^-16 ns. -/
def xToNs (x : Int) : Int := x * 1000000000 / 2 ^ 49

/-- Phase of member m from its latest result (R142). -/
def State.xFromResult (s : State) (m : Nat) : Int :=
  match s.carrier with
  | none => (s.member m).x
  | some k => (s.member k).x + nsToX (s.zPhase m)

/-- The published model of member m (ENS_LOm_PHASE, FREQ, DRIFT, TCO). -/
def State.showMember (s : State) (m : Nat) : State :=
  let r := s.member m
  let o := memOff m
  (((s.wrS64 (o + 0x0C) (xToNs r.x)).wrS48 (o + 0x14) (r.y / 2 ^ 16)).wrN (o + 0x1C) (wrapTo 32 r.d)).wrN (o + 0x20) (wrapTo 32 r.c)

/-- Member m enters WARMUP (R142): WARM_MAX and the warm-up test begin. -/
def State.enterWarm (s : State) (m : Nat) : State :=
  (s.modMember m (fun r => { r with warmTick := s.spn.ticks, warm := none, warmOk := false })).setMemState m 1

/-- The covariance of x and y multiplied by 16 (R142): xx, xy and yy. -/
def covWiden (p : List Int) : List Int := p.mapIdx (fun i v => if i = 0 ∨ i = 1 ∨ i = 4 then 16 * v else v)

/-- Member m has no weight (R139), shown at once in ENS_LOm_STAT and ENS_STAT. -/
def State.noWeight (s : State) (m : Nat) : State :=
  ((s.modMember m (fun r => { r with w := 0, wNext := 0 })).setF (memOff m + 4) 31 24 0).setB ensStat m false

/-- Member m enters REJOIN (R142): x from the latest result, the covariance of x and y widened, the model held for the prediction check. -/
def State.memRejoin (s : State) (m : Nat) : State :=
  let x := s.xFromResult m
  (((s.modMember m (fun r => { r with
    x := x, cov := covWiden r.cov, joinX := xToNs x, joinCyc := 0, joinY := r.y, joinD := r.d, joinC := r.c })).noWeight m).setMemState m 5).showMember m

/-- Member m fails (R142): FAILED with its cause, ENS/MEMBER_LOST, weight 0 (R140). A member that is FAILED already takes a new cause. DESIGN CHOICE
(log entry 55): until the next computed weights are in force the other members keep theirs, which then do not sum to 1: the spec is silent. -/
def State.memFail (s : State) (m cause : Nat) : State :=
  let warm := decide (s.memState m = 1)
  let again := decide (s.memState m = 4)
  let s := (s.modMember m (fun r => { r with fromWarm := if again then r.fromWarm else warm })).noWeight m
  ((s.setF (memOff m + 4) 7 4 cause).setMemState m 4).raise Flt.ensMemberLost (cause * 16 + m)

/-- A failure of member m has ended (R142). -/
def State.memReturn (s : State) (m : Nat) : State :=
  if (s.member m).fromWarm then s.enterWarm m else s.memRejoin m

/-- The failure of member m that stands (R142), as its CAUSE (R161): of its LO, three cycles without a result, or ten rejections in a row; 0 none.
Where several stand, the first of them is the cause (log entry 21). -/
def State.memCause (s : State) (m : Fin 4) : Nat :=
  if s.loFailed m then 1
  else if 3 ≤ (s.member m).noRes then 3
  else if 10 ≤ s.f (memOff m + 4) 23 16 then 6
  else 0

/-- A FAILED member looked at (R142): a failure that has ended takes it out; another one that stands becomes its cause. -/
def State.failedEval (s : State) (m : Fin 4) : State :=
  let c := s.memCause m
  if c = 0 then s.memReturn m else if c = s.f (memOff m + 4) 7 4 then s else s.memFail m c

/-- Member m is OFF (R142): its model is cleared, TREF with it. -/
def State.memOff0 (s : State) (m : Nat) : State :=
  (((((s.modMember m (fun _ => {})).noWeight m).setF (memOff m + 4) 23 16 0).setF (memOff m + 0x28) 15 0 0).setMemState m 0).showMember m

/-- Member m leaves OFF for WARMUP; an LO that has failed takes it to FAILED in the same round (R142). -/
def State.memStart (s : State) (m : Fin 4) : State :=
  let s := ((s.wrN (memOff m + 8) 0).modMember m (fun _ => { taken := (s.unit (.p ⟨8 + m.val, by omega⟩)).results })).enterWarm m
  if s.loFailed m then s.memFail m 1 else s

/-- Member m looked at after a round that changed its LO or its control register (R142). -/
def State.memberEval (s : State) (m : Fin 4) : State :=
  let st := s.memState m
  let s :=
    if !s.b (memOff m) 31 || !s.b 0x01100000 (8 + m.val) then
      if st = 0 then s else s.memOff0 m
    else if st = 0 then s.memStart m
    else if st = 4 then s.failedEval m
    else if s.loFailed m then s.memFail m 1
    else s
  s.ensStateEval.carrierEval

/-- The phase that the warm-up test of member m measures, 2^-16 ns, and what it is measured against (R142): the mean of the other members past
WARMUP, else TB0's selected candidate, else nothing. The candidate's phase is carried to the raw spine count by the phase of that count against the
ensemble at the candidate's T. -/
def State.warmPhase (s : State) (m : Nat) : Option (Nat × Int) :=
  let mean := fun (k : Nat) => if h : k < 4 then (s.unitRes (.p ⟨8 + k, by omega⟩)).mean else 0
  let ks := (List.range 4).filter (fun k => decide (k ≠ m) && decide (s.memState k = 2 ∨ s.memState k = 3 ∨ s.memState k = 5))
  if ks ≠ [] then some ((ks.map (fun k => 2 ^ k)).sum, mean m - (ks.map mean).sum / ks.length)
  else
    let c := s.selected 0
    if c = 0x1F then none
    else
      let r := s.candRes c
      let raw : Int := s.spn.rawPhase + s.compNow * 2 ^ 39 * ((s.spn.ticks : Int) - r.ticks) / 2 ^ 48
      some (16 + c, mean m - (residual r + raw / 2 ^ 24))

/-- One second of the warm-up test (R142): windows of 100 s, which start again when the reference changes; two in a row whose frequencies differ
by less than 1.0 × 10^-10, that is 10 ns over 100 s, pass it. -/
def warmStep (r : Member) (p : Option (Nat × Int)) : Member :=
  match p with
  | none => { r with warm := none }
  | some (ref, x) =>
    match r.warm with
    | some w =>
      if w.ref ≠ ref then { r with warm := some { ref := ref, start := x } }
      else if w.cnt + 1 < 100 then { r with warm := some { w with cnt := w.cnt + 1 } }
      else
        let d := x - w.start
        { r with warm := some { ref := ref, start := x, last := some d }
                 warmOk := r.warmOk || (match w.last with
                   | some e => decide ((d - e).natAbs < 655360)
                   | none => false) }
    | none => { r with warm := some { ref := ref, start := x } }

/-- WARMUP_END (R142): the warm-up test has passed with the alarm clear, or WARM_MAX has elapsed since entry; the member enters LEARNING with
phase from its latest result. Its frequency is what its results show, which the spec does not reduce to a formula, and its first covariance is
the filter's: free values. -/
def execWarmupEnd (m : Fin 4) (s : State) : Out :=
  let r := s.member m
  if s.memState m = 1 ∧ !s.loFailed m ∧ (r.warmOk ∨ (s.kindOf m).warmMax ≤ ticksSec r.warmTick s.spn.ticks) then
    let x := s.xFromResult m
    let y := s.takeFree 64
    let p := y.2.takeFrees 128 10
    let s := p.2.modMember m (fun r => { r with
      x := x, y := signedOf 64 y.1, cov := p.1, learnCyc := 0, trefSum := 0, trefCnt := 0, trefFixed := false
      warm := none })
    .next ((s.setMemState m 2).showMember m).ensStateEval.carrierEval
  else .next s

/-- TREF_FIXED (R137): after the member's first hour in LEARNING, 3,600 cycles, its reference temperature is fixed at the mean over it. An hour
without a sample fixes it at the last temperature the member had (DESIGN CHOICE, log entry 55). -/
def execTrefFixed (m : Fin 4) (s : State) : Out :=
  let r := s.member m
  if s.memState m = 2 ∧ !r.trefFixed ∧ 3600 ≤ r.learnCyc then
    .next ((s.setF (memOff m + 0x28) 15 0 (wrapTo 16 (if r.trefCnt = 0 then r.temp else r.trefSum / r.trefCnt))).modMember m (fun r => { r with trefFixed := true }))
  else .next s

/-- TRAINED (R142): TRAINED_SEC has reached TRAIN_MIN of the member's kind. -/
def execTrained (m : Fin 4) (s : State) : Out :=
  if s.memState m = 2 ∧ (s.kindOf m).trainMin ≤ (s.rd (memOff m + 8)).toNat then
    .next ((s.setMemState m 3).raise Flt.ensTrained m.val).ensStateEval
  else .next s

/-- The prediction check of R142 on a member at the end of REJOIN: the frequency its results show over the hour against the one that the model held
from entry predicts for now, drift and temperature term included, within m standard deviations of its own covariance. All in 2^-64. -/
def State.rejoinOk (s : State) (m : Nat) : Bool :=
  let r := s.member m
  let meas : Int := (xToNs (s.xFromResult m) - r.joinX) * 2 ^ 48 / (1000000000 * (max 1 r.joinCyc : Nat))
  let pred : Int := r.joinY + r.joinD * r.joinCyc
    + (if r.trefFixed then r.joinC * (r.temp - signedOf 16 (s.f (memOff m + 0x28) 15 0)) else 0)
  decide ((meas - pred) * (meas - pred) ≤ (s.conf : Int) * s.conf * r.cov.getD 4 0)

/-- MEMBER_REJOIN (R142): the 3,600 s timer expires and the prediction check decides. -/
def execMemberRejoin (m : Fin 4) (s : State) : Out :=
  if s.memState m = 5 ∧ 3600 ≤ (s.member m).joinCyc then
    let pass := s.rejoinOk m
    let trained := decide ((s.kindOf m).trainMin ≤ (s.rd (memOff m + 8)).toNat)
    let s := if pass && trained then s.setMemState m 3
      else if pass then s.setMemState m 2
      else (s.wrN (memOff m + 8) 0).setMemState m 2
    .next (s.raise Flt.ensMemberRejoin ((if pass then 0 else 16) + m.val)).ensStateEval
  else .next s

/-! ### Covariances (R137-R139) -/

/-- Place of element (i, j) of a covariance among xx, xy, xd, xc, yy, yd, yc, dd, dc, cc; i at most j. -/
def covIdx (i j : Nat) : Nat := [0, 3, 5, 6].getD i 0 + j

/-- Element (i, j) of a covariance. -/
def covAt (p : List Int) (i j : Nat) : Int := p.getD (if i ≤ j then covIdx i j else covIdx j i) 0

/-- Row i of F over `tau` seconds at `dt` from the reference temperature, 1/256 °C, in the units of the states (R138). -/
def fRow (tau : Nat) (dt : Int) (i : Nat) : List Int :=
  match i with
  | 0 => [1, 2 * tau, tau * tau, 2 * dt * tau]
  | 1 => [0, 1, tau, 0]
  | 2 => [0, 0, 1, 0]
  | _ => [0, 0, 0, 1]

/-- The form a · P · b. -/
def covForm (p a b : List Int) : Int :=
  ((List.range 4).map (fun k => ((List.range 4).map (fun l => a.getD k 0 * b.getD l 0 * covAt p k l)).sum)).sum

/-- F · P · F' over `tau` seconds (R138). -/
def covStep (tau : Nat) (dt : Int) (p : List Int) : List Int :=
  (List.range 4).flatMap (fun i => ((List.range 4).filter (fun j => decide (i ≤ j))).map (fun j => covForm p (fRow tau dt i) (fRow tau dt j)))

/-- Temperature of member m from its TREF, 1/256 °C; 0 until TREF is fixed (R137). -/
def State.tempOff (s : State) (m : Nat) : Int :=
  let r := s.member m
  if r.trefFixed then r.temp - signedOf 16 (s.f (memOff m + 0x28) 15 0) else 0

/-! ### The ensemble cycle (R138-R141) -/

/-- A temperature joins those that a member has seen (R137). -/
def Member.seen (r : Member) (t : Int) : Member :=
  { r with
    tMin := some (match r.tMin with
      | some a => min a t
      | none => t)
    tMax := some (match r.tMax with
      | some a => max a t
      | none => t) }

/-- The temperatures of the cycle (R137): the mean of the samples taken during it, at the register's resolution. The spec does not say what the
temperature is in a cycle without samples: the model keeps the last mean, 0 °C at first, for the temperature terms, and counts such a cycle neither in
the span nor in TREF (DESIGN CHOICE, log entry 55). -/
def State.cycTemp (s : State) (m : Nat) : State :=
  let learn := decide (s.memState m = 2)
  s.modMember m (fun r =>
    let r := { r with joinCyc := r.joinCyc + 1 }
    let first := learn && !r.trefFixed && decide (r.learnCyc < 3600)
    let r := if learn then { r with learnCyc := r.learnCyc + 1 } else r
    if r.tempCnt = 0 then r
    else
      let t := r.tempSum / r.tempCnt
      let r := ({ r with temp := t, tempSum := 0, tempCnt := 0 } : Member).seen t
      if first then { r with trefSum := r.trefSum + t, trefCnt := r.trefCnt + 1 } else r)

/-- Members the cycle predicts: LEARNING, TRAINED, REJOIN, or FAILED with cause MODEL (R138). -/
def State.cycled (s : State) (m : Nat) : Bool :=
  let st := s.memState m
  decide (st = 2 ∨ st = 3 ∨ st = 5 ∨ (st = 4 ∧ s.f (memOff m + 4) 7 4 = 6))

/-- Prediction of a member over one second (R138): the states exactly in the internal units, and P := F·P·F' + Q, whose Q the engine learns: free
values. -/
def State.predict (s : State) (m : Nat) : State :=
  if s.cycled m then
    let dt := s.tempOff m
    let q := s.takeFrees 64 10
    q.2.modMember m (fun r =>
      { r with x := r.x + 2 * r.y + r.d + 2 * r.c * dt, y := r.y + r.d
               cov := List.zipWith (· + ·) (covStep 1 dt r.cov) q.1 })
  else s

/-- Whether the member's unit completed a result since the last cycle. -/
def State.memNew (s : State) (m : Nat) : Bool :=
  if h : m < 4 then decide ((s.member m).taken < (s.unit (.p ⟨8 + m, by omega⟩)).results) else false

/-- New results are taken, and cycles without one counted. -/
def State.takeResults (s : State) (m : Nat) : State :=
  if h : m < 4 then
    let n := (s.unit (.p ⟨8 + m, by omega⟩)).results
    s.modMember m (fun r => if r.taken < n then { r with taken := n, noRes := 0 } else { r with noRes := r.noRes + 1 })
  else s

/-- Verdict of the gate on member m against carrier k (R138): v*v > GATE*GATE*S rejects. S, the variance of the innovation, is the phase variances of
the two and that of the measurement, which the spec does not give: a free value. -/
def State.gate (s : State) (k m : Nat) : Bool × State :=
  let v := nsToX (s.zPhase m) - ((s.member m).x - (s.member k).x)
  let f := s.takeFree 64
  let g : Int := s.f 0x01400010 15 8
  (decide (v * v > g * g * (covAt (s.member m).cov 0 0 + covAt (s.member k).cov 0 0 + f.1)), f.2)

/-- The gate over a list of members: the rejected ones. -/
def State.gates (s : State) (k : Nat) : List Nat → List Nat × State
  | [] => ([], s)
  | m :: r =>
    let a := s.gate k m
    let b := State.gates a.2 k r
    (if a.1 then m :: b.1 else b.1, b.2)

/-- A result of member m is rejected (R138): counts, ENS/OUTLIER, and MODEL failure at the tenth in a row. -/
def State.memReject (s : State) (m : Nat) : State :=
  let s := ((s.countSat (memOff m + 4) 23 16 1).countSat (memOff m + 0x24) 15 0 1).raise Flt.ensOutlier m
  if 10 ≤ s.f (memOff m + 4) 23 16 ∧ s.memState m ≠ 4 then s.memFail m 6 else s

/-- The update of a member's states and covariance, whose gains the spec leaves to the filter (R138): free values. -/
def State.memFree (s : State) (m : Nat) : State :=
  let a := s.takeFree 96
  let b := a.2.takeFree 64
  let c := b.2.takeFree 32
  let d := c.2.takeFree 32
  let p := d.2.takeFrees 128 10
  p.2.modMember m (fun r => { r with x := signedOf 96 a.1, y := signedOf 64 b.1, d := signedOf 32 c.1
                                     c := if r.trefFixed then signedOf 32 d.1 else r.c
                                     cov := p.1 })

/-- A result of member m passes (R138): the run of rejections ends, and with it a MODEL failure; a member not FAILED is updated, and
the carrier with it. -/
def State.memPass (s : State) (k m : Nat) : State :=
  let s := s.setF (memOff m + 4) 23 16 0
  if s.memState m = 4 then s else (s.memFree m).memFree k

/-- The gated members of one cycle (R138): all rejected, when they are two or more, is the carrier's rejection. Any other cycle, one in which fewer than
two members were gated among them, ends the carrier's run of rejections: the spec is silent there, and this is the model's choice (log
entry 44). -/
def State.gateAll (s : State) (k : Nat) (ms : List Nat) : State :=
  let g := s.gates k ms
  if 2 ≤ ms.length ∧ g.1.length = ms.length then g.2.memReject k
  else ms.foldl (fun s m => if m ∈ g.1 then s.memReject m else s.memPass k m) (g.2.setF (memOff k + 4) 23 16 0)

/-- STALE (R142): three cycles without a result; and a FAILED member looked at. -/
def State.staleEval (s : State) (m : Nat) : State :=
  let st := s.memState m
  if h : m < 4 then
    if st = 4 then s.failedEval ⟨m, h⟩ else if st ≠ 0 ∧ 3 ≤ (s.member m).noRes then s.memFail m 3 else s
  else s

/-- Weight in force of a member, 2^-32, 0 outside LEARNING and TRAINED. -/
def State.weight (s : State) (m : Nat) : Nat :=
  if s.memState m = 2 ∨ s.memState m = 3 then (s.member m).w else 0

/-- The sum of the weights in force. -/
def State.weightSum (s : State) : Nat := ((List.range 4).map s.weight).sum

/-- The constraint (R138, R140), with the weights of the cycle before: the weighted means of phase and frequency are 0 when the first weights come into
force (`fresh`), and from then on they do not move: what prediction and updates added to the means of the states before, `pre`, is taken off every
member. While the weights stay as they are that is the sum of 0 of R138; a change of weights or a failure moves the time scale neither in
phase nor in frequency (R140; log entry 21). -/
def State.constrain (s : State) (fresh : Bool) (pre : List (Int × Int)) : State :=
  let tot := s.weightSum
  if tot = 0 then s
  else
    let mean := fun (g : Nat → Int) => ((List.range 4).map (fun m => (s.weight m : Int) * g m)).sum / (tot : Int)
    let was := fun (m : Nat) => if fresh then (0, 0) else pre.getD m (0, 0)
    let mx := mean (fun m => (s.member m).x - ((was m).1 + 2 * (was m).2))
    let my := mean (fun m => (s.member m).y - (was m).2)
    (List.range 4).foldl (fun s m => if s.cycled m then s.modMember m (fun r => { r with x := r.x - mx, y := r.y - my }) else s) s

/-- Shares of the weights still free of their caps (R139): `l` lists member, inverse variance and cap; each round fixes the
members above their caps and shares the rest in proportion. All 2^-32. -/
def capWeights : Nat → List (Nat × Nat × Nat) → Nat → List (Nat × Nat)
  | 0, _, _ => []
  | fuel + 1, l, left =>
    let tot := (l.map (fun e => e.2.1)).sum
    let share := fun (e : Nat × Nat × Nat) => if tot = 0 then 0 else e.2.1 * left / tot
    let above := l.filter (fun e => decide (e.2.2 < share e))
    if above = [] then l.map (fun e => (e.1, share e))
    else
      let rest := l.filter (fun e => !decide (e.2.2 < share e))
      above.map (fun e => (e.1, e.2.2)) ++ capWeights fuel rest (left - (above.map (fun e => e.2.2)).sum)

/-- Inverse variances of the members with their caps (R139): the phase element of the covariance after one prediction over ENS_TAUW, F·P·F' + Q, whose Q
is a free value. -/
def State.variances (s : State) : List Nat → List (Nat × Nat × Nat) × State
  | [] => ([], s)
  | m :: r =>
    let f := s.takeFree 128
    let v := (covAt (covStep (s.rd 0x01400014).toNat (s.tempOff m) (s.member m).cov) 0 0 + f.1).toNat
    let b := State.variances f.2 r
    ((m, 2 ^ 320 / (v + 1), s.f (memOff m) 15 8 * 2 ^ 32 / 255) :: b.1, b.2)

/-- New weights (R139), in force from the next cycle on (R140). -/
def State.newWeights (s : State) : State :=
  let v := s.variances ((List.range 4).filter (fun m => decide (s.memState m = 2 ∨ s.memState m = 3)))
  let capped := (v.1.map (fun e => e.2.2)).sum < 2 ^ 32
  let l := if capped then v.1.map (fun e => (e.1, e.2.1, 2 ^ 32)) else v.1
  let ws := capWeights 5 l (2 ^ 32)
  ws.foldl (fun s w => s.modMember w.1 (fun r => { r with wNext := w.2 })) ((List.range 4).foldl (fun s m => s.modMember m (fun r => { r with wNext := 0 })) v.2)

/-- The weights that the cycle before computed come into force (R140). -/
def State.useWeights (s : State) : State := (List.range 4).foldl (fun s m => s.modMember m (fun r => { r with w := r.wNext })) s

/-- The weights in force shown in ENS_LOm_STAT, to the nearest 1/255 (DESIGN CHOICE, log entry 55), and ENS_STAT.IN_USE. -/
def State.showWeights (s : State) : State :=
  (List.range 4).foldl (fun s m => (s.setF (memOff m + 4) 31 24 ((s.weight m * 255 + 2 ^ 31) / 2 ^ 32)).setB ensStat m (decide (0 < s.weight m))) s

/-- TRAINED_SEC counts in LEARNING and TRAINED (R142). -/
def State.trainedSec (s : State) (m : Nat) : State :=
  if s.memState m = 2 ∨ s.memState m = 3 then s.countSat (memOff m + 8) 31 0 1 else s

/-- COMP takes the value of the cycle (R141); during a ramp the ramp's end does. -/
def State.cycComp (s : State) : State :=
  match s.carrier with
  | none => s
  | some k =>
    match s.spn.ramp with
    | some _ => let c := s.compFor s.ens.rampTo; s.modSpn (fun p => { p with ramp := p.ramp.map (fun r => { r with toComp := c }) })
    | none => let c := s.compFor k; s.modSpn (fun p => { p with comp := c })

/-! ### Reference track and envelope (R145-R148) -/

/-- The reference track of a LOCKED base (R146): a residual of the followed candidate after an earlier one of it shows the frequency
-(dx/dT) × 2^48, from which the two-state estimator, whose gains the spec does not state, forms YH and DH. In every other state the estimate is
frozen. -/
def State.track (s : State) (n : Nat) : State :=
  if s.tbState n = stLOCKED then
    let o := ensOff n
    let c := s.followed n
    let r := s.candRes c
    let x := residual r
    let s1 := s.modCtl n (fun k => { k with trk := some (c, x, r.time) })
    match (s.ctl n).trk with
    | some (c0, x0, t0) =>
      if c0 = c ∧ t0 < r.time ∧ !r.restart then
        let y := 0 - (x - x0) * 2 ^ 48 / (r.time - t0)
        let e := Config.trackStep (s.rd 0x01400018).toNat (signedOf 48 (s.rd64 (o + 0x94) % 2 ^ 48)) (signedOf 32 (s.rd (o + 0x9C)).toNat) y
          ((r.time - t0) / sec16)
        ((s1.wrS48 (o + 0x94) e.1).wrN (o + 0x9C) (wrapTo 32 e.2)).modCtl n (fun k => { k with th := s.spn.ticks, fitted := true })
      else if t0 = r.time ∧ c0 = c then s
      else s1
    | none => s1
  else s.modCtl n (fun k => { k with trk := none })

/-- The floor in force of k2 and kT (R147). -/
def State.floors (s : State) : Nat × Nat :=
  let ms := (List.range 4).filter (fun m => decide (0 < s.weight m))
  let young := ms.filter (fun m => decide (s.memState m ≠ 3))
  let narrow := ms.filter (fun m =>
    decide (s.memState m ≠ 3) || (match (s.member m).tMin, (s.member m).tMax with
      | some a, some b => decide (b - a < 512)
      | _, _ => true))
  ((young.map (fun m => (s.kindOf m).k2)).foldl max 0, (narrow.map (fun m => (s.kindOf m).kT)).foldl max 0)

/-- The envelope coefficients (R147), unbounded in NONE (R143): m of ENS_CTL.CONF times the standard deviations that the engine's covariances give,
which the spec does not reduce to numbers: free values; not below the floors. k0, k1 and k2 need a track that has been fitted, kT a temperature
coefficient learned by every member in use. -/
def State.envelope (s : State) (n : Nat) : State :=
  if s.f ensStat 11 10 = 0 then s.setEnv n (unb, unb, unb, unb)
  else
    let fl := s.floors
    let k := fun (i : Nat) (l : List Int) => satAt unb (s.conf * (l.getD i 0).toNat)
    let q := s.takeFrees 32 4
    let fit := (s.ctl n).fitted
    let tc := decide (0 < s.weightSum) && (List.range 4).all (fun m => decide (s.weight m = 0) || (s.member m).trefFixed)
    q.2.setEnv n (if fit then k 0 q.1 else unb, if fit then k 1 q.1 else unb, if fit then max fl.1 (k 2 q.1) else unb,
      if tc then max fl.2 (k 3 q.1) else unb)

/-- TDEV of a base (R148), rounded up to 1/256 °C; a member with TEMP_FAIL counts as 10.0 °C. -/
def State.tdev (s : State) (n : Nat) : Nat :=
  let w := (List.range 4).map (fun m =>
    let r := s.member m
    let d : Nat := if s.b (loOff m + 8) 6 then 2560
      else match (s.ctl n).tempH with
        | some l => (r.temp - l.getD m r.temp).natAbs
        | none => 0
    s.weight m * d)
  ceilDiv w.sum (2 ^ 32)

/-- The part of a cycle that concerns one unyoked base: track, envelope, TDEV, TINT (R167), FNOW in HOLDOVER (R156). -/
def State.cycBase (s : State) (n : Nat) : State :=
  let s := (s.track n).envelope n
  let td := satAt 0xFFFF (s.tdev n)
  let s := s.setF (ensOff n + 0xB4) 15 0 td
  let s := if s.phaseHold n then
      s.wr64 (bndOff n + 0x2C) (satAt (2 ^ 48 - 1) (s.tint n + td))
    else s
  if s.tbState n = stHOLDOVER then s.setFnow n (s.hp n) else s

/-- Cycle k is complete (R138): the cycle of the second that TB0 counts now has run. -/
def State.cycleDone (s : State) : Bool := decide (s.ens.sec = s.tbSec 0)

/-- One cycle of the engine (R138), COMP (R141), and the evaluations it triggers (R165). -/
def State.ensembleCycle (s : State) : State :=
  let ms := List.range 4
  let s := ms.foldl State.cycTemp s
  let fresh := decide (s.weightSum = 0)
  let pre := ms.map (fun m => ((s.member m).x, (s.member m).y))
  let s := ms.foldl State.predict s.useWeights.showWeights
  let new := ms.filter s.memNew
  let s := ms.foldl State.takeResults s
  let s := match s.carrier with
    | some k => s.gateAll k (new.filter (fun m => decide (m ≠ k) && s.cycled m))
    | none => s
  let s := ((ms.foldl State.staleEval s).constrain fresh pre).newWeights
  let s := ms.foldl (fun s m =>
    let p := s.warmPhase m
    s.modMember m (fun r => if s.memState m = 1 then warmStep r p else r)) s
  let s := ms.foldl State.trainedSec s
  let s := ms.foldl State.showMember s
  let s := s.ensStateEval.carrierEval.cycComp.count 0x01400024 31 0 1
  let s := { s with ens := { s.ens with carSwitch := false, sec := s.tbSec 0 } }
  let s := s.freeBases.foldl State.cycBase s
  s.freeBases.foldl (fun s n => s.boundEvalAt n 1) s

end Sys2Proof.Machine
end

