-- ==== Sys2Proof/Machine/Servo.lean ====
section
/-! DEFINITION. The servos and the time-base states (05 R149-R160). -/
namespace Sys2Proof.Machine

/-- A quotient rounded to nearest, ties away from zero (R150). -/
def roundDiv (a : Int) (b : Nat) : Int :=
  if b = 0 then 0
  else
    let q : Int := ((2 * a.natAbs + b) / (2 * b) : Nat)
    if a < 0 then 0 - q else q

/-- An integer clamped to ±m. -/
def clampInt (v m : Int) : Int := if v > m then m else if v < 0 - m then 0 - m else v

/-- Profile in force of a base (ENS_TBn_STAT.PROF). -/
def State.prof (s : State) (n : Nat) : Nat := s.f (ensOff n + 4) 27 26

/-- Offset of the gains of the profile in force. -/
def State.profOff (s : State) (n : Nat) : Nat := ensOff n + 0x40 + s.prof n * 0x10

/-- INTEG, 2^-48. -/
def State.integ (s : State) (n : Nat) : Int := signedOf 48 (s.rd64 (ensOff n + 0x8C) % 2 ^ 48)

/-- INTEG set. -/
def State.setInteg (s : State) (n : Nat) (v : Int) : State := s.wrS48 (ensOff n + 0x8C) v

/-! ### Time-base states (R156) -/

/-- The servo begins to follow the selected candidate in state `st`: FIRST is set, the anchor and the results before are dropped (R150,
R151). -/
def State.follow (s : State) (n c st : Nat) : State :=
  let k := (s.candRes c).count
  ((s.setB (ensOff n + 4) 24 true).setF (ensOff n + 4) 4 0 c).modCtl n (fun x => { x with anchor := none, taken := k, firstSt := st })

/-- The servo of a base stops: it follows nothing. -/
def State.unfollow (s : State) (n : Nat) : State := (s.setB (ensOff n + 4) 24 false).setF (ensOff n + 4) 4 0 0x1F

/-- ENS/LOCKED and ENS/UNLOCK and their kin raised for a base: base and candidate (R161). -/
def tbCtx (n c : Nat) : Nat := n * 2 ^ 28 + c

/-- The state machine of a base looked at after a change of its selection or MODE (R156). A base that does not count yet, before RUN, is in none of
its states. -/
def State.tbEval (s : State) (n : Nat) : State :=
  if !s.freeBase n ∨ s.tbState n = 0 then s
  else
    let st := s.tbState n
    let sel := s.selected n
    let fol := s.followed n
    if s.tbHost n then
      if st = stHOST then s else (s.unfollow n).setTbState n stHOST (tbCtx n 0)
    else if st = stHOST ∨ st = stFREERUN then
      if sel = 0x1F then
        if st = stHOST then s.setTbState n stFREERUN (tbCtx n 0) else s
      else
        let v := (s.base n).fnow - s.ffTerm n
        ((s.setInteg n v).follow n sel stACQUIRING).setTbState n stACQUIRING (tbCtx n sel)
    else if st = stHOLDOVER then
      if sel = 0x1F then s
      else
        let v := s.hp n - s.ffTerm n
        let s := ((s.setInteg n v).follow n sel stEXIT).raise Flt.ensHoldoverExit (tbCtx n sel)
        s.setTbState n stEXIT (tbCtx n sel)
    else if sel = 0x1F then
      if st = stACQUIRING ∧ !(s.ctl n).everLocked then (s.unfollow n).setTbState n stFREERUN (tbCtx n 0)
      else
        let s := ((s.unfollow n).setFnow n (s.hp n)).raise Flt.ensHoldoverEnter (tbCtx n 0)
        s.setTbState n stHOLDOVER (tbCtx n 0)
    else if sel ≠ fol then (s.follow n sel st).boundEval n
    else s

/-! ### The update (R149-R154) -/

/-- B_meas of a result (06, table of sources): SYS plus m × SD / √N, in 2^-8 ns, rounded up. -/
def State.measOf (s : State) (r : CandRes) : Nat :=
  let m := s.conf
  let q := ceilDiv (m * m * r.sd * r.sd) (65536 * (max 1 r.n))
  let b := isqrt q
  sumTerms [r.sys, satAt unb (if b * b < q then b + 1 else b)]

/-- RESID (R154): the largest |e| of the last 16 updates, 2^-8 ns, rounded up. -/
def residOf (l : List Nat) : Nat := satAt unb (ceilDiv (l.foldl max 0) 256)

/-- What is held of a time-and-phase result (R164, R166): its T, its terms, and the coefficients published now. -/
def State.heldOf (s : State) (n c : Nat) (r : CandRes) : Held :=
  { tick := some r.ticks, ref := s.uEff c, meas := s.measOf r, servo := (s.rd (ensOff n + 0x88)).toNat, k := s.envK n }

/-- An applied result becomes what the base holds from (R158, R164, R166): at once, or in EXIT when the base leaves it. HOLD_SEC counts from the last
applied result of any class and HOLD_T from the last time-and-phase one; that the two may differ after frequency-only following, where R164
calls them equal, is the model's choice (log entry 44). -/
def State.holdNow (s : State) (n c : Nat) (r : CandRes) : State :=
  let h := s.heldOf n c r
  let fo := s.candFreqOnly c
  if s.tbState n = stEXIT then
    s.modCtl n (fun x => { x with exitSec := some r.ticks, exitHeld := if fo then x.exitHeld else some h })
  else s.modCtl n (fun x => { x with secTick := some r.ticks, held := if fo then x.held else h })

/-- Records of an applied result: e, RESID, UPDATES, the candidate, its statistics and time, the member temperatures (R148), what phase
hold would hold. A time-and-phase result clears TINT (R167). Every applied result counts as a reference measurement of R148, those of a
frequency-only candidate and those in EXIT among them, which is the model's choice (log entry 44). -/
def State.applied (s : State) (n c : Nat) (r : CandRes) (e : Int) : State :=
  let o := ensOff n
  let errs := (e.natAbs :: (s.ctl n).errs).take 16
  let meas := s.measOf r
  let temps := (List.range 4).map (fun m => (s.member m).temp)
  let s := (((s.wrS64 (o + 0x80) e).wrN (o + 0x88) (residOf errs)).count (o + 0xB8) 31 0 1)
  let s := s.modCtl n (fun x => { x with
    errs := errs, lastCand := some c, meas := meas, taken := r.count
    prevT := some (r.timeIn.getD n r.time), tempH := some temps
    refT := if s.candFreqOnly c then x.refT else r.timeIn })
  let s := if s.candFreqOnly c then s else s.wr64 (bndOff n + 0x2C) 0
  s.holdNow n c r

/-- R170: the first error after a selection change against the bound before it and the terms of the new candidate. -/
def State.exceeded (s : State) (n c : Nat) (r : CandRes) (e : Int) : State :=
  let a := e.natAbs / 256
  let p := (s.rd (bndOff n)).toNat
  let lim := sumTerms [p, s.uEff c, s.measTerm (s.measOf r)]
  if lim ≠ unb ∧ lim < a then
    let ctx := n * 2 ^ 28 + satAt (2 ^ 28 - 1) (e.natAbs / 65536)
    let s := ((s.raise Flt.bndExceeded ctx).irq .bnd 0).countSat (bndOff n + 0x34) 15 0 1
    (s.modCtl n (fun x => { x with exceeded := some s.spn.ticks })).traceEvent n 3 ctx
  else s

/-- The servo adds `d`, 2^-16 ns, to its share of PEND (R150). -/
def State.addPendServo (s : State) (n : Nat) (d : Int) : State :=
  s.modBase n (fun b => { b with pendServo := b.pendServo + d * 2 ^ 24 })

/-- Whether a step is permitted in the state FIRST was set in (R151). -/
def State.stepPermitted (s : State) (n : Nat) : Bool :=
  let st := (s.ctl n).firstSt
  if st = stACQUIRING then s.lb (ensOff n) 0
  else if st = stLOCKED then s.lb (ensOff n) 1
  else if st = stEXIT then s.lb (ensOff n) 2
  else false

/-- The first update after a selection change (R150-R152): a permitted step whole, else the pending correction. -/
def State.firstUpdate (s : State) (n : Nat) (e : Int) : State :=
  let s := s.setB (ensOff n + 4) 24 false
  if (s.lv (ensOff n + 0x10)).toNat * 256 < e.natAbs ∧ s.stepPermitted n then
    (s.moveBase n (0 - e * 2 ^ 24)).raise Flt.ensStep (n * 2 ^ 28 + (if 0 < e then 1 else 0))
  else s.addPendServo n (0 - e)

/-- RUN and URUN after an update (R154). -/
def State.runCount (s : State) (n : Nat) (e : Int) : State :=
  let o := ensOff n
  let ok := decide (e.natAbs ≤ (s.lv (o + 0x14)).toNat * 256)
  let bad := decide ((s.lv (o + 0x18)).toNat * 256 < e.natAbs)
  let s := s.modCtl n (fun x => { x with run := if ok then x.run + 1 else 0, urun := if bad then x.urun + 1 else 0 })
  s.setF (o + 4) 23 16 (satAt 0xFF (if s.tbState n = stLOCKED then (s.ctl n).urun else (s.ctl n).run))

/-- An update that is not the first (R150): integrator, pending correction, frequency. -/
def State.piUpdate (s : State) (n : Nat) (e : Int) (tau : Nat) : State :=
  let o := s.profOff n
  let fmax : Int := (s.lv (o + 8)).toNat
  let i := clampInt (s.integ n - roundDiv ((s.lv (o + 4)).toNat * e * tau) (2 ^ 32 * sec16)) fmax
  let s1 := (s.setInteg n i).addPendServo n (0 - roundDiv ((s.lf o 15 0 : Nat) * e * tau) (2 ^ 16 * sec16))
  (s1.setFnow n (i + s1.ffTerm n)).runCount n e

/-- The run counts looked at (R156): LOCKED at LOCK_CNT, back to ACQUIRING at UNLOCK_CNT. -/
def State.lockEval (s : State) (n c : Nat) : State :=
  let o := ensOff n
  let st := s.tbState n
  let x := s.ctl n
  if (st = stACQUIRING ∨ st = stEXIT) ∧ s.lf (o + 0x1C) 7 0 ≤ x.run then
    ((s.modCtl n (fun x => { x with everLocked := true })).raise Flt.ensLocked (tbCtx n c)).setTbState n stLOCKED (tbCtx n c)
  else if st = stLOCKED ∧ s.lf (o + 0x1C) 15 8 ≤ x.urun then
    (s.raise Flt.ensUnlock (tbCtx n c)).setTbState n stACQUIRING (tbCtx n c)
  else s

/-- One servo update of base n on result r of candidate c (R149-R154, R170). -/
def State.servoUpdate (s : State) (n c : Nat) (r : CandRes) : State :=
  let mean := r.meanIn.getD n r.mean
  let first := s.b (ensOff n + 4) 24
  let s := if s.candFreqOnly c ∧ (s.ctl n).anchor = none then s.modCtl n (fun x => { x with anchor := some mean }) else s
  let anchor := if s.candFreqOnly c then (s.ctl n).anchor.getD 0 else 0
  let e := mean - anchor + (s.base n).pendServo / 2 ^ 24
  let t := r.timeIn.getD n r.time
  let tau : Nat := match (s.ctl n).prevT with
    | some p => if p < t then (t - p).toNat else sec16
    | none => sec16
  if first then
    let s := s.exceeded n c r e
    ((s.applied n c r e).firstUpdate n e).boundEval n
  else
    let s := (s.applied n c r e).piUpdate n e tau
    (s.lockEval n c).boundEval n

/-- A new result of the candidate a base follows reaches its servo (R149). A base that follows nothing, or whose candidate has no new result,
does nothing. -/
def State.servoTake (s : State) (n : Nat) : State :=
  let c := s.followed n
  let r := s.candRes c
  if s.freeBase n ∧ !s.tbHost n ∧ c ≠ 0x1F ∧ (s.ctl n).taken < r.count then s.servoUpdate n c r else s

end Sys2Proof.Machine
end

