-- ==== Sys2Proof/Machine/Select.lean ====
section
/-! DEFINITION. Qualification of the candidates and selection per time base (04 R116-R135). -/
namespace Sys2Proof.Machine

/-! ### Candidates and their inputs -/

/-- Candidate states (04). -/
def cOFF : Nat := 0
def cUNAVAIL : Nat := 1
def cFAILED : Nat := 2
def cQUALIFYING : Nat := 3
def cSOFT : Nat := 4
def cWTR : Nat := 5
def cQUALIFIED : Nat := 6

/-- SEL_CANDc_STAT. -/
def cStat (c : Nat) : Nat := candOff c + 0x10

/-- State of candidate c. -/
def State.candState (s : State) (c : Nat) : Nat := s.f (cStat c) 2 0

/-- Monitor record of candidate c. -/
def State.mon (s : State) (c : Nat) : CandMon := s.ens.cands.getD c {}

/-- Monitor record of candidate c changed by `g`. -/
def State.modMon (s : State) (c : Nat) (g : CandMon → CandMon) : State :=
  { s with ens := { s.ens with cands := listMod s.ens.cands c g } }

/-- Port of a lane (MAC_CAP.GROUP): lanes 4g to 4g + 3 of a group form the port of the lowest. -/
def State.portOf (s : State) (m : Nat) : Nat := if s.b 0x02100000 (16 + m / 4) then m / 4 * 4 else m

/-- Window of lane m in LAN. -/
def lanOff (m : Nat) : Nat := 0x02001000 + m * 0x100
/-- Window of client instance k in PKT. -/
def cliOff (k : Nat) : Nat := 0x02204000 + k * 0x100

/-- ESMC silence of a lane candidate: five seconds without an information PDU (R277). -/
def State.esmcSilent (s : State) (m : Nat) : Bool := decide (5 ≤ s.f (macOff (s.portOf m) + 0x44) 23 16)

/-- No TIME frame has arrived for the current second (R372): one comes each second of the peer's base, and it counts as missing once a second and the
TND_HB_TO by which a live link delivers have passed since the last one (log entry 61). -/
def State.timeMissing (s : State) : Bool :=
  match s.tnd.timeTick with
  | some t => decide (t + 2000000000 + s.f 0x02500044 15 0 * 2000 < s.spn.ticks)
  | none => true

/-- Whether a candidate's source has failed (04, candidate table; R89, R226, R308, R372). -/
def State.candSrcFail (s : State) (c : Nat) : Bool :=
  if h : c < 8 then s.srcFailed (.refin ⟨c, h⟩)
  else if c < 24 then decide (s.f (lanOff (c - 8) + 4) 31 28 ≠ 5) || s.esmcSilent (c - 8)
  else if c = 24 then decide (s.f 0x01800014 31 28 ≠ 3)
  else if c = 25 then
    decide (s.f 0x02500018 31 28 ≠ 4) || decide (s.f 0x02500014 31 30 = 2) || decide (s.tnd.peerRole ≠ 2)
      || s.timeMissing || decide (s.tnd.peerBound = unb)
  else decide (s.f (cliOff (c - 26) + 0x28) 31 28 ≠ 3)

/-- Whether a candidate's measuring unit is missing, failing its calibration, or without power (04, candidate table). -/
def State.candUnavail (s : State) (c : Nat) : Bool :=
  let unit : Bool := match s.candUnit c with
    | some (.p k) => decide (3 ≤ (s.unit (.p k)).fails)
    | some (.lane m) => s.b (tiuOff (.lane m) + 8) 4
    | none => true
  if c < 8 then unit || !s.domOn 2
  else if c < 24 then unit || !s.domOn 7
  else if c = 24 then unit || !s.domOn 8
  else if c = 25 then (decide (s.c25Src ≠ 1) && unit) || !s.domOn 9
  else !s.domOn 7 || !s.domOn 5

/-! ### Quality and uncertainty (R119-R121) -/

/-- QL of an ESMC quality (R120). -/
def qlEsmc (ssm essm : Nat) : Nat :=
  if ssm = 2 ∧ essm = 0x21 then 0
  else if ssm = 2 ∧ (essm = 0x20 ∨ essm = 0x23) then 1
  else if ssm = 2 ∧ essm = 0 then 2
  else if ssm = 4 then 3
  else if ssm = 8 then 4
  else if ssm = 0xB ∧ essm = 0x22 then 5
  else if ssm = 0xB ∧ essm = 0 then 6
  else 15

/-- QL of a PTP clockClass and clockAccuracy (R120); codes below 0x17 are reserved and name no accuracy. -/
def qlPtp (cls acc : Nat) : Nat :=
  if cls = 6 then (if 0x17 ≤ acc ∧ acc ≤ 0x20 then 0 else 1)
  else if cls = 7 ∨ cls = 135 then 2
  else if cls = 140 then 3
  else if cls = 150 then 4
  else if cls = 160 then 5
  else if cls = 165 then 6
  else if cls = 52 ∨ cls = 58 ∨ cls = 187 ∨ cls = 193 then 7
  else if cls = 248 then 14
  else 15

/-- QL of a Vane grade (R120). -/
def qlGrade (g : Nat) : Nat := if g = 0 then 0 else if g = 1 then 1 else if g = 2 then 4 else 15

/-- QL of candidate c for quality input `qin` (R120; SEL_CANDc_QIN layout). Candidates 0 to 7 have QL_DEF; 25 has the peer's QL. -/
def State.qlOf (s : State) (c : Nat) (qin : Word) : Nat :=
  if c < 8 then s.f (candOff c) 15 12
  else if c < 24 then (if s.esmcSilent (c - 8) then 15 else qlEsmc (qin.field 3 0) (qin.field 15 8))
  else if c = 24 then qlGrade (qin.field 7 4)
  else if c = 25 then s.tnd.peerQl
  else qlPtp (qin.field 23 16) (qin.field 31 24)

/-- The uncertainty a source reports (R119): the solution's TU, the peer's bound, the bound of the client's last Announce, held
beside it in the same unit. -/
def State.reportedU (s : State) (c : Nat) : Nat :=
  if c = 25 then s.tnd.peerBound
  else if 24 ≤ c then (s.srcRes.getD (c - 24) {}).unc
  else 0

/-- UEFF of candidate c brought up to date (R119). -/
def State.ueffEval (s : State) (c : Nat) : State :=
  s.wrN (candOff c + 0x0C) (max (s.rd (candOff c + 8)).toNat (s.reportedU c))

/-- QL and UEFF of candidate c after a write to its control registers (R119, R120): a candidate without a quality input takes QL_DEF, any other keeps
the level of its last input. -/
def State.ctlIn (s : State) (c : Nat) : State :=
  (if c < 8 then s.setF (cStat c) 19 16 (s.qlOf c 0) else s).ueffEval c

/-- A quality input of candidate c (R119, R120): QIN, QL and UEFF. -/
def State.qualityIn (s : State) (c : Nat) (qin : Word) : State :=
  let s := s.wr (candOff c + 0x14) qin
  (s.setF (cStat c) 19 16 (s.qlOf c qin)).ueffEval c

/-! ### Monitors (R122-R125) -/

/-- f[w] registers of candidate c: F1, F10, F100. -/
def fOff (c w : Nat) : Nat := candOff c + (if w = 1 then 0x18 else if w = 10 then 0x20 else 0x28)

/-- Filled flag bit of a window. -/
def fillBit (w : Nat) : Nat := if w = 1 then 8 else if w = 10 then 9 else 10

/-- f[w] of candidate c, 2^-48. -/
def State.fw (s : State) (c w : Nat) : Int := signedOf 48 (s.rd64 (fOff c w) % 2 ^ 48)

/-- Limit register `r` of the candidate's profile. -/
def State.profReg (s : State) (c r : Nat) : Nat := (s.rd (0x01300100 + s.f (candOff c) 26 24 * 0x40 + r)).toNat

/-- The monitors of a candidate are reset (R125). -/
def State.monReset (s : State) (c : Nat) : State :=
  let s := s.modMon c (fun m => { m with hist := [], splus := 0, sminus := 0, stale := 0 })
  ((s.setF (cStat c) 10 8 0).wr (candOff c + 0x30) 0).wr (candOff c + 0x34) 0

/-- Candidate c has a new result (R122, R125): the STALE count returns to 0, and a result with RESTART resets the monitors. -/
def State.monResult (s : State) (c : Nat) (restart : Bool) : State :=
  let s := s.modMon c (fun m => { m with stale := 0 })
  if restart then s.monReset c else s

/-- A unit has completed a result: it is a new result of the candidates the unit measures. Candidate 24 gets its own with the solution
(R225); a RESTART of its unit resets its monitors now. The peer PPS gives candidate 25 its own with the TIME frame (R372). -/
def State.unitResult (s : State) (u : TiuId) : State :=
  let restart := (s.unit u).resRestart
  (List.range 26).foldl (fun s c =>
    if s.candUnit c = some u then
      if c = 24 then (if restart then s.monReset c else s)
      else if c = 25 ∧ s.c25Src = 0 then s
      else s.monResult c restart
    else s) s

/-- The last TIME frame is the one of the edge with which a result ended: it came within a second after it (R372). -/
def State.peerTimed (s : State) (r : CandRes) : Bool :=
  match s.tnd.timeTick with
  | some t => decide (r.ticks ≤ t) && decide (t < r.ticks + 2000000000)
  | none => false

/-- The result of the peer PPS that waits takes the second of the TIME frame of its edge, once that has come; under C25_SRC = PPS it is a new result
of candidate 25 (R372-R374). -/
def State.peerResult (s : State) : State :=
  match s.tnd.edgeWait, s.routedUnit .peerPps with
  | some restart, some k =>
    let r := s.unitRes (.p k)
    if s.peerTimed r then
      let d := s.peerShift r
      let old := s.tnd.ppsRes
      let res : CandRes := { r with count := old.count + 1, mean := r.mean + d, meanIn := r.meanIn.map (· + d), restart := restart }
      let s : State := { s with tnd := { s.tnd with ppsRes := res, edgeWait := none } }
      (if s.c25Src = 0 then (s.monResult 25 restart).c25Result else s).xchkEval.healthFall
    else s
  | _, _ => s

/-- A result of the unit on the peer PPS is complete: it waits for its TIME frame. -/
def State.peerEdge (s : State) (restart : Bool) : State :=
  ({ s with tnd := { s.tnd with edgeWait := some (restart || s.tnd.edgeWait = some true) } } : State).peerResult

/-- A new history entry (R123): the frequencies of the filled windows and the CUSUM. Two entries with the same T give no
difference quotient. An f[W] outside the 48 bits of its register wraps, and the wrapped value is compared, which is the model's choice (log
entry 44). -/
def State.monEntry (s : State) (c : Nat) (r : CandRes) : State :=
  let s := s.modMon c (fun m => { m with hist := ((residual r, r.time) :: m.hist).take 101 })
  let h := (s.mon c).hist
  let x0 := residual r
  let s := [1, 10, 100].foldl (fun s w => match h[w]? with
    | some (xw, tw) =>
      if r.time = tw then s.setB (cStat c) (fillBit w) true
      else (s.wrS48 (fOff c w) (Int.tdiv ((x0 - xw) * 2 ^ 48) (r.time - tw))).setB (cStat c) (fillBit w) true
    | none => s) s
  match h[1]? with
  | some (x1, t1) =>
    if r.time = t1 then s
    else
      let d := Int.tdiv ((x0 - x1) * sec16) (r.time - t1)
      let k : Int := s.profReg c 0x18
      let up := fun (v : Int) => satAt 0xFFFFFFFF (max 0 v).toNat
      let s := s.modMon c (fun m => { m with splus := up (m.splus + d - k), sminus := up (m.sminus - d - k) })
      (s.wrN (candOff c + 0x30) (s.mon c).splus).wrN (candOff c + 0x34) (s.mon c).sminus
  | none => s

/-- The monitors of a candidate on a tick (R122, R123, R125). A result completed while the candidate was OFF or UNAVAIL counts as new on the first tick
after it, which is the model's choice (log entry 44). -/
def State.monTick (s : State) (c : Nat) : State :=
  let st := s.candState c
  if st = cOFF ∨ st = cUNAVAIL then s
  else
    let r := s.candRes c
    if (s.mon c).taken < r.count then
      (s.modMon c (fun m => { m with taken := r.count, stale := 0 })).monEntry c r
    else s.modMon c (fun m => { m with stale := m.stale + 1 })

/-- Whether f[w] is filled and its magnitude exceeds a limit (R124). -/
def State.fOver (s : State) (c w lim : Nat) : Bool := s.b (cStat c) (fillBit w) && decide (lim < (s.fw c w).natAbs)

/-- The outright failure of a candidate that stands, as its cause code (04, cause codes), in code order; 0 none. -/
def State.outright (s : State) (c : Nat) : Nat :=
  if s.candSrcFail c then 1
  else if 3 ≤ (s.mon c).stale then 3
  else if s.f (candOff c) 11 8 < s.f (cStat c) 19 16 then 4
  else if s.fOver c 1 (s.profReg c 4) then 5
  else if s.fOver c 10 (s.profReg c 0x0C) then 6
  else if s.fOver c 100 (s.profReg c 0x14) then 7
  else 0

/-- The soft cause of a candidate that stands; 0 none (R124). Where several stand, the first in the order of their codes is recorded, which is the
model's choice (log entry 44). -/
def State.softCause (s : State) (c : Nat) (lost : Bool) : Nat :=
  if s.fOver c 1 (s.profReg c 0) then 8
  else if s.fOver c 10 (s.profReg c 8) then 9
  else if s.fOver c 100 (s.profReg c 0x10) then 0xA
  else if s.profReg c 0x1C < max (s.mon c).splus (s.mon c).sminus then 0xB
  else if lost then 0xC
  else 0

/-- Half limits (R126). -/
def State.halfLimits (s : State) (c : Nat) : Bool :=
  let half := fun (w r : Nat) => !s.b (cStat c) (fillBit w) || decide (2 * (s.fw c w).natAbs ≤ s.profReg c r)
  half 1 0 && half 10 8 && half 100 0x10 && decide (2 * max (s.mon c).splus (s.mon c).sminus ≤ s.profReg c 0x1C)
    && (decide (s.f (cStat c) 15 12 ≠ 0xC) || decide (2 * (s.fw c 10).natAbs ≤ (s.rd 0x01300014).toNat))

/-! ### Transitions (R126) -/

/-- Candidate c enters a state. -/
def State.setCandState (s : State) (c st : Nat) : State :=
  ((s.setF (cStat c) 2 0 st).setB 0x01300028 c true).irq .sel 0

/-- Candidate c enters QUALIFYING: its monitors are reset (R125). -/
def State.toQualifying (s : State) (c : Nat) : State := (s.setCandState c cQUALIFYING).monReset c

/-- Candidate c becomes QUALIFIED. -/
def State.toQualified (s : State) (c : Nat) : State := (s.setCandState c cQUALIFIED).raise Flt.selQualified c

/-- Candidate c enters WTR. -/
def State.toWtr (s : State) (c : Nat) : State := (s.setF (cStat c) 31 20 (s.f (candOff c + 4) 11 0)).setCandState c cWTR

/-- One transition of candidate c in a round (R126): `tick` on a monitor tick, `lost` when it lost a contest. -/
def State.candEval (s : State) (c : Nat) (tick lost : Bool) : State :=
  let st := s.candState c
  let wtr := s.f (candOff c + 4) 11 0
  if !s.b (candOff c) 31 || !s.b 0x01300000 c then
    if st = cOFF then s.setB (cStat c) 11 false else (s.setCandState c cOFF).setB (cStat c) 11 false
  else if st ≠ cOFF ∧ s.candUnavail c then
    if st = cUNAVAIL then s
    else
      let t := (s.setF (cStat c) 15 12 2).setCandState c cUNAVAIL
      if st = cQUALIFIED then t.raise Flt.selDisqualified (2 * 256 + c) else t
  else if st = cOFF ∨ st = cUNAVAIL then s.toQualifying c
  else if st = cFAILED then (if s.outright c = 0 then s.toQualifying c else s)
  else if s.outright c ≠ 0 then
    let k := s.outright c
    (((s.setF (cStat c) 15 12 k).setCandState c cFAILED).countSat (candOff c + 0x38) 15 0 1).raise Flt.selDisqualified (k * 256 + c)
  else if st = cQUALIFYING then
    if s.b (cStat c) 9 && s.halfLimits c then
      if s.b (cStat c) 11 && decide (0 < wtr) then s.toWtr c else (s.setB (cStat c) 11 true).toQualified c
    else s
  else if (st = cWTR ∨ st = cQUALIFIED) ∧ s.softCause c lost ≠ 0 then
    let k := s.softCause c lost
    (((s.setF (cStat c) 15 12 k).setCandState c cSOFT).countSat (candOff c + 0x38) 15 0 1).raise Flt.selSoftDq (k * 256 + c)
  else if st = cSOFT then
    if s.halfLimits c then (if 0 < wtr then s.toWtr c else s.toQualified c) else s
  else if st = cWTR ∧ tick then
    if s.f (cStat c) 31 20 ≤ 1 then (s.setF (cStat c) 31 20 0).toQualified c
    else s.setF (cStat c) 31 20 (s.f (cStat c) 31 20 - 1)
  else s

/-! ### Selection (R130-R133) -/

/-- Lexicographic order of key lists. -/
def lexLt : List Nat → List Nat → Bool
  | a :: l, b :: r => if a < b then true else if a = b then lexLt l r else false
  | _, _ => false

/-- The QUALIFIED members of TBn's selector. -/
def State.qualMembers (s : State) (n : Nat) : List Nat :=
  (List.range 30).filter (fun c => s.b (selOff n) c && decide (s.candState c = cQUALIFIED))

/-- The keys of R131 step 3. -/
def State.selKey (s : State) (n c : Nat) : List Nat :=
  [if s.candFreqOnly c then 1 else 0, if s.b (selOff n + 4) 8 then s.f (cStat c) 19 16 else 0, s.f (candOff c) 19 16,
   if s.selected n = c then 0 else 1, s.uEff c, c]

/-- PREF of a selector; candidate 25 on a standby's tandem base that follows (R373). -/
def State.pref (s : State) (n : Nat) : Nat :=
  if s.f 0x02500010 18 16 = n ∧ s.b 0x02500010 23 ∧ s.f 0x02500014 31 30 = 1 then 25 else s.f (selOff n + 4) 4 0

/-- What a selector chooses (R131): candidate and REASON. -/
def State.choose (s : State) (n : Nat) : Nat × Nat :=
  let q := s.qualMembers n
  if s.safe then (0x1F, 6)
  else if s.b (selOff n + 4) 9 then (0x1F, 4)
  else
    let pick : Option (Nat × Nat) :=
      if s.pref n ∈ q then some (s.pref n, 1)
      else (q.foldl (fun (best : Option Nat) c => match best with
        | none => some c
        | some b => if lexLt (s.selKey n c) (s.selKey n b) then some c else some b) none).map (fun c => (c, 2))
    match pick with
    | none => (0x1F, 0)
    | some (c, r) => if s.b (cStat c) 7 then (0x1F, 3) else (c, r)

/-- The phase of a candidate against base n from its latest result (R133). -/
def State.candPhase (s : State) (n c : Nat) : Int := let r := s.candRes c; r.meanIn.getD n r.mean

/-- The two lowest-numbered held candidates (R135). Where only one held candidate is still QUALIFIED, because the other has left that state since the
tick that set HOLD, the second is 0x1F: the spec does not say which the context names (DESIGN CHOICE, log entry 54). -/
def State.heldPair (s : State) : Nat × Nat :=
  match (List.range 30).filter (fun c => decide (s.candState c = cQUALIFIED) && s.b (cStat c) 7) with
  | a :: b :: _ => (a, b)
  | [a] => (a, 0x1F)
  | [] => (0x1F, 0x1F)

/-- A selector makes one decision (R131, R133): a switch records STEP; a move to nothing raises SEL/HOLDOVER or SEL/CONTESTED.
The base's state machine and bound follow. R131 raises SEL/CONTESTED where a held member is chosen; that a later evaluation which stays in
CONTEST_HOLD does not raise it again is the model's choice (log entry 44). -/
def State.selEval (s : State) (n : Nat) : State :=
  if !s.freeBase n then s
  else
    let old := s.selected n
    let oldR := s.f (selOff n + 8) 10 8
    let d := s.choose n
    let s1 := s.setF (selOff n + 8) 10 8 d.2
    let contested := d.2 = 3 ∧ oldR ≠ 3
    if d.1 = old then
      if contested then let h := s.heldPair; s1.raise Flt.selContested (n * 2 ^ 28 + h.1 * 256 + h.2) else s1
    else
      let s2 := (s1.setF (selOff n + 8) 4 0 d.1).irq .sel 1
      if d.1 = 0x1F then
        let h := s.heldPair
        let s3 := if d.2 = 3 then s2.raise Flt.selContested (n * 2 ^ 28 + h.1 * 256 + h.2)
          else s2.raise Flt.selHoldover (n * 2 ^ 28 + d.2 * 256)
        (((s3.setB (selOff n + 8) 12 false).tbEval n).boundEval n).tndAlign
      else
        let step : Int := if s.candFreqOnly d.1 || (decide (old ≠ 0x1F) && s.candFreqOnly old) then 0
          else s.candPhase n d.1 - (if old = 0x1F then 0 else s.candPhase n old)
        let ctx := n * 2 ^ 28 + old * 256 + d.1
        let s3 := ((s2.setB (selOff n + 8) 12 (s.candFreqOnly d.1)).count (selOff n + 8) 31 16 1).wrS64 (selOff n + 0x0C) step
        ((((s3.raise Flt.selSwitch ctx).traceEvent n 2 ctx).tbEval n).boundEval n).tndAlign

/-- What of a candidate a selector evaluates on (R130): state, QL, CONTESTED, HOLD. -/
def State.candKey (s : State) (c : Nat) : Nat := s.f (cStat c) 19 16 * 2 ^ 11 + s.f (cStat c) 7 6 * 8 + s.candState c

/-- Every selector with a member that changed since `s0` evaluates (R130). -/
def State.selRound (s s0 : State) : State :=
  (List.range 8).foldl (fun s n =>
    if (List.range 30).any (fun c => s.b (selOff n) c && decide (s.candKey c ≠ s0.candKey c)) then s.selEval n else s) s

/-- A round in which the inputs of some candidates changed, without a monitor tick (R127, R130). `s0` is the state before it. -/
def State.candRound (s s0 : State) (cs : List Nat) : State := (cs.foldl (fun s c => s.candEval c false false) s).selRound s0

/-! ### Contests (R128, R129) -/

/-- The contested set of a candidate's rank holds it (R128). -/
def State.inContest (s : State) (c : Nat) : Bool :=
  let el := fun (x : Nat) => decide (s.candState x = cQUALIFIED) && s.b (cStat x) 9
  el c && (List.range 30).any (fun x => decide (x ≠ c) && el x && decide (s.f (candOff x) 19 16 = s.f (candOff c) 19 16)
    && decide ((s.rd 0x01300010).toNat < (s.fw c 10 - s.fw x 10).natAbs))

/-- A contested candidate within ENS_TOL (R128). -/
def State.contestWinner (s : State) (c : Nat) : Bool := s.inContest c && decide ((s.fw c 10).natAbs ≤ (s.rd 0x01300014).toNat)

/-- CONTESTED and HOLD of a candidate on a tick, from the state after the monitors. -/
def State.contestBits (s t : State) (c : Nat) : State :=
  let inC := t.inContest c
  let won := (List.range 30).any (fun x => t.contestWinner x && decide (t.f (candOff x) 19 16 = t.f (candOff c) 19 16))
  let s := (s.setB (cStat c) 6 inC).setB (cStat c) 7 (inC && !won)
  if inC then s.irq .sel 2 else s

/-- Whether candidate c lost its contest (R128). -/
def State.contestLost (t : State) (c : Nat) : Bool :=
  t.inContest c && !t.contestWinner c
    && (List.range 30).any (fun x => t.contestWinner x && decide (t.f (candOff x) 19 16 = t.f (candOff c) 19 16))

/-- Seconds since the last ESMC information PDU of each port (R277): counted on the monitor tick (log entry 9). -/
def State.esmcAge (s : State) (p : Nat) : State := s.countSat (macOff p + 0x44) 23 16 1

/-- One monitor tick (R122-R133): monitors, contests, one transition per candidate in ascending order, then the selectors. -/
def State.monitorTick (s : State) : State :=
  let cs := List.range 30
  let s0 := s
  let s := (List.range 16).foldl State.esmcAge s
  let s := ((List.range 16).map (· + 8)).foldl (fun s c =>
    if s.esmcSilent (c - 8) then s.setF (cStat c) 19 16 15 else s) s
  let t := cs.foldl State.monTick (s.count 0x0130002C 31 0 1)
  let s := cs.foldl (fun s c => s.contestBits t c) t
  let s := cs.foldl (fun s c => s.candEval c true (t.contestLost c)) s
  s.selRound s0

/-- CANDIDATE_SOURCE_REPORT (R126, R127): a source reports a failure, unavailability or their end; the candidate takes at most
one transition over what its source now shows, and selectors with a changed member evaluate. -/
def execCandidateSourceReport (c : Fin 30) (s : State) : Out := .next (s.candRound s [c.val])

/-- The uncertainty that the quality input of a packet client brings: the interval of its clockAccuracy code (R119). -/
def State.qinUnc (s : State) (c : Nat) (qin : Word) : State :=
  if 26 ≤ c then { s with srcRes := listMod s.srcRes (c - 24) (fun r => { r with unc := accUnc (qin.field 31 24) }) } else s

/-- QUALITY_INPUT (R119-R121): QIN, QL and UEFF change in this round; a QL above QL_MAX is an outright failure. -/
def execQualityInput (c : Fin 30) (qin : Word) (s : State) : Out := .next (((s.qinUnc c qin).qualityIn c qin).candRound s [c.val])

/-- A write to SEL_TBn_CTL (R134); a PREF outside the members, or 0x1E, discards the write. A yoked base's
selector ignores it (R29). The selector evaluates (R130). -/
def State.wSelCtl (s : State) (n : Nat) (v : Word) : State :=
  let p := v.field 4 0
  if s.tbYoked n then s
  else if p ≠ 0x1F ∧ (p = 0x1E ∨ !s.b (selOff n) p) then (s.cfgBad .sel (selOff n + 4))
  else ((s.wr (selOff n + 4) (v &&& 0x31F)).selEval n)

/-- SEL_PREF_WRITE (R134). -/
def execSelPrefWrite (i : Itf) (n : Fin 8) (v : Word) (s : State) : Out :=
  .next (s.reach i (selOff n.val + 4) v (fun s => s.wSelCtl n.val v))

end Sys2Proof.Machine
end

