-- ==== Sys2Proof/Machine/Refs.lean ====
section
/-! DEFINITION. The reference and oscillator inputs and the commands of the interval units (03 R87-R115). -/
namespace Sys2Proof.Machine

/-- Window of REFINn. -/
def refOff (n : Nat) : Nat := 0x01101000 + n * 0x40

/-! ### The activity monitor (R89) -/

/-- Monitor record of a source. -/
def State.monitor (s : State) (x : EdgeSrc) : Monitor := s.monitors.getD (edgeIdx x) {}

/-- Monitor record of a source changed by `g`. -/
def State.modMonitor (s : State) (x : EdgeSrc) (g : Monitor → Monitor) : State :=
  { s with monitors := listMod s.monitors (edgeIdx x) g }

/-- Status register of a source with one. -/
def srcStat : EdgeSrc → Option Nat
  | .refin n => some (refOff n.val + 0x10)
  | .lo m => some (loOff m.val + 8)
  | _ => none

/-- Whether the source's receiver is on (CTL.EN); the internal sources have none. -/
def State.srcEn (s : State) : EdgeSrc → Bool
  | .refin n => s.b (refOff n.val) 31
  | .lo m => s.b (loOff m.val) 31
  | _ => true

/-- LOS_LIM and CLR_CNT of a source (R89); 3 and 4 for the internal ones (R91). -/
def State.clrCnt (s : State) : EdgeSrc → Nat
  | .refin n => s.f (refOff n.val) 15 8
  | .lo m => s.f (loOff m.val) 15 8
  | _ => 4

/-- LOS and GROSS of a source. -/
def State.srcLos (s : State) (x : EdgeSrc) : Bool :=
  match srcStat x with
  | some o => s.b o 1
  | none => (s.monitor x).los
def State.srcGross (s : State) (x : EdgeSrc) : Bool :=
  match srcStat x with
  | some o => s.b o 2
  | none => (s.monitor x).gross

/-- ACTIVE of a source: enabled and not failed. -/
def State.activeBit (s : State) (x : EdgeSrc) : State :=
  match srcStat x with
  | some o => s.setB o 0 (s.srcEn x && !s.srcFailed x)
  | none => s

/-- LOS and GROSS of a source set. -/
def State.setLosGross (s : State) (x : EdgeSrc) (l g : Bool) : State :=
  (match srcStat x with
  | some o => (s.setB o 1 l).setB o 2 g
  | none => s.modMonitor x (fun m => { m with los := l, gross := g })).activeBit x

/-- Context word of REF faults (R115): [8] 1 for an LO, [2:0] index; for an internal source the word is stated nowhere and is
a free value (log entry 3). -/
def State.refCtx (s : State) (x : EdgeSrc) : Nat × State :=
  match x with
  | .refin n => (n.val, s)
  | .lo m => (256 + m.val, s)
  | _ => s.takeFree 9

/-- REF_IRQ_STAT of a source. -/
def State.refIrq (s : State) (x : EdgeSrc) : State :=
  match x with
  | .refin n => s.irq .ref n.val
  | .lo m => s.irq .ref (8 + m.val)
  | _ => s

/-- A source fails (R89, R95, R111): the routed unit abandons its block; an LO is reported to the ensemble in the same round. -/
def State.failSource (s : State) (x : EdgeSrc) : State :=
  let s := match s.routedUnit x with
    | some k => s.unitSrcFail (.p k)
    | none => s
  match x with
  | .lo m => (s.unitSrcFail (.p ⟨8 + m.val, by omega⟩)).memberEval m
  | _ => s

/-- A source recovers: its unit measures again, an LO is reported to the ensemble. -/
def State.recoverSource (s : State) (x : EdgeSrc) : State :=
  let s := match s.routedUnit x with
    | some k => s.setB (tiuOff (.p k) + 8) 1 false
    | none => s
  match x with
  | .lo m => (s.setB (tiuOff (.p ⟨8 + m.val, by omega⟩) + 8) 1 false).memberEval m
  | _ => s

/-- GROSS sets on a source (R89, R98). -/
def State.setGross (s : State) (x : EdgeSrc) : State :=
  let s := s.modMonitor x (fun m => { m with good := 0 })
  if s.srcGross x then s
  else
    let was := s.srcFailed x
    let s := s.setLosGross x (s.srcLos x) true
    let c := s.refCtx x
    let s := c.2.raise Flt.refGross c.1
    if was then s else (s.refIrq x).failSource x

/-- Whether a spacing in ps differs from the nominal period by more than 1.0 × 10^-2 of it (R89). -/
def grossSpacing (f spacing : Nat) : Bool :=
  decide ((100 : Nat) * ((spacing * f : Nat) - (1000000000000 : Nat) : Int).natAbs > 1000000000000)

/-- A source that is no longer failed recovers: REF/CLEAR, and its unit and the ensemble take it again (R89, R95). While another of
its failures stands nothing happens: an LO whose alarm is active stays failed (R94). -/
def State.sourceBack (s : State) (x : EdgeSrc) : State :=
  if s.srcFailed x then s
  else
    let c := s.refCtx x
    ((c.2.raise Flt.refClear c.1).refIrq x).recoverSource x

/-- LOS and GROSS clear (R89). -/
def State.clearSource (s : State) (x : EdgeSrc) : State := (s.setLosGross x false false).sourceBack x

/-- The alarm of an LO ends (R94); the LO recovers unless LOS or GROSS stands. -/
def State.loAlarmOff (s : State) (m : Fin 4) : State :=
  if s.b (loOff m.val + 8) 4 then ((s.setB (loOff m.val + 8) 4 false).activeBit (.lo m)).sourceBack (.lo m) else s

/-- The domain of a source is powered (R36): with PD2 off only the LO inputs and their units work. -/
def State.srcOn (s : State) : EdgeSrc → Bool
  | .lo _ => true
  | _ => s.domOn 2

/-- TIU-Pk exists and is powered (R36). -/
def State.unitOn (s : State) (k : Fin 12) : Bool := s.b 0x01200000 k.val && (decide (8 ≤ k.val) || s.domOn 2)

/-- LOS_LIM of a source (R89); 3 for those without a receiver (R91). -/
def State.losLim (s : State) : EdgeSrc → Nat
  | .refin n => s.f (refOff n.val) 23 16
  | .lo m => s.f (loOff m.val) 23 16
  | _ => 3

/-- DIVIDED_EDGE (R89): a divided edge of an enabled source, `spacing` ps after the one before it. The first edge of a run has
none and does not count. LOS_LIM and CLR_CNT are taken as they stand at it (R91). -/
def execDividedEdge (x : EdgeSrc) (spacing : Nat) (s : State) : Out :=
  if !s.srcEn x || !s.srcOn x then .next s
  else
    let s := match x with
      | .refin n => s.count (refOff n.val + 0x14) 31 0 1
      | _ => s
    let s := s.modMonitor x (fun m => { m with at_ := s.spn.ticks, lim := some (s.losLim x) })
    let m := s.monitor x
    if !m.seen then .next (s.modMonitor x (fun m => { m with seen := true, good := 0 }))
    else if grossSpacing (s.fDiv x) spacing then .next (s.setGross x)
    else
      let s := s.modMonitor x (fun m => { m with good := m.good + 1 })
      if (s.srcLos x || s.srcGross x) && decide (s.clrCnt x ≤ m.good + 1) then .next (s.clearSource x) else .next s

/-- LOS sets on a source (R89, R91): the run of edges ends, REF/LOS is raised when the bit sets, and a source that had not failed
fails. -/
def State.setLos (s : State) (x : EdgeSrc) : State :=
  let s := s.modMonitor x (fun m => { m with seen := false, good := 0 })
  if s.srcLos x then s
  else
    let was := s.srcFailed x
    let s := s.setLosGross x true (s.srcGross x)
    let c := s.refCtx x
    let s := c.2.raise Flt.refLos c.1
    if was then s else (s.refIrq x).failSource x

/-- LOS (R89): no divided edge for LOS_LIM nominal periods, LOS_LIM as the last edge found it (R91). -/
def execLos (x : EdgeSrc) (s : State) : Out :=
  .next (if (s.monitor x).lim.getD (s.losLim x) * 2000000000 ≤ (s.spn.ticks - (s.monitor x).at_) * s.fDiv x then s.setLos x else s)

/-! ### Configuration (R87, R91, R92) -/

/-- Frequency range of a signal type in Hz (03, REFIN table); none for types 6 and 7. -/
def typeRange (t : Nat) : Option (Nat × Nat) :=
  match t with
  | 0 => some (1, 1000000000)
  | 1 => some (1000000, 1000000000)
  | 2 => some (1000000, 400000000)
  | 3 => some (1, 250000000)
  | 4 => some (1, 250000000)
  | 5 => some (1, 250000000)
  | _ => none

/-- F_DIV / 2^DECIM of the TIU-P a source is routed to stays within 10 MHz (R87, R98). -/
def State.decimOk (s : State) (x : EdgeSrc) : Bool :=
  match s.routedUnit x with
  | some k => decide (s.fDiv x ≤ 10000000 * 2 ^ s.f (tiuOff (.p k)) 23 20)
  | none => true

/-- The checks of R87 on REFINn as it stands: single fields always, the rest where EN is 1. -/
def State.refinOk (s : State) (n : Fin 8) : Bool :=
  let o := refOff n.val
  let d := s.f (o + 8) 23 0
  let fr := s.f (o + 4) 29 0
  decide (1 ≤ d) && decide (2 ≤ s.f o 23 16) && decide (1 ≤ s.f o 15 8) &&
    (match typeRange (s.f o 30 28) with
    | none => false
    | some (lo, hi) =>
      !s.b o 31 || (decide (lo ≤ fr) && decide (fr ≤ hi) && decide (fr % d = 0) && decide (1 ≤ fr / d)
        && decide (fr / d ≤ 25000000) && s.decimOk (.refin n)))

/-- Offset of a REFIN register in its window, and its writable bits. -/
def refRegOff : RefReg → Nat × Word
  | .ctl => (0, 0xFCFFFF00) | .freq => (4, 0x3FFFFFFF) | .div => (8, 0x00FFFFFF) | .dly => (0x0C, 0xFFFFFFFF)

/-- The values whose change abandons (R91): EN, TYPE, EDGE, FREQ, DIV, DLY. -/
def State.refinKey (s : State) (n : Nat) : Word × Word × Word × Word :=
  let o := refOff n
  (s.rd o &&& 0xF4000000, s.rd (o + 4), s.rd (o + 8), s.rd (o + 0x0C))

/-- A write to a REFIN register (R87, R91): checked and applied, or discarded with CFG_BAD. A change of settings abandons the
routed unit's block and sets LOS until CLR_CNT correct edges have come. -/
def State.wRefin (s : State) (n : Fin 8) (reg : RefReg) (v : Word) : State :=
  let r := refRegOff reg
  let o := refOff n.val
  let t := s.wr (o + r.1) (v &&& r.2)
  if !t.refinOk n then ((s.setB (o + 0x10) 3 true).raise Flt.refCfgBad ((o + r.1) % 65536 * 65536 + n.val))
  else
    let u := t.setB (o + 0x10) 3 false
    if t.refinKey n.val = s.refinKey n.val then (u.activeBit (.refin n))
    else
      let u := match u.routedUnit (.refin n) with
        | some k => u.abandon (.p k) 1
        | none => u
      ((u.setLos (.refin n)).activeBit (.refin n))

/-- REFIN_CONFIG_WRITE (R87, R91). -/
def execRefinConfigWrite (i : Itf) (n : Fin 8) (reg : RefReg) (v : Word) (s : State) : Out :=
  .next (s.reach i (refOff n.val + (refRegOff reg).1) v (fun s => s.wRefin n reg v))

/-- LO frequencies eligible to carry the spine (R93). -/
def eligibleFreq (f : Nat) : Bool :=
  [10000000, 12800000, 20000000, 25000000, 40000000, 50000000, 100000000].contains f

/-- The checks of R92 on LOm as it stands. -/
def State.loOk (s : State) (m : Fin 4) : Bool :=
  let o := loOff m.val
  let fr := s.f (o + 4) 27 0
  let k := s.f o 26 24
  decide (2 ≤ s.f o 23 16) && decide (1 ≤ s.f o 15 8) && decide (1 ≤ k ∧ k ≤ 4) &&
    (match typeRange (s.f o 30 28) with
    | none => false
    | some (lo, hi) => !s.b o 31 || (decide (lo ≤ fr) && decide (fr ≤ hi) && decide (fr % 1000 = 0)
        && decide (1000000 ≤ fr) && decide (fr ≤ 250000000)))

/-- Offset of an LO register in its window, and its writable bits. -/
def loRegOff : LoReg → Nat × Word
  | .ctl => (0, 0xFFFFFFC0) | .freq => (4, 0x0FFFFFFF)

/-- ELIG of an LO follows its FREQ (R93). -/
def State.loElig (s : State) (m : Fin 4) : State :=
  s.setB (loOff m.val + 8) 5 (eligibleFreq (s.f (loOff m.val + 4) 27 0))

/-- A write to an LO register (R92, R93): checked as R87 says, and applied or discarded with CFG_BAD; ELIG follows FREQ; an alarm that is
not enabled reads 0 (R94). R91 says of REFIN inputs that a change of their settings abandons the unit's block and sets LOS; R92 refers to R87 and
R89 only, and that a change of EN, TYPE or FREQ of an LO does the same is the model's choice (log entry 43). -/
def State.wLo (s : State) (m : Fin 4) (reg : LoReg) (v : Word) : State :=
  let r := loRegOff reg
  let o := loOff m.val
  let t := s.wr (o + r.1) (v &&& r.2)
  if !t.loOk m then ((s.setB (o + 8) 3 true).raise Flt.refCfgBad ((o + r.1) % 65536 * 65536 + 256 + m.val))
  else
    let u := (t.setB (o + 8) 3 false).loElig m
    let same := t.rd o &&& 0xF0000000 = s.rd o &&& 0xF0000000 ∧ t.rd (o + 4) = s.rd (o + 4)
    let u := if same then u else (u.abandon (.p ⟨8 + m.val, by omega⟩) 1).setLos (.lo m)
    let u := if u.b o 7 then u else u.loAlarmOff m
    let u := if u.b o 7 && !s.b o 7 then u.modMonitor (.lo m) (fun x => { x with almFrom := u.spn.ticks }) else u
    ((u.activeBit (.lo m)).memberEval m)

/-- LO_CONFIG_WRITE (R92, R93). -/
def execLoConfigWrite (i : Itf) (m : Fin 4) (reg : LoReg) (v : Word) (s : State) : Out :=
  .next (s.reach i (loOff m.val + (loRegOff reg).1) v (fun s => s.wLo m reg v))

/-! ### Alarms and temperatures (R94, R96) -/

/-- LO_ALARM_SET (R94): the alarm level has lasted 1 ms while ALM_EN is 1 and the part is in RUN; observation began at least 1 ms ago. -/
def execLoAlarmSet (m : Fin 4) (s : State) : Out :=
  let o := loOff m.val
  if s.b o 7 && s.running && !s.b (o + 8) 4 && decide ((s.monitor (.lo m)).almFrom + 2000000 ≤ s.spn.ticks) then
    let was := s.srcFailed (.lo m)
    let s := ((s.setB (o + 8) 4 true).activeBit (.lo m)).raise Flt.refLoAlarm m.val
    .next (if was then s else (s.refIrq (.lo m)).failSource (.lo m))
  else .next s

/-- LO_ALARM_CLEAR (R94): the level has been absent for 1 ms. -/
def execLoAlarmClear (m : Fin 4) (s : State) : Out :=
  .next (s.loAlarmOff m)

/-- One diode sample of LOm (R96): a good one is reported and enters the member's cycle; an open or shorted diode sets
TEMP_FAIL and leaves the last good value. -/
def State.loTemp (s : State) (m : Nat) (t : Option (BitVec 16)) : State :=
  if !s.b 0x01100000 (8 + m) then s
  else
    let o := loOff m
    match t with
    | some v => ((s.setF (o + 0x0C) 15 0 v.toNat).setB (o + 8) 6 false).modMember m
        (fun r => { r with tempSum := r.tempSum + signedOf 16 v.toNat, tempCnt := r.tempCnt + 1 })
    | none => if s.b (o + 8) 6 then s else (s.setB (o + 8) 6 true).raise Flt.refTempFail m

/-- LO_TEMP_SAMPLE (R96): the four diodes are sampled. -/
def execLoTempSample (t0 t1 t2 t3 : Option (BitVec 16)) (s : State) : Out :=
  .next ((((s.loTemp 0 t0).loTemp 1 t1).loTemp 2 t2).loTemp 3 t3)

/-- A recalibration trigger reaches TIU-Pk (R100, R102): it starts, or one further run is wanted after the running one. Before the first run of
R99 has ended there is nothing to calibrate again. -/
def State.calTrigger (s : State) (k : Fin 12) : State :=
  if !s.unitOn k || (s.unit (.p k)).calFrom.isNone then s
  else if s.b 0x01200014 k.val then s.modUnit (.p k) (fun t => { t with again := true })
  else s.setB 0x01200014 k.val true

/-- PWR_DIE_MAX and the thermal alarm take a die sample (R450). -/
def State.dieAlarm (s : State) (t : Int) : State :=
  let s := if signedOf 16 (s.f 0x00100044 15 0) < t then s.setF 0x00100044 15 0 (wrapTo 16 t) else s
  let alarm := signedOf 16 (s.f 0x00100040 15 0)
  if alarm ≤ t then
    if s.pwr.hot then s
    else (({ s with pwr := { s.pwr with hot := true } } : State).raise Flt.pwrThermal (wrapTo 16 t)).irq .pwr 3
  else if t ≤ alarm - 1280 then { s with pwr := { s.pwr with hot := false } }
  else s

/-- DIE_TEMP_SAMPLE (R96, R100, R450): REF_DIE_TEMP, the DT trigger of each unit, PWR_DIE_MAX and the alarm. -/
def execDieTempSample (t : BitVec 16) (s : State) : Out :=
  let s := s.setF 0x01100020 15 0 t.toNat
  let v := signedOf 16 t.toNat
  let dt := s.f 0x01200010 23 16
  let s := (List.finRange 12).foldl (fun s k =>
    let u := s.unit (.p k)
    if dt ≠ 0 ∧ u.ready ∧ dt * 64 ≤ (v - signedOf 16 u.runTemp.toNat).natAbs then s.calTrigger k else s) s
  .next (s.dieAlarm v)

/-! ### Events and conversions (R97, R98) -/

/-- TIU_EVENT (R98): a start event reaches TIU-Pk, `spacing` ps after the one before it. An edge closer than 20 ns is a runt;
otherwise the first of every 2^DECIM is converted, if the unit measures. A runt is counted among the divided edges. -/
def execTiuEvent (k : Fin 12) (spacing : Nat) (s : State) : Out :=
  match s.unitSrc k with
  | none => .next s
  | some x =>
    if !s.unitOn k then .next s else
    let o := tiuOff (.p k)
    let u := s.unit (.p k)
    let counted := fun (s : State) => s.modUnit (.p k) (fun t => { t with events := t.events + 1 })
    if spacing < 20000 then
      let s := (counted s).countSat (o + 0x48) 15 0 1
      let s := match x with
        | .refin n => s.countSat (refOff n.val + 0x10) 31 16 1
        | _ => s
      .next (s.setGross x)
    else
      let s := counted s
      if s.b o 31 && !s.srcFailed x && u.ready && decide (u.fails < 3) && decide (u.events % 2 ^ s.f o 23 20 = 0) then
        let c := s.latch (.p k)
        .next (s.modUnit (.p k) (fun t => { t with converting := t.converting ++ [c] }))
      else .next s

/-- The event times of a capture in the eight bases and in the raw count (R97, R107), 2^-16 ns. -/
def State.captureTimes (s : State) (c : Capture) (dly : Int) (s500 s1000 : Nat) (code : Int) : List Int × Int :=
  (c.times.map (fun (t : Nat) => eventTime t dly s500 s1000 code), eventTime (s.rawTime c.ticks) dly s500 s1000 code)

/-- TIU_CONVERSION_DONE (R97): the oldest conversion of the unit ends with its code, which is corrected for non-linearity (R99); E
becomes a sample. A result it completes reaches the alignment of PPS pins and the tandem unit (R112, R200, R373). -/
def execTiuConversionDone (k : Fin 12) (code : BitVec 12) (s : State) : Out :=
  let u := s.unit (.p k)
  match u.converting, s.unitSrc k with
  | c :: rest, some x =>
    if !s.unitOn k then .next s else
    let e := s.captureTimes c (s.srcDelay x) u.sum500 u.sum1000 (u.corrected code.toNat)
    let s := s.modUnit (.p k) (fun t => { t with converting := rest })
    let s := s.sampleEvent (.p k) e.1 e.2 c
    if u.results < (s.unit (.p k)).results then
      let s := (s.unitResult (.p k)).ppsAlign k.val (s.unit (.p k)).resMean
      .next (if x = .peerPps then s.peerEdge (s.unit (.p k)).resRestart
        else if s.candUnit 25 = some (.p k) then s.c25Result else s)
    else .next s
  | _, _ => .next s

/-! ### Unit configuration (R98, R107-R111) -/

/-- The checks of a TIU-P's control word (R98, R107, R109, R110). -/
def State.tiuOk (s : State) (k : Fin 12) (v : Word) : Bool :=
  let other := v.field 27 24
  let stop := if 8 ≤ k.val then 1 else v.field 29 28
  decide (v.field 15 0 ≠ 0) && decide (stop ≠ 3)
    && (decide (stop ≠ 2) || (decide (other ≠ k.val) && decide (other < 12) && s.b 0x01200000 other))
    && (match s.unitSrc k with
      | some x => !s.srcEn x || decide (s.fDiv x ≤ 10000000 * 2 ^ v.field 23 20)
      | none => true)

/-- A write to a unit's control word (R111): N counts from the next block; a change of EN, STOP_SEL, OTHER or DECIM abandons the running one. For
k from 8 to 11 writes to STOP_SEL and UNWRAP are ignored, and those of the Vane PPS unit that R224 fixes. -/
def State.wTiuCtl (s : State) (k : Fin 12) (v : Word) : State :=
  let o := tiuOff (.p k)
  let m : Word := if 8 ≤ k.val then 0x8FF0FFFF else if s.unitSrc k = some .vanePps then 0x0F000000 else 0xFFF0FFFF
  let v := (s.rd o &&& ~~~m) ||| (v &&& m)
  if !s.tiuOk k v then ((s.setB (o + 8) 2 true).raise Flt.tiuCfgBad k.val)
  else
    let old := s.rd o
    let s := (s.wr o v).setB (o + 8) 2 false
    if (s.rd o ^^^ old) &&& 0xBFF00000 = 0 then s else (s.abandon (.p k) 1)

/-- TIU_CONFIG_WRITE (R111). -/
def execTiuConfigWrite (i : Itf) (k : Fin 12) (v : Word) (s : State) : Out :=
  .next (s.reach i (tiuOff (.p k)) v (fun s => s.wTiuCtl k v))

/-! ### Calibration (R99-R103) -/

/-- The coefficients of two sums of 256 codes, in 1/256 code, lie within 5 % of the nominal gain (R103): the nominal difference of the sums is
2,000 × 65,536. -/
def calGainOk (s500 s1000 : Nat) : Bool :=
  decide (s500 < s1000) && decide (95 * (s1000 - s500) ≤ 100 * (2000 * 65536))
    && decide (100 * (2000 * 65536) ≤ 105 * (s1000 - s500))

/-- A mean stays within 2 ps of its value in the previous successful run (R103). -/
def calMeanOk (old500 old1000 a b : Nat) : Bool :=
  decide (500 * ((a : Int) - b).natAbs ≤ 2 * (old1000 - old500))

/-- CAL_GAIN and CAL_OFS report the coefficients, rounded to nearest (R97). -/
def State.showCal (s : State) (k : Fin 12) (s500 s1000 : Nat) : State :=
  let d := s1000 - s500
  let o := tiuOff (.p k)
  (s.wrN (o + 0x40) ((2 * 2 ^ 47 + d) / (2 * d))).wrN (o + 0x44)
    (wrapTo 32 ((2 * 32768 * ((d : Int) - s500) + d) / (2 * d : Nat)))

/-- PERIOD counts from now (R100), where it counts at all. -/
def State.calCount (s : State) (k : Fin 12) : State := s.modUnit (.p k) (fun t => { t with calFrom := t.calFrom.map (fun _ => s.spn.ticks) })

/-- `ms` milliseconds have passed since a tick, if there is one; a millisecond is 2,000,000 spine ticks. -/
def State.msPassed (s : State) (since : Option Nat) (ms : Nat) : Bool :=
  match since with
  | some t => decide (t + ms * 2000000 ≤ s.spn.ticks)
  | none => false

/-- A calibration run of TIU-Pk ends with the sums of its codes (R99, R100, R103). RUNS counts recalibrations, which follow the first
run that passes. -/
def State.calEnd (s : State) (k : Fin 12) (s500 s1000 : Nat) : State :=
  let u := s.unit (.p k)
  let o := tiuOff (.p k)
  let temp := s.rd 0x01100020
  let s := ((s.modUnit (.p k) (fun t => { t with calFrom := some s.spn.ticks })).setB 0x01200014 k.val false).count 0x01200014 31 16 (if u.ready then 1 else 0)
  let ok := calGainOk s500 s1000 &&
    (!u.ready || (calMeanOk u.sum500 u.sum1000 s500 u.sum500 && calMeanOk u.sum500 u.sum1000 s1000 u.sum1000))
  let s := if ok then
      let s := (s.modUnit (.p k) (fun t => { t with
        ready := true, sum500 := s500, sum1000 := s1000, fails := 0, retry := none, runTemp := temp
        restart := if 3 ≤ u.fails then true else t.restart, prev := if 3 ≤ u.fails then none else t.prev })).showCal k s500 s1000
      s.setB (o + 8) 4 false
    else
      let s := (s.modUnit (.p k) (fun t => { t with fails := t.fails + 1, retry := some s.spn.ticks, runTemp := temp })).setB (o + 8) 4 true
      if u.fails = 2 then (s.abandon (.p k) 4).raise Flt.tiuCalFail k.val else s
  let s := if h : 8 ≤ k.val then s.memberEval ⟨k.val - 8, by omega⟩ else s
  if u.again then (s.modUnit (.p k) (fun t => { t with again := false })).calTrigger k else s

/-- TIU_DENSITY_TEST (R99): the code-density test ends with the correction of the 64 segments, and the first gain and offset run gives
its sums. -/
def execTiuDensityTest (k : Fin 12) (nl : List Int) (s500 s1000 : Nat) (s : State) : Out :=
  .next (if (s.unit (.p k)).calFrom.isSome || !s.unitOn k then s
    else (s.modUnit (.p k) (fun t => { t with nl := nl })).calEnd k s500 s1000)

/-- TIU_CAL_PERIOD (R100): PERIOD ms after the unit's last run; PERIOD 0 disables. -/
def execTiuCalPeriod (k : Fin 12) (s : State) : Out :=
  .next (if s.f 0x01200010 15 0 ≠ 0 ∧ s.msPassed (s.unit (.p k)).calFrom (s.f 0x01200010 15 0) then s.calTrigger k else s)

/-- A write to TIU_CAL_CTL (R100): PERIOD counts afresh for every unit; NOW = 1 triggers a recalibration of every TIU-P. -/
def State.wCalCtl (s : State) (v : Word) : State :=
  let s := (List.finRange 12).foldl State.calCount (s.wr 0x01200010 (v &&& 0x00FFFFFF))
  if v.bit 31 then ((List.finRange 12).foldl State.calTrigger s) else s

/-- TIU_CAL_NOW (R100). -/
def execTiuCalNow (i : Itf) (v : Word) (s : State) : Out := .next (s.reach i 0x01200010 v (fun s => s.wCalCtl v))

/-- TIU_CAL_END (R103): a recalibration that runs ends; its coefficients go into force or it fails. -/
def execTiuCalEnd (k : Fin 12) (s500 s1000 : Nat) (s : State) : Out :=
  if s.b 0x01200014 k.val && s.unitOn k then .next (s.calEnd k s500 s1000) else .next s

/-- TIU_CAL_RETRY (R103): 10 ms after a failed run the unit calibrates again. -/
def execTiuCalRetry (k : Fin 12) (s : State) : Out :=
  .next (if s.unitOn k ∧ s.msPassed (s.unit (.p k)).retry 10 then
      (s.modUnit (.p k) (fun t => { t with retry := none })).calTrigger k
    else s)

/-! ### Lane units (R105, R106) -/

/-- The base of lane unit m: its port's (MAC_Pp_STAT.TB); for the tandem lanes, the tandem base (R372). -/
def State.laneBase (s : State) (m : Nat) : Nat := if m < 16 then s.f (macOff (s.portOf m) + 4) 10 8 else s.tandemTb

/-- Ts - Tf of a lane unit as last measured, 2^-24 ns (R106); 2^-8 ns before the first measurement (log entry 43). -/
def State.laneStep (s : State) (m : Fin 18) : Int :=
  let o := tiuOff (.lane m)
  if s.rd (o + 0x40) = 0 then 65536 else ((s.rd (o + 0x40)).toNat : Int) - (s.rd (o + 0x44)).toNat

/-- A frame begins to arrive on a lane of a port that is UP (R257). -/
def State.rxBegins (s : State) (m : Nat) : State :=
  let p := s.portOf m
  { s with mac := listMod s.mac p (fun x => { x with rxIn := decide (s.f (macOff p + 4) 31 29 = 4) }) }

/-- LANE_UNIT_EVENT (R105, R106): an event of one channel lies `steps` × (Ts - Tf) before the spine edge of this tick. A FREQ event is a
sample of the unit while FREQ_EN is 1 and the lane is locked; RX and TX events leave their time in the port's base with the P of
that tick. A unit in CAL_FAIL delivers nothing (R106), though its port receives the frame; nor does one whose lane is not LOCKED (R240, R252). -/
def execLaneUnitEvent (m : Fin 18) (ch : LaneChan) (steps : Nat) (s : State) : Out :=
  let u : TiuId := .lane m
  let o := tiuOff u
  let s0 := s
  let s := if ch = .rx ∧ s.f (lanOff m.val + 4) 31 28 = 5 then s.rxBegins m.val else s
  if s0.b (o + 8) 4 || decide (s0.f (lanOff m.val + 4) 31 28 ≠ 5) then .next s
  else
    let back : Int := steps * s.laneStep m * 2 ^ 16
    let n := s.laneBase m.val
    let st : Stamp := ⟨((s.tbTime n : Int) - back).toNat, (s.rd (bndOff n)).toNat, s.blutaBody n, s.latchBase n⟩
    match ch with
    | .rx => .next (s.modUnit u (fun t => { t with stampRx := st }))
    | .tx => .next (s.modUnit u (fun t => { t with stampTx := st }))
    | .freq =>
      if s.b o 31 then
        let c := s.latch u
        let t := s.sampleEvent u (c.times.map (fun (t : Nat) => ((t : Int) - back) / 2 ^ 24))
          (((s.rawTime c.ticks : Int) - back) / 2 ^ 24) c
        .next (if (s.unit u).results < (t.unit u).results then t.unitResult u else t)
      else .next s

/-- LANE_CAL_FAIL (R106): the ring trim of a lane unit cannot reach its window within 10 ms. -/
def execLaneCalFail (m : Fin 18) (s : State) : Out :=
  let o := tiuOff (.lane m)
  if s.b (o + 8) 4 then .next s
  else .next (((s.setB (o + 8) 4 true).raise Flt.laneUnitLaneCalFail m.val).abandon (.lane m) 4)

/-- Ts - Tf lies within 3.90625 ps ± 0.1 ps (R106); periods in 2^-24 ns. -/
def trimOk (slow fast : Nat) : Bool := decide (((slow : Int) - fast - 65536).natAbs * 10000 ≤ 2 ^ 24)

/-- LANE_TRIM_DONE (R106): the ring periods are measured and reported; a unit in CAL_FAIL whose trim has reached its window delivers
again. -/
def execLaneTrimDone (m : Fin 18) (slow fast : Word) (s : State) : Out :=
  let o := tiuOff (.lane m)
  let fail := s.b (o + 8) 4
  let s := (s.wr (o + 0x40) slow).wr (o + 0x44) fast
  .next (if fail ∧ trimOk slow.toNat fast.toNat then
      (s.setB (o + 8) 4 false).modUnit (.lane m) (fun t => { t with prev := none, restart := true })
    else s)

end Sys2Proof.Machine
end

