-- ==== Sys2Proof/Machine/Cycle.lean ====
section
/-! DEFINITION. The commands of a second: the ensemble cycle, and the monitor tick, the servo updates and the SECOND records, which wait for it
(05 R138, R149; 04 R122; 06 R178). -/
namespace Sys2Proof.Machine

/-- The monitor tick of the present TB0 second, once (R122). -/
def State.monitorOnce (s : State) : State :=
  if s.ens.tickSec = some (s.tbSec 0) then s else ({ s with ens := { s.ens with tickSec := some (s.tbSec 0) } } : State).monitorTick

/-- ENSEMBLE_CYCLE (R138): on a TB0 second boundary whose cycle has not run, the cycle; then the monitor tick, the servo updates and the
SECOND records that waited for it. -/
def execEnsembleCycle (s : State) : Out :=
  if s.cycleDone then .next s
  else
    let s := s.ensembleCycle
    let tick := s.ens.waitTick
    let ns := s.ens.waitServo
    let s : State := { s with ens := { s.ens with waitTick := false, waitServo := [] } }
    let s := if tick then s.monitorOnce else s
    let s := ns.foldl State.servoTake s
    .next (if s.trace.waitSecond then s.secondRecords else s)

/-- MONITOR_TICK (R122, R138): the tick of second k, which comes once, waits for cycle k to complete. -/
def execMonitorTick (s : State) : Out :=
  .next (if s.cycleDone then s.monitorOnce else { s with ens := { s.ens with waitTick := true } })

/-- SERVO_UPDATE (R149): a new result of the candidate the servo follows reaches it; while cycle k of the present second is not complete it waits
(R138). -/
def execServoUpdate (n : Fin 8) (s : State) : Out :=
  .next (if s.cycleDone then s.servoTake n
    else { s with ens := { s.ens with waitServo := s.ens.waitServo.filter (fun k => decide (k ≠ n.val)) ++ [n.val] } })

/-- TRACE_SECOND (R178): the SECOND records of the TB0 second, once, after its ensemble cycle and the evaluations that triggers. -/
def execTraceSecond (s : State) : Out :=
  .next (if s.trace.sec = s.tbSec 0 then s
    else if s.cycleDone then s.secondRecords
    else { s with trace := { s.trace with waitSecond := true } })

end Sys2Proof.Machine
end

