-- ==== Sys2Proof/Machine/Commit.lean ====
section
/-! DEFINITION. Shadowed channels (02 R74-R79): the copy of a commit, its check by the rules of the owning chapter (R57-R73, R155,
R183, R190, R194, R198, R200, R204), the lock point, and going live. -/
namespace Sys2Proof.Machine

/-- The values of a staged set: offset, word, stamp. -/
abbrev Staged := List (Nat × Word × Nat)

/-- What the check of a set sees at `o`: the staged pending word, else the value in force (R76). -/
def State.sw (s : State) (vs : Staged) (o : Nat) : Word :=
  match vs.find? (fun v => decide (v.1 = o)) with
  | some v => v.2.1
  | none => s.lv o

/-- Field, bit and 64-bit pair of what the check sees. -/
def State.sf (s : State) (vs : Staged) (o hi lo : Nat) : Nat := (s.sw vs o).field hi lo
def State.sb (s : State) (vs : Staged) (o i : Nat) : Bool := (s.sw vs o).bit i
def State.sw64 (s : State) (vs : Staged) (o : Nat) : Nat := (s.sw vs o).toNat + (s.sw vs (o + 4)).toNat * 2 ^ 32

/-- Whether a set carries one of these registers. -/
def carries (vs : Staged) (os : List Nat) : Bool := vs.any (fun v => os.contains v.1)

/-! ### Checks -/

/-- 1.0 × 10^-3 in 2^-48 (R57). -/
def thousandth : Nat := 281474976711

/-- 1.0 × 10^-5 in 2^-48 (R155, R194). -/
def hundredThousandth : Nat := 2814749767

/-- Pending host fields INC, FADJ, PADJ or SET of a base (R69). -/
def hostFields (n : Nat) (vs : Staged) : Bool :=
  carries vs ([0x10, 0x14, 0x18, 0x1C, 0x28, 0x2C, 0x40, 0x44, 0x48].map (tbOff n + ·))

/-- A set carries a SET (R61). -/
def carriesSet (n : Nat) (vs : Staged) : Bool := carries vs ([0x40, 0x44, 0x48].map (tbOff n + ·))

/-- A set carries a PADJ (R59). -/
def carriesPadj (n : Nat) (vs : Staged) : Bool := carries vs ([0x28, 0x2C].map (tbOff n + ·))

/-- Master time of a set's boundary (R73): now for IMMEDIATE; else the boundary it will take, at the base's present offset. -/
def State.boundaryMaster (s : State) (n : Fin 8) (b : Nat) : Int :=
  let v := s.tbTime n
  let m : Int := s.tbTime (s.tbMaster n)
  if b = 0 then m else m + ((s.boundaryAt (.tb n) b (v + lockLead)).getD v : Int) - v

/-- Start of the window, or LEAP_AT without smear, in half master seconds, of leap values `l` (R72, R73). -/
def leapStart2 (en centre : Bool) (at_ w : Nat) : Int :=
  if !en then 2 * at_ else if centre then 2 * (at_ : Int) - w else 2 * (at_ : Int) - 2 * w

/-- REFUSED_TIME of an OFFSET-type base (R70, R73). The count at LEAP_AT is that of the offsets the set leaves (R76), before the leap
changes LEAP_OFS. -/
def State.leapTimeOk (s : State) (n : Fin 8) (vs : Staged) (b : Nat) : Bool :=
  let o := tbOff n
  let leapRegs := [0x60, 0x64, 0x68, 0x6C].map (o + ·)
  let regs := leapRegs ++ [o + 0x50, o + 0x54]
  let changes := regs.any (fun r => decide (s.sw vs r ≠ s.lv r))
  let m : Int := s.tbTime (s.tbMaster n)
  let started := (s.base n).smearing ||
    (decide (s.leapDir n ≠ 0) && s.lb (o + 0x6C) 31 &&
      decide (leapStart2 true (s.lb (o + 0x6C) 30) (s.leapAt n) (s.smearW n) * (secU / 2 : Nat) ≤ m))
  let dir := s.sf vs (o + 0x60) 17 16
  let at_ := s.sw64 vs (o + 0x64) % 2 ^ 48
  let yoke := signedOf 64 (s.sw64 vs (o + 0x50)) * subU
  let cnt := ((at_ * secU : Nat) + yoke - signedOf 16 (s.sf vs (o + 0x60) 15 0) * secU) / secU
  let want : Int := if dir = 1 then 0 else 86399
  let start := leapStart2 (s.sb vs (o + 0x6C) 31) (s.sb vs (o + 0x6C) 30) at_ (s.sf vs (o + 0x6C) 16 0) * (secU / 2 : Nat)
  !(started && changes) &&
    (decide (dir = 0) || !carries vs regs ||
      (decide (cnt % 86400 = want) && decide (s.boundaryMaster n b + 2 * (secU : Int) ≤ start)))

/-- The checks of a time-base set, by class: RANGE, PAIR, OWNER, TIME (R57, R69-R73). -/
def State.tbChecks (s : State) (n : Fin 8) (vs : Staged) (b : Nat) : Bool × Bool × Bool × Bool :=
  let o := tbOff n
  let inc := s.sw64 vs (o + 0x10)
  let fadj := signedOf 48 (s.sw64 vs (o + 0x18) % 2 ^ 48)
  let ratio := signedOf 48 (s.sw64 vs (o + 0x58) % 2 ^ 48)
  let w := s.sf vs (o + 0x6C) 16 0
  (decide (0x7000000000 ≤ inc) && decide (inc ≤ 0x9000000000) && decide (fadj.natAbs ≤ thousandth)
      && decide (ratio.natAbs ≤ thousandth) && decide (s.sf vs (o + 0x38) 23 0 ≠ 0) && decide (s.sf vs (o + 0x60) 17 16 ≠ 2)
      && decide (1 ≤ w ∧ w ≤ 86400) && (!carriesSet n vs || validTime (s.sw vs (o + 0x40))),
    decide (s.sf vs (o + 0x60) 17 16 = 0) || s.tbOffsetYoked n,
    !hostFields n vs || (!s.tbYoked n && s.sb vs o 0),
    !s.tbOffsetYoked n || s.leapTimeOk n vs b)

/-- The checks of a servo set (R155). -/
def State.servoChecks (s : State) (n : Nat) (vs : Staged) : Bool × Bool :=
  let o := 0x01401000 + n * 0x100
  let ps := [0x40, 0x50, 0x60]
  (ps.all (fun p => decide (s.sf vs (o + p) 15 0 ≠ 0) && decide (s.sf vs (o + p + 0x0C) 23 0 ≠ 0)
        && decide ((s.sw vs (o + p + 8)).toNat ≤ hundredThousandth))
      && decide (s.sf vs (o + 0x1C) 7 0 ≠ 0) && decide (s.sf vs (o + 0x1C) 15 8 ≠ 0),
    ps.all (fun p => decide ((s.sw vs (o + p + 4)).toNat * 1000000000 ≤ s.sf vs (o + p) 15 0 * s.sf vs (o + p) 15 0 * 2 ^ 32))
      && decide ((s.sw vs (o + 0x14)).toNat < (s.sw vs (o + 0x18)).toNat))

/-- The checks of a bound set (R183). -/
def State.bndChecks (s : State) (n : Nat) (vs : Staged) : Bool × Bool :=
  let o := bndOff n
  (decide (s.sf vs (o + 0x3C) 23 0 ≠ 0),
    match (List.range 8).reverse.find? (fun k => s.sb vs (o + 0x84 + k * 8) 31) with
    | none => false
    | some k => decide (s.sw vs (o + 0x80 + k * 8) = 0xFFFFFFFF) && decide (s.sf vs (o + 0x84 + k * 8) 29 24 = 0x3F))

/-- Frequency range of an output format in Hz (07, OUT formats). -/
def fmtRange (f : Nat) : Nat × Nat :=
  match f with
  | 0 => (1000, 1500000000)
  | 1 => (1000000, 1500000000)
  | 2 => (1000000, 400000000)
  | 3 => (1000000, 1500000000)
  | _ => (1000, 250000000)

/-- REFUSED_RANGE checks of output j (R194). -/
def State.outRange (s : State) (vs : Staged) (j : Nat) : Bool :=
  let o := outOff j
  let c := s.sf vs o 15 0
  decide (s.sf vs (o + 0x10) 23 0 ≠ 0) && decide (s.sf vs o 30 28 < 6) && decide (s.sf vs o 27 26 ≠ 3)
    && decide (131 ≤ c ∧ c ≤ 6554)

/-- REFUSED_PAIR checks of output j at core frequency `freq` (R194). -/
def State.outPair (s : State) (vs : Staged) (j freq : Nat) : Bool :=
  let o := outOff j
  let d := s.sf vs (o + 0x10) 23 0
  let h := s.sf vs (o + 0x14) 23 0
  let fo := freq / d
  let r := fmtRange (s.sf vs o 30 28)
  decide (freq % d = 0) && decide (r.1 ≤ fo ∧ fo ≤ r.2) && (decide (h = 0) || decide (h < d))
    && decide (s.sw64 vs (o + 0x18) * fo < 1000000000 * 65536)
    && (decide (s.sf vs o 27 26 ≠ 1) || decide (fo ≤ 500000000))

/-- The word a set writes at `o`; 0 where it writes none: ramp registers are one-shot (R74, R190). -/
def stagedWord (vs : Staged) (o : Nat) : Word :=
  match vs.find? (fun v => decide (v.1 = o)) with
  | some v => v.2.1
  | none => 0

/-- Segments of the ramp a set brings: END, 2^-16 Hz, and DUR, ms (R190). -/
def rampSegs (vs : Staged) (k : Nat) : List (Nat × Nat) :=
  (List.range ((stagedWord vs (synOff k + 0x20)).field 3 0)).map (fun i =>
    let o := synOff k + 0x40 + i * 0x10
    ((stagedWord vs o).toNat + (stagedWord vs (o + 4)).field 15 0 * 2 ^ 32, (stagedWord vs (o + 8)).field 15 0))

/-- The rules of a ramp set (R190). The frequencies reached are those of its ends and the one it starts from. -/
def State.rampOk (s : State) (vs : Staged) (k : Nat) : Bool :=
  let o := synOff k
  let f0 := (s.lv (o + 0x10)).toNat
  let segs := rampSegs vs k
  let ends := segs.map (fun p => p.1)
  decide (1 ≤ segs.length ∧ segs.length ≤ 8) && segs.all (fun p => decide (p.2 ≠ 0))
    && carries vs [o + 0x10] && decide (ends.getLast? = some ((s.sw vs (o + 0x10)).toNat * 65536))
    && ends.all (fun e => decide (50 * ((e : Int) - (f0 * 65536 : Nat)).natAbs ≤ f0 * 65536))
    && (s.mapped k).all (fun j =>
        let d := s.sf vs (outOff j + 0x10) 23 0
        let r := fmtRange (s.sf vs (outOff j) 30 28)
        (s.synFreqNow k :: ends).all (fun e => decide (r.1 * d * 65536 ≤ e ∧ e ≤ r.2 * d * 65536)))

/-- A set of a synthesizer carries a ramp: RAMP_EN is one-shot (R190). -/
def State.ramps (s : State) (vs : Staged) (k : Nat) : Bool := carries vs [synOff k] && s.sb vs (synOff k) 1

/-- The checks of a synthesizer set, with its mapped outputs (R185, R190, R194). -/
def State.synChecks (s : State) (k : Nat) (vs : Staged) : Bool × Bool :=
  let o := synOff k
  let f := (s.sw vs (o + 0x10)).toNat
  let r := (s.sw vs (o + 0x14)).toNat
  (decide (1600000000 ≤ f ∧ f ≤ 3200000000) && decide (1 ≤ r ∧ r ≤ hundredThousandth) && (s.mapped k).all (s.outRange vs),
    (s.mapped k).all (fun j => s.outPair vs j f) && (!s.ramps vs k || s.rampOk vs k))

/-- The checks of an output set, against its synthesizer's values in force (R194). -/
def State.outChecks (s : State) (j : Nat) (vs : Staged) : Bool × Bool :=
  (s.outRange vs j, s.outPair vs j (s.lv (synOff (s.f (outOff j + 4) 5 4) + 0x10)).toNat)

/-- A PERIOD of R197. -/
def periodOk (p : Nat) : Bool := decide (p = 2000000000) || (decide (125000 ≤ p ∧ p ≤ 1000000000) && decide (1000000000 % p = 0))

/-- The alignment rules of R200. -/
def State.alignOk (s : State) (vs : Staged) (k : Nat) : Bool :=
  let o := ppsOff k
  let u : Fin 12 := ⟨s.sf vs o 26 24 % 8, by omega⟩
  match s.unitSrc u with
  | none => false
  | some x => decide (s.stopSel (.p u) = 0) && decide (s.gridBase (.p u) = s.ppsTb k)
      && decide (s.fDiv x * (s.sw vs (o + 0x10)).toNat = 1000000000)

/-- The checks of a PPS set (R198). -/
def State.ppsChecks (s : State) (k : Nat) (vs : Staged) : Bool × Bool :=
  let o := ppsOff k
  let p := (s.sw vs (o + 0x10)).toNat
  let w := (s.sw vs (o + 0x14)).toNat
  let todMapped := (List.range 2).any (fun t => s.b 0x01700000 (28 + t) && decide (s.f (todOff t + 4) 2 1 = k))
  (periodOk p && decide (2 ≤ w) && decide (s.sf vs o 29 28 ≠ 3) && decide (s.sf vs (o + 0x2C) 23 0 ≠ 0),
    decide (w + 1 < p) && decide (s.sw64 vs (o + 0x18) < p * 65536) && (decide (s.sf vs o 29 28 = 0) || s.alignOk vs k)
      && (!todMapped || decide (p = 1000000000 ∨ p = 2000000000)))

/-- The checks of a ToD set (R204). -/
def State.todChecks (s : State) (k : Nat) (vs : Staged) : Bool × Bool :=
  let o := todOff k
  let st := s.sf vs o 8 0
  let v := s.sf vs o 29 28
  let u := s.sf vs o 26 24
  (decide (1 ≤ st ∧ st ≤ 500) && decide (v = 1 ∨ v = 2), !s.sb vs o 27 || (s.tbPresent u && s.tbOffsetYoked u))

/-- The status code of a staged set (R76): the first class, in order, with a failing rule; none where it passes. -/
def State.commitCode (s : State) (ch : Chan) (b : Nat) (vs : Staged) : Option Nat :=
  let c : Bool × Bool × Bool × Bool := match ch with
    | .tb n => s.tbChecks n vs b
    | .servo n => let r := s.servoChecks n.val vs; (r.1, r.2, true, true)
    | .bnd n => let r := s.bndChecks n.val vs; (r.1, r.2, true, true)
    | .syn k => let r := s.synChecks k.val vs; (r.1, r.2, true, true)
    | .out k => let r := s.outChecks k.val vs; (r.1, r.2, true, true)
    | .pps k => let r := s.ppsChecks k.val vs; (r.1, r.2, true, true)
    | .tod k => let r := s.todChecks k.val vs; (r.1, r.2, true, true)
  if !c.1 then some 3 else if !c.2.1 then some 4 else if !c.2.2.1 then some 5 else if !c.2.2.2 then some 6
  else if b = 3 ∨ (b = 2 ∧ s.chanPps ch = none) then some 7
  else none

/-! ### Status, interrupts, faults -/

/-- STATE of COMMIT_STAT: 1 copying, 2 armed, 0 idle. -/
def State.commitState (s : State) (ch : Chan) : State :=
  let c := s.chan ch
  s.setF (chanOff ch + 0x0C) 1 0 (if c.staging.isSome then 1 else if c.armed.isSome || c.due.isSome then 2 else 0)

/-- LAST_CODE of COMMIT_STAT. -/
def State.commitLast (s : State) (ch : Chan) (code : Nat) : State := (s.setF (chanOff ch + 0x0C) 11 8 code).commitState ch

/-- A refused commit: COMMIT_REFUSED of the owning block, and REFUSED of its IRQ_STAT where it has one. -/
def State.commitRefused (s : State) (ch : Chan) (code : Nat) : State :=
  let s := s.commitLast ch code
  match ch with
  | .tb n => (s.raise Flt.spnCommitRefused (n.val * 2 ^ 28 + code)).irq .spn 1
  | .servo n => (s.raise Flt.ensCommitRefused (n.val * 2 ^ 28 + code)).irq .ens 3
  | .bnd n => s.raise Flt.bndCommitRefused (n.val * 2 ^ 28 + code)
  | .syn k => (s.raise Flt.synCommitRefused (k.val * 2 ^ 28 + code)).irq .syn 1
  | .out k => (s.raise Flt.outCommitRefused (code * 256 + k.val)).irq .out 1
  | .pps k => (s.raise Flt.outCommitRefused (code * 256 + 16 + k.val)).irq .out 1
  | .tod k => (s.raise Flt.outCommitRefused (code * 256 + 32 + k.val)).irq .out 1

/-- APPLIED of the owning block's IRQ_STAT. -/
def State.appliedIrq (s : State) (ch : Chan) : State :=
  match ch with
  | .tb _ => s.irq .spn 0
  | .servo _ => s.irq .ens 4
  | .bnd _ => s
  | .syn _ => s.irq .syn 0
  | _ => s.irq .out 0

/-! ### Going live -/

/-- Values of a set into force. -/
def State.putLive (s : State) (vs : Staged) : State := vs.foldl (fun s v => s.setLv v.1 v.2.1) s

/-- A base takes an absolute value (R61): PEND and the residue are cleared, and the move is a step when larger than 1 ns. -/
def State.setBase (s : State) (n t : Nat) : State :=
  let d : Int := (t : Int) - s.tbTime n
  let s := s.modBase n (fun b => { b with pendHost := 0, pendServo := 0, remHost := 0, remServo := 0, res := 0 })
  s.moveBase n d

/-- A PADJ is added to PEND (R59), and with PADJ_STEP the whole of PEND to the base (R60). -/
def State.addPadj (s : State) (n : Nat) (padj : Int) (step : Bool) : State :=
  let s := s.modBase n (fun b => { b with pendHost := b.pendHost + padj * subU })
  if step then
    let total := (s.base n).pendHost + (s.base n).pendServo
    let s := s.modBase n (fun b => { b with pendHost := 0, pendServo := 0, remHost := 0, remServo := 0 })
    s.moveBase n total
  else s

/-- A yoked base moves by a committed change of its offset (R67, R68): a step when larger than 1 ns, and not before RUN (R429). -/
def State.yokeMove (s0 s : State) (n : Nat) : State :=
  if s0.tbOffsetYoked n then
    let d : Int := (s.tbTime n : Int) - s0.tbTime n
    if d.natAbs ≤ 2 ^ 40 ∨ !s.running then s else s.baseStepped n (s0.tbTime n) d
  else
    let d := s.yokeOfs n - s0.yokeOfs n
    if d = 0 then s
    else
      let s := s.modBase n (fun b => { b with time := ((b.time + d) % (timeMod : Int)).toNat, phase := b.phase + d })
      if d.natAbs ≤ 2 ^ 40 ∨ !s.running then s else s.baseStepped n (s0.tbTime n) d

/-- A time-base set goes live (R58-R62, R67, R68): MODE, the host's adjustment, SET, PADJ, the yoke. -/
def State.liveTb (s : State) (n : Nat) (vs : Staged) : State :=
  let o := tbOff n
  let s0 := s
  let s := s.putLive vs
  if s.tbYoked n then
    let s := s0.yokeMove s n
    s.boundEval (s.tbMaster n)
  else
    let s := if carries vs [o + 0x18, o + 0x1C] ∧ s.tbHost n then
        s.modBase n (fun b => { b with fnow := signedOf 48 (s.lv64 (o + 0x18) % 2 ^ 48) }) else s
    let s := s.tbEval n
    let s := if carriesSet n vs then s.setBase n (timeOfWords (s.lv (o + 0x40)) (s.lv (o + 0x44)) (s.lv (o + 0x48))) else s
    let s := if carriesPadj n vs then s.addPadj n (signedOf 64 (s.lv64 (o + 0x28))) (s.lb o 1) else s
    s.boundEval n

/-- A servo set goes live: a new SLEW of the profile in use is the servo's rate from now on (R60, R155), and the run counts are held against the
counts now in force (R156). -/
def State.liveServo (s : State) (n : Nat) (vs : Staged) : State :=
  let s := s.putLive vs
  let p := s.f (ensOff n + 4) 27 26
  let s := if p < 3 ∧ carries vs [ensOff n + 0x4C + p * 0x10] then
      s.modBase n (fun b => { b with servoRate := s.lf (ensOff n + 0x4C + p * 0x10) 23 0 }) else s
  (if s.freeBase n then s.lockEval n (s.followed n) else s).boundEval n

/-- Output j has taken new values, over the state before (R195, R196): a change of DIV, HIGH or FMT completes the cycle in the old waveform and
holds the output low, in the new format, until the first rising edge of the new one after the next second of the base that the cycle does not
run over; a change of PHASE alone lengthens the first period that begins after the live tick, a further one the same period (DEDUCED, log
entry 45); EN, the policy and CEIL act at once. -/
def State.liveOut (s0 s : State) (j : Nat) : State :=
  let k := s.outSyn j
  let st := s.synState k
  let o := outOff j
  let now := s.synNow k
  let cur := s.waveNow j
  let next := s.waveNext j
  let last := s.waveLast j
  let kind : WaveKind := match s.squelchSource j st with
    | 0 => .low
    | 1 => if synDrives st then .core else .loose
    | _ => .own
  let changed := fun (r : Nat) => decide (s.lv (o + r) ≠ s0.lv (o + r))
  let w := s.target j kind
  if s.squelchSource j st ≠ s.f (o + 4) 3 2 ∨ kind = .low ∨ kind = .loose then s.drive j st
  else if changed 0x10 || changed 0x14 || decide (s.outFmt j ≠ s0.outFmt j) then
    let e := if cur.kind = .low then now else s.nextRise k cur (now + 1)
    let second := max (now / secU + 1) (-(-e / secU)) * secU
    s.guarded j [cur, { kind := .low, fmt := w.fmt, from_ := e
                        edge := if cur.kind = .low then cur.edge else some (e - cyclesTime cur.period (s.waveFreq k cur)) },
      { w with from_ := s.nextRise k w second }]
  else if changed 0x18 || changed 0x1C then
    let by_ : Int := ((s.lv64 (o + 0x18) : Int) - s0.lv64 (o + 0x18)) * subU
    if last.kind = kind ∧ ¬ next.isEmpty then
      let w := { last with org := last.org + by_ }
      s.setWaves j ((cur :: next).dropLast ++ [{ w with from_ := s.nextRise k w last.from_ }])
    else if cur.kind = kind then
      let per := cyclesTime cur.period (s.waveFreq k cur)
      let e := s.nextRise k cur now + per
      let w := { cur with org := cur.org + by_ }
      s.setWaves j [cur, { kind := .low, fmt := w.fmt, from_ := e, edge := some (e - per) }, { w with from_ := s.nextRise k w e }]
    else s.guarded j [cur, { w with from_ := s.nextRise k w ((now / secU + 1) * secU) }]
  else s.drive j st

/-- REALIGN goes on from where the phase now is: its rate or the common period of the outputs is about to change (R189). -/
def State.rephase (s : State) (k : Nat) : State :=
  if s.synState k = synREALIGN then s.realignHere k (s.corePhase k) else s

/-- An output set goes live (R195, R196). -/
def State.liveOutSet (s : State) (j : Nat) (vs : Staged) : State :=
  let s := s.rephase (s.outSyn j)
  (s.liveOut (s.putLive vs) j).healthFall

/-- A synthesizer set goes live, with its outputs (R188, R190). RAMP_EN is one-shot; under a ramp FREQ in force stays until the
last segment ends. Of a set that changes FREQ or carries a ramp in SEARCH, LOCKING or ALIGN_WAIT, or changes FREQ without a ramp in RAMP, R188 has
no row: the synthesizer stays in its state with its BAND, FREQ is in force at once and the ramp is dropped (DESIGN CHOICE, log entry 53). -/
def State.liveSyn (s : State) (k : Nat) (vs : Staged) : State :=
  let o := synOff k
  let st := s.synState k
  let now := s.synNow k
  let f0 := (s.lv (o + 0x10)).toNat
  let from_ := s.synFreqNow k
  let ramp := s.ramps vs k && synDrives st
  let search := decide (st = synOFF ∨ st = synFAIL) || (!ramp && decide (s.sw vs (o + 0x10) ≠ s.lv (o + 0x10)) && decide (st = synRUN ∨ st = synREALIGN))
  let leaves := !s.sb vs o 31 || search
  let s := if leaves then (s.guardFree k).freezeOuts k else s.rephase k
  let s0 := s
  let s := s.putLive (if ramp then vs.filter (fun v => v.1 ≠ o + 0x10) else vs)
  let s := s.setLv o ((s.lv o).setField 1 1 0)
  let s := if leaves then s else (s.mapped k).foldl s0.liveOut s
  if !s.lb o 31 then ((s.synEnter k synOFF).modSyn k (fun y => { y with ramp := none })).synAligned k false
  else if search then s.synSearch k
  else if ramp then
    let s := s.modSyn k (fun y => { y with
      off := s0.corePhase k + ((s0.synRef k : Int) - f0) * now
      ramp := some { fromFreq := from_, start := now, ref := f0, segs := rampSegs vs k } })
    (s.synEnter k synRAMP).synAligned k false
  else s.healthFall

/-- A PPS set goes live (R198, R200): an edge due on the live tick is still of the old pattern, the first edge after it is the first
in the new one; ONCE waits for the first result after it. A set that leaves ONCE in force arms it anew: R200 says "the live tick" and does not
say of which set (DESIGN CHOICE, log entry 53). -/
def State.livePps (s : State) (k : Nat) (vs : Staged) : State :=
  let s := (s.ppsEdge k).putLive vs
  let now := s.tbTime (s.ppsTb k)
  let once := s.alignMode k = 1
  let fresh := carries vs ([0x10, 0x18, 0x1C].map (ppsOff k + ·))
  (({ s with pps := listMod s.pps k (fun p => { p with
      last := some (match p.last with
        | some l => if fresh then now else max l now
        | none => now)
      once := once || (p.once && decide (s.alignMode k = 1)), track := 0 }) } : State).retargetPps k).healthFall

/-- A ToD channel whose EN in force is 0 sends nothing: a message that waits for its start is dropped (R201). -/
def State.todSilence (s : State) (k : Fin 2) : State :=
  if s.lb (todOff k) 31 then s else { s with tod := listMod s.tod k (fun t => { t with trig := none }) }

/-- A set without the writes that another set has put into force (R74): a one-shot field acts once per write. -/
def CommitSet.without (c : CommitSet) (gone : Staged) : CommitSet :=
  { c with vals := c.vals.filter (fun v => !gone.any (fun g => decide (g.1 = v.1) && decide (g.2.2 = v.2.2))) }

/-- A set goes live (R74, R77): its values take effect, the pending flags of fields not written since the copy clear, APPLIED
counts, and LAST_CODE is APPLIED. -/
def State.goLive (s : State) (ch : Chan) (c : CommitSet) : State :=
  let s := match ch with
    | .tb n => s.liveTb n.val c.vals
    | .servo n => s.liveServo n.val c.vals
    | .bnd n => (s.putLive c.vals).mapShow n.val
    | .syn k => s.liveSyn k.val c.vals
    | .out k => s.liveOutSet k.val c.vals
    | .pps k => s.livePps k.val c.vals
    | .tod k => ((s.putLive c.vals).todSilence k).healthFall
  let s := { s with pendSh := s.pendSh.filter (fun p => !c.vals.any (fun v => decide (v.1 = p.1) && decide (v.2.2 = p.2))) }
  let less := fun (x : Option CommitSet) => x.map (fun y => y.without c.vals)
  let s := s.modChan ch (fun x => { x with staging := less x.staging, armed := less x.armed, behind := less x.behind, due := less x.due })
  ((s.count (chanOff ch + 0x0C) 31 16 1).commitLast ch 2).appliedIrq ch

/-! ### The machine of a channel -/

/-- The pending values of a channel (R75). -/
def State.pendingOf (s : State) (ch : Chan) : Staged :=
  (s.pendSh.filter (fun p => s.inChan ch p.1)).map (fun p => (p.1, s.rd p.1, p.2))

/-- A host write to a shadowed register lands in the shadow and sets its pending flag (R17, R74). -/
def State.shadowWrite (s : State) (a : Nat) (v : Word) : State :=
  let n := s.shStamp + 1
  let s := s.wr a v
  { s with shStamp := n, pendSh := mapSet (fun _ => 0) s.pendSh a n }

/-- A COMMIT begins its copy (R75). -/
def State.commitStart (s : State) (ch : Chan) (b : Nat) : State :=
  let vs := s.pendingOf ch
  (s.modChan ch (fun c => { c with staging := some { boundary := b, vals := vs } })).commitState ch

/-- A host write to COMMIT: it starts a copy, or is held while one runs (R75). -/
def State.wCommit (s : State) (i : Itf) (ch : Chan) (v : Word) : State :=
  if (s.chan ch).staging.isSome then
    s.modChan ch (fun c => { c with held := c.held ++ [{ itf := i, off := chanOff ch + 8, v := v }] })
  else s.commitStart ch (v.field 1 0)

/-- A host write to a shadowed register: held while a copy of its channel runs (R75). -/
def State.wShadow (s : State) (i : Itf) (a : Nat) (v : Word) : State :=
  match s.copying a with
  | some ch => s.modChan ch (fun c => { c with held := c.held ++ [{ itf := i, off := a, v := v }] })
  | none => s.shadowWrite a v

/-- Arming (R77, R78): a set that is not yet fixed is replaced; behind a fixed one the new set waits. -/
def State.arm (s : State) (ch : Chan) (c : CommitSet) : State :=
  let v := s.countNow (s.chanTb ch)
  let tgt := if c.boundary = 0 then 0 else (s.boundaryAt ch c.boundary (v + lockLead)).getD 0
  match (s.chan ch).armed with
  | some a =>
    if a.fixed then
      let tgt := if c.boundary ≠ 0 ∧ tgt ≤ a.target then (s.boundaryAt ch c.boundary (a.target + 1)).getD 0 else tgt
      s.modChan ch (fun x => { x with behind := some { c with target := tgt } })
    else s.modChan ch (fun x => { x with armed := some { c with target := tgt } })
  | none => s.modChan ch (fun x => { x with armed := some { c with target := tgt } })

/-- One held write after the copy (R75): a shadow write lands, a COMMIT starts a copy of its own, and what follows it waits for
that copy. -/
def State.release (s : State) (ch : Chan) (h : HeldWrite) : State :=
  if h.off = chanOff ch + 8 then s.wCommit h.itf ch h.v
  else s.wShadow h.itf h.off h.v

/-- The armed set goes live, and the one behind it moves up (R77, R78). On a ToD channel that sends, it waits for the stop bit
(R204). -/
def State.liveArmed (s : State) (ch : Chan) (c : CommitSet) : State :=
  let s := s.modChan ch (fun x => { x with armed := x.behind, behind := none })
  match ch with
  | .tod k => if s.b (todOff k.val + 4) 0 then (s.modChan ch (fun x => { x with due := some c })).commitState ch else s.goLive ch c
  | _ => s.goLive ch c

/-- COMMIT_WRITE (R75). -/
def execCommitWrite (i : Itf) (ch : Chan) (v : Word) (s : State) : Out :=
  .next (s.reach i (chanOff ch + 8) v (fun s => s.wCommit i ch v))

/-- LOCK_POINT (R77): 2.0 µs of the base before its boundary the armed set is fixed. -/
def execLockPoint (ch : Chan) (s : State) : Out :=
  match (s.chan ch).armed with
  | some c =>
    if c.boundary ≠ 0 ∧ c.target ≤ s.countNow (s.chanTb ch) + lockLead then
      .next (s.modChan ch (fun x => { x with armed := some { c with fixed := true } }))
    else .next s
  | none => .next s

/-- COMMIT_LIVE (R77, R79): the armed set goes live once its base has reached the boundary. On the tick of an unsmeared leap it waits for the
leap (R71). -/
def execCommitLive (ch : Chan) (s : State) : Out :=
  match (s.chan ch).armed with
  | some c =>
    if !s.leapDue (s.chanTb ch) && (decide (c.boundary = 0) || decide (c.target ≤ s.tbTime (s.chanTb ch))) then .next (s.liveArmed ch c) else .next s
  | none => .next s

/-- The sets armed on base `n` over an unsmeared leap, before which its count was `at_` and after which it is `c` (R71, R77): the seconds to
come are the ones the new count brings, one second off; an edge to come is the next the pin has then; a set whose boundary has come goes live. -/
def State.leapSets (s : State) (n : Nat) (at_ c : Int) : State :=
  let re := fun (ch : Chan) (x : CommitSet) =>
    if x.boundary = 0 then x
    else if (x.target : Int) < at_ then { x with target := min x.target c.toNat }
    else if x.boundary = 1 then { x with target := ((x.target : Int) + (c - at_)).toNat }
    else { x with target := (s.boundaryAt ch 2 c.toNat).getD x.target }
  { s with chans := (allChans.zip s.chans).map (fun p =>
      if s.chanTb p.1 = n then { p.2 with armed := p.2.armed.map (re p.1), behind := p.2.behind.map (re p.1) } else p.2) }

/-- The leap of an OFFSET-type base takes effect (R71, R72): LEAP_OFS changes by one second, DIR in force returns to 0 at
once, or at the end of a smear window; SPN/LEAP_APPLIED is raised. It is no step. The master must have reached LEAP_AT; a smear window that
the master has entered on this tick opens first. -/
def execLeapApplied (n : Fin 8) (s : State) : Out :=
  let dir := s.leapDir n
  if s.tbOffsetYoked n && decide (dir = 1 ∨ dir = 3) && !(s.base n).leapDone
      && decide (s.leapAt n ≤ s.tbSec (s.tbMaster n)) then
    let s := s.smearOpen n
    let o := tbOff n + 0x60
    let ofs := wrapTo 16 (s.leapOfs n + leapSign dir)
    let smeared := (s.base n).smearing
    let at_ := s.leapCount n
    let c := at_ - leapSign dir * secU
    let s := s.setLv o ((s.lv o).setField 15 0 ofs)
    let s := s.raise Flt.spnLeapApplied (n.val * 2 ^ 28 + dir)
    let s := s.irq .spn 4
    if smeared then .next (s.modBase n (fun b => { b with leapDone := true }))
    else
      let s := ((s.setLv o ((s.lv o).setField 17 16 0)).leapPps n c.toNat (decide (dir = 1))).synShift n (-(leapSign dir * secU))
      let s := s.leapSets n at_ c
      if dir = 1 then .next (s.modBase n (fun b => { b with leapSec := true, leapSecEnd := c.toNat / secU + 1 }))
      else .next (s.slotPass n at_.toNat (c.toNat - 1))
  else .next s

/-- A commit whose live tick is this one (R82, R429): copied, checked and put into force at once, in place of an armed set that is not
fixed (R78). R82 gives the firing tick as its live tick and says nothing of a copy of the channel that runs or of a fixed set: the
commit takes neither into account and goes live ahead of the fixed set, whose own values apply at its boundary (DESIGN CHOICE, log
entry 41). Answers the code of a refusal. -/
def State.commitNow (s : State) (ch : Chan) : Option Nat × State :=
  let vs := s.pendingOf ch
  match s.commitCode ch 0 vs with
  | some code => (some code, s.commitRefused ch code)
  | none =>
    let s := s.modChan ch (fun x => match x.armed with
      | some a => if a.fixed then x else { x with armed := none }
      | none => x)
    (none, s.goLive ch { boundary := 0, vals := vs })

/-- TOD_MESSAGE_END (R201, R204): the last stop bit is out; a set whose boundary fell meanwhile goes live. -/
def execTodMessageEnd (k : Fin 2) (s : State) : Out :=
  let c := s.tod.getD k {}
  let n := s.chanTb (.tod k)
  if s.b (todOff k.val + 4) 0 && (decide (c.ends ≤ s.countNow n) || decide ((s.base n).steps ≠ c.steps)) then
    let s := s.setB (todOff k.val + 4) 0 false
    match (s.chan (.tod k)).due with
    | some c => .next ((s.modChan (.tod k) (fun x => { x with due := none })).goLive (.tod k) c)
    | none => .next s
  else .next s

end Sys2Proof.Machine
end

