-- ==== Sys2Proof/Machine/Outputs.lean ====
section
/-! DEFINITION. The commands of the synthesizers, the PPS pins and the ToD channels (07 R184-R204). -/
namespace Sys2Proof.Machine

/-! ### Synthesizers (R188) -/

/-- SYN_SEARCH_DONE (R186, R188): the search has found a band, the one whose centre lies nearest FREQ, or none that reaches FREQ. -/
def execSynSearchDone (k : Fin 4) (found : Bool) (edges : List (Fin 12 × List Nat)) (s : State) : Out :=
  if s.synState k = synSEARCH then
    let s := s.guards k edges
    if found then .next ((s.setF (synOff k + 4) 21 16 (bandOf (s.lv (synOff k + 0x10)).toNat)).synEnter k synLOCKING)
    else .next (s.synRetry k)
  else .next s

/-- SYN_LOOP_SETTLED (R188): the loop error has stayed within ±10 ps for 50 µs. -/
def execSynLoopSettled (k : Fin 4) (edges : List (Fin 12 × List Nat)) (s : State) : Out :=
  if s.synState k = synLOCKING ∧ (s.syn k).since + 100000 ≤ s.spn.ticks then .next ((s.guards k edges).synEnter k synALIGN) else .next s

/-- SYN_LOCKING_TIMEOUT (R188): 2 ms in LOCKING. -/
def execSynLockingTimeout (k : Fin 4) (edges : List (Fin 12 × List Nat)) (s : State) : Out :=
  if s.synState k = synLOCKING ∧ (s.syn k).since + 4000000 ≤ s.spn.ticks then .next ((s.guards k edges).synRetry k) else .next s

/-- SYN_ALIGN_START (R187, R188): on the first second boundary of its base since it entered ALIGN_WAIT the dividers start and squelch
ends. -/
def execSynAlignStart (k : Fin 4) (edges : List (Fin 12 × List Nat)) (s : State) : Out :=
  if s.synState k = synALIGN ∧ (s.syn k).alignFrom / secU < s.synNow k / secU then
    let s := (((s.guards k edges).synEnter k synRUN).synAligned k true).count (synOff k + 0x1C) 31 0 1
    .next ((s.raise Flt.synLocked (k.val * 2 ^ 28 + s.f (synOff k + 4) 21 16)).irq .syn 2)
  else .next s

/-- SYN_UNLOCK (R188): the loop error passes ±1 ns. -/
def execSynUnlock (k : Fin 4) (edges : List (Fin 12 × List Nat)) (s : State) : Out :=
  if synDrives (s.synState k) then
    let s := (s.guards k edges).synSearch k
    .next ((s.raise Flt.synUnlock (k.val * 2 ^ 28 + s.f (synOff k + 4) 21 16)).irq .syn 3)
  else .next s

/-- RAMP_DONE (R188, R190): the last segment ends, after the durations of all; FREQ in force is its END. -/
def execRampDone (k : Fin 4) (edges : List (Fin 12 × List Nat)) (s : State) : Out :=
  match (s.syn k).ramp with
  | none => .next s
  | some r =>
    if s.synState k = synRAMP ∧ r.start + rampLasts r.segs ≤ s.synNow k then
      let f := ((r.segs.getLast?).getD (0, 0)).1 / 65536
      let off := s.corePhase k + ((r.ref : Int) - f) * s.synNow k
      let s := ((s.guards k edges).setLv (synOff k + 0x10) (BitVec.ofNat 32 f)).realignHere k off
      .next (((s.synEnter k synREALIGN).raise Flt.synRampDone (k.val * 2 ^ 28)).irq .syn 5)
    else .next s

/-- SYN_REALIGNED (R188, R189): the phase has moved so far that every mapped output is within ±2 ps of its place. -/
def execSynRealigned (k : Fin 4) (edges : List (Fin 12 × List Nat)) (s : State) : Out :=
  if s.synState k = synREALIGN ∧ (s.corePhase k).natAbs * 500 ≤ s.synRef k * 2 ^ 40 then
    .next (((s.guards k edges).synEnter k synRUN).synAligned k true)
  else .next s

/-! ### PPS pins (R197-R200) -/

/-- PPS_EDGE (R197-R199). -/
def execPpsEdge (k : Fin 4) (s : State) : Out := .next (s.ppsEdge k.val)

/-- PPS_PULSE_END (R197, R198): the pulse of a pin ends once WIDTH has passed; a step of the base meanwhile changes nothing of it. -/
def execPpsPulseEnd (k : Fin 4) (s : State) : Out :=
  let p := s.pps.getD k {}
  let n := s.ppsTb k
  if s.b (ppsOff k + 4) 0 && (decide (p.ends ≤ s.countNow n) || decide ((s.base n).steps ≠ p.steps)) then
    .next (s.setB (ppsOff k + 4) 0 false)
  else .next s

/-! ### ToD messages (R201-R203) -/

/-- One bit step of CRC-16 with polynomial 0x1021 (R203). -/
def crc16Step (c : Nat) : Nat := if c / 2 ^ 15 % 2 = 1 then (c * 2 % 2 ^ 16) ^^^ 0x1021 else c * 2 % 2 ^ 16

/-- CRC-16 over bytes: polynomial 0x1021, initial value 0xFFFF, no reflection, no final XOR (R203). -/
def crc16 (l : List Byte) : Nat :=
  l.foldl (fun c b => (List.range 8).foldl (fun c _ => crc16Step c) (c ^^^ (b.toNat * 256))) 0xFFFF

/-- UTC_OFS and LEAP of a message (R202): from LEAP_STAT of UTC_TB when UTC_EN is 1. -/
def State.todUtc (s : State) (t : Nat) : List Byte × Byte :=
  let u := s.lf (todOff t) 26 24
  if s.lb (todOff t) 27 then
    let b := s.base u
    (beBytes 2 (s.lf (tbOff u + 0x60) 15 0),
     BitVec.ofNat 8 (s.leapDir u + (if b.leapSec then 4 else 0) + (if b.smearing then 8 else 0) + 16))
  else (beBytes 2 0, 0)

/-- The body of a ToD message naming edge `e`, without its CRC (R202, R203). -/
def State.todBody (s : State) (t e : Nat) (g : TodTrigger) (seq : Nat) : List Byte :=
  let k := s.f (todOff t + 4) 2 1
  let n := s.ppsTb k
  let sec := beBytes 6 (e / secU)
  let ns := beBytes 4 (e % secU / 2 ^ 40)
  let utc := s.todUtc t
  let cls : Byte := BitVec.ofNat 8 (g.qual.field 23 16)
  let acc : Byte := BitVec.ofNat 8 (clockAccuracy g.p)
  if s.lf (todOff t) 29 28 = 1 then
    [0xA5, 0x5A, 0x01, 0x18] ++ sec ++ ns ++ utc.1
      ++ [utc.2, BitVec.ofNat 8 (g.flags % 4 + g.flags / 8 % 2 * 4), cls, acc, 0, 0]
  else
    [0xA5, 0x5A, 0x02, 0x2C, BitVec.ofNat 8 seq, BitVec.ofNat 8 (n + (if s.lb (todOff t) 30 then 0x40 else 0))]
      ++ sec ++ ns ++ beBytes 2 (e % 2 ^ 40 / 2 ^ 24) ++ utc.1 ++ [utc.2, cls] ++ g.bluta
      ++ [BitVec.ofNat 8 (g.qual.field 7 4), BitVec.ofNat 8 (g.qual.field 15 8), acc, 0]

/-- Line rate of a ToD channel, bit/s (R201, BAUD). -/
def todRate (baud : Nat) : Nat := [9600, 19200, 38400, 57600, 115200, 230400, 460800, 921600].getD baud 115200

/-- A byte on the line (R201): start bit low, eight data bits, least significant first, stop bit high. -/
def todFrame (x : Byte) : List Bool := [false] ++ (List.range 8).map (fun i => x.toNat.testBit i) ++ [true]

/-- TOD_MESSAGE (R201, R202): START_OFS ms after its edge a message starts, at the rate of BAUD. It names the triggering edge, or the
pin's next; a base that has stepped since gives values from after the step, and the message then starts at once (DESIGN CHOICE, log
entry 42). -/
def execTodMessage (k : Fin 2) (s : State) : Out :=
  let o := todOff k
  let p := s.f (o + 4) 2 1
  let n := s.ppsTb p
  match (s.tod.getD k {}).trig with
  | none => .next s
  | some g =>
    let stepped := decide ((s.base n).steps ≠ g.steps)
    let due := g.from_ + s.lf o 8 0 * 1000000 * 2 ^ 40
    if !s.lb o 31 || s.b (o + 4) 0 || !s.domOn 3 || (!stepped && decide (s.countNow n < due)) then .next s
    else
      let g := if stepped then
          { g with edge := (edgeBefore (s.ppsOfs p) (s.ppsPeriod p) (s.tbTime n)).getD 0, bluta := s.blutaBody n, flags := s.blutaFlags n
                   p := (s.rd (bndOff n)).toNat, qual := s.rd (bndOff n + 0x38) } else g
      let e := if s.lb o 30 then s.ppsNamed p else g.edge
      let seq := (s.tod.getD k {}).sent
      let m := s.todBody k e g seq
      let msg := m ++ beBytes 2 (crc16 m)
      let start := if stepped then s.tbTime n else due
      let rate := todRate (s.lf o 18 16)
      let ends := start + (msg.length * 10 * secU + rate - 1) / rate
      let s := { s with tod := listMod s.tod k.val (fun _ =>
        { trig := none, sent := (seq + 1) % 256, ends := ends, steps := (s.base n).steps }) }
      let s := (s.setF (o + 4) 31 24 seq).setB (o + 4) 0 true
      .next (if s.released (24 + k.val) then s else s.emit (.tod k.val start rate (msg.flatMap todFrame)))

end Sys2Proof.Machine
end

