-- ==== Sys2Proof/Machine/Slots.lean ====
section
/-! DEFINITION. The scheduler and the EVT pins (02 R80-R85, 07 R205). -/
namespace Sys2Proof.Machine

/-- SPN/SLOT_REFUSED with its reason (R80). -/
def State.slotRefuse (s : State) (i reason : Nat) : State := s.raise Flt.spnSlotRefused (i * 2 ^ 26 + reason)

/-- The reason of the first arming check that fails (R80); none where all pass. -/
def State.slotCheck (s : State) (i : Nat) : Option Nat :=
  let o := spnSlot i
  let n := s.f o 26 24
  let per := (s.rd (o + 0x10)).toNat
  let w := (s.rd (o + 0x14)).toNat
  if !s.tbPresent n then some 6
  else if !validTime (s.rd (o + 4)) then some 2
  else if w < 2 ∨ (per ≠ 0 ∧ per ≤ w) then some 3
  else if per ≠ 0 ∧ per < 1000 ∧ s.f o 20 16 ≠ 1 then some 4
  else if s.slotTarget i < s.tbTime n + lockLead ∧ !s.b o 29 then some 5
  else none

/-- A host write to SLOT_CTL (R80): of an idle slot it sets the RW fields and, with ARM, checks and arms; of an armed one it
cancels, or is discarded with reason 1. -/
def State.wSlotCtl (s : State) (i : Nat) (v : Word) : State :=
  let o := spnSlot i
  if (s.slot i).armed then
    if v.bit 30 then (s.setB o 31 false).modSlot i (fun x => { x with armed := false, skip := none })
    else s.slotRefuse i 1
  else
    let s := s.wr o (v &&& 0x271F0007)
    if v.bit 31 then
      match s.slotCheck i with
      | some r => s.slotRefuse i r
      | none =>
        let late := decide (s.slotTarget i < s.tbTime (s.f o 26 24) + lockLead)
        ((s.setB o 31 true).setF (o + 0x1C) 31 16 0).modSlot i (fun _ => { armed := true, occ := 0, late := late })
    else s

/-- A host write to another register of a slot (R80): only while it is idle. SLOT_STAT's bits clear by writing 1. -/
def State.wSlotReg (s : State) (i off : Nat) (v : Word) : State :=
  if (s.slot i).armed then s.slotRefuse i 1
  else if off = 0x1C then s.wr (spnSlot i + off) (s.rd (spnSlot i + off) &&& ~~~(v &&& 7))
  else s.wr (spnSlot i + off) v

/-- SLOT_ARM (R80): a SLOT_CTL write with ARM = 1. -/
def execSlotArm (i : Itf) (k : Fin 64) (v : Word) (s : State) : Out :=
  .next (s.reach i (spnSlot k.val) (v ||| 0x80000000) (fun s => s.wSlotCtl k.val (v ||| 0x80000000)))

/-- SLOT_CANCEL (R80, R83): a SLOT_CTL write with CANCEL = 1. -/
def execSlotCancel (i : Itf) (k : Fin 64) (v : Word) (s : State) : Out :=
  .next (s.reach i (spnSlot k.val) (v ||| 0x40000000) (fun s => s.wSlotCtl k.val (v ||| 0x40000000)))

/-- 2 ns, 2^-40 ns: pulses on a pin that leave a shorter gap merge (R84). -/
def evtGapMin : Int := 2 * 2 ^ 40

/-- When base `n` stands at `t`, on the spine, 2^-40 ns: within the running tick the base is taken to run as the spine does. That WIDTH and the
gap between two pulses of a pin, whose slots can be on two bases, are counted on the spine is DEDUCED (log entry 40). -/
def State.spineAt (s : State) (n t : Nat) : Int := (s.spn.ticks * nominalInc : Nat) - ((s.tbTime n : Int) - t)

/-- The pulses of EVT pin `p` that run or have ended last: their ends on the spine, and whether the pin shows them (R84). -/
def State.evtPulses (s : State) (p : Nat) : List (Int × Bool) := s.spn.evtOn.getD p [] ++ (s.spn.evtEnd.getD p none).toList

/-- EVT pin `p` stays active between two pulses that leave a gap of less than 2 ns (R84): an armed slot with PIN begins its pulse that soon
after the last one. -/
def State.evtBridge (s : State) (p : Nat) : Bool :=
  (List.range 64).any (fun i =>
    let o := spnSlot i
    let n := s.f o 26 24
    (s.slot i).armed && s.b o 16 && decide (s.f o 2 0 = p)
      && (s.evtPulses p).any (fun x => decide (s.spineAt n (s.slotAt i (s.slot i).occ) < x.1 + evtGapMin)))

/-- ACTIVE of an EVT pin follows the pulses on it (R84). -/
def State.evtActive (s : State) (p : Nat) : State := s.setB 0x01000040 p (!(s.spn.evtOn.getD p []).isEmpty)

/-- A pulse begins on EVT pin `p` when base `n` is at `at_` (R82, R84, R205): merged, with OVERLAP, with one that still runs or ended less than
2 ns before; no edge of it shows where that one does. A pin whose driver is off, or a shared one that is released, shows nothing. -/
def State.evtPulse (s : State) (p n at_ width : Nat) : State :=
  let o := 0x01703800 + p * 0x10
  let start := s.spineAt n at_
  let near := (s.evtPulses p).filter (fun x => decide (start < x.1 + evtGapMin))
  let shown := s.b o 31 && s.domOn 3 && !s.released (12 + p)
  let s := if near.isEmpty then s else (s.setB 0x01000040 (8 + p) true).raise Flt.spnEvtOverlap p
  let s := (s.modSpn (fun x => { x with evtOn := listMod x.evtOn p (· ++ [(start + width * 2 ^ 40, shown)]) })).evtActive p
  let ball := psOf ((at_ : Int) - signedOf 32 (s.rd (o + 4)).toNat * subU)
  if shown then s.emit (if near.any (fun x => x.2) then .evtMore p ball width else .evt p ball width (!s.b o 30)) else s

/-- The actions of a slot that fires for the occurrence at `t`, its pulse beginning at `at_` (R82). -/
def State.slotActions (s : State) (i at_ : Nat) : State :=
  let o := spnSlot i
  let n := s.f o 26 24
  let s := if s.b o 16 then s.evtPulse (s.f o 2 0) n at_ (s.rd (o + 0x14)).toNat else s
  let s := if s.b o 17 then (s.setB (0x01000038 + i / 32 * 4) (i % 32) true).irq .spn 2 else s
  let s := if s.b o 18 then s.snapRequest .pcie (2 ^ n) else s
  let s := if h : s.b o 19 ∧ n < 8 then (s.commitNow (.tb ⟨n, h.2⟩)).2 else s
  if s.b o 20 then
    s.traceWrite 3 ([BitVec.ofNat 8 i, BitVec.ofNat 8 n, 0, 0] ++ timeBytes (s.slotTarget i))
  else s

/-- A slot is due: its base has reached the next occurrence. On the tick of an unsmeared leap it waits for the leap (R71). -/
def State.slotDue (s : State) (i : Nat) : Bool :=
  let n := s.f (spnSlot i) 26 24
  (s.slot i).armed && !s.leapDue n && decide (s.slotAt i (s.slot i).occ ≤ s.tbTime n)

/-- SLOT_FIRE (R81-R84): a slot that is due fires, after every lower one that is due. It fires late only under LATE_OK, where its base had reached the
target on an earlier tick; the first of the occurrences that a forward step passed fires for them all, with SKIPPED; after the last occurrence it is
idle with DONE. Of a periodic LATE_OK slot the spec says LATE of the target alone: a later occurrence that lies past at arming too fires as due, one
after another, without LATE (DESIGN CHOICE, log entry 40). -/
def execSlotFire (k : Fin 64) (s : State) : Out :=
  let i := k.val
  let o := spnSlot i
  let sl := s.slot i
  let n := s.f o 26 24
  let t := s.slotAt i sl.occ
  let now := s.tbTime n
  if s.slotDue i && (List.range i).all (fun j => !s.slotDue j) then
    let late := sl.late && decide (sl.occ = 0) && decide (t ≤ s.spn.prev.getD n 0)
    let s := if late then (s.setB (o + 0x1C) 1 true).raise Flt.spnSlotLate (i * 2 ^ 26) else s
    let skip : Option Nat := (sl.skip.filter (fun x => decide (x.1 = sl.occ))).map (fun x => x.2)
    let s : State := match skip with
      | some m => (s.setB (o + 0x1C) 2 true).raise Flt.spnSlotSkipped (i * 2 ^ 26 + satAt (2 ^ 26 - 1) m)
      | none => s
    let s : State := s.slotActions i (if late || skip.isSome then now else t)
    let s : State := s.count (o + 0x1C) 31 16 1
    let next : Nat := sl.occ + 1 + skip.getD 0
    let cnt : Nat := (s.rd (o + 0x18)).toNat
    if s.rd (o + 0x10) = 0 ∨ (cnt ≠ 0 ∧ cnt ≤ next) then
      .next (((s.setB o 31 false).setB (o + 0x1C) 0 true).modSlot i (fun _ => {}))
    else .next (s.modSlot i (fun x => { x with occ := next, skip := if skip.isSome then none else x.skip }))
  else .next s

/-- EVT_PULSE_END (R84): the pulses of an EVT pin whose WIDTH has passed end; the pin is active while any other runs, and over a gap of less than
2 ns (`State.evtBridge`). -/
def execEvtPulseEnd (p : Fin 8) (s : State) : Out :=
  let now : Int := (s.spn.ticks * nominalInc : Nat)
  let ended := (s.spn.evtOn.getD p.val []).filter (fun x => decide (x.1 ≤ now))
  if ended.isEmpty then .next s
  else
    .next ((s.modSpn (fun x => { x with
      evtOn := listMod x.evtOn p.val (·.filter (fun y => !decide (y.1 ≤ now)))
      evtEnd := listMod x.evtEnd p.val (fun e => ended.foldl (fun (b : Option (Int × Bool)) y => match b with
        | some z => if z.1 ≤ y.1 then some y else some z
        | none => some y) e) })).evtActive p.val)

end Sys2Proof.Machine
end

