-- ==== Sys2Proof/Machine/Gnss.lean ====
section
/-! DEFINITION. The GNSS baseband (08 R208-R234). -/
namespace Sys2Proof.Machine

/-- GNS_STAT. -/
def gnsStat : Nat := 0x01800014

/-- Source states (R226). -/
def srcOFF : Nat := 0
def srcNOFIX : Nat := 1
def srcCONFIRM : Nat := 2
def srcVALID : Nat := 3

/-- Source state (GNS_STAT.SRC). -/
def State.gnsSrc (s : State) : Nat := s.f gnsStat 31 28

/-- Record of the baseband changed by `g`. -/
def State.modGns (s : State) (g : Gns → Gns) : State := { s with gns := g s.gns }

/-- Window of front end k. -/
def feOff (k : Nat) : Nat := 0x01800100 + k * 0x20

/-- The keep-counter (R431), 2^-15 s; its oscillator is taken as exact (log entry 14). -/
def State.keepNow (s : State) : Nat := s.pwr.keep + (s.spn.ticks - s.pwr.keepTick) * 2 ^ 15 / 2000000000

/-- The scratch region holds `n` bytes at `a` (R216). -/
def inScratch (a n : Nat) : Bool := decide (0xD0000000 ≤ a) && decide (a + n ≤ 0xF0000000)

/-! ### Messages (R229, R230) -/

/-- Ring sequence of the next message: WR past those that wait for the store. -/
def State.gnsSeq (s : State) : Nat := ((s.rd 0x01800088).toNat + s.gns.queue.length) % 2 ^ 32

/-- A message of 64 bytes is written to the ring; `m` is its type and its bytes 8 to 63. A full ring loses its oldest message, with
GNS/MSG_OVERRUN once per run. -/
def State.gnsWrite (s : State) (m : Nat × List Byte) : State :=
  let seq := (s.rd 0x01800088).toNat
  let slots := (s.rd 0x01800084).toNat
  let msg := [BitVec.ofNat 8 m.1, 1] ++ beBytes 2 0x40 ++ beBytes 4 seq ++ padTo 56 m.2
  let full := decide (slots ≤ (seq + 2 ^ 32 - (s.rd 0x0180008C).toNat) % 2 ^ 32)
  let s := if full then
      let s := (s.countSat 0x01800090 31 16 1).irq .gns 3
      if s.gns.overrun then s else s.raise Flt.gnsMsgOverrun ((seq + 2 ^ 32 - slots) % 2 ^ 32)
    else s
  let s := s.modGns (fun g => { g with overrun := full })
  let a := (s.rd 0x01800080).toNat + (if slots = 0 then 0 else seq % slots) * 64
  (s.granWrite 3 a msg).wrN 0x01800088 (seq + 1)

/-- The messages that waited for the store are written, oldest first (R25). -/
def State.gnsDrain (s : State) : State := s.gns.queue.foldl State.gnsWrite (s.modGns (fun g => { g with queue := [] }))

/-- A message goes to the ring. While PD6 is off LOST counts it (R229); while PD6 is on and the store is not READY it waits (R25, R313). -/
def State.gnsMessage (s : State) (typ : Nat) (body : List Byte) : State :=
  if !s.domOn 6 then s.countSat 0x01800090 15 0 1
  else if !s.b 0x02300014 31 then s.modGns (fun g => { g with queue := g.queue ++ [(typ, body)] })
  else s.gnsWrite (typ, body)

/-- PD6 goes off: the messages that wait are lost and counted (R229). -/
def State.gnsQueueLost (s : State) : State :=
  (s.countSat 0x01800090 15 0 s.gns.queue.length).modGns (fun g => { g with queue := [] })

/-- An EVENT message (R230), stamped with the second of Vane's time base. -/
def State.gnsEvent (s : State) (kind detail : Nat) : State :=
  (s.gnsMessage 3 (beBytes 6 (s.tbSec (s.f 0x01800010 18 16)) ++ beBytes 2 kind ++ beBytes 4 detail)).irq .gns 2

/-- The highest JAM of the front ends. -/
def State.jamMax (s : State) : Nat := max (s.f (feOff 0 + 0x0C) 31 24) (s.f (feOff 1 + 0x0C) 31 24)

/-- What a second's solution left for its messages: it was accepted and consistent; checked and passed; an unconfirmed ephemeris in use; TU;
the signals used and those excluded (R220, R230). -/
structure SolReport where
  fix : Bool := false
  checked : Bool := false
  unconf : Bool := false
  tu : Nat := unb
  used : List Signal := []
  excluded : List Signal := []
  deriving DecidableEq, Repr

/-- Advance of base `n` on a spine tick now, without slices, 2^-88 ns (R56, R68). -/
def State.tbAdvance (s : State) (n : Nat) : Nat :=
  let m := if s.tbYoked n then s.tbMaster n else n
  let adv := ((s.lv64 (tbOff m + 0x10) : Int) * (2 ^ 48 + satFreq ((s.base m).fnow + s.compNow))).toNat
  if s.tbRatio n && s.tbYoked n then adv * (2 ^ 48 + signedOf 48 (s.lv64 (tbOff n + 0x58) % 2 ^ 48)).toNat / 2 ^ 48 else adv

/-- Raw spine time, 2^-40 ns, at which base `n` reaches `t` at its present rate. -/
def State.rawAt (s : State) (n : Nat) (t : Int) : Int :=
  (s.spn.ticks : Int) * nominalInc + (t - s.tbTime n) * (nominalInc * 2 ^ 48 : Nat) / s.tbAdvance n

/-- Raw spine time of second `sec` as Vane's internal PPS takes it (R223): in NOFIX the second of its time base, else its prediction from the
latest solution. -/
def State.vaneSecond (s : State) (sec : Nat) : Option Int :=
  if s.gnsSrc = srcOFF then none
  else if s.gnsSrc = srcNOFIX then some (s.rawAt (s.f 0x01800010 18 16) (sec * secU : Nat))
  else s.gns.fit.map (fun x => x.2.1 + ((sec : Int) - x.1) * (secU * (2 ^ 48 + x.2.2)) / 2 ^ 48)

/-- The ideal GNSS_PPS edge of second `sec`, raw spine time (R228): GNS_PPS_OFS before it. -/
def State.gnssPpsAt (s : State) (sec : Nat) : Option Int :=
  (s.vaneSecond sec).map (fun t => t - signedOf 32 (s.rd 0x01800064).toNat * subU)

/-- QERR of the next GNSS_PPS edge, 2^-16 ns (R228): its ideal time less the spine tick at or before it. -/
def State.gnssQerr (s : State) (q : GnssSecond) : Nat :=
  let sec := if s.gnsSrc = srcNOFIX then s.tbSec (s.f 0x01800010 18 16) + 1 else q.sec + 1
  match s.gnssPpsAt sec with
  | none => 0
  | some t => (t % nominalInc).toNat / subU

/-- Insertion into an ascending list. -/
def insertSorted (x : Nat) : List Nat → List Nat
  | [] => [x]
  | y :: r => if x ≤ y then x :: y :: r else y :: insertSorted x r

/-- The median of a list (R230): of an even number the mean of the two in the middle, rounded down. -/
def median (l : List Nat) : Nat :=
  let m := l.foldr insertSorted []
  let n := m.length
  (m.getD ((n - 1) / 2) 0 + m.getD (n / 2) 0) / 2

/-- What a channel reports of a signal in a second. -/
def obsOf (q : GnssSecond) (x : Signal) : Option SigObs := q.obs.find? (fun o => decide (o.sig = x))

/-- The TIMING message of a second (R230). It is kept in GNS_TIM whether or not PD6 is on (R231). -/
def State.gnsTiming (s : State) (q : GnssSecond) (r : SolReport) : State :=
  let pos := s.f gnsStat 25 24
  let flag := fun (i : Nat) (b : Bool) => if b then 2 ^ i else 0
  let interf := s.b (feOff 0 + 0x0C) 2 || s.b (feOff 1 + 0x0C) 2
  let flags := flag 0 r.fix + flag 1 (decide (s.gnsSrc = srcVALID)) + flag 2 r.checked + flag 3 (decide (pos = 1))
    + flag 4 (decide (pos = 2)) + flag 5 interf + flag 6 r.unconf + flag 7 (!s.gns.utc.isEmpty)
  let sol := s.gns.solSec.getD 0
  let utcOfs := match s.gns.utc with
    | [] => 0
    | u :: _ => u.ofs.toNat
  let body := beBytes 6 (q.sec + 1) ++ beBytes 2 flags ++ beBytes 4 (s.gnssQerr q) ++ beBytes 4 r.tu ++ beBytes 6 sol
    ++ beBytes 4 (if r.fix ∨ s.gns.solSec = none then 0 else q.sec - sol)
    ++ [BitVec.ofNat 8 (s.f gnsStat 27 26), BitVec.ofNat 8 s.gnsSrc, BitVec.ofNat 8 (s.f gnsStat 7 0),
        BitVec.ofNat 8 s.gns.tracked.length, BitVec.ofNat 8 (s.f 0x01800010 25 24), BitVec.ofNat 8 pos]
    ++ beBytes 8 (wrapTo 64 s.gns.solMean) ++ beBytes 2 utcOfs ++ [s.gns.leap, BitVec.ofNat 8 s.jamMax]
    ++ beBytes 6 s.gns.leapAt ++ beBytes 2 (median (r.used.filterMap (fun x => (obsOf q x).map (·.cn0))))
  let head := [1, 1] ++ beBytes 2 0x40 ++ beBytes 4 s.gnsSeq
  let msg := head ++ padTo 56 body
  let s := (List.range 16).foldl (fun s i => s.wrN (0x01800200 + i * 4) (leNat ((msg.drop (4 * i)).take 4))) s
  (s.gnsMessage 1 body).irq .gns 0

/-- The SVSTAT entry of a tracked signal (R230). -/
def State.svEntry (s : State) (q : GnssSecond) (r : SolReport) (x : Signal) : List Byte :=
  let e := (s.gns.eph.find? (fun e => decide (e.1 = x.con) && decide (e.2.1 = x.prn))).map (fun e => e.2.2.2)
  let fl : Byte := match e with
    | none => 0
    | some conf => if conf then 1 else 3
  let o := obsOf q x
  let st : Byte := if x ∈ r.excluded then 3 else if x ∈ r.used then 2 else if o.any (fun o => !o.healthy) then 4 else 1
  [BitVec.ofNat 8 x.con.val, x.prn, BitVec.ofNat 8 x.fe.val, st, BitVec.ofNat 8 (((o.map (·.cn0)).getD 0) / 64),
    BitVec.ofInt 8 ((o.map (·.el)).getD 0), BitVec.ofNat 8 ((o.map (·.az)).getD 0), fl]

/-- SVSTAT messages (R230): six entries each, 32 messages at most. -/
def State.gnsSvstat (s : State) (q : GnssSecond) (r : SolReport) : State :=
  let svs := s.gns.tracked.map (s.svEntry q r)
  (List.range (min 32 ((svs.length + 5) / 6))).foldl (fun s i =>
    let es := (svs.drop (6 * i)).take 6
    s.gnsMessage 2 (beBytes 6 q.sec ++ [BitVec.ofNat 8 i, BitVec.ofNat 8 es.length] ++ es.flatten)) s

/-- The messages of a second (R230). -/
def State.gnsMessages (s : State) (q : GnssSecond) (r : SolReport) : State :=
  let s := s.gnsTiming q r
  if s.tbSec 0 % 10 = 0 then s.gnsSvstat q r else s

/-- Noise-floor rise and clipping of a front end (R212): INTERF while JAM exceeds JAM_THR. -/
def State.gnsJam (s : State) (k : Nat) (jam clip : BitVec 8) : State :=
  let o := feOff k + 0x0C
  let was := s.b o 2
  let now := decide (s.f (feOff k) 23 16 < jam.toNat)
  let s := ((s.setF o 31 24 jam.toNat).setF o 23 16 clip.toNat).setB o 2 now
  if now && !was then (s.raise Flt.gnsInterf (k * 256 + jam.toNat)).gnsEvent 4 (k * 256 + jam.toNat)
  else if was && !now then s.gnsEvent 5 (k * 256 + jam.toNat)
  else s

/-! ### The source of candidate 24 (R226) -/

/-- The source enters a state: SRC_CHG and an EVENT message. -/
def State.gnsEnter (s : State) (st : Nat) : State :=
  if s.gnsSrc = st then s
  else
    let s := (s.setF gnsStat 31 28 st).irq .gns 1
    s.gnsEvent 1 (s.f gnsStat 23 20 * 16 + st)

/-- The source falls to NOFIX for a cause (R226); from VALID it reports failure with GNS/SRC_LOST, and but for a configuration change with the grade
NONE. COUNT is cleared but where a VALID source loses its solutions. -/
def State.gnsLose (s : State) (cause : Nat) : State :=
  let valid := decide (s.gnsSrc = srcVALID)
  let s0 := s
  let s := (if valid ∧ cause ≠ 3 then s else s.setF gnsStat 15 8 0)
  let s := (s.setF gnsStat 23 20 cause).modGns (fun g => { g with misses := 0, farRaised := false, lastMean := none })
  let s := s.gnsEnter srcNOFIX
  if !valid then s
  else
    let s := s.raise Flt.gnsSrcLost (cause * 16)
    (if cause = 3 then s else (s.setF gnsStat 27 26 3).qualityIn 24 0x30).candRound s0 [24]

/-- EN or PD8 goes: the source is OFF (R226). -/
def State.gnsOff (s : State) : State :=
  let valid := decide (s.gnsSrc = srcVALID)
  let s0 := s
  let s := (s.modGns (fun g => { g with misses := 0, farRaised := false, lastMean := none })).gnsEnter srcOFF
  if valid then s.candRound s0 [24] else s

/-- A position mode is in force; a change of it is an EVENT (R219, R230). -/
def State.gnsMode (s : State) (pos : Nat) : State :=
  if pos = s.f gnsStat 25 24 then s else (s.setF gnsStat 25 24 pos).gnsEvent 2 pos

/-- EN comes: OFF gives NOFIX with COUNT 0 (R226). -/
def State.gnsOn (s : State) : State :=
  if s.gnsSrc = srcOFF then
    let pos := s.f 0x01800010 27 26
    (((s.setF gnsStat 15 8 0).gnsMode pos).modGns (fun g => { g with cfgChange := false, posCtl := pos })).gnsEnter srcNOFIX
  else s

/-- The integer seconds nearest a grid point of the unit: the base's second of the grid point nearest the edge (R225). -/
def gridSecond (r : CandRes) : Int := (r.time - r.mean) / sec16

/-- Candidate 24 gets its result (R225): that of the unit with the MEAN of the solution, TU and the grade beside it. -/
def State.gnsDeliver (s : State) (r : CandRes) (mean : Int) (tu grade : Nat) : State :=
  let s0 := s
  let c := (s.srcRes.getD 0 {}).count + 1
  let shift := mean - r.mean
  let s := { s with srcRes := listMod s.srcRes 0 (fun _ =>
    { r with count := c, mean := mean, lo := mean, hi := mean, meanIn := r.meanIn.map (· + shift), unc := tu }) }
  let s := s.monResult 24 r.restart
  (s.qualityIn 24 (BitVec.ofNat 32 (grade * 16))).candRound s0 [24]

/-- A second without an acceptable solution, or with one that is not consistent in VALID (R226). -/
def State.gnsMiss (s : State) : State :=
  if s.gnsSrc = srcCONFIRM then s.gnsLose 2
  else if s.gnsSrc = srcVALID then
    if s.gns.misses + 1 = s.f 0x01800020 15 8 then s.gnsLose 2
    else s.modGns (fun g => { g with misses := g.misses + 1 })
  else s

/-- COUNT of the chain. -/
def State.gnsCount (s : State) (n : Nat) : State := s.setF gnsStat 15 8 (satAt 255 n)

/-- The result of the unit for an edge, with the MEAN of R225 and S - s_grid. -/
structure EdgeRes where
  res : CandRes
  mean : Int
  far : Int
  deriving DecidableEq, Repr

/-- An acceptable solution drives the source (R226); `e` is the result that goes with it. A solution with no unit's result beside it has no MEAN: it
starts a chain, and counts as not consistent (log entry 57). -/
def State.gnsAccept (s : State) (e : Option EdgeRes) (consistent : Bool) (tu grade : Nat) : State :=
  let st := s.gnsSrc
  let cnt := s.f gnsStat 15 8
  let n := s.f 0x01800020 7 0
  let counted := fun (s : State) => match e with
    | some e => s.modGns (fun g => { g with lastMean := some e.mean, restarted := false })
    | none => s
  let deliver := fun (s : State) => match e with
    | some e => s.gnsDeliver e.res e.mean tu grade
    | none => s
  let far : Int := (e.map (·.far)).getD 0
  if st = srcNOFIX then ((counted s).gnsCount 1).gnsEnter srcCONFIRM
  else if st = srcCONFIRM then
    if !consistent then ((counted s).gnsCount 1).modGns (fun g => { g with farRaised := false })
    else if 131072 ≤ far.natAbs then
      let s := ((counted s).gnsCount (min (cnt + 1) (n - 1))).setF gnsStat 23 20 4
      if s.gns.farRaised then s
      else (s.modGns (fun g => { g with farRaised := true })).raise Flt.gnsTimeFar (wrapTo 32 (satSigned 32 far))
    else if cnt + 1 = n then
      let s := ((counted s).gnsCount n).modGns (fun g => { g with misses := 0 })
      deliver ((s.gnsEnter srcVALID).raise Flt.gnsSrcValid n)
    else (counted s).gnsCount (cnt + 1)
  else if st = srcVALID then
    if consistent then deliver ((counted s).modGns (fun g => { g with misses := 0 })) else s.gnsMiss
  else s

/-- A signal of a constellation, a band and a front end that are in use. -/
def State.sigOn (s : State) (x : Signal) : Bool :=
  s.b 0x01800010 x.con.val && s.b 0x01800010 (8 + x.fe.val) && s.b (feOff x.fe.val) 31

/-- A configuration change is in force for the next solution (R227): a POS_MODE that was changed becomes the mode in force, and signals of a
constellation, a band or a front end no longer in use are tracked no more. -/
def State.gnsCfgUse (s : State) : State :=
  if !s.gns.cfgChange then s
  else
    let s := s.modGns (fun g => { g with tracked := g.tracked.filter s.sigOn, weak := g.weak.filter (fun w => s.sigOn w.1) })
    let pos := s.f 0x01800010 27 26
    if pos = s.gns.posCtl then s
    else (s.modGns (fun g => { g with posCtl := pos, survey := 0, sumPos := (0, 0, 0), cntPos := 0 })).gnsMode pos

/-- A configuration change acts with the next solution (R226, R227): NOFIX. -/
def State.gnsCfgAct (s : State) : State := (s.modGns (fun g => { g with cfgChange := false })).gnsLose 3

/-! ### The hot-start store (R233) -/

/-- Whether a new item takes the place of another in the store: the latest of its kind and satellite or constellation. -/
def navReplaces (a b : NavItem) : Bool :=
  match a, b with
  | .eph x _ _, .eph y _ _ => decide (x.con = y.con) && decide (x.prn = y.prn)
  | .alm c p _, .alm d q _ => decide (c = d) && decide (p = q)
  | .utc c _ _ _ _, .utc d _ _ _ _ => decide (c = d)
  | .ggto c _, .ggto d _ => decide (c = d)
  | .iono c _, .iono d _ => decide (c = d)
  | .leap _ _, .leap _ _ => true
  | _, _ => false

/-- What Vane holds of a decoded item. -/
def Gns.hold (g : Gns) (i : NavItem) : Gns :=
  match i with
  | .eph x iod _ => { g with eph := g.eph.filter (fun e => !(decide (e.1 = x.con) && decide (e.2.1 = x.prn))) ++ [(x.con, x.prn, iod, true)] }
  | .alm c p _ => { g with alm := g.alm.filter (fun e => e ≠ (c, p)) ++ [(c, p)] }
  | .utc c ofs a0 a1 tot => { g with utc := ⟨c.val, ofs, a0, a1, tot⟩ :: g.utc.filter (fun u => u.con ≠ c.val) }
  | .ggto c _ => { g with ggto := g.ggto.filter (fun e => e ≠ c) ++ [c] }
  | .iono _ _ => g
  | .leap ann at_ => { g with leap := ann, leapAt := at_ }

/-- Vane decodes an item (R208, R217, R233): it holds it, writes it into the store with the keep-counter time, and reports a leap announcement
that is new (R230). -/
def State.navDecode (s : State) (i : NavItem) : State :=
  let was := (s.gns.leap, s.gns.leapAt)
  let s := s.modGns (fun g => { g.hold i with
    hot := { g.hot with items := g.hot.items.filter (fun e => !navReplaces i e.1) ++ [(i, s.keepNow)] } })
  if (s.gns.leap, s.gns.leapAt) ≠ was ∧ s.gns.leap.getLsbD 2 then s.gnsEvent 7 s.gns.leap.toNat else s

/-- A decoded item comes in the navigation message of a signal (R208). -/
def itemOf (i : NavItem) (x : Signal) : Bool :=
  match i with
  | .eph y _ _ => decide (y = x)
  | .alm c _ _ | .utc c _ _ _ _ | .ggto c _ | .iono c _ => decide (c = x.con)
  | .leap _ _ => true

/-- The position goes into the store, with its uncertainty and the seconds of the survey (R233). -/
def State.posStore (s : State) (p : Int × Int × Int) (u : Nat) : State :=
  s.modGns (fun g => { g with hot := { g.hot with pos := some (p.1, p.2.1, p.2.2, u, g.survey, s.keepNow) } })

/-- What every second of Vane brings (R208, R212-R214): interference, the messages decoded of the signals tracked, weak signals, predicted
elevations. -/
def State.gnsSecond (s : State) (q : GnssSecond) : State :=
  let s := (s.gnsJam 0 q.jam0 q.clip0).gnsJam 1 q.jam1 q.clip1
  let s := (q.nav.filter (fun i => s.gns.tracked.any (itemOf i))).foldl State.navDecode s
  let lim := (s.f 0x01800020 31 24 - 3) * 256
  s.modGns (fun g => { g with
    pred := q.pred
    weak := g.tracked.filterMap (fun x =>
      let was := g.weak.find? (fun w => decide (w.1 = x))
      match obsOf q x with
      | none => was
      | some o => if o.cn0 < lim then some (was.getD (x, s.spn.ticks)) else none) })

/-! ### The solution (R213, R217-R222) -/

/-- How a solution's integrity test ended (R220). -/
inductive Integrity | passed | unchecked | loss
  deriving DecidableEq, Repr

/-- Satellites among signals. -/
def satCount (l : List Signal) : Nat := ((l.map (fun x => (x.con, x.prn))).eraseDups).length

/-- The constellation whose scale TSCALE names (R218). -/
def State.scaleCon (s : State) : Nat :=
  let t := s.f 0x01800010 25 24
  if t = 1 then 1 else if t = 2 then 2 else 0

/-- The unknowns of a solution over signals (R218, R219): time, the position outside HOLD, and a time offset for each other constellation whose
GGTO is not held. -/
def State.unknowns (s : State) (l : List Signal) : Nat :=
  1 + (if s.f gnsStat 25 24 = 2 then 0 else 3)
    + (([0, 1, 2] : List (Fin 3)).filter (fun c => decide (c.val ≠ s.scaleCon) && l.any (fun x => decide (x.con = c)) && !s.gns.ggto.contains c)).length

/-- The signals a solution may use (R213): tracked, with a residual, at or above MASK_CN0, from a healthy satellite at or above MASK_EL. -/
def State.usable (s : State) (q : GnssSecond) (g : GnssSolution) : List Signal :=
  s.gns.tracked.filter (fun x =>
    (obsOf q x).any (fun o => decide (s.f 0x01800020 31 24 * 256 ≤ o.cn0) && decide ((s.f 0x01800020 23 16 : Int) ≤ o.el) && o.healthy)
      && g.res.any (fun e => decide (e.1 = x)))

/-- Residual of a signal in the `i`-th solve, 2^-8 ns. -/
def resOf (g : GnssSolution) (i : Nat) (x : Signal) : Nat :=
  match g.res.find? (fun e => decide (e.1 = x)) with
  | some e => if i = 0 then e.2.1 else if i = 1 then e.2.2.1 else e.2.2.2
  | none => 0

/-- The signal of the largest residual, the first of equals. -/
def worstOf (g : GnssSolution) (i : Nat) : List Signal → Option Signal
  | [] => none
  | x :: r => match worstOf g i r with
    | none => some x
    | some y => if resOf g i x < resOf g i y then some y else some x

/-- The integrity test (R220): the signal with the largest excess over RAIM_THR is excluded and the rest solved again, up to two times. The number
is of the exclusions still allowed. Answers the signals used, those excluded, and the verdict. -/
def State.raim (s : State) (g : GnssSolution) : Nat → List Signal → List Signal → List Signal × List Signal × Integrity
  | k, l, ex =>
    let i := ex.length
    let u := s.unknowns l
    match worstOf g i l with
    | none => (l, ex, .unchecked)
    | some x =>
      if satCount l < u + 1 then (l, ex, .unchecked)
      else if resOf g i x ≤ (s.rd 0x01800028).toNat then (l, ex, .passed)
      else match k with
        | 0 => (l, ex, .loss)
        | k + 1 => if satCount l < u + 2 then (l, ex, .loss) else s.raim g k (l.filter (· ≠ x)) (ex ++ [x])

/-- Time of the placed edge in the scale of TSCALE's constellation, 2^-16 ns (R221, R222): of one band, or of both in the ionosphere-free
combination of their carriers, 154 and 115 times 10.23 MHz; GNS_FEk_DLY is taken off the pseudoranges of its front end, which makes the time they
give later. -/
def State.edgeTime (s : State) (g : GnssSolution) (l : List Signal) : Int :=
  let t0 := g.edge0 + signedOf 32 (s.rd (feOff 0 + 8)).toNat
  let t1 := g.edge1 + signedOf 32 (s.rd (feOff 1 + 8)).toNat
  if !l.any (fun x => decide (x.fe = 1)) then t0
  else if !l.any (fun x => decide (x.fe = 0)) then t1
  else (23716 * t0 - 13225 * t1) / 10491

/-- From the scale of a constellation to TAI, 2^-16 ns (R218): the integer offset; for UTC_GPS the broadcast UTC with its A0 and A1 terms plus
the broadcast TAI - UTC. -/
def State.toTai (s : State) (t : Int) : Int :=
  match s.f 0x01800010 25 24 with
  | 2 => t + 33 * sec16
  | 3 => match s.gns.utc.find? (fun u => decide (u.con = 0)) with
    | some u => t + 19 * sec16 - u.a0 - u.a1 * (t + 19 * sec16 - u.tot * sec16) / 2 ^ 48
    | none => t + 19 * sec16
  | _ => t + 19 * sec16

/-- The parameters that TSCALE needs have been received (R221): those of UTC from GPS for UTC_GPS. -/
def State.scaleParams (s : State) : Bool := decide (s.f 0x01800010 25 24 ≠ 3) || s.gns.utc.any (fun u => decide (u.con = 0))

/-- A survey second, with the position of its solution if it has one (R219): after SURVEY seconds, or below 50 cm, the average is stored and the mode
is HOLD. The average is rounded to the nearest cm (DESIGN CHOICE, log entry 46). -/
def State.gnsSurvey (s : State) (p : Option ((Int × Int × Int) × Nat)) : State :=
  if s.f gnsStat 25 24 ≠ 1 then s
  else
    let s := s.modGns (fun g => { g with survey := g.survey + 1 })
    let s := match p with
      | none => s
      | some (x, u) => (s.modGns (fun g => { g with
          sumPos := (g.sumPos.1 + x.1, g.sumPos.2.1 + x.2.1, g.sumPos.2.2 + x.2.2), cntPos := g.cntPos + 1, avgU := u })).posStore x u
    let n := s.gns.cntPos
    if n ≠ 0 ∧ (s.f 0x01800040 23 0 ≤ s.gns.survey ∨ s.gns.avgU < 50) then
      let avg := fun (v : Int) => (2 * v + n) / (2 * n)
      let a := (avg s.gns.sumPos.1, avg s.gns.sumPos.2.1, avg s.gns.sumPos.2.2)
      let u := satAt 0xFFFFFFFF s.gns.avgU
      let s := (((s.wr 0x01800044 (BitVec.ofInt 32 a.1)).wr 0x01800048 (BitVec.ofInt 32 a.2.1)).wr 0x0180004C (BitVec.ofInt 32 a.2.2)).wrN 0x01800050 u
      let s := (s.setF gnsStat 25 24 2).posStore a u
      let s := s.modGns (fun g => { g with survey := 0, sumPos := (0, 0, 0), cntPos := 0 })
      ((s.raise Flt.gnsSurveyDone u).gnsEvent 3 u).gnsEvent 2 2
    else s

/-- TU of a solution (R222), 2^-8 ns; in HOLD the deviation of time includes GNS_POS_U. -/
def State.gnsTu (s : State) (sigma : Nat) : Nat :=
  let sg := if s.f gnsStat 25 24 = 2 then (Config.holdSigma sigma (s.rd 0x01800050).toNat).toNat else sigma
  satAt 0xFFFFFFFE (ceilDiv (s.conf * sg) 256 + (s.rd 0x01800030).toNat + (s.rd 0x01800034).toNat)

/-- The result of the routed unit that has not been taken: none without a unit, or without a new result. -/
def State.edgeRes (s : State) : Option CandRes :=
  match s.routedUnit .vanePps with
  | none => none
  | some k => let r := s.unitRes (.p k); if r.count = s.gns.taken then none else some r

/-- The block of the edge was abandoned: its unit has no result and starts again (R225). -/
def State.edgeAbandoned (s : State) : Bool :=
  match s.routedUnit .vanePps with
  | none => false
  | some k => decide ((s.unitRes (.p k)).count = s.gns.taken) && (s.unit (.p k)).restart

/-- The result of the unit is taken; one that begins an unwrap run is remembered until a solution is counted (R225). -/
def State.edgeTake (s : State) : State :=
  match s.edgeRes with
  | none => s
  | some r => s.modGns (fun x => { x with taken := r.count, restarted := x.restarted || r.restart })

/-- A second of the source without a solution (R225-R227): a configuration change acts; the edge of an abandoned block is no miss. -/
def State.gnsEmpty (s : State) : State :=
  let t := s.edgeTake
  if s.gns.cfgChange then t.gnsCfgAct else if s.edgeAbandoned then t else t.gnsMiss

/-- A second is begun (R226, R230), each of them once: what it brings, under the configuration in force. -/
def State.gnsBegin (s : State) (q : GnssSecond) : State :=
  ((s.modGns (fun g => { g with doneSec := some q.sec })).gnsCfgUse).gnsSecond q

/-- A second that ends without a solution (R219, R226, R230). -/
def State.gnsNoSolution (s : State) (q : GnssSecond) : State := ((s.gnsSurvey none).gnsEmpty).gnsMessages q {}

/-- Vane is at work on second `q`, which it has not evaluated. -/
def State.gnsDue (s : State) (q : GnssSecond) : Bool :=
  decide (s.gnsSrc ≠ srcOFF) && s.domOn 8 && decide (s.gns.doneSec ≠ some q.sec)

/-- What a solution makes known to the search (R214). -/
def Gns.solved (g : Gns) (tu : Nat) (posU : Option Nat) : Gns :=
  { g with timeU := some tu, posHeld := posU <|> g.posHeld
           aidWas := { g.aidWas with timeU := some tu, posU := posU <|> g.aidWas.posU } }

/-- GNSS_SOLUTION (R217-R230): the solution for an epoch is complete. An edge whose block was abandoned yields no solution; with fewer satellites than
unknowns there is none. -/
def execGnssSolution (q : GnssSecond) (g : GnssSolution) (s : State) : Out :=
  if !s.gnsDue q then .next s
  else
    let s := s.gnsBegin q
    let l := s.usable q g
    if satCount l < s.unknowns l ∨ s.edgeAbandoned then .next (s.gnsNoSolution q)
    else
      let x := s.raim g 2 l []
      let used := x.1
      let checked := decide (x.2.2 = .passed)
      let unconf := used.any (fun y => s.gns.eph.any (fun e => decide (e.1 = y.con) && decide (e.2.1 = y.prn) && !e.2.2.2))
      let mode := s.f gnsStat 25 24
      let dual := used.any (fun y => decide (y.fe = 0)) && used.any (fun y => decide (y.fe = 1))
      let tu := s.gnsTu g.sigma
      let ok := (checked || (decide (x.2.2 = .unchecked) && s.b 0x01800010 30))
        && decide (tu ≤ (s.rd 0x0180002C).toNat) && s.scaleParams
      let grade := if !checked || decide (mode = 0) || unconf then 2 else if dual then 0 else 1
      let s := x.2.1.foldl (fun s e => s.raise Flt.gnsExcluded (e.con.val * 65536 + e.prn.toNat)) s
      let s := (s.setF gnsStat 27 26 grade).setF gnsStat 7 0 (satCount used)
      let err := s.toTai (s.edgeTime g used) - q.sec * sec16
      let s : State := match s.gns.edge with
        | some e => s.modGns (fun y => { y with fit := some (q.sec, (e.2 : Int) * nominalInc - err * subU, g.rate) })
        | none => s
      let s := if mode = 0 then s.posStore g.pos g.posU else s.gnsSurvey (some (g.pos, g.posU))
      let e := s.edgeRes.map (fun r =>
        let far : Int := (q.sec : Int) - gridSecond r
        (⟨r, r.mean - err + far * sec16, far⟩ : EdgeRes))
      let s := s.edgeTake
      let consistent := match e with
        | none => false
        | some e => s.gns.restarted || (match s.gns.lastMean with
          | some m => decide ((e.mean - m).natAbs ≤ (s.rd 0x01800024).toNat * 256)
          | none => true)
      let cfg := s.gns.cfgChange
      let s := if cfg then s.gnsCfgAct
        else if x.2.2 = .loss then (if s.gnsSrc = srcNOFIX then s else s.gnsLose 1)
        else if ok then s.gnsAccept e consistent tu grade
        else s.gnsMiss
      let s := if ok then
          let s := s.modGns (fun y => y.solved tu (if mode = 2 then none else some g.posU))
          s.modGns (fun y => { y with solSec := some q.sec, solMean := (e.map (·.mean)).getD y.solMean })
        else s
      .next (s.gnsMessages q { fix := ok && consistent && !cfg, checked := checked, unconf := unconf, tu := if ok then tu else unb
                               used := used, excluded := x.2.1 })

/-- GNSS_MISSING_SECOND (R219, R226): a second ends without a solution. -/
def execGnssMissingSecond (q : GnssSecond) (s : State) : Out :=
  if s.gnsDue q then .next ((s.gnsBegin q).gnsNoSolution q) else .next s

/-- The internal PPS edge on spine tick `k` lies more than 10 ms from one second after the edge before it: GROSS on the unit's input (R223). -/
def State.edgeMoved (s : State) (k : Nat) : State :=
  match s.gns.edge with
  | some e => if 20000000 < ((k : Int) - e.2 - 2000000000).natAbs ∧ s.srcEn .vanePps ∧ s.srcOn .vanePps then s.setGross .vanePps else s
  | none => s

/-- VANE_PPS_EDGE (R223, R228): once the spine tick at or before second `sec` has come, later than that of the edge before, the internal PPS edge is
placed on it; GNSS_PPS is its ideal time
advanced by the offset and placed on the tick at or before that. In OFF the pin is held low. -/
def execVanePpsEdge (sec : Nat) (s : State) : Out :=
  if !s.domOn 8 then .next s
  else match s.vaneSecond sec, s.gnssPpsAt sec with
    | some t, some p =>
      let tick := t / nominalInc
      if (s.spn.ticks : Int) < tick ∨ s.gns.edge.any (fun e => decide (tick ≤ e.2)) then .next s
      else
        let s := (s.edgeMoved tick.toNat).modGns (fun g => { g with edge := some (sec, tick.toNat) })
        if s.b 0x01800060 31 then .next (s.emit (.gnssPps (p / nominalInc) (s.f 0x01800060 23 0) (!s.b 0x01800060 30))) else .next s
    | _, _ => .next s

/-! ### Configuration -/

/-- The combination of a front end's registers is in range (R210). -/
def State.feOk (s : State) (k : Nat) : Bool :=
  let m := s.f (feOff k) 6 0
  let i := signedOf 32 (s.rd (feOff k + 4)).toNat
  decide (20 ≤ m ∧ m ≤ 80) && decide (2 * (i.natAbs + (if k = 0 then 2046000 else 10230000)) ≤ m * 1023000)

/-- TSCALE names a scale whose constellation is enabled (R218). -/
def State.scaleOk (s : State) : Bool :=
  let t := s.f 0x01800010 25 24
  s.b 0x01800010 (if t = 1 then 1 else if t = 2 then 2 else 0)

/-- Whether a written GNS register keeps its range (08, register map), read from the state that holds it. -/
def State.gnsOk (s : State) (o : Nat) : Bool :=
  let w := (s.rd (0x01800000 + o)).toNat
  match o with
  | 0x10 => decide (s.f 0x01800010 29 28 < 2) && decide (s.f 0x01800010 27 26 ≠ 3) && s.scaleOk
  | 0x20 => decide (s.f 0x01800020 23 16 ≤ 90) && decide (s.f 0x01800020 15 8 ≠ 0) && decide (s.f 0x01800020 7 0 ≠ 0)
  | 0x40 => decide (w ≠ 0)
  | 0x60 => decide (1 ≤ s.f 0x01800060 23 0 ∧ s.f 0x01800060 23 0 ≤ 500000)
  | 0x70 => decide (w % 8 = 0) && inScratch w 0
  | 0x80 => decide (w % 4096 = 0) && inScratch w ((s.rd 0x01800084).toNat * 64)
  | 0x84 => (List.range 11).any (fun i => decide (w = 64 * 2 ^ i)) && inScratch (s.rd 0x01800080).toNat (w * 64)
  | 0x100 | 0x104 => s.feOk 0
  | 0x120 | 0x124 => s.feOk 1
  | _ => true

/-- The registers whose change is a configuration change (R227); of GNS_CTL the fields CONST, BANDS, TSCALE and POS_MODE. -/
def gnsCfgRegs : List Nat := [0x10, 0x38, 0x44, 0x48, 0x4C, 0x100, 0x104, 0x108, 0x120, 0x124, 0x128]

/-- The unit of the internal PPS (R224): N 1, DECIM 0, STOP_SEL GRID, UNWRAP 0, EN as GNS_CTL.EN. -/
def State.vaneUnit (s : State) : State :=
  match s.routedUnit .vanePps with
  | none => s
  | some k =>
    let o := tiuOff (.p k)
    ((((s.setF o 15 0 1).setF o 23 20 0).setF o 29 28 0).setB o 30 false).setB o 31 (s.b 0x01800010 31)

/-- A host write to a RW register of GNS (R210, R216, R218, R227): checked as a whole, discarded with CFG_BAD where it breaks a rule. -/
def State.wGns (s : State) (o : Nat) (v : Word) : State :=
  let a := 0x01800000 + o
  let t := s.rwStore a v
  if !t.gnsOk o then s.cfgBad .gns a
  else
    let mask : Word := if o = 0x10 then 0x0F000307 else 0xFFFFFFFF
    let t := if o ∈ gnsCfgRegs ∧ (t.rd a ^^^ s.rd a) &&& mask ≠ 0 then t.modGns (fun g => { g with cfgChange := true }) else t
    if o = 0x10 then
      let t := t.vaneUnit
      if t.b a 31 then t.gnsOn else t.gnsOff
    else t

/-- GNSS_CONFIG_CHANGE (R227): a host write to a configuration register. -/
def execGnssConfigChange (i : Itf) (off : Nat) (v : Word) (s : State) : Out :=
  if off ∈ gnsCfgRegs then .next (s.reach i (0x01800000 + off) v (fun s => s.wGns off v)) else .next s

/-! ### Front ends, channels, acquisition -/

/-- Tracking on a front end is dropped (R211). -/
def State.dropFe (s : State) (k : Fin 2) : State := s.modGns (fun g => { g with
  tracked := g.tracked.filter (fun x => x.fe ≠ k), weak := g.weak.filter (fun w => w.1.fe ≠ k) })

/-- 50 × 10^-6 in 2^-40 (R211). -/
def clkLimit : Nat := 54975581

/-- The sample clock of front end k is present with a fractional error, 2^-40 (R211): CLKERR follows it. Beyond ±50 × 10^-6 RANGE sets, with
GNS/CLK_RANGE; tracking is dropped there, and when the clock is back in range. -/
def State.feClock (s : State) (k : Fin 2) (err : Word) : State :=
  let o := feOff k.val + 0x0C
  let bad := decide (clkLimit < (signedOf 32 err.toNat).natAbs)
  let good := s.b o 0 && !s.b o 1
  let was := s.b o 1
  let s := ((s.setB o 0 true).setB o 1 bad).wr (feOff k.val + 0x10) err
  if bad then (if was then s else (s.dropFe k).raise Flt.gnsClkRange k.val) else if good then s else s.dropFe k

/-- CLK_LOST (R211): the sample clock has been absent for 10 µs. -/
def execClkLost (k : Fin 2) (s : State) : Out :=
  let o := feOff k.val + 0x0C
  if s.b o 0 then .next (((s.setB o 0 false).dropFe k).raise Flt.gnsClkLost k.val) else .next s

/-- CLK_RANGE (R211): the sample clock is measured and out of range. -/
def execClkRange (k : Fin 2) (err : Word) (s : State) : Out := .next (s.feClock k err)

/-- FE_CLOCK_RETURN (R211): the sample clock is measured; in range again, Vane acquires afresh on it. -/
def execFeClockReturn (k : Fin 2) (err : Word) (s : State) : Out := .next (s.feClock k err)

/-- CHANNEL_DROP (R213): a signal has been below MASK_CN0 - 3 dB-Hz for 2 s. -/
def execChannelDrop (x : Signal) (s : State) : Out :=
  if s.gns.weak.any (fun w => decide (w.1 = x) && decide (w.2 + 4000000000 ≤ s.spn.ticks)) then
    .next (s.modGns (fun g => { g with tracked := g.tracked.filter (· ≠ x), weak := g.weak.filter (fun w => w.1 ≠ x) }))
  else .next s

/-- The place of a signal in the search (R214): by predicted elevation, the highest first; those of unknown elevation last, in ascending PRN order. -/
def State.searchKey (s : State) (x : Signal) : Int × Nat :=
  match s.gns.pred.find? (fun e => decide (e.1 = x.con) && decide (e.2.1 = x.prn)) with
  | some e => (-e.2.2, 0)
  | none => (91, x.prn.toNat)

/-- What Vane knows for a search (R214): its time, its position, as GNS_POS_U gives it or as it was stored or solved, and the orbits it holds. -/
def State.knowNow (s : State) : SearchKnow :=
  { timeU := s.gns.timeU, posU := if s.rd 0x01800050 = 0 then s.gns.posHeld else some (s.rd 0x01800050).toNat
    sats := s.gns.eph.map (fun e => (e.1, e.2.1)) }

/-- What the search of a pass knows: what aiding brought counts from the pass after the one in which it was applied (R215). -/
def State.knowIn (s : State) (pass : Nat) : SearchKnow :=
  match s.gns.aidPass with
  | some p => if pass ≤ p then s.gns.aidWas else s.knowNow
  | none => s.knowNow

/-- The pass in which a signal is found: one that does not come after the one found before has been found in a further pass. -/
def State.passOf (s : State) (x : Signal) : Nat :=
  let k := s.searchKey x
  match s.gns.found with
  | none => s.gns.pass
  | some y => let j := s.searchKey y; if k.1 < j.1 ∨ (k.1 = j.1 ∧ k.2 < j.2) then s.gns.pass + 1 else s.gns.pass

/-- Half width of the Doppler window, Hz (R214): 6 kHz, or the uncertainty of a prediction from time, position and an orbit. -/
def State.searchHalf (s : State) (x : Signal) : Nat :=
  let k := s.knowIn (s.passOf x)
  let orbit := k.sats.contains (x.con, x.prn) || s.gns.alm.contains (x.con, x.prn)
    || s.gns.eph.any (fun e => decide (e.1 = x.con) && decide (e.2.1 = x.prn) && e.2.2.2)
  match k.timeU, k.posU with
  | some t, some p => if orbit then min 6000 (Config.searchWindow x.con.val x.prn.toNat t p).toNat else 6000
  | _, _ => 6000

/-- SIGNAL_ACQUIRED (R208, R213-R215): the search finds a signal of an enabled constellation and band on a good front end, in a bin of 500 Hz within its
window; a channel, of 192, takes it. -/
def execSignalAcquired (x : Signal) (bin : Int) (s : State) : Out :=
  let o := feOff x.fe.val
  if s.gnsSrc ≠ srcOFF ∧ s.domOn 8 ∧ !s.gns.aidWait ∧ s.sigOn x ∧ s.b (o + 0x0C) 0 ∧ !s.b (o + 0x0C) 1
      ∧ s.gns.tracked.length < 192 ∧ x ∉ s.gns.tracked ∧ 500 * bin.natAbs ≤ s.searchHalf x then
    .next (s.modGns (fun g => { g with tracked := g.tracked ++ [x], found := some x, pass := s.passOf x }))
  else .next s

/-! ### Aiding (R215-R217) -/

/-- A host write to GNS_AID_CTL (R216). A buffer that leaves the scratch region cannot be read: the write is discarded. -/
def State.wAidCtl (s : State) (v : Word) : State :=
  if !v.bit 0 then s
  else if s.b 0x0180007C 0 ∨ !inScratch (s.rd 0x01800070).toNat (s.rd 0x01800074).toNat then s.cfgBad .gns 0x01800078
  else s.wr 0x0180007C 1

/-- AID_GO (R216). -/
def execAidGo (i : Itf) (v : Word) (s : State) : Out := .next (s.reach i 0x01800078 v (fun s => s.wAidCtl v))

/-- The length of the record that begins a buffer, if it is well formed (R216, record formats). -/
def aidRecord (b : List Byte) : Option Nat :=
  match b with
  | t :: z :: h :: l :: _ =>
    let n := h.toNat * 256 + l.toNat
    let t := t.toNat
    let bits := beNat ((b.drop 12).take 2)
    let con := beNat ((b.drop 4).take 1)
    let sig := beNat ((b.drop 6).take 1)
    if z ≠ 0 ∨ b.length < n then none
    else if t = 1 then (if n = 20 ∧ beNat ((b.drop 10).take 4) < 1000000000 then some n else none)
    else if t = 2 then (if n = 20 then some n else none)
    else if t = 3 then (if n = 14 + (bits + 7) / 8 ∧ con < 3 ∧ sig < 2 then some n else none)
    else none
  | _ => none

/-- An ephemeris of a satellite: its issue of data, decoded from the sky or supplied by the host (R217). -/
def State.ephHeld (s : State) (con : Fin 3) (prn : BitVec 8) : Option (Nat × Bool) :=
  (s.gns.eph.find? (fun e => decide (e.1 = con) && decide (e.2.1 = prn))).map (fun e => e.2.2)

/-- One aiding record is applied (R216, R217): TIME when it is more certain than what Vane has, POSITION as a host write of the
position, NAVDATA where its parity holds; its issue of data is unconfirmed unless the sky has already brought the same. -/
def State.aidApply (s0 : State) (r : List Byte) : State :=
  let know := s0.knowIn s0.gns.pass
  let s := s0.modGns (fun g => { g with aidPass := some g.pass, aidWas := know })
  match r.head? with
  | some 1 =>
    let u := beNat ((r.drop 16).take 4)
    let s := s.modGns (fun g => { g with aidWait := false })
    match s.gns.timeU with
    | some u0 => if u < u0 then s.modGns (fun g => { g with timeU := some u, aidTime := r }) else s
    | none => s.modGns (fun g => { g with timeU := some u, aidTime := r })
  | some 2 =>
    [0x44, 0x48, 0x4C, 0x50].zipIdx.foldl (fun s p => s.wGns p.1 (BitVec.ofNat 32 (beNat ((r.drop (4 + 4 * p.2)).take 4)))) s
  | some 3 =>
    if Config.navBitsOk r then
      let con : Fin 3 := ⟨beNat ((r.drop 4).take 1) % 3, by omega⟩
      let prn : BitVec 8 := (r.getD 5 0)
      let iod := (Config.navIod r).toNat
      let s := s.modGns (fun g => { g with navData := g.navData ++ [r] })
      if (s.ephHeld con prn).map (·.1) = some iod then s
      else s.modGns (fun g => { g with
        eph := g.eph.filter (fun e => !(decide (e.1 = con) && decide (e.2.1 = prn))) ++ [(con, prn, iod, false)] })
    else s
  | _ => s

/-- The records of a buffer in order, from byte offset `pos`, up to the first that is malformed: records applied, and the offset of
the bad one. The first number bounds the records. -/
def State.aidRun (s : State) : Nat → List Byte → Nat → Nat → State × Nat × Option Nat
  | 0, _, n, _ => (s, n, none)
  | _, [], n, _ => (s, n, none)
  | fuel + 1, b, n, pos =>
    match aidRecord b with
    | none => (s, n, some pos)
    | some l => (s.aidApply (b.take l)).aidRun fuel (b.drop l) (n + 1) (pos + l)

/-- AID_DONE (R216): the read that runs has ended; until the store is READY it waits (R313). An error response (R327, R402) ends it as a bad
record does, at the record that holds the damaged word (log entry 59). -/
def execAidDone (s : State) : Out :=
  if !s.b 0x0180007C 0 || !s.b 0x02300014 31 then .next s
  else
    let a := (s.rd 0x01800070).toNat
    let len := s.f 0x01800074 23 0
    let err := s.damaged a len
    let s := (s.flawsIn a len).foldl State.eccNote s
    let s := match err with
      | some x => s.mtxErr 3 3 x
      | none => s
    let d := s.granRead 3 a len
    let r := d.2.aidRun len (match err with
      | some x => d.1.take (x - a)
      | none => d.1) 0 0
    let bad := r.2.2.or (err.map (· - a))
    let s := r.1.wrN 0x0180007C (satAt 0xFFFF r.2.1 * 65536 + (if bad.isSome then 2 else 0))
    let s := match bad with
      | some pos => s.raise Flt.gnsAidErr pos
      | none => s
    .next ((s.irq .gns 4).gnsEvent 8 r.2.1)

/-- AIDED_FIRST_TIMEOUT (R215): 60 s after PD8 power-up acquisition begins. -/
def execAidedFirstTimeout (s : State) : Out :=
  if s.gns.upTick + 120000000000 ≤ s.spn.ticks then .next (s.modGns (fun g => { g with aidWait := false })) else .next s

/-- PD8 powers up: ACQ_MODE takes effect (R215), and with EN the source is NOFIX; without, OFF (R226). -/
def State.gnsPowerUp (s : State) : State :=
  let aided := decide (s.f 0x01800010 29 28 = 1)
  let pos := s.f 0x01800010 27 26
  let s := s.modGns (fun g => { hot := g.hot, queue := g.queue, taken := g.taken, aidWait := aided, wake := !aided, upTick := s.spn.ticks, posCtl := pos })
  let s := s.gnsMode pos
  if s.b 0x01800010 31 then s.gnsOn else s

/-- Uncertainty of the keep-counter's time (R445): 2 ms + 200 × 10^-6 of the time since its last copy, 2^-8 ns, rounded up. -/
def State.keepU (s : State) : Nat := 512000000 + ceilDiv ((s.keepNow - s.pwr.keepCopy) * 51200000) 32768

/-- Items of the store younger than `age`, 2^-15 s, that pass a test. -/
def State.storeYoung (s : State) (age : Nat) (p : NavItem → Bool) : Nat :=
  (s.gns.hot.items.filter (fun e => p e.1 && decide (s.keepNow - e.2 < age))).length

/-- The class of a wake from a store whose CRC holds (R234): 2 HOT, 1 WARM, 0 COLD. The ages need a keep-counter that holds a time. -/
def State.wakeClass (s : State) : Nat :=
  let isEph := fun i => match i with
    | NavItem.eph .. => true
    | _ => false
  let isAlm := fun i => match i with
    | NavItem.alm .. => true
    | _ => false
  if !s.pwr.keepValid then 0
  else if s.keepU ≤ 512000000000 ∧ 4 ≤ s.storeYoung (14400 * 32768) isEph then 2
  else if s.storeYoung (2592000 * 32768) isAlm ≠ 0 ∧ s.gns.hot.pos.isSome then 1
  else 0

/-- GNSS_WAKE (R234): at PD8 power-up in SEARCH Vane reads its hot-start store, whose CRC holds or not; one that does not holds nothing. Time comes
from the keep-counter. In HOLD a stored position is loaded where POS_U is 0. -/
def execGnssWake (crcOk : Bool) (s : State) : Out :=
  if !s.domOn 8 ∨ !s.gns.wake then .next s
  else
    let s := s.modGns (fun g => { g with wake := false, hot := if crcOk then g.hot else {} })
    let cls := s.wakeClass
    let isEph := fun i => match i with
      | NavItem.eph .. => true
      | _ => false
    let writes := s.gns.hot.items.map (·.2) ++ (match s.gns.hot.pos with
      | some p => [p.2.2.2.2.2]
      | none => [])
    let last := writes.foldl max 0
    let s := s.wrN 0x018000A0 (cls * 2 ^ 30 + satAt 255 (s.storeYoung (14400 * 32768) isEph) * 65536
      + (if writes = [] then 0xFFFF else satAt 0xFFFF ((s.keepNow - last) / (60 * 32768))))
    let s := if crcOk then s else s.raise Flt.gnsStoreBad 0
    let s := s.modGns (fun g => { g.hot.items.foldl (fun g e => g.hold e.1) g with
      timeU := if s.pwr.keepValid then some s.keepU else none, posHeld := g.hot.pos.map (fun p => p.2.2.2.1) })
    let s := match s.gns.hot.pos with
      | some p =>
        if s.f gnsStat 25 24 = 2 ∧ s.rd 0x01800050 = 0 then
          (((s.wr 0x01800044 (BitVec.ofInt 32 p.1)).wr 0x01800048 (BitVec.ofInt 32 p.2.1)).wr 0x0180004C (BitVec.ofInt 32 p.2.2.1)).wrN 0x01800050
            (satAt 0xFFFFFFFF p.2.2.2.1)
        else s
      | none => s
    .next (s.gnsEvent 6 cls)

/-- A read of GNS_TIM0 (R231): the message is copied into the interface's bank, and byte 0 to 3 returned. -/
def State.latchTim (s : State) (i : Itf) : State :=
  (List.range 16).foldl (fun s k => s.bankWr i (0x01800200 + k * 4) (s.rd (0x01800200 + k * 4))) s

end Sys2Proof.Machine
end

