-- ==== Sys2Proof/Machine/Net.lean ====
section
/-! DEFINITION. Frames as bytes: CRCs, checksums, parsing of what a port receives and assembly of what the part sends
(R259, R281, R283, R318). -/
namespace Sys2Proof.Machine

/-! ### CRCs and checksums -/

/-- One bit of a reflected CRC-32. -/
def crcBit (poly c : Nat) : Nat := if c % 2 = 1 then (c / 2) ^^^ poly else c / 2

/-- A reflected CRC-32 of bytes from an initial value, without the final XOR. -/
def crcRefl (poly init : Nat) (l : List Byte) : Nat :=
  l.foldl (fun c b => (List.range 8).foldl (fun c _ => crcBit poly c) (c ^^^ b.toNat)) init

/-- CRC-32 of IEEE 802.3. -/
def crc32 (l : List Byte) : Nat := crcRefl 0xEDB88320 0xFFFFFFFF l ^^^ 0xFFFFFFFF

/-- CRC-32C (R318): Castagnoli polynomial, reflected, final XOR 0xFFFF_FFFF, from an initial value. -/
def crc32cFrom (init : Nat) (l : List Byte) : Nat := crcRefl 0x82F63B78 init l ^^^ 0xFFFFFFFF

/-- CRC-32C with the initial value all ones. -/
def crc32c (l : List Byte) : Nat := crc32cFrom 0xFFFFFFFF l

/-- Sum of the 16-bit big-endian words of a list, an odd last byte padded with zero. -/
def sum16 : List Byte → Nat
  | a :: b :: r => a.toNat * 256 + b.toNat + sum16 r
  | [a] => a.toNat * 256
  | [] => 0

/-- The Internet checksum (RFC 1071) of a sum of words. -/
def inetSum (s : Nat) : Nat :=
  let f := fun (v : Nat) => v % 65536 + v / 65536
  65535 - f (f (f s))

/-! ### Pieces of a byte list -/

/-- `n` bytes from offset `o`. -/
def slice (l : List Byte) (o n : Nat) : List Byte := (l.drop o).take n

/-- The big-endian number in `n` bytes from offset `o`. -/
def beAt (l : List Byte) (o n : Nat) : Nat := beNat (slice l o n)

/-- Byte `o` as a number. -/
def byteAt (l : List Byte) (o : Nat) : Nat := (l.getD o 0).toNat

/-- A PTP correctionField or another signed 64-bit field. -/
def be64S (l : List Byte) (o : Nat) : Int := signedOf 64 (beAt l o 8)

/-- A signed byte. -/
def sByte (b : Nat) : Int := signedOf 8 (b % 256)

/-- The six bytes of an address register pair: bytes 0 to 3 in LO, first byte highest. -/
def State.macReg (s : State) (lo : Nat) : List Byte :=
  beBytes 4 (s.rd lo).toNat ++ beBytes 2 (s.f (lo + 4) 15 0)

/-- The broadcast address. -/
def bcast : List Byte := List.replicate 6 0xFF

/-- A multicast destination. -/
def isMcast (d : List Byte) : Bool := decide (byteAt d 0 % 2 = 1)

/-! ### Received frames -/

/-- A frame's VLAN (of its VLAN tag), its EtherType and what follows. -/
structure Eth where
  dmac : List Byte
  smac : List Byte
  vid : Option Nat
  etype : Nat
  pay : List Byte
  deriving DecidableEq, Repr

/-- The Ethernet header of a frame. -/
def ethOf (l : List Byte) : Eth :=
  if beAt l 12 2 = 0x8100 then ⟨slice l 0 6, slice l 6 6, some (beAt l 14 2 % 4096), beAt l 16 2, l.drop 18⟩
  else ⟨slice l 0 6, slice l 6 6, none, beAt l 12 2, l.drop 14⟩

/-- A UDP datagram of a service frame. -/
structure Udp where
  v6 : Bool
  sip : List Byte
  dip : List Byte
  sport : Nat
  dport : Nat
  pay : List Byte
  deriving DecidableEq, Repr

/-- The UDP datagram of a frame (R281): IPv4 without options or fragmentation, or IPv6 without extension headers. -/
def udpOf (e : Eth) : Option Udp :=
  let p := e.pay
  if e.etype = 0x0800 ∧ byteAt p 0 = 0x45 ∧ beAt p 6 2 % 0x4000 = 0 ∧ byteAt p 9 = 17 then
    let u := (p.take (beAt p 2 2)).drop 20
    some ⟨false, slice p 12 4, slice p 16 4, beAt u 0 2, beAt u 2 2, (u.take (beAt u 4 2)).drop 8⟩
  else if e.etype = 0x86DD ∧ byteAt p 0 / 16 = 6 ∧ byteAt p 6 = 17 then
    let u := (p.drop 40).take (beAt p 4 2)
    some ⟨true, slice p 8 16, slice p 24 16, beAt u 0 2, beAt u 2 2, (u.take (beAt u 4 2)).drop 8⟩
  else none

/-! ### Frames the part sends -/

/-- Ethernet header. -/
def ethHead (d sm : List Byte) (vid : Option Nat) (etype : Nat) : List Byte :=
  d ++ sm ++ (match vid with
    | some v => beBytes 2 0x8100 ++ beBytes 2 (Config.vlanPrio.toNat * 4096 + v % 4096)
    | none => []) ++ beBytes 2 etype

/-- An IPv4 header of 20 bytes with its checksum. -/
def ip4Head (sip dip : List Byte) (proto len : Nat) : List Byte :=
  let a := [(0x45 : Byte), Config.ipTos] ++ beBytes 2 (20 + len) ++ beBytes 2 Config.ip4Ident.toNat ++ beBytes 2 Config.ip4Frag.toNat
    ++ [Config.ipTtl, BitVec.ofNat 8 proto]
  let b := sip ++ dip
  a ++ beBytes 2 (inetSum (sum16 a + sum16 b)) ++ b

/-- An IPv6 header. -/
def ip6Head (sip dip : List Byte) (next hop len : Nat) : List Byte :=
  beBytes 4 (6 * 2 ^ 28 + Config.ip6Flow.toNat) ++ beBytes 2 len ++ [BitVec.ofNat 8 next, BitVec.ofNat 8 hop] ++ sip ++ dip

/-- A checksum over the pseudo-header and an upper-layer packet whose checksum field is zero. -/
def upperSum (sip dip : List Byte) (proto : Nat) (m : List Byte) : Nat :=
  inetSum (sum16 sip + sum16 dip + proto + m.length + sum16 m)

/-- A UDP datagram with its checksum (an all-zero sum is sent as all ones, RFC 768). -/
def udpData (e : Encap) (m : List Byte) : List Byte :=
  let h := beBytes 2 e.sport ++ beBytes 2 e.dport ++ beBytes 2 (8 + m.length)
  let c := upperSum e.sip e.dip 17 (h ++ [0, 0] ++ m)
  h ++ beBytes 2 (if c = 0 then 0xFFFF else c) ++ m

/-- A message in its frame, without FCS. -/
def encap (e : Encap) (m : List Byte) : List Byte :=
  if e.l2 then ethHead e.dmac e.smac e.vid 0x88F7 ++ m
  else
    let u := udpData e m
    if e.v6 then ethHead e.dmac e.smac e.vid 0x86DD ++ ip6Head e.sip e.dip 17 Config.ipTtl.toNat u.length ++ u
    else ethHead e.dmac e.smac e.vid 0x0800 ++ ip4Head e.sip e.dip 17 u.length ++ u

/-- An ARP packet (RFC 826): opcode, sender and target. -/
def arpPacket (op : Nat) (sm sip tm tip : List Byte) : List Byte :=
  [0, 1, 8, 0, 6, 4] ++ beBytes 2 op ++ sm ++ sip ++ tm ++ tip

/-- The all-nodes multicast address of IPv6, and its MAC address. -/
def allNodes : List Byte := [0xFF, 0x02] ++ List.replicate 13 0 ++ [1]
def allNodesMac : List Byte := [0x33, 0x33, 0, 0, 0, 1]

/-- A Neighbor Advertisement (RFC 4861) with Override set, and a Target Link-Layer Address option (R283). -/
def naPacket (solicited : Bool) (ip dip sm : List Byte) : List Byte :=
  let a : List Byte := [136, 0]
  let b := [(if solicited then 0x60 else 0x20 : Byte), 0, 0, 0] ++ ip ++ [2, 1] ++ sm
  let m := a ++ beBytes 2 (upperSum ip dip 58 (a ++ [0, 0] ++ b)) ++ b
  ip6Head ip dip 58 255 m.length ++ m

end Sys2Proof.Machine
end

