-- ==== Sys2Proof/Machine/MacBase.lean ====
section
/-! DEFINITION. Shared operations of the Ethernet ports (10 R254-R278): port states, counters, timestamps, the transmit queues and
what a frame holds when it starts. -/
namespace Sys2Proof.Machine

/-- Port states (10). -/
def pOFF : Nat := 0
def pDOWN : Nat := 1
def pDESKEW : Nat := 2
def pCAL : Nat := 3
def pUP : Nat := 4
def pTEST : Nat := 5

/-- Port p is a four-lane group (R254), and the lanes of a port. -/
def State.isGroup (s : State) (p : Nat) : Bool := s.b 0x02100000 (16 + p / 4) && decide (p % 4 = 0)
def State.portLanes (s : State) (p : Nat) : List Nat := if s.isGroup p then [p, p + 1, p + 2, p + 3] else [p]

/-- A statistics counter counts `n` more and saturates at 2^48 - 1, in every state except OFF (R278). -/
def State.macCount (s : State) (p i n : Nat) : State :=
  if s.portSt p = pOFF then s
  else
    let o := macOff p + 0x100 + i * 8
    s.wr64 o (satAt (2 ^ 48 - 1) (s.rd64 o % 2 ^ 48 + n))

/-- A counter of the packet service (R278's rules; 11, register map). -/
def State.pktCount (s : State) (i n : Nat) : State :=
  let o := 0x02205000 + i * 8
  s.wr64 o (satAt (2 ^ 48 - 1) (s.rd64 o % 2 ^ 48 + n))

/-- Port p enters a state; entering or leaving UP sets its bit of MAC_LINK_CHG. -/
def State.setPortSt (s : State) (p st : Nat) : State :=
  let old := s.portSt p
  let s := s.setF (macOff p + 4) 31 29 st
  if old ≠ st ∧ (old = pUP ∨ st = pUP) then (s.setB 0x02100018 p true).irq .mac 0 else s

/-! ### Timestamps (R256, R268, R269) -/

/-- What the place of a frame's start block adds to the delay of port p (R256, R269), 2^-16 ns: FEC_RX or FEC_TX on a 100 Gb/s port, and
the skew of the lane that carries the codeword in place of the largest, which RX_DLY and TX_DLY hold. -/
def State.startDelay (s : State) (p : Nat) (tx : Bool) (x : FecAt) : Int :=
  if s.isGroup p ∧ s.portMode p = 4 then
    (Config.fecDelay tx x.bit x.markers).toNat + (s.port p).skews.getD x.lane 0 - (s.rd (macOff p + 0x34)).toNat
  else 0

/-- RX timestamp of a capture, 2^-16 ns: capture less RX_DLY, FEC_RX and EXT_RX, truncated toward the earlier time (R268). -/
def State.rxTime (s : State) (p t : Nat) (fec : Int) : Nat :=
  let o := macOff p
  (((t : Int) / 2 ^ 24) - (s.rd (o + 0x20)).toNat - fec - signedOf 32 (s.rd (o + 0x28)).toNat).toNat

/-- A time of 2^-16 ns as the layout of R63, 12 bytes little-endian. -/
def timeBytes16 (t : Nat) : List Byte := timeBytes (t * 2 ^ 24)

/-- Seconds, nanoseconds and sub-nanoseconds (2^-16 ns) of a time in 2^-16 ns. -/
def secOf (t : Nat) : Nat := t / sec16
def nsOf (t : Nat) : Nat := t % sec16 / 65536
def subOf (t : Nat) : Nat := t % 65536

/-- A PTP timestamp: 6 bytes of seconds and 4 of nanoseconds. -/
def ptpTime (t : Nat) : List Byte := beBytes 6 (secOf t) ++ beBytes 4 (nsOf t)

/-- NTP timestamp of a time of a base (R300): truncated toward the earlier time. -/
def ntpTime (t : Nat) : List Byte :=
  beBytes 4 ((secOf t + 2208988800) % 2 ^ 32) ++ beBytes 4 (t % sec16 * 2 ^ 32 / sec16)

/-- Length of a frame on the medium, 2^-16 ns: preamble, frame, FCS and inter-frame gap at the port's rate (R254). -/
def State.frameTime (s : State) (p len : Nat) : Nat :=
  let bits := (8 + max 60 len + 4 + 12) * 8
  match s.portMode p with
  | 2 => bits * 65536 / 10
  | 3 => bits * 65536 / 25
  | 4 => bits * 65536 / 100
  | _ => bits * 65536

/-- Start-position grid of a port (R254), 2^-16 ns. -/
def State.gridStep (s : State) (p : Nat) : Nat :=
  match s.portMode p with
  | 2 => 80 * 65536 / 25
  | 3 => 32 * 65536 / 25
  | 4 => 16 * 65536 / 25
  | _ => 16 * 65536

/-- Pause quantum (R254), 1/100 ns. -/
def State.quantum (s : State) (p : Nat) : Nat :=
  match s.portMode p with
  | 2 => 5120
  | 3 => 2048
  | 4 => 512
  | _ => 51200

/-! ### The record and the authentication of an originated message (R175, R176, R295, R298) -/

/-- The Bluta record as a PTP TLV (R175). -/
def State.blutaTlv (s : State) (body : List Byte) : List Byte :=
  beBytes 2 (s.f 0x01500020 31 16) ++ beBytes 2 22 ++ beBytes 3 (s.f 0x01500024 23 0) ++ beBytes 3 (s.f 0x01500028 23 0) ++ body

/-- The Bluta record as an NTP extension field (R176). -/
def State.blutaField (s : State) (body : List Byte) : List Byte :=
  beBytes 2 (s.f 0x0150002C 15 0) ++ beBytes 2 20 ++ body

/-- A message with its messageLength set. -/
def setLength (m : List Byte) (len : Nat) : List Byte := m.take 2 ++ beBytes 2 len ++ m.drop 4

/-- secParamIndicator of an AUTHENTICATION TLV: 0 without a sequenceNo (11, worked example). -/
def authSpi (seq : Bool) : Byte := if seq then Config.authSpiSeq else 0

/-- Length of an AUTHENTICATION TLV (R295). -/
def authLen (seq : Bool) : Nat := if seq then 30 else 26

/-- A complete PTP message (R298): the message, the Bluta TLV, and last the AUTHENTICATION TLV with its ICV. -/
def State.ptpMessage (s : State) (msg : List Byte) (bluta : Option (List Byte)) (auth : Option AuthOut) : List Byte :=
  let m := msg ++ (match bluta with
    | some b => s.blutaTlv b
    | none => [])
  match auth with
  | none => setLength m m.length
  | some a =>
    let head := [0x80, 0x09] ++ beBytes 2 (authLen a.seq.isSome - 4) ++ [BitVec.ofNat 8 a.spp, authSpi a.seq.isSome] ++ beBytes 4 a.keyId
      ++ (match a.seq with
        | some q => beBytes 4 q
        | none => [])
    let m := setLength m (m.length + authLen a.seq.isSome) ++ head
    m ++ beBytes 16 (Config.cmac a.key (Config.authOctets m)).toNat

/-! ### NTP responses (R300-R304) -/

/-- An NTP extension field padded to a multiple of four bytes. -/
def ntpField (typ : Nat) (v : List Byte) : List Byte :=
  let v := v ++ List.replicate ((4 - v.length % 4) % 4) 0
  beBytes 2 typ ++ beBytes 2 (4 + v.length) ++ v

/-- An NTP response as it leaves at `ts` (2^-16 ns) on base `n` (R300-R304). -/
def State.ntpMessage (s : State) (n : Nat) (b : NtpBuild) (ts : Nat) : List Byte :=
  let m := if s.tbYoked n then s.tbMaster n else n
  let row := s.rd (bndOff n + 0x38)
  let p := (s.rd (bndOff n)).toNat
  let ref := match (s.ctl m).refT[n]? with
    | some t => ntpTime t.toNat
    | none => List.replicate 8 0
  let refid := s.rd (0x02200060 + 4 * s.refClass (s.ctl m).lastCand)
  let head := [BitVec.ofNat 8 (s.leapIndicator n * 64 + byteAt b.req 0 / 8 % 8 * 8 + 4),
      BitVec.ofNat 8 (if b.nak then 0 else if row.field 3 0 = 0 then 16 else row.field 3 0), b.req.getD 2 0, BitVec.ofNat 8 (s.f 0x0220004C 31 24)]
    ++ beBytes 4 0 ++ beBytes 4 (rootDispersion p) ++ (if b.nak then [0x4E, 0x54, 0x53, 0x4E] else beBytes 4 refid.toNat)
    ++ ref ++ slice b.req 40 8 ++ ntpTime b.rx ++ ntpTime ts
  let m := head ++ b.uid ++ (if b.bluta then s.blutaField (s.blutaBody n) else [])
  match b.nts with
  | none => m
  | some (key, nonce, plain) =>
    let c := Config.sivSeal key nonce m plain
    m ++ ntpField 0x0404 (beBytes 2 nonce.length ++ beBytes 2 c.length ++ nonce ++ c)

/-- The bytes of a frame that starts now with TX timestamp `ts` on base `n`; the fields of the launch tick take their values. -/
def State.txBytes (s : State) (n ts : Nat) : TxBody → List Byte
  | .raw l => l
  | .ptp e m b a => encap e (s.ptpMessage m (if b then some (s.blutaBody n) else none) a)
  | .ntp e b => encap e (s.ntpMessage n b ts)

/-! ### Slots of the store that a sent message records (R315, R316) -/

/-- Granary address of slot i (R314). -/
def slotAddr (i : Nat) : Nat := i * 0x800

/-- A statistics word counts one more (R315). -/
def State.slotStat (s : State) (i w : Nat) : State :=
  let a := slotAddr i + 0x80 + w * 8
  s.mwrite a (leBytes 8 (leNat (s.mread a 8) + 1))

/-- A history record, then the statistics word that counts it (R316): TYPE 1 counts word 2, 2 word 3, 3 word 4, 4 word 5, 5 word 6. -/
def State.slotHist (s : State) (m : SessMark) (late : Bool) : State :=
  let a := slotAddr m.slot
  let j := leNat (s.mread (a + 0xE8) 8) % 64
  let flags := (if m.auth then 1 else 0) + (if late then 2 else 0) + (if m.twoStep then 4 else 0)
  let s := s.mwrite (a + 0x100 + j * 32) ([BitVec.ofNat 8 m.typ, BitVec.ofNat 8 flags] ++ leBytes 2 m.seqId ++ timeBytes16 m.ts
    ++ leBytes 4 m.p ++ leBytes 8 (wrapTo 64 m.corr) ++ leBytes 4 0)
  let s := s.mwrite (a + 0xE8) (leBytes 8 ((j + 1) % 56))
  match m.typ with
  | 1 => s.slotStat m.slot 2
  | 2 => s.slotStat m.slot 3
  | 3 => s.slotStat m.slot 4
  | 4 => s.slotStat m.slot 5
  | _ => s.slotStat m.slot 6

/-! ### Flight (R306) -/

/-- An event that raises its fault once per run (R280): only after a second without one of its kind on the port. -/
def State.runRaise (s : State) (kind p : Nat) (f : FaultId) (ctx : Nat) : State :=
  let x := 64 * kind + p
  let last := mapGet (fun _ => 0) s.pkt.runs x
  let t := { s with pkt := { s.pkt with runs := mapSet (fun _ => 0) s.pkt.runs x (s.spn.ticks + 1) } }
  if last = 0 ∨ last + 2000000000 ≤ s.spn.ticks + 1 then t.raise f ctx else t

/-- A packet enters flight; at 8,192 the classifier stalls. -/
def State.flightIn (s : State) (p : Nat) : State :=
  let n := s.f 0x02200014 13 0 + 1
  let s := s.setF 0x02200014 13 0 n
  let s := s.setF 0x02200018 13 0 (max n (s.f 0x02200018 13 0))
  if n = 8192 then
    (((((s.setB 0x02200014 30 true).pktCount 23 1).irq .pkt 1).tallyAdd 0xC8 1).runRaise 4 p Flt.pktInflightFull 0)
  else s

/-- A packet leaves flight; the classifier no longer stalls. -/
def State.flightOut (s : State) : State := (s.setF 0x02200014 13 0 (s.f 0x02200014 13 0 - 1)).setB 0x02200014 30 false

/-- 8,192 packets are in flight (R306, R307). -/
def State.flightFull (s : State) : Bool := decide (8192 ≤ s.f 0x02200014 13 0)

/-- A packet that is due may be built now: there is a place in flight, and no earlier build waits for one (R306). -/
def State.mayBuild (s : State) : Bool := !s.flightFull && s.pkt.builds.isEmpty

/-- A build waits for a place in flight. -/
def State.buildLater (s : State) (b : PktBuild) : State := { s with pkt := { s.pkt with builds := s.pkt.builds ++ [b] } }

/-! ### Frames that leave or are dropped -/

/-- Fast-layer master `m` writes to host memory; Tally counts (R411). -/
def State.hostWrite (s : State) (m a : Nat) (l : List Byte) : State :=
  ((s.emit (.hostWrite a l)).tallyAdd (0xA0 + 4 * m + 1) l.length).tallyAdd (0xA0 + 4 * m + 2) 1

/-- Fast-layer master `m` reads `n` bytes of host memory. -/
def State.hostReadReq (s : State) (m a n : Nat) : State :=
  ((s.emit (.hostRead a n)).tallyAdd (0xA0 + 4 * m) n).tallyAdd (0xA0 + 4 * m + 2) 1

/-- Address of descriptor i of a transmit or receive ring. -/
def State.txDesc (s : State) (p i : Nat) : Nat := s.rd64 (macOff p + 0xA0) / 64 * 64 + 32 * i
def State.rxDesc (s : State) (p i : Nat) : Nat := s.rd64 (macOff p + 0x80) / 64 * 64 + 32 * i

/-- The write-back of a frame of the transmit ring falls due (R264); none where the ring was halted meanwhile (R265). -/
def State.txOwe (s : State) (p : Nat) (f : TxFrame) (ts : Option Nat) (bound status : Nat) : State :=
  if f.wb ∧ f.descs ≠ [] then
    s.modPort p (fun x => { x with back := x.back ++ [⟨f.descs, if f.tsReq then ts else none, bound, status⟩] })
  else s

/-- A frame of the transmit ring is written back (R264): OWN := 0 in every descriptor of it, TS, BOUND and STATUS in the first. -/
def State.txWriteBack (s : State) (p : Nat) (b : TxBack) : State :=
  match b.descs with
  | [] => s
  | i :: r =>
    let s := r.foldl (fun s j => s.hostWrite 2 (s.txDesc p j + 31) [0]) s
    s.hostWrite 2 (s.txDesc p i) ((match b.ts with
      | some t => timeBytes16 t ++ leBytes 4 b.bound
      | none => List.replicate 16 0) ++ [BitVec.ofNat 8 (b.status + if b.ts.isSome then 8 else 0)] ++ List.replicate 15 0)

/-- The transmit ring halts at a descriptor (R265): no frame of the ring is written back any more. -/
def State.txHalt (s : State) (p i : Nat) : State :=
  let no := fun (f : TxFrame) => { f with wb := false }
  (((s.setB (macOff p + 0xB8) 1 true).raise Flt.macRingErr (i * 65536 + 16 + p)).irq .mac 4).modPort p (fun x =>
    { x with ring := x.ring.map no, cur := x.cur.map (fun c => if c.1 = 2 then (c.1, no c.2) else c), back := [] })

/-- The ring engine writes what is due, oldest first (R264); the write-back of number `bad` among them meets a PCIe error, which halts the
ring (R265). -/
def State.txFlush (s : State) (p : Nat) (bad : Option Nat) : State :=
  let l := (s.port p).back
  let s := ((match bad with
    | some k => l.take k
    | none => l).foldl (fun (s : State) b => s.txWriteBack p b) s).modPort p (fun x => { x with back := [] })
  match bad.bind (fun k => l[k]?) with
  | some b => (s.mtxErr 3 2 (s.txDesc p (b.descs.headD 0))).txHalt p (b.descs.headD 0)
  | none => s

/-- A frame is dropped with a cause (R264, R274): counted, its write-back due, out of flight. -/
def State.txDrop (s : State) (p : Nat) (f : TxFrame) (cause : Nat) : State :=
  let s := (s.macCount p 16 1).txOwe p f none 0 (4 + cause * 16)
  let s := if f.inFlight then s.flightOut else s
  match f.mark with
  | some m => if cause = 1 ∧ m.typ = 2 then s.slotStat m.slot 12 else s
  | none => s

/-- A frame is queued at source `src` of the arbiter (R273). -/
def State.txQueue (s : State) (p src : Nat) (f : TxFrame) : State :=
  s.modPort p (fun x => match src with
    | 0 => { x with esmc := x.esmc ++ [f] }
    | 1 => { x with pkt := x.pkt ++ [f] }
    | _ => { x with ring := x.ring ++ [f] })

/-- A launch-timed frame turns late (R274): counted, MAC/LAUNCH_LATE; dropped with cause 1 under LATE_DROP. Answers the frame if it
stays. -/
def State.txLate (s : State) (p src : Nat) (f : TxFrame) : Option TxFrame × State :=
  let s := ((s.macCount p 15 1).raise Flt.macLaunchLate (src * 16 + p)).irq .mac 3
  if f.lateDrop then (none, s.txDrop p f 1) else (some { f with late := true }, s)

/-- A launch-timed frame enters its queue: late when it is not there 0.5 µs before its launch time (R274). -/
def State.txLaunch (s : State) (p src : Nat) (f : TxFrame) : State :=
  match f.launch with
  | none => s.txQueue p src f
  | some l =>
    if l < s.tbTime (s.portBase p) / 2 ^ 24 + 500 * 65536 then
      match s.txLate p src f with
      | (some f, s) => s.txQueue p src f
      | (none, s) => s
    else s.txQueue p src f

/-! ### Links going down (R257) -/

/-- State of client instance k. -/
def State.cliState (s : State) (k : Nat) : Nat := s.f (cliOff k + 0x28) 31 28

/-- Client instance k enters a state (R308): the selector sees its candidate's source in the same round. -/
def State.setCli (s : State) (k st : Nat) : State :=
  if s.cliState k = st then s
  else
    let t := (s.setF (cliOff k + 0x28) 31 28 st).irq .pkt 6
    t.candRound t [26 + k]

/-- Client record k changed by `g`. -/
def State.modCli (s : State) (k : Nat) (g : Client → Client) : State := { s with pkt := { s.pkt with clients := listMod s.pkt.clients k g } }

/-- The client instances of port p go to OFF (R308). -/
def State.cliPortDown (s : State) (p : Nat) : State :=
  (List.range 4).foldl (fun s k =>
    if s.b 0x02200000 (16 + k) ∧ s.f (cliOff k) 27 24 = p then (s.setCli k 0).modCli k (fun c => { reqSeq := c.reqSeq, sigSeq := c.sigSeq, txSeq := c.txSeq, rxSeq := c.rxSeq }) else s) s

/-- A frame whose launch time passed while the port was UP (R274). -/
def upPast (now : Nat) (f : TxFrame) : TxFrame := { f with upPast := f.upPast || decide ((f.launch.getD (now + 1)) ≤ now) }

/-- What leaving UP does (R257): the frames in progress are discarded; no timestamps (CAL_U); MAC/LINK_DOWN where `cause` names
one. -/
def State.leaveUp (s : State) (p : Nat) (cause : Option Nat) : State :=
  let s := if (s.port p).rxIn then (s.macCount p 22 1).modPort p (fun x => { x with rxIn := false }) else s
  let s := match (s.port p).cur with
    | some (_, f) => (s.modPort p (fun x => { x with cur := none })).txDrop p f 2
    | none => s
  let mark := upPast (s.tbTime (s.portBase p) / 2 ^ 24)
  let s := s.modPort p (fun x => { x with pkt := x.pkt.map mark, ring := x.ring.map mark })
  let s := (s.wr (macOff p + 0x30) 0xFFFFFFFF).setF (macOff p + 4) 27 26 0
  let s := match cause with
    | some c => s.raise Flt.macLinkDown (c * 16 + p)
    | none => s
  s.cliPortDown p

/-- Port p goes from CAL, DESKEW or UP to `st` (R257). -/
def State.portTo (s : State) (p st : Nat) (cause : Option Nat) : State :=
  let was := s.portSt p
  let s := s.setPortSt p st
  if was = pUP ∧ st ≠ pUP then s.leaveUp p cause else s

/-- A lane of port p is not LOCKED any more: the port goes DOWN (R257). -/
def State.portLaneLost (s : State) (p : Nat) : State :=
  let st := s.portSt p
  if st = pCAL ∨ st = pDESKEW ∨ st = pUP then s.portTo p pDOWN (some 1) else s

/-- Every lane of port p is LOCKED. -/
def State.portLocked (s : State) (p : Nat) : Bool := (s.portLanes p).all (fun m => decide (s.f (lanOff m + 4) 31 28 = 5))

/-- A lane of port p is in TEST (R249). -/
def State.portTest (s : State) (p : Nat) : Bool := (s.portLanes p).any (fun m => s.b (lanOff m) 27)

/-- One transition of port p (R257): the rows in order. -/
def State.portStep (s : State) (p : Nat) : State :=
  let st := s.portSt p
  if !s.b (macOff p) 31 || !s.b 0x02100000 p || !s.domOn 7 then (if st = pOFF then s else s.portTo p pOFF none)
  else if st ≠ pOFF ∧ st ≠ pTEST ∧ s.portTest p then s.portTo p pTEST (some 1)
  else if st = pTEST then (if s.portTest p then s else s.setPortSt p pDOWN)
  else if st = pOFF then s.setPortSt p pDOWN
  else if st = pDOWN then
    if s.portLocked p then
      if s.isGroup p then (s.setPortSt p pDESKEW).modPort p (fun x => { x with deskewFail := false, deskewAt := s.spn.ticks })
      else s.setPortSt p pCAL
    else s
  else if !s.portLocked p then s.portLaneLost p
  else s

/-- The transitions of port p, one in each round, until no row holds (R257): no more than four follow from one event. -/
def State.portEval (s : State) (p : Nat) : State := (List.range 4).foldl (fun s _ => s.portStep p) s

end Sys2Proof.Machine
end

