-- ==== Sys2Proof/Machine/Cst.lean ====
section
/-! DEFINITION. The client store (12 R312-R332): layout, hash index, sessions, host commands, ECC, scrub and BAR2. -/
namespace Sys2Proof.Machine

/-- CST_STAT.READY. -/
def State.cstReady (s : State) : Bool := s.b 0x02300014 31

/-- The store record changed by `g`. -/
def State.modCst (s : State) (g : Cst → Cst) : State := { s with cst := g s.cst }

/-! ### Slots (R314) -/

/-- Number in `n` bytes at offset `o` of slot i, and the bytes set. -/
def State.hot (s : State) (i o n : Nat) : Nat := leNat (s.mread (slotAddr i + o) n)
def State.setHot (s : State) (i o n v : Nat) : State := s.mwrite (slotAddr i + o) (leBytes n v)

/-- Bit `b` of byte `o` of slot i, and the bit set. -/
def State.hotBit (s : State) (i o b : Nat) : Bool := decide (s.hot i o 1 / 2 ^ b % 2 = 1)
def State.setHotBit (s : State) (i o b : Nat) (v : Bool) : State :=
  let x := s.hot i o 1
  s.setHot i o 1 (x - x / 2 ^ b % 2 * 2 ^ b + if v then 2 ^ b else 0)

/-- A slot is allocated. -/
def State.slotUsed (s : State) (i : Nat) : Bool := s.cst.used.contains i

/-- Whether the hot line of slot i equals a key (R319). -/
def State.hotMatch (s : State) (i : Nat) (k : SessKey) : Bool :=
  s.hotBit i 0 0 && decide (s.hot i 0 1 / 2 % 4 = k.flags % 4) && decide (s.hot i 1 1 = k.port)
    && decide (s.hot i 2 2 = k.vid + if k.flags / 4 % 2 = 1 then 0x8000 else 0)
    && decide (s.mread (slotAddr i + 4) 16 = k.addr) && decide (s.mread (slotAddr i + 20) 10 = k.pid)

/-! ### Keys and buckets (R317, R318) -/

/-- The 40-byte key record (R317). -/
def keyBytes (k : SessKey) : List Byte :=
  [BitVec.ofNat 8 k.port, BitVec.ofNat 8 k.flags] ++ leBytes 2 k.vid ++ k.addr ++ k.pid ++ List.replicate 10 0

/-- The key of a slot's hot line. -/
def State.keyOfSlot (s : State) (i : Nat) : SessKey :=
  let v := s.hot i 2 2
  { port := s.hot i 1 1 % 16, flags := s.hot i 0 1 / 2 % 4 + (if 0x8000 ≤ v then 4 else 0), vid := v % 4096
    addr := s.mread (slotAddr i + 4) 16, pid := s.mread (slotAddr i + 20) 10 }

/-- Buckets h1, h2 and TAG of a key (R318). -/
def State.hashOf (s : State) (k : SessKey) : Nat × Nat × Nat :=
  let b := keyBytes k
  let h1 := crc32cFrom s.cst.seed1 b % 2 ^ 22
  let h2 := crc32cFrom s.cst.seed2 b % 2 ^ 22
  (h1, if h2 = h1 then h1 ^^^ 1 else h2, crc32cFrom s.cst.seed3 b)

/-- Granary address of entry j of bucket b. -/
def entryAddr (b j : Nat) : Nat := 0x80000000 + b * 64 + j * 8

/-- An entry: its TAG, slot and VALID. -/
def State.entry (s : State) (b j : Nat) : Nat × Nat × Bool :=
  let e := leNat (s.mread (entryAddr b j) 8)
  (e % 2 ^ 32, e / 2 ^ 32 % 2 ^ 20, decide (2 ^ 63 ≤ e))

/-- The slot a bucket gives for a key (R319). -/
def State.bucketHit (s : State) (b tag : Nat) (k : SessKey) : Option Nat :=
  ((List.range 8).find? (fun j => let e := s.entry b j; e.2.2 && decide (e.1 = tag) && s.hotMatch e.2.1 k)).map (fun j => (s.entry b j).2.1)

/-- A lookup (R319): h1, then h2. -/
def State.sessFind (s : State) (k : SessKey) : Option Nat :=
  let h := s.hashOf k
  match s.bucketHit h.1 h.2.2 k with
  | some i => some i
  | none => s.bucketHit h.2.1 h.2.2 k

/-- A free entry of a bucket. -/
def State.bucketFree (s : State) (b : Nat) : Option Nat := (List.range 8).find? (fun j => !(s.entry b j).2.2)

/-- The entries of a bucket that hold slot i. -/
def State.bucketOf (s : State) (b i : Nat) : List Nat :=
  (List.range 8).filter (fun j => let e := s.entry b j; e.2.2 && decide (e.2.1 = i))

/-! ### Budgets (R289) -/

/-- Messages a second of a log period, in eighths. -/
def rate8 (log : Int) : Nat := if log ≤ 3 then 2 ^ (3 - log).toNat else 0

/-- Charge of slot i, eighths of a packet a second: Announce 1 packet per message, Sync 1 or 2 by TWO_STEP, Delay_Resp 2. -/
def State.slotCharge (s : State) (i : Nat) : Nat :=
  let g := fun (b : Nat) => s.hotBit i 36 b
  let two := s.b (0x02201000 + (s.hot i 1 1 % 16) * 0x80) 25
  (if g 0 then rate8 (sByte (s.hot i 37 1)) else 0) + (if g 1 then rate8 (sByte (s.hot i 38 1)) * (if two then 2 else 1) else 0)
    + (if g 2 then rate8 (sByte (s.hot i 39 1)) * 2 else 0)

/-- Charge of the sessions of a port, and of all, eighths of a packet a second. -/
def State.portCharge (s : State) (p : Nat) : Nat :=
  ((s.cst.used.filter (fun i => decide (s.hot i 1 1 % 16 = p))).map s.slotCharge).sum
def State.allCharge (s : State) : Nat := (s.cst.used.map s.slotCharge).sum

/-- BUDGET_USED of port p and of the service, in whole packets a second, rounded up. -/
def State.budgetShow (s : State) (p : Nat) : State :=
  (s.wrN (0x02201010 + p * 0x80) ((s.portCharge p + 7) / 8)).wrN 0x02200034 ((s.allCharge + 7) / 8)

/-- CST_STAT.USED and PKT_SESSIONS. -/
def State.usedShow (s : State) : State :=
  (s.setF 0x02300014 20 0 s.cst.used.length).setF 0x02200028 20 0 s.cst.used.length

/-! ### Inserts and deletes (R320-R322) -/

/-- The lowest number from `n` on that a rising list does not hold. -/
def lowestFree : List Nat → Nat → Nat
  | [], n => n
  | x :: r, n => if x < n then lowestFree r n else if x = n then lowestFree r (n + 1) else n

/-- A number put into a rising list. -/
def insertNat : List Nat → Nat → List Nat
  | [], n => [n]
  | x :: r, n => if n < x then n :: x :: r else if n = x then x :: r else x :: insertNat r n

/-- The lowest-numbered slot neither in use nor retired (R322). -/
def State.freeSlot (s : State) : Option Nat :=
  let i := lowestFree (s.cst.retired.foldl insertNat s.cst.used) 0
  if i < 1048576 ∧ s.cstReady then some i else none

/-- An insert of a key that no lookup finds (R320-R322): allocation clears the slot and sets CREATED, the hot line is written with
VALID, then the entry. None when no slot is free or both buckets are full. -/
def State.sessInsert (s : State) (k : SessKey) (pinned : Bool) : Option Nat × State :=
  match s.freeSlot with
  | none => (none, s.irq .cst 2)
  | some i =>
    let h := s.hashOf k
    let at_ := match s.bucketFree h.1 with
      | some j => some (h.1, j)
      | none => (s.bucketFree h.2.1).map (fun j => (h.2.1, j))
    match at_ with
    | none => (none, ((s.countSat 0x02300040 31 0 1).raise Flt.cstBucketFull h.1).irq .cst 2)
    | some (b, j) =>
      let s := (s.mwrite (slotAddr i) (List.replicate 2048 0)).heal (slotAddr i) 2048
      let s := s.mwrite (slotAddr i + 0x80) (leBytes 8 (s.tbSec 0))
      let state := 1 + k.flags % 4 * 2 + if pinned then 32 else 0
      let s := s.mwrite (slotAddr i) ([BitVec.ofNat 8 state, BitVec.ofNat 8 k.port]
        ++ leBytes 2 (k.vid + if k.flags / 4 % 2 = 1 then 0x8000 else 0) ++ k.addr ++ k.pid)
      let s := s.mwrite (entryAddr b j) (leBytes 8 (h.2.2 + i * 2 ^ 32 + 2 ^ 63))
      (some i, (s.modCst (fun c => { c with used := insertNat c.used i })).usedShow)

/-- VALID of entry j of bucket b is cleared. -/
def State.entryClear (s : State) (b j : Nat) : State :=
  let a := entryAddr b j + 7
  s.mwrite a [BitVec.ofNat 8 (leNat (s.mread a 1) % 128)]

/-- A delete (R320): the entry's VALID, then the hot line's. -/
def State.sessDelete (s : State) (i : Nat) : State :=
  let p := s.hot i 1 1 % 16
  let h := s.hashOf (s.keyOfSlot i)
  let drop := fun (s : State) (b : Nat) => (s.bucketOf b i).foldl (fun s j => s.entryClear b j) s
  let s := (drop (drop s h.1) h.2.1).setHotBit i 0 0 false
  let keep := fun (l : List (Nat × Nat)) => l.filter (fun x => decide (x.1 / 4 ≠ i))
  let s := { s with pkt := { s.pkt with seqs := keep s.pkt.seqs, places := keep s.pkt.places } }
  ((s.modCst (fun c => { c with used := c.used.filter (· ≠ i) })).usedShow).budgetShow p

/-- A session is released: a delete, and the service counts it. -/
def State.sessRelease (s : State) (i : Nat) : State := (s.sessDelete i).pktCount 20 1

/-! ### ECC (R326, R327) -/

/-- The configuration region again from the load buffer (R433). -/
def State.shadowRebuild (s : State) : State :=
  let keep := s.mem.filter (fun c => decide (c.1 < 0xF0000000))
  ((({ s with mem := keep } : State).mwrite 0xF0000000 s.img.buf).mwrite 0xF8000000 ((Config.expandedTable s.img.buf).take 0x8000000)).heal
    0xF0000000 0x10000000

/-- What follows an uncorrectable error by the region of its address (R327): the session of a slot is deleted and the slot retired, a bucket of the
index zeroed, the configuration region built again; a word of the trace ring or of scratch is left as found. -/
def State.eccAct (s : State) (a : Nat) : State :=
  if a < 0x80000000 then
    let i := a / 0x800
    let s := if s.slotUsed i then s.sessRelease i else s
    if s.cst.retired.contains i then s
    else
      let s := s.modCst (fun c => { c with retired := insertNat c.retired i })
      (s.setF 0x02300044 20 0 s.cst.retired.length).raise Flt.cstSlotRetired i
  else if a < 0x90000000 then (s.mwrite (a / 64 * 64) (List.replicate 64 0)).heal (a / 64 * 64) 64
  else if a < 0xF0000000 then s
  else (s.shadowRebuild.raise Flt.cfgShadowEcc a).irq .cfg 1

/-- A read meets an error (R326, R327). -/
def State.eccHit (s : State) (e : EccHit) : State :=
  if e.uncorrectable then (s.eccNote e).eccAct e.addr.toNat else s.eccNote e

/-- A read of `n` bytes at `a` meets the errors there. -/
def State.meet (s : State) (a n : Nat) : State := (s.flawsIn a n).foldl State.eccHit s

/-- Fast-layer master `m` reads `n` bytes of the Granary at `a`: the bytes, or the address of the error response (R327). -/
def State.granGet (s : State) (m a n : Nat) : (Nat ⊕ List Byte) × State :=
  match s.damaged a n with
  | some x => (.inl x, (s.meet a n).tallyAdd (0xA0 + 4 * m + 2) 1)
  | none =>
    let r := (s.meet a n).granRead m a n
    (.inr r.1, r.2)

/-- The hot line, key material and statistics of slot i are read. -/
def State.meetSlot (s : State) (i : Nat) : State := s.meet (slotAddr i) 0x100

/-- Bucket b is read, with the slots of its entries of a TAG (R319). -/
def State.meetBucket (s : State) (b tag : Nat) : State :=
  let s := s.meet (entryAddr b 0) 64
  (((List.range 8).filter (fun j => (s.entry b j).2.2 && decide ((s.entry b j).1 = tag))).map (fun j => (s.entry b j).2.1)).foldl State.meetSlot s

/-- The reads of a lookup (R319): h1, and h2 where h1 yields no hit. -/
def State.meetKey (s : State) (k : SessKey) : State :=
  if s.cst.flaws.isEmpty then s
  else
    let h := s.hashOf k
    let s := s.meetBucket h.1 h.2.2
    if (s.bucketHit h.1 h.2.2 k).isSome then s else s.meetBucket h.2.1 h.2.2

/-! ### Commands -/

/-- The seeds are drawn and READY sets (R313); the working copy of the image follows when the part is in RUN (R433). -/
def State.storeReady (s : State) : State :=
  let a := s.takeFree 32
  let b := a.2.takeFree 32
  let c := b.2.takeFree 32
  let s := c.2.modCst (fun x => { x with seed1 := a.1, seed2 := b.1, seed3 := c.1 })
  let s := ((s.setB 0x02300014 31 true).irq .cst 5).traceDrain.gnsDrain
  if s.running then s.shadowRebuild else s

/-- The DRAM is zeroed below the configuration region, with valid check bits. -/
def State.storeZero (s : State) : State :=
  let s : State := { s with mem := s.mem.filter (fun c => decide (0xF0000000 ≤ c.1)) }
  let s := s.modCst (fun x => { x with
    ready := some true, flaws := [], used := [], retired := [], scrubAt := 0, scrubTick := s.spn.ticks, sweepSec := none, passUe := false, lastUe := false })
  ((List.range 16).foldl State.budgetShow s.usedShow).setF 0x02300044 20 0 0

/-- STORE_INIT (R313): once in each power-up of PD6 the DRAM is trained, which may fail, and zeroed; then the seeds are drawn and READY sets, which
waits while the DRBG is stopped (R334). -/
def execStoreInit (trained : Bool) (s : State) : Out :=
  if !s.domOn 6 || s.cstReady then .next s
  else match s.cst.ready with
    | some false => .next s
    | some true => .next (if s.b 0x02400010 2 then s.storeReady else s)
    | none =>
      if !trained then .next (((s.modCst (fun x => { x with ready := some false })).raise Flt.cstInitFail 0).healthFall)
      else
        let s := s.storeZero
        .next (if s.b 0x02400010 2 then s.storeReady else s)

/-- TB0 time in 2^-16 s modulo 2^32 (R314, DREQ_T). -/
def State.tb0Frac (s : State) : Nat := s.tbTime 0 * 65536 / secU % 2 ^ 32

/-- Whether an END second has passed (R314, R323). -/
def State.endPassed (s : State) (e : Nat) : Bool := decide (signedOf 24 ((e + 2 ^ 24 - s.tbSec 0 % 2 ^ 24) % 2 ^ 24) < 0)

/-- Grant `b` (0 Announce, 1 Sync, 2 Delay_Resp) of slot i is in force (R323). -/
def State.granted (s : State) (i b : Nat) : Bool := s.hotBit i 36 b && !s.endPassed (s.hot i (40 + 3 * b) 3)

/-- The sweep's read of slot i and of the buckets of its key. -/
def State.meetSweep (s : State) (i : Nat) : State :=
  if s.cst.flaws.isEmpty then s
  else
    let s := s.meetSlot i
    let h := s.hashOf (s.keyOfSlot i)
    (s.meet (entryAddr h.1 0) 64).meet (entryAddr h.2.1 0) 64

/-- The sweep visits slot i (R323), which an error met there may have released (R327). -/
def State.sweepSlot (s : State) (i : Nat) : State :=
  let s := s.meetSweep i
  if !s.slotUsed i then s
  else
  let s := (List.range 3).foldl (fun s b => if s.hotBit i 36 b && !s.granted i b then s.setHotBit i 36 b false else s) s
  let s := s.budgetShow (s.hot i 1 1 % 16)
  let now := s.tb0Frac
  let s := if 65536 < (now + 2 ^ 32 - s.hot i 52 4) % 2 ^ 32 then
      (s.setHot i 36 1 (s.hot i 36 1 % 16 + 64)).setHot i 52 4 now
    else s
  let age := signedOf 32 ((s.tbSec 0 + 2 ^ 32 - s.hot i 60 4) % 2 ^ 32)
  let lim := (s.rd 0x02300018).toNat
  let h := s.hashOf (s.keyOfSlot i)
  if !s.hotBit i 0 5 ∧ (s.hot i 36 1 % 8 = 0 ∨ (lim ≠ 0 ∧ (lim : Int) < age)) then s.sessRelease i
  else if s.bucketOf h.1 i = [] ∧ s.bucketOf h.2.1 i = [] then s.sessRelease i
  else s

/-- SESSION_SWEEP (R323): once per TB0 second, every allocated slot, ascending. -/
def execSessionSweep (s : State) : Out :=
  if s.cstReady ∧ s.cst.sweepSec ≠ some (s.tbSec 0) then
    .next (s.cst.used.foldl State.sweepSlot (s.modCst (fun c => { c with sweepSec := some (s.tbSec 0) })))
  else .next s

/-- A CST command ends with a code (R324). -/
def State.cstDone (s : State) (code : Nat) : State := ((s.setF 0x02300104 27 24 code).setB 0x02300104 31 false).irq .cst 4

/-- The key of CST_KEY0 to CST_KEY9; none for BAD_KEY. -/
def State.cstKey (s : State) : Option SessKey :=
  let b := (List.range 10).flatMap (fun i => leBytes 4 (s.rd (0x02300110 + 4 * i)).toNat)
  let port := byteAt b 0
  if 16 ≤ port ∨ 8 ≤ byteAt b 1 ∨ 16 ≤ byteAt b 3 ∨ slice b 30 10 ≠ List.replicate 10 0 ∨ !s.b 0x02200000 port then none
  else some ⟨port, byteAt b 1, leNat (slice b 2 2), slice b 4 16, slice b 20 10⟩

/-- LOOKUP. -/
def State.cstLookup (s : State) : State :=
  match s.cstKey with
  | none => s.cstDone 4
  | some k =>
    let s := s.meetKey k
    match s.sessFind k with
    | none => s.cstDone 1
    | some i =>
      let s := (List.range 16).foldl (fun s j => s.wrN (0x02300180 + 4 * j) (s.hot i (4 * j) 4)) s
      (s.setF 0x02300104 20 0 i).cstDone 0

/-- CREATE. -/
def State.cstCreate (s : State) : State :=
  match s.cstKey with
  | none => s.cstDone 4
  | some k =>
    let s := s.meetKey k
    match s.sessFind k with
    | some i => (s.setF 0x02300104 20 0 i).cstDone 2
    | none =>
      match s.sessInsert k true with
      | (some i, s) => (s.setF 0x02300104 20 0 i).cstDone 0
      | (none, s) => s.cstDone 3

/-- A 16-byte key wrapped under a WRAP slot of the Chest (R349): valid when the slot is of type WRAP, holds a key and the integrity
check passes. -/
def State.unwrapKey (s : State) (slot : Nat) (w : List Byte) : Option (List Byte) :=
  if slot < 6 then none
  else match s.chestKey slot with
    | none => none
    | some kek => Config.aesUnwrap kek w

/-- PROVISION. -/
def State.cstProvision (s : State) : State :=
  let i := s.f 0x02300108 20 0
  let s := s.meetSlot i
  if !s.slotUsed i then s.cstDone 6
  else
    let w := (List.range 6).flatMap (fun j => leBytes 4 (s.rd (0x02300140 + 4 * j)).toNat)
    let slot := s.f 0x0230015C 13 8
    match s.unwrapKey slot w with
    | none => s.cstDone 5
    | some _ =>
      let s := s.mwrite (slotAddr i + 0x40) (w ++ leBytes 4 (s.rd 0x02300158).toNat ++ [BitVec.ofNat 8 slot, BitVec.ofNat 8 (s.f 0x0230015C 3 0)])
      (s.setHotBit i 0 3 true).cstDone 0

/-- RELEASE. -/
def State.cstRelease (s : State) : State :=
  let i := s.f 0x02300108 20 0
  let s := s.meetSlot i
  if s.slotUsed i then (s.sessRelease i).cstDone 0 else s.cstDone 6

/-- UNPIN. -/
def State.cstUnpin (s : State) : State :=
  let i := s.f 0x02300108 20 0
  let s := s.meetSlot i
  if s.slotUsed i then (s.setHotBit i 0 5 false).cstDone 0 else s.cstDone 6

/-- A write to CST_CMD (R324). -/
def State.wCstCmd (s : State) (v : Word) : State :=
  match v.field 31 28 with
  | 1 => s.cstLookup
  | 2 => s.cstCreate
  | 3 => s.cstProvision
  | 4 => s.cstRelease
  | 5 => s.cstUnpin
  | _ => s.cfgBad .cst 0x02300100

/-- LOOKUP, CREATE, PROVISION, RELEASE and UNPIN (R324): a write of the command's OP to CST_CMD. -/
def execLookup (i : Itf) (s : State) : Out := .next (s.reach i 0x02300100 0x10000000 (fun s => s.cstLookup))
def execCreate (i : Itf) (s : State) : Out := .next (s.reach i 0x02300100 0x20000000 (fun s => s.cstCreate))
def execProvision (i : Itf) (s : State) : Out := .next (s.reach i 0x02300100 0x30000000 (fun s => s.cstProvision))
def execRelease (i : Itf) (s : State) : Out := .next (s.reach i 0x02300100 0x40000000 (fun s => s.cstRelease))
def execUnpin (i : Itf) (s : State) : Out := .next (s.reach i 0x02300100 0x50000000 (fun s => s.cstUnpin))

/-- Ticks of a scrub pass (R328). -/
def State.scrubTicks (s : State) : Nat := s.f 0x0230001C 16 0 * 2000000000

/-- The next line of the pass is due (R328): the lines of a pass are spread over the period. -/
def State.scrubDue (s : State) : Bool := decide (s.cst.scrubTick + s.cst.scrubAt * s.scrubTicks / 0xF0000000 ≤ s.spn.ticks)

/-- SCRUB_LINE (R328): the next 64-byte line of the pass is read, and the errors it holds are met. `errs`: words of the DRAM that have come to hold
an error. -/
def execScrubLine (errs : List EccHit) (s : State) : Out :=
  let s := s.dramFail errs
  if !s.cstReady || !s.b 0x02300010 0 || !s.scrubDue then .next s
  else
    let a := s.cst.scrubAt
    let t := s.scrubTicks
    let ue := s.cst.passUe || (s.damaged (a / 64 * 64) 64).isSome
    let s := ((s.tallyAdd 0xD2 1).tallyAdd 0xD0 1).meet (a / 64 * 64) 64
    if a + 64 < 0xF0000000 then .next (s.modCst (fun c => { c with scrubAt := a + 64, passUe := ue }))
    else
      let s := s.modCst (fun c => { c with scrubAt := 0, scrubTick := c.scrubTick + t, passUe := false, lastUe := ue })
      .next ((s.count 0x0230003C 31 0 1).healthFall)

/-! ### BAR2 (R327, R329-R331) -/

/-- A BAR2 write lands in scratch, or is discarded with CST/BAR2_WRITE (R330): also one before READY, at any time. -/
def State.wBar2 (s : State) (a : Nat) (bytes : List Byte) : State :=
  if s.cstReady && inScratch a bytes.length then
    ((((s.mwrite a bytes).heal a bytes.length).tallyAdd 0xD1 1).tallyAdd 0xA1 bytes.length).tallyAdd 0xA2 1
  else (s.raise Flt.cstBar2Write a).irq .cst 3

/-- An access through BAR2 waits behind an earlier one that does (R41, R331). -/
def State.bar2Behind (s : State) : Bool := s.heldP.any (fun h => h.bar2.isSome)

/-- BAR2_WRITE (R330): held by an open fence that names block CST (R331). -/
def execBar2Write (addr : Word) (bytes : List Byte) (s : State) : Out :=
  if s.fenceHolds .pcie 0x02300000 || s.bar2Behind then .next (s.hold { itf := .pcie, off := addr.toNat, v := 0, bar2 := some bytes })
  else .next (s.wBar2 addr.toNat bytes)

/-- A BAR2 read of `n` bytes (R329): zeros until READY (R313); a word with an uncorrectable error poisons the completion (R327). -/
def State.rBar2 (s : State) (a n : Nat) : State :=
  if !s.cstReady then s.complete .pcie { bytes := List.replicate n 0 }
  else
    let ep := (s.damaged a n).isSome
    let s := s.meet a n
    let d := s.mread a n
    let s := [(0xD0, 1), (0xA0, n), (0xA2, 1)].foldl (fun s x => s.tallyAdd x.1 x.2) s
    s.complete .pcie { value := if ep ∨ 8 < n then 0 else BitVec.ofNat 64 (leNat d), bytes := if ep then [] else d, poisoned := ep }

/-- A host read through BAR2: behind the accesses that wait. `errs`: words of the DRAM that have come to hold an error. -/
def State.bar2Read (s : State) (a n : Nat) (errs : List EccHit) : State :=
  let s := s.dramFail errs
  if !s.hostOn then s
  else if s.bar2Behind then s.hold { itf := .pcie, off := a, v := 0, bar2 := some (List.replicate n 0), read := true }
  else s.rBar2 a n

end Sys2Proof.Machine
end

