-- ==== Sys2Proof/Machine/PktBase.lean ====
section
/-! DEFINITION. Shared operations of the packet service (11 R281-R306): interfaces, the path to the host, addresses of answers, PTP
headers and TLVs, keys and authentication. -/
namespace Sys2Proof.Machine

/-- Window of port p in PKT, of interface k, of SPP entry x. -/
def pktOff (p : Nat) : Nat := 0x02201000 + p * 0x80
def ifOff (k : Nat) : Nat := 0x02202000 + k * 0x40
def sppOff (x : Nat) : Nat := 0x02203000 + x * 4

/-- PROFILE, MCAST and base of a served port. -/
def State.profile (s : State) (p : Nat) : Nat := s.f (pktOff p) 30 28
def State.mcast (s : State) (p : Nat) : Bool := s.b (pktOff p) 23
def State.pktTb (s : State) (p : Nat) : Nat := s.f (pktOff p) 22 20

/-- The port has sessions (11, Sessions): PROFILE 3, or PROFILE 1 without MCAST. -/
def State.hasSessions (s : State) (p : Nat) : Bool :=
  decide (s.profile p = 3) || (decide (s.profile p = 1) && !s.mcast p)

/-- The port sends multicast streams (R290). -/
def State.hasStreams (s : State) (p : Nat) : Bool := decide (s.profile p = 2) || (decide (s.profile p = 1) && s.mcast p)

/-- The port is served: PKT_CAP, its EN, and PD5 on (R284). -/
def State.served (s : State) (p : Nat) : Bool := s.domOn 5 && s.b 0x02200000 p && s.b (pktOff p) 31

/-- Authenticated service is stopped (R299). -/
def State.authLost (s : State) : Bool := s.b 0x02200014 31

/-! ### Interfaces -/

/-- IP address of an address register group: IPv6 in four registers, IPv4 in the first. -/
def State.ipReg (s : State) (o : Nat) (v6 : Bool) : List Byte :=
  if v6 then (List.range 4).flatMap (fun j => beBytes 4 (s.rd (o + 4 * j)).toNat) else beBytes 4 (s.rd o).toNat

/-- Interface k serves port p and VLAN `vid`. -/
def State.ifOn (s : State) (k p : Nat) (vid : Option Nat) : Bool :=
  let o := ifOff k
  s.b o 31 && decide (s.f o 19 16 = p) && (match vid with
    | some v => s.b o 26 && decide (s.f o 11 0 = v)
    | none => !s.b o 26)

/-- Address and MAC address of interface k. -/
def State.ifIp (s : State) (k : Nat) : List Byte := s.ipReg (ifOff k + 0x10) (s.b (ifOff k) 30)
def State.ifMac (s : State) (k : Nat) : List Byte := s.macReg (ifOff k + 4)

/-- The first interface of a port and VLAN that satisfies a test. -/
def State.findIf (s : State) (p : Nat) (vid : Option Nat) (ok : Nat → Bool) : Option Nat :=
  (List.range 64).find? (fun k => s.ifOn k p vid && ok k)

/-! ### To the host (R282) -/

/-- Tokens of a bucket that are out: what is taken and not yet returned, in 1/(2·10^9) of a token, a part counting as one. -/
def tokensOut (used : Nat) : Nat := (used + 1999999999) / 2000000000

/-- A frame goes to the host path with a reason; reasons 0x01 to 0x08 are counted and pass the port's limiter. -/
def State.toHost (s : State) (p : Nat) (f : RxStored) (reason : Nat) : State :=
  if reason = 0 then s.modPort p (fun x => { x with host := x.host ++ [⟨f, 0⟩] })
  else
    let s := s.pktCount (6 + reason) 1
    let rate := s.f 0x0220003C 15 0
    let burst := s.f 0x0220003C 31 16
    let b := (s.port p).lim
    let used := b.used - (s.spn.ticks - b.tick) * rate
    if tokensOut used < burst then
      s.modPort p (fun x => { x with host := x.host ++ [⟨f, reason⟩], lim := ⟨used + 2000000000, s.spn.ticks⟩ })
    else
      let s := s.modPort p (fun x => { x with lim := ⟨used, s.spn.ticks⟩ })
      ((s.pktCount 15 1).irq .pkt 2).runRaise 0 p Flt.pktHostLimit (reason * 256 + p)

/-! ### Requests -/

/-- A service request as the engines see it: its port, the stored frame, its headers, the interface it came to, and its PTP or NTP
message. -/
structure Req where
  p : Nat
  f : RxStored
  eth : Eth
  udp : Option Udp
  ifk : Nat
  msg : List Byte
  deriving DecidableEq, Repr

/-- Addressing of an answer (R283): to the source MAC address of the request, from the interface; general PTP messages between ports
320, NTP to the port it came from. -/
def State.replyTo (s : State) (q : Req) (ntp : Bool) : Encap :=
  let m := s.ifMac q.ifk
  match q.udp with
  | none => ⟨q.eth.smac, m, q.eth.vid, true, false, [], [], 0, 0⟩
  | some u =>
    ⟨q.eth.smac, m, q.eth.vid, false, u.v6, s.ifIp q.ifk, u.sip, if ntp then 123 else 320, if ntp then u.sport else 320⟩

/-- The session key of a request (R317). -/
def reqKey (q : Req) : SessKey :=
  let v6 := match q.udp with
    | some u => u.v6
    | none => false
  let ip := match q.udp with
    | some u => u.sip
    | none => []
  { port := q.p, flags := (if v6 then 1 else 0) + (if q.eth.vid.isSome then 4 else 0), vid := q.eth.vid.getD 0
    addr := padTo 16 ip, pid := slice q.msg 20 10 }

/-! ### PTP messages -/

/-- clockIdentity of the part (PKT_CLOCK_ID): HI holds bytes 0 to 3. -/
def State.clockId (s : State) : List Byte := beBytes 4 (s.rd 0x02200048).toNat ++ beBytes 4 (s.rd 0x02200044).toNat

/-- A PTP header of 34 bytes; messageLength is set when the message is complete. -/
def State.ptpHead (s : State) (typ minor domain flags0 flags1 : Nat) (corr : Int) (pid : List Byte) (seq : Nat) (log : Byte) : List Byte :=
  let _ := s
  [BitVec.ofNat 8 typ, BitVec.ofNat 8 (minor * 16 + 2), 0, 0, BitVec.ofNat 8 domain, 0, BitVec.ofNat 8 flags0, BitVec.ofNat 8 flags1]
    ++ beBytes 8 (wrapTo 64 corr) ++ [0, 0, 0, 0] ++ pid ++ beBytes 2 seq ++ [Config.ptpControl typ, log]

/-- portIdentity of port p, and of client instance k. -/
def State.portId (s : State) (p : Nat) : List Byte := s.clockId ++ beBytes 2 (Config.ptpPort false p).toNat
def State.cliId (s : State) (k : Nat) : List Byte := s.clockId ++ beBytes 2 (Config.ptpPort true k).toNat

/-- The TLVs of a message: type, offset of the TLV, value. None where one does not fit. -/
def tlvsFrom : Nat → List Byte → Nat → Option (List (Nat × Nat × List Byte))
  | 0, _, _ => none
  | n + 1, l, o =>
    if l = [] then some []
    else if l.length < 4 then none
    else
      let len := beAt l 2 2
      if l.length < 4 + len then none
      else (tlvsFrom n (l.drop (4 + len)) (o + 4 + len)).map (fun r => (beAt l 0 2, o, slice l 4 len) :: r)

/-- The TLVs of a PTP message whose body ends at byte `o`. -/
def tlvsOf (m : List Byte) (o : Nat) : Option (List (Nat × Nat × List Byte)) := tlvsFrom (m.length + 1) (m.drop o) o

/-- The Bluta record a message carries (R175): the body of its organization extension TLV. -/
def State.blutaIn (s : State) (tlvs : List (Nat × Nat × List Byte)) : Option (List Byte) :=
  let key := beBytes 3 (s.f 0x01500024 23 0) ++ beBytes 3 (s.f 0x01500028 23 0)
  (tlvs.find? (fun t => (decide (t.1 = 3) || decide (t.1 = 0x4000) || decide (t.1 = 0x8000)) && decide (t.2.2.take 6 = key)
    && decide (22 ≤ t.2.2.length))).map (fun t => slice t.2.2 6 16)

/-! ### Keys (R295, R296, R349) -/

/-- Entry e of the group key table. -/
def State.groupKey (s : State) (e : Nat) : GroupKey := mapGet (fun _ => {}) s.pkt.keys e

/-- The valid entry of a SPP and keyID. -/
def State.findKey (s : State) (spp keyId : Nat) : Option Nat :=
  (s.pkt.keys.find? (fun e => e.2.valid && decide (e.2.spp = spp) && decide (e.2.keyId = keyId))).map (·.1)

/-- The key of a SPP and keyID (R295): from the group key table within its window, or from the client's slot. -/
def State.authKey (s : State) (spp keyId : Nat) (slot : Option Nat) : Option (List Byte) :=
  if 16 ≤ spp ∨ !s.b (sppOff spp) 31 then none
  else if s.b (sppOff spp) 29 then
    match slot with
    | none => none
    | some i =>
      if s.hotBit i 0 3 && decide (s.hot i 0x58 4 = keyId) && decide (s.hot i 0x5D 1 % 16 = spp) then
        s.unwrapKey (s.hot i 0x5C 1 % 64) (s.mread (slotAddr i + 0x40) 24)
      else none
  else
    match s.findKey spp keyId with
    | none => none
    | some e =>
      let k := s.groupKey e
      if k.from_ ≤ s.tbSec 0 ∧ s.tbSec 0 ≤ k.to_ then s.unwrapKey k.slot k.wrapped else none

/-- How a request's authentication ended: a reason for the host, or accepted with the SPP, keyID and sequenceNo it verified under. -/
inductive AuthRes
  | bad (reason : Nat)
  | ok (auth : Option (Nat × Nat × Option Nat))
  deriving DecidableEq, Repr

/-- The AUTHENTICATION TLV of a message is verified (R295, R297). One whose secParamIndicator names other fields than its SPP has, such as
a disclosed key or RES, asks for what the service does not handle (R287). `last` is the last sequenceNo accepted, where there is a session that
keeps one: a first message is accepted with any, and so is one on a multicast port. -/
def State.authVerify (s : State) (p : Nat) (m : List Byte) (t : Nat × Nat × List Byte) (slot last : Option Nat) : AuthRes × State :=
  let v := t.2.2
  let spp := byteAt v 0
  let keyId := beAt v 2 4
  let seq := s.b (sppOff (spp % 16)) 30
  if spp < 16 ∧ s.b (sppOff spp) 31 ∧ v.getD 1 0 ≠ authSpi seq then (.bad 1, s)
  else if t.2.1 + 4 + v.length ≠ m.length ∨ (v.length ≠ authLen seq - 4 ∧ spp < 16 ∧ s.b (sppOff spp) 31) then (.bad 5, s)
  else match s.authKey spp keyId slot with
    | none => (.bad 6, s.runRaise 3 p Flt.pktNoKey (spp % 16 * 256 + p))
    | some key =>
      let n := t.2.1 + authLen seq - 16
      let s := s.tallyAdd 0xC6 1
      if beBytes 16 (Config.cmac key (Config.authOctets (m.take n))).toNat ≠ slice m n 16 then (.bad 3, s)
      else
        let q := beAt v 6 4
        match seq, last with
        | true, some l => if l < q then (.ok (some (spp, keyId, some q)), s) else (.bad 4, s)
        | true, none => (.ok (some (spp, keyId, some q)), s)
        | false, _ => (.ok (some (spp, keyId, none)), s)

/-- Authentication of a message on a port (R295, R299). -/
def State.authCheck (s : State) (p : Nat) (m : List Byte) (tlvs : List (Nat × Nat × List Byte)) (slot last : Option Nat) : AuthRes × State :=
  let mode := s.f (pktOff p) 27 26
  if mode = 0 then (.ok none, s)
  else if s.authLost then (if mode = 2 then (.bad 8, s) else (.ok none, s))
  else match tlvs.find? (fun t => t.1 = 0x8009) with
    | none => if mode = 2 then (.bad 3, s) else (.ok none, s)
    | some t => s.authVerify p m t slot last

/-- What authenticates an originated message of a session, or of a port's streams (R298): the key, and the next sequenceNo. -/
def State.authOut (s : State) (p : Nat) (slot : Option Nat) (spp keyId : Nat) : Option AuthOut × State :=
  match s.authKey spp keyId slot with
  | none => (none, s)
  | some key =>
    if s.b (sppOff spp) 30 then
      match slot with
      | some i =>
        let q := (s.hot i 0x64 4 + 1) % 2 ^ 32
        (some ⟨spp, keyId, some q, key⟩, s.setHot i 0x64 4 q)
      | none =>
        let q := ((s.port p).authSeq + 1) % 2 ^ 32
        (some ⟨spp, keyId, some q, key⟩, s.modPort p (fun x => { x with authSeq := q }))
    else (some ⟨spp, keyId, none, key⟩, s)

/-- The next sequenceId of a stream: `x` 0 Sync, 1 Announce, 2 Signaling of session i. -/
def State.sessSeq (s : State) (i x : Nat) : Nat × State :=
  let n := mapGet (fun _ => 0) s.pkt.seqs (4 * i + x)
  ((Config.seqStart.toNat + n) % 65536, { s with pkt := { s.pkt with seqs := mapSet (fun _ => 0) s.pkt.seqs (4 * i + x) ((n + 1) % 65536) } })

/-- A frame of the packet engines is queued (R273, source 1). -/
def State.send (s : State) (p : Nat) (f : TxFrame) : State := s.txLaunch p 1 f

/-! ### Addresses (R283) -/

/-- The ARP responder's answer. -/
def State.arpReply (s : State) (p : Nat) (e : Eth) (k : Nat) : State :=
  let m := s.ifMac k
  let l := ethHead (slice e.pay 8 6) m e.vid 0x0806 ++ arpPacket 2 m (s.ifIp k) (slice e.pay 8 6) (slice e.pay 14 4)
  s.send p { body := .raw l, kind := some 5, inFlight := true }

/-- The ND responder's answer. -/
def State.ndReply (s : State) (p : Nat) (e : Eth) (k : Nat) : State :=
  let m := s.ifMac k
  let src := slice e.pay 8 16
  let un := decide (src = List.replicate 16 0)
  let l := ethHead (if un then allNodesMac else e.smac) m e.vid 0x86DD ++ naPacket (!un) (s.ifIp k) (if un then allNodes else src) m
  s.send p { body := .raw l, kind := some 6, inFlight := true }

/-- A gratuitous ARP, which is a reply since the part sends no ARP request, or an unsolicited Neighbor Advertisement of interface k
(R283): it waits for a place in flight (R306). -/
def State.gratuitous (s : State) (k : Nat) : State :=
  let o := ifOff k
  let p := s.f o 19 16
  let vid := if s.b o 26 then some (s.f o 11 0) else none
  let m := s.ifMac k
  if s.b o 31 && s.b o 27 && s.domOn 5 && decide (s.portSt p = pUP) then
    let l := if s.b o 30 then ethHead allNodesMac m vid 0x86DD ++ naPacket false (s.ifIp k) allNodes m
      else ethHead bcast m vid 0x0806 ++ arpPacket 2 m (s.ifIp k) m (s.ifIp k)
    if s.mayBuild then (s.flightIn p).send p { body := .raw l, inFlight := true } else s.buildLater (.gratuitous k)
  else s

/-- The gratuitous announcements of every interface of a port that enters UP. -/
def State.portGratuitous (s : State) (p : Nat) : State :=
  (List.range 64).foldl (fun s k => if s.f (ifOff k) 19 16 = p then s.gratuitous k else s) s

end Sys2Proof.Machine
end

