-- ==== Sys2Proof/Machine/Client.lean ====
section
/-! DEFINITION. Client instances (11 R308-R310): requests, the server's messages, exchanges and block results. -/
namespace Sys2Proof.Machine

/-- Client record k. -/
def State.cli (s : State) (k : Nat) : Client := s.pkt.clients.getD k {}

/-- Client states. -/
def clOFF : Nat := 0
def clREQUEST : Nat := 1
def clWAIT : Nat := 2
def clRUN : Nat := 3

/-- Port of instance k; it listens to multicast streams (PROFILE 2). -/
def State.cliPort (s : State) (k : Nat) : Nat := s.f (cliOff k) 27 24
def State.cliMcast (s : State) (k : Nat) : Bool := decide (s.profile (s.cliPort k) = 2)

/-- Instance k may run: it is there, EN is 1, its port is UP and PD5 on (R308). -/
def State.cliMay (s : State) (k : Nat) : Bool :=
  s.b 0x02200000 (16 + k) && s.b (cliOff k) 31 && decide (s.portSt (s.cliPort k) = pUP) && s.domOn 5

/-- The interface an instance speaks from: the first of its port with its IP version. -/
def State.cliIf (s : State) (k : Nat) : Nat :=
  ((List.range 64).find? (fun j => s.b (ifOff j) 31 && decide (s.f (ifOff j) 19 16 = s.cliPort k)
    && decide (s.b (ifOff j) 30 = s.b (cliOff k) 23))).getD 0

/-- Addressing of an instance's messages. -/
def State.cliEncap (s : State) (k port : Nat) : Encap :=
  let j := s.cliIf k
  let v6 := s.b (cliOff k) 23
  let vid := if s.b (ifOff j) 26 then some (s.f (ifOff j) 11 0) else none
  if s.cliMcast k then
    ⟨beBytes 6 (Config.mcastMac 2 false).toNat, s.macReg (macOff (s.cliPort k) + 8), vid, true, false, [], [], 0, 0⟩
  else
    ⟨beBytes 6 (Config.serverMac k).toNat, s.ifMac j, vid, false, v6, s.ifIp j, s.ipReg (cliOff k + 4) v6, port, port⟩

/-- The authentication of an instance's messages: its own SPP and keyID where the port's AUTH_MODE is not NONE (R309). -/
def State.cliAuth (s : State) (k : Nat) : Option AuthOut × State :=
  if s.f (pktOff (s.cliPort k)) 27 26 = 0 ∨ s.authLost then (none, s)
  else
    let spp := s.f (cliOff k) 19 16
    let id := (s.rd (cliOff k + 0x14)).toNat
    match s.authKey spp id none with
    | none => (none, s)
    | some key =>
      if s.b (sppOff spp) 30 then
        let q := ((s.cli k).txSeq + 1) % 2 ^ 32
        (some ⟨spp, id, some q, key⟩, s.modCli k (fun c => { c with txSeq := q }))
      else (some ⟨spp, id, none, key⟩, s)

/-- On a port in REQUIRED nothing is originated without authentication (R295). -/
def State.mayBare (s : State) (p : Nat) (a : Option AuthOut) : Bool := a.isSome || decide (s.f (pktOff p) 27 26 ≠ 2)

/-- A Signaling message with TLVs to the server: it waits for a place in flight (R306). -/
def State.cliSignal (s : State) (k : Nat) (tlvs : List Byte) : State :=
  let p := s.cliPort k
  if !s.mayBuild then s.buildLater (.signal k tlvs)
  else
  let a := s.cliAuth k
  let s := a.2
  if !s.mayBare p a.1 then s
  else
    let n := (s.cli k).sigSeq
    let m := s.ptpHead 0xC 1 (s.f (cliOff k) 15 8) (Config.ptpFlags 0xC true false).toNat 0 0 (s.cliId k) ((Config.seqStart.toNat + n) % 65536)
        (Config.ptpLog 0xC true 0) ++ List.replicate 10 0xFF ++ tlvs
    let s := s.modCli k (fun c => { c with sigSeq := n + 1 })
    (s.flightIn p).send p { body := .ptp (s.cliEncap k 320) m false a.1, kind := some 1, inFlight := true }

/-- A REQUEST_UNICAST_TRANSMISSION TLV: 0 Announce, 1 Sync, 2 Delay_Resp. -/
def State.cliRequestTlv (s : State) (k x : Nat) : List Byte :=
  let o := cliOff k + 0x18
  let log := if x = 0 then s.f o 23 16 else if x = 1 then s.f o 31 24 else s.f o 15 8
  let typ := if x = 0 then 0xB else if x = 1 then 0 else 9
  [0, 4, 0, 6, BitVec.ofNat 8 (typ * 16), BitVec.ofNat 8 log] ++ beBytes 4 (s.f (cliOff k + 0x1C) 15 0)

/-- An instance enters WAIT (R308). -/
def State.cliWait (s : State) (k : Nat) : State := (s.setCli k clWAIT).modCli k (fun c => { c with waitAt := s.spn.ticks })

/-- `n` seconds have passed since a tick. -/
def State.since (s : State) (t n : Nat) : Bool := decide (t + n * 2000000000 ≤ s.spn.ticks)

/-- An instance enters REQUEST and asks for its grants; on a multicast port it goes on to WAIT (R308). -/
def State.cliRequest (s : State) (k : Nat) : State :=
  let s := (s.setCli k clREQUEST).modCli k (fun c => { c with
    grants := 0, announces := 0, syncs := 0, failed := false, asked := s.spn.ticks, wait := none, sync := none, req := none, exch := [] })
  if s.cliMcast k then s.cliWait k
  else s.cliSignal k ((List.range 3).flatMap (s.cliRequestTlv k))

/-- CLIENT_REQUEST (R308): an instance that may run and is OFF sends its requests; in REQUEST it sends them again 10 s after they failed. -/
def execClientRequest (k : Fin 4) (s : State) : Out :=
  if !s.cliMay k then .next (s.setCli k clOFF)
  else if s.cliState k = clOFF ∨ (s.cliState k = clREQUEST ∧ (s.cli k).failed ∧ s.since (s.cli k).failAt 10) then .next (s.cliRequest k)
  else .next s

/-- A denial, or no grant in time (R308): counted once for the requests sent, with PKT/CLIENT_DENIED. -/
def State.cliDenied (s : State) (k : Nat) : State :=
  if s.cliState k = clREQUEST ∧ !(s.cli k).failed then
    ((s.modCli k (fun c => { c with failed := true, failAt := s.spn.ticks })).countSat (cliOff k + 0x28) 7 0 1).raise Flt.pktClientDenied k
  else s

/-- CLIENT_REQUEST_RETRY (R308): five seconds without every grant. -/
def execClientRequestRetry (k : Fin 4) (s : State) : Out := .next (if s.since (s.cli k).asked 5 then s.cliDenied k else s)

/-- CLIENT_WAIT_TIMEOUT (R308): ten seconds in WAIT. -/
def execClientWaitTimeout (k : Fin 4) (s : State) : Out :=
  .next (if s.cliState k = clWAIT ∧ s.since (s.cli k).waitAt 10 then s.cliRequest k else s)

/-- The server is lost (R308): REQUEST, a source failure to the selector, PKT/CLIENT_LOST. -/
def State.cliLose (s : State) (k cause : Nat) : State :=
  if s.cliState k = clRUN then (s.raise Flt.pktClientLost (cause * 16 + k)).cliRequest k else s

/-- Messages in 128 s of a log period. -/
def rate128 (log : Int) : Nat := if log ≤ 7 then 2 ^ (7 - log).toNat else 1

/-- Ticks of a log period. -/
def periodTicks (log : Int) : Nat := 2000000000 * 2 ^ 7 / rate128 log

/-- Whether instance k has lost its server (R308): no Announce for three Announce periods, no Sync for 3 s, or a grant has ended. -/
def State.cliGone (s : State) (k : Nat) (cause : LostCause) : Bool :=
  let c := s.cli k
  match cause with
  | .announce => decide (c.annAt + 3 * periodTicks (sByte (s.f (cliOff k + 0x18) 23 16)) ≤ s.spn.ticks)
  | .sync => s.since c.syncAt 3
  | .grant => (List.range 3).any (fun x => c.grants.testBit x && s.since (c.grantAt.getD x (0, 0)).1 (c.grantAt.getD x (0, 0)).2)

/-- CLIENT_LOST (R308). -/
def execClientLost (k : Fin 4) (cause : LostCause) (s : State) : Out :=
  .next (if s.cliGone k cause then
      s.cliLose k (match cause with
        | .announce => 1
        | .sync => 2
        | .grant => 3)
    else s)

/-- Half the duration of grant x of instance k has passed. -/
def State.cliHalf (s : State) (k x : Nat) : Bool :=
  let g := (s.cli k).grantAt.getD x (0, 0)
  (s.cli k).grants.testBit x && decide (g.1 + g.2 * 1000000000 ≤ s.spn.ticks)

/-- CLIENT_RENEW (11, Packet references): half a grant's duration has passed. -/
def execClientRenew (k : Fin 4) (grant : Fin 3) (s : State) : Out :=
  if 2 ≤ s.cliState k ∧ s.cliHalf k grant then .next (s.cliSignal k (s.cliRequestTlv k grant.val)) else .next s

/-! ### Exchanges and results (R309) -/

/-- A Delay_Req that pairs with the latest Sync; one every LOG_DREQ period at most. It waits for a place in flight (R306). -/
def State.cliDelayReq (s : State) (k : Nat) : State :=
  let c := s.cli k
  let period := periodTicks (sByte (s.f (cliOff k + 0x18) 15 8))
  let due : Bool := match c.reqTick with
    | some t => decide (t + period ≤ s.spn.ticks)
    | none => true
  match c.sync with
  | some (d, t2) =>
    if s.cliState k = clRUN ∧ due then
      if !s.mayBuild then s.buildLater (.delayReq k)
      else
      let p := s.cliPort k
      let a := s.cliAuth k
      let s := a.2
      if !s.mayBare p a.1 then s
      else
        let q := (Config.seqStart.toNat + c.reqSeq) % 65536
        let m := s.ptpHead 1 1 (s.f (cliOff k) 15 8) (Config.ptpFlags 1 (!s.cliMcast k) false).toNat 0 0 (s.cliId k) q (Config.ptpLog 1 (!s.cliMcast k) 0)
          ++ List.replicate 10 0
        let s := s.modCli k (fun c => { c with reqSeq := c.reqSeq + 1, reqTick := some s.spn.ticks, req := some (q, d, t2, none) })
        (s.flightIn p).send p { body := .ptp (s.cliEncap k 319) m false a.1, kind := some 1, inFlight := true, client := some (k, q) }
    else s
  | none => s

/-- The block result of an instance (R309): over the exchanges whose delay lies within DWIN of the smallest; T, and with it the bases' phases and
differences (R107, R123, R145), are those of the t2 of the last one kept. -/
def State.cliResult (s : State) (k : Nat) (xs : List (Int × Int × RxAt)) : State :=
  let dmin := xs.foldl (fun m x => if x.2.1 < m then x.2.1 else m) ((xs.map (·.2.1)).headD 0)
  let win : Int := (s.rd (cliOff k + 0x24)).toNat * 256
  let ks := xs.filter (fun x => decide (x.2.1 - dmin ≤ win))
  let n := ks.length
  let sum := (ks.map (·.1)).sum
  let sq := (ks.map (fun x => x.1 * x.1)).sum
  let mean := sum / n
  let sd := satAt 0xFFFFFFFF (isqrt (n * sq - sum * sum).toNat / n)
  let mn := ks.foldl (fun m x => if x.1 < m then x.1 else m) ((ks.map (·.1)).headD 0)
  let mx := ks.foldl (fun m x => if x.1 > m then x.1 else m) ((ks.map (·.1)).headD 0)
  let last : RxAt := ((ks.getLast?).map (·.2.2)).getD ⟨0, {}⟩
  let t := last.t
  let w := timeWords (t * 2 ^ 24)
  let o := cliOff k + 0x30
  let first := (s.cli k).first
  let s := s.wrN (o + 0x10) ((s.f (o + 0x10) 31 16 + 1) % 2 ^ 16 * 2 ^ 16 + n)
  let s := ((s.wrS64 (o + 0x14) mean).wrN (o + 0x1C) sd).wrS64 (o + 0x20) mn
  let s := (((s.wrS64 (o + 0x28) mx).wr (o + 0x30) w.1).wr (o + 0x34) w.2.1).wr (o + 0x38) w.2.2
  let s := s.wrN (o + 0x3C) ((if first then 2 else 0) + 1)
  let s := s.wrS64 (cliOff k + 0x34) ((ks.map (·.2.1)).sum / n)
  let p := s.cliPort k
  let b := s.portBase p
  let diff := (List.range 8).map (fun j => ((last.cap.times.getD j 0 : Int) - last.cap.times.getD b 0) / 2 ^ 24)
  let old := s.srcRes.getD (2 + k) {}
  let r : CandRes := { count := old.count + 1, mean := mean, meanIn := diff.map (· + mean), time := t, timeIn := diff.map (· + (t : Int))
                       ticks := last.cap.ticks, phase := last.cap.phase, restart := first, n := n, sd := sd, lo := mn, hi := mx
                       sys := (s.rd (macOff p + 0x30)).toNat, unc := old.unc }
  (({ s with srcRes := listMod s.srcRes (2 + k) (fun _ => r) } : State).monResult (26 + k) first).modCli k
    (fun c => { c with first := false, exch := [] })

/-- An exchange is complete (R309). -/
def State.cliExchange (s : State) (k : Nat) (d12 d34 : Int) (t2 : RxAt) : State :=
  let delay := (d12 + d34) / 2
  let xs := (s.cli k).exch ++ [(d12 - delay, delay, t2)]
  if s.f (cliOff k + 0x20) 15 0 ≤ xs.length then s.cliResult k xs else s.modCli k (fun c => { c with exch := xs })

/-! ### The server's messages -/

/-- A PTP timestamp in 2^-16 ns. -/
def ptpTimeAt (m : List Byte) (o : Nat) : Nat := (beAt m o 6 * 1000000000 + beAt m (o + 6) 4) * 65536

/-- An Announce and two Syncs are accepted in WAIT: RUN (R308). -/
def State.cliReady (s : State) (k : Nat) : State :=
  let c := s.cli k
  if s.cliState k = clWAIT ∧ 1 ≤ c.announces ∧ 2 ≤ c.syncs then
    ((s.modCli k (fun c => { c with first := true })).setCli k clRUN).raise Flt.pktClientRun k
  else s

/-- An Announce (R310): clockClass and clockAccuracy to the selector; the bound of its Bluta record is the reported uncertainty, without one the
interval of its clockAccuracy (R119). -/
def State.cliAnnounce (s : State) (k : Nat) (m : List Byte) (bl : Option (List Byte)) : State :=
  let s0 := s
  let cls := byteAt m 48
  let acc := byteAt m 49
  let o := cliOff k
  let s := (((s.setF (o + 0x28) 23 16 cls).setF (o + 0x28) 15 8 acc).wrN (o + 0x30) (beAt m 20 4)).wrN (o + 0x2C) (beAt m 24 4)
  let unc := match bl with
    | some b => beAt b 4 4
    | none => accUnc acc
  let s := { s with srcRes := listMod s.srcRes (2 + k) (fun r => { r with unc := unc }) }
  let s := s.modCli k (fun c => { c with announces := c.announces + 1, annAt := s.spn.ticks })
  ((s.qualityIn (26 + k) (BitVec.ofNat 32 (acc * 2 ^ 24 + cls * 65536))).candRound s0 [26 + k]).cliReady k

/-- A GRANT TLV: a grant, or a denial (R308). -/
def State.cliGrant (s : State) (k : Nat) (v : List Byte) : State :=
  let typ := byteAt v 0 / 16
  let x := if typ = 0xB then some 0 else if typ = 0 then some 1 else if typ = 9 then some 2 else none
  match x with
  | none => s
  | some x =>
    if beAt v 2 4 = 0 then s.cliDenied k
    else
      let s := s.modCli k (fun c => { c with grants := c.grants ||| 2 ^ x, grantAt := c.grantAt.set x (s.spn.ticks, beAt v 2 4) })
      if s.cliState k = clREQUEST ∧ (s.cli k).grants = 7 then s.cliWait k else s

/-- A message that a client instance handles (R286): Sync, Follow_Up, Delay_Resp, Announce, and Signaling with the grants, cancellations or
acknowledgements of a server. -/
def cliHandles (m : List Byte) (tlvs : List (Nat × Nat × List Byte)) : Bool :=
  let typ := byteAt m 0 % 16
  decide (typ = 0 ∨ typ = 8 ∨ typ = 9 ∨ typ = 0xB) || (decide (typ = 0xC) && tlvs.any (fun t => decide (t.1 = 5 ∨ t.1 = 6 ∨ t.1 = 7)))

/-- A message of the server, accepted under R295 to R297. A Sync that was stored without an RX timestamp gives no t2 and so starts no
exchange. -/
def State.cliMessage (s : State) (k : Nat) (f : RxStored) (m : List Byte) (tlvs : List (Nat × Nat × List Byte)) : State :=
  let typ := byteAt m 0 % 16
  let corr := be64S m 8
  if typ = 0xB then s.cliAnnounce k m (s.blutaIn tlvs)
  else if typ = 0 then
    let s := s.modCli k (fun c => { c with syncs := c.syncs + 1, syncAt := s.spn.ticks })
    let s := if f.bluta = [] then s
      else if byteAt m 6 / 2 % 2 = 1 then s.modCli k (fun c => { c with wait := some (beAt m 30 2, ⟨f.ts, f.cap⟩, corr) })
      else (s.modCli k (fun c => { c with sync := some ((f.ts : Int) - (ptpTimeAt m 34 + corr), ⟨f.ts, f.cap⟩) })).cliDelayReq k
    s.cliReady k
  else if typ = 8 then
    match (s.cli k).wait with
    | some (q, t2, c0) =>
      if q = beAt m 30 2 then
        (s.modCli k (fun c => { c with wait := none, sync := some ((t2.t : Int) - (ptpTimeAt m 34 + c0 + corr), t2) })).cliDelayReq k
      else s
    | none => s
  else if typ = 9 then
    match (s.cli k).req with
    | some (q, d12, t2, some t3) =>
      if q = beAt m 30 2 ∧ slice m 44 10 = s.cliId k ∧ s.cliState k = clRUN then
        (s.modCli k (fun c => { c with req := none })).cliExchange k d12 ((ptpTimeAt m 34 : Int) - corr - t3) t2
      else s
    | _ => s
  else if typ = 0xC then
    let s := (tlvs.filter (fun t => t.1 = 5)).foldl (fun s t => s.cliGrant k t.2.2) s
    let cs := tlvs.filter (fun t => t.1 = 6)
    if cs = [] then s
    else (s.cliSignal k (cs.flatMap (fun t => [0, 7, 0, 2] ++ t.2.2.take 2))).cliLose k 3
  else s

/-- The Delay_Req of an instance has left (R309): t3. -/
def State.cliSent (s : State) (k q ts : Nat) : State :=
  s.modCli k (fun c => { c with req := c.req.map (fun r => if r.1 = q then (r.1, r.2.1, r.2.2.1, some ts) else r) })

/-- Instance k takes a PTP message on a port (R281 row 3): a PTP message from its configured server; on a PROFILE 2 port the
multicast messages of a master. -/
def State.cliTakes (s : State) (k p : Nat) (e : Eth) (u : Option Udp) (typ : Nat) : Bool :=
  s.cliMay k && decide (s.cliPort k = p) && (match u with
    | some u => !s.cliMcast k && (decide (u.dport = 319) || decide (u.dport = 320)) && decide (u.v6 = s.b (cliOff k) 23)
        && decide (u.sip = s.ipReg (cliOff k + 4) u.v6)
    | none => s.cliMcast k && decide (e.etype = 0x88F7) && isMcast e.dmac && decide (typ = 0 ∨ typ = 8 ∨ typ = 9 ∨ typ = 0xB))

end Sys2Proof.Machine
end

