-- ==== Sys2Proof/Machine/Pkt.lean ====
section
/-! DEFINITION. The packet engines (11 R281-R306): classification, the PTP engine with its session engine, the NTP engine with NTS,
the emission of granted streams, group keys, the cookie ring and the mint. -/
namespace Sys2Proof.Machine

/-- An engine hands a frame to the host with a reason: it leaves flight (R306). -/
def State.refuse (s : State) (q : Req) (reason : Nat) : State := (s.toHost q.p q.f reason).flightOut

/-! ### Sessions (R288, R289, R292, R297) -/

/-- A message of a session is accepted: its source MAC address, LAST_RX, and the sequenceNo it verified under (R283, R297). -/
def State.sessAccept (s : State) (q : Req) (i : Nat) (a : Option (Nat × Nat × Option Nat)) : State :=
  let s := (s.mwrite (slotAddr i + 30) q.eth.smac).setHot i 60 4 (s.tbSec 0 % 2 ^ 32)
  match a with
  | some (_, _, some n) => s.setHot i 56 4 n
  | _ => s

/-- A refusal counted in the session's statistics (R315). -/
def State.sessRefuse (s : State) (q : Req) (slot : Option Nat) (reason : Nat) : State :=
  let s := match slot with
    | some i => if reason = 3 then s.slotStat i 9 else if reason = 4 then s.slotStat i 10 else s
    | none => s
  s.refuse q reason

/-- Tokens of the Delay_Req bucket of slot i now (R292): depth 4, refilled at twice the granted rate; and the time they count to. -/
def State.dreqTokens (s : State) (i : Nat) : Nat × Nat :=
  let log := sByte (s.hot i 39 1)
  let step := if log ≤ 0 then 2 ^ (15 + log).toNat else 2 ^ 15
  let t := s.hot i 52 4
  let el := (s.tb0Frac + 2 ^ 32 - t) % 2 ^ 32
  let n := s.hot i 36 1 / 16 % 8 + el / step
  if 4 ≤ n then (4, s.tb0Frac) else (n, (t + el / step * step) % 2 ^ 32)

/-- Tokens of a slot set. -/
def State.setTokens (s : State) (i n t : Nat) : State := (s.setHot i 36 1 (s.hot i 36 1 % 16 + n * 16)).setHot i 52 4 t

/-- The Delay_Resp to a request (R292, R294), authenticated with the request's SPP and keyID (R298). -/
def State.delayResp (s : State) (q : Req) (slot : Option Nat) (log : Byte) (a : Option (Nat × Nat × Option Nat)) : State :=
  let m := q.msg
  let corr := be64S m 8 - subOf q.f.ts
  let two := false
  let head := s.ptpHead 9 (byteAt m 1 / 16) (byteAt m 4) (Config.ptpFlags 9 slot.isSome two).toNat 0 corr (s.portId q.p) (beAt m 30 2) log
  let msg := head ++ ptpTime q.f.ts ++ slice m 20 10
  let o := match a with
    | some (spp, id, _) => s.authOut q.p slot spp id
    | none => (none, s)
  let s := o.2
  let bl := if s.b (pktOff q.p) 24 then some q.f.bluta else none
  let bytes := encap (s.replyTo q false) (s.ptpMessage msg bl o.1)
  let s := if o.1.isSome then s.tallyAdd 0xC5 1 else s
  let mark : Option SessMark := slot.map (fun i => { slot := i, typ := 1, seqId := beAt m 30 2, ts := q.f.ts, p := if bl.isSome then q.f.p else 0, corr := corr, auth := o.1.isSome, twoStep := false })
  (s.tallyAdd 0xC0 1).send q.p { body := .raw bytes, kind := some 1, inFlight := true, mark := mark }

/-- A Delay_Req (R286, R292), counted in its session's statistics when it has been received (R315). -/
def State.delayReq (s : State) (q : Req) (tlvs : List (Nat × Nat × List Byte)) : State :=
  if s.hasSessions q.p then
    let s := s.meetKey (reqKey q)
    match s.sessFind (reqKey q) with
    | none => s.refuse q 2
    | some i =>
      let s := (s.tallyAdd 0xC9 1).slotStat i 1
      if !s.granted i 2 then s.refuse q 2
      else
        let tk := s.dreqTokens i
        if tk.1 = 0 then
          ((((s.setTokens i 0 tk.2).slotStat i 11).pktCount 17 1).irq .pkt 2).runRaise 2 q.p Flt.pktDreqLimit q.p |>.flightOut
        else
          match s.authCheck q.p q.msg tlvs (some i) (some (s.hot i 56 4)) with
          | (.bad r, s) => s.sessRefuse q (some i) r
          | (.ok a, s) =>
            let s := (s.sessAccept q i a).setTokens i (tk.1 - 1) tk.2
            s.delayResp q (some i) (BitVec.ofNat 8 (s.hot i 39 1)) a
  else
    match s.authCheck q.p q.msg tlvs none none with
    | (.bad r, s) => s.refuse q r
    | (.ok a, s) => s.delayResp q none (BitVec.ofNat 8 (s.f (pktOff q.p + 8) 15 8)) a

/-- Index of a granted message type: Announce, Sync, Delay_Resp. -/
def grantIdx (typ : Nat) : Option Nat := if typ = 0xB then some 0 else if typ = 0 then some 1 else if typ = 9 then some 2 else none

/-- Charge of a grant (R289), eighths of a packet a second. -/
def State.grantCharge (s : State) (p x : Nat) (log : Int) : Nat :=
  rate8 log * (if x = 0 then 1 else if x = 1 then (if s.b (pktOff p) 25 then 2 else 1) else 2)

/-- Why a request is denied (R288, R311): 1 rate, 2 port budget, 3 aggregate budget, 5 not provisioned; none when nothing but a slot
is wanting. -/
def State.denyCause (s : State) (p x : Nat) (log : Int) (slot : Option Nat) (a : Option (Nat × Nat × Option Nat)) : Option Nat :=
  let inRange := if x = 0 then decide (-3 ≤ log ∧ log ≤ 3) else decide (-7 ≤ log ∧ log ≤ 0)
  let old := match slot with
    | some i => if s.hotBit i 36 x then s.grantCharge p x (sByte (s.hot i (37 + x) 1)) else 0
    | none => 0
  let new := s.grantCharge p x log
  if !inRange then some 1
  else if (s.rd (pktOff p + 0x0C)).toNat * 8 < s.portCharge p - old + new then some 2
  else if (s.rd 0x02200030).toNat * 8 < s.allCharge - old + new then some 3
  else match a with
    | some (spp, _, _) =>
      if s.b (sppOff spp) 29 ∧ !(match slot with
          | some i => s.hotBit i 0 3
          | none => false) then some 5 else none
    | none => none

/-- A stream of session i begins again at the places of its period (R290): `y` 0 Sync, 1 Announce. -/
def State.streamRestart (s : State) (i y : Nat) : State :=
  { s with pkt := { s.pkt with places := mapSet (fun _ => 0) s.pkt.places (4 * i + y) 0 } }

/-- A grant enters the hot line (R288): period, END and bit; a first Delay_Resp grant fills its bucket. -/
def State.putGrant (s : State) (i p x : Nat) (log : Byte) (dur : Nat) : State :=
  let fresh := !s.hotBit i 36 x
  let s := if (fresh ∨ s.hot i (37 + x) 1 ≠ log.toNat) ∧ x < 2 then s.streamRestart i (1 - x) else s
  let s := ((s.setHot i (37 + x) 1 log.toNat).setHot i (40 + 3 * x) 3 ((s.tbSec 0 + dur) % 2 ^ 24)).setHotBit i 36 x true
  let s := if x = 2 ∧ fresh then s.setTokens i 4 s.tb0Frac else s
  (s.pktCount 18 1).budgetShow p

/-- A denial (R288): counted, with PKT/ADMIT_DENIED. -/
def State.denied (s : State) (p cause : Nat) (slot : Option Nat) : State :=
  let s := ((s.pktCount 19 1).raise Flt.pktAdmitDenied (cause * 16 + p)).irq .pkt 0
  match slot with
  | some i => s.slotStat i 8
  | none => s

/-- A GRANT_UNICAST_TRANSMISSION TLV. -/
def grantTlv (typ : Nat) (log : Byte) (dur : Nat) : List Byte :=
  [0, 5, 0, 8, BitVec.ofNat 8 (typ * 16), log] ++ beBytes 4 dur ++ [0, if Config.grantRenewal then 1 else 0]

/-- One TLV of a Signaling request (R288): the answer's TLV, and the session it now has. -/
def State.sigTlv (s : State) (q : Req) (a : Option (Nat × Nat × Option Nat)) (slot : Option Nat) (t : Nat × Nat × List Byte) :
    List Byte × Option Nat × State :=
  let v := t.2.2
  let typ := byteAt v 0 / 16
  match grantIdx typ with
  | none => ([], slot, s)
  | some x =>
    let log := v.getD 1 0
    if t.1 = 4 then
      match s.denyCause q.p x (sByte log.toNat) slot a with
      | some c => (grantTlv typ log 0, slot, s.denied q.p c slot)
      | none =>
        let dur := max (s.f 0x02200040 15 0) (min (beAt v 2 4) (s.f 0x02200040 31 16))
        match slot with
        | some i => (grantTlv typ log dur, slot, (s.putGrant i q.p x log dur).slotStat i 7)
        | none =>
          match s.sessInsert (reqKey q) false with
          | (none, s) => (grantTlv typ log 0, none, s.denied q.p 4 none)
          | (some i, s) => (grantTlv typ log dur, some i, ((s.tallyAdd 0xCA 1).putGrant i q.p x log dur).slotStat i 7)
    else if t.1 = 6 then
      let s := match slot with
        | some i => (s.setHotBit i 36 x false).budgetShow q.p
        | none => s
      ([0, 7, 0, 2] ++ v.take 2, slot, s)
    else ([], slot, s)

/-- The TLVs of a Signaling message, in order. -/
def State.sigTlvs (s : State) (q : Req) (a : Option (Nat × Nat × Option Nat)) (slot : Option Nat) :
    List (Nat × Nat × List Byte) → List Byte × Option Nat × State
  | [] => ([], slot, s)
  | t :: r =>
    let x := s.sigTlv q a slot t
    let y := x.2.2.sigTlvs q a x.2.1 r
    (x.1 ++ y.1, y.2)

/-- A Signaling message (R286, R288): grants, denials and acknowledgements in one answer; a session left with no grant is released
unless it is PINNED. The session counts it when it has been received, accepted or not (R315). -/
def State.signaling (s : State) (q : Req) (tlvs : List (Nat × Nat × List Byte)) : State :=
  let ours := tlvs.filter (fun t => decide (t.1 = 4 ∨ t.1 = 6 ∨ t.1 = 7))
  if !s.hasSessions q.p ∨ ours = [] ∨ tlvs.any (fun t => t.1 = 5)
      ∨ ours.any (fun t => decide (t.1 = 4) && (grantIdx (byteAt t.2.2 0 / 16)).isNone) then s.refuse q 1
  else if ours.any (fun t => decide (t.2.2.length < (if t.1 = 4 then 6 else 1))) then s.refuse q 5
  else
    let s := s.meetKey (reqKey q)
    let slot := s.sessFind (reqKey q)
    match s.authCheck q.p q.msg tlvs slot (slot.map (fun i => s.hot i 56 4)) with
    | (.bad r, s) =>
      (match slot with
        | some i => s.slotStat i 6
        | none => s).sessRefuse q slot r
    | (.ok a, s) =>
      let x := s.sigTlvs q a slot ours
      let s := x.2.2
      let slot := x.2.1
      let s := match slot with
        | none => s
        | some i =>
          let s := (s.sessAccept q i a).setHotBit i 0 4 a.isSome
          let s := match a with
            | some (spp, id, _) => (s.setHot i 0x5E 1 spp).setHot i 0x60 4 id
            | none => s
          s.slotHist { slot := i, typ := 5, seqId := beAt q.msg 30 2, ts := q.f.ts, p := q.f.p, corr := 0, auth := a.isSome, twoStep := false } false
      if x.1 = [] then s.flightOut
      else
        let o := match a with
          | some (spp, id, _) => s.authOut q.p slot spp id
          | none => (none, s)
        let s := o.2
        let sq := match slot with
          | some i => s.sessSeq i 2
          | none => (Config.seqStart.toNat, s)
        let s := sq.2
        let msg := s.ptpHead 0xC (byteAt q.msg 1 / 16) (byteAt q.msg 4) (Config.ptpFlags 0xC true false).toNat 0 0 (s.portId q.p) sq.1
            (Config.ptpLog 0xC true 0) ++ slice q.msg 20 10 ++ x.1
        let bytes := encap (s.replyTo q false) (s.ptpMessage msg none o.1)
        let s := if o.1.isSome then s.tallyAdd 0xC5 1 else s
        let s := s.send q.p { body := .raw bytes, kind := some 1, inFlight := true }
        match slot with
        | some i => if s.hot i 36 1 % 8 = 0 ∧ !s.hotBit i 0 5 then s.sessRelease i else s
        | none => s

/-! ### PTP engine (R285-R287) -/

/-- Whether a message's length and version can be served: none, or the reason (R282, R285). -/
def State.ptpBad (s : State) (m : List Byte) (domain : Nat) : Option Nat :=
  let _ := s
  if m.length < 34 ∨ beAt m 2 2 < 34 ∨ m.length < beAt m 2 2 then some 5
  else if byteAt m 1 % 16 ≠ 2 ∨ 1 < byteAt m 1 / 16 then some 1
  else if byteAt m 4 ≠ domain then some 1
  else none

/-- Length of a message's body, header included. -/
def ptpBody (typ : Nat) : Nat := if typ = 0xB then 64 else if typ = 9 then 54 else 44

/-- TLV types that some rule of the chapter names (R287). -/
def knownTlv (t : Nat) : Bool := decide (t = 4 ∨ t = 5 ∨ t = 6 ∨ t = 7 ∨ t = 0x8009)

/-- The TLVs of a message of a type, or the reason it cannot be served (R287). -/
def State.ptpTlvs (s : State) (m : List Byte) (typ : Nat) : Nat ⊕ List (Nat × Nat × List Byte) :=
  if m.length < ptpBody typ then .inl 5
  else match tlvsOf m (ptpBody typ) with
    | none => .inl 5
    | some l => if l.any (fun t => !knownTlv t.1 && (s.blutaIn [t]).isNone && !Config.tlvIgnorable t.1) then .inl 1 else .inr l

/-- The transport a message came by is that of the port's profile (R285): Ethernet on PROFILE 2, UDP on 1 and 3, none without a profile. -/
def State.transportOk (s : State) (q : Req) : Bool :=
  if q.udp.isNone then decide (s.profile q.p = 2) else decide (s.profile q.p = 1 ∨ s.profile q.p = 3)

/-- The PTP engine takes a message (R286). -/
def State.ptpServe (s : State) (q : Req) : State :=
  let s := s.pktCount 0 1
  match (if s.transportOk q then s.ptpBad q.msg (s.f (pktOff q.p) 15 8) else some 1) with
  | some r => s.refuse q r
  | none =>
    let q := { q with msg := q.msg.take (beAt q.msg 2 2) }
    let typ := byteAt q.msg 0 % 16
    if typ ≠ 1 ∧ typ ≠ 0xC then s.refuse q 1
    else match s.ptpTlvs q.msg typ with
      | .inl r => s.refuse q r
      | .inr tlvs =>
        if typ = 1 then (if q.f.bluta = [] then s.refuse q 1 else s.delayReq q tlvs) else s.signaling q tlvs

/-- A message that the PTP engine serves whoever sends it (R286): Delay_Req, and Signaling that asks for a grant. -/
def engineServes (m : List Byte) : Bool :=
  let m := m.take (beAt m 2 2)
  let typ := byteAt m 0 % 16
  decide (typ = 1) || (decide (typ = 0xC) && (match tlvsOf m (ptpBody typ) with
    | some l => l.any (fun t => t.1 = 4) && !l.any (fun t => t.1 = 5)
    | none => false))

/-- A client instance takes a message (R309); of those it does not handle each goes the way of the table of R286. -/
def State.cliServe (s : State) (k : Nat) (q : Req) : State :=
  let s := s.pktCount 0 1
  match s.ptpBad q.msg (s.f (cliOff k) 15 8) with
  | some r => s.refuse q r
  | none =>
    let m := q.msg.take (beAt q.msg 2 2)
    match s.ptpTlvs m (byteAt m 0 % 16) with
    | .inl r => s.refuse q r
    | .inr tlvs =>
      if !cliHandles m tlvs then s.refuse q 1
      else match s.authCheck q.p m tlvs none (if s.cliMcast k then none else some (s.cli k).rxSeq) with
      | (.bad r, s) => s.refuse q r
      | (.ok none, s) => (s.cliMessage k q.f m tlvs).flightOut
      | (.ok (some (spp, id, sq)), s) =>
        if spp ≠ s.f (cliOff k) 19 16 ∨ id ≠ (s.rd (cliOff k + 0x14)).toNat then s.refuse q 6
        else ((s.modCli k (fun c => if s.cliMcast k then c else { c with rxSeq := sq.getD c.rxSeq })).cliMessage k q.f m tlvs).flightOut

/-! ### NTP engine (R300-R305) -/

/-- What is left of an NTP message at a place is a symmetric-key MAC (RFC 5905, RFC 7822): a key identifier alone or with 16 or 20 bytes. A field of
a type that this chapter names which ends the message is none. -/
def State.ntpMac (s : State) (l : List Byte) : Bool :=
  decide (l.length = 4 ∨ l.length = 20 ∨ l.length = 24)
    && !(decide (beAt l 2 2 = l.length) && [0x0104, 0x0204, 0x0304, 0x0404, s.f 0x0150002C 15 0].contains (beAt l 0 2))

/-- The extension fields of an NTP message: type, offset, value; or the reason it cannot be served: one does not fit, or a MAC follows (R282). -/
def State.ntpFields (s : State) : Nat → List Byte → Nat → Nat ⊕ List (Nat × Nat × List Byte)
  | 0, _, _ => .inl 5
  | n + 1, l, o =>
    if l = [] then .inr []
    else if s.ntpMac l then .inl 7
    else
      let len := beAt l 2 2
      if len < 4 ∨ len % 4 ≠ 0 ∨ l.length < len then .inl 5
      else match s.ntpFields n (l.drop len) (o + len) with
        | .inr r => .inr ((beAt l 0 2, o, slice l 4 (len - 4)) :: r)
        | e => e

/-- State of ring slot r (PKT_NTS_RING). -/
def State.ringState (s : State) (r : Nat) : Nat := s.f 0x02203420 (2 * r + 1) (2 * r)

/-- The ring slot of a KID in ACCEPT or CURRENT (R304). -/
def State.ringOf (s : State) (kid : Nat) : Option Nat :=
  (List.range 4).find? (fun r => decide (s.ringState r = 1 ∨ s.ringState r = 2) && decide ((s.rd (0x02203410 + 4 * r)).toNat = kid))

/-- The CURRENT ring slot. -/
def State.ringCurrent (s : State) : Option Nat := (List.range 4).find? (fun r => s.ringState r = 2)

/-- A cookie under the CURRENT key (R303) for an algorithm and its two keys: 68 bytes of plaintext. None without a CURRENT key, or without the
nonce that a stopped DRBG does not give (R333, R334). -/
def State.mintCookie (s : State) (plain : List Byte) : Option (List Byte) × State :=
  match (if s.b 0x02400010 2 then s.ringCurrent else none) with
  | none => (none, s)
  | some r =>
    match s.chestKey r with
    | none => (none, s)
    | some key =>
      let n := s.takeFree 128
      let nonce := leBytes 16 n.1
      let s := ((n.2.pktCount 22 1).tallyAdd 0xCB 1).tallyAdd 0xC7 1
      (some (beBytes 4 (s.rd (0x02203410 + 4 * r)).toNat ++ nonce ++ Config.sivSeal (leBytes 32 key.toNat) nonce [] plain), s)

/-- `n` cookies as extension fields. -/
def State.mintFields (s : State) (plain : List Byte) : Nat → List Byte × State
  | 0 => ([], s)
  | n + 1 =>
    match s.mintCookie plain with
    | (none, s) => ([], s)
    | (some c, s) =>
      let r := s.mintFields plain n
      (ntpField 0x0204 c ++ r.1, r.2)

/-- The plaintext of a cookie: AEAD algorithm, C2S and S2C keys (R303); none where it is not accepted. -/
def State.openCookie (s : State) (c : List Byte) : Option (List Byte) :=
  if c.length ≠ 104 then none
  else match s.ringOf (beAt c 0 4) with
    | none => none
    | some r =>
      match s.chestKey r with
      | none => none
      | some key =>
        match Config.sivOpen (leBytes 32 key.toNat) (slice c 4 16) [] (c.drop 20) with
        | some pl => if pl.length = 68 ∧ beAt pl 0 2 = 15 then some pl else none
        | none => none

/-- An NTP response is queued, launch-timed with LATE_DROP (R300). -/
def State.ntpSend (s : State) (q : Req) (launch : Nat) (b : NtpBuild) : State :=
  s.send q.p { body := .ntp (s.replyTo q true) b, launch := some launch, lateDrop := true, onGrid := true, kind := some 4, inFlight := true }

/-- An NTS NAK (R304). -/
def State.ntsNak (s : State) (q : Req) (launch : Nat) (uid : List Byte) : State :=
  (s.pktCount 21 1).ntpSend q launch { req := q.msg.take 48, rx := q.f.ts, bluta := false, nak := true, uid := uid, nts := none }

/-- An NTS request (R302-R304). -/
def State.ntsServe (s : State) (q : Req) (launch : Nat) (fs : List (Nat × Nat × List Byte)) (uidv : List Byte) : State :=
  let uid := ntpField 0x0104 uidv
  let ph := fs.filter (fun f => f.1 = 0x0304)
  match fs.find? (fun f => f.1 = 0x0204), fs.find? (fun f => f.1 = 0x0404) with
  | some ck, some au =>
    if ph.any (fun f => f.2.2.length ≠ 104) then s.refuse q 5
    else
      let s := s.pktCount 3 1
      match (if s.authLost || !s.b 0x02400010 2 then none else s.openCookie ck.2.2) with
      | none => s.ntsNak q launch uid
      | some pl =>
        let nl := beAt au.2.2 0 2
        let cl := beAt au.2.2 2 2
        match Config.sivOpen (slice pl 4 32) (slice au.2.2 4 nl) (q.msg.take au.2.1) (slice au.2.2 (4 + (nl + 3) / 4 * 4) cl) with
        | none => (s.tallyAdd 0xC7 2).ntsNak q launch uid
        | some _ =>
          let n := s.takeFree 128
          let c := n.2.mintFields pl (min (ph.length + 1) (s.f 0x02203400 3 0))
          ((c.2.tallyAdd 0xC7 3).tallyAdd 0xC2 1).ntpSend q launch { req := q.msg.take 48, rx := q.f.ts, bluta := true, nak := false, uid := uid
                                                                     nts := some (slice pl 36 32, leBytes 16 n.1, c.1) }
  | _, _ => s.refuse q 5

/-- Tokens out of the NTP limiter's bucket, of NTP_RATE and depth 1,024 (R301), in 1/(2·10^9). -/
def State.ntpUsed (s : State) : Nat := s.pkt.ntp.used - (s.spn.ticks - s.pkt.ntp.tick) * (s.rd 0x02200038).toNat

/-- A request takes a token of the NTP limiter. -/
def State.ntpTake (s : State) : State := { s with pkt := { s.pkt with ntp := ⟨s.ntpUsed + 2000000000, s.spn.ticks⟩ } }

/-- A message that no NTP server of version 3 or 4 answers: its mode is not 3, or its version another (R300). -/
def ntpForeign (m : List Byte) : Bool :=
  decide (byteAt m 0 % 8 ≠ 3 ∨ (byteAt m 0 / 8 % 8 ≠ 3 ∧ byteAt m 0 / 8 % 8 ≠ 4))

/-- A well-formed request of NTP takes a token (R301) and is answered, with NTS where it carries a Unique Identifier field (R302). -/
def State.ntpAdmit (s : State) (q : Req) (launch : Nat) (fs : List (Nat × Nat × List Byte)) : State :=
  if tokensOut s.ntpUsed < 1024 then
    let s := s.ntpTake
    match fs.find? (fun f => f.1 = 0x0104) with
    | some u => s.ntsServe q launch fs u.2.2
    | none =>
      let bl := s.b 0x0220004C 23 || fs.any (fun f => decide (f.1 = s.f 0x0150002C 15 0))
      (s.tallyAdd 0xC1 1).ntpSend q launch { req := q.msg.take 48, rx := q.f.ts, bluta := bl, nak := false, uid := [], nts := none }
  else (((s.pktCount 16 1).irq .pkt 2).runRaise 1 q.p Flt.pktNtpLimit q.p).flightOut

/-- The NTP engine takes a request (R300-R302). -/
def State.ntpServe (s : State) (q : Req) (launch : Nat) : State :=
  let s := s.pktCount 2 1
  if q.msg.length < 48 then s.refuse q 5
  else if ntpForeign q.msg || q.f.bluta.isEmpty then s.refuse q 7
  else match s.ntpFields (q.msg.length + 1) (q.msg.drop 48) 48 with
    | .inl r => s.refuse q r
    | .inr fs => s.ntpAdmit q launch fs

/-! ### Classification (R281) -/

/-- A frame that a port's classifier takes: to the first row that matches. -/
def State.classifyFrame (s : State) (p : Nat) (f : RxStored) (launch : Nat) : State :=
  let e := ethOf f.bytes
  let u := udpOf e
  let svc := fun (s : State) => (s.flightIn p).tallyAdd (8 * p + 4) 1
  let arp := if e.etype = 0x0806 ∧ beAt e.pay 6 2 = 1 then s.findIf p e.vid (fun k => !s.b (ifOff k) 30 && decide (s.ifIp k = slice e.pay 24 4)) else none
  let nd := if e.etype = 0x86DD ∧ byteAt e.pay 6 = 58 ∧ byteAt e.pay 40 = 135 then
      s.findIf p e.vid (fun k => s.b (ifOff k) 30 && decide (s.ifIp k = slice e.pay 48 16)) else none
  let ptpMsg : Option (List Byte) := match u with
    | some d => if d.dport = 319 ∨ d.dport = 320 then some d.pay else none
    | none => if e.etype = 0x88F7 then some e.pay else none
  let toIf := fun (bit : Nat) => match u with
    | some d => s.findIf p e.vid (fun k => s.b (ifOff k) bit && decide (s.b (ifOff k) 30 = d.v6)
        && (decide (s.ifIp k = d.dip) || (decide (bit = 29) && s.mcast p && decide (d.dip = (beBytes 16 (Config.mcastIp d.v6).toNat).take d.dip.length))))
    | none => none
  match arp, nd with
  | some k, _ => (svc s).arpReply p e k
  | none, some k => (svc s).ndReply p e k
  | none, none =>
    let cl := match ptpMsg with
      | some m => (List.range 4).find? (fun k => s.cliTakes k p e u (byteAt m 0 % 16))
      | none => none
    let k := match ptpMsg with
      | some _ =>
        if u.isSome then toIf 29
        else if s.profile p = 2 ∧ (e.dmac = [0x01, 0x1B, 0x19, 0, 0, 0] ∨ e.dmac = [0x01, 0x80, 0xC2, 0, 0, 0x0E]) then
          s.findIf p e.vid (fun k => s.b (ifOff k) 29)
        else none
      | none => none
    match ptpMsg, cl, k with
    | some m, some c, none => (svc s).cliServe c ⟨p, f, e, u, 0, m⟩
    | some m, some c, some k =>
      if engineServes m then (svc s).ptpServe ⟨p, f, e, u, k, m⟩ else (svc s).cliServe c ⟨p, f, e, u, 0, m⟩
    | some m, none, some k => (svc s).ptpServe ⟨p, f, e, u, k, m⟩
    | _, _, _ =>
      match u with
      | some d =>
        if d.dport = 123 then
          match toIf 28 with
          | some k => (svc s).ntpServe ⟨p, f, e, u, k, d.pay⟩ launch
          | none => s.toHost p f 0
        else s.toHost p f 0
      | none => s.toHost p f 0

/-! ### Streams (R290, R291, R293) -/

/-- Addressing of a session's messages (R283): the client's address and its source MAC address, from the first PTP interface of the
port and VLAN. -/
def State.sessEncap (s : State) (i p port : Nat) : Encap :=
  let v := s.hot i 2 2
  let vid := if 0x8000 ≤ v then some (v % 4096) else none
  let v6 := s.hotBit i 0 1
  let k := (s.findIf p vid (fun k => s.b (ifOff k) 29 && decide (s.b (ifOff k) 30 = v6))).getD 0
  ⟨s.mread (slotAddr i + 30) 6, s.ifMac k, vid, false, v6, s.ifIp k, s.mread (slotAddr i + 4) (if v6 then 16 else 4), port, port⟩

/-- Addressing of a port's multicast streams. -/
def State.mcastEncap (s : State) (p port : Nat) : Encap :=
  let k := (List.range 64).find? (fun k => s.b (ifOff k) 31 && s.b (ifOff k) 29 && decide (s.f (ifOff k) 19 16 = p))
  match k with
  | some k =>
    let v6 := s.b (ifOff k) 30
    let vid := if s.b (ifOff k) 26 then some (s.f (ifOff k) 11 0) else none
    ⟨beBytes 6 (Config.mcastMac (s.profile p) v6).toNat, s.ifMac k, vid, decide (s.profile p = 2), v6, s.ifIp k,
      (beBytes 16 (Config.mcastIp v6).toNat).take (if v6 then 16 else 4), port, port⟩
  | none => ⟨beBytes 6 (Config.mcastMac (s.profile p) false).toNat, s.macReg (macOff p + 8), none, true, false, [], [], 0, 0⟩

/-- Port, slot and encapsulation of a stream that has a grant in force, for message x (0 Announce, 1 Sync); none where nothing is to be
emitted. -/
def State.streamOf (s : State) (st : Stream) (x port : Nat) : Option (Nat × Option Nat × Encap × Byte) :=
  match st with
  | .session i =>
    let i := i.toNat
    let p := s.hot i 1 1 % 16
    if s.slotUsed i && s.granted i x && s.served p then some (p, some i, s.sessEncap i p port, BitVec.ofNat 8 (s.hot i (37 + x) 1)) else none
  | .mcast p =>
    if s.hasStreams p.val && s.served p.val then
      some (p.val, none, s.mcastEncap p.val port, BitVec.ofNat 8 (if x = 0 then s.f (pktOff p.val + 8) 23 16 else s.f (pktOff p.val + 8) 31 24))
    else none

/-- The slot of a stream's session is read (R326, R327). -/
def State.meetStream (s : State) (st : Stream) : State :=
  match st with
  | .session i => s.meetSlot i.toNat
  | .mcast _ => s

/-- The authentication of a stream's message (R298): the session's latest authenticated Signaling, or the port's TX_SPP and key. -/
def State.streamAuth (s : State) (p : Nat) (slot : Option Nat) : Option AuthOut × State :=
  if s.f (pktOff p) 27 26 = 0 ∨ s.authLost then (none, s)
  else match slot with
    | some i => if s.hotBit i 0 4 then s.authOut p slot (s.hot i 0x5E 1 % 16) (s.hot i 0x60 4) else (none, s)
    | none => s.authOut p none (s.f (pktOff p) 19 16) (s.rd (pktOff p + 4)).toNat

/-- The next sequenceId of a stream's Sync (0) or Announce (1) messages. -/
def State.streamSeq (s : State) (p x : Nat) (slot : Option Nat) : Nat × State :=
  match slot with
  | some i => s.sessSeq i x
  | none =>
    let n := if x = 0 then (s.port p).syncSeq else (s.port p).annSeq
    ((Config.seqStart.toNat + n) % 65536,
      s.modPort p (fun y => if x = 0 then { y with syncSeq := (n + 1) % 65536 } else { y with annSeq := (n + 1) % 65536 }))

/-- A period of log2 seconds, 2^-40 ns. -/
def periodUnits (log : Int) : Nat := if 0 ≤ log then 2 ^ log.toNat * secU else max 1 (secU / 2 ^ (-log).toNat)

/-- Key of a stream's places: 0 Sync, 1 Announce. -/
def placeKey (p : Nat) (slot : Option Nat) (y : Nat) : Nat := 4 * slot.getD (2 ^ 20 + p) + y

/-- 20 µs in 2^-40 ns (R290). -/
def buildLead : Nat := 20000 * 2 ^ 40

/-- The place of the occurrence of a stream that is to be built now (R290), 2^-40 ns: places are those times of the port's base at φ plus a
multiple of the period T. One that the building of the last left behind comes first; then one that comes within `ahead`, or came within
20 µs. Each is built once. -/
def State.placeDue (s : State) (p : Nat) (slot : Option Nat) (y : Nat) (log : Byte) (ahead : Nat) : Option Nat :=
  let T : Int := periodUnits (sByte log.toNat)
  let φ : Int := ((slot.getD 0 % 1024 : Nat) : Int) * T / 1024
  let now : Int := s.tbTime (s.portBase p)
  let a := φ + (now - φ) / T * T
  let last : Int := (mapGet (fun _ => 0) s.pkt.places (placeKey p slot y) : Nat) - (1 : Int)
  if 0 ≤ last ∧ last = a - T then some a.toNat
  else if last ≠ a + T ∧ a + T ≤ now + ahead then some (a + T).toNat
  else if last ≠ a ∧ last ≠ a + T ∧ 0 ≤ a ∧ now ≤ a + buildLead then some a.toNat
  else none

/-- The occurrence at a place is built. -/
def State.placeDone (s : State) (p : Nat) (slot : Option Nat) (y t : Nat) : State :=
  { s with pkt := { s.pkt with places := mapSet (fun _ => 0) s.pkt.places (placeKey p slot y) (t + 1) } }

/-- `launch` is the TX timestamp of the first start position of port p at or after a place (R291): less than a grid step after it, but for
the positions of an alignment marker. -/
def State.firstStart (s : State) (p place launch : Nat) : Bool :=
  decide (place / 2 ^ 24 ≤ launch) && decide (launch ≤ place / 2 ^ 24 + s.gridStep p * (if s.isGroup p then 21 else 1))

/-- A Sync of a stream launched at `launch` (R291); one of two steps carries no timestamp (R294). -/
def State.syncBuild (s : State) (p : Nat) (slot : Option Nat) (e : Encap) (log : Byte) (auth : Option AuthOut) (launch : Nat) : State :=
  let q := s.streamSeq p 0 slot
  let s := q.2
  let two := s.b (pktOff p) 25
  let corr : Int := if two then 0 else subOf launch
  let lg := Config.ptpLog 0 slot.isSome log
  let m := s.ptpHead 0 1 (s.f (pktOff p) 15 8) (Config.ptpFlags 0 slot.isSome two).toNat 0 corr (s.portId p) q.1 lg
    ++ (if two then List.replicate 10 0 else ptpTime launch)
  let mark : Option SessMark := slot.map (fun i => { slot := i, typ := 2, seqId := q.1, ts := if two then 0 else launch, p := 0, corr := corr, auth := auth.isSome, twoStep := two })
  ((s.flightIn p).tallyAdd 0xC3 1).send p
    { body := .ptp e m (!two && s.b (pktOff p) 24) auth, launch := some launch, lateDrop := !two, onGrid := true, kind := some 1, inFlight := true
      mark := mark, follow := if two then some ⟨q.1, lg, slot⟩ else none }

/-- SYNC_EMIT (R290, R291): the Sync of a stream whose place is due, built 20 µs before it and launched at the first start position at or after
it, `launch` (2^-16 ns of the port's base). It waits for a place in flight (R306). -/
def execSyncEmit (st : Stream) (launch : Nat) (s : State) : Out :=
  let s := s.meetStream st
  match s.streamOf st 1 319 with
  | none => .next s
  | some (p, slot, e, log) =>
    match s.placeDue p slot 0 log buildLead with
    | none => .next s
    | some t =>
      if !s.firstStart p t launch then .next s
      else
        let a := s.streamAuth p slot
        if !s.mayBare p a.1 then .next s
        else if s.mayBuild then .next ((a.2.placeDone p slot 0 t).syncBuild p slot e log a.1 launch)
        else .next ((s.placeDone p slot 0 t).buildLater (.sync st launch))

/-- timeSource of an Announce (R293). -/
def State.timeSource (s : State) (n : Nat) : Nat :=
  let m := if s.tbYoked n then s.tbMaster n else n
  let c := s.refClass (s.ctl m).lastCand
  if s.tbState m = stHOLDOVER ∨ c = 0 then 0xA0 else if c = 4 then 0x20 else if c = 7 then 0x40 else 0x90

/-- Second flag byte of an Announce (R293), and currentUtcOffset. The UTC day that ends with an inserted second is 86,401 s long, with the second
itself, and the one that ends with a deleted second 86,399 s (R70). -/
def State.annFlags (s : State) (p : Nat) : Nat × Nat :=
  let n := s.pktTb p
  let row := s.f (bndOff n + 4) 18 16
  let u := s.f (pktOff p + 0x14) 26 24
  let utc := s.b (pktOff p + 0x14) 31
  let dir := s.leapDir u
  let left := (s.leapAt u : Int) - (s.tbSec (s.tbMaster u) : Int)
  let leap := decide (dir ≠ 0) && decide (0 ≤ left ∧ left ≤ (if dir = 1 then 86400 else 86399))
  let mark := if leap then (if dir = 1 then 1 else 2) else if (s.base u).leapSec then 1 else 0
  (8 + (if row ≤ 2 then 48 else 0) + (if utc then 4 + mark else 0), if utc then wrapTo 16 (s.leapOfs u) else 0)

/-- An Announce of a stream (R293). -/
def State.announceBuild (s : State) (p : Nat) (slot : Option Nat) (e : Encap) (log : Byte) (auth : Option AuthOut) : State :=
  let q := s.streamSeq p 1 slot
  let s := q.2
  let n := s.pktTb p
  let fl := s.annFlags p
  let m := s.ptpHead 0xB 1 (s.f (pktOff p) 15 8) (Config.ptpFlags 0xB slot.isSome false).toNat fl.1 0 (s.portId p) q.1 (Config.ptpLog 0xB slot.isSome log)
    ++ List.replicate 10 0 ++ beBytes 2 fl.2 ++ [0, BitVec.ofNat 8 (s.f (pktOff p + 0x18) 15 8), BitVec.ofNat 8 (s.f (bndOff n + 0x38) 23 16),
      BitVec.ofNat 8 (clockAccuracy (s.rd (bndOff n)).toNat)] ++ beBytes 2 (s.f (pktOff p + 0x18) 31 16)
    ++ [BitVec.ofNat 8 (s.f (pktOff p + 0x18) 7 0)] ++ s.clockId ++ [0, 0, BitVec.ofNat 8 (s.timeSource n)]
  let mark : Option SessMark := slot.map (fun i => { slot := i, typ := 4, seqId := q.1, ts := 0, p := 0, corr := 0, auth := auth.isSome, twoStep := false })
  ((s.flightIn p).tallyAdd 0xC4 1).send p { body := .ptp e m (s.b (pktOff p) 24) auth, kind := some 1, inFlight := true, mark := mark }

/-- ANNOUNCE_EMIT (R290, R293): the Announce of a stream whose place has come. It waits for a place in flight (R306). -/
def execAnnounceEmit (st : Stream) (s : State) : Out :=
  let s := s.meetStream st
  match s.streamOf st 0 320 with
  | none => .next s
  | some (p, slot, e, log) =>
    match s.placeDue p slot 1 log 0 with
    | none => .next s
    | some t =>
      let a := s.streamAuth p slot
      if !s.mayBare p a.1 then .next s
      else if s.mayBuild then .next ((a.2.placeDone p slot 1 t).announceBuild p slot e log a.1)
      else .next ((s.placeDone p slot 1 t).buildLater (.announce st))

/-- The Follow_Up of a two-step Sync that left at `ts` (R291, R294): it waits for a place in flight (R306). -/
def State.followUp (s : State) (p : Nat) (f : FollowUp) (ts : Nat) (stamp : Stamp) : State :=
  let a := s.streamAuth p f.slot
  if !s.mayBuild then s.buildLater (.follow p f ts stamp)
  else if !s.mayBare p a.1 then a.2
  else
    let s := a.2
    let e := match f.slot with
      | some i => s.sessEncap i p 320
      | none => s.mcastEncap p 320
    let corr : Int := subOf ts
    let m := s.ptpHead 8 1 (s.f (pktOff p) 15 8) (Config.ptpFlags 8 f.slot.isSome false).toNat 0 corr (s.portId p) f.seqId f.log ++ ptpTime ts
    let bl := s.b (pktOff p) 24
    let bytes := encap e (s.ptpMessage m (if bl then some stamp.bluta else none) a.1)
    let mark : Option SessMark := f.slot.map (fun i => { slot := i, typ := 3, seqId := f.seqId, ts := ts, p := if bl then stamp.p else 0, corr := corr, auth := a.1.isSome, twoStep := true })
    (s.flightIn p).send p { body := .raw bytes, kind := some 1, inFlight := true, mark := mark }

/-! ### What waits for a place in flight (R306) -/

/-- A build that waited is made: a stream's message while its grant is in force, a client's while its instance runs. -/
def State.serveBuild (s : State) (b : PktBuild) : State :=
  match b with
  | .gratuitous k => s.gratuitous k
  | .signal k tlvs => if s.cliState k = clOFF then s else s.cliSignal k tlvs
  | .delayReq k => s.cliDelayReq k
  | .follow p f ts stamp => s.followUp p f ts stamp
  | .sync st launch =>
    match s.streamOf st 1 319 with
    | none => s
    | some (p, slot, e, log) =>
      let a := s.streamAuth p slot
      if s.mayBare p a.1 then a.2.syncBuild p slot e log a.1 launch else s
  | .announce st =>
    match s.streamOf st 0 320 with
    | none => s
    | some (p, slot, e, log) =>
      let a := s.streamAuth p slot
      if s.mayBare p a.1 then a.2.announceBuild p slot e log a.1 else s

/-- Builds of a list are made, oldest first, as long as there is a place in flight; the others go on waiting. -/
def State.serveFrom (s : State) : List PktBuild → State
  | [] => s
  | b :: r => if s.flightFull then { s with pkt := { s.pkt with builds := b :: r } } else (s.serveBuild b).serveFrom r

/-- The scheduler's builds that wait are served, before the classifier (R306). -/
def State.serveDue (s : State) : State :=
  if s.pkt.builds.isEmpty then s else ({ s with pkt := { s.pkt with builds := [] } } : State).serveFrom s.pkt.builds

/-- CLASSIFY (R281, R284, R306): the oldest frame of a port's FIFO, after the builds that wait; nothing while 8,192 packets are in flight. `launch` is
the first start position for a launch-timed answer, 2^-16 ns of the port's base; `errs` are words of the DRAM that have come to hold an error. -/
def execClassify (p : Fin 16) (launch : Nat) (errs : List EccHit) (s : State) : Out :=
  let s := (s.dramFail errs).serveDue
  match (s.port p.val).fifo with
  | [] => .next s
  | f :: r =>
    if !s.served p.val then .next ((s.modPort p.val (fun x => { x with fifo := r })).toHost p.val f 0)
    else if s.flightFull then .next s
    else .next ((s.modPort p.val (fun x => { x with fifo := r })).classifyFrame p.val f launch).serveDue

/-! ### Group keys, cookie ring, mint -/

/-- A key command ends (R296). -/
def State.keyCmdDone (s : State) (e : Nat) (err : Bool) : State :=
  let s := ((s.setF 0x02203240 7 0 e).setB 0x02203240 30 err).setF 0x02203240 24 16 (s.pkt.keys.filter (fun x => x.2.valid)).length
  (if err then s.raise Flt.pktKeyLoadErr e else s).irq .pkt 4

/-- A load of entry e from the key window (R296). -/
def State.keyLoad (s : State) (e : Nat) : State :=
  let id := (s.rd 0x02203204).toNat
  let spp := s.f 0x02203208 3 0
  let slot := s.f 0x02203208 13 8
  let w := (List.range 6).flatMap (fun j => leBytes 4 (s.rd (0x02203220 + 4 * j)).toNat)
  let dup := s.pkt.keys.any (fun x => decide (x.1 ≠ e) && x.2.valid && decide (x.2.spp = spp) && decide (x.2.keyId = id))
  if dup ∨ (s.unwrapKey slot w).isNone then s.keyCmdDone e true
  else
    let k : GroupKey := { valid := true, keyId := id, spp := spp, slot := slot, from_ := s.rd64 0x0220320C % 2 ^ 48, to_ := s.rd64 0x02203214 % 2 ^ 48, wrapped := w }
    ({ s with pkt := { s.pkt with keys := mapSet (fun _ => {}) s.pkt.keys e k } }).keyCmdDone e false

/-- A delete of entry e. -/
def State.keyDelete (s : State) (e : Nat) : State :=
  ({ s with pkt := { s.pkt with keys := mapSet (fun _ => {}) s.pkt.keys e {} } }).keyCmdDone e false

/-- A write to PKT_KEY_CMD. -/
def State.wKeyCmd (s : State) (v : Word) : State :=
  if v.field 31 30 = 1 then s.keyLoad (v.field 7 0)
  else if v.field 31 30 = 2 then s.keyDelete (v.field 7 0)
  else s.cfgBad .pkt 0x02203200

/-- KEY_LOAD and KEY_DELETE (R296): PKT_KEY_CMD is written with OP 1 or 2 and the entry of `v`. -/
def execKeyLoad (i : Itf) (v : Word) (s : State) : Out :=
  .next (s.reach i 0x02203200 (v.setField 31 30 1) (fun s => s.keyLoad (v.field 7 0)))
def execKeyDelete (i : Itf) (v : Word) (s : State) : Out :=
  .next (s.reach i 0x02203200 (v.setField 31 30 2) (fun s => s.keyDelete (v.field 7 0)))

/-- A write to PKT_NTS_RING (R305): a new CURRENT makes the previous one ACCEPT; exactly one slot stays CURRENT once one is. -/
def State.wNtsRing (s : State) (v : Word) : State :=
  let old := fun (r : Nat) => s.ringState r
  let new := fun (r : Nat) => v.field (2 * r + 1) (2 * r)
  let rs := List.range 4
  let fresh := rs.filter (fun r => new r = 2 ∧ old r ≠ 2)
  let fin := fun (r : Nat) => if new r = 2 ∧ old r = 2 ∧ fresh ≠ [] then 1 else new r
  let kid := fun (r : Nat) => (s.rd (0x02203410 + 4 * r)).toNat
  let bad := rs.any (fun r => decide (new r = 3)) || decide (1 < fresh.length)
    || rs.any (fun r => decide (old r = 2) && decide (new r = 0))
    || rs.any (fun r => decide (new r ≠ 0) && decide (s.slotActive r = 0 ∨ s.slotActive r = 3))
    || rs.any (fun r => rs.any (fun t => decide (r < t) && decide (new r ≠ 0) && decide (new t ≠ 0) && decide (kid r = kid t)))
    || (decide (fresh = []) && rs.any (fun r => decide (old r = 2) && decide (new r ≠ 2)))
  if bad then s.cfgBad .pkt 0x02203420
  else s.wrN 0x02203420 (fin 0 + fin 1 * 4 + fin 2 * 16 + fin 3 * 64)

/-- NTS_RING_WRITE (R305). -/
def execNtsRingWrite (i : Itf) (v : Word) (s : State) : Out := .next (s.reach i 0x02203420 v (fun s => s.wNtsRing v))

/-- A write to PKT_MINT_CTL (R304): a run starts unless one runs. -/
def State.wMint (s : State) (v : Word) : State :=
  if v.bit 0 ∧ !s.b 0x02203450 31 then
    if inScratch (s.rd 0x02203440).toNat (72 * s.f 0x02203448 16 0) && inScratch (s.rd 0x02203444).toNat (104 * s.f 0x02203448 16 0) then
      s.wrN 0x02203450 (2 ^ 31)
    else s.cfgBad .pkt 0x0220344C
  else s

/-- MINT_GO (R304). -/
def execMintGo (i : Itf) (v : Word) (s : State) : Out := .next (s.reach i 0x0220344C v (fun s => s.wMint v))

/-- The records of a mint run from record j on: cookies written, and the index of a bad record. A record whose read meets an error response (R327,
R402), or for which there is no cookie, ends the run as a bad one does (log entry 59). -/
def State.mintRun (s : State) (src dst : Nat) : Nat → Nat → State × Nat × Option Nat
  | 0, j => (s, j, none)
  | n + 1, j =>
    match s.granGet 2 (src + 72 * j) 72 with
    | (.inl x, s) => (s.mtxErr 3 2 x, j, some j)
    | (.inr r, s) =>
      if beAt r 0 2 ≠ 15 then (s, j, some j)
      else match s.mintCookie ([0, 15, 0, 0] ++ slice r 8 64) with
        | (none, s) => (s, j, some j)
        | (some c, s) => (s.granWrite 2 (dst + 104 * j) c).mintRun src dst n (j + 1)

/-- MINT_DONE (R304): the run ends after the last record, or at the first whose algorithm is not 15. It waits until the store is READY (R313). -/
def execMintDone (s : State) : Out :=
  if !s.b 0x02203450 31 || !s.cstReady then .next s
  else
    let r := s.mintRun (s.rd 0x02203440).toNat (s.rd 0x02203444).toNat (s.f 0x02203448 16 0) 0
    let s := r.1.wrN 0x02203450 ((if r.2.2.isSome then 2 ^ 30 else 0) + r.2.1)
    let s := match r.2.2 with
      | some j => s.raise Flt.pktMintErr j
      | none => s
    .next (s.irq .pkt 5)

end Sys2Proof.Machine
end

