-- ==== Sys2Proof/Machine/Mac.lean ====
section
/-! DEFINITION. The commands of the Ethernet ports (10 R254-R279). -/
namespace Sys2Proof.Machine

/-! ### Links -/

/-- 180 ns, the skew between lanes that a group tolerates, 2^-16 ns (R256). -/
def skewLimit : Nat := 180 * 65536

/-- The skews of a group are tolerated (R256): no two of them lie more than 180 ns apart. -/
def skewsOk (ks : List Int) : Bool := ks.all (fun a => ks.all (fun b => decide (a - b ≤ skewLimit)))

/-- DESKEW_DONE (R256, R257): alignment lock and deskew are complete. `k1` to `k3` are the measured skews of the higher lanes of the group against
its lowest lane, signed; the largest is reported. With more skew than the port tolerates the search goes on. -/
def execDeskewDone (p : Fin 16) (k1 k2 k3 : Word) (s : State) : Out :=
  let ks : List Int := [0, signedOf 32 k1.toNat, signedOf 32 k2.toNat, signedOf 32 k3.toNat]
  if s.portSt p = pDESKEW ∧ s.portLocked p ∧ skewsOk ks then
    .next (((s.wrN (macOff p + 0x34) (ks.foldl (fun m k => max m k.natAbs) 0)).modPort p (fun x => { x with skews := ks })).setPortSt p pCAL)
  else .next s

/-- DESKEW_FAIL (R257): 10 ms in DESKEW; raised once per entry, and the search goes on. -/
def execDeskewFail (p : Fin 16) (s : State) : Out :=
  if s.portSt p = pDESKEW ∧ !(s.port p).deskewFail ∧ (s.port p).deskewAt + 20000000 ≤ s.spn.ticks then
    .next ((s.modPort p (fun x => { x with deskewFail := true })).raise Flt.macDeskewFail p)
  else .next s

/-- CAL_U of a mode (R270), 2^-8 ns, rounded up. -/
def calU (mode : Nat) : Nat := if mode = 2 then 11 else if mode = 3 then 8 else if mode = 4 then 12 else 39

/-- The fixed delay of the PCS pipeline of a mode, 2^-16 ns (R269): 9.600 ns for what 25GBASE-R transmits (10, worked example of a launch), rounded to
the nearest unit (DEDUCED, log entry 58). -/
def pcsFixed (mode : Nat) (tx : Bool) : Nat := if mode = 3 ∧ tx then 629146 else (Config.pcsDelay mode tx).toNat

/-- LINK_UP (R257, R269, R270): delay calibration is complete. -/
def execLinkUp (p : Fin 16) (s : State) : Out :=
  if s.portSt p = pCAL ∧ s.portLocked p then
    let o := macOff p
    let md := s.portMode p
    let skew := if s.isGroup p then (s.rd (o + 0x34)).toNat else 0
    let s := s.wrN (o + 0x20) ((s.rd (lanOff p + 0x1C)).toNat + pcsFixed md false + skew)
    let s := s.wrN (o + 0x24) ((s.rd (lanOff p + 0x20)).toNat + pcsFixed md true + skew)
    .next ((((s.wrN (o + 0x30) (calU md)).setPortSt p pUP).raise Flt.macLinkUp p).portGratuitous p)
  else .next s

/-- What a port transmits in place of frames for the fault it receives (R258): remote fault for local fault, idle for remote fault. -/
def State.linkSignal (s : State) (p : Nat) : Option LinkSignal :=
  if s.b (macOff p + 4) 27 then some .remoteFault else if s.b (macOff p + 4) 26 then some .idle else none

/-- LINK_FAULT_RECEIVED (R258): STAT.LF and RF follow the received condition in the 64b/66b modes, and what the port transmits with them. -/
def execLinkFaultReceived (p : Fin 16) (lf rf : Bool) (s : State) : Out :=
  if s.portSt p = pUP ∧ 2 ≤ s.portMode p then
    let t := (s.setB (macOff p + 4) 27 lf).setB (macOff p + 4) 26 rf
    .next (if t.linkSignal p = s.linkSignal p then t else t.emit (.linkSignal p (t.linkSignal p)))
  else .next s

/-- ALIGNMENT_LOCK_LOSS (R257): a group port loses alignment lock while its lanes stay LOCKED: DOWN, and from there DESKEW again. -/
def execAlignmentLockLoss (p : Fin 16) (s : State) : Out :=
  if s.isGroup p ∧ (s.portSt p = pCAL ∨ s.portSt p = pDESKEW ∨ s.portSt p = pUP) then .next ((s.portTo p pDOWN (some 2)).portEval p)
  else .next s

/-! ### PAUSE (R266, R267) -/

/-- The paused interval ends at a tick: TX_PAUSED_NS counts it. -/
def State.pauseEnd (s : State) (p t : Nat) : State :=
  (((s.setB (macOff p + 4) 28 false).wr (macOff p + 0x14) 0).macCount p 14 ((t - (s.port p).pauseFrom) / 2)).modPort p
    (fun x => { x with pauseFrom := 0, pauseTo := 0 })

/-- A PAUSE frame of pause time q arrives (R266). -/
def State.pauseFrame (s : State) (p q : Nat) : State :=
  let s := s.modPort p (fun x => { x with pauseLast := s.spn.ticks })
  if s.b (macOff p) 30 then s
  else if (s.port p).ignoring then s.macCount p 21 1
  else if q = 0 then (if s.b (macOff p + 4) 28 then s.pauseEnd p s.spn.ticks else s)
  else
    let was := s.b (macOff p + 4) 28
    let len := q * s.quantum p
    ((s.setB (macOff p + 4) 28 true).wrN (macOff p + 0x14) (satAt 0xFFFFFFFF (len / 100))).modPort p (fun x =>
      { x with pauseFrom := if was then x.pauseFrom else s.spn.ticks, pauseTo := s.spn.ticks + len / 50 })

/-- PAUSE_EXPIRE (R266): the pause count has run out. -/
def execPauseExpire (p : Fin 16) (s : State) : Out :=
  .next (if s.b (macOff p + 4) 28 ∧ (s.port p).pauseTo ≤ s.spn.ticks then s.pauseEnd p (s.port p).pauseTo else s)

/-- PAUSE_WD (R267): the paused interval exceeds WD µs. -/
def execPauseWd (p : Fin 16) (s : State) : Out :=
  let wd := s.f (macOff p + 0x10) 15 0
  let lim := (s.port p).pauseFrom + wd * 2000
  if s.b (macOff p + 4) 28 ∧ wd ≠ 0 ∧ lim < s.spn.ticks ∧ lim < (s.port p).pauseTo then
    let s := (s.pauseEnd p lim).macCount p 20 1
    .next (((s.modPort p (fun x => { x with ignoring := true, pauseLast := s.spn.ticks })).raise Flt.macPauseWd p).irq .mac 2)
  else .next s

/-- PAUSE_HOLDOFF_END (R267): HOLDOFF ms have passed since the break without a PAUSE frame. -/
def execPauseHoldoffEnd (p : Fin 16) (s : State) : Out :=
  .next (if (s.port p).pauseLast + s.f (macOff p + 0x10) 31 24 * 2000000 ≤ s.spn.ticks then s.modPort p (fun x => { x with ignoring := false }) else s)

/-! ### ESMC (R276, R277) -/

/-- originator clock identity of a port (R276). -/
def State.esmcId (s : State) (p : Nat) : List Byte :=
  let a := s.macReg (macOff p + 8)
  a.take 3 ++ [0xFF, 0xFE] ++ a.drop 3

/-- The quality a port advertises (R276): SSM of the row in force, with ESSM_EN its eSSM too, DNU toward the source its base selects. -/
def State.esmcQuality (s : State) (p : Nat) : Nat × Nat :=
  let n := s.portBase p
  let m := if s.tbYoked n then s.tbMaster n else n
  let q := if s.b (macOff p + 0x40) 28 ∧ s.selected m = 8 + p then (0xF, 0xFF)
    else ((s.rd (bndOff n + 0x38)).field 7 4, (s.rd (bndOff n + 0x38)).field 15 8)
  (q.1, if s.b (macOff p + 0x40) 29 then q.2 else 0)

/-- An ESMC PDU (ITU-T G.8264): information or event. -/
def State.esmcPdu (s : State) (p : Nat) (event : Bool) : List Byte :=
  let q := s.esmcQuality p
  [0x01, 0x80, 0xC2, 0, 0, 0x02] ++ s.macReg (macOff p + 8) ++ [0x88, 0x09, 0x0A, 0x00, 0x19, 0xA7, 0x00, 0x01, (if event then 0x18 else 0x10), 0, 0, 0,
    0x01, 0x00, 0x04, BitVec.ofNat 8 q.1]
    ++ (if s.b (macOff p + 0x40) 29 then [0x02, 0x00, 0x14, BitVec.ofNat 8 q.2] ++ s.esmcId p ++ List.replicate 8 0 else [])

/-- An ESMC PDU of port p is due (R276): an information PDU a second after the last one, an event PDU when the quality has changed since the
last PDU. -/
def State.esmcDue (s : State) (p : Nat) (event : Bool) : Bool :=
  if event then (s.port p).sentQ.any (fun q => decide (q ≠ s.esmcQuality p))
  else (s.port p).infoTx.all (fun t => decide (t + 2000000000 ≤ s.spn.ticks))

/-- ESMC_TX (R276): once per second, or an event PDU after a change of quality. -/
def execEsmcTx (p : Fin 16) (event : Bool) (s : State) : Out :=
  if s.b (macOff p + 0x40) 31 ∧ s.portSt p = pUP ∧ s.esmcDue p event then
    let q := s.esmcQuality p
    .next ((s.modPort p (fun x => { x with sentQ := some q, infoTx := if event then x.infoTx else some s.spn.ticks })).txQueue p 0
      { body := .raw (s.esmcPdu p event), esmc := true })
  else .next s

/-- Candidates of a port's lanes. -/
def State.portCands (s : State) (p : Nat) : List Nat := (s.portLanes p).map (8 + ·)

/-- ESMC_TIMEOUT (R277): five seconds without an information PDU. -/
def execEsmcTimeout (p : Fin 16) (s : State) : Out :=
  if s.esmcSilent p then
    let t := (s.portCands p).foldl (fun t c => t.setF (cStat c) 19 16 15) s
    .next (t.candRound s (s.portCands p))
  else .next s

/-- A received ESMC PDU (R277): its eSSM and SSM, whether it is an information PDU; none when it is malformed. -/
def State.esmcParse (s : State) (p : Nat) (b : List Byte) : Option (Nat × Nat × Bool) :=
  if slice b 1 5 ≠ [0x00, 0x19, 0xA7, 0x00, 0x01] ∨ byteAt b 6 / 16 ≠ 1 ∨ slice b 10 3 ≠ [0x01, 0x00, 0x04] then none
  else
    let ext := decide (slice b 14 3 = [0x02, 0x00, 0x14])
    if ext ∧ slice b 18 8 = s.esmcId p then none
    else some (if ext then byteAt b 17 else 0, byteAt b 13 % 16, decide (byteAt b 6 / 8 % 2 = 0))

/-- An ESMC PDU is consumed (R277). -/
def State.esmcReceive (s : State) (p : Nat) (b : List Byte) : State :=
  match s.esmcParse p b with
  | none => s.macCount p 11 1
  | some (essm, ssm, info) =>
    let s0 := s
    let o := macOff p + 0x44
    let s := ((s.macCount p 23 1).setF o 15 8 essm).setF o 3 0 ssm
    let s := if info then s.setF o 23 16 0 else s
    let cs := s.portCands p
    (cs.foldl (fun s c => s.qualityIn c (BitVec.ofNat 32 (essm * 256 + ssm))) s).candRound s0 cs

/-! ### Reception (R259, R260) -/

/-- The address filter of MAC_Pp_CTL. -/
def State.macFilter (s : State) (p : Nat) (d : List Byte) : Bool :=
  s.b (macOff p) 29 || (if d = bcast then s.b (macOff p) 27 else if isMcast d then s.b (macOff p) 28 else decide (d = s.macReg (macOff p + 8)))

/-- Bytes in a port's receive FIFO, and what it holds (R260). -/
def State.fifoUse (s : State) (p : Nat) : Nat := ((s.port p).fifo.map (fun f => f.bytes.length)).sum
def State.fifoSize (s : State) (p : Nat) : Nat := if s.isGroup p then 1048576 else 262144

/-- A frame enters the FIFO, or is dropped whole (R260). -/
def State.fifoStore (s : State) (p : Nat) (f : RxStored) : State :=
  if s.fifoSize p < s.fifoUse p + f.bytes.length then
    let run := (s.port p).fifoRun
    let s := ((s.macCount p 7 1).irq .mac 1).modPort p (fun x => { x with fifoRun := true })
    if run then s else s.raise Flt.macFifoDrop p
  else ((s.macCount p 0 1).macCount p 1 (f.bytes.length + 4)).modPort p (fun x => { x with fifo := x.fifo ++ [f], fifoRun := false })

/-- FRAME_RECEIVE (R259): checked, discarded and counted, consumed, or stored. Its timestamp is the last RX event of the port's lane
unit (R268). -/
def execFrameReceive (p : Fin 16) (x : RxFrame) (s : State) : Out :=
  if s.portSt p ≠ pUP then .next s
  else
    let u : TiuId := .lane ⟨p.val, by omega⟩
    let st := (s.unit u).stampRx
    let s := (s.modUnit u (fun t => { t with stampRx := {} })).modPort p (fun y => { y with rxIn := false })
    let s := ((s.macCount p 18 x.corr).macCount p 19 x.uncorr).tallyAdd (8 * p) 1
    let n := x.bytes.length
    let s := s.tallyAdd (8 * p + 1) n
    let b := x.bytes.take (n - 4)
    if crc32 b ≠ leNat (x.bytes.drop (n - 4)) then .next (s.macCount p 2 1)
    else if x.codeErr ∨ 0 < x.uncorr then .next (s.macCount p 3 1)
    else if n < 64 then .next (s.macCount p 4 1)
    else if s.f (macOff p) 13 0 < n then .next (s.macCount p 5 1)
    else
      let d := slice b 0 6
      if beAt b 12 2 = 0x8808 then
        if beAt b 14 2 = 1 ∧ (d = [0x01, 0x80, 0xC2, 0, 0, 0x01] ∨ d = s.macReg (macOff p + 8)) then
          .next ((s.macCount p 9 1).pauseFrame p (beAt b 16 2))
        else .next (s.macCount p 10 1)
      else if d = [0x01, 0x80, 0xC2, 0, 0, 0x02] ∧ beAt b 12 2 = 0x8809 ∧ byteAt b 14 = 0x0A ∧ s.b (macOff p + 0x40) 30 then
        .next (s.esmcReceive p (b.drop 14))
      else if !s.macFilter p d then .next (s.macCount p 6 1)
      else .next (s.fifoStore p ⟨b, if st.bluta = [] then 0 else s.rxTime p st.t (s.startDelay p false x.start), st.p, st.bluta, st.cap⟩)

/-! ### Receive ring (R261-R263) -/

/-- The frame at the head of the host path is dropped for want of descriptors (R262). -/
def State.ringDrop (s : State) (p : Nat) : State :=
  let run := (s.port p).ringRun
  let s := ((s.macCount p 8 1).irq .mac 4).modPort p (fun x => { x with host := x.host.drop 1, ringRun := true })
  if run then s else s.raise Flt.macRingDrop p

/-- The receive ring halts at a descriptor, and the frame it was to hold is dropped (R263). -/
def State.rxHalt (s : State) (p i : Nat) : State :=
  (((s.setB (macOff p + 0xB8) 0 true).raise Flt.macRingErr (i * 65536 + p)).irq .mac 4).ringDrop p

/-- How placing a frame ended: its buffers (index, bytes placed), no descriptor, or a halt at an index. -/
inductive Placed
  | done (l : List (Nat × Nat))
  | short
  | halt (i : Nat)
  /-- a halt on a PCIe error of the access at `addr` (R402) -/
  | err (i addr : Nat)
  deriving DecidableEq, Repr

/-- Places bytes into the posted descriptors from index i on (R261): `n` entries in the ring, `t` its tail; the write of buffer number `bad`
from here meets a PCIe error (R263). -/
def State.rxPlace (s : State) (p n t : Nat) (b : List Byte) (i : Nat) (bad : Option Nat) : List (Option (List Byte)) → State × Placed
  | [] => if i = t then (s, .short) else (s, .err i (s.rxDesc p i))
  | d :: r =>
    if i = t then (s, .short)
    else match d with
      | none => (s, .err i (s.rxDesc p i))
      | some d =>
        let len := leNat (slice d 8 2)
        if len % 64 ≠ 0 ∨ len < 64 ∨ 16320 < len then (s, .halt i)
        else if bad = some 0 then (s, .err i (leNat (slice d 0 8)))
        else
          let s := s.hostWrite 2 (leNat (slice d 0 8)) (b.take len)
          if b.length ≤ len then (s, .done [(i, b.length)])
          else match s.rxPlace p n t (b.drop len) ((i + 1) % n) (bad.map (· - 1)) r with
            | (s, .done l) => (s, .done ((i, len) :: l))
            | x => x

/-- A receive descriptor as the part writes it back. -/
def State.rxDescBytes (s : State) (p : Nat) (h : HostFrame) (first last : Bool) (n : Nat) : List Byte :=
  let ok := decide (h.f.bluta ≠ [])
  let e := ethOf h.f.bytes
  (if first then (if ok then timeBytes16 h.f.ts ++ leBytes 4 h.f.p else List.replicate 16 0) else List.replicate 16 0)
    ++ leBytes 2 n ++ leBytes 2 (if first then h.f.bytes.length else 0)
    ++ [BitVec.ofNat 8 ((if first then 1 else 0) + (if last then 2 else 0) + (if first && ok then 4 else 0) + (if e.vid.isSome then 8 else 0)),
        BitVec.ofNat 8 h.reason, BitVec.ofNat 8 (s.portBase p), BitVec.ofNat 8 p] ++ List.replicate 8 0

/-- The descriptors of a placed frame in the order of their write-backs (R261), with their numbers in the frame: the first one last. -/
def backOrder (l : List (Nat × Nat)) : List ((Nat × Nat) × Nat) := l.zipIdx.drop 1 ++ l.zipIdx.take 1

/-- HOST_RING_DELIVER (R261-R263): the next host-bound frame. `descs` are the posted descriptors from RX_HEAD on as the ring engine
read them; none is an error response. `bad` is the write of a buffer or a write-back that meets a PCIe error. -/
def execHostRingDeliver (p : Fin 16) (descs : List (Option (List Byte))) (bad : Option RingWrite) (s : State) : Out :=
  let o := macOff p
  match (s.port p).host with
  | [] => .next s
  | h :: r =>
    if !s.domOn 7 then .next s
    else if !s.b (o + 0x94) 31 || s.b (o + 0xB8) 0 then .next (s.ringDrop p)
    else
      let n := s.f (o + 0x88) 16 0
      let i := s.f (o + 0x8C) 15 0
      let s := s.hostReadReq 2 (s.rxDesc p i) (32 * descs.length)
      let badBuf := match bad with
        | some (.buffer k) => some k
        | _ => none
      match s.rxPlace p n (s.f (o + 0x90) 15 0) h.f.bytes i badBuf descs with
      | (s, .short) => .next (s.ringDrop p)
      | (s, .halt j) => .next (s.rxHalt p j)
      | (s, .err j a) => .next ((s.mtxErr 3 2 a).rxHalt p j)
      | (s, .done l) =>
        let wb := fun (s : State) (x : (Nat × Nat) × Nat) =>
          s.hostWrite 2 (s.rxDesc p x.1.1) (s.rxDescBytes p h (x.2 = 0) (x.2 + 1 = l.length) x.1.2)
        let stop : Option ((Nat × Nat) × Nat) := match bad with
          | some (.writeBack k) => (backOrder l).find? (fun x => decide (x.2 = k))
          | _ => none
        match stop with
        | some x =>
          let s := ((backOrder l).takeWhile (fun y => decide (y.2 ≠ x.2))).foldl wb s
          .next ((s.mtxErr 3 2 (s.rxDesc p x.1.1)).rxHalt p x.1.1)
        | none =>
          let s := (backOrder l).foldl wb s
          .next (((s.setF (o + 0x8C) 15 0 ((i + l.length) % n)).tallyAdd (8 * p + 6) 1).modPort p (fun x => { x with host := r, ringRun := false }))

/-- RX_TAIL_WRITE (R261). -/
def execRxTailWrite (i : Itf) (p : Fin 16) (v : Word) (s : State) : Out :=
  .next (s.reach i (macOff p + 0x90) v (fun s => s.rwStore (macOff p + 0x90) v))

/-- A write to MAC_Pp_RX_CTL (R263). -/
def State.wRxCtl (s : State) (p : Nat) (v : Word) : State :=
  let o := macOff p
  let s := s.setB (o + 0x94) 31 (v.bit 31)
  if v.bit 30 then ((s.setF (o + 0x8C) 15 0 0).setF (o + 0x90) 15 0 0).setB (o + 0xB8) 0 false else s

/-- RX_RING_RESET (R263). -/
def execRxRingReset (i : Itf) (p : Fin 16) (v : Word) (s : State) : Out :=
  .next (s.reach i (macOff p + 0x94) v (fun s => s.wRxCtl p v))

/-! ### Transmit ring (R264, R265) -/

/-- TX_TAIL_WRITE (R264). -/
def execTxTailWrite (i : Itf) (p : Fin 16) (v : Word) (s : State) : Out :=
  .next (s.reach i (macOff p + 0xB0) v (fun s => s.rwStore (macOff p + 0xB0) v))

/-- A write to MAC_Pp_TX_CTL (R265): RESET discards every frame of the ring that has not started. -/
def State.wTxCtl (s : State) (p : Nat) (v : Word) : State :=
  let o := macOff p
  let s := (s.txFlush p none).setB (o + 0xB4) 31 (v.bit 31)
  if v.bit 30 then
    (((s.setF (o + 0xAC) 15 0 0).setF (o + 0xB0) 15 0 0).setB (o + 0xB8) 1 false).modPort p (fun x => { x with ring := [] })
  else s

/-- TX_RING_RESET (R265). -/
def execTxRingReset (i : Itf) (p : Fin 16) (v : Word) (s : State) : Out :=
  .next (s.reach i (macOff p + 0xB4) v (fun s => s.wTxCtl p v))

/-- The descriptors of one frame among those read from HEAD on (`k` posted): how many it takes, with their contents; an error
response at an offset; or nothing while LAST is not posted. -/
def txGather : Nat → Nat → List (Option (List Byte)) → Option (Nat ⊕ List (List Byte))
  | 0, _, _ => none
  | _ + 1, j, [] => some (.inl j)
  | _ + 1, j, none :: _ => some (.inl j)
  | k + 1, j, some d :: r =>
    if byteAt d 30 / 2 % 2 = 1 then some (.inr [d])
    else match txGather k (j + 1) r with
      | some (.inr l) => some (.inr (d :: l))
      | x => x

/-- Descriptors to skip when the first lacks FIRST (R264): up to the next one that carries it. -/
def txSkip : Nat → List (Option (List Byte)) → Nat
  | 0, _ => 0
  | _ + 1, [] => 1
  | _ + 1, none :: _ => 1
  | k + 1, some _ :: r =>
    match r with
    | some d :: _ => if byteAt d 30 % 2 = 1 then 1 else 1 + txSkip k r
    | _ => 1

/-- The buffers of a frame's descriptors: their bytes, or the offset of an error response. -/
def txData : Nat → List (List Byte) → List (Option (List Byte)) → Nat ⊕ List Byte
  | _, [], _ => .inr []
  | j, _ :: _, [] => .inl j
  | j, _ :: _, none :: _ => .inl j
  | j, d :: r, some b :: q =>
    match txData (j + 1) r q with
    | .inr x => .inr (b.take (leNat (slice d 8 2)) ++ x)
    | e => e

/-- A bad frame is dropped with cause 3 (R264). -/
def State.txBad (s : State) (p i : Nat) (f : TxFrame) : State :=
  ((s.raise Flt.macDescBad (i * 65536 + p)).irq .mac 4).txDrop p f 3

/-- An error response to a read of a transmit descriptor or buffer at `addr` (R265, R402): the ring halts and the frame is dropped. -/
def State.txFetchErr (s : State) (p i addr : Nat) : State := ((s.mtxErr 3 2 addr).txHalt p i).macCount p 16 1

/-- The ring engine fetches the next frame of the transmit ring (R264, R265). -/
def State.txFetch (s : State) (p : Nat) (descs bufs : List (Option (List Byte))) : State :=
  let o := macOff p
  let n := s.f (o + 0xA8) 16 0
  let i := s.f (o + 0xAC) 15 0
  let k := (s.f (o + 0xB0) 15 0 + n - i) % n
  if !s.b (o + 0xB4) 31 || s.b (o + 0xB8) 1 || decide (k = 0) || decide (n = 0) || !s.domOn 7 then s
  else
    let s := s.hostReadReq 2 (s.txDesc p i) (32 * descs.length)
    let at_ := fun (j : Nat) => (i + j) % n
    let adv := fun (s : State) (j : Nat) => s.setF (o + 0xAC) 15 0 (at_ j)
    match descs with
    | [] => (s.txFetchErr p i (s.txDesc p i))
    | none :: _ => (s.txFetchErr p i (s.txDesc p i))
    | some d0 :: _ =>
      if byteAt d0 30 % 2 = 0 then
        let j := txSkip k descs
        ((adv s j).txBad p i { body := .raw [], descs := (List.range j).map at_ })
      else match txGather k 0 descs with
        | none => s
        | some (.inl j) => ((adv s (j + 1)).txFetchErr p (at_ j) (s.txDesc p (at_ j)))
        | some (.inr ds) =>
          let m := ds.length
          match txData 0 ds bufs with
          | .inl j => ((adv s m).txFetchErr p (at_ j) (leNat (slice (ds.getD j []) 0 8)))
          | .inr b =>
            let s := (adv s m).tallyAdd (8 * p + 7) 1
            let cmd := byteAt d0 30
            let launch := decide (cmd / 4 % 2 = 1)
            let w := fun (q : Nat) => BitVec.ofNat 32 (leNat (slice d0 q 4))
            let f : TxFrame := { body := .raw b, launch := if launch then some (timeOfWords (w 12) (w 16) (w 20) / 2 ^ 24) else none
                                 lateDrop := decide (cmd / 16 % 2 = 1), tsReq := decide (cmd / 8 % 2 = 1), descs := (List.range m).map at_ }
            if s.f o 13 0 < b.length + 4 ∨ (launch ∧ !validTime (w 12)) then (s.txBad p i f)
            else (s.txLaunch p 2 f)

/-- TX_FRAME_FETCH (R264, R265): the next frame of the transmit ring. `descs` and `bufs` are the descriptors from TX_HEAD on and the
buffers of the frame as read; none is an error response. `bad`: which of the write-backs due meets a PCIe error. -/
def execTxFrameFetch (p : Fin 16) (descs bufs : List (Option (List Byte))) (bad : Option Nat) (s : State) : Out :=
  .next ((s.txFetch p descs bufs).txFlush p bad)

/-! ### The arbiter (R272-R274) -/

/-- The start position of a frame has come at TX timestamp `ts` and it cannot start there (R272, R274): the position is not free for it
(`blocked`: the port is paused or under a link fault, or another launch-timed frame takes it), a step went past its launch time, or it came
`g` or more ago, `g` being the grid step with the positions that alignment markers occupied before this one. A frame whose launch time is the TX
timestamp of a start position starts at that one only (R291). -/
def missed (g ts : Nat) (blocked : Bool) (f : TxFrame) : Bool :=
  match f.launch with
  | some l => !f.late && decide (l ≤ ts) && (blocked || f.passed || decide (l + (if f.onGrid then 1 else g) ≤ ts))
  | none => false

/-- A source's queue after its missed frames have turned late. -/
def State.lateQueue (s : State) (p src g ts : Nat) (blocked : Bool) : List TxFrame → List TxFrame × State
  | [] => ([], s)
  | f :: r =>
    if missed g ts blocked f then
      let x := s.txLate p src f
      let y := x.2.lateQueue p src g ts blocked r
      (x.1.toList ++ y.1, y.2)
    else
      let y := s.lateQueue p src g ts blocked r
      (f :: y.1, y.2)

/-- The missed frames of port p turn late: those of the packet engines, and the first of the ring. -/
def State.lateFrames (s : State) (p g ts : Nat) (blocked : Bool) : State :=
  let a := s.lateQueue p 1 g ts blocked (s.port p).pkt
  let s := a.2.modPort p (fun x => { x with pkt := a.1 })
  let b := s.lateQueue p 2 g ts blocked ((s.port p).ring.take 1)
  b.2.modPort p (fun x => { x with ring := b.1 ++ x.ring.drop 1 })

/-- The frames a source offers: of the transmit ring only the first. -/
def State.offered (s : State) (p : Nat) : List (Nat × TxFrame) :=
  let x := s.port p
  (x.esmc.take 1).map (fun f => (0, f)) ++ x.pkt.map (fun f => (1, f)) ++ (x.ring.take 1).map (fun f => (2, f))

/-- Length of a frame that would start now. -/
def State.bodyLen (s : State) (p ts : Nat) (f : TxFrame) : Nat := (s.txBytes (s.portBase p) ts f.body).length

/-- A frame that waits for its launch start position. -/
def timed (f : TxFrame) : Bool := f.launch.isSome && !f.late

/-- The start position of a launch time `l` as the grid of step `g` stands at TX timestamp `ts`, where alignment markers will occupy `run` positions
after `marker` of them (R272). -/
def startAt (g ts marker run l : Nat) : Nat :=
  let k := if l ≤ ts then 0 else (l - ts + g - 1) / g
  ts + (if marker ≤ k ∧ k < marker + run then marker + run else k) * g

/-- The frame the arbiter starts at TX timestamp `ts` (R273): a launch-timed frame whose start position this is, of the lowest source and there
of the earliest launch time; otherwise the first ready frame, of the lowest source, that ends with its gap before the start position of every
launch-timed frame. -/
def State.arbiter (s : State) (p ts marker run : Nat) : Option (Nat × TxFrame) :=
  let os := s.offered p
  let come := os.filter (fun x => timed x.2 && decide (x.2.launch.getD 0 ≤ ts))
  let first := come.foldl (fun (b : Option (Nat × TxFrame)) x => match b with
    | none => some x
    | some y => if x.1 = y.1 ∧ x.2.launch.getD 0 < y.2.launch.getD 0 then some x else b) none
  match first with
  | some x => some x
  | none =>
    let ahead := (os.filter (fun x => timed x.2)).map (fun x => startAt (s.gridStep p) ts marker run (x.2.launch.getD 0))
    os.find? (fun x => !timed x.2 && ahead.all (fun l => decide (ts + s.frameTime p (s.bodyLen p ts x.2) < l)))

/-- The first occurrence of a frame removed from a queue. -/
def dropFrame (f : TxFrame) : List TxFrame → List TxFrame
  | [] => []
  | x :: r => if x = f then r else x :: dropFrame f r

/-- Port p starts a frame of source `src` at TX timestamp `ts` (R273): the fields of its launch tick take their values. -/
def State.txBegin (s : State) (p : Fin 16) (src ts : Nat) (fec : Int) (f : TxFrame) : State :=
  let l := s.txBytes (s.portBase p) ts f.body
  let icv := match f.body with
    | .ptp _ _ _ (some _) => true
    | _ => false
  let bl := match f.body with
    | .ptp _ _ b _ => b
    | _ => false
  let mark := f.mark.map (fun m => { m with p := if m.typ = 2 ∨ m.typ = 4 then (if bl then (s.rd (bndOff (s.portBase p))).toNat else 0) else m.p })
  let s := if icv then s.tallyAdd 0xC5 1 else s
  let s := s.modUnit (.lane ⟨p.val, by omega⟩) (fun t => { t with stampTx := {} })
  s.modPort p (fun x => { x with
    esmc := if src = 0 then x.esmc.drop 1 else x.esmc
    pkt := if src = 1 then dropFrame f x.pkt else x.pkt
    ring := if src = 2 then x.ring.drop 1 else x.ring
    cur := some (src, { f with body := .raw l, mark := mark, fec := fec }) })

/-- TX_FRAME_START (R258, R266, R272-R274): the medium is free at start position `pos`, before which an alignment marker occupied `skip` positions.
A launch-timed frame that starts takes its position from the others. `bad`: which of the write-backs due meets a PCIe error. -/
def execTxFrameStart (p : Fin 16) (pos : TxPos) (skip : Fin 21) (bad : Option Nat) (s : State) : Out :=
  if s.portSt p ≠ pUP ∨ (s.port p).cur.isSome then .next s
  else
    let o := macOff p
    let fec := s.startDelay p true pos.fec
    let ts := s.txTime p (s.tbTime (s.portBase p) + pos.off.val * 2 ^ 24) fec
    let blocked := s.b (o + 4) 28 || s.b (o + 4) 27 || s.b (o + 4) 26
    let g := s.gridStep p * (1 + if s.isGroup p then skip.val else 0)
    let s := s.lateFrames p g ts blocked
    if blocked then .next (s.txFlush p bad).serveDue
    else match s.arbiter p ts pos.marker (if s.isGroup p then pos.run.val else 0) with
      | none => .next (s.txFlush p bad).serveDue
      | some (src, f) =>
        let s := s.txBegin p src ts fec f
        .next ((if timed f then s.lateFrames p g ts true else s).txFlush p bad).serveDue

/-- What a frame that has left counts (R278, R411): port p, its length with FCS, and the source it came from. -/
def State.txCounts (s : State) (p src n : Nat) (f : TxFrame) : State :=
  let s := (((s.macCount p 12 1).macCount p 13 n).tallyAdd (8 * p + 2) 1).tallyAdd (8 * p + 3) n
  let s := if f.esmc then s.macCount p 17 1 else s
  let s := match f.kind with
    | some c => s.pktCount c 1
    | none => s
  let s := if src = 1 then s.tallyAdd (8 * p + 5) 1 else s
  if f.inFlight then s.flightOut else s

/-- What a message that has left with TX timestamp `ts` records and starts: the history of its slot (R315), the Follow_Up of a two-step Sync
(R291), the t3 of a client's Delay_Req (R309). -/
def State.txRecords (s : State) (p : Nat) (f : TxFrame) (ts : Option Nat) (st : Stamp) : State :=
  let s := match f.mark with
    | some m => if s.slotUsed m.slot then s.slotHist m f.late else s
    | none => s
  let s := match f.follow, ts with
    | some fu, some t => s.followUp p fu t st
    | _, _ => s
  match f.client, ts with
  | some (k, q), some t => s.cliSent k q t
  | _, _ => s

/-- TX_FRAME_END (R264, R268): the frame in transmission has left, padded and with its FCS; its timestamp is the last TX event of the port's lane
unit, and that of a frame which started on its launch time the launch time (R291). `bad`: which of the write-backs due meets a PCIe error (R265). -/
def execTxFrameEnd (p : Fin 16) (bad : Option Nat) (s : State) : Out :=
  match (s.port p).cur with
  | none => .next s
  | some (src, f) =>
    let st := (s.unit (.lane ⟨p.val, by omega⟩)).stampTx
    let t := s.txTime p st.t f.fec
    let ts := if st.bluta = [] then none else some (if f.onGrid && !f.late then f.launch.getD t else t)
    let l := match f.body with
      | .raw l => l
      | _ => []
    let l := padTo (max 60 l.length) l
    let s := (s.modPort p (fun x => { x with cur := none })).emit (.frame p (l ++ leBytes 4 (crc32 l)) (ts.getD 0))
    let s := (s.txCounts p src (l.length + 4) f).txRecords p f ts st
    .next ((s.txOwe p f ts st.p (1 + if f.late then 2 else 0)).txFlush p bad).serveDue

/-- The launch time of a frame has passed at base time `now`, 2^-16 ns, while its port was not UP (R274). -/
def launchGone (now : Nat) (f : TxFrame) : Bool := !f.upPast && f.launch.any (fun l => decide (l ≤ now))

/-- LAUNCH_PASSED_NOT_UP (R274): launch-timed frames whose launch time passes while the port is not UP are dropped with cause 2, late ones
too. -/
def execLaunchPassedNotUp (p : Fin 16) (bad : Option Nat) (s : State) : Out :=
  if s.portSt p = pUP then .next s
  else
    let gone := launchGone (s.tbTime (s.portBase p) / 2 ^ 24)
    let x := s.port p
    let s := s.modPort p (fun x => { x with pkt := x.pkt.filter (fun f => !gone f), ring := x.ring.filter (fun f => !gone f) })
    .next ((((x.pkt ++ x.ring).filter gone).foldl (fun s f => s.txDrop p f 2) s).txFlush p bad).serveDue

/-! ### Configuration writes -/

/-- A write to MAC_Pp_CTL: MAX_LEN from 64 to 9,600. -/
def State.wMacCtl (s : State) (p : Nat) (v : Word) : State :=
  if v.field 13 0 < 64 ∨ 9600 < v.field 13 0 then s.cfgBad .mac (macOff p) else (s.rwStore (macOff p) v).portEval p

/-- A ring size is a power of two from 16 to 65,536. -/
def ringSizeOk (n : Nat) : Bool := (List.range 13).any (fun k => decide (n = 2 ^ (k + 4)))

/-- A write to the register at `r` of port p's window without a meaning of its own. -/
def State.wMacReg (s : State) (p r : Nat) (v : Word) : State :=
  let o := macOff p
  let bad := s.cfgBad .mac (o + r)
  if (r = 0x80 ∨ r = 0x84 ∨ r = 0x88) ∧ s.b (o + 0x94) 31 then bad
  else if (r = 0xA0 ∨ r = 0xA4 ∨ r = 0xA8) ∧ s.b (o + 0xB4) 31 then bad
  else if (r = 0x88 ∨ r = 0xA8) ∧ !ringSizeOk (v.field 16 0) then bad
  else if r = 0x10 ∧ v.field 31 24 = 0 then bad
  else s.rwStore (o + r) v

end Sys2Proof.Machine
end

