-- ==== Sys2Proof/Machine/KeyBase.lean ====
section
/-! DEFINITION. Shared operations of the key store (13 R333-R348): slots of the Chest, commits, the DRBG. -/
namespace Sys2Proof.Machine

/-- The key record changed by `g`. -/
def State.modKeys (s : State) (g : Keys → Keys) : State := { s with keys := g s.keys }

/-- The DRBG runs (KEY_STAT.DRBG_OK). -/
def State.drbgOk (s : State) : Bool := s.b 0x02400010 2

/-- KEY_STAT.ROOT reads VALID. -/
def State.rootValid (s : State) : Bool := decide (s.f 0x02400010 1 0 = 1)

/-- TYPE of a Chest slot (R342). -/
def slotType (i : Nat) : Nat := if i < 4 then 1 else if i = 4 then 2 else if i = 5 then 3 else 4

/-- Bytes of a group of registers (byte 4i + j in bits [8j + 7:8j] of word i). -/
def State.regBytes (s : State) (o n : Nat) : List Byte := (List.range n).flatMap (fun i => leBytes 4 (s.rd (o + 4 * i)).toNat)

/-- A group of registers set from bytes. -/
def State.setRegBytes (s : State) (o : Nat) (l : List Byte) : State :=
  (List.range (l.length / 4)).foldl (fun s i => s.wrN (o + 4 * i) (leNat (slice l (4 * i) 4))) s

/-- The update engine commits a value to a slot (R343): the copy that ACTIVE does not name, then the commit word. A fault of the slot
clears (R342). -/
def State.chestCommit (s : State) (i : Nat) (v : BitVec 256) : State :=
  match s.keys.derived with
  | none => s
  | some (_, _, mask) =>
    let toB := s.slotActive i = 1
    let x := v ^^^ mask
    let s := s.modKeys (fun k => { k with
      copyA := if toB then k.copyA else listMod k.copyA i (fun _ => x)
      copyB := if toB then listMod k.copyB i (fun _ => x) else k.copyB
      bad := k.bad.filter (· ≠ i) })
    (s.setF (slotOff i) 27 26 (if toB then 2 else 1)).count (slotOff i) 15 0 1

/-- A slot is erased (R343). -/
def State.chestErase (s : State) (i : Nat) : State :=
  let s := s.modKeys (fun k => { k with
    copyA := listMod k.copyA i (fun _ => 0), copyB := listMod k.copyB i (fun _ => 0), bad := k.bad.filter (· ≠ i) })
  (s.setF (slotOff i) 27 26 0).count (slotOff i) 15 0 1

/-- Every slot's copies and commit words are cleared (R350). -/
def State.chestClear (s : State) : State :=
  let s := s.modKeys (fun k => { k with copyA := List.replicate 64 0, copyB := List.replicate 64 0, bad := [] })
  (List.range 64).foldl (fun s i => (s.setF (slotOff i) 27 26 0).setF (slotOff i) 15 0 0) s

/-- ASCII bytes. -/
def ascii (s : String) : List Byte := s.toList.map (fun c => BitVec.ofNat 8 c.toNat)

/-! ### The owner row (R432, R434) -/

/-- State of the owner row (R434): 0 BLANK, 1 PRESENT, 2 DAMAGED. -/
def Img.ownerRow (m : Img) : Nat :=
  if m.ownerHash = 0 ∧ m.ownerComp = 0 ∧ m.ownerBits = 0 then 0
  else if m.ownerBits.getLsbD 0 ∧ m.ownerComp = ~~~m.ownerHash ∧ m.ownerBits.toNat / 8 = 0 then 1
  else 2

/-- REQUIRE is in force when either of its bits is burned (R434). -/
def Img.require (m : Img) : Bool := m.ownerBits.getLsbD 1 || m.ownerBits.getLsbD 2

/-- The first 32 bytes of SHA-512 over a public key (R432). -/
def keyHash (k : BitVec 256) : BitVec 256 := (Config.sha512 (leBytes 32 k.toNat)).setWidth 256

/-- An owner public key matches the owner row (R432). -/
def Img.ownerMatches (m : Img) (k : BitVec 256) : Bool := decide (k ≠ 0) && decide (m.ownerRow = 1) && decide (keyHash k = m.ownerHash)

/-- The owner key of DISARM: OWNER_PUB of the loaded image, when it matches the row (R434). -/
def Img.ownerKey (m : Img) : Option (BitVec 256) := if m.ownerMatches m.pub then some m.pub else none

end Sys2Proof.Machine
end

