-- ==== Sys2Proof/Machine/LaneBase.lean ====
section
/-! DEFINITION. Lane states (09 R240): the one operation that moves a lane, with what entering and leaving a state does, and the
TEST and PRBS fields that the tandem unit shares (R249). -/
namespace Sys2Proof.Machine

/-- Lane states (LAN_Lm_STAT.STATE). -/
def lOFF : Nat := 0
def lWAIT : Nat := 1
def lCDR : Nat := 2
def lTRAIN : Nat := 3
def lALIGN : Nat := 4
def lLOCKED : Nat := 5
def lLP : Nat := 6
def lLPEXIT : Nat := 7
def lFAIL : Nat := 8

/-- State of lane m. -/
def State.laneSt (s : State) (m : Nat) : Nat := s.f (lanOff m + 4) 31 28
/-- Mode of lane m (R237). -/
def State.laneMode (s : State) (m : Nat) : Nat := s.f (lanOff m) 3 0
/-- Lane m is in the structure and its domain is on. -/
def State.laneThere (s : State) (m : Nat) : Bool := s.b 0x02000000 m && s.domOn (if m < 16 then 7 else 9)

/-- Bit m of LAN_LOCK_CHG sets (R463). -/
def State.lockChg (s : State) (m : Nat) : State := (s.setB 0x02000018 m true).irq .lan 0

/-! ### Bits on the line (R239, R247-R251) -/

/-- Counts of lane m. -/
def State.lane (s : State) (m : Nat) : LaneRt := s.lanes.getD m {}

/-- Counts of lane m changed by `g`. -/
def State.modLane (s : State) (m : Nat) (g : LaneRt → LaneRt) : State := { s with lanes := listMod s.lanes m g }

/-- Line rate of lane m, bit/s (R237, R239). -/
def State.laneRate (s : State) (m : Nat) : Nat :=
  if m < 16 ∧ s.b (lanOff m) 27 ∧ s.b (lanOff m) 26 then 28125000000
  else match s.laneMode m with
    | 0 | 1 => 1250000000
    | 2 => 10312500000
    | 3 | 4 => 25781250000
    | _ => 6250000000

/-- Bits at a line rate up to a spine tick. -/
def bitsAt (rate tick : Nat) : Nat := tick * rate / 2000000000

/-- Whether the generator of lane m drives its transmitter (R249; 09, lane states). -/
def State.genOn (s : State) (m : Nat) : Bool :=
  s.b (lanOff m) 27 && s.b (lanOff m + 0x24) 31 && decide (s.laneSt m = lCDR ∨ s.laneSt m = lLOCKED)

/-- The transmit clock of lane m now, 2^-40 ns since start-up (R275): how far its base has run, its steps apart; an OFFSET base runs with its master. -/
def State.txClock (s : State) (m : Nat) : Nat :=
  let n := s.laneBase m
  (s.base (if s.tbYoked n && !s.tbRatio n then s.tbMaster n else n)).osc

/-- Bits that lane m transmits up to a point of its clock. -/
def State.txBits (s : State) (m t : Nat) : Nat := t * s.laneRate m / secU

/-- Bits the generator of lane m has sent until now. -/
def State.genNow (s : State) (m : Nat) : Nat :=
  (s.lane m).genBits + (s.txBits m (s.txClock m) - s.txBits m (s.lane m).genAt)

/-- The errors of rate injection up to now are counted (R250): one at every whole multiple of 2^k bits. -/
def State.genCount (s : State) (m : Nat) : State :=
  if s.genOn m then
    let k := s.f (lanOff m + 0x24) 21 16
    let n := s.genNow m
    let inj := if k = 0 then 0 else n / 2 ^ k - (s.lane m).genBits / 2 ^ k
    (s.countSat (lanOff m + 0x34) 31 0 inj).modLane m (fun x => { x with genBits := n, genAt := s.txClock m })
  else s

/-- The generator of lane m, which did not run in `s0`, starts its sequence where it runs in `s`. -/
def State.genStart (s0 s : State) (m : Nat) : State :=
  if s.genOn m && !s0.genOn m then s.modLane m (fun x => { x with genBits := 0, genAt := s.txClock m, injs := [] }) else s

/-- The polynomial x^n + x^k + 1 of a pattern (R247). -/
def prbsPoly (p : Nat) : Nat × Nat := [(7, 6), (9, 5), (15, 14), (23, 18), (31, 28)].getD p (31, 28)

/-- The last `n` bits of a sequence, oldest first, after `i` more bits: each is the sum of the bits `n` and `k` before it (R247). -/
def prbsRun (n k : Nat) : Nat → List Bool → List Bool
  | 0, w => w
  | i + 1, w => prbsRun n k i (w.drop 1 ++ [(w.getD 0 false) ^^ (w.getD (n - k) false)])

/-- Bit `i` that the transmitter of a lane in TEST sends (R247, R249, R250): the generator's, with the injected errors; a repeating 0b0101 pattern
while GEN_EN is 0. The single injections of a 64-bit word invert its first bits, one each (DESIGN CHOICE, log entry 47). -/
def State.testBit (s : State) (m i : Nat) : Bool :=
  if !s.genOn m then decide (i % 2 = 1)
  else
    let p := s.f (lanOff m + 0x24) 26 24
    let k := s.f (lanOff m + 0x24) 21 16
    let q := prbsPoly p
    let seed := (List.range q.1).map (fun j => (Config.prbsSeed m).getLsbD j)
    let x := if p = 5 then decide (i / 8 % 2 = 0) else (prbsRun q.1 q.2 i seed).getD 0 false
    let inj := (decide (k ≠ 0) && decide (0 < i) && decide (i % 2 ^ k = 0)) || decide (i % 64 < ((s.lane m).injs.filter (fun w => decide (w = i / 64))).length)
    x ^^ inj

/-- Bits checked up to now are counted, while the checker is locked (R248, R251). -/
def State.chkCount (s : State) (m : Nat) : State :=
  let n := bitsAt (s.laneRate m) s.spn.ticks - bitsAt (s.laneRate m) (s.lane m).chkTick
  let d := if s.b (lanOff m + 0x38) 0 then n else 0
  s.modLane m (fun x => { x with bitsP := x.bitsP + d, bitsI := x.bitsI + d, bitsT := x.bitsT + d, fresh := x.fresh + d, chkTick := s.spn.ticks })

/-- The line says how many errors it has brought since it last did: those of the bits checked since then count, no more than there were
(R248). Where an access does not say it, the number is a free value (log entry 3). -/
def State.prbsErrs (s : State) (m : Nat) (errs : Option Nat) : State :=
  let s := s.chkCount m
  let f := s.takeFree 64
  let r := match errs with
    | some e => (e, s)
    | none => (f.1, f.2)
  r.2.modLane m (fun x =>
    let e := min r.1 x.fresh
    { x with errP := x.errP + e, errI := x.errI + e, errT := x.errT + e, fresh := 0 })

/-- The checker of lane m is not locked any more. -/
def State.chkStop (s : State) (m : Nat) : State := (s.chkCount m).setB (lanOff m + 0x38) 0 false

/-- Whether the last 64 of received bits are what the bits before them predict (R248). -/
def prbsPredicted (n k : Nat) (rx : List Bool) : Bool :=
  let l := rx.drop (rx.length - (n + 64))
  decide (n + 64 ≤ rx.length) && (List.range 64).all (fun i => l.getD (n + i) false == ((l.getD i false) ^^ (l.getD (n + i - k) false)))

/-- Set bits of a word. -/
def popCount (w : Nat) : Nat := ((List.range 64).filter (fun i => w.testBit i)).length

/-- Whether the checker of lane m can hold lock: TEST, CHK_EN and a checked pattern (R248, R249). -/
def State.chkRuns (s : State) (m : Nat) : Bool :=
  s.b (lanOff m) 27 && s.b (lanOff m + 0x24) 30 && decide (s.f (lanOff m + 0x24) 26 24 < 5)

/-- A running scan point stops (R246): EYE_ERR holds the mismatches counted until then. A host write that stops it does not say how many
they are: then they are a free value, no more than the bits compared (log entry 3). -/
def State.eyeAbort (s : State) (m : Nat) : State :=
  let o := lanOff m
  if s.b (o + 0x44) 0 then
    let n := min (2 ^ (s.f (o + 0x40) 4 0 + 10)) (bitsAt (s.laneRate m) s.spn.ticks - bitsAt (s.laneRate m) (s.lane m).eyeTick)
    let e := s.takeFree 32
    let c := match (s.lane m).eyeCnt with
      | some c => c
      | none => e.1
    let s := (e.2.wrN (o + 0x48) (satAt 0xFFFFFFFF (min n c))).modLane m (fun x => { x with eyeCnt := none })
    (((s.setB (o + 0x44) 0 false).setB (o + 0x44) 2 true).raise Flt.lanEyeAbort m).irq .lan 3
  else s

/-- What a lane that leaves LOCKED does (R240, R252): the exit counts, its FREQ source fails, its candidate and its port take the
loss. -/
def State.laneLeft (s s0 : State) (m : Nat) : State :=
  let s := ((s.countSat (lanOff m + 0x14) 15 0 1).lockChg m).chkStop m
  if h : m < 18 then
    let s := s.unitSrcFail (.lane ⟨m, h⟩)
    if m < 16 then (s.candRound s0 [8 + m]).portEval (s.portOf m) else s
  else s

/-- The STAT bits of a lane in a state: PLL_LOCK from CDR on, SIG_DET and CDR_LOCK from TRAIN on, ALIGN in LOCKED out of TEST. -/
def State.laneBits (s : State) (m st : Nat) : State :=
  let o := lanOff m + 4
  let on := decide (2 ≤ st ∧ st ≤ 5)
  let rx := decide (3 ≤ st ∧ st ≤ 5)
  (((s.setB o 0 rx).setB o 1 on).setB o 2 rx).setB o 3 (decide (st = 5) && !s.b (lanOff m) 27)

/-- The coefficients of TXEQ go into force unless the lane trains or is LOCKED (R242). -/
def State.txeqNow (s : State) (m : Nat) : State :=
  let o := lanOff m
  let trains := s.b o 28 && decide (2 ≤ s.laneMode m ∧ s.laneMode m ≤ 4)
  if trains ∨ s.laneSt m = lTRAIN ∨ s.laneSt m = lLOCKED then s else s.wr (o + 0x0C) (s.rd (o + 8))

/-- Lane m goes to state `st` (R240). Training starts from the setting of TXEQ (R242; PRESUMED, log entry 47). -/
def State.laneTo (s0 : State) (m st : Nat) : State :=
  let was := s0.laneSt m
  if was = st then s0
  else
    let s := ((s0.genCount m).setF (lanOff m + 4) 31 28 st).laneBits m st
    let s := s.modLane m (fun x => { x with since := s.spn.ticks, asked := false, ready := false })
    let s := s0.genStart s m
    let s := if (was = lALIGN ∨ was = lLOCKED) ∧ st ≠ lALIGN ∧ st ≠ lLOCKED then s.eyeAbort m else s
    let s := if was = lLOCKED then s.laneLeft s0 m else s
    if st = lCDR then s.txeqNow m else if st = lTRAIN then s.wr (lanOff m + 0x0C) (s.rd (lanOff m + 8)) else s

/-- The rows for LP of the transition table in the round after a transition (R240): a lane whose LP is 1 leaves every state but OFF, LP
and LP_EXIT for LP. -/
def State.laneLp (s : State) (m : Nat) : State :=
  let st := s.laneSt m
  if st ≠ lOFF ∧ st ≠ lLP ∧ st ≠ lLPEXIT ∧ s.b (lanOff m) 29 then s.laneTo m lLP else s

/-- Lane m enters LOCKED with its measured delays (R241); an entry from ALIGN counts (R240). -/
def State.laneLocked (s0 : State) (m : Nat) (rx tx : Word) : State :=
  let o := lanOff m
  let was := s0.laneSt m
  let s := s0.laneTo m lLOCKED
  let s := if was = lALIGN then s.count (o + 0x18) 31 0 1 else s
  let s := (((s.wr (o + 0x1C) rx).wr (o + 0x20) tx).raise Flt.lanLocked m).lockChg m
  let s := if h : m < 18 then s.setB (tiuOff (.lane ⟨m, h⟩) + 8) 1 false else s
  if m < 16 then (s.candRound s0 [8 + m]).portEval (s.portOf m) else s

/-- The transition that a lane's control register asks for after a write that changed it from `old` (R240), the first row that
holds. `restart` is RESTART as written. -/
def State.laneCtl (s : State) (m : Nat) (old : Word) (restart : Bool) : State :=
  let w := s.rd (lanOff m)
  let st := s.laneSt m
  let s1 :=
    if !w.bit 31 || !s.laneThere m then s.laneTo m lOFF
    else if st ≠ lOFF ∧ st ≠ lLP ∧ st ≠ lLPEXIT ∧ w.bit 29 then s.laneTo m lLP
    else if st = lOFF then s.laneTo m lWAIT
    else if st = lLP ∧ !w.bit 29 then s.laneTo m lLPEXIT
    else if st = lFAIL ∧ restart then s.laneTo m lWAIT
    else if (w.bit 27 ≠ old.bit 27 ∨ w.bit 24 ≠ old.bit 24) ∧ 2 ≤ st ∧ st ≤ 5 then s.laneTo m lCDR
    else s
  let s1 := s1.laneLp m
  if m < 16 then s1.portEval (s1.portOf m) else s1

/-- TND sets or clears the spare-lane test of a tandem lane (R366): TEST, GEN_EN and CHK_EN, with PRBS31. -/
def State.tndTest (s : State) (m : Nat) (on : Bool) : State :=
  let old := s.rd (lanOff m)
  if old.bit 27 = on then s
  else
    let s0 := (s.genCount m).chkStop m
    let s := (((s0.setB (lanOff m) 27 on).setB (lanOff m + 0x24) 31 on).setB (lanOff m + 0x24) 30 on).setF (lanOff m + 0x24) 26 24 4
    (s0.genStart s m).laneCtl m old false

end Sys2Proof.Machine
end

