-- ==== Sys2Proof/Machine/Tandem.lean ====
section
/-! DEFINITION. Tandem pairs (14): claims and roles, the Golelaost link and its frames, mirrored state, the spare lane, and the
seconds of the health word. -/
namespace Sys2Proof.Machine

/-- The tandem record changed by `g`. -/
def State.modTnd (s : State) (g : Tnd → Tnd) : State := { s with tnd := g s.tnd }

/-- The unit is unit B (R359: UNIT_ID strap). -/
def State.unitB (s : State) : Bool := s.b 0x00000010 21

/-- Role of the unit (TND_STAT.ROLE): 0 OFF, 1 STANDBY, 2 ACTIVE. -/
def State.role (s : State) : Nat := s.f 0x02500014 31 30

/-! ### Claims (R359-R365) -/

/-- The unit's own transmit path has failed (R363): there is a good frame of the last 5 µs, and each of them reports PEER_FRESH =
0. -/
def State.deaf (s : State) : Bool :=
  let l := s.tnd.heard.filter (fun h => decide (s.spn.ticks ≤ h.1 + 10000))
  !l.isEmpty && l.all (fun h => !h.2)

/-- STAT.OWN_TX_FAIL follows R363; its rise raises TND/CLAIM_OUT_FAIL. -/
def State.deafEval (s : State) : State :=
  let s := s.modTnd (fun t => { t with heard := t.heard.filter (fun h => decide (s.spn.ticks ≤ h.1 + 10000)) })
  let was := s.b 0x02500014 26
  let s' := s.setB 0x02500014 26 s.deaf
  if s.deaf && !was then s'.raise Flt.tndClaimOutFail 0 else s'

/-- The unit's claim as it stands (R360): PRIO, HEALTH and the tiebreak of R359; 0 in the safe state, after a clash, under
R363, or while a block reset of TND lasts (R387). -/
def State.claimNow (s : State) : Nat :=
  if s.safe || s.b 0x02500014 25 || s.b 0x02500014 26 || s.flt.windows.any (fun x => decide (x.1 = 20) && decide (s.spn.ticks < x.2 + resetWindow 20)) then 0
  else s.f 0x02500010 31 24 * 2 ^ 24 + s.f 0x02500014 15 0 * 256 + (if s.unitB then 1 else 2)

/-- The microsecond of the tandem base. -/
def State.tandemUs (s : State) : Nat := s.tbTime s.tandemTb / (1000 * 2 ^ 40)

/-- The own claim for boundary `j`, as it was fixed two boundaries before (R361); 0 where none was. -/
def State.claimFor (s : State) (j : Nat) : Nat :=
  if j = s.tnd.cAt then s.tnd.c0 else if j = s.tnd.cAt + 1 then s.tnd.c1 else if j = s.tnd.cAt + 2 then s.tnd.c2 else 0

/-- The shared stages drive now (R361, R364): ACTIVE, and 20 ns have passed since its boundary. -/
def State.driving (s : State) : Bool := decide (s.role = 2) && decide (s.tnd.driveFrom ≤ ((s.spn.ticks * nominalInc : Nat) : Int))

/-- INDEX to C2 of a claim frame (R361) at boundary `k`. -/
def State.claimBody (s : State) (k : Nat) : List Byte :=
  let st := (if s.driving then 1 else 0) + (if s.b 0x02500014 28 then 2 else 0) + (if s.unitB then 4 else 0) + (if s.safe then 8 else 0)
  [BitVec.ofNat 8 k, BitVec.ofNat 8 st] ++ beBytes 4 s.tnd.c1 ++ beBytes 4 s.tnd.c2

/-- CLAIM_FRAME_SEND (R361): at a microsecond boundary of the tandem base the claim for the second boundary after it is fixed, and
CLAIM_OUT starts a frame, one for each boundary. -/
def execClaimFrameSend (s : State) : Out :=
  if s.domOn 9 && decide (s.tandemUs ≠ s.tnd.cAt) then
    let s := (s.setB 0x02500014 24 s.safe).healthFall.deafEval
    let k := s.tandemUs
    let s := s.modTnd (fun t => { t with c0 := s.claimFor k, c1 := s.claimFor (k + 1), c2 := s.claimNow, cAt := k })
    let body := s.claimBody k
    .next (s.emit (.claim (body ++ [BitVec.ofNat 8 (crc8 body)])))
  else .next s

/-- A good claim frame (R359, R362, R363). Frames missing between it and the one before it count as lost. -/
def State.claimGood (s : State) (f : ClaimFrame) : State :=
  let unit := if s.unitB then 1 else 0
  let lost := match s.tnd.frames with
    | g :: _ => if s.b 0x02500014 28 then (f.idx + 255 - g.idx % 256) % 256 - s.tnd.crcBad else 0
    | [] => 0
  let s := s.countSat 0x02500038 31 0 lost
  let s := s.modTnd (fun t => { t with
    frames := f :: t.frames.take 1, crcBad := 0, heard := (s.spn.ticks, decide (f.status / 2 % 2 = 1)) :: t.heard })
  let s := (s.setB 0x02500014 28 true).setB 0x02500014 27 (decide (f.status % 2 = 1))
  let s := if f.status / 4 % 2 = unit ∧ !s.b 0x02500014 25 then
      (s.setB 0x02500014 25 true).raise Flt.tndStrapClash unit
    else s
  s.deafEval

/-- CLAIM_FRAME_RECEIVE (R362): a claim frame, INDEX to CRC, has arrived whole. -/
def execClaimFrameReceive (bytes : List Byte) (s : State) : Out :=
  if !s.domOn 9 then .next s
  else if bytes.length = 11 ∧ crc8 (bytes.take 10) = byteAt bytes 10 then
    .next (s.claimGood ⟨byteAt bytes 0, byteAt bytes 1, beAt bytes 2 4, beAt bytes 6 4⟩)
  else .next ((s.countSat 0x02500038 31 0 1).modTnd (fun t => { t with crcBad := t.crcBad + 1 }))

/-- The peer's claim for boundary `j` (R362, R364): unknown in the first 5 µs, 0 when stale, else from frame j - 1 or j - 2. -/
def State.peerClaim (s : State) (j : Nat) : Option Nat :=
  if s.tnd.holdoff then none
  else if !s.b 0x02500014 28 then some 0
  else match s.tnd.frames.find? (fun f => f.idx = (j + 255) % 256) with
    | some f => some f.c1
    | none => (s.tnd.frames.find? (fun f => f.idx = (j + 254) % 256)).map (·.c2)

/-- The role changes (R365): all shared stages switch together; candidate 25 and the bound score follow (R372, R374). -/
def State.setRole (s0 : State) (r : Nat) : State :=
  let s := (s0.setF 0x02500014 31 30 r).count 0x02500084 31 0 1
  let s := s.raise (if r = 2 then Flt.tndRoleActive else Flt.tndRoleStandby) (s.rd 0x02500034).toNat
  ((s.irq .tnd 0).candRound s0 [25]).tndAlign.healthFall

/-- CLAIM_BOUNDARY (R364): the own claim and the peer's for boundary j are compared, once. A driving unit that does not win releases; a
unit that wins and is not driving starts, aligned, or once the peer does not drive or is not fresh. -/
def execClaimBoundary (s : State) : Out :=
  let j := s.tandemUs
  if !s.domOn 9 || decide (s.tnd.cmpAt = some j) then .next s
  else
    let own := s.claimFor j
    let s := (s.modTnd (fun t => { t with cmpAt := some j })).wrN 0x02500030 own
    match s.peerClaim (j % 256) with
    | none => .next s
    | some peer =>
      let s := s.wrN 0x02500034 peer
      let wins := decide (own ≠ 0 ∧ peer < own)
      if s.role = 2 then .next (if wins then s else s.setRole 1)
      else if wins && (s.b 0x02500014 29 || !s.b 0x02500014 28 || !s.b 0x02500014 27) then .next (s.setRole 2 |>.modTnd (fun t => { t with driveFrom := s.spineAt s.tandemTb (j * (1000 * 2 ^ 40)) + 20 * 2 ^ 40 }))
      else .next s

/-- PEER_STALE (R362): no good frame for 5 µs. -/
def execPeerStale (s : State) : Out :=
  if s.domOn 9 && s.b 0x02500014 28 && !s.tnd.heard.any (fun h => decide (s.spn.ticks ≤ h.1 + 10000)) then
    let s := (s.setB 0x02500014 28 false).modTnd (fun t => { t with frames := [], heard := [], crcBad := 0 })
    let s := (s.raise Flt.tndPeerStale (s.rd 0x02500034).toNat).irq .tnd 2
    .next (s.wrN 0x02500034 0).deafEval
  else .next s

/-- CLAIM_HOLDOFF_END (R362): 5 µs after PD9 powered up. -/
def execClaimHoldoffEnd (s : State) : Out :=
  .next (if s.tnd.upTick + 10000 ≤ s.spn.ticks then s.modTnd (fun t => { t with holdoff := false }) else s)

/-! ### Peer time signals (R358) -/

/-- The level of TPPS_OUT now: high for 1 µs from each second of the tandem base; none while PD9 is off. -/
def State.tppsOut (s : State) : Option Bool :=
  if s.domOn 9 then some (decide (s.tbTime s.tandemTb % secU < 1000 * 2 ^ 40)) else none

/-- The level of T10M_OUT now: high for the first 50 ns of each 100 ns of the tandem base; none while PD9 is off. -/
def State.t10mOut (s : State) : Option Bool :=
  if s.domOn 9 then some (decide (s.tbTime s.tandemTb % (100 * 2 ^ 40) < 50 * 2 ^ 40)) else none

/-! ### The link (R366-R370) -/

/-- Link states (TND_LINK_STAT.STATE). -/
def kOFF : Nat := 0
def kDOWN : Nat := 1
def kNOKEY : Nat := 2
def kHELLO : Nat := 3
def kPAIRED : Nat := 4

/-- State of the link, its carrying lane, and the state of tandem lane x. -/
def State.linkSt (s : State) : Nat := s.f 0x02500018 31 28
def State.carry (s : State) : Nat := s.f 0x02500018 26 26
def State.tLane (s : State) (x : Nat) : Nat := s.laneSt (16 + x)

/-- Pair key of Chest slot 5 (R369). -/
def State.pairKey (s : State) : Option (BitVec 256) := s.chestKey 5

/-- The hello key (R369). -/
def State.helloKey (s : State) : List Byte :=
  match s.pairKey with
  | some k => (leBytes 32 (Config.hkdf [] (leBytes 32 k.toNat) (ascii "GOLELAOST-HELLO")).toNat).take 16
  | none => []

/-- The 48 bytes of PAIRED (R369): MAC_K and KEK, salted with unit A's nonce and unit B's. -/
def State.pairKeys (s : State) : List Byte × BitVec 256 :=
  match s.pairKey, s.tnd.peerNonce with
  | some k, some p =>
    let own := beBytes 16 s.tnd.nonce
    let salt := if s.unitB then beBytes 16 p ++ own else own ++ beBytes 16 p
    let m := leBytes 48 (Config.hkdf48 salt (leBytes 32 k.toNat) (ascii "GOLELAOST")).toNat
    (m.take 16, BitVec.ofNat 256 (leNat (m.drop 16)))
  | _, _ => ([], 0)

/-- The MAC keys a received frame of a type may carry (R369): the hello key for HELLO; otherwise MAC_K when PAIRED, and before that
the hello key, or MAC_K once the peer's nonce is known (log entry 13). -/
def State.rxKeys (s : State) (typ : Nat) : List (List Byte) :=
  if typ = 1 then [s.helloKey]
  else if s.linkSt = kPAIRED then [s.tnd.macK]
  else if s.tnd.peerNonce.isSome then [s.helloKey, s.pairKeys.1]
  else [s.helloKey]

/-- First 8 bytes of the AES-128-CMAC of a frame. -/
def linkMac (key body : List Byte) : List Byte := (beBytes 16 (Config.cmac key body).toNat).take 8

/-- The bytes of a link frame (14, link frame): header, payload, MAC and CRC-32C. -/
def State.linkBytes (s : State) (f : LinkFrame) : List Byte :=
  let flags := (if s.tnd.rxSeq.isSome then 1 else 0) + (if f.resends = 0 then 0 else 2)
  let ack := match s.tnd.rxSeq with
    | some n => (n + 65535) % 65536
    | none => 0
  let body := [BitVec.ofNat 8 f.typ, BitVec.ofNat 8 flags] ++ beBytes 2 f.seq ++ beBytes 2 ack ++ beBytes 2 f.payload.length ++ f.payload
  let m := body ++ linkMac (if f.typ = 1 ∨ s.linkSt ≠ kPAIRED then s.helloKey else s.tnd.macK) body
  m ++ beBytes 4 (crc32c m)

/-- A frame goes out on the carrying lane, unless the unit waits for the lane (R366, R367). -/
def State.linkEmit (s : State) (f : LinkFrame) : State :=
  if s.tnd.hold || s.tnd.relock then s else s.emit (.link s.carry (s.linkBytes f))

/-- Frames that wait are sent afresh, from the oldest (R367). -/
def State.linkAfresh (s : State) : State :=
  let s := s.modTnd (fun t => { t with unacked := t.unacked.map (fun f => { f with resends := 0, sent := s.spn.ticks, slot := 0 }) })
  s.tnd.unacked.foldl State.linkEmit s

/-- A frame is sent and kept until an ACK covers it; an ACK frame takes the SEQ of the next frame and is not kept (log entry 13). -/
def State.linkSend (s : State) (typ : Nat) (payload : List Byte) : State :=
  let f : LinkFrame := { seq := s.tnd.txSeq, typ := typ, payload := payload, sent := s.spn.ticks }
  let s := s.linkEmit f
  if typ = 7 then s
  else s.modTnd (fun t => { t with txSeq := (t.txSeq + 1) % 65536, unacked := t.unacked ++ [f] })

/-- TND's look at the spare lane begins anew (R366). -/
def State.spareFrom (s : State) : State :=
  let m := 16 + (1 - s.carry)
  ((s.chkCount m).modLane m (fun x => { x with errT := 0, bitsT := 0 })).modTnd (fun t => { t with spareAt := some s.spn.ticks })

/-- The spare lane runs the PRBS31 test, the carrying lane does not (R366). -/
def State.spareTest (s : State) : State := (s.tndTest (16 + s.carry) false).tndTest (16 + (1 - s.carry)) true

/-- The carrying lane becomes `x` (R366): CARRY, TND/LANE_SWAP; the new lane leaves TEST and relocks. -/
def State.laneSwap (s : State) (x : Nat) : State :=
  let s := ((s.setF 0x02500018 26 26 x).setB 0x02500018 25 false).spareTest.spareFrom
  let s := s.modTnd (fun t => { t with relock := decide (s.tLane x ≠ lLOCKED) })
  (((s.raise Flt.tndLaneSwap x).irq .tnd 1)).healthFall

/-- The link goes to `st`, leaving the session (log entry 13): its keys, sequence and frames end with it, and neither lane is a
spare. -/
def State.linkTo (s0 : State) (st : Nat) : State :=
  let s := ((s0.setF 0x02500018 31 28 st).setB 0x02500018 25 false).modTnd (fun t => { t with
    peerNonce := none, macK := [], kek := 0, txSeq := 0, rxSeq := none, unacked := [], helloSeen := false, helloAcked := false
    hold := false, relock := false, twoway := none, twowayOk := false, xchkBad := false, peers := List.replicate 4 {}
    helloAt := none, beatAt := none, spareAt := none, timeSec := none, stateSec := none, askSec := none
    timeTick := none, ppsRes := { count := t.ppsRes.count }, edgeWait := none, keyAt := [] })
  let s := (s.tndTest 16 false).tndTest 17 false
  ((s.irq .tnd 1).candRound s0 [25]).tndAlign.healthFall

/-- The link goes DOWN out of HELLO or PAIRED: TND/LINK_DOWN with the state left. -/
def State.linkDown (s : State) : State := (s.linkTo kDOWN).raise Flt.tndLinkDown s.linkSt

/-- The link enters HELLO (R366): a new nonce from the DRBG; unit A takes the lower-numbered tandem lane that is LOCKED, and the other
one becomes the spare. -/
def State.linkHello (s : State) : State :=
  let n := s.takeFree 128
  let s := (n.2.modTnd (fun t => { t with nonce := n.1, rxAt := s.spn.ticks })).setF 0x02500018 31 28 kHELLO
  let s := s.irq .tnd 1
  if s.unitB then s else (s.setF 0x02500018 26 26 (if s.tLane 0 = lLOCKED then 0 else 1)).spareTest.spareFrom

/-- The link while something else did not happen to it: its lanes, its key, its domain (14, link states; R366). -/
def State.linkEval (s : State) : State :=
  if !s.domOn 9 || !s.b 0x02000000 16 && !s.b 0x02000000 17 then (if s.linkSt = kOFF then s else s.linkTo kOFF)
  else
    let s := if s.linkSt = kOFF then s.linkTo kDOWN else s
    let s := if s.linkSt ≠ kNOKEY ∧ s.pairKey.isNone then s.linkTo kNOKEY
      else if s.linkSt = kNOKEY ∧ s.pairKey.isSome then s.linkTo kDOWN else s
    let up := decide (s.linkSt = kHELLO ∨ s.linkSt = kPAIRED)
    let s :=
      if up && s.tnd.relock then
        if s.tLane s.carry = lLOCKED then (s.modTnd (fun t => { t with relock := false })).linkAfresh else s
      else if up && decide (s.tLane 0 ≠ lLOCKED ∧ s.tLane 1 ≠ lLOCKED) then s.linkDown
      else if up && !s.unitB && decide (s.tLane s.carry ≠ lLOCKED) then
        if s.b 0x02500018 25 then s.laneSwap (1 - s.carry) else s.linkDown
      else s
    if s.linkSt = kDOWN ∧ (s.tLane 0 = lLOCKED ∨ s.tLane 1 = lLOCKED) then s.linkHello else s

/-- A new peer configuration generation (R370): CFG_MATCH, and TND/CFG_MISMATCH once on entry into the mismatch. -/
def State.cfgMatch (s : State) (gen : Nat) : State :=
  let s := s.wrN 0x02500090 gen
  let same := decide (s.rd 0x02500090 = s.rd 0x00000014)
  let s := s.setB 0x02500018 27 same
  if same then s.modTnd (fun t => { t with mismatch := false })
  else if s.tnd.mismatch then s
  else (s.modTnd (fun t => { t with mismatch := true })).raise Flt.tndCfgMismatch gen

/-- An acknowledgement of `ack` and every SEQ before it (R367): a frame that had been resent counts and is reported. -/
def State.linkAcked (s : State) (ack : Nat) : State :=
  let covers := fun (f : LinkFrame) => decide ((ack + 65536 - f.seq) % 65536 < 32768)
  let done := s.tnd.unacked.filter covers
  let s := s.modTnd (fun t => { t with
    unacked := t.unacked.filter (fun f => !covers f), helloAcked := t.helloAcked || done.any (fun f => f.typ = 1) })
  done.foldl (fun s f =>
    if f.resends = 0 then s
    else (s.countSat 0x02500080 31 0 1).raise Flt.tndRetry (min 7 f.resends * 65536 + f.seq)) s

/-- HELLO and its acknowledgement are complete (R369): the keys are derived, TND/PAIRED. -/
def State.linkPair (s0 : State) : State :=
  if s0.linkSt = kHELLO ∧ s0.tnd.helloSeen ∧ s0.tnd.helloAcked then
    let k := s0.pairKeys
    let s := (s0.modTnd (fun t => { t with macK := k.1, kek := k.2 })).setF 0x02500018 31 28 kPAIRED
    (((s.raise Flt.tndPaired (s.rd 0x02500090).toNat).irq .tnd 1).candRound s0 [25]).healthFall
  else s0

/-! ### Frames by type -/

/-- HELLO (R369): the other unit's nonce and configuration generation. -/
def State.rxHello (s : State) (p : List Byte) : State :=
  if p.length = 56 ∧ byteAt p 16 ≠ (if s.unitB then 1 else 0) ∧ s.linkSt = kHELLO then
    (s.modTnd (fun t => { t with helloSeen := true, peerNonce := some (beAt p 0 16) })).cfgMatch (beAt p 20 4)
  else s

/-- TIME (R372): what the peer says of its tandem base, as candidate 25's quality input and uncertainty. -/
def State.rxPeerTime (s0 : State) (p : List Byte) : State :=
  let s := s0.modTnd (fun t => { t with
    timeTick := some s0.spn.ticks, peerSec := beAt p 0 6, peerBound := beAt p 6 4, peerQl := byteAt p 10, peerClass := byteAt p 11, peerRole := byteAt p 12 })
  ((s.wrN 0x02500098 (beAt p 6 4)).qualityIn 25 0).peerResult.candRound s0 [25]

/-- Keys and models may be taken from the peer (R370, R371): STANDBY, MIRROR_EN and CFG_MATCH. -/
def State.mirrors (s : State) : Bool := decide (s.role = 1) && s.b 0x02500010 22 && s.b 0x02500018 27

/-- The standby adopts the peer's model of LOm (R371): its own member is in LEARNING and the peer's is TRAINED. -/
def State.adopt (s : State) (m : Nat) : State :=
  let p := s.tnd.peers.getD m {}
  if s.mirrors && s.b 0x02500010 (12 + m) && decide (s.memState m = 2) && decide (p.st = 3) then
    let s := s.modMember m (fun r => { r with y := p.y * 2 ^ 16, d := p.d, c := p.c, trefFixed := true })
    (((s.setF (memOff m + 0x28) 15 0 p.tref).wrN (memOff m + 8) p.sec).memRejoin m).ensStateEval.carrierEval
  else s

/-- The payload of STATE (14, frame types): base states and bounds, ENS_STAT, member states, shared members, candidates,
configuration generation, health. -/
def State.statePayload (s : State) : List Byte :=
  (List.range 8).flatMap (fun n => beBytes 4 (s.tbState n * 2 ^ 28 + (s.rd (bndOff n)).toNat / 256))
    ++ beBytes 4 (s.rd ensStat).toNat
    ++ (List.range 4).flatMap (fun m => beBytes 4 (s.rd (memOff m + 4)).toNat)
    ++ (List.range 4).flatMap (fun m =>
      let r := s.member m
      if s.b 0x02500010 (12 + m) then
        beBytes 6 (wrapTo 48 (r.y / 2 ^ 16)) ++ beBytes 4 (wrapTo 32 r.d) ++ beBytes 4 (wrapTo 32 r.c)
          ++ beBytes 2 (s.f (memOff m + 0x28) 15 0) ++ beBytes 4 (s.rd (memOff m + 8)).toNat
      else List.replicate 20 0)
    ++ (List.range 30).flatMap (fun c => [BitVec.ofNat 8 (s.candState c), BitVec.ofNat 8 (s.f (cStat c) 19 16)])
    ++ beBytes 4 (s.rd 0x00000014).toNat ++ beBytes 2 (s.f 0x02500014 15 0)

/-- STATE (R371): the peer registers, the shared members, and the models the standby adopts. -/
def State.rxState (s : State) (p : List Byte) : State :=
  let st := (List.range 8).foldl (fun a n => a + byteAt p (4 * n) / 16 * 16 ^ n) 0
  let s := (s.wrN 0x02500094 st).setF 0x0250009C 15 0 (beAt p 196 2)
  let peers := (List.range 4).map (fun m =>
    let o := 52 + 20 * m
    ({ st := byteAt p (39 + 4 * m) % 16, y := signedOf 48 (beAt p o 6), d := signedOf 32 (beAt p (o + 6) 4)
       c := signedOf 32 (beAt p (o + 10) 4), tref := beAt p (o + 14) 2, sec := beAt p (o + 16) 4 } : PeerMember))
  let s := (s.modTnd (fun t => { t with peers := peers })).cfgMatch (beAt p 192 4)
  ([0, 1, 2, 3].foldl State.adopt s).healthFall

/-- TND/KEY_MIRROR_FAIL (R371). -/
def State.mirrorFail (s : State) (i : Nat) (used : Bool) : State :=
  (s.raise Flt.tndKeyMirrorFail (i + if used then 256 else 0)).irq .tnd 4

/-- Chest slots that are mirrored (R371): 0 to 3, and the WRAP slots. -/
def mirrored (i : Nat) : Bool := decide (i < 4) || decide (6 ≤ i)

/-- KEYS (R371): the standby commits a key that differs from its own, or erases a slot whose presence differs. -/
def State.rxMirror (s : State) (p : List Byte) : State :=
  let i := byteAt p 0 % 64
  if !s.mirrors || !mirrored i then s
  else if byteAt p 1 = 0 then
    if s.slotActive i = 0 then s
    else if i < 4 ∧ s.ringState i ≠ 0 then s.mirrorFail i true
    else s.chestErase i
  else match Config.aesUnwrap s.tnd.kek (slice p 4 40) with
    | none => s.mirrorFail i false
    | some k => if s.chestKey i = some (BitVec.ofNat 256 (leNat k)) then s else s.chestCommit i (BitVec.ofNat 256 (leNat k))

/-- A time of 2^-16 ns as 12 bytes, the words of R63 in network order, and back. -/
def time12Bytes (t : Nat) : List Byte :=
  let w := timeWords (t * 2 ^ 24)
  beBytes 4 w.1.toNat ++ beBytes 4 w.2.1.toNat ++ beBytes 4 w.2.2.toNat
def time12 (l : List Byte) : Int :=
  (timeOfWords (BitVec.ofNat 32 (beAt l 0 4)) (BitVec.ofNat 32 (beAt l 4 4)) (BitVec.ofNat 32 (beAt l 8 4)) / 2 ^ 24 : Nat)

/-- The offset of an answered exchange (R372): ((t2 - t1) - (t4 - t3)) / 2 - TND_LINK_ASYM; under C25_SRC = TWOWAY it is a result
of candidate 25 with N = 1, timed by the unit of the lane that brought the answer, at its arrival t4. -/
def State.twowayResult (s0 : State) (lane : Fin 18) (t1 t2 t3 t4 : Int) : State :=
  let ofs := ((t2 - t1) - (t4 - t3)) / 2 - signedOf 32 (s0.rd 0x02500050).toNat
  let s := (s0.wrS64 0x02500078 ofs).modTnd (fun t => { t with twowayOk := true })
  let s :=
    if s.c25Src = 1 then
      let b := s.tandemTb
      let cap := (s.unit (.lane lane)).stampRx.cap
      let diff := (List.range 8).map (fun j => ((cap.times.getD j 0 : Int) - cap.times.getD b 0) / 2 ^ 24)
      let old := s.srcRes.getD 1 {}
      let r : CandRes := { count := old.count + 1, mean := ofs, meanIn := diff.map (· + ofs), time := t4, timeIn := diff.map (· + t4)
                           ticks := cap.ticks, phase := cap.phase, restart := decide (old.count = 0), n := 1, sd := 0, lo := ofs, hi := ofs, sys := s.unitSys (.lane lane)
                           unc := s.tnd.peerBound }
      (({ s with srcRes := listMod s.srcRes 1 (fun _ => r) } : State).monResult 25 r.restart).c25Result.candRound s0 [25]
    else s
  s.xchkEval.healthFall

/-- TWOWAY (R372): a request, whose t2 and t3 are zero, waits for its answer; an answer ends the exchange. Its arrival was timed by
the lane's unit. -/
def State.rxTwoway (s : State) (lane : Nat) (p : List Byte) : State :=
  let u : Fin 18 := if lane = 0 then 16 else 17
  let st : Nat := (s.unit (.lane u)).stampRx.t / 2 ^ 24
  if (slice p 12 24).all (· = 0) then s.modTnd (fun t => { t with twoway := some (slice p 0 12, st) })
  else s.twowayResult u (time12 (slice p 0 12)) (time12 (slice p 12 12)) (time12 (slice p 24 12)) st

/-- LINK_FRAME_RECEIVE (R366, R367): the frame is checked by CRC, MAC and SEQ; its ACK is taken; unit B follows unit A's lane; then its type
acts. -/
def execLinkFrameReceive (lane : Fin 2) (bytes : List Byte) (s : State) : Out :=
  let n := bytes.length
  let typ := byteAt bytes 0
  let seq := beAt bytes 2 2
  let len := beAt bytes 6 2
  let p := slice bytes 8 len
  if s.linkSt ≠ kHELLO ∧ s.linkSt ≠ kPAIRED then .next s
  else if n ≠ len + 20 ∨ 1024 < len ∨ crc32c (bytes.take (n - 4)) ≠ beAt bytes (n - 4) 4 then .next s
  else if (s.rxKeys typ).all (fun k => linkMac k (bytes.take (8 + len)) ≠ slice bytes (8 + len) 8) then
    .next (((s.countSat 0x02500088 31 0 1).irq .tnd 5).runRaise 5 0 Flt.tndAuthFail typ)
  else if s.tnd.rxSeq.isSome ∧ s.tnd.rxSeq ≠ some seq then .next s
  else
    let s := s.modTnd (fun t => { t with rxAt := s.spn.ticks, rxSeq := if typ = 7 then t.rxSeq else some ((seq + 1) % 65536) })
    let s := if s.unitB ∧ s.carry ≠ lane.val then s.laneSwap lane.val else if s.unitB then s.spareTest else s
    let s := if byteAt bytes 1 % 2 = 1 then s.linkAcked (beAt bytes 4 2) else s
    let s := if s.tnd.hold then (s.modTnd (fun t => { t with hold := false })).linkAfresh else s
    let s := match typ with
      | 1 => s.rxHello p
      | 3 => if s.linkSt = kPAIRED then s.rxPeerTime p else s
      | 4 => if s.linkSt = kPAIRED then s.rxState p else s
      | 5 => if s.linkSt = kPAIRED then s.rxMirror p else s
      | 6 => if s.linkSt = kPAIRED then s.rxTwoway lane.val p else s
      | _ => if s.timeMissing then s.candRound s [25] else s
    .next s.linkPair

/-- `n` ticks have passed since a tick, if there is one. -/
def State.after (s : State) (t : Option Nat) (n : Nat) : Bool :=
  match t with
  | some k => decide (k + n ≤ s.spn.ticks)
  | none => true

/-- The KEYS frame of slot `i` is due (14, frame types; R371): its key has changed since the last one, or that went out 60 s ago. -/
def State.keyDue (s : State) (i : Nat) : Bool :=
  let last := mapGet (fun _ => (0, 0)) s.tnd.keyAt i
  decide (s.linkSt = kPAIRED) && decide (s.role = 2) && s.b 0x02500010 22 && s.b 0x02500018 27 && mirrored i
    && (decide (i < 4) || decide (s.rd64 0x02500060 / 2 ^ i % 2 = 1))
    && (decide (last.1 = 0) || decide (last.2 ≠ s.f (slotOff i) 27 0) || decide (last.1 + 120000000000 ≤ s.spn.ticks + 1))

/-- Within `n` ticks the frame of a second of base `b` is due: the second has begun, or begins by then. -/
def State.secDue (s : State) (sent : Option Nat) (b n : Nat) : Bool :=
  decide (sent ≠ some (s.tbSec b)) || decide (s.tbSec b ≠ (s.tbTime b + n * nominalInc) / secU)

/-- Another frame than ACK falls due within 2 µs (14, frame types). -/
def State.otherDue (s : State) : Bool :=
  if s.linkSt = kHELLO then s.after s.tnd.helloAt (20000000 - 4000)
  else s.after s.tnd.beatAt (100000 - 4000) || s.secDue s.tnd.timeSec s.tandemTb 4000 || s.secDue s.tnd.stateSec 0 4000
    || s.secDue s.tnd.askSec s.tandemTb 4000 || s.tnd.twoway.isSome || (List.range 64).any s.keyDue

/-- LINK_FRAME_SEND (R366, frame types): a frame falls due: HELLO every 10 ms, HEARTBEAT every 50 µs, TIME and a TWOWAY request each second of the
tandem base, STATE each TB0 second, KEYS on each change and every 60 s, ACK when nothing else is due within 2 µs. -/
def execLinkFrameSend (due : LinkDue) (s : State) : Out :=
  let paired := decide (s.linkSt = kPAIRED)
  match due with
  | .hello =>
    if s.linkSt = kHELLO ∧ s.after s.tnd.helloAt 20000000 then
      .next ((s.modTnd (fun t => { t with helloAt := some s.spn.ticks })).linkSend 1 (beBytes 16 s.tnd.nonce ++ [if s.unitB then 1 else 0, 0, 0, 0] ++ beBytes 4 (s.rd 0x00000014).toNat
        ++ s.regBytes 0x02400040 8))
    else .next s
  | .heartbeat =>
    .next (if paired && s.after s.tnd.beatAt 100000 then (s.modTnd (fun t => { t with beatAt := some s.spn.ticks })).linkSend 2 [] else s)
  | .time =>
    let tb := s.tandemTb
    let m := if s.tbYoked tb then s.tbMaster tb else tb
    let c := (s.ctl m).lastCand
    let ql := match c with
      | some x => s.f (candOff x + 0x10) 19 16
      | none => 15
    .next (if paired && decide (s.tnd.timeSec ≠ some (s.tbSec tb)) then
      (s.modTnd (fun t => { t with timeSec := some (s.tbSec tb) })).linkSend 3 (beBytes 6 (s.tbSec tb) ++ beBytes 4 (s.rd (bndOff tb)).toNat
      ++ [BitVec.ofNat 8 ql, BitVec.ofNat 8 (s.refClass c), BitVec.ofNat 8 s.role, 0]) else s)
  | .state =>
    .next (if paired && decide (s.tnd.stateSec ≠ some (s.tbSec 0)) then
      (s.modTnd (fun t => { t with stateSec := some (s.tbSec 0) })).linkSend 4 s.statePayload else s)
  | .key slot =>
    let i := slot.toNat
    if s.keyDue i then
      let s := s.modTnd (fun t => { t with keyAt := mapSet (fun _ => (0, 0)) t.keyAt i (s.spn.ticks + 1, s.f (slotOff i) 27 0) })
      .next (match s.chestKey i with
        | some k => s.linkSend 5 ([BitVec.ofNat 8 i, 1, 0, 0] ++ Config.aesWrap s.tnd.kek (leBytes 32 k.toNat))
        | none => s.linkSend 5 ([BitVec.ofNat 8 i, 0, 0, 0] ++ List.replicate 40 0))
    else .next s
  | .twowayRequest l =>
    let sec := s.tbSec s.tandemTb
    .next (if paired && decide (s.tnd.askSec ≠ some sec) then (s.modTnd (fun t => { t with askSec := some sec })).linkSend 6 (time12Bytes l ++ List.replicate 24 0) else s)
  | .twowayAnswer l =>
    match s.tnd.twoway with
    | some (t1, t2) =>
      .next (if paired then (s.linkSend 6 (t1 ++ time12Bytes t2 ++ time12Bytes l)).modTnd (fun t => { t with twoway := none }) else s)
    | none => .next s
  | .ack => .next (if (s.linkSt = kHELLO ∨ paired) ∧ !s.otherDue then s.linkSend 7 [] else s)

/-- The last of a frame's four times for a resend that has come: 8, 16, 24 and 32 µs after its first send (R367). -/
def State.retrySlot (s : State) (f : LinkFrame) : Nat := min 4 ((s.spn.ticks - f.sent) / 16000)

/-- LINK_RETRY (R367): the oldest frame without ACK and those after it are resent with RETRY set, at its four times. -/
def execLinkRetry (s : State) : Out :=
  match s.tnd.unacked with
  | f :: r =>
    if f.slot < s.retrySlot f ∧ !s.tnd.hold ∧ !s.tnd.relock then
      let s := s.modTnd (fun t => { t with
        unacked := ({ f with slot := s.retrySlot f } :: r).map (fun f => { f with resends := f.resends + 1 }) })
      .next (s.tnd.unacked.foldl State.linkEmit s)
    else .next s
  | [] => .next s

/-- A frame has had no ACK for 40 µs after its first send (R367). -/
def State.ackLate (s : State) : Bool := s.tnd.unacked.any (fun f => decide (f.sent + 80000 ≤ s.spn.ticks))

/-- LINK_ACK_TIMEOUT (R366, R367): 40 µs without an ACK fail the carrying lane for the sender. Unit A moves the link or takes it DOWN;
unit B holds its frames. -/
def execLinkAckTimeout (s : State) : Out :=
  if !s.ackLate ∨ s.tnd.relock ∨ (s.linkSt ≠ kHELLO ∧ s.linkSt ≠ kPAIRED) then .next s
  else if s.unitB then .next (s.modTnd (fun t => { t with hold := true }))
  else if s.tLane (1 - s.carry) = lLOCKED ∧ s.b 0x02500018 25 then
    let s := s.laneSwap (1 - s.carry)
    .next (if s.tnd.relock then s else s.linkAfresh)
  else .next s.linkDown.linkEval

/-- TND_LINK_DOWN (R368): no valid frame of any type for TND_HB_TO µs. -/
def execTndLinkDown (s : State) : Out :=
  if (s.linkSt = kHELLO ∨ s.linkSt = kPAIRED) ∧ s.tnd.rxAt + s.f 0x02500044 15 0 * 2000 ≤ s.spn.ticks then .next s.linkDown.linkEval
  else .next s

/-- SPARE_CHECK (R366): once per second the errors of the spare lane are read; `errs` are those that the line has brought since it was last asked.
SPARE_OK says that the lane was checked for the whole second and brought none. -/
def execSpareCheck (errs : Nat) (s : State) : Out :=
  if (s.linkSt = kHELLO ∨ s.linkSt = kPAIRED) ∧ s.after s.tnd.spareAt 2000000000 then
    let m := 16 + (1 - s.carry)
    let s := s.prbsErrs m (some errs)
    let n := bitsAt (s.laneRate m) s.spn.ticks - bitsAt (s.laneRate m) (s.tnd.spareAt.getD s.spn.ticks)
    let ok := s.tnd.spareAt.isSome && decide ((s.lane m).errT = 0) && decide (n ≤ (s.lane m).bitsT) && s.b (lanOff m + 0x38) 0 && s.chkRuns m
    .next (s.spareFrom.setB 0x02500018 25 ok).healthFall
  else .next s

/-! ### Health (R374) and power -/

/-- HEALTH_SECOND (R374): a TB0 second ends with the known-answer tests passed or not. A bit whose test passed for the whole second
sets again. Once in a second. -/
def execHealthSecond (katPassed : Bool) (s : State) : Out :=
  if s.domOn 9 && decide (s.tnd.healthSec ≠ s.tbSec 0) then
    let s := (s.modTnd (fun t => { t with katBad := !katPassed })).healthFall
    let failed := s.tnd.failed
    let s := [15, 14, 13, 12, 11, 10, 9, 8].foldl (fun (s : State) i => if failed.testBit i then s else s.setB 0x02500014 i true) s
    .next (s.modTnd (fun t => { t with failed := 0, healthSec := s.tbSec 0 })).healthFall
  else .next s

/-- PD9 comes up (R362, R365): STANDBY, no claim, health bits to be earned. -/
def State.tandemUp (s : State) : State :=
  ((s.modTnd (fun t => { t with
      c0 := 0, c1 := 0, c2 := 0, frames := [], heard := [], crcBad := 0, holdoff := true, upTick := s.spn.ticks, failed := 0xFF00
      healthSec := s.tbSec 0, katBad := false }))
    |>.setF 0x02500014 31 30 1).linkEval.healthFall

/-- PD9 goes off (R365): every shared stage at high impedance, the link OFF. -/
def State.tandemOff (s : State) : State :=
  let s := if s.role = 2 then s.setRole 1 else s
  let s := s.linkEval
  (s.wr 0x02500014 (s.rd 0x02500014 &&& 0x02000000)).wrN 0x02500034 0

/-- A host write to TND: HB_TO stores at least 200 (R368), KEY_MIRROR [5:0] read 0; a new FOLLOW acts in the next evaluation of the selector
(R130, R373), a delay
abandons the running block of its unit (R91), and the health word follows (R374). -/
def State.wTnd (s : State) (a : Nat) (v : Word) : State :=
  let s0 := s
  let s := s.rwStore a v
  if a = 0x02500044 then s.wrN a (max 200 (v.field 15 0))
  else if a = 0x02500060 then s.wr a (v &&& 0xFFFFFFC0)
  else if a = 0x02500010 then s.tndAlign.healthFall
  else
    let cut := fun (s : State) (x : EdgeSrc) => match s.routedUnit x with
      | some k => if s.rd a = s0.rd a then s else s.abandon (.p k) 1
      | none => s
    let s := if a = 0x02500048 then cut s .peerPps else if a = 0x0250004C then cut s .peer10M else s
    s.xchkEval.healthFall

end Sys2Proof.Machine
end

