-- ==== Sys2Proof/Machine/Lanes.lean ====
section
/-! DEFINITION. Serial lanes (09): host writes to a lane, the events of its state machine, training, the eye scan and the PRBS
circuits. -/
namespace Sys2Proof.Machine

/-- What follows a change of lane m outside it: a tandem lane reaches the link (R366). -/
def State.laneTail (s : State) (m : Nat) : State := if m < 16 then s else s.linkEval

/-- A host write to LAN_Lm_CTL (R239, R240, R242, R249, R252). A cleared TRAIN_EN puts TXEQ in force. LP = 1 on a lane of a group is discarded; the
host does not reach TEST and LP of the tandem lanes, whose RATE28 reads 0. -/
def State.wLanCtl (s : State) (m : Nat) (v : Word) : State :=
  let o := lanOff m
  let old := s.rd o
  if s.laneMode m = 4 ∧ v.bit 29 then s.cfgBad .lan o
  else
    let s0 := (s.genCount m).chkCount m
    let s := s0.rwStore o v
    let s := if m < 16 then s
      else s.wr o ((((s.rd o).setField 29 29 (old.field 29 29)).setField 27 27 (old.field 27 27)).setField 26 26 0)
    let s := (s0.genStart s m).txeqNow m
    let s := if s.chkRuns m then s else s.chkStop m
    (s.laneCtl m old (v.bit 30)).laneTail m

/-- LP of every lane of group g (R252). -/
def State.groupLp (s : State) (g : Nat) (lp : Bool) : State :=
  [4 * g, 4 * g + 1, 4 * g + 2, 4 * g + 3].foldl (fun s m =>
    if s.laneMode m = 4 ∧ s.b 0x02000000 m then
      let old := s.rd (lanOff m)
      (s.setB (lanOff m) 29 lp).laneCtl m old false
    else s) s

/-- A host write to LAN_GROUP_LP (R252). -/
def State.wGroupLp (s : State) (v : Word) : State := [0, 1, 2, 3].foldl (fun s g => s.groupLp g (v.bit g)) s

/-- A host write to LAN_Lm_TXEQ (R242). -/
def State.wTxeq (s : State) (m : Nat) (v : Word) : State :=
  let o := lanOff m + 8
  let pre := v.field 3 0
  let main := v.field 13 8
  let post := v.field 20 16
  if 20 ≤ main ∧ pre + main + post ≤ 63 then (s.rwStore o v).txeqNow m else s.cfgBad .lan o

/-- A host write to LAN_Lm_PRBS_CTL (R247-R250). INJ acts only while the generator drives the lane: it inverts a bit of the next 64-bit word, or of the
word after it where a rate injection falls into that. -/
def State.wPrbsCtl (s : State) (m : Nat) (v : Word) : State :=
  let o := lanOff m + 0x24
  let old := s.rd o
  let rate := v.field 21 16
  if (m < 16 ∧ 6 ≤ v.field 26 24) ∨ (rate ≠ 0 ∧ (rate < 10 ∨ 40 < rate)) then s.cfgBad .lan o
  else
    let s0 := s.genCount m
    let s := s0.rwStore o v
    let s := if m < 16 then s else s.wr o (((s.rd o).setField 31 30 (old.field 31 30)).setField 26 24 (old.field 26 24))
    let s := s0.genStart s m
    let s := if s.chkRuns m ∧ s.f o 26 24 = old.field 26 24 then s else s.chkStop m
    if v.bit 29 && s.genOn m then
      let k := s.f o 21 16
      let now := (s.lane m).genBits / 64
      let w := if k ≠ 0 ∧ 64 * (now + 1) % 2 ^ k = 0 then now + 2 else now + 1
      (s.countSat (lanOff m + 0x34) 31 0 1).modLane m (fun x => { x with injs := x.injs.filter (fun i => decide (now ≤ i)) ++ [w] })
    else s

/-- A host write to LAN_Lm_EYE_CTL (R245, R246). -/
def State.wEyeCtl (s : State) (m : Nat) (v : Word) : State :=
  let o := lanOff m + 0x40
  let h := signedOf 7 (v.field 22 16)
  let idle := (s.laneSt m = lALIGN ∨ s.laneSt m = lLOCKED) ∧ !s.b (o + 4) 0
  if h < -32 ∨ 31 < h ∨ v.field 15 8 = 0x80 ∨ v.field 4 0 = 31 ∨ (v.bit 31 ∧ ¬idle) then s.cfgBad .lan o
  else
    let s := s.rwStore o v
    if v.bit 31 then (s.wr (o + 4) 1).modLane m (fun x => { x with eyeTick := s.spn.ticks, eyeCnt := none }) else s

/-! ### Host commands -/

/-- LANE_LP_ENTER (R252). -/
def execLaneLpEnter (i : Itf) (m : Fin 18) (v : Word) (s : State) : Out := .next (s.reach i (lanOff m) v (fun s => s.wLanCtl m v))
/-- LANE_LP_EXIT (R240). -/
def execLaneLpExit (i : Itf) (m : Fin 18) (v : Word) (s : State) : Out := .next (s.reach i (lanOff m) v (fun s => s.wLanCtl m v))
/-- GROUP_LP_WRITE (R252). -/
def execGroupLpWrite (i : Itf) (v : Word) (s : State) : Out := .next (s.reach i 0x0200001C v (fun s => s.wGroupLp v))
/-- LANE_RESTART (R240). -/
def execLaneRestart (i : Itf) (m : Fin 18) (v : Word) (s : State) : Out := .next (s.reach i (lanOff m) v (fun s => s.wLanCtl m v))
/-- LANE_TEST_WRITE (R249). -/
def execLaneTestWrite (i : Itf) (m : Fin 18) (v : Word) (s : State) : Out := .next (s.reach i (lanOff m) v (fun s => s.wLanCtl m v))
/-- EYE_GO (R245). -/
def execEyeGo (i : Itf) (m : Fin 18) (v : Word) (s : State) : Out := .next (s.reach i (lanOff m + 0x40) v (fun s => s.wEyeCtl m v))
/-- PRBS_INJ (R250). -/
def execPrbsInj (i : Itf) (m : Fin 18) (v : Word) (s : State) : Out := .next (s.reach i (lanOff m + 0x24) v (fun s => s.wPrbsCtl m v))

/-! ### The state machine (R240-R243) -/

/-- LANE_PLL_READY (R240). -/
def execLanePllReady (m : Fin 18) (s : State) : Out :=
  if s.laneSt m = lWAIT ∨ s.laneSt m = lLPEXIT then .next (((s.laneTo m lCDR).laneLp m).laneTail m) else .next s

/-- PLL_FAIL (R240): 2 ms in WAIT_PLL or LP_EXIT. -/
def execPllFail (m : Fin 18) (s : State) : Out :=
  if (s.laneSt m = lWAIT ∨ s.laneSt m = lLPEXIT) ∧ (s.lane m).since + 4000000 ≤ s.spn.ticks then
    .next ((((s.laneTo m lFAIL).raise Flt.lanPllFail m).irq .lan 2).laneLp m)
  else .next s

/-- LANE_CDR_LOCK (R240, R242): in TEST the lane is LOCKED; a lane whose mode trains goes to TRAIN; any other to ALIGN. -/
def execLaneCdrLock (m : Fin 18) (rx tx : Word) (s : State) : Out :=
  if s.laneSt m = lCDR ∧ !s.b (lanOff m) 29 then
    let md := s.laneMode m
    if s.b (lanOff m) 27 then .next ((s.laneLocked m rx tx).laneTail m)
    else if s.b (lanOff m) 28 ∧ 2 ≤ md ∧ md ≤ 4 then .next (s.laneTo m lTRAIN)
    else .next ((s.laneTo m lALIGN).setB (lanOff m + 4) 4 false)
  else .next s

/-- TRAIN_DONE (R240, R243): both receivers are ready; the lane's says so where it has not. -/
def execTrainDone (m : Fin 18) (s : State) : Out :=
  if s.laneSt m = lTRAIN then
    let ms := (s.spn.ticks - (s.lane m).since) / 2000000
    let told := (s.lane m).ready
    let s := ((s.laneTo m lALIGN).setB (lanOff m + 4) 4 true).setF (lanOff m + 0x10) 15 0 ms
    .next (if told then s else s.emit (.trainReady m))
  else .next s

/-- The wait timer of training, in spine ticks (R243): 500 ms in clause 72.6.10 modes, 3 s in clause 92.7.12 modes. -/
def State.trainWait (s : State) (m : Nat) : Nat := if s.laneMode m = 4 then 6000000000 else 1000000000

/-- TRAIN_FAIL (R240, R243): the signal is lost, or the wait timer has expired. -/
def execTrainFail (m : Fin 18) (signal : Bool) (s : State) : Out :=
  if s.laneSt m = lTRAIN ∧ (signal ∨ (s.lane m).since + s.trainWait m ≤ s.spn.ticks) then
    .next ((((s.laneTo m lCDR).count (lanOff m + 0x10) 31 16 1).raise Flt.lanTrainFail m).irq .lan 2)
  else .next s

/-- LANE_ALIGN_LOCK (R240, R241): the lane enters LOCKED with the delays it measures. -/
def execLaneAlignLock (m : Fin 18) (rx tx : Word) (s : State) : Out :=
  if s.laneSt m = lALIGN ∧ !s.b (lanOff m) 29 then .next ((s.laneLocked m rx tx).laneTail m) else .next s

/-- LOCK_LOST (R240): signal, CDR or alignment is lost in ALIGN or LOCKED; `eye` mismatches of a running scan point until then (R246). -/
def execLockLost (m : Fin 18) (cause : LossCause) (eye : Nat) (s : State) : Out :=
  let st := s.laneSt m
  let c := match cause with
    | .signal => 1
    | .cdr => 2
    | .alignment => 3
  if st = lALIGN ∨ st = lLOCKED then
    let s := s.modLane m (fun x => { x with eyeCnt := some eye })
    let t := (s.laneTo m lCDR).setB (lanOff m + 4) 0 (decide (c ≠ 1))
    .next ((if st = lLOCKED then t.raise Flt.lanLockLost (c * 32 + m) else t).laneTail m)
  else .next s

/-- A tap moved one step up or down (R242, R243): PRE and POST are magnitudes of negative taps, so INCREMENT lowers them. The answer is
MAXIMUM or MINIMUM at a limit, MAXIMUM for a step that would break PRE + MAIN + POST ≤ 63. -/
def coefStep (pre main post tap : Nat) (up : Bool) : Nat × Nat × Nat × Nat :=
  let lim := if tap = 0 then 15 else 31
  if tap = 1 then
    if up then (if 63 ≤ main ∨ 63 < pre + main + 1 + post then (pre, main, post, 3)
      else (pre, main + 1, post, if main + 1 = 63 then 3 else 1))
    else if main ≤ 20 then (pre, main, post, 2) else (pre, main - 1, post, if main - 1 = 20 then 2 else 1)
  else
    let x := if tap = 0 then pre else post
    let put := fun (y a : Nat) => if tap = 0 then (y, main, post, a) else (pre, main, y, a)
    if up then (if x = 0 then put 0 3 else put (x - 1) (if x = 1 then 3 else 1))
    else if lim ≤ x then put x 2
    else if 63 < pre + main + post + 1 then put x 3
    else put (x + 1) (if x + 1 = lim then 2 else 1)

/-- What a transmitter reports of a tap at rest: 3 maximum, 2 minimum, 1 between (R242, R243). -/
def tapStatus (pre main post tap : Nat) : Nat :=
  if tap = 1 then (if 63 ≤ main then 3 else if main ≤ 20 then 2 else 1)
  else
    let x := if tap = 0 then pre else post
    if x = 0 then 3 else if (if tap = 0 then 15 else 31) ≤ x then 2 else 1

/-- What the receiver of a lane in TRAIN sends its partner (R243): its requests one step at a time, none before the partner has answered the one before;
that it is ready, once. -/
def State.trainOwn (s : State) (m : Nat) (answered : Bool) (own : Option TrainOwn) : State :=
  let busy := (s.lane m).asked && !answered
  match own with
  | some (.ask t up) => if busy then s else (s.modLane m (fun x => { x with asked := true })).emit (.trainAsk m t.val up)
  | some .ready =>
    let t := s.modLane m (fun x => { x with asked := busy, ready := true })
    if (s.lane m).ready then t else t.emit (.trainReady m)
  | none => s.modLane m (fun x => { x with asked := busy })

/-- COEFFICIENT_UPDATE (R242, R243): the transmitter of a lane in TRAIN obeys a request and answers it, for every tap of PRESET and INITIALIZE; a
partner on hold asks nothing. In the same exchange its own receiver sends what it has. -/
def execCoefficientUpdate (m : Fin 18) (req : CoefReq) (answered : Bool) (own : Option TrainOwn) (s : State) : Out :=
  if s.laneSt m = lTRAIN then
    let o := lanOff m + 0x0C
    let w := s.rd o
    let pre := w.field 3 0
    let main := w.field 13 8
    let post := w.field 20 16
    let all := fun (p n q : Nat) => (p, n, q, [(0, tapStatus p n q 0), (1, tapStatus p n q 1), (2, tapStatus p n q 2)])
    let r : Nat × Nat × Nat × List (Nat × Nat) := match req with
      | .increment t => let x := coefStep pre main post t.val true; (x.1, x.2.1, x.2.2.1, [(t.val, x.2.2.2)])
      | .decrement t => let x := coefStep pre main post t.val false; (x.1, x.2.1, x.2.2.1, [(t.val, x.2.2.2)])
      | .preset => all 0 63 0
      | .initial => all (s.f (lanOff m + 8) 3 0) (s.f (lanOff m + 8) 13 8) (s.f (lanOff m + 8) 20 16)
      | .hold => (pre, main, post, [])
    let s := ((s.setF o 3 0 r.1).setF o 13 8 r.2.1).setF o 20 16 r.2.2.1
    .next ((r.2.2.2.foldl (fun (s : State) a => s.emit (.train m a.1 a.2)) s).trainOwn m answered own)
  else .next s

/-! ### Eye scan and PRBS (R245-R251) -/

/-- EYE_POINT_DONE (R245): the point has compared 2^(PRESCALE + 10) bits. -/
def execEyePointDone (m : Fin 18) (errs : Nat) (s : State) : Out :=
  let o := lanOff m + 0x44
  let n := 2 ^ (s.f (lanOff m + 0x40) 4 0 + 10)
  if s.b o 0 && decide (n ≤ bitsAt (s.laneRate m) s.spn.ticks - bitsAt (s.laneRate m) (s.lane m).eyeTick) then
    .next ((((s.wrN (o + 4) (satAt 0xFFFFFFFF (min n errs))).setB o 0 false).setB o 1 true).irq .lan 3)
  else .next s

/-- PRBS_CHK_LOCK (R248): the checker, seeded from received bits, has predicted 64 consecutive bits without error. -/
def execPrbsChkLock (m : Fin 18) (rx : List Bool) (s : State) : Out :=
  let q := prbsPoly (s.f (lanOff m + 0x24) 26 24)
  if s.chkRuns m ∧ s.laneSt m = lLOCKED ∧ prbsPredicted q.1 q.2 rx then .next ((s.chkCount m).setB (lanOff m + 0x38) 0 true) else .next s

/-- PRBS_LOCK_LOST (R248): of 64 consecutive bits, given by their error flags, 16 or more are in error; `errs` errors since the line was last
asked. -/
def execPrbsLockLost (m : Fin 18) (errs : Nat) (window : BitVec 64) (s : State) : Out :=
  let o := lanOff m + 0x38
  if s.b o 0 && decide (16 ≤ popCount window.toNat) then
    .next (((((s.prbsErrs m (some errs)).setB o 0 false).countSat o 31 16 1).raise Flt.lanPrbsLockLost m).irq .lan 1)
  else .next s

end Sys2Proof.Machine
end

