-- ==== Sys2Proof/Machine/Keys.lean ====
section
/-! DEFINITION. Keys, identity and tamper (13): KEY commands, entropy, tamper detection, zeroisation and the root burn. A KEY command
ends in the command that starts it (log entry 29), but for one that a departure of the core rail freezes (18 R443). -/
namespace Sys2Proof.Machine

/-! ### Zeroisation (R299, R350, R355) -/

/-- KEY_TAMP_REC.BURN_PENDING and its copy in KEY_STAT. -/
def State.setBurnPending (s : State) (v : Bool) : State := (s.setB 0x02402010 31 v).setB 0x02400010 5 v

/-- Authenticated service stops (R299): PKT_STAT.AUTH_LOST, and PKT/AUTH_LOST once. -/
def State.authStop (s : State) (cause : Nat) : State :=
  let s := s.setB 0x02200014 31 true
  if s.keys.authLost then s
  else ((s.modKeys (fun k => { k with authLost := true })).raise Flt.pktAuthLost cause).irq .pkt 3

/-- A queued frame whose cryptographic operation is aborted (R355, R299): without authentication on a port in OPTIONAL, an NTS NAK for an
NTS response (R304), nothing on a port in REQUIRED. The operations of a PTP answer have ended when it is queued (11, worked example); those of a frame
that takes fields of its launch tick have not. -/
def State.abortFrame (s : State) (p : Nat) (f : TxFrame) : Option TxFrame :=
  match f.body with
  | .ptp e m b (some _) => if s.f (pktOff p) 27 26 = 2 then none else some { f with body := .ptp e m b none }
  | .ntp e b => if b.nts.isSome then some { f with body := .ntp e { b with nak := true, bluta := false, nts := none } } else some f
  | _ => some f

/-- A queued NTS response. -/
def isNts (f : TxFrame) : Bool :=
  match f.body with
  | .ntp _ b => b.nts.isSome
  | _ => false

/-- The frames queued at port p are looked at (R355): NTS NAKs count (R304), those dropped leave flight. -/
def State.abortPort (s : State) (p : Nat) : State :=
  let q := (s.port p).pkt
  let s := s.pktCount 21 (q.filter isNts).length
  let drop := (q.filter (fun f => (s.abortFrame p f).isNone && f.inFlight)).length
  let s := s.modPort p (fun x => { x with pkt := q.filterMap (s.abortFrame p) })
  (List.range drop).foldl (fun s _ => s.flightOut) s

/-- A command ends with its code. -/
def State.keyEnd (s : State) (op slot code : Nat) : State :=
  let s := s.wrN 0x02400104 (code * 2 ^ 24 + slot)
  let s := if code = 0 then s else s.raise Flt.keyCmdFail (op * 2 ^ 28 + code * 256 + slot)
  s.irq .key 0

/-- A KEY command that is held ends with ABORTED (R355). -/
def State.cmdAbort (s : State) : State :=
  match s.keys.cmd with
  | some v => (s.modKeys (fun k => { k with cmd := none })).keyEnd (v.field 31 28) (v.field 5 0) 7
  | none => s

/-- Operations that use a key and have not delivered are aborted (R355): a KEY command, queued frames, and a mint run. -/
def State.cryptoAbort (s : State) : State :=
  let s := (List.range 16).foldl State.abortPort s.cmdAbort
  if s.b 0x02203450 31 then ((s.wrN 0x02203450 (2 ^ 30)).raise Flt.pktMintErr 0).irq .pkt 5 else s

/-- The Chest and the derived keys are cleared, authenticated services stop (R350, R353, R356). -/
def State.zeroiseChest (s : State) : State :=
  let s := (s.chestClear.modKeys (fun k => { k with derived := none, notAuth := true, zeroTo := s.spn.ticks + 2000 }))
  let s := (s.setB 0x02400010 4 true).setB 0x02400010 3 false
  if s.pwr.mainOff then s else (s.cryptoAbort.authStop 1).linkEval.healthFall

/-- The sticky tamper record takes a detection (R350). `away`: units of 2^-15 s that main power has been off, which the keep-counter has
counted (R431). A root burn begins with it while main power is on (R351). -/
def State.tamperRecord (s : State) (src away : Nat) : State :=
  let keep := s.keepNow + if s.pwr.mainOff then away else 0
  let s := if s.f 0x02402010 7 0 = 0 then s.wr64 0x02402014 (keep / 2 ^ 15 % 2 ^ 48) else s
  let s := (s.setB 0x02402010 src true).countSat 0x0240201C 15 0 1
  let s := if s.pwr.mainOff then s.setB 0x02402010 28 true
    else if s.b 0x02402010 31 ∨ s.keys.rootField = 3 then s
    else s.modKeys (fun k => { k with burnFrom := some s.spn.ticks })
  s.setBurnPending true

/-- A tamper source is detected (R350): the record, the zeroisation, KEY/TAMPER, deferred to the next start on VBAT alone (R357). While a
zeroisation is under way, for 1 µs on main power, a detection only adds to the record. -/
def State.tamperHit (s : State) (src away : Nat) : State :=
  let off := s.pwr.mainOff
  let s := s.tamperRecord src away
  if !off && decide (s.spn.ticks < s.keys.zeroTo) then s
  else
    let ctx := s.f 0x02402010 7 0 + if off then 256 else 0
    let s := if off then
        s.modKeys (fun k => { k with later := k.later ++ [⟨Flt.keyTamper.src, Flt.keyTamper.kind, Flt.keyTamper.sev, BitVec.ofNat 32 ctx⟩] })
      else (s.raise Flt.keyTamper ctx).irq .key 1
    let s := (List.range 8).foldl (fun s i => (s.wr (0x02400040 + 4 * i) 0).wr (0x02400060 + 4 * i) 0) s
    s.zeroiseChest

/-! ### KEY commands (R344) -/

/-- The code that GENERATE, LOAD, ERASE and ATTEST end with for want of a root or of authenticated services; 0 for neither. -/
def State.keyBar (s : State) : Nat := if !s.rootValid then 3 else if s.keys.notAuth then 9 else 0

/-- A slot has changed: the tandem link looks at slot 5 (R368). -/
def State.slotChanged (s : State) (slot : Nat) : State := if slot = 5 then s.linkEval else s

/-- GENERATE: 256 bits of the DRBG (free, log entry 3); a SUBKEY record for slot 4. -/
def State.keyGenerate (s : State) (slot : Nat) : State :=
  if s.keyBar ≠ 0 then s.keyEnd 1 slot s.keyBar
  else if !s.drbgOk then s.keyEnd 1 slot 4
  else
    let k := s.takeFree 256
    let s := k.2.chestCommit slot (BitVec.ofNat 256 k.1)
    ((if slot = 4 then s.traceSubkey else s).slotChanged slot).keyEnd 1 slot 0

/-- The key that the wrapped block of LOAD holds (R345): none where the shared value is 0 or the block does not unwrap. -/
def State.loadKey (s : State) (secret : BitVec 256) (slot : Nat) : Option (List Byte) :=
  let e := s.regBytes 0x02400110 8
  let z := Config.x25519 secret (BitVec.ofNat 256 (leNat e))
  let kek := Config.hkdf (e ++ s.regBytes 0x02400060 8) (leBytes 32 z.toNat)
    (ascii "LOAD" ++ [BitVec.ofNat 8 slot, BitVec.ofNat 8 (slotType slot)])
  if z = 0 then none else Config.aesUnwrap kek (s.regBytes 0x02400130 10)

/-- LOAD (R345). In slot 4 it changes the trace subkey, whose SUBKEY record precedes the first record it signs (R348). -/
def State.keyLoadSlot (s : State) (slot : Nat) : State :=
  if s.keyBar ≠ 0 then s.keyEnd 2 slot s.keyBar
  else match s.keys.derived with
    | none => s.keyEnd 2 slot 3
    | some (_, secret, _) =>
      match s.loadKey secret slot with
      | none => s.keyEnd 2 slot 2
      | some k =>
        let s := s.chestCommit slot (BitVec.ofNat 256 (leNat k))
        ((if slot = 4 then s.traceSubkey else s).slotChanged slot).keyEnd 2 slot 0

/-- ERASE (R343, R347, R369). -/
def State.keyErase (s : State) (slot : Nat) : State :=
  if s.keyBar ≠ 0 then s.keyEnd 3 slot s.keyBar
  else if (slot < 4 ∧ s.ringState slot ≠ 0) ∨ (slot = 5 ∧ s.paired) then s.keyEnd 3 slot 8
  else ((s.chestErase slot).slotChanged slot).keyEnd 3 slot 0

/-- ATTEST (R341). -/
def State.keyAttest (s : State) (slot : Nat) : State :=
  if s.keyBar ≠ 0 then s.keyEnd 4 slot s.keyBar
  else match s.keys.derived with
    | none => s.keyEnd 4 slot 3
    | some (id, _, _) =>
      let m := ascii "UT9440-ATTEST" ++ s.regBytes 0x02400160 8 ++ s.regBytes 0x02400040 8 ++ s.regBytes 0x02400060 8
        ++ beBytes 4 (s.rd 0x00000014).toNat
      (s.setRegBytes 0x02400160 (leBytes 64 (Config.ed25519Sign id m).toNat)).keyEnd 4 slot 0

/-- DISARM (R352): the nonce serves one command, whatever its end. -/
def State.keyDisarm (s0 : State) (slot : Nat) (loops : Nat) : State :=
  let nonce := s0.keys.nonce
  let s := (List.range 4).foldl (fun s i => s.wr (0x02400080 + 4 * i) 0) (s0.modKeys (fun k => { k with nonce := none }))
  if s.keys.chestOnly then s.keyEnd 5 slot 9
  else
    match s.img.ownerKey, nonce with
    | none, _ => s.keyEnd 5 slot 6
    | some _, none => s.keyEnd 5 slot 5
    | some pub, some n =>
      let m := ascii "UT9440-DISARM" ++ leBytes 16 n.toNat ++ [BitVec.ofNat 8 loops]
      if Config.ed25519Verify pub m (BitVec.ofNat 512 (leNat (s.regBytes 0x02400160 16))) then
        ((s.wr 0x02402000 (s.rd 0x02402000 &&& ~~~(BitVec.ofNat 32 loops))).raise Flt.keyDisarmed loops).keyEnd 5 slot 0
      else s.keyEnd 5 slot 5

/-- ZEROISE (R353): with ARG_BURN a detection of source 7, without it the Chest alone. -/
def State.keyZeroise (s : State) (slot : Nat) (burn : Bool) : State :=
  (if burn then s.tamperHit 7 0 else (s.modKeys (fun k => { k with chestOnly := true })).zeroiseChest).keyEnd 6 slot 0

/-- A KEY command runs, OP as coded. While key use is frozen (R443) one that uses a derived key is held, with BUSY set. -/
def State.keyRun (s : State) (v : Word) : State :=
  let slot := v.field 5 0
  let op := v.field 31 28
  if s.keys.frozen ∧ (op = 1 ∨ op = 2 ∨ op = 4) then
    (s.modKeys (fun k => { k with cmd := some v })).wrN 0x02400104 (2 ^ 31 + slot)
  else match op with
    | 1 => s.keyGenerate slot
    | 2 => s.keyLoadSlot slot
    | 3 => s.keyErase slot
    | 4 => s.keyAttest slot
    | 5 => s.keyDisarm slot (v.field 11 8)
    | 6 => s.keyZeroise slot (v.bit 6)
    | _ => s.cfgBad .key 0x02400100

/-- GENERATE (R344): a write of KEY_CMD with OP 1. -/
def execGenerate (i : Itf) (slot : BitVec 6) (s : State) : Out :=
  let v := BitVec.ofNat 32 (0x10000000 + slot.toNat)
  .next (s.reach i 0x02400100 v (fun s => s.keyRun v))
/-- LOAD (R345). -/
def execLoad (i : Itf) (slot : BitVec 6) (s : State) : Out :=
  let v := BitVec.ofNat 32 (0x20000000 + slot.toNat)
  .next (s.reach i 0x02400100 v (fun s => s.keyRun v))
/-- ERASE (R343, R347). -/
def execErase (i : Itf) (slot : BitVec 6) (s : State) : Out :=
  let v := BitVec.ofNat 32 (0x30000000 + slot.toNat)
  .next (s.reach i 0x02400100 v (fun s => s.keyRun v))
/-- ATTEST (R341). -/
def execAttest (i : Itf) (slot : BitVec 6) (s : State) : Out :=
  let v := BitVec.ofNat 32 (0x40000000 + slot.toNat)
  .next (s.reach i 0x02400100 v (fun s => s.keyRun v))
/-- DISARM (R352). -/
def execDisarm (i : Itf) (loops : BitVec 4) (s : State) : Out :=
  let v := BitVec.ofNat 32 (0x50000000 + loops.toNat * 256)
  .next (s.reach i 0x02400100 v (fun s => s.keyRun v))
/-- ZEROISE (R353). -/
def execZeroise (i : Itf) (burn : Bool) (s : State) : Out :=
  let v : Word := if burn then 0x60000040 else 0x60000000
  .next (s.reach i 0x02400100 v (fun s => s.keyRun v))

/-- A read of KEY_NONCE0 draws a new nonce (R352), unless the DRBG is stopped. -/
def State.drawNonce (s : State) : State :=
  if s.drbgOk then
    let n := s.takeFree 128
    let s := n.2.modKeys (fun k => { k with nonce := some (BitVec.ofNat 128 n.1) })
    s.setRegBytes 0x02400080 (leBytes 16 n.1)
  else s

/-- A host write to KEY_TAMP_ARM (R352): loops are armed; one that is not intact at that moment is a detection. -/
def State.wTampArm (s : State) (v : Word) (intact : Nat) : State :=
  let s := (s.wr 0x02402000 (s.rd 0x02402000 ||| (v &&& 0xF))).setF 0x02402008 3 0 intact
  [0, 1, 2, 3].foldl (fun s k => if v.bit k && !intact.testBit k then s.tamperHit k 0 else s) s

/-- A write to KEY_TAMP_ARM that no command says the loops of: an armed loop is as KEY_TAMP_LIVE shows it, whether another is intact at that
moment is free (log entry 3). -/
def State.wTampArmFree (s : State) (v : Word) : State :=
  let f := s.takeFree 4
  let arm := s.f 0x02402000 3 0
  f.2.wTampArm v ((f.1 &&& (15 - arm)) ||| (s.f 0x02402008 3 0 &&& arm))

/-- TAMP_ARM_WRITE (R352). `intact`: the loops that are intact at the write. -/
def execTampArmWrite (i : Itf) (v : Word) (intact : BitVec 4) (s : State) : Out :=
  .next (s.reach i 0x02402000 v (fun s => s.wTampArm v intact.toNat))

/-- A host write to another register of KEY: TAMP_CFG of an armed loop is discarded (R352). -/
def State.wKey (s : State) (a : Nat) (v : Word) : State :=
  if a = 0x02402004 then
    let arm := s.f 0x02402000 3 0
    if (List.range 4).any (fun k => arm.testBit k && decide (v.bit k ≠ s.b a k)) then s.cfgBad .key a else s.rwStore a v
  else s.rwStore a v

/-! ### Events -/

/-- TAMPER (R350): a loop that is armed, or another source, is detected. -/
def execTamper (hit : TamperHit) (s : State) : Out :=
  let k := hit.source.val
  if k < 4 then
    let s := s.setB 0x02402008 k false
    .next (if s.b 0x02402000 k then s.tamperHit k hit.away else s)
  else .next (s.tamperHit k hit.away)

/-- BURN_DONE (R337, R351): the root burn under way has burned its 18 groups of 250 µs each; the field is all ones, whatever it held. -/
def execBurnDone (s : State) : Out :=
  match s.keys.burnFrom with
  | none => .next s
  | some t =>
    if s.spn.ticks < t + 9000000 then .next s
    else
      let s := (s.modKeys (fun k => { k with rootField := 3, root := 0, burnFrom := none })).setBurnPending false
      .next (((s.setB 0x02402010 30 true).raise Flt.keyBurnDone 0).irq .key 2)

/-- BURN_INCOMPLETE (R351): CRES cannot complete the burn under way. -/
def execBurnIncomplete (s : State) : Out :=
  if s.keys.burnFrom.isSome then
    let s := s.modKeys (fun k => { k with rootField := if k.rootField = 3 then 3 else 2, root := 0, burnFrom := none })
    .next ((s.raise Flt.keyBurnIncomplete 0).irq .key 2)
  else .next s

/-- The DRBG stops (R334). -/
def State.drbgStop (s : State) : State :=
  (((s.setB 0x02400010 2 false).modKeys (fun k => { k with retryFrom := s.spn.ticks })).raise Flt.keyEntropyFail 0).irq .key 4

/-- HEALTH_TEST_FAIL (R334): a continuous test fails and `restarts` runs of the start-up tests fail after it; three failures in a row stop
the DRBG. -/
def execHealthTestFail (restarts : Nat) (s : State) : Out :=
  .next (if s.drbgOk ∧ 2 ≤ restarts then s.drbgStop else s)

/-- ENTROPY_RETRY (R334): every 60 s after the KEYS phase the stopped source is tried again. -/
def execEntropyRetry (passed : Bool) (s : State) : Out :=
  if !s.drbgOk ∧ 3 ≤ s.f 0x00000010 31 28 ∧ 60 ≤ ticksSec s.keys.retryFrom s.spn.ticks then
    .next (if passed then (s.setB 0x02400010 2 true).irq .key 4 else s.modKeys (fun k => { k with retryFrom := s.spn.ticks }))
  else .next s

/-- CORE_DEPARTURE (R443): VDD_CORE falls below its glitch window while PORST_N is high; every use of a key is frozen and the monitor watches
the rail for 10 µs. -/
def execCoreDeparture (s : State) : Out :=
  .next (if s.pwr.mainOff ∨ s.keys.frozen then s
    else s.modKeys (fun k => { k with frozen := true, frozenTo := s.spn.ticks + 20000 }))

/-- VBAT_LOSS (R354): VBAT falls below its brown-out level with main power off. `cellLost`: the record cell of CRES loses its content
before the next start. -/
def execVbatLoss (cellLost : Bool) (s : State) : Out :=
  if s.pwr.mainOff then
    let s := s.chestClear
    let burn := s.b 0x02402010 31 && !cellLost
    let s := ((((s.wr 0x02402000 0).wr 0x02402004 0).wr 0x02402010 0).wr64 0x02402014 0).wr 0x0240201C 0
    let s : State := { s with pwr := { s.pwr with keepValid := false } }
    .next ((s.setBurnPending burn).modKeys (fun k => { k with vbatLost := some cellLost, later := [] }))
  else .next s

end Sys2Proof.Machine
end

