-- ==== Sys2Proof/Machine/Dma.lean ====
section
/-! DEFINITION. Carter DMA, Tally and the host link (16): R390-R415. -/
namespace Sys2Proof.Machine

/-! ### Carter (R403-R409) -/

/-- Channel states (DMA_CHc_STAT.STATE). -/
def dIDLE : Nat := 0
def dFETCH : Nat := 1
def dRUN : Nat := 2
def dLINK : Nat := 3
def dPARKED : Nat := 4
def dERROR : Nat := 5
def dSTOPPING : Nat := 6

/-- Window of channel c, and its state. -/
def dmaOff (c : Nat) : Nat := 0x00401000 + c * 0x40
def State.dmaSt (s : State) (c : Nat) : Nat := s.f (dmaOff c + 4) 31 28
def State.setDma (s : State) (c st : Nat) : State := s.setF (dmaOff c + 4) 31 28 st

/-- A descriptor address: host memory has bit 63 set. -/
def isHost (a : Nat) : Bool := decide (2 ^ 63 ≤ a)

/-- The last address of `count` lines of `len` bytes at stride `str`, plus one. -/
def lineEnd (a len str count : Nat) : Nat := a + (count - 1) * str + len

/-- The check code of a descriptor (R404), 0 where every check passes. -/
def descCheck (d : List Byte) : Nat :=
  let f := fun (o n : Nat) => leNat (slice d o n)
  let next := f 40 8
  let sl := f 16 4
  let sc := f 24 4
  let dl := f 28 4
  let dc := f 36 4
  let ok := fun (a : Nat) => isHost a || decide (a < 2 ^ 32)
  let len := fun (l c : Nat) => decide (1 ≤ l ∧ l ≤ 16777216 ∧ 1 ≤ c ∧ c ≤ 65535)
  if next % 64 ≠ 0 then 1
  else if sl * sc ≠ dl * dc then 2
  else if !len sl sc || !len dl dc then 3
  else if 8 ≤ f 48 2 ∨ f 56 8 ≠ 0 then 4
  else if !ok (f 0 8) || !ok (f 8 8) || !ok next then 5
  else if (!isHost (f 0 8) && decide (2 ^ 32 < lineEnd (f 0 8) sl (f 20 4) sc))
      || (!isHost (f 8 8) && !inScratch (f 8 8) (lineEnd 0 dl (f 32 4) dc)) then 6
  else 0

/-- Carter writes bytes to an address (R399): host memory, or Granary scratch; anything else goes to the default target. -/
def State.dmaPut (s : State) (a : Nat) (l : List Byte) : State :=
  if isHost a then s.hostWrite 1 (a % 2 ^ 63) l
  else if inScratch a l.length then s.granWrite 1 a l
  else s.mtxErr 1 1 a

/-- STATUS of channel c's descriptor is written back where WB is 1 (R403, R406). -/
def State.dmaStatus (s : State) (c : Nat) (err code : Nat) : State :=
  let d := s.dma.getD c []
  if (byteAt d 48) / 2 % 2 = 1 then
    s.dmaPut (s.rd64 (dmaOff c + 0x14) + 52) (leBytes 4 (1 - err + err * 2 + code * 256 + leNat (slice d 50 2) * 65536))
  else s

/-- Channel c ends in ERROR (R404, R407): its code, 0xFF for an error response. -/
def State.dmaError (s : State) (c code : Nat) : State := ((s.setDma c dERROR).setF (dmaOff c + 4) 15 8 code).irq .dma (16 + c)

/-- An error response to channel c at an address (R402, R407). -/
def State.dmaBusErr (s : State) (c addr : Nat) : State :=
  ((s.mtxErr 3 1 addr).raise Flt.dmaBusErr (c * 2 ^ 28 + addr % 2 ^ 28)).dmaError c 0xFF

/-- A failed check of channel c (R404). -/
def State.dmaBad (s : State) (c code : Nat) : State := (s.raise Flt.dmaDescBad (c * 2 ^ 28 + code * 256)).dmaError c code

/-- Carter reads `n` bytes at an address: from the Granary, which may answer with an error (R327), or what host memory answered. -/
def State.dmaGet (s : State) (a n : Nat) (host : List Byte) : (Nat ⊕ List Byte) × State :=
  if isHost a then (.inr (host.take n), s.hostReadReq 1 (a % 2 ^ 63) n) else s.granGet 1 a n

/-- An error response that a command reports to channel c: one of the Granary is an uncorrectable error of the word at the address (R327). -/
def State.dmaErrAt (s : State) (c addr : Nat) : State :=
  if isHost addr || decide (2 ^ 32 ≤ addr) then s.dmaBusErr c addr
  else ((s.dramFail [⟨BitVec.ofNat 32 (addr / 8 * 8), true⟩]).meet addr 1).dmaBusErr c addr

/-- The accesses of a transfer wait until the store is READY, where they go to the Granary (R313). -/
def State.dmaMay (s : State) (as : List Nat) : Bool := s.cstReady || as.all isHost

/-- Channel c is disabled (R408): everything in flight is dropped, BYTES is undefined (free, log entry 3). -/
def State.dmaStop (s : State) (c : Nat) : State :=
  let s := s.setB (dmaOff c) 31 false
  if s.dmaSt c = dIDLE ∨ s.dmaSt c = dSTOPPING then s
  else
    let b := s.takeFree 64
    ((b.2.setDma c dSTOPPING).wr64 (dmaOff c + 0x20) b.1)

/-- A host write to a DMA register (R407-R409). -/
def State.wDma (s : State) (a : Nat) (v : Word) : State :=
  let c := (a - 0x00401000) / 0x40
  let r := (a - 0x00401000) % 0x40
  let o := dmaOff c
  if a < 0x00401000 then s.rwStore a v
  else if r = 0 then
    if !v.bit 31 then s.dmaStop c
    else if s.dmaSt c ≠ dIDLE then s.cfgBad .dma a
    else
      let s := ((s.setB o 31 true).setDma c dFETCH).setB (o + 4) 27 false
      ((s.wr (o + 0x14) (s.rd (o + 8))).wr (o + 0x18) (s.rd (o + 0x0C))).wr64 (o + 0x20) 0
  else if r = 8 ∨ r = 0x0C then (if s.dmaSt c ≠ dIDLE then s.cfgBad .dma a else s.rwStore a v)
  else if r = 0x10 then
    if !v.bit 0 then s
    else if s.dmaSt c = dPARKED then s.setDma c dLINK
    else s.setB (o + 4) 27 true
  else s.rwStore a v

/-- DMA_ENABLE (R407, R408). -/
def execDmaEnable (i : Itf) (c : Fin 16) (s : State) : Out :=
  .next (s.reach i (dmaOff c) 0x80000000 (fun s => s.wDma (dmaOff c) 0x80000000))
/-- DMA_DISABLE (R408). -/
def execDmaDisable (i : Itf) (c : Fin 16) (s : State) : Out := .next (s.reach i (dmaOff c) 0 (fun s => s.wDma (dmaOff c) 0))
/-- DMA_DOORBELL (R409). -/
def execDmaDoorbell (i : Itf) (c : Fin 16) (s : State) : Out :=
  .next (s.reach i (dmaOff c + 0x10) 1 (fun s => s.wDma (dmaOff c + 0x10) 1))

/-- DMA_STOPPED (R407): no response is outstanding. -/
def execDmaStopped (c : Fin 16) (s : State) : Out := .next (if s.dmaSt c = dSTOPPING then s.setDma c dIDLE else s)

/-- DMA_DESC_FETCHED (R404, R407): the descriptor at CUR has been read; `desc` is what host memory answered, none an error response
of either memory. -/
def execDmaDescFetched (c : Fin 16) (desc : Option (List Byte)) (s : State) : Out :=
  let cur := s.rd64 (dmaOff c + 0x14)
  if s.dmaSt c = dFETCH ∧ s.dmaMay [cur] then
    match desc with
    | none => .next (s.dmaErrAt c cur)
    | some b =>
      .next (match s.dmaGet cur 64 b with
      | (.inl x, s) => s.dmaBusErr c x
      | (.inr d, s) =>
        let s := { s with dma := listMod s.dma c (fun _ => d) }
        let code := if cur % 64 ≠ 0 ∨ (!isHost cur ∧ 2 ^ 32 ≤ cur) then 5 else descCheck d
        if code = 0 then s.setDma c dRUN else (s.dmaStatus c 1 code).dmaBad c code)
  else .next s

/-- The source bytes of a descriptor (R404, R405): its lines from the Granary, or what host memory answered, line after line; or the address of an
error response, after which nothing is read. -/
def State.dmaGather (s : State) (d host : List Byte) : (Nat ⊕ List Byte) × State :=
  let a := leNat (slice d 0 8)
  let len := leNat (slice d 16 4)
  let str := leNat (slice d 20 4)
  (List.range (leNat (slice d 24 4))).foldl (fun (x : (Nat ⊕ List Byte) × State) i =>
    let w := if isHost a then 4 else 8
    let at_ := a + i * str
    let lo := at_ / w * w
    let n := (at_ + len + w - 1) / w * w - lo
    match x with
    | (.inl e, s) => (.inl e, s)
    | (.inr l, s) =>
      if isHost a then (.inr (l ++ slice host (i * len) len), s.hostReadReq 1 (lo % 2 ^ 63) n)
      else match s.granGet 1 lo n with
        | (.inl e, s) => (.inl e, s)
        | (.inr b, s) => (.inr (l ++ slice b (at_ - lo) len), s)) (.inr [], s)

/-- The destination lines of a descriptor are written, in line order (R404). -/
def State.dmaScatter (s : State) (d b : List Byte) : State :=
  let a := leNat (slice d 8 8)
  let len := leNat (slice d 28 4)
  let str := leNat (slice d 32 4)
  (List.range (leNat (slice d 36 4))).foldl (fun s i => s.dmaPut (a + i * str) (slice b (i * len) len)) s

/-- DMA_TRANSFER_DONE (R404-R407): the transfer of the channel's descriptor ends; `src` is the data of its source lines where they lie in
host memory, `err` the address of an error response. -/
def execDmaTransferDone (c : Fin 16) (src : List Byte) (err : Option (BitVec 64)) (s : State) : Out :=
  let o := dmaOff c
  let d := s.dma.getD c []
  if s.dmaSt c ≠ dRUN ∨ !s.dmaMay [leNat (slice d 0 8), leNat (slice d 8 8)] then .next s
  else match err with
    | some a => .next (s.dmaErrAt c a.toNat)
    | none =>
     match s.dmaGather d src with
     | (.inl x, s) => .next (s.dmaBusErr c x)
     | (.inr g, s) =>
      let n := leNat (slice d 28 4) * leNat (slice d 36 4)
      let s := s.dmaScatter d g
      let s := (s.wr64 (o + 0x20) (s.rd64 (o + 0x20) + n)).count (o + 0x1C) 31 0 1
      let s := ((s.tallyAdd (0x80 + c) n).tallyAdd (0x90 + c) 1).dmaStatus c 0 0
      let s := if byteAt d 48 % 2 = 1 then s.irq .dma c else s
      let next := leNat (slice d 40 8)
      .next (if next ≠ 0 then (s.wr64 (o + 0x14) next).setDma c dFETCH
        else if s.b (o + 4) 27 then (s.setB (o + 4) 27 false).setDma c dLINK
        else s.setDma c dPARKED)

/-- DMA_LINK_READ (R407, R409): the re-read of NEXT completes; `next` is what host memory answered, none an error response. -/
def execDmaLinkRead (c : Fin 16) (next : Option (BitVec 64)) (s : State) : Out :=
  let o := dmaOff c
  let cur := s.rd64 (o + 0x14)
  if s.dmaSt c ≠ dLINK ∨ !s.dmaMay [cur] then .next s
  else match next with
    | none => .next (s.dmaErrAt c (cur + 40))
    | some x =>
      .next (match s.dmaGet (cur + 40) 8 (leBytes 8 x.toNat) with
      | (.inl x, s) => s.dmaBusErr c x
      | (.inr b, s) =>
        let n := leNat b
        if n % 64 ≠ 0 then s.dmaBad c 1
        else if !isHost n && decide (2 ^ 32 ≤ n) then s.dmaBad c 5
        else if n ≠ 0 then (s.wr64 (o + 0x14) n).setDma c dFETCH
        else if s.b (o + 4) 27 then s.setB (o + 4) 27 false
        else s.setDma c dPARKED)

/-! ### Requests of the matrix (R400) -/

/-- Requests that a fast-layer master has made, and all of them (R411). -/
def State.reqsOf (s : State) (m : Nat) : Nat := s.tallyGet (0xA2 + 4 * m)
def State.reqsAll (s : State) : Nat := ((List.range 5).map s.reqsOf).sum

/-- How many of the requests a master has made since it was last asked the matrix held is free (R400, log entries 3 and 63): they count in HELD and in
Tally. -/
def State.heldOne (s : State) (m : Nat) : State :=
  let k := s.reqsOf m - mapGet (fun _ => 0) s.prf.seen m
  if k = 0 then s
  else
    let f := s.takeFree 48
    let h := f.1 % (k + 1)
    let s := (f.2.countSat (0x00300100 + 4 * m) 31 16 h).tallyAdd (0xA3 + 4 * m) h
    { s with prf := { s.prf with seen := mapSet (fun _ => 0) s.prf.seen m (s.reqsOf m) } }

/-- The held requests of every master are counted. -/
def State.heldCount (s : State) : State := (List.range 5).foldl State.heldOne s

/-- A master may have requests outstanding: the host always; Carter with a channel at work; the engines and rings, Vane and the record writer while
they are powered. -/
def State.mayAsk (s : State) (m : Nat) : Bool :=
  match m with
  | 0 => true
  | 1 => (List.range 16).any (fun c => !decide (s.dmaSt c = dIDLE ∨ s.dmaSt c = dPARKED ∨ s.dmaSt c = dERROR))
  | 2 => s.domOn 5 || s.domOn 7
  | 3 => s.domOn 8
  | _ => s.traceRuns || s.b 0x00500010 31

/-- OUTSTANDING of a master (R400): free up to the limit of 64, and 0 where it can have none (log entries 3 and 63). -/
def State.outOne (s : State) (m : Nat) : State :=
  if s.mayAsk m then
    let f := s.takeFree 8
    f.2.setF (0x00300100 + 4 * m) 6 0 (f.1 % 65)
  else s.setF (0x00300100 + 4 * m) 6 0 0

/-- What the counters of the matrix show when they are read (R400): Tally's counts of held requests, MTX_Mm_STAT, and MTX_OUTSTANDING, whose PEAK
since the last read is free between NOW and what five masters at their limit have. -/
def State.mtxShow (s : State) (a : Nat) : State :=
  match instOf a 0x00300100 4 5 with
  | some m => s.heldCount.outOne m
  | none =>
    if a = 0x00300040 then
      let s := (List.range 5).foldl State.outOne s
      let now := ((List.range 5).map (fun m => s.f (0x00300100 + 4 * m) 6 0)).sum
      let f := s.takeFree 16
      let peak := if now = 0 ∧ s.reqsAll = s.prf.peakSeen then 0 else now + f.1 % (321 - now)
      let t := ((f.2.setF 0x00300040 9 0 now).setF 0x00300040 25 16 peak)
      { t with prf := { t.prf with peakSeen := t.reqsAll } }
    else if (instOf a 0x00501518 32 5).isSome ∧ a % 32 = 24 then s.heldCount
    else s

/-! ### Tally (R411-R415) -/

/-- The dump record of a capture (R414) at TB0 time `t` (2^-16 ns). -/
def State.dumpRecord (s : State) (seq : Nat) (step : Bool) : List Byte :=
  let t := s.tbTime 0 / 2 ^ 24
  let first := s.prf.first
  let ms := s.f 0x00500014 21 0
  let w := if step then ms * 1000000 * 65536 else t - s.prf.prevT
  let bps := fun (i k : Nat) =>
    if first || decide (w = 0) then 0
    else (s.tallyGet i + 2 ^ 48 - s.prf.prevOct.getD k 0) % 2 ^ 48 * 8 * 65536 * 1000000000 / w
  [0x10, 0x01] ++ leBytes 2 2368 ++ leBytes 4 seq ++ timeBytes (s.tbTime 0) ++ leBytes 4 ms
    ++ leBytes 4 ((if first then 1 else 0) + if step then 2 else 0) ++ leBytes 4 (s.rd 0x00000014).toNat ++ List.replicate 32 0
    ++ (List.range 256).flatMap (fun i => leBytes 8 (s.tallyGet i))
    ++ (List.range 16).flatMap (fun p => leBytes 8 (bps (8 * p + 1) (2 * p)) ++ leBytes 8 (bps (8 * p + 3) (2 * p + 1)))

/-- The last capture instant that TB0 has reached (R413), in INTERVALs since the PTP epoch. -/
def State.tallyInstant (s : State) : Nat := s.tbTime 0 / (s.f 0x00500014 21 0 * 1000000 * 2 ^ 40)

/-- TALLY_CAPTURE (R413, R415): every counter is captured on this tick, where TB0 has reached an instant that no capture has
taken. `step`: a step of TB0 passed one or more instants; more than one instant passed at once is such a step. -/
def execTallyCapture (step : Bool) (s : State) : Out :=
  let n := s.tallyInstant
  if s.b 0x00500010 31 ∧ s.prf.instant < n then
    let s := s.heldCount
    let step := step || decide (s.prf.instant + 1 < n)
    let seq := (s.rd 0x00500034).toNat
    let r : DumpRec := ⟨seq, s.dumpRecord seq step⟩
    let oct := (List.range 16).flatMap (fun p => [s.tallyGet (8 * p + 1), s.tallyGet (8 * p + 3)])
    let q := s.prf.queue
    let late := decide (2 ≤ q.length)
    let s := { s.wrN 0x00500034 (seq + 1) with
      prf := { s.prf with queue := (if late then q.drop 1 else q) ++ [r], first := false, prevT := s.tbTime 0 / 2 ^ 24, prevOct := oct, instant := n } }
    .next (if late then
        ((s.countSat 0x0050003C 15 8 1).irq .prf 1).runRaise 7 0 Flt.prfDumpLate (match q with
          | x :: _ => x.seq
          | [] => 0)
      else s)
  else .next s

/-- DUMP_WRITTEN (R414, R415): the record writer has written the oldest capture into its slot, or met an error response. A slot in scratch waits
until the store is READY (R313). -/
def execDumpWritten (ok : Bool) (s : State) : Out :=
  match s.prf.queue with
  | [] => .next s
  | r :: rest =>
    if s.b 0x0050003C 1 || !s.dmaMay [s.rd64 0x00500018] then .next s
    else
      let slots := s.f 0x00500030 16 0
      let a := s.rd64 0x00500018 / 4096 * 4096 + r.seq % slots * 4096
      let s := { s with prf := { s.prf with queue := rest } }
      if !ok || (!isHost a && !inScratch a 4096) then
        let s := if ok then s.mtxErr 1 4 a else s.mtxErr 3 4 a
        .next (((s.setB 0x0050003C 1 true).raise Flt.prfDumpErr (a % 2 ^ 32)).irq .prf 2)
      else
        let s := if slots ≤ (r.seq + 2 ^ 32 - (s.rd 0x00500038).toNat) % 2 ^ 32 then s.countSat 0x0050003C 31 16 1 else s
        .next ((if isHost a then s.hostWrite 4 (a % 2 ^ 63) r.bytes else s.granWrite 4 a r.bytes).irq .prf 0)

/-- A host write to PRF (R413-R415). -/
def State.wPrf (s : State) (a : Nat) (v : Word) : State :=
  let on := s.b 0x00500010 31
  if a = 0x00500010 then
    let s := (s.rwStore a v).setB 0x0050003C 0 (v.bit 31)
    if v.bit 31 && !on then { s.setB 0x0050003C 1 false with prf := { s.prf with first := true, instant := s.tallyInstant } } else s
  else if a = 0x00500014 then
    let ms := v.field 21 0
    if on || !(decide (10 ≤ ms ∧ ms ≤ 3600000) && (decide (1000 % ms = 0) || decide (ms % 1000 = 0))) then s.cfgBad .prf a else s.rwStore a v
  else if a = 0x00500018 ∨ a = 0x0050001C then
    if on || (decide (a = 0x00500018) && decide (v.field 11 0 ≠ 0)) then s.cfgBad .prf a else s.rwStore a v
  else if a = 0x00500030 then
    if on || !(List.range 16).any (fun k => decide (v.field 16 0 = 2 ^ (k + 1))) then s.cfgBad .prf a else s.rwStore a v
  else s.rwStore a v

/-- DUMP_CTL_WRITE (R415). -/
def execDumpCtlWrite (i : Itf) (v : Word) (s : State) : Out := .next (s.reach i 0x00500010 v (fun s => s.wPrf 0x00500010 v))

/-! ### The host link (R394, R396, R402) -/

/-- A ring of port p halts with the host link (R263, R265, R396). -/
def State.ringsHalt (s : State) (p : Nat) : State :=
  let o := macOff p
  let s := if s.b (o + 0x94) 31 ∧ !s.b (o + 0xB8) 0 then
      ((s.setB (o + 0xB8) 0 true).raise Flt.macRingErr (s.f (o + 0x8C) 15 0 * 65536 + p)).irq .mac 4
    else s
  if s.b (o + 0xB4) 31 ∧ !s.b (o + 0xB8) 1 then s.txHalt p (s.f (o + 0xAC) 15 0) else s

/-- What a reset of the host interface leaves of its endpoint (R396): the AER status stays, and after an FLR Max Payload Size and the link control,
as the base specification has it (log entry 62). -/
def Pcie.reset (p : Pcie) (flr : Bool) : Pcie :=
  { devCtl := if flr then 0x2810 ||| (p.devCtl &&& 0xE0) else 0x2810, linkCtl := if flr then p.linkCtl else 0, aerUncor := p.aerUncor, aerCor := p.aerCor }

/-- An FLR, a hot reset or DL_Down (R396): only the host interface is affected; reads of it that are still held end without a completion. -/
def State.linkReset (s : State) (cause : LinkReset) : State :=
  let c := match cause with
    | .dlDown => 1
    | .hotReset => 2
    | .flr => 3
  let s := (List.range 16).foldl State.dmaStop s
  let s := (List.range 16).foldl State.ringsHalt s
  let s := if s.b 0x00500010 31 ∧ isHost (s.rd64 0x00500018) then s.setB 0x0050003C 1 true else s
  let s : State := { s with
    vecMask := 0xFFFFFFFF, pba := 0, pcie := s.pcie.reset (decide (cause = .flr)), rdP := none, heldP := s.heldP.filter (fun h => !h.read),
    spn := { s.spn with snapRd := s.spn.snapRd.filter (fun r => decide (r.1 ≠ .pcie)) },
    pwr := { s.pwr with waits := s.pwr.waits.filter (fun w => decide (w.1 ≠ .pcie) || w.2.2.isSome) } }
  let s := (s.setB 0x00300010 2 false)
  let s := match cause with
    | .flr => s.setB 0x00300010 1 true
    | _ => (s.setF 0x00300010 27 20 0).setB 0x00300010 0 false
  (s.raise Flt.pcieLinkDown c).irq .mtx 4

/-- AER logs errors (R390, R416): MTX/PCIE_ERR with the status bits that set, once for bits that were set already. -/
def State.aerLog (s : State) (unc : Bool) (bits : Word) : State :=
  let old := if unc then s.pcie.aerUncor else s.pcie.aerCor
  let new := bits &&& 0x1FFFFF &&& ~~~old
  if new = 0 then s
  else
    let s : State := { s with pcie := if unc then { s.pcie with aerUncor := old ||| new } else { s.pcie with aerCor := old ||| new } }
    (s.raise Flt.pciePcieErr ((if unc then 2 ^ 31 else 0) + new.toNat)).irq .mtx 5

/-- The block a vector belongs to (R394). -/
def vectorBlk (v : Nat) : Option Blk := Blk.all.find? (fun b => b.vector = v)

/-- A vector that was held while it was masked and is no longer is sent if its summary is still non-zero (R394). -/
def State.vectorFree (s : State) (v : Nat) : State :=
  if s.pba.testBit v && !s.masked v then
    let s : State := { s with pba := s.pba &&& (0xFFFFFFFF ^^^ 2 ^ v) }
    match vectorBlk v with
    | some b => if s.summary b ≠ 0 then s.sendVector v else s
    | none => s
  else s

/-- The Mask bit of a vector is written. -/
def State.setMask (s : State) (v : Nat) (m : Bool) : State :=
  if m then { s with vecMask := s.vecMask ||| 2 ^ v }
  else ({ s with vecMask := s.vecMask &&& (0xFFFFFFFF ^^^ 2 ^ v) } : State).vectorFree v

/-! ### Configuration space (R390; offsets and layouts of the base specification, log entry 62) -/

/-- Writable bits of a BAR's word: the size is 64 MiB, 4 GiB and 16 KiB (R391). -/
def barMask : Nat → Word
  | 0 => 0xFC000000
  | 2 => 0
  | 4 => 0xFFFFC000
  | _ => 0xFFFFFFFF

/-- A word of configuration space. -/
def State.cfgRead (s : State) (r : CfgReg) : Word :=
  match r with
  | .id => 0x94401F5C
  | .command => s.pcie.command ||| (if s.b 0x00300010 2 then 4 else 0)
  | .rev => 0x11800000 + BitVec.ofNat 32 Config.siliconRev.toNat
  | .bar k => s.pcie.bars.getD k.val 0 ||| (if k.val = 2 then 0xC else if k.val = 0 ∨ k.val = 4 then 4 else 0)
  | .subsys => if s.running then BitVec.ofNat 32 s.img.subsys else 0
  | .devCap => 0x10000022
  | .devCtl => s.pcie.devCtl
  | .linkCap => 0x00000844
  | .linkCtl => s.pcie.linkCtl ||| BitVec.ofNat 32 (s.f 0x00300010 27 24 * 2 ^ 16 + s.f 0x00300010 23 20 * 2 ^ 20)
  | .devCap2 => 0x00000193
  | .devCtl2 => s.pcie.devCtl2
  | .msixCtl => 0x001F0011 ||| (if s.pcie.funcMask then 0x40000000 else 0)
  | .msixTable => 4
  | .msixPba => 0x2004
  | .pmCtl => s.pcie.pmCtl
  | .aerUncor => s.pcie.aerUncor
  | .aerCor => s.pcie.aerCor

/-- A configuration write (R390): a write of Initiate Function Level Reset is an FLR (R396), one that clears the Function Mask sends the vectors it
held (R394). -/
def State.cfgWrite (s : State) (r : CfgReg) (v : Word) : State :=
  match r with
  | .command => ({ s with pcie := { s.pcie with command := v &&& 0x0542 } } : State).setB 0x00300010 2 (v.bit 2)
  | .bar k => { s with pcie := { s.pcie with bars := listMod s.pcie.bars k.val (fun _ => v &&& barMask k.val) } }
  | .devCtl =>
    let s : State := { s with pcie := { s.pcie with devCtl := v &&& 0x7FFF } }
    if v.bit 15 then s.linkReset .flr else s
  | .linkCtl => { s with pcie := { s.pcie with linkCtl := v &&& 3 } }
  | .devCtl2 => { s with pcie := { s.pcie with devCtl2 := v &&& 0x1F } }
  | .msixCtl => (List.range 32).foldl State.vectorFree { s with pcie := { s.pcie with funcMask := v.bit 30 } }
  | .pmCtl => if v.field 1 0 = 0 ∨ v.field 1 0 = 3 then { s with pcie := { s.pcie with pmCtl := v &&& 3 } } else s
  | .aerUncor => { s with pcie := { s.pcie with aerUncor := s.pcie.aerUncor &&& ~~~v } }
  | .aerCor => { s with pcie := { s.pcie with aerCor := s.pcie.aerCor &&& ~~~v } }
  | .id | .rev | .subsys | .devCap | .linkCap | .devCap2 | .msixTable | .msixPba => s

/-- PCIE_LINK_RESET (R396), and what else happens on the link (R390): it trains, AER logs, configuration space is written. -/
def execPcieLinkReset (e : LinkEvent) (s : State) : Out :=
  if !s.hostOn then .next s
  else match e with
    | .reset cause => .next (s.linkReset cause)
    | .trained sp w => .next (((s.setF 0x00300010 27 24 (sp.val + 1)).setF 0x00300010 23 20 (2 ^ w.val)).setB 0x00300010 0 true)
    | .aer unc bits => .next (s.aerLog unc (bits.setWidth 32))
    | .config r v => .next (s.cfgWrite r v)

/-- FLR_COMPLETE (R396). -/
def execFlrComplete (s : State) : Out := .next (s.setB 0x00300010 1 false)

/-- A DW of BAR4 (R391): the MSI-X table, with the Mask bit in its fourth words, the PBA; the rest reads 0 (log entry 62). -/
def State.bar4Word (s : State) (o : Nat) : Word :=
  if o < 0x200 then (if o % 16 = 12 then (if s.vecMask.testBit (o / 16) then 1 else 0) else s.msixWord o)
  else if o = 0x2000 then BitVec.ofNat 32 s.pba
  else 0

/-- A DW of BAR4 is written: a word of the MSI-X table; the rest ignores it. -/
def State.bar4Put (s : State) (o : Nat) (v : Word) : State :=
  if 0x200 ≤ o then s
  else if o % 16 = 12 then s.setMask (o / 16) (v.bit 0)
  else { s with pcie := { s.pcie with table := mapSet (fun _ => 0) s.pcie.table o (if o % 16 = 0 then v &&& 0xFFFFFFFC else v) } }

/-- A naturally aligned access to BAR4 (R392). -/
def bar4Ok (off : BitVec 14) (wide : Bool) : Bool := decide (off.toNat % (if wide then 8 else 4) = 0)

/-- A read of BAR4 (R391, R392). -/
def State.bar4Read (s : State) (off : BitVec 14) (wide : Bool) : State :=
  if !s.hostOn then s
  else if !bar4Ok off wide then (s.mtxErr 2 0 off.toNat).complete .pcie { aborted := true }
  else s.complete .pcie { value := (if wide then s.bar4Word (off.toNat + 4) else 0) ++ s.bar4Word off.toNat }

/-- MSIX_UNMASK (R394), and any other write to BAR4 (R391, R392): it masks or unmasks vectors and sets the table's addresses and data. -/
def execMsixUnmask (w : MsixWrite) (s : State) : Out :=
  if !s.hostOn then .next s
  else match w with
    | .unmask v => .next (s.setMask v.val false)
    | .bar4 off wide v =>
      if !bar4Ok off wide then .next (s.mtxErr 2 0 off.toNat)
      else
        let s := s.bar4Put off.toNat (v.setWidth 32)
        .next (if wide then s.bar4Put (off.toNat + 4) ((v >>> 32).setWidth 32) else s)

/-- A request to host memory is outstanding (R402). -/
def State.asks (s : State) (r : HostReq) : Bool :=
  match r with
  | .dmaDesc c => decide (s.dmaSt c = dFETCH)
  | .dmaTransfer c _ => decide (s.dmaSt c = dRUN)
  | .dmaLink c => decide (s.dmaSt c = dLINK)
  | .rxRing p _ => s.b (macOff p + 0x94) 31 && !s.b (macOff p + 0xB8) 0 && decide ((s.port p).host ≠ [])
  | .txRing p _ =>
    s.b (macOff p + 0xB4) 31 && !s.b (macOff p + 0xB8) 1 && decide (s.f (macOff p + 0xB0) 15 0 ≠ s.f (macOff p + 0xAC) 15 0)

/-- A request gets an error response from host memory (R402). -/
def State.noCompletion (s : State) (r : HostReq) : State :=
  match r with
  | .dmaDesc c => s.dmaBusErr c (s.rd64 (dmaOff c + 0x14))
  | .dmaTransfer c a => s.dmaBusErr c a.toNat
  | .dmaLink c => s.dmaBusErr c (s.rd64 (dmaOff c + 0x14) + 40)
  | .rxRing p i => (s.mtxErr 3 2 (s.rxDesc p i.toNat)).rxHalt p i.toNat
  | .txRing p i => s.txFetchErr p i.toNat (s.txDesc p i.toNat)

/-- COMPLETION_TIMEOUT (R402): a request to host memory gets no completion, which is an error response and an AER error (R390, log entry 62); not while
the host has disabled the timeout. -/
def execCompletionTimeout (r : HostReq) (s : State) : Out :=
  .next (if s.asks r && !s.pcie.devCtl2.bit 4 then (s.noCompletion r).aerLog true 0x4000 else s)

end Sys2Proof.Machine
end

