-- ==== Sys2Proof/Machine/Reset.lean ====
section
/-! DEFINITION. What returns to its reset and "img" values: block resets (15 R386, R387) and domains that come on or go off (18
R447, R448). What the table of R387 leaves open of a reset block's logic is log entry 15. -/
namespace Sys2Proof.Machine

/-! ### Registers -/

/-- A register file whose offsets in [lo, hi) hold the image's values again. -/
def windowReset (m img : RegFile) (lo hi : Nat) : RegFile :=
  m.filter (fun r => decide (r.1 < lo)) ++ img.filter (fun r => decide (lo ≤ r.1 ∧ r.1 < hi)) ++ m.filter (fun r => decide (hi ≤ r.1))

/-- Registers of `len` bytes from `lo` return to their reset and "img" values, in force at once (R386). -/
def State.regsReset (s : State) (lo len : Nat) : State :=
  { s with regs := windowReset s.regs s.img.regs lo (lo + len)
           live := windowReset s.live s.img.regs lo (lo + len)
           pendSh := s.pendSh.filter (fun p => !(decide (lo ≤ p.1) && decide (p.1 < lo + len))) }

/-- A commit machine starts afresh. -/
def State.chanReset (s : State) (i : Nat) : State := { s with chans := listMod s.chans i (fun _ => {}) }

/-! ### The blocks of the reset table (R387) -/

/-- Inputs restart: LOS until enough edges have come; the blocks of routed units are abandoned (R111). -/
def State.inputsReset (s : State) (xs : List EdgeSrc) : State :=
  xs.foldl (fun s x => (s.modMonitor x (fun _ => { almFrom := s.spn.ticks })).failSource x) s

/-- REFIN0 to REFIN7, and LO0 to LO3. -/
def refins : List EdgeSrc := (List.finRange 8).map EdgeSrc.refin
def los : List EdgeSrc := (List.finRange 4).map EdgeSrc.lo

/-- Units that start afresh: no calibration, no result (R99). -/
def State.unitsReset (s : State) (us : List TiuId) : State :=
  us.foldl (fun s u => s.modUnit u (fun t => { results := t.results })) s

/-- TIU-P units start afresh. -/
def State.tiuPReset (s : State) (ks : List (Fin 12)) : State :=
  (ks.foldl (fun s k => s.setB 0x01200014 k.val false) (s.unitsReset (ks.map TiuId.p))).vaneUnit

/-- Every candidate that is on goes to QUALIFYING and the selectors select nothing. -/
def State.selReset (s : State) : State :=
  let all := fun (s : State) => (List.range 30).foldl (fun s c =>
    if s.b 0x01300000 c then
      let s := s.ctlIn c
      if s.b (candOff c) 31 then (s.toQualifying c).setB (cStat c) 11 false else s
    else s) s
  let s := (List.range 8).foldl State.selEval (all s)
  let s := s.regsReset 0x01300000 0x100000
  all s

/-- Synthesizers begin from OFF (R188). -/
def State.synReset (s : State) : State :=
  let s := (List.range 4).foldl (fun s k => ((s.guardFree k).synEnter k synOFF).synAligned k false) s
  let s := s.regsReset 0x01600000 0x100000
  let s := ((List.range 4).map (· + 24)).foldl State.chanReset { s with syns := List.replicate 4 {} }
  (List.range 4).foldl (fun s k => if s.lb (synOff k) 31 && s.domOn 3 then s.synSearch k else s.synEnter k synOFF) s

/-- Output j is low until the first rising edge of its waveform after the next second of its base. -/
def State.waveRestart (s : State) (j : Nat) : State :=
  let k := s.outSyn j
  let now := s.synNow k
  let st := s.synState k
  let low : Wave := { kind := .low, fmt := s.outFmt j, from_ := now, edge := s.lastEdge j }
  let s := s.setWaves j [low]
  let s := s.drive j st
  let w := s.target j (if synDrives st then .core else .own)
  if s.f (outOff j + 4) 3 2 = 0 ∨ (s.waveNow j).kind = .loose then s
  else s.setWaves j [low, { w with from_ := s.nextRise k w ((now / secU + 1) * secU) }]

/-- Outputs, PPS pins and ToD channels are armed again at the next second. -/
def State.outReset (s : State) : State :=
  let s := s.regsReset 0x01700000 0x100000
  let s := ((List.range 18).map (· + 28)).foldl State.chanReset s
  let next := fun (k : Nat) => (s.tbTime (s.ppsTb k) / secU + 1) * secU - 1
  let s : State := { s with pps := (List.range 4).map (fun k => { last := some (next k) }), tod := List.replicate 2 {} }
  ((List.range 12).foldl State.waveRestart s).healthFall

/-- Vane begins again: with PD8 on the source falls to NOFIX and the store is read again (R233, R234). `acq` is ACQ_MODE. -/
def State.gnsReset (s0 : State) (acq : Nat) : State :=
  let s := s0.regsReset 0x01800000 0x100000
  let s := { s with srcRes := listMod s.srcRes 0 (fun r => { count := r.count }), gns := { taken := s.gns.taken, hot := s.gns.hot, queue := s.gns.queue } }
  let s := s.setF 0x01800010 29 28 acq
  (if s.domOn 8 then s.gnsPowerUp else s).vaneUnit.candRound s0 [24]

/-- Lanes from OFF (R240): `ms` are the lanes, whose registers return to their reset values. -/
def State.lanesReset (s : State) (ms : List Nat) : State :=
  let s := ms.foldl (fun s m => s.laneTo m lOFF) s
  let s := ms.foldl (fun s m => (s.regsReset (lanOff m) 0x100).modLane m (fun _ => { chkTick := s.spn.ticks, genAt := s.txClock m })) s
  ms.foldl (fun s m => s.laneCtl m (s.rd (lanOff m)) false) s

/-- The packet frames queued or in transmission at port p leave flight; those queued are discarded and counted, and nothing follows the one in
transmission. -/
def State.portDrain (s : State) (p : Nat) : State :=
  let q := (s.port p).pkt
  let n := (q.filter (·.inFlight)).length + (match (s.port p).cur with
    | some (1, f) => if f.inFlight then 1 else 0
    | _ => 0)
  let s := (List.range n).foldl (fun s _ => s.flightOut) (s.macCount p 16 q.length)
  s.modPort p (fun x => { x with pkt := [], cur := x.cur.map (fun c => (c.1, { c.2 with inFlight := false, follow := none, client := none })) })

/-- Ports to DOWN, rings reset. -/
def State.macReset (s : State) : State :=
  let s := (List.range 16).foldl State.portDrain s
  let s := (List.range 16).foldl (fun s p => (s.portTo p pDOWN (some 1)).txFlush p none) s
  let s := s.regsReset 0x02100000 0x100000
  let s := (List.range 16).foldl (fun s p => s.modPort p (fun x => { lim := x.lim, syncSeq := x.syncSeq, annSeq := x.annSeq, authSeq := x.authSeq })) s
  (List.range 16).foldl State.portEval s

/-- The packet engines begin again: packets in flight are discarded and counted, client instances go to OFF, keys are gone; PKT_STAT
shows a service that stopped (R299). -/
def State.pktReset (s : State) : State :=
  let s := (List.range 16).foldl State.portDrain s
  let s := [0, 1, 2, 3].foldl (fun s k => s.setCli k 0) s
  let s := s.regsReset 0x02200000 0x100000
  let s : State := { s with
    pkt := { runs := s.pkt.runs.filter (fun r => decide (5 * 64 ≤ r.1)) }
    srcRes := s.srcRes.mapIdx (fun i (r : CandRes) => if 2 ≤ i then ({ count := r.count } : CandRes) else r)
    mac := s.mac.map (fun (x : MacPort) => { x with lim := {}, syncSeq := 0, annSeq := 0, authSeq := 0 }) }
  if s.keys.authLost then s.setB 0x02200014 31 true else s

/-- The store waits for its initialisation (R313). -/
def State.cstReset (s : State) : State := ({ s.regsReset 0x02300000 0x100000 with cst := {} } : State).healthFall

/-- The tandem unit begins again: no claim, the link from DOWN. TND_STAT.CLASH lasts until power-on reset (R359). -/
def State.tndReset (s : State) : State :=
  let clash := s.b 0x02500014 25
  let s := if s.role = 2 then s.setRole 1 else s
  let s := if s.linkSt = kHELLO ∨ s.linkSt = kPAIRED then s.linkDown else s
  let s := (s.regsReset 0x02500000 0x100000).setB 0x02500014 25 clash
  let s : State := { s with tnd := { ppsRes := { count := s.tnd.ppsRes.count } }, srcRes := listMod s.srcRes 1 (fun r => { count := r.count }) }
  if s.domOn 9 then s.tandemUp else s

/-- Block `b` returns to its reset and "img" values (R386, R387). CFG, PWR, FLT, MTX, SPN, ENS, BND and KEY have no block reset. -/
def State.blockReset (s : State) (b : Blk) : State :=
  match b with
  | .ref =>
    let t := (List.finRange 4).foldl State.loElig (s.regsReset 0x01100000 0x100000)
    (t.inputsReset (refins ++ los)).candRound s (List.range 8)
  | .tiu =>
    let t := ((s.regsReset 0x01200000 0x100000).tiuPReset (List.finRange 12)).unitsReset ((List.finRange 18).map TiuId.lane)
    ([0, 1, 2, 3].foldl State.memberEval t).candRound s (List.range 30)
  | .sel => s.selReset
  | .syn => s.synReset
  | .out => s.outReset
  | .gns => s.gnsReset ((s.regsReset 0x01800000 0x100000).f 0x01800010 29 28)
  | .lan => ((s.lanesReset (List.range 18)).regsReset 0x02000000 0x1000).linkEval
  | .mac => s.macReset
  | .pkt => s.pktReset
  | .cst => s.cstReset
  | .tnd => s.tndReset
  | .dma => { s.regsReset 0x00400000 0x100000 with dma := List.replicate 16 [] }
  | .prf => { s.regsReset 0x00500000 0x100000 with prf := {}, tally := [] }
  | .cfg | .pwr | .flt | .mtx | .spn | .ens | .bnd | .key => s

/-- Reset of a block is possible (R383, R386). -/
def Blk.resets : Blk → Bool
  | .cfg | .pwr | .flt | .mtx | .spn | .ens | .bnd | .key => false
  | _ => true

/-! ### Domains (R447, R448) -/

/-- Domain `d` comes on: its blocks start as a block reset starts them. -/
def State.domainOn (s0 : State) (d : Nat) : State :=
  let s := s0.setB 0x00100014 d true
  match d with
  | 2 =>
    let s := (s.regsReset 0x01101000 0x200).inputsReset refins
    ((s.regsReset 0x01201000 0x400).tiuPReset ((List.finRange 12).filter (fun k => k.val < 8))).candRound s0 (List.range 8)
  | 3 => s.synReset.outReset
  | 5 => (List.range 16).foldl State.portGratuitous s.pktReset
  | 6 => s.cstReset
  | 7 =>
    let s := (s.regsReset 0x01203000 0x800).unitsReset ((List.finRange 18).filterMap (fun m => if m.val < 16 then some (TiuId.lane m) else none))
    ((s.lanesReset (List.range 16)).macReset).candRound s0 ((List.range 16).map (· + 8))
  | 8 => s.gnsReset (s.f 0x01800010 29 28)
  | 9 =>
    let s := (s.regsReset 0x01203800 0x100).unitsReset ((List.finRange 18).filterMap (fun m => if 16 ≤ m.val then some (TiuId.lane m) else none))
    (s.lanesReset [16, 17]).tndReset
  | _ => s

/-- Domain `d` goes off. -/
def State.domainOff (s0 : State) (d : Nat) : State :=
  let s := s0.setB 0x00100014 d false
  match d with
  | 2 =>
    let s := refins.foldl (fun s x => (s.modMonitor x (fun _ => {})).setLosGross x true false) s
    ((refins.foldl State.failSource s)).candRound s0 (List.range 8)
  | 3 =>
    let s := (List.range 4).foldl (fun s k => ((s.guardFree k).synEnter k synOFF).synAligned k false) s
    let s := ((List.range 22).map (· + 24)).foldl State.chanReset s
    ({ s with syns := List.replicate 4 {}, tod := List.replicate 2 {} } : State).healthFall
  | 5 =>
    let s := (List.range 16).foldl State.portDrain { s with pkt := { s.pkt with builds := [] } }
    ([0, 1, 2, 3].foldl (fun s k => s.setCli k 0) s).candRound s0 [26, 27, 28, 29]
  | 6 => (({ s with mem := [], trace := { s.trace with gap := true, queue := [] } } : State).gnsQueueLost.setB 0x02300014 31 false).healthFall
  | 7 =>
    let s := (List.range 16).foldl (fun s m => s.laneTo m lOFF) s
    ((List.range 16).foldl State.portEval s).candRound s0 ((List.range 16).map (· + 8) ++ [26, 27, 28, 29])
  | 8 => s.gnsOff.candRound s0 [24]
  | 9 => (([16, 17].foldl (fun s m => s.laneTo m lOFF) s).tandemOff).candRound s0 [25]
  | _ => s

end Sys2Proof.Machine
end

