-- ==== Sys2Proof/Machine/Watch.lean ====
section
/-! DEFINITION. Watch (15): the restart of the part, rounds and their log, records, reactions, block resets with their masking
windows, and the safe state (R376-R389). -/
namespace Sys2Proof.Machine

/-! ### Restart (R385, R428) -/

/-- Registers that PD0 holds (13, KEY register map). -/
def pd0Reg (a : Nat) : Bool := (decide (0x02401000 ≤ a) && decide (a < 0x02401100)) || (decide (0x02402000 ≤ a) && decide (a < 0x02402100))

/-- A running owner burn that the restart cuts off has burned some of its bits, a free value (R434, log entry 3). -/
def State.burnCut (s : State) : State :=
  if s.b 0x00000064 31 then
    let a := s.takeFree 256
    let b := a.2.takeFree 256
    let c := b.2.takeFree 8
    { c.2 with img := { s.img with
      ownerHash := s.img.ownerHash ||| (s.img.burnHash &&& BitVec.ofNat 256 a.1)
      ownerComp := s.img.ownerComp ||| (s.img.burnComp &&& BitVec.ofNat 256 b.1)
      ownerBits := s.img.ownerBits ||| (s.img.burnBits &&& BitVec.ofNat 8 c.1) } }
  else s

/-- The part restarts as a power-on reset does: every domain but PD0 returns to reset, phase RESET. `keep` names further registers that
survive. The antifuse field and PD0 stay, with the tamper monitor and the 10 µs it watches VDD_CORE (R443); the keep-counter runs on. A root
burn under way is interrupted and leaves the field DAMAGED (13, root field transitions). -/
def State.restart (s0 : State) (keep : Nat → Bool) : State :=
  let s := s0.burnCut
  let k := s.keys
  let cut := k.burnFrom.isSome && decide (k.rootField ≠ 3)
  let t : State := {
    regs := s.regs.filter (fun r => pd0Reg r.1 || keep r.1)
    keys := { rootField := if cut then 2 else k.rootField, root := if cut then 0 else k.root, copyA := k.copyA, copyB := k.copyB, bad := k.bad
              frozen := k.frozen, frozenTo := k.frozenTo - s.spn.ticks, vbatLost := k.vbatLost, later := k.later }
    img := { ownerHash := s.img.ownerHash, ownerComp := s.img.ownerComp, ownerBits := s.img.ownerBits }
    gns := { hot := s.gns.hot }
    pwr := { mainOff := s.pwr.mainOff, keep := s.keepNow, keepValid := s.pwr.keepValid, keepCopy := s.pwr.keepCopy }
    out := s.out, free := s.free, pending := s.pending }
  t.setB 0x02400010 5 (t.b 0x02402010 31)

/-- CRESET (R385): FLT_FIRST, FLT_WORST, their contexts and FLT_RESET_CAUSE are kept, and CFG_REFUSE.COUNT, which only a power-on reset
clears (R427). -/
def State.creset (s : State) (cause src : Nat) : State :=
  let t := s.restart (fun a => decide (0x00200030 ≤ a) && decide (a < 0x00200040))
  (t.setF 0x00000018 7 0 (s.f 0x00000018 7 0)).wrN 0x0020007C (cause * 2 ^ 30 + src * 256)

/-! ### Sources (R379) -/

/-- The block that owns a source number. -/
def srcBlk (n : Nat) : Option Blk :=
  if n < 0x38 then [Blk.cfg, .pwr, .flt, .mtx, .dma, .prf, .spn][n / 8]?
  else [Blk.ref, .tiu, .sel, .ens, .bnd, .syn, .out, .gns, .lan, .mac, .pkt, .cst, .key, .tnd][(n - 0x38) / 4]?

/-- FLT_REACTs and FLT_SRCs. -/
def reactOff (n : Nat) : Nat := 0x00201000 + n * 4
def srcOff (n : Nat) : Nat := 0x00201400 + n * 4

/-- Dependents that a reset of a block also masks (R387). -/
def Blk.dependents : Blk → List Blk
  | .ref => [.tiu, .sel] | .tiu => [.sel, .gns, .tnd] | .sel => [.ens] | .syn => [.out, .tnd] | .out => [.tnd] | .gns => [.sel]
  | .lan => [.mac, .tiu, .sel, .tnd] | .mac => [.pkt, .sel] | .pkt => [.cst, .sel] | .cst => [.pkt, .bnd, .gns] | .tnd => [.sel, .out]
  | _ => []

/-- The blocks masked now, by their fence bits (FLT_MASK_STAT). -/
def State.maskedBits (s : State) : Nat :=
  (Blk.all.filter (fun b => Blk.all.any (fun w => s.flt.windows.any (fun x => decide (x.1 = w.bit)) && (decide (w = b) || w.dependents.contains b)))).foldl
    (fun a b => a ||| 2 ^ b.bit) 0

/-- A message of source `n` is masked (R387). -/
def State.maskedSrc (s : State) (n : Nat) : Bool :=
  match srcBlk n with
  | some b => s.maskedBits.testBit b.bit
  | none => false

/-! ### Taking a message (R378, R381, R382) -/

/-- A log entry that nothing has written. -/
def noEntry (_ : Nat) : Word × Word × Word × Word := (0, 0, 0, 0)

/-- An entry is written to the log; the oldest is overwritten where host software has not read it (R381). -/
def State.fltLog (s : State) (m : FaultMsg) (first : Bool) (round : Nat) : State :=
  let wr := (s.rd 0x00200040).toNat
  let lapped := decide (1024 ≤ (wr + 2 ^ 32 - (s.rd 0x00200044).toNat) % 2 ^ 32)
  let w0 := BitVec.ofNat 32 (m.src * 2 ^ 24 + m.kind * 2 ^ 16 + m.sev * 2 ^ 14 + (if first then 2 ^ 13 else 0) + (if s.safe then 2 ^ 12 else 0) + round)
  let e := (w0, m.ctx, (timeWords (s.tbTime 0)).1, BitVec.ofNat 32 (s.tbSec 0))
  let s := ({ s with flt := { s.flt with log := mapSet noEntry s.flt.log (wr % 1024) e } } : State).wrN 0x00200040 (wr + 1)
  if lapped then ((s.countSat 0x00200058 15 0 1).irq .flt 2).runRaise 8 0 Flt.fltLogOverrun ((wr + 2 ^ 32 - 1024) % 2 ^ 32)
  else s

/-- FLT_FIRST or FLT_WORST, at `o`, records a message. -/
def State.fltRecord (s : State) (o : Nat) (m : FaultMsg) (round : Nat) : State :=
  (s.wrN o (m.src * 2 ^ 24 + m.kind * 2 ^ 16 + m.sev * 2 ^ 14 + 2 ^ 12 + round)).wr (o + 4) m.ctx

/-- Watch takes a message that is not masked: the records, the log entry, the source's status (R378, R381, R382). -/
def State.fltTake (s : State) (m : FaultMsg) (round : Nat) : State :=
  let first := decide (1 ≤ m.sev) && !s.b 0x00200030 12
  let worst := decide (1 ≤ m.sev) && (!s.b 0x00200038 12 || decide (s.f 0x00200038 15 14 < m.sev))
  let s := if first then (s.fltRecord 0x00200030 m round).irq .flt 1 else s
  let s := if worst then s.fltRecord 0x00200038 m round else s
  let s := s.fltLog m first round
  let o := srcOff m.src
  ((s.setB o (28 + m.sev) true).setF o 23 16 m.kind).countSat o 15 0 1

/-- The reaction mask of a message (R383): in the safe state INT and NMI for severities 2 and 3 (R389); no BRESET of a block that has no
reset. -/
def State.reaction (s : State) (m : FaultMsg) : Nat :=
  if s.safe then (if 2 ≤ m.sev then 3 else 0)
  else
    let r := match m.sev with
      | 0 => 0
      | 1 => s.f (reactOff m.src) 12 8
      | 2 => s.f (reactOff m.src) 20 16
      | _ => s.f (reactOff m.src) 28 24
    match srcBlk m.src with
    | some b => if b.resets then r else r &&& 0x1B
    | none => r &&& 0x1B

/-- An NMI event (R384): HOST_NMI_N goes low and vector 0 is sent, whatever its masks hold; without Bus Master Enable it is not sent. -/
def State.nmi (s : State) : State :=
  if s.b 0x00200028 0 then s
  else
    let s := (s.setB 0x00200028 0 true).emit .nmi
    if s.b 0x00300010 2 then s.msixSend 0 else (s.setB 0x00200014 29 true).raise Flt.fltNmiUnsent 0

/-- Entry into the safe state (R388, R389): the message, the cause; selectors select nothing, authenticated service stops, one NMI
event, to which the message belongs. A part that is in the safe state stays so and takes the message alone. -/
def State.safeEnter (s : State) (cause : Nat) (f : FaultId) (ofs : Nat) : State :=
  let s := s.raise f (if cause = 1 then ofs else 0)
  if s.safe then s
  else
    let s : State := { s with flt := { s.flt with entry := f.kind } }
    let s := (s.setB 0x00200014 31 true).wrN 0x00200078 (cause * 2 ^ 30 + if cause = 1 then ofs else 0)
    let s := ((List.range 8).foldl State.selEval s).authStop 0
    s.nmi

/-- FLT registers that are held in complementary pairs (R388): FLT_CTL, the records and their contexts, FLT_REACTs, the SEEN bits. -/
def isPair (o : Nat) : Bool :=
  decide (o = 0x10) || decide (o = 0x30) || decide (o = 0x34) || decide (o = 0x38) || decide (o = 0x3C)
    || (decide (0x1000 ≤ o) && decide (o < 0x1800) && decide (o % 4 = 0) && (srcBlk (o % 0x400 / 4)).isSome)

/-- A pair whose halves differ is found: the part enters the safe state. Its halves agree from then on, so that it is reported once (log entry 60). -/
def State.pairFail (s : State) (o : Nat) : State :=
  ({ s with flt := { s.flt with split := s.flt.split.filter (fun p => decide (p.1 ≠ o)) } } : State).safeEnter 1 Flt.fltPairMismatch o

/-- Accesses to FLT registers check their pairs (R388). -/
def State.pairAccess (s : State) (os : List Nat) : State :=
  os.foldl (fun s o => if s.flt.split.any (fun p => decide (p.1 = o)) then s.pairFail o else s) s

/-- The pairs that Watch reads or writes when it takes a message. -/
def pairsOf (m : FaultMsg) : List Nat := [0x30, 0x34, 0x38, 0x3C, reactOff m.src - 0x00200000, srcOff m.src - 0x00200000]

/-- What is held in a pair of a register: of FLT_SRCs, the SEEN bits. -/
def pairBits (o : Nat) : Word := if 0x1400 ≤ o then 0xF0000000 else 0xFFFFFFFF

/-- One half of a pair is disturbed in the bits given, the true half or the inverted one; the two differ where they did not before. -/
def State.pairUpset (s : State) (o : Nat) (bits : Word) (inverted : Bool) : State :=
  let bits := bits &&& pairBits o
  let old := mapGet (fun _ => (0 : Word)) s.flt.split o
  let s : State := { s with flt := { s.flt with split := mapSet (fun _ => 0) s.flt.split o (old ^^^ bits) } }
  if inverted then s else s.wr (0x00200000 + o) (s.rd (0x00200000 + o) ^^^ bits)

/-- A block reset is applied in a round (R386, R387): logged, the masking window open. -/
def State.bresetIn (s : State) (b : Blk) (round : Nat) : State :=
  let s := s.blockReset b
  let s : State := { s with flt := { s.flt with windows := (b.bit, s.spn.ticks) :: s.flt.windows.filter (fun x => decide (x.1 ≠ b.bit)) } }
  s.fltTake ⟨Flt.fltBreset.src, Flt.fltBreset.kind, Flt.fltBreset.sev, BitVec.ofNat 32 (2 ^ b.bit)⟩ round

/-! ### Rounds (R377, R383) -/

/-- Service order of two messages: SEV from the highest, SOURCE, KIND ascending. -/
def msgBefore (a b : FaultMsg) : Bool :=
  if a.sev ≠ b.sev then decide (b.sev < a.sev)
  else if a.src ≠ b.src then decide (a.src < b.src)
  else decide (a.kind < b.kind)

/-- A message into an ordered list, after those of its own rank (arrival). -/
def insertMsg (m : FaultMsg) : List FaultMsg → List FaultMsg
  | [] => [m]
  | x :: r => if msgBefore m x then m :: x :: r else x :: insertMsg m r

/-- The messages of a round in the order of R377. -/
def roundOrder (l : List FaultMsg) : List FaultMsg := l.foldl (fun a m => insertMsg m a) []

/-- The NMI reaction of a message (R384): the message of an entry into the safe state belongs to the event of the entry (R389). -/
def State.nmiFor (s : State) (m : FaultMsg) : State :=
  if m.src = Flt.fltSafeReq.src ∧ m.sev = 3 ∧ m.kind = s.flt.entry then { s with flt := { s.flt with entry := 0 } } else s.nmi

/-- One message of a round: masked and counted, or taken, and then its reactions but CRESET. `cres`: the round sets off a CRESET, so no
block is reset. -/
def State.fltServe (s : State) (round : Nat) (cres : Bool) (m : FaultMsg) : State :=
  if s.maskedSrc m.src then s.countSat 0x00200068 31 0 1
  else
    let r := s.reaction m
    let s := s.fltTake m round
    let s := if r.testBit 0 then s.irq .flt 0 else s
    let s := if r.testBit 1 then s.nmiFor m else s
    match srcBlk m.src with
    | some b => if r.testBit 2 && b.resets && !cres then s.bresetIn b round else s
    | none => s

/-- One round of Watch (R38, R377, R383, R429): every latched message is taken; those that Watch holds from before it started take one
round each. Its accesses check the pairs they touch (R388). -/
def State.fltRound (s : State) : State :=
  if !s.running then s
  else match s.faults with
    | [] => s
    | m :: r =>
      let n := if 0 < s.flt.early then 1 else (m :: r).length
      let batch := roundOrder ((m :: r).take n)
      let round := s.flt.round
      let s := s.pairAccess (batch.flatMap pairsOf)
      let cres := batch.find? (fun x => !s.maskedSrc x.src && (s.reaction x).testBit 3)
      let s : State := { s with faults := s.faults.drop n, flt := { s.flt with round := (round + 1) % 4096, early := s.flt.early - 1 } }
      let s := batch.foldl (fun s x => s.fltServe round cres.isSome x) s
      match cres with
      | some x => s.creset 1 x.src
      | none => s

/-- Rounds until no message that was latched waits: the early ones, the others, and what those rounds themselves raised. -/
def State.fltFlush (s : State) : State := (List.range (s.flt.early + 3)).foldl (fun s _ => s.fltRound) s

/-- A fence marker is taken in a round of its own (R44). -/
def State.marker (s : State) (ctx : Nat) : State :=
  let f := Flt.cfgFence
  let m : FaultMsg := ⟨f.src, f.kind, f.sev, BitVec.ofNat 32 ctx⟩
  let s := s.pairAccess (pairsOf m)
  let round := s.flt.round
  ({ s with flt := { s.flt with round := (round + 1) % 4096 } } : State).fltServe round false m

/-! ### Host writes (R378, R385, R386, R388) -/

/-- FLT_BRESET: every named block that has a reset; discarded in the safe state (R389). The write is served first in a round, in which the
messages latched by then follow (R377, R387). -/
def State.wBreset (s : State) (v : Word) : State :=
  let bs := Blk.all.filter (fun b => v.bit b.bit && b.resets)
  let s := if bs.isEmpty then s else s.pairAccess (pairsOf ⟨Flt.fltBreset.src, Flt.fltBreset.kind, Flt.fltBreset.sev, 0⟩)
  if s.safe ∨ bs.isEmpty then s
  else
    let s := bs.foldl (fun s b => s.bresetIn b s.flt.round) s
    if s.faults.isEmpty ∨ 0 < s.flt.early then { s with flt := { s.flt with round := (s.flt.round + 1) % 4096 } } else s.fltRound

/-- FLT_CRESET: KEY 0xA5 restarts the part. -/
def State.wCreset (s : State) (v : Word) : State := if v.field 31 24 = 0xA5 then s.creset 2 0 else s.cfgBad .flt 0x00200070

/-- FLT_CRESET_WRITE (R385). -/
def execFltCresetWrite (i : Itf) (v : Word) (s : State) : Out := .next (s.reach i 0x00200070 v (fun s => s.wCreset v))

/-- FLT_SAFE_REQ: KEY 0x5AFE enters the safe state. -/
def State.wSafeReq (s : State) (v : Word) : State := if v.field 15 0 = 0x5AFE then s.safeEnter 2 Flt.fltSafeReq 0 else s.cfgBad .flt 0x00200074

/-- FLT_SAFE_REQ_WRITE (R388). -/
def execFltSafeReqWrite (i : Itf) (v : Word) (s : State) : Out := .next (s.reach i 0x00200074 v (fun s => s.wSafeReq v))

/-- PAIR_CHECK (R388): half of a pair is disturbed, and every pair is checked, unless the check is late. -/
def execPairCheck (run : PairRun) (s : State) : Out :=
  let s := match run.upset with
    | some u => if s.running && isPair u.off.toNat then s.pairUpset u.off.toNat u.bits u.inverted else s
    | none => s
  .next (if !s.running || run.late then s else s.pairAccess (s.flt.split.map (·.1)))

/-- MASK_WINDOW_END (R387): the reset window of a block and 10 µs more have passed since its reset; `b` is the block's fence bit. -/
def execMaskWindowEnd (b : Fin 21) (s : State) : Out :=
  .next { s with flt := { s.flt with windows := s.flt.windows.filter (fun x => !(decide (x.1 = b.val) && decide (x.2 + resetWindow x.1 + 20000 ≤ s.spn.ticks))) } }

/-- A write to FLT_FIRST or FLT_WORST: VALID written 1 clears the whole record and its context (R378). -/
def State.wRecord (s : State) (o : Nat) (v : Word) : State := if v.bit 12 then (s.wr o 0).wr (o + 4) 0 else s

/-- RECORD_CLEAR (R378): of FLT_WORST, or of FLT_FIRST. -/
def execRecordClear (i : Itf) (worst : Bool) (s : State) : Out :=
  let o := if worst then 0x00200038 else 0x00200030
  .next (s.reach i o 0x1000 (fun s => s.wRecord o 0x1000))

/-- A host write to another register of FLT: PIN_SEV 0 is discarded; the registers of sources that are not assigned discard with
CFG_BAD (R379); BRESET of a block without a reset reads 0. -/
def State.wFlt (s : State) (a : Nat) (v : Word) : State :=
  if a = 0x00200010 then (if v.field 1 0 = 0 then s.cfgBad .flt a else s.rwStore a v)
  else if 0x00201400 ≤ a then
    let n := (a - 0x00201400) / 4
    if (srcBlk n).isNone then s.cfgBad .flt a else s.wr a (s.rd a &&& ~~~(v &&& 0xF0000000))
  else if 0x00201000 ≤ a then
    match srcBlk ((a - 0x00201000) / 4) with
    | none => s.cfgBad .flt a
    | some b => s.rwStore a (if b.resets then v else v &&& 0xFBFBFBFF)
  else s.rwStore a v

/-- ERR_N is low (R384). -/
def State.errLow (s : State) : Bool :=
  !s.running || s.safe || (List.range 0x70).any (fun n => [1, 2, 3].any (fun v =>
    decide (s.f 0x00200010 1 0 ≤ v) && s.b (srcOff n) (28 + v) && (s.f (reactOff n) (8 * v + 4) (8 * v)).testBit 4))

/-- Highest uncleared severity of any source (FLT_STAT.HIGHEST). -/
def State.highest (s : State) : Nat :=
  let has := fun (v : Nat) => (List.range 0x70).any (fun n => s.b (srcOff n) (28 + v))
  if has 3 then 3 else if has 2 then 2 else if has 1 then 1 else 0

end Sys2Proof.Machine
end

