-- ==== Sys2Proof/Machine/Power.lean ====
section
/-! DEFINITION. Power (18): domain requests, rails, the loss of main power and the keep-counter (R431, R441-R450). -/
namespace Sys2Proof.Machine

/-! ### Domains (R35, R446-R448) -/

/-- PWR/REFUSED with a code (R446, R460). -/
def State.pwrRefuse (s : State) (code target : Nat) : State :=
  ((s.setF 0x00100014 27 24 code).raise Flt.pwrRefused (code * 2 ^ 28 + target)).irq .pwr 1

/-- The request ends (R447): PWR/DOMAIN_CHANGE. -/
def State.domEnd (s : State) : State :=
  let s := s.setB 0x00100014 31 false
  s.raise Flt.pwrDomainChange (s.f 0x00100014 9 0)

/-- A write to PWR_DOM_REQ (R446, R448): held while a request runs, refused, or begun. -/
def State.wDomReq (s : State) (i : Itf) (v : Word) : State :=
  let t := v.field 9 0
  let cap := s.f 0x00100000 9 0
  if s.domBusy then { s with pwr := { s.pwr with reqs := s.pwr.reqs ++ [{ itf := i, off := 0x00100010, v := v }] } }
  else if t &&& cap ≠ t then s.pwrRefuse 2 t
  else if t &&& 0x13 ≠ 0x13 then s.pwrRefuse 3 t
  else if !domClosed t then s.pwrRefuse 1 t
  else
    let s := (s.setF 0x00100010 9 0 t).setB 0x00100014 31 true
    let s : State := { s with pwr := { s.pwr with domTick := s.spn.ticks } }
    if s.domNext.isSome then s else (s.setF 0x00100014 27 24 0).domEnd.irq .pwr 0

/-- DOM_REQ_WRITE (R446). -/
def execDomReqWrite (i : Itf) (v : Word) (s : State) : Out := .next (s.reach i 0x00100010 v (fun s => s.wDomReq i v))

/-- A host write to another register of PWR: ranges, with PWR/REFUSED code 5. -/
def State.wPwr (s : State) (a : Nat) (v : Word) : State :=
  if (a = 0x00100034 ∧ (v.field 3 2 = 3 ∨ v.field 1 0 = 3)) ∨ (a = 0x00100040 ∧ 105 * 256 < signedOf 16 (v.field 15 0)) then
    s.pwrRefuse 5 s.domTarget
  else if a = 0x00100030 then s.wr a (s.rd a &&& ~~~(v &&& 0x03FF0000))
  else s.rwStore a v

/-! ### Rails and main power (R441, R443) -/

/-- RAIL_FAULT (R441): a rail is outside its range for 1 µs while PORST_N is high. -/
def execRailFault (rail : Fin 10) (s : State) : Out :=
  if s.pwr.mainOff then .next s
  else .next ((((s.setB 0x00100030 (16 + rail.val) true).setB 0x00100030 rail.val false).raise Flt.pwrRailFault rail.val).irq .pwr 2)

/-- A power-on reset in the KEYS phase of a start that found the field BLANK: whether the burn of R336 had begun, which leaves the field DAMAGED,
is free (log entry 3). -/
def State.rootCut (s : State) : State :=
  if s.f 0x00000010 31 28 = 2 ∧ s.keys.rootField = 0 then
    let r := s.takeFree 1
    if r.1 = 1 then r.2.modKeys (fun k => { k with rootField := 2 }) else r.2
  else s

/-- A power-on reset: PORST_N low, a brown-out, or main power gone (R428, R441). CFG_REFUSE and FLT_RESET_CAUSE restart from 0. -/
def State.powerReset (s : State) (mainLost : Bool) : State :=
  let t := s.rootCut.restart (fun _ => false)
  { t with pwr := { t.pwr with mainOff := mainLost } }

/-- POWER_ON_RESET (R428): PORST_N goes low, or main power goes altogether. -/
def execPowerOnReset (mainLost : Bool) (s : State) : Out := .next (s.powerReset mainLost)

/-- BROWN_OUT (R441). -/
def execBrownOut (s : State) : Out := .next (s.powerReset s.pwr.mainOff)

/-- KEEP_COPY (R431): at each TB0 second boundary, while TB0 has a finite bound, TB0 is copied into the keep-counter; once in a second. -/
def execKeepCopy (s : State) : Out :=
  if s.running ∧ s.rd (bndOff 0) ≠ 0xFFFFFFFF ∧ s.pwr.keepCopy / 2 ^ 15 ≠ s.tbSec 0 then
    let k := s.tbTime 0 * 2 ^ 15 / secU
    .next { s with pwr := { s.pwr with keep := k, keepTick := s.spn.ticks, keepValid := true, keepCopy := k } }
  else .next s

end Sys2Proof.Machine
end

