-- ==== Sys2Proof/Machine/View.lean ====
section
/-! DEFINITION. What a host read of a register returns: the value the register shows, the banks that hold status sets for an interface
(R64, R113), and what the read clears (R14, R15). -/
namespace Sys2Proof.Machine

/-! ### Words that the machine computes -/

/-- Words of CFG: the revision, KEEP_VALID, the subset's sources (R435), the owner row (R434). -/
def State.viewCfg (s : State) (o : Nat) (r : Word) : Word :=
  match o with
  | 0x00 => r.setField 15 8 Config.siliconRev.toNat
  | 0x10 => r.setField 17 17 (if s.pwr.keepValid then 1 else 0)
  | 0x28 =>
    let strap := s.b 0x00000010 20
    BitVec.ofNat 32 ((if strap || s.img.compat then 4 else 0) + (if s.img.compat then 2 else 0) + if strap then 1 else 0)
  | 0x64 => ((r.setField 30 29 s.img.ownerRow).setField 28 28 (if s.img.require then 1 else 0)).setField 27 27
      (if s.img.ownerKey.isSome then 1 else 0)
  | _ => r

/-- The log entry that FLT_LOG_RD names (R381). -/
def State.logEntry (s : State) : Word × Word × Word × Word := mapGet noEntry s.flt.log ((s.rd 0x00200044).toNat % 1024)

/-- Words of FLT: ERR_N and the highest severity (R384), masked blocks (R387), the log entry (R381); registers of sources that are not
assigned read 0 (R379). -/
def State.viewFlt (s : State) (o : Nat) (r : Word) : Word :=
  match o with
  | 0x14 => (r.setField 30 30 (if s.errLow then 1 else 0)).setField 1 0 s.highest
  | 0x48 => s.logEntry.1
  | 0x4C => s.logEntry.2.1
  | 0x50 => s.logEntry.2.2.1
  | 0x54 => s.logEntry.2.2.2
  | 0x64 => BitVec.ofNat 32 s.maskedBits
  | _ => if 0x1000 ≤ o ∧ (srcBlk (o % 0x400 / 4)).isNone then 0 else r

/-- Words of PWR: VBAT and CRES as sampled at the last second of running; before the first their reset value. -/
def State.viewPwr (s : State) (o : Nat) (r : Word) : Word :=
  let n := s.spn.ticks / 2000000000
  if (o = 0x50 ∨ o = 0x54) ∧ n ≠ 0 then (Config.supplyMv ((o - 0x50) / 4) n).setWidth 32 else r

/-- Words of SPN: COMP in force (R48), and of a base its state, what PEND and FNOW hold, its leap state (R58, R59, R71, R72). -/
def State.viewSpn (s : State) (o : Nat) (r : Word) : Word :=
  if o = 0x18 then BitVec.ofNat 32 (wrapTo 48 s.compNow)
  else if o = 0x1C then BitVec.ofNat 32 (wrapTo 48 s.compNow / 2 ^ 32)
  else if o = 0x40 then (List.range 8).foldl (fun w p => if s.evtBridge p then w.setBit p else w) r
  else match instOf o 0x1000 0x100 8 with
    | none => r
    | some n =>
      match o % 0x100 with
      | 0x04 => BitVec.ofNat 32 (r.field 31 28 * 2 ^ 28 + (if s.pend n = 0 then 0 else 8) + (if s.tbYoked n then 4 else 0)
          + (if s.tbHost n then 2 else 0) + (if s.tbPresent n then 1 else 0))
      | 0x20 => BitVec.ofNat 32 (wrapTo 48 (s.base n).fnow)
      | 0x24 => BitVec.ofNat 32 (wrapTo 48 (s.base n).fnow / 2 ^ 32)
      | 0x30 => BitVec.ofNat 32 (wrapTo 64 (s.pend n))
      | 0x34 => BitVec.ofNat 32 (wrapTo 64 (s.pend n) / 2 ^ 32)
      | 0x70 => BitVec.ofNat 32 (wrapTo 16 (s.leapOfs n) * 2 ^ 16 + s.leapDir n * 4 + (if (s.base n).smearing then 2 else 0)
          + (if (s.base n).leapSec then 1 else 0))
      | _ => r

/-- Words of TIU: STOP_SEL GRID and UNWRAP 1 of TIU-P8 to TIU-P11, UNWRAP 1 of the lane units, SYS (R104). -/
def State.viewTiu (s : State) (o : Nat) (r : Word) : Word :=
  match instOf o 0x1000 0x80 12, instOf o 0x3000 0x80 18 with
  | some k, _ =>
    if o % 0x80 = 0 ∧ 8 ≤ k then (r.setField 29 28 1).setBit 30
    else if o % 0x80 = 0x0C then BitVec.ofNat 32 (if h : k < 12 then s.unitSys (.p ⟨k, h⟩) else 0)
    else r
  | none, some _ => if o % 0x80 = 0 then r.setBit 30 else if o % 0x80 = 0x0C then 3 else r
  | none, none => r

/-- Words of SEL: CLASS as the candidate's class (R117, R372); the selector of a yoked base (R134). -/
def State.viewSel (s : State) (o : Nat) (r : Word) : Word :=
  match instOf o 0x1000 0x80 30, instOf o 0x3000 0x40 8 with
  | some c, _ => if o % 0x80 = 0 then r.setField 30 30 (if s.candFreqOnly c then 1 else 0) else r
  | none, some n =>
    if o % 0x40 = 0 ∧ s.tbYoked n then 0 else if o % 0x40 = 8 then s.selStat n else r
  | none, none => r

/-- Words of ENS: feed-forward (R156), HOLD_SEC: whole seconds from T of the last applied result in HOLDOVER and EXIT, 0 in every other state
(R158). -/
def State.viewEns (s : State) (o : Nat) (r : Word) : Word :=
  match instOf o 0x1000 0x100 8 with
  | some n =>
    if o % 0x100 = 4 then r.setField 25 25 (if s.b 0x01400000 (8 + n) then 1 else 0)
    else if o % 0x100 = 0xA0 ∧ (s.tbState n = stHOLDOVER ∨ s.tbState n = stEXIT) then
      match (s.ctl n).secTick with
      | some k => BitVec.ofNat 32 (satAt 0xFFFFFFFF (ticksSec k s.spn.ticks))
      | none => r
    else r
  | none => r

/-- Words of BND: what is present, the ring's state, whether the trace writer runs, and the FLAGS of each base (R174). -/
def State.viewBnd (s : State) (o : Nat) (r : Word) : Word :=
  if o = 0x48 then r.setField 0 0 (if s.traceOn then 1 else 0)
  else if o = 0 then BitVec.ofNat 32 (s.f 0x01000000 7 0 + if s.domOn 6 && s.b 0x02300014 31 then 256 else 0)
  else match instOf o 0x1000 0x100 8 with
    | some n => if o % 0x100 = 4 then r.setField 15 0 (s.blutaFlags n) else r
    | none => r

/-- LP of the lanes of each 100GBASE-R4 group (R252). -/
def State.groupBits (s : State) : Nat :=
  ([0, 1, 2, 3].filter (fun g => s.b 0x02100000 (16 + g) && s.b (lanOff (4 * g)) 29)).foldl (fun a g => a + 2 ^ g) 0

/-- Nanoseconds of the running paused interval of port p (R266). -/
def State.pauseLeft (s : State) (p : Nat) : Nat :=
  if s.b (macOff p + 4) 28 then satAt 0xFFFFFFFF (((s.port p).pauseTo - s.spn.ticks) / 2) else 0

/-- What the register at `a` shows now. -/
def State.view (s : State) (a : Nat) : Word :=
  let r := s.rd a
  let w := match Blk.ofOff a with
    | none => 0
    | some b =>
      let o := a - b.base
      match b with
      | .cfg => s.viewCfg o r
      | .flt => s.viewFlt o r
      | .prf => match instOf o 0x1000 8 256 with
        | some k => BitVec.ofNat 32 (if o % 8 = 0 then s.tallyGet k else s.tallyGet k / 2 ^ 32 % 2 ^ 16)
        | none => r
      | .pwr => s.viewPwr o r
      | .spn => s.viewSpn o r
      | .tiu => s.viewTiu o r
      | .sel => s.viewSel o r
      | .ens => s.viewEns o r
      | .bnd => s.viewBnd o r
      | .syn => if o = 0x10 then r.setField 0 0 (if s.b spineStat 5 then 1 else 0) else r
      | .lan => if o = 0x1C then BitVec.ofNat 32 s.groupBits else r
      | .mac => match instOf o 0x1000 0x400 16 with
        | some p => if o % 0x400 = 0x14 then BitVec.ofNat 32 (s.pauseLeft p) else r
        | none => r
      | .key => match instOf o 0x1000 4 64 with
        | some k => (r.setField 31 28 (slotType k)).setField 27 26 (s.slotActive k)
        | none => r
      | .tnd => if o = 0x14 then r.setField 24 24 (if s.safe && s.domOn 9 then 1 else 0) else r
      | _ => r
  match findReg a with
  | some d => w &&& ~~~(BitVec.ofNat 32 d.wo)
  | none => 0

/-! ### Banks (R64, R113, R183, R231, R278, R381, R412) -/

/-- A status set: a read of the register at `lead` of instance i copies the registers at `members` into the reading interface's bank,
where later reads find them. -/
structure BankSet where
  base : Nat
  stride : Nat
  n : Nat
  lead : Nat
  members : List Nat
  deriving DecidableEq, Repr

/-- Offsets from `lo` to `hi` in words. -/
def wordsTo (lo hi : Nat) : List Nat := (List.range ((hi - lo) / 4 + 1)).map (fun k => lo + 4 * k)

/-- The status sets but for the counters. -/
def statusSets : List BankSet := [
  ⟨0x01301000, 0x80, 30, 0x10, wordsTo 0x18 0x34⟩,
  ⟨0x01400100, 0x40, 4, 0x04, wordsTo 0x08 0x20 ++ [0x28]⟩,
  ⟨0x01401000, 0x100, 8, 0x04, wordsTo 0x80 0xB8⟩,
  ⟨0x01501000, 0x100, 8, 0x00, wordsTo 0x04 0x38⟩,
  ⟨0x02001000, 0x100, 18, 0x04, [0x0C, 0x10]⟩,
  ⟨0x02101000, 0x400, 16, 0x04, [0x14, 0x44]⟩,
  ⟨0x02204000, 0x100, 4, 0x28, [0x2C, 0x30, 0x34, 0x38]⟩,
  ⟨0x02500000, 0x100000, 1, 0x14, [0x18, 0x30, 0x34, 0x90, 0x94, 0x98, 0x9C]⟩,
  ⟨0x00200000, 0x100000, 1, 0x48, [0x4C, 0x50, 0x54]⟩]

/-- The result sets (R113), the TIMING message (R231) and the two words of each counter (R278, R412). -/
def resultSets : List BankSet := [
  ⟨0x01201000, 0x80, 12, 0x10, wordsTo 0x14 0x3C⟩,
  ⟨0x01203000, 0x80, 18, 0x10, wordsTo 0x14 0x3C⟩,
  ⟨0x02204000, 0x100, 4, 0x40, wordsTo 0x44 0x6C⟩,
  ⟨0x01800000, 0x100000, 1, 0x200, wordsTo 0x204 0x23C⟩,
  ⟨0x00501000, 8, 256, 0, [4]⟩,
  ⟨0x02205000, 8, 24, 0, [4]⟩] ++
  (List.range 16).map (fun p => ⟨0x02101100 + p * 0x400, 8, 24, 0, [4]⟩)

/-- Instance and offset of a register in a set's range. -/
def BankSet.place (b : BankSet) (a : Nat) : Option (Nat × Nat) :=
  if b.base ≤ a ∧ a < b.base + b.stride * b.n then some ((a - b.base) / b.stride, (a - b.base) % b.stride) else none

/-- What a read of the register at `a` copies into the bank. -/
def latched (a : Nat) : List Nat :=
  (statusSets ++ resultSets).flatMap (fun b => match b.place a with
    | some (i, o) => if o = b.lead then b.members.map (fun m => b.base + i * b.stride + m) else []
    | none => [])

/-- Whether a read of the register at `a` finds the bank: a member of a set, a snapshot word (R64), or the bits a PRBS read banked
(R251). -/
def banked (a : Nat) : Bool :=
  (decide (0x01000100 ≤ a) && decide (a < 0x01000200))
    || ((decide (0x02001000 ≤ a) && decide (a < 0x02002200)) && (decide (a % 0x100 = 0x2C) || decide (a % 0x100 = 0x30)))
    || (statusSets ++ resultSets).any (fun b => match b.place a with
      | some (_, o) => b.members.contains o
      | none => false)

/-- A port counter or an engine counter: its _LO read clears all 48 bits (R278). -/
def counterLo (a : Nat) : Bool :=
  (decide (0x02205000 ≤ a) && decide (a < 0x022050C0) && decide (a % 8 = 0))
    || (decide (0x02101000 ≤ a) && decide (a < 0x02105000) && decide (0x100 ≤ a % 0x400) && decide (a % 0x400 < 0x1C0) && decide (a % 8 = 0))

/-- The bits that the read of an interface clears (R14). -/
def rcMask (a : Nat) : Word :=
  match findReg a with
  | some d => BitVec.ofNat 32 d.rc
  | none => 0

/-- The other host interface. -/
def otherItf : Itf → Itf
  | .pcie => .i2c
  | .i2c => .pcie

/-- A read of a banked count takes the count `v` it returned from the register, less what a read of the other interface has taken of
the same counts since the bank was latched (kept in the bank at `a + 1`, where no register lies); the other bank is told. A count that
came since the latch stays (R15). -/
def State.countTake (s : State) (i : Itf) (a v : Nat) : State :=
  let mine := v - (s.bankRd i (a + 1)).toNat
  let j := otherItf i
  let s := s.wrN a ((s.rd a).toNat - mine)
  ((s.bankWr i a 0).bankWr i (a + 1) 0).bankWr j (a + 1) (BitVec.ofNat 32 ((s.bankRd j (a + 1)).toNat + mine))

/-- What a read that returned `v` clears (R14, R15). -/
def State.clearRead (s : State) (i : Itf) (a : Nat) (v : Word) : State :=
  if counterLo a then (s.wr a 0).wr (a + 4) 0
  else if rcMask a = 0 then s
  else if banked a then s.countTake i a (v &&& rcMask a).toNat
  else s.wr a (s.rd a &&& ~~~(rcMask a))

/-- Errors and bits checked since the interface's previous read of PRBS_ERR: the errors are returned, the bits banked, and both counts
of the interface start again (R251). `errs`: what the line has brought, where the access says it. -/
def State.prbsRead (s : State) (i : Itf) (m : Nat) (errs : Option Nat) : Word × State :=
  let a := lanOff m + 0x28
  let s := s.prbsErrs m errs
  let x := s.lane m
  let r : Nat × Nat := match i with
    | .pcie => (x.errP, x.bitsP)
    | .i2c => (x.errI, x.bitsI)
  let b := satAt (2 ^ 48 - 1) r.2
  let s := s.modLane m (fun x => match i with
    | .pcie => { x with errP := 0, bitsP := 0 }
    | .i2c => { x with errI := 0, bitsI := 0 })
  (BitVec.ofNat 32 (satAt 0xFFFFFFFF r.1), (s.bankWr i (a + 4) (BitVec.ofNat 32 b)).bankWr i (a + 8) (BitVec.ofNat 32 (b / 2 ^ 32)))

/-- The lane whose register window holds `a`. -/
def laneOf (a : Nat) : Option Nat := if 0x02001000 ≤ a ∧ a < 0x02002200 then some ((a - 0x02001000) / 0x100) else none

/-- The word a read of a present register returns, and the state after it. -/
def State.readReg (s : State) (i : Itf) (a : Nat) (errs : Option Nat) : Word × State :=
  let s := match laneOf a with
    | some m => s.genCount m
    | none => s
  let s := if Blk.ofOff a = some .flt then s.pairAccess [a - 0x00200000] else s.mtxShow a
  if a = 0x01000024 then (s.snapStat i, s)
  else if (laneOf a).isSome ∧ a % 0x100 = 0x28 then s.prbsRead i ((laneOf a).getD 0) errs
  else
    let s := if a = 0x02400080 then s.drawNonce else s
    let s := (latched a).foldl (fun s o => (s.bankWr i o (s.view o)).bankWr i (o + 1) 0) s
    let v := if banked a then s.bankRd i a else s.view a
    (v, s.clearRead i a v)

/-! ### A host read -/

/-- A read of an offset that names no register (R393, R398): Completer Abort on PCIe, 0 on I²C, MTX/DECODE. -/
def State.missRead (s : State) (i : Itf) (a : Nat) : State :=
  match i with
  | .pcie => (s.mtxErr 1 0 a).complete .pcie { aborted := true }
  | .i2c => (s.mtxErr 1 5 a).answer .i2c a 0

/-- The register at `a` answers a read: 0 at an absent register (R33); a snapshot word is held while a capture runs
(R65). -/
def State.readAt (s : State) (i : Itf) (a : Nat) (errs : Option Nat) : State :=
  if s.absent a then (s.absentHit a).answer i a 0
  else if 0x01000100 ≤ a ∧ a < 0x01000200 ∧ (s.snapOf i).isSome then s.modSpn (fun p => { p with snapRd := p.snapRd ++ [(i, a)] })
  else
    let r := s.readReg i a errs
    r.2.answer i a r.1

/-- A read reaches the register at `a`: 0 before RUN outside CFG (R430), held behind an earlier access to its block (R41) or while its
domain ramps (R448). -/
def State.readBy (s : State) (i : Itf) (a : Nat) (errs : Option Nat) : State :=
  if !s.hostOn then s
  else if !s.running ∧ Blk.ofOff a ≠ some .cfg then s.answer i a 0
  else if (findReg a).isNone then s.missRead i a
  else
    let s := s.regTally i false
    if s.behind i a false then s.hold { itf := i, off := a, v := 0, read := true, errs := errs }
    else if s.ramping a then { s with pwr := { s.pwr with waits := s.pwr.waits ++ [(i, a, none)] } }
    else s.readAt i a errs

/-- A host read of BAR0. -/
def State.hostRead (s : State) (i : Itf) (a : Nat) : State := s.readBy i a none

/-! ### Commands -/

/-- RC_READ (R15): a read of a read-to-clear field. Every host read that has no row of its own is this one: of any register, through BAR2 (R329) or BAR4
(R391), of configuration space (R390), and the zero-length read of BAR0, which completes and touches no register (R392). -/
def execRcRead (r : HostRead) (s : State) : Out :=
  match r with
  | .reg i off => .next (s.hostRead i off)
  | .bar2 a n errs => .next (s.bar2Read a.toNat n errs)
  | .bar4 off wide => .next (s.bar4Read off wide)
  | .config r => .next (if s.hostOn then s.complete .pcie { value := (s.cfgRead r).setWidth 64 } else s)
  | .zero _ => .next (if s.hostOn then s.complete .pcie {} else s)

/-- TIU_RESULT_READ (R113): a read of RES_SEQ of a unit. -/
def execTiuResultRead (i : Itf) (u : TiuId) (s : State) : Out := .next (s.hostRead i (tiuOff u + 0x10))

/-- GNS_TIM_READ (R231). -/
def execGnsTimRead (i : Itf) (s : State) : Out := .next (s.hostRead i 0x01800200)

/-- MAC_COUNTER_READ (R278): _LO of counter `c` of port p. -/
def execMacCounterRead (i : Itf) (p : Fin 16) (c : Fin 24) (s : State) : Out :=
  .next (s.hostRead i (macOff p + 0x100 + c.val * 8))

/-- STATUS_BANK_READ (R113): a read of the register of a set that latches it. -/
def execStatusBankRead (i : Itf) (off : Nat) (s : State) : Out := .next (s.hostRead i off)

/-- PRF_COUNTER_READ (R412): bits 31:0 of a counter, its bits 47:32 into the bank. -/
def execPrfCounterRead (i : Itf) (k : Fin 256) (s : State) : Out := .next (s.hostRead i (0x00501000 + k.val * 8))

/-- NONCE_READ (R352). -/
def execNonceRead (i : Itf) (s : State) : Out := .next (s.hostRead i 0x02400080)

/-- PRBS_ERR_READ (R251): the line has brought the errors given since it was last asked, which count while the checker is locked. -/
def execPrbsErrRead (i : Itf) (m : Fin 18) (errs : Nat) (s : State) : Out :=
  .next (s.readBy i (lanOff m + 0x28) (some errs))

end Sys2Proof.Machine
end

