-- ==== Sys2Proof/Machine/Loader.lean ====
section
/-! DEFINITION. CFG as the host writes it: the load window (17 R420), the owner row (R434) and fences (01 R42-R46). -/
namespace Sys2Proof.Machine

/-- Start-up phases (CFG_STAT.PHASE, R428). -/
def phRESET : Nat := 0
def phBURN : Nat := 1
def phKEYS : Nat := 2
def phFETCH : Nat := 3
def phVERIFY : Nat := 4
def phLOADWAIT : Nat := 5
def phSTRUCT : Nat := 6
def phPOWER : Nat := 7
def phREGS : Nat := 8
def phRUN : Nat := 9
def phHALT : Nat := 10
def phTEST : Nat := 11

/-- CFG_STAT.PHASE. -/
def State.phase (s : State) : Nat := s.f 0x00000010 31 28
def State.setPhase (s : State) (p : Nat) : State := s.setF 0x00000010 31 28 p

/-- The PCIe Subsystem Vendor ID (bits 15 to 0) and Subsystem ID (R430): 0 until PHASE is RUN, the header's from then on. -/
def State.subsystem (s : State) : Nat := if s.running then s.img.subsys else 0

/-- The image store changed by `g`. -/
def State.modImg (s : State) (g : Img → Img) : State := { s with img := g s.img }

/-- A host write to CFG that breaks a stated range: CFG/CFG_BAD once Watch runs (17, register map). -/
def State.cfgDiscard (s : State) (a : Nat) : State := if s.running then s.cfgBad .cfg a else s

/-! ### The load window (R420) -/

/-- Size of the load buffer. -/
def bufSize : Nat := 524288

/-- START: the buffer is cleared and CFG_LOAD_ADDR set to 0; in LOAD_WAIT only. -/
def State.loadStart (s : State) : State :=
  if s.phase = phLOADWAIT then (s.modImg (fun m => { m with buf := [], full := false })).wrN 0x00000034 0 else s

/-- The load buffer as far as its header says; bytes nobody has written since START are 0. -/
def loadedBytes (b : List Byte) : List Byte :=
  let n := max 64 (min bufSize (leNat (slice b 8 4)))
  if b.length < n then padTo n b else b

/-- GO: the image in the buffer goes to VERIFY; in LOAD_WAIT only. -/
def State.loadGo (s : State) : State :=
  if s.phase = phLOADWAIT then (s.modImg (fun m => { m with src := 2, buf := loadedBytes m.buf })).setPhase phVERIFY else s

/-- A write to CFG_LOAD_CTL. -/
def State.wLoadCtl (s : State) (v : Word) : State :=
  let s := if v.bit 30 then s.loadStart else s
  if v.bit 31 then s.loadGo else s

/-- A write to CFG_LOAD_ADDR, DW-aligned; in LOAD_WAIT only. -/
def State.wLoadAddr (s : State) (v : Word) : State :=
  if s.phase ≠ phLOADWAIT then s
  else if v.field 1 0 ≠ 0 then s.cfgDiscard 0x00000034
  else (s.modImg (fun m => { m with full := false })).wrN 0x00000034 (v.field 18 0)

/-- A write to CFG_LOAD_DATA: four bytes at the address, which advances; beyond the buffer it is discarded. -/
def State.wLoadData (s : State) (v : Word) : State :=
  if s.phase ≠ phLOADWAIT ∨ s.img.full then s
  else
    let a := s.f 0x00000034 18 0
    (s.modImg (fun m => { m with buf := padTo a m.buf ++ leBytes 4 v.toNat ++ m.buf.drop (a + 4)
                                 full := decide (bufSize ≤ a + 4) })).wrN 0x00000034 ((a + 4) % bufSize)

/-- LOAD_START (R420). -/
def execLoadStart (i : Itf) (s : State) : Out := .next (s.reach i 0x00000030 0x40000000 (fun s => s.loadStart))

/-- LOAD_DATA (R420). -/
def execLoadData (i : Itf) (v : Word) (s : State) : Out := .next (s.reach i 0x00000038 v (fun s => s.wLoadData v))

/-- LOAD_GO (R420). -/
def execLoadGo (i : Itf) (s : State) : Out := .next (s.reach i 0x00000030 0x80000000 (fun s => s.loadGo))

/-! ### The owner row (R434) -/

/-- An owner command ends with a code. -/
def State.ownerEnd (s : State) (code : Nat) : State := ((s.setB 0x00000064 31 false).setF 0x00000064 11 8 code).irq .cfg 2

/-- The owner hash in CFG_OWNER_HASH0-7: byte 4i + j in bits [8j+7:8j] of word i. -/
def State.ownerHashReg (s : State) : BitVec 256 := BitVec.ofNat 256 (leNat (s.regBytes 0x00000040 8))

/-- A burn begins: the bits it is to set. -/
def State.ownerBurn (s : State) (h c : BitVec 256) (b : BitVec 8) : State :=
  (s.modImg (fun m => { m with burnHash := h, burnComp := c, burnBits := b })).setB 0x00000064 31 true

/-- FUSE: NOT_BLANK unless the row is BLANK. -/
def State.ownerFuse (s : State) (req : Bool) : State :=
  if s.img.ownerRow ≠ 0 then s.ownerEnd 1
  else s.ownerBurn s.ownerHashReg (~~~s.ownerHashReg) (if req then 7 else 1)

/-- SET_REQUIRE: NOT_PRESENT unless the row is PRESENT. -/
def State.ownerRequire (s : State) : State := if s.img.ownerRow ≠ 1 then s.ownerEnd 2 else s.ownerBurn 0 0 6

/-- An owner command is accepted in LOAD_WAIT and in RUN; while one runs, a further one is discarded. -/
def State.ownerTakes (s : State) : Bool := (decide (s.phase = phLOADWAIT) || s.running) && !s.b 0x00000064 31

/-- A write to CFG_OWNER_CMD: KEY 0x0F, OP 1 or 2; other values are discarded. -/
def State.wOwnerCmd (s : State) (v : Word) : State :=
  if v.field 31 24 ≠ 0x0F ∨ v.field 1 0 = 0 ∨ v.field 1 0 = 3 then s.cfgDiscard 0x00000060
  else if !s.ownerTakes then s
  else if v.field 1 0 = 1 then s.ownerFuse (v.bit 8) else s.ownerRequire

/-- FUSE (R434). -/
def execFuse (i : Itf) (req : Bool) (s : State) : Out :=
  .next (s.reach i 0x00000060 (if req then 0x0F000101 else 0x0F000001) (fun s => if s.ownerTakes then s.ownerFuse req else s))

/-- SET_REQUIRE (R434). -/
def execSetRequire (i : Itf) (s : State) : Out :=
  .next (s.reach i 0x00000060 0x0F000002 (fun s => if s.ownerTakes then s.ownerRequire else s))

/-- OWNER_BURN_DONE (R434): the burn ends and the row is read back; `missed` are the row's bits 0 to 519 that did not take. -/
def execOwnerBurnDone (missed : BitVec 520) (s : State) : Out :=
  if !s.b 0x00000064 31 then .next s
  else
    let m := s.img
    let h := m.ownerHash ||| m.burnHash
    let c := m.ownerComp ||| m.burnComp
    let b := m.ownerBits ||| m.burnBits
    let row := fun (old want miss : Nat) => old ||| (want ^^^ (want &&& miss))
    let n : Img := { m with
      ownerHash := BitVec.ofNat 256 (row m.ownerHash.toNat h.toNat missed.toNat)
      ownerComp := BitVec.ofNat 256 (row m.ownerComp.toNat c.toNat (missed.toNat / 2 ^ 256))
      ownerBits := BitVec.ofNat 8 (row m.ownerBits.toNat b.toNat (missed.toNat / 2 ^ 512))
      burnHash := 0, burnComp := 0, burnBits := 0 }
    let good := decide (n.ownerHash = h ∧ n.ownerComp = c ∧ n.ownerBits = b)
    .next ((s.modImg (fun _ => n)).ownerEnd (if good then 0 else 3))

/-! ### Fences (R42-R46) -/

/-- The open fence of an interface set; CFG_FENCE_STAT shows it. -/
def State.setFence (s : State) (i : Itf) (f : Option Fence) : State :=
  match i with
  | .pcie => { s.setB 0x00000104 0 f.isSome with fenceP := f }
  | .i2c => { s.setB 0x00000104 1 f.isSome with fenceI := f }

/-- The writes that an interface's fence holds, set. -/
def State.setHeld (s : State) (i : Itf) (l : List HeldWrite) : State :=
  match i with
  | .pcie => { s with heldP := l }
  | .i2c => { s with heldI := l }

/-- A fence ends: its sequence number and tag into CFG_FENCE_STAT (R44). -/
def State.fenceStat (s : State) (tag : Nat) : State :=
  ((s.count 0x00000104 31 16 1).setF 0x00000104 15 8 tag).tallyAdd 0xB7 1

/-- A write to CFG_FENCE (R42): it opens a fence; before RUN the fence completes at once without marker and record (R430). -/
def State.wFence (s : State) (i : Itf) (v : Word) : State :=
  if s.running then s.setFence i (some { tag := v.field 31 24, mask := v.field 20 0, since := s.spn.ticks }) else s.fenceStat (v.field 31 24)

/-- FENCE_OPEN (R42, R46): while an earlier fence of the interface is open the write is held. -/
def execFenceOpen (i : Itf) (v : Word) (s : State) : Out := .next (s.reach i 0x00000100 v (fun s => s.wFence i v))

/-- A host write to another register of CFG. -/
def State.wCfg (s : State) (i : Itf) (a : Nat) (v : Word) : State :=
  match a with
  | 0x00000030 => s.wLoadCtl v
  | 0x00000034 => s.wLoadAddr v
  | 0x00000038 => s.wLoadData v
  | 0x00000060 => s.wOwnerCmd v
  | 0x00000100 => s.wFence i v
  | _ => s.rwStore a v

end Sys2Proof.Machine
end

