-- ==== Sys2Proof/Machine/HostRegs.lean ====
section
/-! DEFINITION. A host write to any register of BAR0: which meaning it has by block and offset, and what a register without one of its own does
(R14; the ranges of the register maps of chapters 01 to 18). -/
namespace Sys2Proof.Machine

/-- Registers whose WO fields hold data that a command uses later (KEY_EPHi, KEY_WRAPi, PKT_KEY_WRAP0-5, CST_KWi). -/
def woData (a : Nat) : Bool :=
  (decide (0x02400110 ≤ a) && decide (a < 0x02400158)) || (decide (0x02203220 ≤ a) && decide (a < 0x02203238))
    || (decide (0x02300140 ≤ a) && decide (a < 0x02300158))

/-- A write to the register at `a` by its access codes (R14): RW fields and WO data are set, W1C bits cleared, W1S bits set; the rest is
ignored. -/
def State.accStore (s : State) (a : Nat) (v : Word) : State :=
  match findReg a with
  | none => s
  | some d =>
    let rw := BitVec.ofNat 32 (d.rw + if woData a then d.wo else 0)
    let w := (s.rd a &&& ~~~rw) ||| (v &&& rw)
    s.wr a ((w &&& ~~~(v &&& BitVec.ofNat 32 d.w1c)) ||| (v &&& BitVec.ofNat 32 d.w1s))

/-! ### Interrupt registers (R394) -/

/-- A write to IRQ_STAT clears the bits written 1; the vector is sent where the summary stays non-zero. -/
def State.wIrqStat (s : State) (b : Blk) (v : Word) : State :=
  let s := s.accStore b.irqOff v
  if s.summary b ≠ 0 then s.sendVector b.vector else s

/-- A write to IRQ_EN sends the vector where the summary becomes non-zero. -/
def State.wIrqEn (s : State) (b : Blk) (v : Word) : State :=
  let t := s.rwStore (b.irqOff + 4) v
  if s.summary b = 0 ∧ t.summary b ≠ 0 then t.sendVector b.vector else t

/-! ### Blocks without a meaning of their own for every register -/

/-- SPN: the forced carrier, a snapshot request, the scheduler slots. -/
def State.wSpn (s : State) (i : Itf) (a : Nat) (v : Word) : State :=
  if a = 0x01000010 then s.wSpineCtl v
  else if a = 0x01000020 then s.snapRequest i (v.field 7 0)
  else match instOf a 0x01002000 0x20 64 with
    | some k => if a % 0x20 = 0 then s.wSlotCtl k v else s.wSlotReg k (a % 0x20) v
    | none => s.accStore a v

/-- REF: the inputs and the oscillators. -/
def State.wRef (s : State) (a : Nat) (v : Word) : State :=
  match instOf a 0x01101000 0x40 8, instOf a 0x01102000 0x40 4 with
  | some n, _ =>
    if h : n < 8 then
      match a % 0x40 with
      | 0x00 => s.wRefin ⟨n, h⟩ .ctl v
      | 0x04 => s.wRefin ⟨n, h⟩ .freq v
      | 0x08 => s.wRefin ⟨n, h⟩ .div v
      | 0x0C => s.wRefin ⟨n, h⟩ .dly v
      | _ => s.accStore a v
    else s
  | none, some m =>
    if h : m < 4 then
      match a % 0x40 with
      | 0x00 => s.wLo ⟨m, h⟩ .ctl v
      | 0x04 => s.wLo ⟨m, h⟩ .freq v
      | _ => s.accStore a v
    else s
  | none, none => s.accStore a v

/-- A write to TIU_Lm_CTL: N 0 is refused, which the unit's STAT shows; a change of FREQ_EN abandons the running block (R111). -/
def State.wTiuLane (s : State) (m : Fin 18) (v : Word) : State :=
  let o := tiuOff (.lane m)
  if v.field 15 0 = 0 then s.setB (o + 8) 2 true
  else
    let t := (s.rwStore o v).setB (o + 8) 2 false
    if t.b o 31 = s.b o 31 then t else t.abandon (.lane m) 1

/-- TIU: calibration control, the units' control words. -/
def State.wTiu (s : State) (a : Nat) (v : Word) : State :=
  if a = 0x01200010 then s.wCalCtl v
  else match instOf a 0x01201000 0x80 12, instOf a 0x01203000 0x80 18 with
    | some k, _ => if h : k < 12 then (if a % 0x80 = 0 then s.wTiuCtl ⟨k, h⟩ v else s.accStore a v) else s
    | none, some m => if h : m < 18 then (if a % 0x80 = 0 then s.wTiuLane ⟨m, h⟩ v else s.accStore a v) else s
    | none, none => s.accStore a v

/-- SEL: a candidate's settings reach its QL, its UEFF and its state in the same round (R119-R121); CLASS is RO from candidate 8 on
(R117). -/
def State.wSel (s : State) (a : Nat) (v : Word) : State :=
  match instOf a 0x01301000 0x80 30, instOf a 0x01303000 0x40 8 with
  | some c, _ =>
    if a % 0x80 ≤ 8 then
      let t := if 8 ≤ c ∧ a % 0x80 = 0 then s.rwStore a (v.setField 30 30 ((s.rd a).field 30 30)) else s.rwStore a v
      (t.ctlIn c).candRound s [c]
    else s.accStore a v
  | none, some n => if a % 0x40 = 4 then s.wSelCtl n v else s.accStore a v
  | none, none => s.accStore a v

/-- ENS: GATE outside 3 to 10, a horizon or time constant of 0 and WMAX 0 are discarded (05, register map); ENS has no fault for it. -/
def State.wEns (s : State) (a : Nat) (v : Word) : State :=
  if a = 0x01400010 then (if v.field 15 8 < 3 ∨ 10 < v.field 15 8 then s else s.rwStore a v)
  else if a = 0x01400014 ∨ a = 0x01400018 then (if v = 0 then s else s.rwStore a v)
  else match instOf a 0x01400100 0x40 4 with
    | some m =>
      if h : m < 4 then
        if a % 0x40 ≠ 0 then s.accStore a v
        else if v.field 15 8 = 0 then s
        else (s.rwStore a v).memberEval ⟨m, h⟩
      else s
    | none => s.accStore a v

/-- BND: TLV_TYPE keeps to R175; a trace writer that stops leaves a gap (R180). -/
def State.wBnd (s : State) (a : Nat) (v : Word) : State :=
  if a = 0x01500020 ∧ ¬(v.field 31 16 = 0x0003 ∨ v.field 31 16 = 0x4000 ∨ v.field 31 16 = 0x8000) then s.cfgBad .bnd a
  else
    let t := s.accStore a v
    if a = 0x01500010 then (if v.bit 0 then t.traceDrain else { t with trace := { t.trace with gap := true } }) else t

/-- GNS. -/
def State.wGnsReg (s : State) (a : Nat) (v : Word) : State :=
  if a = 0x01800078 then s.wAidCtl v else if rwMask a = 0 then s.accStore a v else s.wGns (a - 0x01800000) v

/-- LAN. -/
def State.wLan (s : State) (a : Nat) (v : Word) : State :=
  if a = 0x0200001C then s.wGroupLp v
  else match instOf a 0x02001000 0x100 18 with
    | some m =>
      match a % 0x100 with
      | 0x00 => s.wLanCtl m v
      | 0x08 => s.wTxeq m v
      | 0x24 => s.wPrbsCtl m v
      | 0x40 => s.wEyeCtl m v
      | _ => s.accStore a v
    | none => s.accStore a v

/-- MAC. The low bits of a ring base are reserved. -/
def State.wMac (s : State) (a : Nat) (v : Word) : State :=
  match instOf a 0x02101000 0x400 16 with
  | some p =>
    match a % 0x400 with
    | 0x00 => s.wMacCtl p v
    | 0x94 => s.wRxCtl p v
    | 0xB4 => s.wTxCtl p v
    | 0x80 => s.wMacReg p 0x80 (v &&& 0xFFFFFFC0)
    | 0xA0 => s.wMacReg p 0xA0 (v &&& 0xFFFFFFC0)
    | r => if rwMask a = 0 then s.accStore a v else s.wMacReg p r v
  | none => s.accStore a v

/-- DOMAIN range of a PTP profile (R285). -/
def domainRange (profile : Nat) : Nat × Nat :=
  if profile = 1 then (0, 127) else if profile = 2 then (24, 43) else if profile = 3 then (44, 63) else (0, 255)

/-- An interface of the packet engines is in use and its port UP (R283). -/
def State.ifUsable (s : State) (k : Nat) : Bool := s.b (ifOff k) 31 && s.domOn 5 && decide (s.portSt (s.f (ifOff k) 19 16) = pUP)

/-- A client instance is switched off (R308). -/
def State.cliStop (s : State) (k : Nat) : State :=
  (s.setCli k 0).modCli k (fun c => { reqSeq := c.reqSeq, sigSeq := c.sigSeq, txSeq := c.txSeq, rxSeq := c.rxSeq })

/-- PKT: the ranges of its register map. -/
def State.wPkt (s : State) (a : Nat) (v : Word) : State :=
  let bad := s.cfgBad .pkt a
  match instOf a 0x02201000 0x80 16, instOf a 0x02202000 0x40 64, instOf a 0x02204000 0x100 4 with
  | some p, _, _ =>
    if a % 0x80 = 0 then
      let r := domainRange (s.profile p)
      if v.field 27 26 = 3 ∨ v.field 15 8 < r.1 ∨ r.2 < v.field 15 8 then bad else (s.rwStore a v).budgetShow p
    else s.rwStore a v
  | none, some k, _ =>
    let t := s.rwStore a v
    if t.ifUsable k && !s.ifUsable k then t.gratuitous k else t
  | none, none, some k =>
    if a % 0x100 = 0x20 ∧ v.field 15 0 = 0 then bad
    else
      let t := s.rwStore a v
      if a % 0x100 = 0 ∧ !v.bit 31 then t.cliStop k else t
  | none, none, none =>
    match a with
    | 0x02200040 => if v.field 31 16 < v.field 15 0 then bad else s.rwStore a v
    | 0x02203200 => s.wKeyCmd v
    | 0x02203400 => if v.field 3 0 = 0 ∨ 8 < v.field 3 0 then bad else s.rwStore a v
    | 0x02203420 => s.wNtsRing v
    | 0x02203440 | 0x02203444 => if v.field 2 0 ≠ 0 then bad else s.rwStore a v
    | 0x02203448 => if v.field 16 0 = 0 ∨ 65536 < v.field 16 0 then bad else s.rwStore a v
    | 0x0220344C => s.wMint v
    | _ =>
      match instOf a 0x02203410 4 4 with
      | some r =>
        let dup := (List.range 4).any (fun t => decide (t ≠ r) && decide (s.ringState t ≠ 0) && decide (s.ringState r ≠ 0)
          && decide (s.rd (0x02203410 + 4 * t) = v))
        if dup then bad else s.rwStore a v
      | none => s.accStore a v

/-- CST. -/
def State.wCst (s : State) (a : Nat) (v : Word) : State :=
  if a = 0x02300100 then s.wCstCmd v
  else if a = 0x0230001C ∧ (v.field 16 0 < 60 ∨ 86400 < v.field 16 0) then s.cfgBad .cst a
  else s.accStore a v

/-- KEY. -/
def State.wKeyReg (s : State) (a : Nat) (v : Word) : State :=
  if a = 0x02400100 then s.keyRun v
  else if a = 0x02402000 then s.wTampArmFree v
  else if a = 0x02402004 then s.wKey a v
  else s.accStore a v

/-- FLT. The access checks the pairs it touches (R388). -/
def State.wFltReg (s : State) (a : Nat) (v : Word) : State :=
  let s := s.pairAccess (if a = 0x00200030 ∨ a = 0x00200038 then [a - 0x00200000, a - 0x001FFFFC] else [a - 0x00200000])
  match a with
  | 0x00200014 | 0x00200028 => s.accStore a v
  | 0x00200030 | 0x00200038 => s.wRecord a v
  | 0x00200060 => s.wBreset v
  | 0x00200070 => s.wCreset v
  | 0x00200074 => s.wSafeReq v
  | _ => s.wFlt a v

/-- DMA. The low bits of HEAD are reserved. -/
def State.wDmaReg (s : State) (a : Nat) (v : Word) : State :=
  if 0x00401000 ≤ a ∧ a % 0x40 = 8 then s.wDma a (v &&& 0xFFFFFFC0) else s.wDma a v

/-! ### Any register -/

/-- A write of an interface lands in the register at `a`. -/
def State.hostWr (s : State) (i : Itf) (a : Nat) (v : Word) : State :=
  match Blk.ofOff a with
  | none => s
  | some b =>
    if a = b.irqOff then s.wIrqStat b v
    else if a = b.irqOff + 4 then s.wIrqEn b v
    else if shMask a ≠ 0 then s.wShadow i a ((s.rd a &&& ~~~(shMask a)) ||| (v &&& shMask a))
    else match allChans.find? (fun ch => decide (chanOff ch + 8 = a)) with
      | some ch => s.wCommit i ch v
      | none =>
        match b with
        | .cfg => s.wCfg i a v
        | .pwr => if a = 0x00100010 then s.wDomReq i v else s.wPwr a v
        | .flt => s.wFltReg a v
        | .dma => s.wDmaReg a v
        | .prf => s.wPrf a v
        | .spn => s.wSpn i a v
        | .ref => s.wRef a v
        | .tiu => s.wTiu a v
        | .sel => s.wSel a v
        | .ens => s.wEns a v
        | .bnd => s.wBnd a v
        | .gns => s.wGnsReg a v
        | .lan => s.wLan a v
        | .mac => s.wMac a v
        | .pkt => s.wPkt a v
        | .cst => s.wCst a v
        | .key => s.wKeyReg a v
        | .tnd => s.wTnd a v
        | .mtx | .syn | .out => s.accStore a v

/-- A write at an offset that names no register is discarded with MTX/DECODE (R393); before RUN nothing outside CFG is recorded
(R430). -/
def State.missWrite (s : State) (i : Itf) (a : Nat) : State :=
  if !s.running ∧ Blk.ofOff a ≠ some .cfg then s
  else s.mtxErr 1 (match i with | .pcie => 0 | .i2c => 5) a

/-- A host write to BAR0. -/
def State.hostStore (s : State) (i : Itf) (a : Nat) (v : Word) : State :=
  match findReg a with
  | none => if s.hostOn then s.missWrite i a else s
  | some _ => s.reach i a v (fun s => s.hostWr i a v)

/-- A write that the handshake held comes to its register: the domain may have gone off meanwhile. -/
def State.land (s : State) (h : HeldWrite) : State :=
  match h.bar2 with
  | some bytes => s.wBar2 h.off bytes
  | none =>
    if s.ramping h.off then { s with pwr := { s.pwr with waits := s.pwr.waits ++ [(h.itf, h.off, some h.v)] } }
    else if s.absent h.off then s.absentHit h.off
    else s.hostWr h.itf h.off h.v

/-! ### Commands -/

/-- An access to BAR0: a write of a word, or a read. -/
def State.hostAccess (s : State) (i : Itf) (a : Nat) (w : Option Word) : State :=
  match w with
  | some v => s.hostStore i a v
  | none => s.hostRead i a

/-- ABSENT_ACCESS (R33): an access, which finds its register absent. -/
def execAbsentAccess (i : Itf) (off : Nat) (write : Option Word) (s : State) : Out := .next (s.hostAccess i off write)

/-- DECODE_MISS (R393): an access, which finds no register. -/
def execDecodeMiss (i : Itf) (off : Nat) (write : Option Word) (s : State) : Out := .next (s.hostAccess i off write)

/-- SNAP_REQ (R64). -/
def execSnapReq (i : Itf) (v : Word) (s : State) : Out := .next (s.reach i 0x01000020 v (fun s => s.snapRequest i (v.field 7 0)))

/-- IRQ_STAT_WRITE (R394): `b` is the block's fence bit. -/
def execIrqStatWrite (i : Itf) (b : Fin 21) (v : Word) (s : State) : Out :=
  match Blk.all[b.val]? with
  | some k => .next (s.reach i k.irqOff v (fun s => s.wIrqStat k v))
  | none => .next s

/-- BAD_ACCESS (R392): an access to BAR0 or BAR4 of a size or byte enables that are not valid; before RUN a BAR0 access outside CFG reads 0
(R430). -/
def execBadAccess (bar4 : Bool) (addr : Nat) (write : Bool) (s : State) : Out :=
  if !s.hostOn then .next s
  else if !s.running ∧ !bar4 ∧ Blk.ofOff addr ≠ some .cfg then .next (if write then s else s.complete .pcie {})
  else
    let s := s.mtxErr 2 0 addr
    .next (if write then s else s.complete .pcie { aborted := true })

/-! ### Locked sequences (R401) -/

/-- The value an AtomicOp stores over `old`, of `w` bits. -/
def atomicNew (op : AtomicKind) (w old a b : Nat) : Nat :=
  match op with
  | .fetchAdd => (old + a) % 2 ^ w
  | .swap => a % 2 ^ w
  | .cas => if old = a % 2 ^ w then b % 2 ^ w else old

/-- ATOMIC_OP (R401): on Granary scratch a locked read and write of one 64-bit word, which answers the old value; elsewhere Completer Abort and
MTX/BAD_ACCESS. `target`: the Granary address, none outside BAR2. A word with an uncorrectable error is not written and poisons the completion (R327).
-/
def execAtomicOp (target : Option Word) (wide : Bool) (op : AtomicKind) (a b : BitVec 64) (s : State) : Out :=
  let n := if wide then 8 else 4
  let t := (target.map BitVec.toNat).getD 0
  if target.isSome && s.running && s.cstReady && inScratch t n && decide (t % n = 0) then
    let bad := (s.damaged (t / 8 * 8) 8).isSome
    let s := s.meet (t / 8 * 8) 8
    let old := leNat (s.mread t n)
    if bad then .next (s.complete .pcie { poisoned := true })
    else
    let s := s.mwrite t (leBytes n (atomicNew op (8 * n) old a.toNat b.toNat))
    let s := [(0xD3, 1), (0xD0, 1), (0xD1, 1), (0xA0, n), (0xA1, n), (0xA2, 1)].foldl (fun s x => s.tallyAdd x.1 x.2) s
    .next (s.complete .pcie { value := BitVec.ofNat 64 old })
  else .next ((s.mtxErr 2 0 t).complete .pcie { aborted := true })

/-- LOCK_TIMEOUT (R401): a lock of `master` is broken after 2 µs; its write is discarded and the AtomicOp aborted. -/
def execLockTimeout (addr : Word) (master : Fin 5) (s : State) : Out :=
  .next ((s.mtxErr 4 master addr.toNat).complete .pcie { aborted := true })

/-! ### The I²C sideband (R397, R398) -/

/-- A transaction is discarded: the last byte is not acknowledged, ERRORS counts, MTX/BAD_ACCESS. -/
def State.i2cNack (s : State) (pec : Bool) (a : Nat) : State :=
  (((s.countSat 0x00300050 31 16 1).setB 0x00300050 8 pec).mtxErr 2 5 a).emit (.i2c [])

/-- I2C_READ (R397): address, four offset bytes, address again with R; the part answers four bytes and the PEC. A transaction of another
shape is not acknowledged. -/
def execI2cRead (bytes : List Byte) (s : State) : Out :=
  match bytes with
  | [w, o3, o2, o1, o0, r] =>
    let ad := s.f 0x00300050 6 0 * 2
    if !s.hostOn ∨ w.toNat ≠ ad ∨ r.toNat ≠ ad + 1 then .next s
    else
      let a := beNat [o3, o2, o1, o0]
      if 2 ^ 26 ≤ a then .next ((s.mtxErr 1 5 a).answer .i2c a 0) else .next (s.hostRead .i2c a)
  | _ => .next s

end Sys2Proof.Machine
end

