-- ==== Sys2Proof/Machine/Order.lean ====
section
/-! DEFINITION. Accesses that the handshake holds go on (01 R41-R46): behind a fence, a commit copy (02 R75), a snapshot (R65), a domain
that ramps (18 R448), or an earlier access of the same interface to the same block; and the commands that let them go on. -/
namespace Sys2Proof.Machine

/-! ### The accesses that wait (R41, R42) -/

/-- A waiting access `h` goes on waiting, `kept` being those before it that do: for the open fence or one before it in the queue, behind an
access to its block, or for what holds an access of its interface to the block. -/
def State.keepsWaiting (s : State) (kept : List HeldWrite) (h : HeldWrite) : Bool :=
  let open_ := match s.fence h.itf with
    | some f => !h.read && h.fenced && (h.isFence || masks f.mask h.at_)
    | none => false
  open_ || (!h.read && kept.any (fun k => k.isFence && masks (k.v.field 20 0) h.at_))
    || (h.bar2.isSome && kept.any (fun k => k.bar2.isSome))
    || (h.bar2.isNone && (kept.any (fun k => k.bar2.isNone && (decide (h.itf = .i2c) || sameBlk k.off h.off)) || s.heldElse h.itf h.off (!h.read)))

/-- An access that waited is done. -/
def State.goes (s : State) (h : HeldWrite) : State :=
  if h.read ∧ h.bar2.isSome then s.rBar2 h.off (h.bar2.getD []).length
  else if h.read then
    if s.ramping h.off then { s with pwr := { s.pwr with waits := s.pwr.waits ++ [(h.itf, h.off, none)] } }
    else s.readAt h.itf h.off h.errs
  else s.land h

/-- The accesses of interface `i` that wait, oldest first: each goes on waiting or is done; those behind a fence that one of them opens
are issued after it. A restart of the part drops them. -/
def State.sweep (s : State) (i : Itf) (opened : Bool) (kept : List HeldWrite) : List HeldWrite → State
  | [] => s.setHeld i kept
  | h :: r =>
    let h := if opened then { h with fenced := true } else h
    if !s.running then s.setHeld i []
    else if s.keepsWaiting kept h then s.sweep i opened (kept ++ [h]) r
    else (s.goes h).sweep i (opened || h.isFence) kept r

/-- Every waiting access that need wait no longer is done. -/
def State.settle (s : State) : State :=
  let s := s.sweep .pcie false [] s.heldP
  s.sweep .i2c false [] s.heldI

/-! ### Fences (R42-R46) -/

/-- An earlier write of the interface to a masked block has not taken effect yet: it waits for a commit copy, a snapshot, a domain, a
domain request, or behind an access to its block. -/
def State.fenceWaits (s : State) (i : Itf) (mask : Nat) : Bool :=
  let m := fun (h : HeldWrite) => decide (h.itf = i) && masks mask h.off
  s.chans.any (fun c => c.held.any m) || s.spn.snapHeld.any m || s.pwr.reqs.any m
    || s.pwr.waits.any (fun w => decide (w.1 = i) && w.2.2.isSome && masks mask w.2.1)
    || (s.heldBy i).any (fun h => !h.read && !h.fenced && masks mask h.at_)

/-- FENCE_COMPLETE (R44, R46): the messages sent before it are taken and then the marker, each in its round, so that what a masked block
reports before the completion precedes the marker and what it reports after it follows; the record; CFG_FENCE_STAT; the writes held go
on. While an earlier masked write has not taken effect nothing happens. -/
def execFenceComplete (i : Itf) (s : State) : Out :=
  match s.fence i with
  | none => .next s
  | some f =>
    if s.fenceWaits i f.mask then .next s
    else
      let s := s.fltFlush
      if !s.running then .next s
      else
        let seq := (s.f 0x00000104 31 16 + 1) % 65536
        let s := ((s.setFence i none).fenceStat f.tag).marker (f.tag * 2 ^ 24 + seq)
        let s := s.traceWrite 2 ([BitVec.ofNat 8 f.tag, 0] ++ leBytes 2 seq ++ leBytes 4 f.mask)
        .next (s.setHeld i ((s.heldBy i).map (fun h => { h with fenced := false }))).settle

/-- FENCE_SLOW (R46): a fence is open 1 ms after it opened; it goes on waiting. -/
def execFenceSlow (i : Itf) (s : State) : Out :=
  match s.fence i with
  | none => .next s
  | some f =>
    if f.slow ∨ s.spn.ticks < f.since + 2000000 then .next s
    else .next (((s.setFence i (some { f with slow := true })).raise Flt.cfgFenceSlow f.mask).irq .cfg 4)

/-! ### Commits and snapshots (R65, R75) -/

/-- COMMIT_CHECK (R75, R76): the copy of a channel ends, its staged set is checked whole and armed or refused, and the writes held
meanwhile land in order. -/
def execCommitCheck (ch : Chan) (s : State) : Out :=
  match (s.chan ch).staging with
  | none => .next s
  | some c =>
    let held := (s.chan ch).held
    let s1 := s.modChan ch (fun x => { x with staging := none, held := [] })
    let s2 := match s1.commitCode ch c.boundary c.vals with
      | some code => s1.commitRefused ch code
      | none => (s1.arm ch c).commitLast ch 1
    .next (held.foldl (fun s h => s.release ch h) s2).settle

/-- SNAP_DONE (R65): a capture completes; SEQ counts, BUSY clears, held reads of the interface return the new capture, and a
held request begins. A capture whose tick has not come is not complete, and nothing happens. -/
def execSnapDone (i : Itf) (s : State) : Out :=
  match s.snapOf i with
  | some (_, true) =>
    let s := s.captureEnd i
    let s := (s.bankWr i 0x01000024 ((s.bankRd i 0x01000024).setField 31 16 ((s.bankRd i 0x01000024).field 31 16 + 1))).setSnap i none
    let s := s.irq .spn 5
    let s := (s.spn.snapRd.filter (fun r => r.1 = i)).foldl (fun s r => s.answer i r.2 (s.bankRd i r.2)) s
    let s := s.modSpn (fun p => { p with snapRd := p.snapRd.filter (fun r => r.1 ≠ i) })
    let held := s.spn.snapHeld.filter (fun h => h.itf = i)
    let rest := s.spn.snapHeld.filter (fun h => h.itf ≠ i)
    match held with
    | [] => .next s.settle
    | h :: r => .next ((s.modSpn (fun p => { p with snapHeld := r ++ rest })).setSnap i (some (h.v.field 7 0, false))).settle
  | _ => .next s

/-! ### Watch (R377, R386) -/

/-- WATCH_ROUND (R377, R383, R429). -/
def execWatchRound (s : State) : Out := .next s.fltRound.settle

/-- FLT_BRESET_WRITE (R386, R387). -/
def execFltBresetWrite (i : Itf) (v : Word) (s : State) : Out := .next (s.reach i 0x00200060 v (fun s => s.wBreset v)).settle

/-! ### Host writes (R14, R397) -/

/-- A host write to BAR0; where it resets a block, accesses that waited for the block go on. -/
def State.hostStoreGo (s : State) (i : Itf) (a : Nat) (v : Word) : State :=
  if a = 0x00200060 then (s.hostStore i a v).settle else s.hostStore i a v

/-- REGISTER_WRITE (R14). -/
def execRegisterWrite (i : Itf) (off : Nat) (v : Word) (s : State) : Out := .next (s.hostStoreGo i off v)

/-- I2C_WRITE (R397, R398): the bytes that follow the START: address, four offset bytes, four data bytes, PEC. -/
def execI2cWrite (bytes : List Byte) (s : State) : Out :=
  match bytes with
  | [] => .next s
  | ad :: l =>
    if !s.hostOn ∨ ad.toNat ≠ s.f 0x00300050 6 0 * 2 then .next s
    else
      let a := beNat (l.take 4)
      let bad := decide (crc8 (bytes.take (bytes.length - 1)) ≠ (bytes.getD (bytes.length - 1) 0).toNat)
      if l.length ≠ 9 ∨ bad ∨ 2 ^ 26 ≤ a then .next (s.i2cNack (decide (l.length = 9) && bad) a)
      else .next (s.hostStoreGo .i2c a (BitVec.ofNat 32 (beNat ((l.drop 4).take 4))))

/-! ### Domains switched (R447, R448) -/

/-- The accesses that waited for a domain, oldest first. -/
def State.unwait (s : State) : List (Itf × Nat × Option Word) → State
  | [] => s
  | (i, a, w) :: r =>
    (match w with
    | some v => s.land { itf := i, off := a, v := v }
    | none => s.readAt i a none).unwait r

/-- What follows a switched domain: the accesses that waited for it, and once no domain is left to switch, the requests that were held. -/
def State.domGoOn (s : State) : State :=
  let w := s.pwr.waits
  let s := ({ s with pwr := { s.pwr with waits := [] } } : State).unwait w
  if s.domBusy then s
  else
    let q := s.pwr.reqs
    q.foldl (fun s h => s.wDomReq h.itf h.v) { s with pwr := { s.pwr with reqs := [] } }

/-- DOMAIN_SWITCHED (R447): the domain that the request switches is off, or has ramped on; the next one starts, or the request ends. -/
def execDomainSwitched (s : State) : Out :=
  if !s.domBusy then .next s
  else match s.domNext with
    | none => .next s
    | some d =>
      let s := if s.domOn d then s.domainOff d else s.domainOn d
      let s : State := { s with pwr := { s.pwr with domTick := s.spn.ticks } }
      if s.domNext.isSome then .next s.domGoOn.settle
      else .next (((((s.setF 0x00100014 27 24 0).domEnd).irq .pwr 0).domGoOn).settle)

/-- RAMP_FAIL (R447): the domain that is ramping on has not reached its level within 1 ms; it and those after it stay off. -/
def execRampFail (s : State) : Out :=
  if !s.domBusy then .next s
  else match s.domNext with
    | none => .next s
    | some d => if s.domOn d ∨ s.spn.ticks < s.pwr.domTick + 2000000 then .next s else .next ((((s.pwrRefuse 4 s.domTarget).domEnd).domGoOn).settle)

/-! ### The core rail (R443) -/

/-- CORE_DEPARTURE_DECIDED (R443): the rail came back within 10 µs, which is a glitch and a detection of source 4: the operations held are aborted;
or it did not, which is a loss of main power and no tamper. -/
def execCoreDepartureDecided (glitch : Bool) (s : State) : Out :=
  if !s.keys.frozen then .next s
  else if glitch then
    if s.keys.frozenTo < s.spn.ticks then .next s
    else .next ((s.modKeys (fun k => { k with frozen := false })).tamperHit 4 0).traceDrain.settle
  else if s.spn.ticks < s.keys.frozenTo then .next s
  else .next ((s.modKeys (fun k => { k with frozen := false })).powerReset true)

end Sys2Proof.Machine
end

