-- ==== Sys2Proof/Machine/Image.lean ====
section
/-! DEFINITION. The Efpin image (17 R419-R432): its header, sections and records, its digest and signatures, checks 1 to 7. -/
namespace Sys2Proof.Machine

/-- The little-endian number in `n` bytes from offset `o` (R13). -/
def leAt (l : List Byte) (o n : Nat) : Nat := leNat (slice l o n)

/-- `n` bytes from offset `o` are all zero. -/
def zeroAt (l : List Byte) (o n : Nat) : Bool := decide (leAt l o n = 0)

/-! ### The header (checks 1 to 3) -/

/-- ASCII "EFPN". -/
def magic : List Byte := [0x45, 0x46, 0x50, 0x4E]

/-- Fields of the header. -/
def imageLen (b : List Byte) : Nat := leAt b 8 4
def imageGen (b : List Byte) : Nat := leAt b 12 4
def imageCompat (b : List Byte) : Bool := (b.getD 19 0).getLsbD 0
def imageDomains (b : List Byte) : Nat := leAt b 24 2
def imageSects (b : List Byte) : Nat := leAt b 26 2
def imageBuild (b : List Byte) : Nat := leAt b 28 4

/-- The first of checks 1 to 3 that fails: code and detail (R425, R427). Check 2 goes through the fields in the order of the
header. -/
def headerFail (b : List Byte) : Option (Nat × Nat) :=
  if slice b 0 4 ≠ magic ∨ b.length < 64 then some (1, 0)
  else if leAt b 4 2 ≠ 1 then some (2, 4)
  else if leAt b 6 2 ≠ 0x40 then some (2, 6)
  else if imageLen b % 16 ≠ 0 ∨ imageLen b < 352 ∨ bufSize < imageLen b then some (2, 8)
  else if byteAt b 19 / 2 ≠ 0 then some (2, 19)
  else if imageDomains b / 1024 ≠ 0 ∨ imageDomains b &&& 0x13 ≠ 0x13 then some (2, 24)
  else if !zeroAt b 32 28 then some (2, 32)
  else if leAt b 60 4 ≠ crc32c (b.take 60) then some (2, 60)
  else if leAt b 16 2 ≠ 0x9440 ∨ Config.siliconRev.toNat < byteAt b 18 then some (3, 0)
  else none

/-! ### Sections and records (check 4) -/

/-- A record of a STRUCTURE or REGISTERS section, with its byte offset in the image. -/
structure ImgRec where
  at_ : Nat
  off : Nat
  mask : Nat
  value : Nat
  deriving DecidableEq, Repr

/-- A section: type, and the place and length of its body. -/
structure ImgSect where
  typ : Nat
  body : Nat
  len : Nat
  deriving DecidableEq, Repr

/-- The records of a body. -/
def recordsAt (b : List Byte) (o len : Nat) : List ImgRec :=
  (List.range (len / 16)).map (fun i => ⟨o + 16 * i, leAt b (o + 16 * i) 4, leAt b (o + 16 * i + 4) 4, leAt b (o + 16 * i + 8) 4⟩)

/-- A record is well formed: its offset is DW-aligned below 2^26, bits outside MASK are 0, its last bytes are 0. -/
def recordOk (b : List Byte) (r : ImgRec) : Bool :=
  decide (r.off % 4 = 0) && decide (r.off < 2 ^ 26) && decide (r.value &&& r.mask = r.value) && zeroAt b (r.at_ + 12) 4

/-- The sections from offset `o` up to `fin`, `n` of them; or the offset of the section or record that check 4 refuses (R422). `first`: the
section is the first. -/
def readSects (b : List Byte) (fin : Nat) : Nat → Nat → Bool → Nat ⊕ List ImgSect
  | 0, o, _ => if o = fin then .inr [] else .inl o
  | n + 1, o, first =>
    let typ := leAt b o 2
    let flags := leAt b (o + 2) 2
    let len := leAt b (o + 4) 4
    let known := decide (1 ≤ typ ∧ typ ≤ 3)
    if fin < o + 16 + len ∨ len % 16 ≠ 0 ∨ 2 ≤ flags ∨ !zeroAt b (o + 12) 4 ∨ (!known ∧ flags = 0) ∨ decide (typ = 1) ≠ first
        ∨ leAt b (o + 8) 4 ≠ crc32c (slice b (o + 16) len) then .inl o
    else
      let bad := if typ = 1 ∨ typ = 2 then (recordsAt b (o + 16) len).find? (fun r => !recordOk b r) else none
      match bad with
      | some r => .inl r.at_
      | none => match readSects b fin n (o + 16 + len) false with
        | .inl x => .inl x
        | .inr l => .inr (⟨typ, o + 16, len⟩ :: l)

/-- The sections of an image, or where check 4 fails; a wrong NSECT fails at its header field. -/
def imageSections (b : List Byte) : Nat ⊕ List ImgSect :=
  if imageSects b = 0 ∨ 64 < imageSects b then .inl 26 else readSects b (imageLen b - 256) (imageSects b) 64 true

/-- The records of an image's sections of a type, in image order. -/
def imageRecords (b : List Byte) (typ : Nat) : List ImgRec :=
  match imageSections b with
  | .inl _ => []
  | .inr l => (l.filter (fun x => decide (x.typ = typ))).flatMap (fun x => recordsAt b x.body x.len)

/-! ### Digest and signatures (checks 5 to 7) -/

/-- Where the trailer begins. -/
def trailer (b : List Byte) : Nat := imageLen b - 256

/-- DIGEST, 64 bytes. -/
def imageDigest (b : List Byte) : List Byte := slice b (trailer b) 64

/-- OWNER_PUB; 0 where absent. -/
def imagePub (b : List Byte) : BitVec 256 := BitVec.ofNat 256 (leAt b (trailer b + 192) 32)

/-- A signature field of the trailer verifies under a key; one of all zeros is absent and never verifies (R432). -/
def sigOk (b : List Byte) (o : Nat) (key : BitVec 256) : Bool :=
  !zeroAt b (trailer b + o) 64 && Config.ed25519Verify key (imageDigest b) (BitVec.ofNat 512 (leAt b (trailer b + o) 64))

/-- VENDOR_SIG verifies; OWNER_SIG verifies under OWNER_PUB. -/
def vendorOk (b : List Byte) : Bool := sigOk b 64 Config.vendorKey
def ownerOk (b : List Byte) : Bool := decide (imagePub b ≠ 0) && sigOk b 128 (imagePub b)

/-- The signature rule (R432). -/
def Img.signed (m : Img) (b : List Byte) : Bool :=
  let owner := m.ownerMatches (imagePub b) && ownerOk b
  match m.ownerRow with
  | 0 => vendorOk b
  | 1 => if m.require then owner else vendorOk b || owner
  | _ => false

/-- The first of checks 1 to 7 that fails: code and detail (R425, R427). -/
def Img.verifyFail (m : Img) : Option (Nat × Nat) :=
  let b := m.buf
  match headerFail b with
  | some e => some e
  | none => match imageSections b with
    | .inl o => some (4, o)
    | .inr _ =>
      if leBytes 64 (Config.sha512 (b.take (trailer b))).toNat ≠ imageDigest b then some (5, 0)
      else if m.ownerRow = 2 then some (7, 0)
      else if !m.signed b then some (6, 0)
      else none

end Sys2Proof.Machine
end

