-- ==== Sys2Proof/Machine/Structure.lean ====
section
/-! DEFINITION. The structure of an image (17 R423, R425): structure fields, the structure rules, the domains, checks 8 to 10. Which fields
"state one fact" (rule 3) and which domain a refusal names are log entry 18. -/
namespace Sys2Proof.Machine

/-! ### Structure fields (check 8) -/

/-- The structure fields, as (offset, stride, instances, bits): the RO fields with reset "img" that are no copies of another field. The
header supplies those of CFG and PWR. -/
def structRows : List (Nat × Nat × Nat × Nat) := [
  (0x01000000, 4, 1, 0xFFFF), (0x01000004, 4, 1, 0xFFFFFFFF), (0x01100000, 4, 1, 0xFFF),
  (0x01200000, 4, 1, 0x3FFFFFFF), (0x01201000, 0x80, 12, 0x70000), (0x01201004, 0x80, 12, 0xF), (0x01203000, 0x80, 18, 0x70000),
  (0x01300000, 4, 1, 0x3FFFFFFF), (0x01303000, 0x40, 8, 0x3FFFFFFF),
  (0x01400000, 4, 1, 0xFF0F), (0x01401004, 0x100, 8, 0x02000000),
  (0x01601004, 0x100, 4, 0x700), (0x01601018, 0x100, 4, 0xFFF),
  (0x01700000, 4, 1, 0x3F000FFF), (0x01701004, 0x40, 12, 0x731), (0x01702004, 0x40, 4, 0x700), (0x01703004, 0x40, 2, 0x6),
  (0x01800000, 4, 1, 0xF0003), (0x01800010, 4, 1, 0x70000),
  (0x02000000, 4, 1, 0x3FFFF), (0x02001000, 0x100, 18, 0xF),
  (0x02100000, 4, 1, 0xFFFFF), (0x02101004, 0x400, 16, 0x7FF),
  (0x02200000, 4, 1, 0xFFFFF), (0x02201000, 0x80, 16, 0x70F00000),
  (0x02204000, 0x100, 4, 0x0F000000),
  (0x02500000, 4, 1, 0x03FFFFFF), (0x02500010, 4, 1, 0x37F000)]

/-- The structure bits of the register at `a`. -/
def structMask (a : Nat) : Nat :=
  match structRows.find? (fun r => decide (r.1 ≤ a) && decide (a < r.1 + r.2.1 * r.2.2.1) && decide ((a - r.1) % r.2.1 = 0)) with
  | some r => r.2.2.2
  | none => 0

/-- The word of a record: its bits in place of those of `w`. -/
def ImgRec.onto (r : ImgRec) (w : Word) : Word := (w &&& ~~~(BitVec.ofNat 32 r.mask)) ||| BitVec.ofNat 32 r.value

/-- A structure word holds values in their ranges: PKT_Pp_CTL.PROFILE, TND_CTL.C25_SRC, GNS_CAP.PPS_TIU. -/
def structRange (a : Nat) (w : Word) : Bool :=
  if (instOf a 0x02201000 0x80 16).isSome then decide (w.field 30 28 ≤ 3)
  else if a = 0x02500010 then decide (w.field 21 20 ≠ 3)
  else if a = 0x01800000 then decide (w.field 19 16 ≤ 11 ∨ w.field 19 16 = 15)
  else true

/-- The structure that records give; or where check 8 fails. -/
def structOf : List ImgRec → RegFile → Nat ⊕ RegFile
  | [], m => .inr m
  | r :: l, m =>
    let w := r.onto (mapGet resetWord m r.off)
    if r.mask &&& structMask r.off ≠ r.mask ∨ !structRange r.off w then .inl r.at_ else structOf l (mapSet resetWord m r.off w)

/-! ### Structure rules (check 9). `s` is a state that holds nothing but the structure. -/

/-- Rule 1 (R53, R66): TB0 present and unyoked; a yoked base is present and its master present, unyoked and another. The spec says of the fields of
SPN_YOKE_MAP of a base that is not yoked that they read 0: an image that sets one, or yokes an absent base, is refused under rule 1 (DESIGN
CHOICE, log entry 52). -/
def State.rule1 (s : State) : Bool :=
  s.tbPresent 0 && !s.tbYoked 0 && (List.range 8).all (fun n =>
    let m := s.tbMaster n
    if s.tbYoked n then s.tbPresent n && s.tbPresent m && !s.tbYoked m && decide (m ≠ n)
    else decide (m = 0) && !s.tbRatio n)

/-- The candidates that feed a base's selector. -/
def State.membersOf (s : State) (n : Nat) : Nat := s.f (0x01303000 + n * 0x40) 29 0

/-- Rule 2 (R29, R116): a lane candidate's lane and a packet candidate's instance exist; absent and yoked bases have no members. -/
def State.rule2 (s : State) : Bool :=
  (List.range 8).all (fun n =>
    let m := s.membersOf n
    if s.tbPresent n && !s.tbYoked n then
      (List.range 30).all (fun c => !m.testBit c
        || (if c < 8 then true else if c < 24 then s.b 0x02000000 (c - 8) else if c < 26 then true else s.b 0x02200000 (c - 26 + 16)))
    else decide (m = 0))

/-- TIU_Pk_SRC. -/
def State.srcCode (s : State) (k : Nat) : Nat := s.f (0x01201004 + k * 0x80) 3 0

/-- The synthesizers whose OUTMAP names output j. -/
def State.mappers (s : State) (j : Nat) : List Nat := (List.range 4).filter (fun k => s.b (synOff k + 0x18) j)

/-- Rule 3 (R28): routing of TIU-P0 to TIU-P7, and fields that state one fact agree. -/
def State.rule3 (s : State) : Bool :=
  let p := List.range 8
  let routed := fun (c : Nat) => p.filter (fun k => s.b 0x01200000 k && decide (s.srcCode k = c))
  let vane := (routed 8).head?
  p.all (fun k => if s.b 0x01200000 k then decide (s.srcCode k ≤ 10) else decide (s.srcCode k = 15))
    && (List.range 11).all (fun c => decide ((routed c).length ≤ 1))
    && (List.range 4).all (fun m => let c := s.srcCode (8 + m)
        decide (c = 11 + m) || (!s.b 0x01200000 (8 + m) && decide (c = 0 ∨ c = 15)))
    && p.all (fun n => decide (s.b 0x01100000 n = (routed n).head?.isSome))
    && (match vane with
      | some k => decide (s.f 0x01800000 19 16 = k) && decide (s.f 0x01800010 18 16 = s.f (0x01201000 + k * 0x80) 18 16)
      | none => decide (s.f 0x01800000 19 16 = 15))
    && decide (s.f 0x01300000 29 0 = p.foldl (fun a n => a ||| s.membersOf n) 0)
    && p.all (fun n => decide (s.b (0x01401004 + n * 0x100) 25 = s.b 0x01400000 (8 + n)))
    && (List.range 12).all (fun j =>
        decide (s.b 0x01700000 j = decide (s.mappers j ≠ []))
          && (match s.mappers j with
            | [k] => decide (s.f (outOff j + 4) 5 4 = k) && decide (s.f (outOff j + 4) 10 8 = s.f (synOff k + 4) 10 8)
            | _ => true)
          && decide (s.b (outOff j + 4) 0 = s.b 0x02500000 j))
    && (List.range 16).all (fun q => !s.b 0x02100000 q ||
        (decide (s.f (macOff q + 4) 7 4 = s.f (lanOff q) 3 0) && decide (s.f (macOff q + 4) 3 0 = q)
          && (!s.b 0x02200000 q || decide (s.f (macOff q + 4) 10 8 = s.f (pktOff q) 22 20))))

/-- Rule 4 (R237, R254): lane modes, whole groups, and the lanes of the ports. -/
def State.rule4 (s : State) : Bool :=
  let mode := fun (m : Nat) => s.f (lanOff m) 3 0
  let on := s.b 0x02000000
  let group := fun (g : Nat) => (List.range 4).all (fun i => on (4 * g + i) && decide (mode (4 * g + i) = 4))
  (List.range 16).all (fun m => !on m || decide (mode m ≤ 3) || (decide (mode m = 4) && group (m / 4)))
    && [16, 17].all (fun m => !on m || decide (mode m = 5))
    && (List.range 4).all (fun g => decide (s.b 0x02100000 (16 + g) = group g))
    && (List.range 16).all (fun p => !s.b 0x02100000 p || (on p && (decide (mode p ≤ 3) || (decide (p % 4 = 0) && group (p / 4)))))

/-- Rule 5 (R184): each output maps to exactly one synthesizer, each ToD pin to a PPS pin that is mapped. -/
def State.rule5 (s : State) : Bool :=
  (List.range 12).all (fun j => decide ((s.mappers j).length ≤ 1))
    && (List.range 2).all (fun t => !s.b 0x01700000 (28 + t) || s.b 0x01700000 (24 + s.f (todOff t + 4) 2 1))

/-- Rule 6 (R358): OUT, PPS and ToD pins that are shared are driven from the tandem base or a base yoked to it. -/
def State.rule6 (s : State) : Bool :=
  let t := s.f 0x02500010 18 16
  let ok := fun (n : Nat) => decide (n = t) || (s.tbYoked n && decide (s.tbMaster n = t))
  (List.range 12).all (fun j => !s.b 0x02500000 j || (s.b 0x01700000 j && ok (s.f (outOff j + 4) 10 8)))
    && (List.range 4).all (fun k => !s.b 0x02500000 (20 + k) || (s.b 0x01700000 (24 + k) && ok (s.ppsTb k)))
    && (List.range 2).all (fun k => !s.b 0x02500000 (24 + k) || (s.b 0x01700000 (28 + k) && ok (s.ppsTb (s.f (todOff k + 4) 2 1))))

/-- Rules 7 and 8 look at the interfaces that the image's REGISTERS records switch on: `s` holds those too. -/
def State.ifsOn (s : State) : List Nat := (List.range 64).filter (fun k => s.b (ifOff k) 31)

/-- Rule 7 (R300): ports with NTP service serve an OFFSET-type yoked base. -/
def State.rule7 (s : State) : Bool :=
  s.ifsOn.all (fun k => !s.b (ifOff k) 28 || s.tbOffsetYoked (s.f (pktOff (s.f (ifOff k) 19 16)) 22 20))

/-- Rule 8 (R254, R308): client instances and interfaces name served ports that exist, served ports exist. -/
def State.rule8 (s : State) : Bool :=
  let port := fun (p : Nat) => s.b 0x02200000 p && s.b 0x02100000 p
  (List.range 16).all (fun p => !s.b 0x02200000 p || s.b 0x02100000 p)
    && (List.range 4).all (fun k => !s.b 0x02200000 (16 + k) || port (s.f (cliOff k) 27 24))
    && s.ifsOn.all (fun k => port (s.f (ifOff k) 19 16))

/-- The first structure rule that fails. -/
def State.ruleFail (s : State) : Option Nat :=
  if !s.rule1 then some 1 else if !s.rule2 then some 2 else if !s.rule3 then some 3
  else if !s.rule4 then some 4 else if !s.rule5 then some 5 else if !s.rule6 then some 6 else if !s.rule7 then some 7 else if !s.rule8 then some 8 else none

/-! ### Domains (check 10) -/

/-- The switchable domains that hold elements of the structure. -/
def State.domainsUsed (s : State) : List Nat :=
  let mem := s.f 0x01300000 29 0
  let src := fun (c : Nat) => (List.range 8).any (fun k => s.b 0x01200000 k && decide (s.srcCode k = c))
  let use : List (Nat × Bool) := [
    (2, (List.range 8).any (s.b 0x01200000)),
    (3, decide (s.f 0x01700000 11 0 ≠ 0) || decide (s.f 0x01700000 29 24 ≠ 0)),
    (5, decide (s.f 0x02200000 19 0 ≠ 0)),
    (7, decide (s.f 0x02000000 15 0 ≠ 0) || decide (s.f 0x02100000 15 0 ≠ 0) || decide (mem / 2 ^ 8 % 2 ^ 16 ≠ 0)),
    (8, decide (s.f 0x01800000 1 0 ≠ 0) || src 8 || mem.testBit 24),
    (9, decide (s.f 0x02000000 17 16 ≠ 0) || decide (s.f 0x02500000 25 0 ≠ 0) || src 9 || src 10 || mem.testBit 25)]
  use.filterMap (fun u => if u.2 then some u.1 else none)

/-- The first domain for which check 10 fails: one that needs a domain the image does not populate (R35), or one that an element lies
in. -/
def State.domainFail (s : State) (dom : Nat) : Option Nat :=
  match (List.range 10).find? (fun d => dom.testBit d && !(domNeeds d).all dom.testBit) with
  | some d => some d
  | none => s.domainsUsed.find? (fun d => !dom.testBit d)

end Sys2Proof.Machine
end

