-- ==== Sys2Proof/Machine/Startup.lean ====
section
/-! DEFINITION. Start-up (17 R417-R435; 13 R335-R339): from the release of reset to RUN, and what a refused image leaves. -/
namespace Sys2Proof.Machine

/-! ### Reset to KEYS -/

/-- The straps are sampled (R417): BOOT_SRC, UNIT_ID, COMPAT, TEST_N; the I²C address follows UNIT_ID (R397). Phase KEYS. -/
def State.sampleStraps (s : State) (boot : Nat) (unitB compat testN : Bool) : State :=
  let s := (((s.setF 0x00000010 23 22 boot).setB 0x00000010 21 unitB).setB 0x00000010 20 compat).setB 0x00000010 19 testN
  (s.setF 0x00300050 6 0 (if unitB then 0x59 else 0x58)).setPhase phKEYS

/-- RESET_RELEASE (R428): main power is on with its rails within range and PORST_N high. In RESET with BURN_PENDING the root burn comes
first; a further RESET_RELEASE follows it. `away`: units of 2^-15 s that main power was off, which the keep-counter has counted
(R431). A tamper on VBAT is not one of this start (R350, R356). -/
def execResetRelease (away : Nat) (boot : Fin 4) (unitB compat testN : Bool) (s : State) : Out :=
  if s.phase = phRESET then
    let s := if s.pwr.mainOff then (s.modKeys (fun k => { k with notAuth := false, chestOnly := false })).setB 0x02400010 4 false else s
    let s : State := { s with pwr := { s.pwr with mainOff := false, keep := s.pwr.keep + away } }
    let s := s.setF 0x00100030 9 0 0x3FF
    let late := s.keys.later
    let s : State := { s with faults := s.faults ++ late, keys := { s.keys with later := [] } }
    let s := if late.isEmpty then s else s.irq .key 1
    if s.b 0x02402010 31 then .next ((s.modKeys (fun k => { k with burnFrom := some s.spn.ticks })).setPhase phBURN) else .next (s.sampleStraps boot unitB compat testN)
  else if s.phase = phBURN then
    if s.keys.burnFrom.isSome then .next s else .next (s.sampleStraps boot unitB compat testN)
  else .next s

/-- What a loss of VBAT left (R354). -/
def State.chestLost (s : State) : State :=
  match s.keys.vbatLost with
  | none => s
  | some cell =>
    let s := (s.setB 0x02402010 29 true).setB 0x02402010 27 cell
    (s.modKeys (fun k => { k with vbatLost := none })).raise Flt.keyChestLost (if cell then 1 else 0)

/-- The root of a first start (R336): free (log entry 3). -/
def State.rootCreate (s : State) : State :=
  let r := s.takeFree 256
  let s := r.2.modKeys (fun k => { k with rootField := 1, root := BitVec.ofNat 256 r.1 })
  (s.setB 0x00000010 18 true).raise Flt.keyRootCreated 0

/-- The keys of R339 and the public halves of R340. -/
def State.deriveKeys (s : State) : State :=
  let ikm := leBytes 32 s.keys.root.toNat
  let key := fun (info : String) => Config.hkdf (ascii "Limtuzel UT-9440") ikm (ascii info)
  let id := key "ID-ED25519"
  let ld := key "LOAD-X25519"
  let s := s.modKeys (fun k => { k with derived := some (id, ld, key "CHEST-MASK") })
  let s := s.setRegBytes 0x02400040 (leBytes 32 (Config.ed25519Pub id).toNat)
  (s.setRegBytes 0x02400060 (leBytes 32 (Config.x25519Pub ld).toNat)).setB 0x02400010 3 (!s.keys.notAuth)

/-- Slots whose commit words disagree read FAULT, those that did at an earlier start among them (R342). -/
def State.slotFaults (s : State) (bad : List (Fin 64)) : State :=
  (List.finRange 64).foldl (fun s i =>
    if s.slotActive i.val = 3 then (s.raise Flt.keySlotFault i.val).irq .key 3
    else if i ∈ bad then ((s.modKeys (fun k => { k with bad := i.val :: k.bad })).raise Flt.keySlotFault i.val).irq .key 3
    else s) s

/-- The trace subkey, where slot 4 is EMPTY (R346): free (log entry 3). -/
def State.subkeyCreate (s : State) : State :=
  if s.drbgOk ∧ s.slotActive 4 = 0 then
    let k := s.takeFree 256
    k.2.chestCommit 4 (BitVec.ofNat 256 k.1)
  else s

/-- Where start-up goes from KEYS (R421, R428). -/
def State.leaveKeys (s : State) : State :=
  match s.f 0x00000010 23 22 with
  | 0 => s.setPhase phFETCH
  | 1 => s.setPhase phLOADWAIT
  | _ => s.setPhase phHALT

/-- KEYS_PHASE (R335-R339, R342, R346, R354): the phase runs its steps and ends. `healthOk`: the start-up tests of the entropy source pass;
`bad`: slots whose two commit words disagree. With a burn pending no root is created (R336, root field transitions); after a tamper in this start no
key is derived (R350, R356). -/
def execKeysPhase (healthOk : Bool) (bad : List (Fin 64)) (s : State) : Out :=
  if s.phase ≠ phKEYS then .next s
  else if !s.b 0x00000010 19 then .next (s.setPhase phTEST)
  else
    let s := s.chestLost.setB 0x02400010 2 healthOk
    let s := if healthOk then s else s.drbgStop
    let s := if s.keys.rootField = 0 ∧ healthOk ∧ !s.b 0x02402010 31 then s.rootCreate else s
    let s := s.setF 0x02400010 1 0 s.keys.rootField
    let s := match s.keys.rootField with
      | 0 => s
      | 1 => if s.keys.notAuth then s else (s.deriveKeys.slotFaults bad).subkeyCreate
      | r => s.raise Flt.keyNoRoot r
    .next s.leaveKeys

/-! ### Refusal (R425, R427) -/

/-- Registers that no image sets and that hold something before RUN: CFG, the rails and temperatures of PWR, what CRESET keeps in FLT, MTX, KEY. -/
def preImage (a : Nat) : Bool :=
  decide (a < 0x00100000) || (decide (0x00100030 ≤ a) && decide (a < 0x00100058)) || (decide (0x00200030 ≤ a) && decide (a < 0x00200080))
    || (decide (0x00300000 ≤ a) && decide (a < 0x00400000)) || (decide (0x02400000 ≤ a) && decide (a < 0x02500000))

/-- A message of KEY (R357, R429). -/
def isKeyMsg (m : FaultMsg) : Bool := decide (0x68 ≤ m.src) && decide (m.src < 0x6C)

/-- The structure is cleared, with all that the image set and the blocks it started; the switchable domains are off. The messages of KEY and of the
blocks that no image starts stay (R376). -/
def State.undoImage (s : State) : State :=
  { regs := s.regs.filter (fun r => preImage r.1 && !s.img.regs.any (fun x => decide (x.1 = r.1)))
    keys := s.keys, gns := { hot := s.gns.hot }, pwr := { s.pwr with reqs := [], waits := [] }
    img := { s.img with regs := [], compat := false, subsys := 0, pub := 0 }
    rdP := s.rdP, rdI := s.rdI, vecMask := s.vecMask, pba := s.pba, pcie := s.pcie, tally := s.tally, prf := { seen := s.prf.seen, peakSeen := s.prf.peakSeen }
    faults := s.faults.filter (fun m => decide (m.src < 0x20) || isKeyMsg m)
    spn := { ticks := s.spn.ticks }
    out := s.out, free := s.free, pending := s.pending }

/-- The image is refused (R427, R428): FETCH while a copy of the flash is left to try, else LOAD_WAIT. -/
def State.imageRefuse (s : State) (code detail : Nat) : State :=
  let s := s.undoImage
  let s := ((s.setF 0x00000018 31 24 code).setF 0x00000018 23 22 s.img.src).countSat 0x00000018 7 0 1
  let s := (s.wrN 0x0000001C detail).setF 0x00000010 25 24 0
  s.setPhase (if s.img.src ≠ 2 ∧ s.img.tried.length < 2 then phFETCH else phLOADWAIT)

/-! ### FETCH and VERIFY -/

/-- A copy can be taken: it is not yet tried and its header passes checks 1 to 3 (R419). -/
def State.copyOk (s : State) (i : Nat) (b : List Byte) : Bool := !s.img.tried.contains i && decide (headerFail b = none)

/-- IMAGE_FETCHED (R418, R419): what the flash holds from 0x00_0000 and from 0x08_0000. -/
def execImageFetched (prim sec : List Byte) (s : State) : Out :=
  if s.phase ≠ phFETCH then .next s
  else
    let p := s.copyOk 0 prim
    let q := s.copyOk 1 sec
    let pick : Option (Nat × List Byte) :=
      if p && (!q || decide (imageGen sec ≤ imageGen prim)) then some (0, prim) else if q then some (1, sec) else none
    match pick with
    | none => .next (s.setPhase phLOADWAIT)
    | some (i, b) =>
      .next ((s.modImg (fun m => { m with src := i, tried := i :: m.tried, buf := b.take bufSize })).setPhase phVERIFY)

/-- IMAGE_VERIFIED (R425, R432): checks 1 to 7. -/
def execImageVerified (s : State) : Out :=
  if s.phase ≠ phVERIFY then .next s
  else match s.img.verifyFail with
    | some (c, d) => .next (s.imageRefuse c d)
    | none =>
      let b := s.img.buf.take (imageLen s.img.buf)
      let signer := (if vendorOk b then 1 else 0) + if ownerOk b then 2 else 0
      .next (((s.modImg (fun m => { m with buf := b })).setF 0x00000010 25 24 signer).setPhase phSTRUCT)

/-! ### STRUCT to REGS -/

/-- A structure, and the same with the interface registers that the image's REGISTERS records set. -/
def structState (m : RegFile) : State := { regs := m }
def structIfs (m : RegFile) (l : List ImgRec) : State :=
  structState ((l.filter (fun r => (instOf r.off 0x02202000 0x40 64).isSome && decide (r.off % 0x40 = 0))).foldl
    (fun m r => mapSet resetWord m r.off (r.onto (mapGet resetWord m r.off))) m)

/-- STRUCT_CHECKED (R425): checks 8 to 10. -/
def execStructChecked (s : State) : Out :=
  if s.phase ≠ phSTRUCT then .next s
  else
    let b := s.img.buf
    let dom := imageDomains b
    match structOf (imageRecords b 1) [] with
    | .inl o => .next (s.imageRefuse 8 o)
    | .inr m => match (structIfs m (imageRecords b 2)).ruleFail with
      | some n => .next (s.imageRefuse 9 n)
      | none => match (structState m).domainFail dom with
        | some d => .next (s.imageRefuse 10 d)
        | none =>
          let w := BitVec.ofNat 32 dom
          let regs := mapSet resetWord (mapSet resetWord m 0x00100000 w) 0x00100010 w
          .next ((s.modImg (fun x => { x with regs := regs, compat := imageCompat b, subsys := leAt b 20 4 })).setPhase phPOWER)

/-- A value of the image's register file. -/
def State.setImg (s : State) (a : Nat) (w : Word) : State := s.modImg (fun m => { m with regs := mapSet resetWord m.regs a w })

/-- A field of the image's register file. -/
def State.setImgF (s : State) (a hi lo v : Nat) : State := s.setImg a ((mapGet resetWord s.img.regs a).setField hi lo v)

/-- The subset's reset values (R435). -/
def State.subsetValues (s : State) : State :=
  if s.b 0x00000010 20 || s.img.compat then
    let s := s.setImgF 0x01800010 29 28 1
    let s := [0, 1].foldl (fun s k => s.setImgF (todOff k) 29 28 1) s
    (List.range 4).foldl (fun s k => s.setImg (ppsOff k + 0x14) (BitVec.ofNat 32 100000000)) s
  else s

/-- The faults by which blocks report a discarded write. -/
def discardFaults : List FaultId := [Flt.pwrRefused, Flt.refCfgBad, Flt.tiuCfgBad] ++ Blk.all.filterMap Blk.cfgBadFault

/-- A write of zero that TIU and ENS discard without a message: N of a lane unit, WMAX of an oscillator. -/
def zeroField (a : Nat) (w : Word) : Bool :=
  ((instOf a 0x01203000 0x80 18).isSome && decide (a % 0x80 = 0) && decide (w.field 15 0 = 0))
    || ((instOf a 0x01400100 0x40 4).isSome && decide (a % 0x40 = 0) && decide (w.field 15 8 = 0))

/-- A REGISTERS record (R424), as a host write of its bits; none where it is refused. -/
def State.applyRecord (s : State) (r : ImgRec) : Option State :=
  match findReg r.off with
  | none => none
  | some d =>
    if r.mask &&& (d.rw ||| d.sh) ≠ r.mask ∨ s.absent r.off then none
    else
      let w := r.onto (s.view r.off)
      let t := s.hostWr .pcie r.off w
      let told := (t.faults.drop s.faults.length).any (fun m => discardFaults.any (fun f => decide (f.src = m.src) && decide (f.kind = m.kind)))
      if told || zeroField r.off w || decide ((t.rd r.off).toNat &&& r.mask ≠ r.value) then none
      else some (t.setImg r.off (r.onto (mapGet resetWord t.img.regs r.off)))

/-- The records in image order; or the offset of the one that is refused. -/
def State.applyRecords (s : State) : List ImgRec → Nat ⊕ State
  | [] => .inr s
  | r :: l => match s.applyRecord r with
    | none => .inl r.at_
    | some t => t.applyRecords l

/-- The image's values into every register and into force. -/
def State.loadImg (s : State) : State := s.img.regs.foldl (fun s r => (s.wr r.1 r.2).setLv r.1 r.2) s

/-- DOMAINS_UP (R425, R428, R435): check 11; then the reset values, the subset, and the REGISTERS records with check 12. `failed`: the domain
that does not power up. -/
def execDomainsUp (failed : Option (Fin 10)) (s : State) : Out :=
  if s.phase ≠ phPOWER then .next s
  else match failed with
    | some d => .next (s.imageRefuse 0xD d.val)
    | none =>
      let dom := imageDomains s.img.buf
      let s := s.subsetValues.loadImg
      let s := ((List.range 30).filter (fun c => s.b 0x01300000 c)).foldl State.ctlIn s
      let s := (onOrder.filter dom.testBit).foldl State.domainOn s
      match s.applyRecords (imageRecords s.img.buf 2) with
      | .inl o => .next (s.imageRefuse 0xB o)
      | .inr t => .next (t.setPhase phREGS)

/-! ### RUN (R429) -/

/-- The commits of the channels that hold pending fields, in order; or the channel whose commit is refused. -/
def State.startCommits (s : State) : List Chan → Chan ⊕ State
  | [] => .inr s
  | ch :: l =>
    if (s.pendingOf ch).isEmpty then s.startCommits l
    else
      let r := s.commitNow ch
      if r.1.isSome then .inl ch else r.2.startCommits l

/-- A ToD pin whose PPS pin has a PERIOD other than 1 s or 2 s (R184). -/
def State.todRuleFail (s : State) : Option (Fin 2) :=
  (List.finRange 2).find? (fun t =>
    let p := s.lv (ppsOff (s.f (todOff t + 4) 2 1) + 0x10)
    s.b 0x01700000 (28 + t.val) && decide (p ≠ 1000000000) && decide (p ≠ 2000000000))

/-- The bases begin to count (R429): TB0 and the unyoked bases from `t0`, a RATIO-type base from its master's value; FREERUN, HOST or YOKED. The cycle
of its second counts as run, and no PPS edge is due before it. -/
def State.startBases (s : State) (t0 : Nat) : State :=
  let s := s.modSpn (fun p => { p with
    epoch := p.ticks, rawPhase := 0, rawRes := 0
    bases := p.bases.map (fun b => { b with time := t0 % timeMod, res := 0, phase := 0, phaseRes := 0, steppedP := false, steppedI := false }) })
  let s := (List.range 8).foldl (fun s n =>
    if s.tbPresent n then
      let st := if s.tbYoked n then 7 else if s.tbHost n then stHOST else stFREERUN
      (s.setF (ensOff n + 4) 31 28 st).setF (tbOff n + 4) 31 28 st
    else s) s
  let s : State := { s with ens := { s.ens with sec := s.tbSec 0 }, trace := { s.trace with sec := s.tbSec 0 } }
  { s with pps := s.pps.mapIdx (fun k (p : PpsPin) => ({ p with last := some (s.tbTime (s.ppsTb k)) } : PpsPin)) }

/-- Watch starts (R429): KEY's messages of before, IMAGE_LOADED and COMPAT come first, each in a round of its own. -/
def State.startWatch (s : State) (gen : Nat) : State :=
  let strap := s.b 0x00000010 20
  let compat := (if strap then 1 else 0) + if s.img.compat then 2 else 0
  let keys := s.faults.filter isKeyMsg
  let rest := s.faults.filter (fun m => !isKeyMsg m)
  let s := ({ s with faults := keys } : State).raise Flt.cfgImageLoaded gen
  let s := if compat = 0 then s else s.raise Flt.cfgCompat compat
  { s with flt := { s.flt with early := s.faults.length }, faults := s.faults ++ rest }

/-- What ENTER_RUN records (17, register map): generation, build time, source, keep-counter time and milliseconds since PORST_N; the owner
key of the image. -/
def State.runRecord (t : State) (keep : Nat) (ms : Word) : State :=
  let b := t.img.buf
  let t := (t.wrN 0x00000014 (imageGen b)).wrN 0x0000002C (imageBuild b)
  let t := ((t.setF 0x00000010 27 26 t.img.src).wr64 0x00000070 (keep / 2 ^ 15)).wr 0x00000078 ms
  t.modImg (fun m => { m with pub := imagePub b })

/-- The part enters RUN (R429, R431, R433): the SET of TB0 from the keep-counter, the records, Watch. -/
def State.runBegin (t : State) (ms : Word) : State :=
  let keep := if t.pwr.keepValid then t.keepNow % 2 ^ 63 else 0
  let t0 := keep * secU / 2 ^ 15
  let t := (t.startBases t0).runRecord keep ms
  let t := (t.setPhase phRUN).startWatch (imageGen t.img.buf)
  let t := los.foldl (fun s x => s.modMonitor x (fun m => { m with almFrom := s.spn.ticks })) t
  let t := ({ t with trace := { t.trace with start := t0 } } : State).irq .cfg 0
  if t.b 0x02300014 31 then t.shadowRebuild else t

/-- ENTER_RUN (R425, R429, R431, R433): check 13, the SET of TB0 from the keep-counter, Watch, RUN. `ms`: milliseconds since PORST_N. -/
def execEnterRun (ms : Word) (s : State) : Out :=
  if s.phase ≠ phREGS then .next s
  else match s.startCommits allChans with
    | .inl ch => .next (s.imageRefuse 0xC (chanOff ch + 8))
    | .inr t => match t.todRuleFail with
      | some k => .next (s.imageRefuse 0xC (todOff k + 8))
      | none => .next (t.runBegin ms)

end Sys2Proof.Machine
end

