-- ==== Sys2Proof/Machine/Dispatch.lean ====
section
/-! DEFINITION. Which meaning each command has. -/
namespace Sys2Proof.Machine

/-- The effect of a command on everything but the queue. -/
def exec (i : Instr) (s : State) : Host.Outcome State Fault Refusal :=
  match i with
  | .registerWrite itf off v => Sys2Proof.Machine.execRegisterWrite itf off v s
  | .rcRead r => Sys2Proof.Machine.execRcRead r s
  | .absentAccess itf off write => Sys2Proof.Machine.execAbsentAccess itf off write s
  | .decodeMiss itf off write => Sys2Proof.Machine.execDecodeMiss itf off write s
  | .badAccess bar4 addr write => Sys2Proof.Machine.execBadAccess bar4 addr write s
  | .fenceOpen itf v => Sys2Proof.Machine.execFenceOpen itf v s
  | .fenceComplete itf => Sys2Proof.Machine.execFenceComplete itf s
  | .fenceSlow itf => Sys2Proof.Machine.execFenceSlow itf s
  | .carrierNamed m => Sys2Proof.Machine.execCarrierNamed m s
  | .carrierRampEnd => Sys2Proof.Machine.execCarrierRampEnd s
  | .synsLock => Sys2Proof.Machine.execSynsLock s
  | .spineForceWrite itf v => Sys2Proof.Machine.execSpineForceWrite itf v s
  | .snapReq itf v => Sys2Proof.Machine.execSnapReq itf v s
  | .snapDone itf => Sys2Proof.Machine.execSnapDone itf s
  | .commitWrite itf ch v => Sys2Proof.Machine.execCommitWrite itf ch v s
  | .commitCheck ch => Sys2Proof.Machine.execCommitCheck ch s
  | .lockPoint ch => Sys2Proof.Machine.execLockPoint ch s
  | .commitLive ch => Sys2Proof.Machine.execCommitLive ch s
  | .leapApplied n => Sys2Proof.Machine.execLeapApplied n s
  | .smearWindowStart n => Sys2Proof.Machine.execSmearWindowStart n s
  | .smearWindowEnd n => Sys2Proof.Machine.execSmearWindowEnd n s
  | .slotArm itf sl v => Sys2Proof.Machine.execSlotArm itf sl v s
  | .slotCancel itf sl v => Sys2Proof.Machine.execSlotCancel itf sl v s
  | .slotFire sl => Sys2Proof.Machine.execSlotFire sl s
  | .evtPulseEnd p => Sys2Proof.Machine.execEvtPulseEnd p s
  | .refinConfigWrite itf n reg v => Sys2Proof.Machine.execRefinConfigWrite itf n reg v s
  | .loConfigWrite itf m reg v => Sys2Proof.Machine.execLoConfigWrite itf m reg v s
  | .dividedEdge src spacing => Sys2Proof.Machine.execDividedEdge src spacing s
  | .los src => Sys2Proof.Machine.execLos src s
  | .loAlarmSet m => Sys2Proof.Machine.execLoAlarmSet m s
  | .loAlarmClear m => Sys2Proof.Machine.execLoAlarmClear m s
  | .loTempSample t0 t1 t2 t3 => Sys2Proof.Machine.execLoTempSample t0 t1 t2 t3 s
  | .dieTempSample t => Sys2Proof.Machine.execDieTempSample t s
  | .tiuEvent k spacing => Sys2Proof.Machine.execTiuEvent k spacing s
  | .tiuConversionDone k code => Sys2Proof.Machine.execTiuConversionDone k code s
  | .tiuConfigWrite itf k v => Sys2Proof.Machine.execTiuConfigWrite itf k v s
  | .tiuDensityTest k nl sum500 sum1000 => Sys2Proof.Machine.execTiuDensityTest k nl sum500 sum1000 s
  | .tiuCalPeriod k => Sys2Proof.Machine.execTiuCalPeriod k s
  | .tiuCalNow itf v => Sys2Proof.Machine.execTiuCalNow itf v s
  | .tiuCalEnd k sum500 sum1000 => Sys2Proof.Machine.execTiuCalEnd k sum500 sum1000 s
  | .tiuCalRetry k => Sys2Proof.Machine.execTiuCalRetry k s
  | .tiuResultRead itf u => Sys2Proof.Machine.execTiuResultRead itf u s
  | .laneUnitEvent m ch steps => Sys2Proof.Machine.execLaneUnitEvent m ch steps s
  | .laneCalFail m => Sys2Proof.Machine.execLaneCalFail m s
  | .synSearchDone k found edges => Sys2Proof.Machine.execSynSearchDone k found edges s
  | .synLoopSettled k edges => Sys2Proof.Machine.execSynLoopSettled k edges s
  | .synLockingTimeout k edges => Sys2Proof.Machine.execSynLockingTimeout k edges s
  | .synAlignStart k edges => Sys2Proof.Machine.execSynAlignStart k edges s
  | .synUnlock k edges => Sys2Proof.Machine.execSynUnlock k edges s
  | .rampDone k edges => Sys2Proof.Machine.execRampDone k edges s
  | .synRealigned k edges => Sys2Proof.Machine.execSynRealigned k edges s
  | .ppsEdge k => Sys2Proof.Machine.execPpsEdge k s
  | .ppsPulseEnd k => Sys2Proof.Machine.execPpsPulseEnd k s
  | .todMessage k => Sys2Proof.Machine.execTodMessage k s
  | .todMessageEnd k => Sys2Proof.Machine.execTodMessageEnd k s
  | .monitorTick => Sys2Proof.Machine.execMonitorTick s
  | .candidateSourceReport c => Sys2Proof.Machine.execCandidateSourceReport c s
  | .qualityInput c qin => Sys2Proof.Machine.execQualityInput c qin s
  | .selPrefWrite itf n v => Sys2Proof.Machine.execSelPrefWrite itf n v s
  | .ensembleCycle => Sys2Proof.Machine.execEnsembleCycle s
  | .warmupEnd m => Sys2Proof.Machine.execWarmupEnd m s
  | .trefFixed m => Sys2Proof.Machine.execTrefFixed m s
  | .trained m => Sys2Proof.Machine.execTrained m s
  | .memberRejoin m => Sys2Proof.Machine.execMemberRejoin m s
  | .servoUpdate n => Sys2Proof.Machine.execServoUpdate n s
  | .exceededFlagExpiry n => Sys2Proof.Machine.execExceededFlagExpiry n s
  | .boundEval10ms n => Sys2Proof.Machine.execBoundEval10ms n s
  | .mapHoldExpiry n => Sys2Proof.Machine.execMapHoldExpiry n s
  | .traceSecond => Sys2Proof.Machine.execTraceSecond s
  | .laneTrimDone m slow fast => Sys2Proof.Machine.execLaneTrimDone m slow fast s
  | .vanePpsEdge sec => Sys2Proof.Machine.execVanePpsEdge sec s
  | .gnssSolution q g => Sys2Proof.Machine.execGnssSolution q g s
  | .gnssMissingSecond q => Sys2Proof.Machine.execGnssMissingSecond q s
  | .gnssConfigChange itf off v => Sys2Proof.Machine.execGnssConfigChange itf off v s
  | .clkLost k => Sys2Proof.Machine.execClkLost k s
  | .clkRange k err => Sys2Proof.Machine.execClkRange k err s
  | .feClockReturn k err => Sys2Proof.Machine.execFeClockReturn k err s
  | .channelDrop x => Sys2Proof.Machine.execChannelDrop x s
  | .signalAcquired x bin => Sys2Proof.Machine.execSignalAcquired x bin s
  | .aidGo itf v => Sys2Proof.Machine.execAidGo itf v s
  | .aidDone => Sys2Proof.Machine.execAidDone s
  | .aidedFirstTimeout => Sys2Proof.Machine.execAidedFirstTimeout s
  | .gnssWake crcOk => Sys2Proof.Machine.execGnssWake crcOk s
  | .gnsTimRead itf => Sys2Proof.Machine.execGnsTimRead itf s
  | .deskewDone p k1 k2 k3 => Sys2Proof.Machine.execDeskewDone p k1 k2 k3 s
  | .deskewFail p => Sys2Proof.Machine.execDeskewFail p s
  | .linkUp p => Sys2Proof.Machine.execLinkUp p s
  | .frameReceive p x => Sys2Proof.Machine.execFrameReceive p x s
  | .pauseExpire p => Sys2Proof.Machine.execPauseExpire p s
  | .pauseWd p => Sys2Proof.Machine.execPauseWd p s
  | .pauseHoldoffEnd p => Sys2Proof.Machine.execPauseHoldoffEnd p s
  | .esmcTx p event => Sys2Proof.Machine.execEsmcTx p event s
  | .esmcTimeout p => Sys2Proof.Machine.execEsmcTimeout p s
  | .hostRingDeliver p descs bad => Sys2Proof.Machine.execHostRingDeliver p descs bad s
  | .rxTailWrite itf p v => Sys2Proof.Machine.execRxTailWrite itf p v s
  | .txTailWrite itf p v => Sys2Proof.Machine.execTxTailWrite itf p v s
  | .txFrameFetch p descs bufs bad => Sys2Proof.Machine.execTxFrameFetch p descs bufs bad s
  | .rxRingReset itf p v => Sys2Proof.Machine.execRxRingReset itf p v s
  | .txRingReset itf p v => Sys2Proof.Machine.execTxRingReset itf p v s
  | .txFrameStart p pos skip bad => Sys2Proof.Machine.execTxFrameStart p pos skip bad s
  | .txFrameEnd p bad => Sys2Proof.Machine.execTxFrameEnd p bad s
  | .linkFaultReceived p lf rf => Sys2Proof.Machine.execLinkFaultReceived p lf rf s
  | .alignmentLockLoss p => Sys2Proof.Machine.execAlignmentLockLoss p s
  | .launchPassedNotUp p bad => Sys2Proof.Machine.execLaunchPassedNotUp p bad s
  | .classify p launch errs => Sys2Proof.Machine.execClassify p launch errs s
  | .syncEmit st launch => Sys2Proof.Machine.execSyncEmit st launch s
  | .announceEmit st => Sys2Proof.Machine.execAnnounceEmit st s
  | .keyLoad itf v => Sys2Proof.Machine.execKeyLoad itf v s
  | .keyDelete itf v => Sys2Proof.Machine.execKeyDelete itf v s
  | .ntsRingWrite itf v => Sys2Proof.Machine.execNtsRingWrite itf v s
  | .mintGo itf v => Sys2Proof.Machine.execMintGo itf v s
  | .mintDone => Sys2Proof.Machine.execMintDone s
  | .clientRequest k => Sys2Proof.Machine.execClientRequest k s
  | .clientRequestRetry k => Sys2Proof.Machine.execClientRequestRetry k s
  | .clientWaitTimeout k => Sys2Proof.Machine.execClientWaitTimeout k s
  | .clientLost k cause => Sys2Proof.Machine.execClientLost k cause s
  | .clientRenew k grant => Sys2Proof.Machine.execClientRenew k grant s
  | .storeInit trained => Sys2Proof.Machine.execStoreInit trained s
  | .sessionSweep => Sys2Proof.Machine.execSessionSweep s
  | .lookup itf => Sys2Proof.Machine.execLookup itf s
  | .create itf => Sys2Proof.Machine.execCreate itf s
  | .provision itf => Sys2Proof.Machine.execProvision itf s
  | .release itf => Sys2Proof.Machine.execRelease itf s
  | .unpin itf => Sys2Proof.Machine.execUnpin itf s
  | .scrubLine errs => Sys2Proof.Machine.execScrubLine errs s
  | .bar2Write addr bytes => Sys2Proof.Machine.execBar2Write addr bytes s
  | .atomicOp target wide op a b => Sys2Proof.Machine.execAtomicOp target wide op a b s
  | .lockTimeout addr master => Sys2Proof.Machine.execLockTimeout addr master s
  | .claimFrameSend => Sys2Proof.Machine.execClaimFrameSend s
  | .claimFrameReceive bytes => Sys2Proof.Machine.execClaimFrameReceive bytes s
  | .claimBoundary => Sys2Proof.Machine.execClaimBoundary s
  | .peerStale => Sys2Proof.Machine.execPeerStale s
  | .claimHoldoffEnd => Sys2Proof.Machine.execClaimHoldoffEnd s
  | .linkFrameReceive lane bytes => Sys2Proof.Machine.execLinkFrameReceive lane bytes s
  | .linkFrameSend due => Sys2Proof.Machine.execLinkFrameSend due s
  | .linkRetry => Sys2Proof.Machine.execLinkRetry s
  | .linkAckTimeout => Sys2Proof.Machine.execLinkAckTimeout s
  | .tndLinkDown => Sys2Proof.Machine.execTndLinkDown s
  | .spareCheck errs => Sys2Proof.Machine.execSpareCheck errs s
  | .healthSecond katPassed => Sys2Proof.Machine.execHealthSecond katPassed s
  | .laneLpEnter itf m v => Sys2Proof.Machine.execLaneLpEnter itf m v s
  | .laneLpExit itf m v => Sys2Proof.Machine.execLaneLpExit itf m v s
  | .groupLpWrite itf v => Sys2Proof.Machine.execGroupLpWrite itf v s
  | .laneRestart itf m v => Sys2Proof.Machine.execLaneRestart itf m v s
  | .laneTestWrite itf m v => Sys2Proof.Machine.execLaneTestWrite itf m v s
  | .lanePllReady m => Sys2Proof.Machine.execLanePllReady m s
  | .pllFail m => Sys2Proof.Machine.execPllFail m s
  | .laneCdrLock m rx tx => Sys2Proof.Machine.execLaneCdrLock m rx tx s
  | .trainDone m => Sys2Proof.Machine.execTrainDone m s
  | .trainFail m signal => Sys2Proof.Machine.execTrainFail m signal s
  | .laneAlignLock m rx tx => Sys2Proof.Machine.execLaneAlignLock m rx tx s
  | .lockLost m cause eye => Sys2Proof.Machine.execLockLost m cause eye s
  | .eyeGo itf m v => Sys2Proof.Machine.execEyeGo itf m v s
  | .eyePointDone m errs => Sys2Proof.Machine.execEyePointDone m errs s
  | .prbsChkLock m rx => Sys2Proof.Machine.execPrbsChkLock m rx s
  | .prbsLockLost m errs window => Sys2Proof.Machine.execPrbsLockLost m errs window s
  | .prbsInj itf m v => Sys2Proof.Machine.execPrbsInj itf m v s
  | .prbsErrRead itf m errs => Sys2Proof.Machine.execPrbsErrRead itf m errs s
  | .coefficientUpdate m req answered own => Sys2Proof.Machine.execCoefficientUpdate m req answered own s
  | .entropyRetry passed => Sys2Proof.Machine.execEntropyRetry passed s
  | .healthTestFail restarts => Sys2Proof.Machine.execHealthTestFail restarts s
  | .generate itf slot => Sys2Proof.Machine.execGenerate itf slot s
  | .load itf slot => Sys2Proof.Machine.execLoad itf slot s
  | .erase itf slot => Sys2Proof.Machine.execErase itf slot s
  | .attest itf slot => Sys2Proof.Machine.execAttest itf slot s
  | .disarm itf loops => Sys2Proof.Machine.execDisarm itf loops s
  | .zeroise itf burn => Sys2Proof.Machine.execZeroise itf burn s
  | .nonceRead itf => Sys2Proof.Machine.execNonceRead itf s
  | .tampArmWrite itf v intact => Sys2Proof.Machine.execTampArmWrite itf v intact s
  | .tamper hit => Sys2Proof.Machine.execTamper hit s
  | .burnDone => Sys2Proof.Machine.execBurnDone s
  | .burnIncomplete => Sys2Proof.Machine.execBurnIncomplete s
  | .coreDeparture => Sys2Proof.Machine.execCoreDeparture s
  | .coreDepartureDecided glitch => Sys2Proof.Machine.execCoreDepartureDecided glitch s
  | .vbatLoss cellLost => Sys2Proof.Machine.execVbatLoss cellLost s
  | .dmaEnable itf c => Sys2Proof.Machine.execDmaEnable itf c s
  | .dmaDisable itf c => Sys2Proof.Machine.execDmaDisable itf c s
  | .dmaStopped c => Sys2Proof.Machine.execDmaStopped c s
  | .dmaDoorbell itf c => Sys2Proof.Machine.execDmaDoorbell itf c s
  | .dmaDescFetched c desc => Sys2Proof.Machine.execDmaDescFetched c desc s
  | .dmaTransferDone c src err => Sys2Proof.Machine.execDmaTransferDone c src err s
  | .dmaLinkRead c next => Sys2Proof.Machine.execDmaLinkRead c next s
  | .prfCounterRead itf ix => Sys2Proof.Machine.execPrfCounterRead itf ix s
  | .tallyCapture step => Sys2Proof.Machine.execTallyCapture step s
  | .dumpWritten ok => Sys2Proof.Machine.execDumpWritten ok s
  | .dumpCtlWrite itf v => Sys2Proof.Machine.execDumpCtlWrite itf v s
  | .completionTimeout r => Sys2Proof.Machine.execCompletionTimeout r s
  | .pcieLinkReset e => Sys2Proof.Machine.execPcieLinkReset e s
  | .flrComplete => Sys2Proof.Machine.execFlrComplete s
  | .msixUnmask w => Sys2Proof.Machine.execMsixUnmask w s
  | .watchRound => Sys2Proof.Machine.execWatchRound s
  | .fltBresetWrite itf v => Sys2Proof.Machine.execFltBresetWrite itf v s
  | .fltCresetWrite itf v => Sys2Proof.Machine.execFltCresetWrite itf v s
  | .fltSafeReqWrite itf v => Sys2Proof.Machine.execFltSafeReqWrite itf v s
  | .pairCheck run => Sys2Proof.Machine.execPairCheck run s
  | .maskWindowEnd b => Sys2Proof.Machine.execMaskWindowEnd b s
  | .recordClear itf worst => Sys2Proof.Machine.execRecordClear itf worst s
  | .irqStatWrite itf b v => Sys2Proof.Machine.execIrqStatWrite itf b v s
  | .i2cWrite bytes => Sys2Proof.Machine.execI2cWrite bytes s
  | .i2cRead bytes => Sys2Proof.Machine.execI2cRead bytes s
  | .macCounterRead itf p c => Sys2Proof.Machine.execMacCounterRead itf p c s
  | .statusBankRead itf off => Sys2Proof.Machine.execStatusBankRead itf off s
  | .powerOnReset mainLost => Sys2Proof.Machine.execPowerOnReset mainLost s
  | .resetRelease away boot unitB compat testN => Sys2Proof.Machine.execResetRelease away boot unitB compat testN s
  | .keysPhase healthOk bad => Sys2Proof.Machine.execKeysPhase healthOk bad s
  | .imageFetched prim sec => Sys2Proof.Machine.execImageFetched prim sec s
  | .loadStart itf => Sys2Proof.Machine.execLoadStart itf s
  | .loadData itf v => Sys2Proof.Machine.execLoadData itf v s
  | .loadGo itf => Sys2Proof.Machine.execLoadGo itf s
  | .imageVerified => Sys2Proof.Machine.execImageVerified s
  | .structChecked => Sys2Proof.Machine.execStructChecked s
  | .domainsUp failed => Sys2Proof.Machine.execDomainsUp failed s
  | .enterRun ms => Sys2Proof.Machine.execEnterRun ms s
  | .keepCopy => Sys2Proof.Machine.execKeepCopy s
  | .fuse itf req => Sys2Proof.Machine.execFuse itf req s
  | .setRequire itf => Sys2Proof.Machine.execSetRequire itf s
  | .ownerBurnDone missed => Sys2Proof.Machine.execOwnerBurnDone missed s
  | .domReqWrite itf v => Sys2Proof.Machine.execDomReqWrite itf v s
  | .domainSwitched => Sys2Proof.Machine.execDomainSwitched s
  | .rampFail => Sys2Proof.Machine.execRampFail s
  | .railFault rail => Sys2Proof.Machine.execRailFault rail s
  | .brownOut => Sys2Proof.Machine.execBrownOut s

end Sys2Proof.Machine
end

