-- ==== Sys2Proof/Machine/Step.lean ====
section
/-! DEFINITION. The step: the command at the front of the queue, or one spine tick while none waits. -/
namespace Sys2Proof.Machine

/-- One step: the command at the front of the queue runs on the state with the queue's rest; with an empty queue one spine tick passes
(log entry 4). -/
def step (s : State) : Host.Outcome State Fault Refusal :=
  match s.pending with
  | [] => .next (spineTick s)
  | c :: r => exec c { s with pending := r }

/-- No row of the opcode table gives a command bits, so no word spells one: the state is as it was. -/
def State.withFetchWord (s : State) (nbits w : Nat) : State :=
  match decodeTableWord nbits w with
  | some c => { s with pending := c :: s.pending }
  | none => s

end Sys2Proof.Machine
end

