-- ==== Sys2Proof/Safety.lean ====
section
/-! DEFINITION. What counts as a safe state and a safe run: every sparse map of the state in its one canonical form, and steps that answer a
next state. -/
namespace Sys2Proof.Machine

/-- Every sparse map of a state is in its canonical form: the registers, the values in force, the two banks, the image's values, Tally's
counters, Watch's log and the Granary. -/
def State.wf (s : State) : Bool :=
  mapWf resetWord s.regs && mapWf resetWord s.live && mapWf resetWord s.bankP && mapWf resetWord s.bankI
    && mapWf resetWord s.img.regs && mapWf (fun _ => 0) s.tally && mapWf noEntry s.flt.log && Memory.wf s.mem

/-- Every list of a state that stands for a fixed number of like things has that number of entries, and the group key table is in its
canonical form. -/
def State.shaped (s : State) : Bool :=
  decide (s.chans.length = 46) && decide (s.spn.bases.length = 8) && decide (s.spn.slots.length = 64)
    && decide (s.monitors.length = 15) && decide (s.tiuP.length = 12) && decide (s.tiuL.length = 18)
    && decide (s.syns.length = 4) && decide (s.outs.length = 12) && decide (s.lanes.length = 18) && decide (s.pps.length = 4) && decide (s.tod.length = 2)
    && decide (s.ens.members.length = 4) && decide (s.ens.ctl.length = 8) && decide (s.ens.cands.length = 30)
    && decide (s.srcRes.length = 6) && decide (s.mac.length = 16) && decide (s.pkt.clients.length = 4)
    && mapWf (fun _ => ({} : GroupKey)) s.pkt.keys && decide (s.dma.length = 16) && decide (s.keys.copyA.length = 64)
    && decide (s.keys.copyB.length = 64)

/-- The invariant of the model: canonical sparse maps, and lists of their size. -/
def State.inv (s : State) : Bool := s.wf && s.shaped

/-- A host write of interface `i` to the register at `a` is served at once: the host interfaces work, the part runs or the register is one
of CFG (R430), no fence (R42), no earlier access to the block (R41) and no ramping domain (R448) holds it, and its element is present
(R33). -/
def State.serves (s : State) (i : Itf) (a : Nat) : Bool :=
  s.hostOn && (s.running || decide (Blk.ofOff a = some .cfg)) && !s.fenceHolds i a && !s.behind i a true && !s.ramping a && !s.absent a

/-- A host read of the register at `a` is served at once: the host interfaces work, the part runs or the register is one of CFG (R430),
the offset names a register (R393), no earlier access to the block (R41), no ramping domain (R448) and no running snapshot capture (R65)
holds it, and its element is present (R33). -/
def State.reads (s : State) (i : Itf) (a : Nat) : Bool :=
  s.hostOn && (s.running || decide (Blk.ofOff a = some .cfg)) && (findReg a).isSome && !s.behind i a false && !s.ramping a && !s.absent a
    && !(decide (0x01000100 ≤ a ∧ a < 0x01000200) && (s.snapOf i).isSome)

/-! ### What a command may change -/

/-- The parts of a state: one for each field. -/
inductive Part
  | regs | live | pendSh | shStamp | bankP | bankI | rdP | rdI | fenceP | fenceI | heldP | heldI | chans | spn
  | monitors | tiuP | tiuL | syns | outs | lanes | pps | tod | ens | srcRes | tnd | gns | mac | pkt | cst | img
  | pwr | dma | prf | flt | trace | keys | faults | vecMask | pba | tally | mem | out | free | pending | pcie
  deriving DecidableEq, Repr

/-- Two states agree on a part. -/
def Part.same (c : Part) (s t : State) : Prop :=
  match c with
  | .regs => t.regs = s.regs
  | .live => t.live = s.live
  | .pendSh => t.pendSh = s.pendSh
  | .shStamp => t.shStamp = s.shStamp
  | .bankP => t.bankP = s.bankP
  | .bankI => t.bankI = s.bankI
  | .rdP => t.rdP = s.rdP
  | .rdI => t.rdI = s.rdI
  | .fenceP => t.fenceP = s.fenceP
  | .fenceI => t.fenceI = s.fenceI
  | .heldP => t.heldP = s.heldP
  | .heldI => t.heldI = s.heldI
  | .chans => t.chans = s.chans
  | .spn => t.spn = s.spn
  | .monitors => t.monitors = s.monitors
  | .tiuP => t.tiuP = s.tiuP
  | .tiuL => t.tiuL = s.tiuL
  | .syns => t.syns = s.syns
  | .outs => t.outs = s.outs
  | .lanes => t.lanes = s.lanes
  | .pps => t.pps = s.pps
  | .tod => t.tod = s.tod
  | .ens => t.ens = s.ens
  | .srcRes => t.srcRes = s.srcRes
  | .tnd => t.tnd = s.tnd
  | .gns => t.gns = s.gns
  | .mac => t.mac = s.mac
  | .pkt => t.pkt = s.pkt
  | .cst => t.cst = s.cst
  | .img => t.img = s.img
  | .pwr => t.pwr = s.pwr
  | .dma => t.dma = s.dma
  | .prf => t.prf = s.prf
  | .flt => t.flt = s.flt
  | .trace => t.trace = s.trace
  | .keys => t.keys = s.keys
  | .faults => t.faults = s.faults
  | .vecMask => t.vecMask = s.vecMask
  | .pba => t.pba = s.pba
  | .tally => t.tally = s.tally
  | .mem => t.mem = s.mem
  | .out => t.out = s.out
  | .free => t.free = s.free
  | .pending => t.pending = s.pending
  | .pcie => t.pcie = s.pcie

/-- From `s` to `t` only the parts listed may have changed. -/
def Frame (l : List Part) (s t : State) : Prop := ∀ c : Part, c ∉ l → c.same s t

/-- Of the registers, only those listed may have changed. -/
def OnlyRegs (l : List Nat) (s t : State) : Prop := ∀ a, a ∉ l → t.rd a = s.rd a

/-- Of the Granary, only the trace ring (06 R179) may have changed. -/
def OnlyRing (s t : State) : Prop := ∀ a, a < 0x90000000 ∨ 0xD0000000 ≤ a → t.mget a = s.mget a

/-- No fault message that waited at the collector is lost. -/
def KeepsFaults (s t : State) : Prop := ∀ m ∈ s.faults, m ∈ t.faults

/-- A fault message waits at the collector with its context word (R376). -/
def State.sent (t : State) (f : FaultId) (ctx : Nat) : Prop := ⟨f.src, f.kind, f.sev, BitVec.ofNat 32 ctx⟩ ∈ t.faults

/-- The bytes of a link frame with header and payload `body` under a key (R367): the MAC and the CRC follow. -/
def sealedFrame (key body : List Byte) : List Byte :=
  let m := body ++ linkMac key body
  m ++ beBytes 4 (crc32c m)

/-- What the last read of an interface returned. -/
def State.readOf (s : State) (i : Itf) : Option Completion :=
  match i with
  | .pcie => s.rdP
  | .i2c => s.rdI

/-- An outcome is a next state that meets `p`. -/
def Nexts (o : Host.Outcome State Fault Refusal) (p : State → Prop) : Prop := ∃ t, o = .next t ∧ p t

/-- A run of `n` steps that meets neither a fault nor a refusal. -/
def safeRun (n : Nat) (s : State) : Prop := ∃ t, Host.Core.run Sys2Proof.core n s = .next t

/-- The commands that may take a waiting fault message away: Watch's round, those that restart the part, the steps of start-up, the register
accesses, which can be one of these, and what lets accesses that waited go on: the end of a fence, of a commit copy, of a capture and of a
domain request, and a block reset. -/
def takesFaults : Instr → Bool
  | .absentAccess _ _ _ | .brownOut | .commitCheck _ | .coreDepartureDecided _ | .decodeMiss _ _ _ | .domainSwitched | .domainsUp _
  | .enterRun _ | .fenceComplete _ | .fltBresetWrite _ _ | .fltCresetWrite _ _ | .i2cWrite _ | .imageVerified | .powerOnReset _ | .rampFail | .registerWrite _ _ _
  | .resetRelease _ _ _ _ _ | .snapDone _ | .structChecked | .watchRound => true
  | _ => false

end Sys2Proof.Machine
end

