-- ==== Sys2Proof/Certificates/Slice0/Obligations.lean ====
section
/-! DEFINITION. The statements for the provers, in the order of OBLIGATIONS.json: the whole machine first, then rules stated whole, then
the families of commands. -/
open Sys2Proof Sys2Proof.Machine

/-- After power-on reset nothing waits and the registers hold the values of the Reset column. State.reset has an empty queue, no waiting fault,
an empty Granary and phase RESET, and these registers of every block with a value in the Reset column hold it: PWR, FLT, MTX, DMA, PRF, SPN,
TIU, SEL, ENS, BND and GNS control words, the bound and increment of every base, FLT_REACT of every assigned source, the TIU gains, PPS
PERIOD and SYN RESLEW. The empty queue and the empty list of bytes are the model's form (log entries 6, 12). (00_scope.md, R19;
02_time_spine_and_time_bases.md, R54; 15_fault_collection.md, R379; 19_register_map.md.) -/
def Obligations.ResetStateHoldsTheStatedValues : Prop :=
  State.reset.pending = [] ∧ State.reset.phase = phRESET ∧ State.reset.faults = [] ∧ State.reset.mem = []
  ∧ (∀ p ∈ [((0x00100014 : Nat), (0x13 : Word)), ((0x00100040 : Nat), (0x6400 : Word)), ((0x00200000 : Nat), (0x400 : Word)), ((0x00200010 : Nat),
        (2 : Word)), ((0x00200014 : Nat), (0x40000000 : Word)),
      ((0x00300000 : Nat), (0x02004020 : Word)), ((0x00400000 : Nat), (0x10 : Word)), ((0x00500014 : Nat), (0x3E8 : Word)), ((0x01000014 : Nat),
        (0x80 : Word)), ((0x01200010 : Nat), (0x803E8 : Word)),
      ((0x01300010 : Nat), (0x36F9 : Word)), ((0x01300014 : Nat), (0x15FD : Word)), ((0x01400010 : Nat), (0x501 : Word)), ((0x01400014 : Nat),
        (0x15180 : Word)), ((0x01500010 : Nat), (0xFF01 : Word)),
      ((0x01500020 : Nat), (0x80000000 : Word)), ((0x01800014 : Nat), (0x0C000000 : Word))],
      State.reset.rd p.1 = p.2)
  ∧ (∀ n : Fin 8, State.reset.rd (bndOff n.val) = 0xFFFFFFFF ∧ State.reset.rd (tbOff n.val + 0x14) = 0x80)
  ∧ (∀ k : Fin 256, State.reset.view (0x00201000 + 4 * k.val) = if k.val < 0x70 then 0x12110100 else 0)
  ∧ (∀ k : Fin 12, State.reset.rd (tiuOff (.p k) + 0x40) = 0x00100000)
  ∧ (∀ k : Fin 4, State.reset.rd (ppsOff k.val + 0x10) = 0x3B9ACA00 ∧ State.reset.rd (synOff k.val + 0x14) = 0x10C6F7A0)

/-- The state after reset meets the invariant. State.reset.inv holds: the sparse maps and the lists that it names are in their canonical form
and of their size. (00_scope.md, R19; 19_register_map.md.) -/
def Obligations.ResetStateMeetsTheInvariant : Prop :=
  State.reset.inv = true

/-- A step runs the command at the front of the queue on the state with the queue's rest. For every command c and state s whose queue begins
with c, step s is exec c on s with the queue's rest. (01_architecture.md, R38; 01_architecture.md, R39; 01_architecture.md.) -/
def Obligations.StepRunsTheCommandInFront : Prop :=
  ∀ (c : Instr) (r : List Instr) (s : State), s.pending = c :: r → step s = exec c { s with pending := r }

/-- With an empty queue a step is one spine tick (the model's choice, log entry 4). The choice of log entry 4: a step with no command waiting is
one tick of the spine, which counts it, and the queue stays empty. (01_architecture.md, R47; 02_time_spine_and_time_bases.md, R56;
02_time_spine_and_time_bases.md.) -/
def Obligations.IdleStepIsOneSpineTick : Prop :=
  ∀ s : State, s.pending = [] → step s = .next (spineTick s) ∧ (spineTick s).spn.ticks = s.spn.ticks + 1 ∧ (spineTick s).pending = []

/-- Every step keeps the invariant: canonical sparse maps, and lists of their size. The invariant, State.inv, says that the register files, the
counters, the fault log, the group keys and the Granary have their canonical form, and that the lists of the channels, time bases, slots,
monitors, interval units, synthesizers, outputs, lanes, pins, members, base controls, candidates, source results, ports, clients, DMA
channels and Chest copies have one element for each. From every state that meets it, reached or not, a step that answers a next state
answers one that meets it. (00_scope.md, R14; 12_client_store.md, R312; 19_register_map.md.) -/
def Obligations.EveryStepKeepsTheInvariant : Prop :=
  ∀ s t : State, s.inv = true → step s = .next t → t.inv = true

/-- Every step answers a next state and takes exactly one command from the queue. In every state a step answers a next state: no command is
refused and none stops the block. Its queue is the queue without the command at the front. (01_architecture.md, R33; 01_architecture.md,
R38; 01_architecture.md, R41; 01_architecture.md.) -/
def Obligations.EveryStepAnswersAndTakesOneCommand : Prop :=
  ∀ s : State, Nexts (step s) fun t => t.pending = s.pending.tail

/-- A waiting fault message stays until Watch's round or a restart takes it. A fault message that waits is removed by no command but the rounds
of Watch, the commands that can restart the part, the steps of start-up, the universal register accesses that can be one of them, and the
commands that let accesses which waited go on (the end of a fence, a commit copy, a capture or a domain request, and a block reset).
(15_fault_collection.md, R376; 15_fault_collection.md, R377; 15_fault_collection.md.) -/
def Obligations.WaitingFaultMessagesStay : Prop :=
  ∀ (c : Instr) (s t : State) (m : FaultMsg), takesFaults c = false → exec c s = .next t → m ∈ s.faults → m ∈ t.faults

/-- A register write at a row's register is that row's command. A REGISTER_WRITE of the word that a row of the table stands for, to the register
the row writes, does exactly what the row's command does: fences, commits, snapshot requests, slots, unit, input and selector settings,
lane, ring, DMA, key and store commands, interrupts, resets, the load window, the owner commands and the domain request. (00_scope.md, R14;
19_register_map.md.) -/
def Obligations.RegisterWriteIsTheRowOfItsRegister : Prop :=
  (∀ (i : Itf) (v : Word) (s : State), exec (.registerWrite i 0x00000100 v) s = exec (.fenceOpen i v) s)
  ∧ (∀ (i : Itf) (v : Word) (s : State), exec (.registerWrite i 0x01000010 v) s = exec (.spineForceWrite i v) s)
  ∧ (∀ (i : Itf) (v : Word) (s : State), exec (.registerWrite i 0x01000020 v) s = exec (.snapReq i v) s)
  ∧ (∀ (i : Itf) (v : Word) (s : State), exec (.registerWrite i 0x01200010 v) s = exec (.tiuCalNow i v) s)
  ∧ (∀ (i : Itf) (v : Word) (s : State), exec (.registerWrite i 0x01800078 v) s = exec (.aidGo i v) s)
  ∧ (∀ (i : Itf) (v : Word) (s : State), exec (.registerWrite i 0x02203420 v) s = exec (.ntsRingWrite i v) s)
  ∧ (∀ (i : Itf) (v : Word) (s : State), exec (.registerWrite i 0x0220344C v) s = exec (.mintGo i v) s)
  ∧ (∀ (i : Itf) (v : Word) (s : State), exec (.registerWrite i 0x0200001C v) s = exec (.groupLpWrite i v) s)
  ∧ (∀ (i : Itf) (v : Word) (s : State), exec (.registerWrite i 0x00500010 v) s = exec (.dumpCtlWrite i v) s)
  ∧ (∀ (i : Itf) (v : Word) (s : State), exec (.registerWrite i 0x00200060 v) s = exec (.fltBresetWrite i v) s)
  ∧ (∀ (i : Itf) (v : Word) (s : State), exec (.registerWrite i 0x00200070 v) s = exec (.fltCresetWrite i v) s)
  ∧ (∀ (i : Itf) (v : Word) (s : State), exec (.registerWrite i 0x00200074 v) s = exec (.fltSafeReqWrite i v) s)
  ∧ (∀ (i : Itf) (v : Word) (s : State), exec (.registerWrite i 0x00000038 v) s = exec (.loadData i v) s)
  ∧ (∀ (i : Itf) (v : Word) (s : State), exec (.registerWrite i 0x00100010 v) s = exec (.domReqWrite i v) s)
  ∧ (∀ (i : Itf) (ch : Chan) (v : Word) (s : State), exec (.registerWrite i (chanOff ch + 8) v) s = exec (.commitWrite i ch v) s)
  ∧ (∀ (i : Itf) (m : Fin 18) (v : Word) (s : State), exec (.registerWrite i (lanOff m.val) v) s = exec (.laneRestart i m v) s)
  ∧ (∀ (i : Itf) (m : Fin 18) (v : Word) (s : State), exec (.registerWrite i (lanOff m.val) v) s = exec (.laneLpEnter i m v) s)
  ∧ (∀ (i : Itf) (m : Fin 18) (v : Word) (s : State), exec (.registerWrite i (lanOff m.val) v) s = exec (.laneLpExit i m v) s)
  ∧ (∀ (i : Itf) (m : Fin 18) (v : Word) (s : State), exec (.registerWrite i (lanOff m.val) v) s = exec (.laneTestWrite i m v) s)
  ∧ (∀ (i : Itf) (m : Fin 18) (v : Word) (s : State), exec (.registerWrite i (lanOff m.val + 0x40) v) s = exec (.eyeGo i m v) s)
  ∧ (∀ (i : Itf) (m : Fin 18) (v : Word) (s : State), exec (.registerWrite i (lanOff m.val + 0x24) v) s = exec (.prbsInj i m v) s)
  ∧ (∀ (i : Itf) (p : Fin 16) (v : Word) (s : State), exec (.registerWrite i (macOff p.val + 0x90) v) s = exec (.rxTailWrite i p v) s)
  ∧ (∀ (i : Itf) (p : Fin 16) (v : Word) (s : State), exec (.registerWrite i (macOff p.val + 0x94) v) s = exec (.rxRingReset i p v) s)
  ∧ (∀ (i : Itf) (p : Fin 16) (v : Word) (s : State), exec (.registerWrite i (macOff p.val + 0xB0) v) s = exec (.txTailWrite i p v) s)
  ∧ (∀ (i : Itf) (p : Fin 16) (v : Word) (s : State), exec (.registerWrite i (macOff p.val + 0xB4) v) s = exec (.txRingReset i p v) s)
  ∧ (∀ (i : Itf) (n : Fin 8) (g : RefReg) (v : Word) (s : State),
        exec (.registerWrite i (refOff n.val + (refRegOff g).1) v) s = exec (.refinConfigWrite i n g v) s)
  ∧ (∀ (i : Itf) (n : Fin 4) (g : LoReg) (v : Word) (s : State),
        exec (.registerWrite i (loOff n.val + (loRegOff g).1) v) s = exec (.loConfigWrite i n g v) s)
  ∧ (∀ (i : Itf) (n : Fin 12) (v : Word) (s : State), exec (.registerWrite i (tiuOff (.p n)) v) s = exec (.tiuConfigWrite i n v) s)
  ∧ (∀ (i : Itf) (n : Fin 8) (v : Word) (s : State), exec (.registerWrite i (selOff n.val + 4) v) s = exec (.selPrefWrite i n v) s)
  ∧ (∀ (i : Itf) (n : Fin 64) (v : Word) (s : State), exec (.registerWrite i (spnSlot n.val) (v ||| 0x80000000)) s = exec (.slotArm i n v) s)
  ∧ (∀ (i : Itf) (n : Fin 64) (v : Word) (s : State), exec (.registerWrite i (spnSlot n.val) (v ||| 0x40000000)) s = exec (.slotCancel i n v) s)
  ∧ (∀ (i : Itf) (n : Fin 21) (b : Blk) (v : Word) (s : State), Blk.all[n.val]? = some b →
        exec (.registerWrite i b.irqOff v) s = exec (.irqStatWrite i n v) s)
  ∧ (∀ (i : Itf) (c : Fin 16) (s : State), exec (.registerWrite i (dmaOff c.val) 0x80000000) s = exec (.dmaEnable i c) s)
  ∧ (∀ (i : Itf) (c : Fin 16) (s : State), exec (.registerWrite i (dmaOff c.val) 0) s = exec (.dmaDisable i c) s)
  ∧ (∀ (i : Itf) (c : Fin 16) (s : State), exec (.registerWrite i (dmaOff c.val + 0x10) 1) s = exec (.dmaDoorbell i c) s)
  ∧ (∀ (i : Itf) (s : State), exec (.registerWrite i 0x02300100 0x10000000) s = exec (.lookup i) s)
  ∧ (∀ (i : Itf) (s : State), exec (.registerWrite i 0x02300100 0x20000000) s = exec (.create i) s)
  ∧ (∀ (i : Itf) (s : State), exec (.registerWrite i 0x02300100 0x30000000) s = exec (.provision i) s)
  ∧ (∀ (i : Itf) (s : State), exec (.registerWrite i 0x02300100 0x40000000) s = exec (.release i) s)
  ∧ (∀ (i : Itf) (s : State), exec (.registerWrite i 0x02300100 0x50000000) s = exec (.unpin i) s)
  ∧ (∀ (i : Itf) (k : BitVec 6) (s : State), exec (.registerWrite i 0x02400100 (BitVec.ofNat 32 (0x10000000 + k.toNat))) s = exec (.generate i k) s)
  ∧ (∀ (i : Itf) (k : BitVec 6) (s : State), exec (.registerWrite i 0x02400100 (BitVec.ofNat 32 (0x20000000 + k.toNat))) s = exec (.load i k) s)
  ∧ (∀ (i : Itf) (k : BitVec 6) (s : State), exec (.registerWrite i 0x02400100 (BitVec.ofNat 32 (0x30000000 + k.toNat))) s = exec (.erase i k) s)
  ∧ (∀ (i : Itf) (k : BitVec 6) (s : State), exec (.registerWrite i 0x02400100 (BitVec.ofNat 32 (0x40000000 + k.toNat))) s = exec (.attest i k) s)
  ∧ (∀ (i : Itf) (l : BitVec 4) (s : State),
        exec (.registerWrite i 0x02400100 (BitVec.ofNat 32 (0x50000000 + l.toNat * 256))) s = exec (.disarm i l) s)
  ∧ (∀ (i : Itf) (b : Bool) (s : State), exec (.registerWrite i 0x02400100 (if b then 0x60000040 else 0x60000000)) s = exec (.zeroise i b) s)
  ∧ (∀ (i : Itf) (s : State), exec (.registerWrite i 0x00000030 0x40000000) s = exec (.loadStart i) s)
  ∧ (∀ (i : Itf) (s : State), exec (.registerWrite i 0x00000030 0x80000000) s = exec (.loadGo i) s)
  ∧ (∀ (i : Itf) (v : Word) (s : State), exec (.registerWrite i 0x02203200 (v.setField 31 30 1)) s = exec (.keyLoad i v) s)
  ∧ (∀ (i : Itf) (v : Word) (s : State), exec (.registerWrite i 0x02203200 (v.setField 31 30 2)) s = exec (.keyDelete i v) s)
  ∧ (∀ (i : Itf) (w : Bool) (s : State), exec (.registerWrite i (if w then 0x00200038 else 0x00200030) 0x1000) s = exec (.recordClear i w) s)
  ∧ (∀ (i : Itf) (b : Bool) (s : State), exec (.registerWrite i 0x00000060 (if b then 0x0F000101 else 0x0F000001)) s = exec (.fuse i b) s)
  ∧ (∀ (i : Itf) (s : State), exec (.registerWrite i 0x00000060 0x0F000002) s = exec (.setRequire i) s)

/-- An access to an absent register completes without error, reads 0 or is discarded, and is recorded. A host write to a register of an element
that the structure does not create, or of a domain that is off, is discarded, and a read of it answers 0 without error; both send CFG/ABSENT
with severity 1 and the offset. Among such registers are those of a time base that is absent, of a TIU-P that is not routed, of a REFIN pin
that no TIU-P measures, of an output that is not mapped, and those of the domains that are off. A write to an offset that names no register
is a decode miss: MTX/DECODE with the offset. (01_architecture.md, R33.) -/
def Obligations.AbsentAccessAnswersZeroOrIsDiscarded : Prop :=
  (∀ (i : Itf) (off : Nat) (v : Word) (s : State), s.inv = true → s.hostOn = true → (s.running = true ∨ Blk.ofOff off = some .cfg) →
        (findReg off).isSome = true → s.absent off = true → s.ramping off = false → off ≠ 0x00200060 → s.fenceHolds i off = false →
        s.behind i off true = false →
      Nexts (exec (.absentAccess i off (some v)) s) fun t =>
        Flt.cfgAbsent.sev = 1
        ∧ t.sent Flt.cfgAbsent off
        ∧ t.b Blk.cfg.irqOff 3 = true
        ∧ t.readOf .pcie = s.readOf .pcie ∧ t.readOf .i2c = s.readOf .i2c
        ∧ OnlyRegs [Blk.cfg.irqOff] s t
        ∧ Frame [.regs, .faults, .pba, .tally, .out] s t)
  ∧ (∀ (i : Itf) (off : Nat) (s : State), s.inv = true → s.hostOn = true → (s.running = true ∨ Blk.ofOff off = some .cfg) → (findReg off).isSome = true →
        s.absent off = true → s.ramping off = false → s.behind i off false = false →
      Nexts (exec (.absentAccess i off none) s) fun t =>
        Flt.cfgAbsent.sev = 1
        ∧ t.sent Flt.cfgAbsent off
        ∧ t.b Blk.cfg.irqOff 3 = true
        ∧ t.readOf i = some { value := 0 }
        ∧ OnlyRegs [Blk.cfg.irqOff] s t
        ∧ Frame [.regs, .rdP, .rdI, .faults, .pba, .tally, .out] s t)
  ∧ (∀ (i : Itf) (off : Nat) (v : Word) (s : State), s.inv = true → s.hostOn = true → (s.running = true ∨ Blk.ofOff off = some .cfg) →
        findReg off = none → off < 2 ^ 26 →
      Nexts (exec (.decodeMiss i off (some v)) s) fun t =>
        t.sent Flt.mtxDecode ((if i = .pcie then 0 else 5) * 2 ^ 28 + off)
        ∧ t.b Blk.mtx.irqOff 0 = true
        ∧ t.rd64 0x00300030 = off
        ∧ OnlyRegs [0x00300030, 0x00300034, 0x00300038, Blk.mtx.irqOff] s t
        ∧ Frame [.regs, .faults, .pba, .out] s t)
  ∧ (∀ (n : Fin 8) (off : Nat) (s : State), s.tbPresent n.val = false → tbOff n.val ≤ off → off < tbOff n.val + 0x100 → s.absent off = true)
  ∧ (∀ (k : Fin 12) (off : Nat) (s : State), s.b 0x01200000 k.val = false → tiuOff (.p k) ≤ off → off < tiuOff (.p k) + 0x80 →
      s.absent off = true)
  ∧ (∀ (n : Fin 8) (off : Nat) (s : State), (∀ k : Fin 8, s.b 0x01200000 k.val = true → s.f (0x01201004 + k.val * 0x80) 3 0 ≠ n.val) →
      refOff n.val ≤ off → off < refOff n.val + 0x40 → s.absent off = true)
  ∧ (∀ (k : Fin 12) (off : Nat) (s : State), s.b 0x01700000 k.val = false → 0x01701000 + k.val * 0x40 ≤ off →
      off < 0x01701000 + k.val * 0x40 + 0x40 → s.absent off = true)
  ∧ (∀ (p : Blk × Nat) (off : Nat) (s : State), p ∈ [(Blk.syn, 3), (Blk.out, 3), (Blk.gns, 8), (Blk.mac, 7), (Blk.pkt, 5), (Blk.tnd, 9)] →
      s.domOn p.2 = false → Blk.ofOff off = some p.1 → off ≠ p.1.base → off ≠ p.1.irqOff → off ≠ p.1.irqOff + 4 → s.absent off = true)
  ∧ (∀ (m : Fin 18) (off : Nat) (s : State), s.domOn (if m.val < 16 then 7 else 9) = false →
      (lanOff m.val ≤ off ∧ off < lanOff m.val + 0x100) ∨ (tiuOff (.lane m) ≤ off ∧ off < tiuOff (.lane m) + 0x80) → s.absent off = true)
  ∧ (∀ (n : Fin 8) (off : Nat) (s : State), s.domOn 2 = false →
      (refOff n.val ≤ off ∧ off < refOff n.val + 0x40) ∨ (tiuOff (.p ⟨n.val, by omega⟩) ≤ off ∧ off < tiuOff (.p ⟨n.val, by omega⟩) + 0x80) →
      s.absent off = true)

/-- A BAR2 write outside scratch, or before READY, is discarded and reported. A BAR2 write that no fence holds, to an address outside the
scratch region or while CST_STAT.READY is 0, changes no byte of the Granary, sends CST/BAR2_WRITE with severity 1 and the address, and
completes without an error. (12_client_store.md, R330.) -/
def Obligations.Bar2WriteOutsideScratchIsDiscarded : Prop :=
  (∀ (addr : Word) (bytes : List Byte) (s : State), s.inv = true → s.fenceHolds .pcie 0x02300000 = false → s.bar2Behind = false →
        (s.cstReady = false ∨ inScratch addr.toNat bytes.length = false) →
      Nexts (exec (.bar2Write addr bytes) s) fun t =>
        Flt.cstBar2Write.sev = 1
        ∧ t.sent Flt.cstBar2Write addr.toNat
        ∧ t.b Blk.cst.irqOff 3 = true
        ∧ t.mem = s.mem
        ∧ t.readOf .pcie = s.readOf .pcie
        ∧ OnlyRegs [Blk.cst.irqOff] s t
        ∧ Frame [.regs, .faults, .pba, .out] s t)

/-- A read of PRF_CNTi_LO answers the low 32 bits and banks bits 47 to 32. A host read of PRF_CNTi_LO answers bits 31:0 of counter i, and copies
bits 47:32 of the same value into the bank of the interface that reads, at PRF_CNTi_HI. Where these commands rest on choices of the model,
log entry 63 names them. (16_host_interface_and_data_movement.md, R412.) -/
def Obligations.TallyCounterReadBanksItsHighBits : Prop :=
  (∀ (i : Itf) (k : Fin 256) (s : State), s.inv = true → s.reads i (0x00501000 + k.val * 8) = true → (k.val < 0xA3 ∨ 0xB3 < k.val ∨ k.val % 4 ≠ 3) →
      Nexts (exec (.prfCounterRead i k) s) fun t =>
        t.readOf i = some { value := BitVec.ofNat 64 ((s.regTally i false).tallyGet k.val % 2 ^ 32) }
        ∧ t.bankRd i (0x00501004 + k.val * 8) = BitVec.ofNat 32 ((s.regTally i false).tallyGet k.val / 2 ^ 32 % 2 ^ 16)
        ∧ Frame [.bankP, .bankI, .rdP, .rdI, .tally, .out] s t)
  ∧ (∀ (i : Itf) (m : Fin 5) (k : Fin 256) (s : State), s.inv = true → s.reads i (0x00501000 + k.val * 8) = true → k.val = 0xA3 + 4 * m.val →
      Nexts (exec (.prfCounterRead i k) s) fun t =>
        t.readOf i = some { value := BitVec.ofNat 64 ((s.regTally i false).heldCount.tallyGet k.val % 2 ^ 32) }
        ∧ t.bankRd i (0x00501004 + k.val * 8) = BitVec.ofNat 32 ((s.regTally i false).heldCount.tallyGet k.val / 2 ^ 32 % 2 ^ 16)
        ∧ Frame [.regs, .bankP, .bankI, .rdP, .rdI, .prf, .tally, .out, .free] s t)

/-- A domain request that is not legal is refused whole, with the first code that applies. A write to PWR_DOM_REQ while no request is in
progress that names a domain the image does not populate is refused with code 2; else one with a bit of PD0, PD1 or PD4 at 0 with code 3;
else one with a domain whose needed domain is not in the target with code 1. LAST_CODE holds the code, PWR/REFUSED is sent with severity 1,
and nothing else changes but the interrupt status. (18_power_electrical_and_package.md, R446.) -/
def Obligations.DomainRequestIsRefusedWithTheFirstCode : Prop :=
  (∀ (i : Itf) (v : Word) (s : State), s.inv = true → s.serves i 0x00100010 = true → s.domBusy = false →
        v.field 9 0 &&& s.f 0x00100000 9 0 ≠ v.field 9 0 →
      Nexts (exec (.domReqWrite i v) s) fun t =>
        Flt.pwrRefused.sev = 1
        ∧ t.f 0x00100014 27 24 = 2
        ∧ t.sent Flt.pwrRefused (2 * 2 ^ 28 + v.field 9 0)
        ∧ t.b Blk.pwr.irqOff 1 = true
        ∧ t.rd 0x00100010 = s.rd 0x00100010
        ∧ OnlyRegs [0x00100014, Blk.pwr.irqOff] s t
        ∧ Frame [.regs, .faults, .pba, .tally, .out] s t)
  ∧ (∀ (i : Itf) (v : Word) (s : State), s.inv = true → s.serves i 0x00100010 = true → s.domBusy = false →
        v.field 9 0 &&& s.f 0x00100000 9 0 = v.field 9 0 → v.field 9 0 &&& 0x13 ≠ 0x13 →
      Nexts (exec (.domReqWrite i v) s) fun t =>
        Flt.pwrRefused.sev = 1
        ∧ t.f 0x00100014 27 24 = 3
        ∧ t.sent Flt.pwrRefused (3 * 2 ^ 28 + v.field 9 0)
        ∧ t.b Blk.pwr.irqOff 1 = true
        ∧ t.rd 0x00100010 = s.rd 0x00100010
        ∧ OnlyRegs [0x00100014, Blk.pwr.irqOff] s t
        ∧ Frame [.regs, .faults, .pba, .tally, .out] s t)
  ∧ (∀ (i : Itf) (v : Word) (s : State), s.inv = true → s.serves i 0x00100010 = true → s.domBusy = false →
        v.field 9 0 &&& s.f 0x00100000 9 0 = v.field 9 0 → v.field 9 0 &&& 0x13 = 0x13 → [(5, 6), (5, 7), (8, 2), (9, 2), (9,
        3)].any (fun p => (v.field 9 0).testBit p.1 && !(v.field 9 0).testBit p.2) = true →
      Nexts (exec (.domReqWrite i v) s) fun t =>
        Flt.pwrRefused.sev = 1
        ∧ t.f 0x00100014 27 24 = 1
        ∧ t.sent Flt.pwrRefused (1 * 2 ^ 28 + v.field 9 0)
        ∧ t.b Blk.pwr.irqOff 1 = true
        ∧ t.rd 0x00100010 = s.rd 0x00100010
        ∧ OnlyRegs [0x00100014, Blk.pwr.irqOff] s t
        ∧ Frame [.regs, .faults, .pba, .tally, .out] s t)

/-- Each block occupies the 1 MiB at its base, and an access between the blocks is a decode miss. An offset belongs to a block exactly where it
lies in the 1 MiB from the base that the table gives the block. The three ranges between the blocks belong to none, name no register, and an
access there in RUN, while the host interfaces work, sends MTX/DECODE with the offset. (19_register_map.md, R461;
16_host_interface_and_data_movement.md, R393.) -/
def Obligations.BlocksLieAtTheirBases : Prop :=
  (∀ p ∈ [(Blk.cfg, 0x00000000), (Blk.pwr, 0x00100000), (Blk.flt, 0x00200000), (Blk.mtx, 0x00300000), (Blk.dma, 0x00400000),
      (Blk.prf, 0x00500000), (Blk.spn, 0x01000000), (Blk.ref, 0x01100000), (Blk.tiu, 0x01200000), (Blk.sel, 0x01300000),
      (Blk.ens, 0x01400000), (Blk.bnd, 0x01500000), (Blk.syn, 0x01600000), (Blk.out, 0x01700000), (Blk.gns, 0x01800000),
      (Blk.lan, 0x02000000), (Blk.mac, 0x02100000), (Blk.pkt, 0x02200000), (Blk.cst, 0x02300000), (Blk.key, 0x02400000),
      (Blk.tnd, 0x02500000)],
      ∀ off : Nat, Blk.ofOff off = some p.1 ↔ p.2 ≤ off ∧ off < p.2 + 0x100000)
  ∧ (∀ off : Nat, (0x00600000 ≤ off ∧ off < 0x01000000) ∨ (0x01900000 ≤ off ∧ off < 0x02000000) ∨ (0x02600000 ≤ off ∧ off < 0x04000000) →
      Blk.ofOff off = none ∧ findReg off = none
      ∧ ∀ (i : Itf) (w : Option Word) (s : State), s.inv = true → s.hostOn = true → s.running = true →
        Nexts (exec (.decodeMiss i off w) s) fun t => t.sent Flt.mtxDecode ((if i = .pcie then 0 else 5) * 2 ^ 28 + off))

/-- A host write to a register of MTX, SYN or OUT that has no effect of its own follows the access codes. A REGISTER_WRITE that reaches a
register of MTX, SYN or OUT which is neither an interrupt register nor shadowed nor a COMMIT register sets its RW fields to the word
written, clears its W1C bits and sets its W1S bits where 1 is written, keeps the rest, and changes no other register. (00_scope.md, R14.) -/
def Obligations.PlainWriteFollowsAccessCodes : Prop :=
  (∀ (i : Itf) (a : Nat) (v : Word) (d : RegDesc) (b : Blk) (s : State), s.inv = true → s.serves i a = true → findReg a = some d →
        Blk.ofOff a = some b → (b = .mtx ∨ b = .syn ∨ b = .out) → (∀ b ∈ Blk.all, a ≠ b.irqOff ∧ a ≠ b.irqOff + 4) → shMask a = 0 →
        (∀ ch ∈ allChans, chanOff ch + 8 ≠ a) →
      Nexts (exec (.registerWrite i a v) s) fun t =>
        t.rd a = (((s.rd a &&& ~~~(BitVec.ofNat 32 d.rw)) ||| (v &&& BitVec.ofNat 32 d.rw)) &&& ~~~(v &&& BitVec.ofNat 32 d.w1c)) ||| (v &&& BitVec.ofNat 32 d.w1s)
        ∧ OnlyRegs [a] s t
        ∧ Frame [.regs, .tally] s t)

/-- A host write to a shadowed register lands in its shadow alone, or waits while its channel copies. A REGISTER_WRITE that reaches a shadowed
register while no copy of its channel runs puts the SH bits of the word into the shadow, sets the pending flag and leaves every value in
force; while a copy of its channel runs it changes no register and joins the writes the channel holds. Where these commands rest on choices
of the model, log entry 37 names them. (00_scope.md, R17; 02_time_spine_and_time_bases.md, R74; 02_time_spine_and_time_bases.md, R75.) -/
def Obligations.ShadowWriteWaitsForItsCommit : Prop :=
  (∀ (i : Itf) (a : Nat) (v : Word) (s : State), s.inv = true → s.serves i a = true → shMask a ≠ 0 → (∀ b ∈ Blk.all, a ≠ b.irqOff ∧ a ≠ b.irqOff + 4) →
        s.copying a = none →
      Nexts (exec (.registerWrite i a v) s) fun t =>
        t.rd a = (s.rd a &&& ~~~(shMask a)) ||| (v &&& shMask a)
        ∧ (∃ k, k ≠ 0 ∧ mapGet (fun _ => 0) t.pendSh a = k)
        ∧ OnlyRegs [a] s t
        ∧ Frame [.regs, .pendSh, .shStamp, .tally] s t)
  ∧ (∀ (i : Itf) (a : Nat) (v : Word) (ch : Chan) (s : State), s.inv = true → s.serves i a = true → shMask a ≠ 0 → (∀ b ∈ Blk.all, a ≠ b.irqOff
        ∧ a ≠ b.irqOff + 4) → s.copying a = some ch →
      Nexts (exec (.registerWrite i a v) s) fun t =>
        (t.chan ch).held = (s.chan ch).held ++ [⟨i, a, (s.rd a &&& ~~~(shMask a)) ||| (v &&& shMask a), none, false, false, none⟩]
        ∧ Frame [.chans, .tally] s t)

/-- An access at an offset without a register, or of a size that is not valid, is refused and reported. An access at an offset that names no
register is discarded or aborted with MTX/DECODE and MTX_ERR; an access of a size that is not valid is discarded or aborted with
MTX/BAD_ACCESS. No other register changes. Where these commands rest on choices of the model, log entry 6 names them.
(16_host_interface_and_data_movement.md, R392; 16_host_interface_and_data_movement.md, R393; 16_host_interface_and_data_movement.md, R402.) -/
def Obligations.UnmappedAndBadAccessesAreReported : Prop :=
  (∀ (i : Itf) (off : Nat) (v : Word) (s : State), s.inv = true → s.hostOn = true → (s.running = true ∨ Blk.ofOff off = some .cfg) →
        findReg off = none → off < 2 ^ 26 →
      Nexts (exec (.decodeMiss i off (some v)) s) fun t =>
        t.sent Flt.mtxDecode ((if i = .pcie then 0 else 5) * 2 ^ 28 + off)
        ∧ t.b Blk.mtx.irqOff 0 = true
        ∧ t.rd64 0x00300030 = off
        ∧ OnlyRegs [0x00300030, 0x00300034, 0x00300038, Blk.mtx.irqOff] s t
        ∧ Frame [.regs, .faults, .pba, .out] s t)
  ∧ (∀ (off : Nat) (s : State), s.inv = true → s.hostOn = true → (s.running = true ∨ Blk.ofOff off = some .cfg) → findReg off = none → off < 2 ^ 26 →
      Nexts (exec (.decodeMiss .pcie off none) s) fun t =>
        t.sent Flt.mtxDecode off
        ∧ t.readOf .pcie = some { aborted := true }
        ∧ OnlyRegs [0x00300030, 0x00300034, 0x00300038, Blk.mtx.irqOff] s t
        ∧ Frame [.regs, .rdP, .faults, .pba, .out] s t)
  ∧ (∀ (bar4 : Bool) (addr : Nat) (s : State), s.inv = true → s.hostOn = true → s.running = true → addr < 2 ^ 28 →
      Nexts (exec (.badAccess bar4 addr false) s) fun t =>
        t.sent Flt.mtxBadAccess addr
        ∧ t.b Blk.mtx.irqOff 1 = true
        ∧ t.readOf .pcie = some { aborted := true }
        ∧ OnlyRegs [Blk.mtx.irqOff] s t
        ∧ Frame [.regs, .rdP, .faults, .pba, .out] s t)
  ∧ (∀ (bar4 : Bool) (addr : Nat) (s : State), s.inv = true → s.hostOn = true → s.running = true → addr < 2 ^ 28 →
      Nexts (exec (.badAccess bar4 addr true) s) fun t =>
        t.sent Flt.mtxBadAccess addr
        ∧ OnlyRegs [Blk.mtx.irqOff] s t
        ∧ Frame [.regs, .faults, .pba, .out] s t)

/-- A fence opens, holds the later writes of its interface to its blocks, warns after 1 ms, and completes. In RUN a write to CFG_FENCE that is
served opens a fence of its interface with the tag and mask written, from this tick, and sets the BUSY bit of the interface. A write of the
interface to a register of a masked block is then held: nothing changes but the held writes and Tally. A fence of which no earlier write
waits, with no message waiting at the collector, its pairs agreeing and no access held, completes: it is closed, SEQ counts, TAG is the tag,
and the entry that the log gains is a message CFG/FENCE of severity 0 whose context word holds the tag and the number. A fence that has been
open for 1 ms sends CFG/FENCE_SLOW with its mask once and stays open; a second warning of the same fence does nothing. Where these commands
rest on choices of the model, log entries 2, 5 name them. (01_architecture.md, R42; 01_architecture.md, R44; 01_architecture.md, R46.) -/
def Obligations.FenceOpensHoldsAndCompletes : Prop :=
  (∀ (i : Itf) (v : Word) (s : State), s.inv = true → s.serves i 0x00000100 = true → s.running = true →
      Nexts (exec (.fenceOpen i v) s) fun t =>
        t.fence i = some ⟨v.field 31 24, v.field 20 0, s.spn.ticks, false⟩
        ∧ t.b 0x00000104 (if i = .pcie then 0 else 1) = true
        ∧ OnlyRegs [0x00000104] s t
        ∧ Frame [.regs, .fenceP, .fenceI, .tally] s t)
  ∧ (∀ (i : Itf) (a : Nat) (v : Word) (s : State), s.inv = true → s.hostOn = true → (findReg a).isSome = true → a ≠ 0x00200060 → s.running = true →
        s.fenceHolds i a = true →
      Nexts (exec (.registerWrite i a v) s) fun t =>
        t.heldBy i = s.heldBy i ++ [⟨i, a, v, none, false, true, none⟩]
        ∧ Frame [.heldP, .heldI, .tally] s t)
  ∧ (∀ (i : Itf) (f : Fence) (s : State), s.inv = true → s.running = true → s.fence i = some f → s.fenceWaits i f.mask = false → s.faults = [] →
        s.flt.split = [] → s.heldP = [] → s.heldI = [] → s.maskedBits.testBit Blk.cfg.bit = false →
      Nexts (exec (.fenceComplete i) s) fun t =>
        t.fence i = none
        ∧ t.f 0x00000104 31 16 = (s.f 0x00000104 31 16 + 1) % 2 ^ 16
        ∧ t.f 0x00000104 15 8 = f.tag % 2 ^ 8
        ∧ t.b 0x00000104 (if i = .pcie then 0 else 1) = false
        ∧ (mapGet noEntry t.flt.log ((s.rd 0x00200040).toNat % 1024)).1.field 31 14 = Flt.cfgFence.src * 2 ^ 10 + Flt.cfgFence.kind * 4
        ∧ (mapGet noEntry t.flt.log ((s.rd 0x00200040).toNat % 1024)).2.1 = BitVec.ofNat 32 (f.tag * 2 ^ 24 + (s.f 0x00000104 31 16 + 1) % 65536)
        ∧ Frame [.regs, .fenceP, .fenceI, .flt, .trace, .faults, .pba, .tally, .mem, .out] s t
        ∧ OnlyRing s t)
  ∧ (∀ (i : Itf) (f : Fence) (s : State), s.inv = true → s.fence i = some f → f.slow = false → f.since + 2000000 ≤ s.spn.ticks →
      Nexts (exec (.fenceSlow i) s) fun t =>
        t.fence i = some { f with slow := true }
        ∧ t.sent Flt.cfgFenceSlow f.mask
        ∧ t.b Blk.cfg.irqOff 4 = true
        ∧ OnlyRegs [Blk.cfg.irqOff, 0x00000104] s t
        ∧ Frame [.regs, .fenceP, .fenceI, .faults, .pba, .out] s t)
  ∧ (∀ (i : Itf) (f : Fence) (s : State), s.inv = true → s.fence i = some f → (f.slow = true ∨ s.spn.ticks < f.since + 2000000) →
      Nexts (exec (.fenceSlow i) s) fun t =>
        t = s)

/-- A snapshot request begins a capture or is held, and a capture completes. A served snapshot request begins a capture of the bases in its mask
where none is in progress on the interface, and is held where one is. A capture whose tick has passed completes where no access of the
handshake waits: SEQ of the interface counts, no read of the interface is held any longer, SNAP_DONE is raised, and the oldest held request
of the interface begins its own capture. Where these commands rest on choices of the model, log entry 5 names them.
(02_time_spine_and_time_bases.md, R64; 02_time_spine_and_time_bases.md, R65.) -/
def Obligations.SnapshotCaptures : Prop :=
  (∀ (i : Itf) (v : Word) (s : State), s.inv = true → s.serves i 0x01000020 = true → s.snapOf i = none →
      Nexts (exec (.snapReq i v) s) fun t =>
        t.snapOf i = some (v.field 7 0, false)
        ∧ Frame [.spn, .tally] s t)
  ∧ (∀ (i : Itf) (v : Word) (c : Nat × Bool) (s : State), s.inv = true → s.serves i 0x01000020 = true → s.snapOf i = some c →
      Nexts (exec (.snapReq i v) s) fun t =>
        t.snapOf i = some c
        ∧ t.spn.snapHeld = s.spn.snapHeld ++ [⟨i, 0x01000020, BitVec.ofNat 32 (v.field 7 0), none, false, false, none⟩]
        ∧ Frame [.spn, .tally] s t)
  ∧ (∀ (i : Itf) (m : Nat) (s : State), s.inv = true → s.snapOf i = some (m, true) → (∀ h ∈ s.spn.snapHeld, h.itf ≠ i) → s.heldP = [] → s.heldI = [] →
      Nexts (exec (.snapDone i) s) fun t =>
        t.snapOf i = none
        ∧ (t.bankRd i 0x01000024).field 31 16 = ((s.bankRd i 0x01000024).field 31 16 + 1) % 2 ^ 16
        ∧ t.b Blk.spn.irqOff 5 = true
        ∧ (∀ r ∈ t.spn.snapRd, r.1 ≠ i)
        ∧ OnlyRegs [Blk.spn.irqOff] s t
        ∧ Frame [.regs, .bankP, .bankI, .rdP, .rdI, .spn, .pba, .out] s t)
  ∧ (∀ (i : Itf) (m : Nat) (h : HeldWrite) (r : List HeldWrite) (s : State), s.inv = true → s.snapOf i = some (m, true) →
        s.spn.snapHeld.filter (fun h => h.itf = i) = h :: r → s.heldP = [] → s.heldI = [] →
      Nexts (exec (.snapDone i) s) fun t =>
        t.snapOf i = some (h.v.field 7 0, false)
        ∧ (t.bankRd i 0x01000024).field 31 16 = ((s.bankRd i 0x01000024).field 31 16 + 1) % 2 ^ 16
        ∧ t.b Blk.spn.irqOff 5 = true
        ∧ OnlyRegs [Blk.spn.irqOff] s t
        ∧ Frame [.regs, .bankP, .bankI, .rdP, .rdI, .spn, .pba, .out] s t)

/-- The spine takes the carrier the ensemble names, ramps to it and locks to it. CARRIER_NAMED names a member that has stood first for 60 s, and
where another carrier in use is healthy and none is forced, a ramp of COMP from its present value to that of the named member starts.
CARRIER_RAMP_END, 100 ms after a ramp began whose member is named and healthy with no member forced, puts that member in use with the end
value of COMP, clears SWITCHING and counts in SWITCHES. SYNS_LOCK, while SYNS is not locked and a carrier is wanted, puts it in use with its
COMP and ends the DCO hold. A served write of SPN_SPINE_CTL sets its fields. Where these commands rest on choices of the model, log entries
5, 21 name them. (02_time_spine_and_time_bases.md, R48; 02_time_spine_and_time_bases.md, R49; 02_time_spine_and_time_bases.md, R50;
02_time_spine_and_time_bases.md, R51; 02_time_spine_and_time_bases.md, R52; 05_ensemble_servo_and_holdover.md, R144.) -/
def Obligations.CarrierFollowsTheEnsemble : Prop :=
  (∀ (m : Fin 4) (s : State), s.inv = true → s.stoodFirst m.val = true → s.named ≠ some m.val →
      Nexts (exec (.carrierNamed m) s) fun t =>
        t.named = some m.val
        ∧ Frame [.regs, .spn, .ens, .tnd, .cst, .trace, .faults, .pba, .tally, .mem, .out, .free] s t
        ∧ OnlyRing s t)
  ∧ (∀ (m : Fin 4) (cur : Nat) (s : State), s.inv = true → s.stoodFirst m.val = true → s.named ≠ some m.val → s.carrier = some cur → cur ≠ m.val →
        s.carOk cur = true → s.b 0x01000010 4 = false → s.b spineStat 6 = false →
      Nexts (exec (.carrierNamed m) s) fun t =>
        t.named = some m.val
        ∧ t.spn.ramp = some { fromComp := s.compNow, toComp := s.compFor m.val }
        ∧ t.ens.rampTo = m.val
        ∧ Frame [.regs, .spn, .ens, .tnd, .cst, .trace, .faults, .pba, .tally, .mem, .out, .free] s t
        ∧ OnlyRing s t)
  ∧ (∀ (r : Ramp) (s : State), s.inv = true → s.spn.ramp = some r → 200000000 ≤ r.ticks → s.b spineStat 5 = true → s.named = some s.ens.rampTo →
        s.carOk s.ens.rampTo = true → s.b 0x01000010 4 = false →
      Nexts (exec (.carrierRampEnd) s) fun t =>
        t.spn.ramp = none
        ∧ t.spn.comp = r.toComp
        ∧ t.carrier = some s.ens.rampTo
        ∧ t.b spineStat 6 = false
        ∧ t.f spineStat 31 16 = (s.f spineStat 31 16 + 1) % 2 ^ 16
        ∧ Frame [.regs, .spn, .ens, .tnd, .cst, .trace, .faults, .pba, .tally, .mem, .out, .free] s t
        ∧ OnlyRing s t)
  ∧ (∀ (x : Nat) (s : State), s.inv = true → s.b spineStat 5 = false → s.wanted = some x →
      Nexts (exec (.synsLock) s) fun t =>
        t.carrier = some x
        ∧ t.spn.comp = s.compFor x
        ∧ t.spn.hold = false
        ∧ t.b spineStat 7 = false
        ∧ Frame [.regs, .spn, .ens, .tnd, .cst, .trace, .faults, .pba, .tally, .mem, .out, .free] s t
        ∧ OnlyRing s t)
  ∧ (∀ (i : Itf) (v : Word) (s : State), s.inv = true → s.serves i 0x01000010 = true →
      Nexts (exec (.spineForceWrite i v) s) fun t =>
        t.rd 0x01000010 = v &&& 0x13
        ∧ Frame [.regs, .spn, .ens, .tnd, .cst, .trace, .faults, .pba, .tally, .mem, .out, .free] s t
        ∧ OnlyRing s t)

/-- A slot arms when its checks pass, is refused otherwise, is cancelled, fires and ends. A served arming write to an idle slot whose checks
pass arms it with COUNT 0; one whose check fails is refused with the reason; a write to an armed slot that does not cancel is refused with
reason 1; CANCEL makes it idle. A slot that is due, with no lower slot due, that is not late and skipped nothing, fires: COUNT counts, and
after a single occurrence it is idle with DONE, after the last of several it is idle; its FIRED action sets its bit and the interrupt. The
end of pulses on an EVT pin leaves those whose WIDTH has not run out, and ACTIVE while any runs; before the end of the first of them nothing
happens. Where these commands rest on choices of the model, log entries 5, 40 name them. (02_time_spine_and_time_bases.md, R80;
02_time_spine_and_time_bases.md, R81; 02_time_spine_and_time_bases.md, R82; 02_time_spine_and_time_bases.md, R83;
02_time_spine_and_time_bases.md, R84.) -/
def Obligations.SchedulerSlots : Prop :=
  (∀ (i : Itf) (k : Fin 64) (v : Word) (s : State), s.inv = true → s.serves i (spnSlot k.val) = true → (s.slot k.val).armed = false →
        (s.wr (spnSlot k.val) ((v ||| 0x80000000) &&& 0x271F0007)).slotCheck k.val = none →
      Nexts (exec (.slotArm i k v) s) fun t =>
        (t.slot k.val).armed = true
        ∧ (t.slot k.val).occ = 0
        ∧ t.b (spnSlot k.val) 31 = true
        ∧ t.f (spnSlot k.val + 0x1C) 31 16 = 0
        ∧ OnlyRegs [spnSlot k.val, spnSlot k.val + 0x1C] s t
        ∧ Frame [.regs, .spn, .tally] s t)
  ∧ (∀ (i : Itf) (k : Fin 64) (v : Word) (r : Nat) (s : State), s.inv = true → s.serves i (spnSlot k.val) = true → (s.slot k.val).armed = false →
        (s.wr (spnSlot k.val) ((v ||| 0x80000000) &&& 0x271F0007)).slotCheck k.val = some r →
      Nexts (exec (.slotArm i k v) s) fun t =>
        t.sent Flt.spnSlotRefused (k.val * 2 ^ 26 + r)
        ∧ (t.slot k.val).armed = false
        ∧ OnlyRegs [spnSlot k.val] s t
        ∧ Frame [.regs, .faults, .tally] s t)
  ∧ (∀ (i : Itf) (k : Fin 64) (v : Word) (s : State), s.inv = true → s.serves i (spnSlot k.val) = true → (s.slot k.val).armed = true → v.bit 30 = false →
      Nexts (exec (.slotArm i k v) s) fun t =>
        t.sent Flt.spnSlotRefused (k.val * 2 ^ 26 + 1)
        ∧ Frame [.faults, .tally] s t)
  ∧ (∀ (i : Itf) (k : Fin 64) (v : Word) (s : State), s.inv = true → s.serves i (spnSlot k.val) = true → (s.slot k.val).armed = true →
      Nexts (exec (.slotCancel i k v) s) fun t =>
        (t.slot k.val).armed = false
        ∧ t.b (spnSlot k.val) 31 = false
        ∧ OnlyRegs [spnSlot k.val] s t
        ∧ Frame [.regs, .spn, .tally] s t)
  ∧ (∀ (k : Fin 64) (s : State), s.inv = true → (s.slot k.val).armed = true → s.slotDue k.val = true → (∀ j, j < k.val → s.slotDue j = false) →
        (s.slot k.val).skip = none → (s.slot k.val).late = false → s.f (spnSlot k.val) 20 16 = 0 →
      Nexts (exec (.slotFire k) s) fun t =>
        t.f (spnSlot k.val + 0x1C) 31 16 = (s.f (spnSlot k.val + 0x1C) 31 16 + 1) % 2 ^ 16
        ∧ t.slot k.val = (if s.rd (spnSlot k.val + 0x10) = 0 ∨ ((s.rd (spnSlot k.val + 0x18)).toNat ≠ 0
        ∧ (s.rd (spnSlot k.val + 0x18)).toNat ≤ (s.slot k.val).occ + 1) then {} else { s.slot k.val with occ := (s.slot k.val).occ + 1 })
        ∧ (s.rd (spnSlot k.val + 0x10) = 0 → t.b (spnSlot k.val + 0x1C) 0 = true ∧ t.b (spnSlot k.val) 31 = false)
        ∧ OnlyRegs [spnSlot k.val, spnSlot k.val + 0x1C] s t
        ∧ Frame [.regs, .spn] s t)
  ∧ (∀ (k : Fin 64) (s : State), s.inv = true → (s.slot k.val).armed = true → s.slotDue k.val = true → (∀ j, j < k.val → s.slotDue j = false) →
        (s.slot k.val).skip = none → (s.slot k.val).late = false → s.f (spnSlot k.val) 20 16 = 2 →
      Nexts (exec (.slotFire k) s) fun t =>
        t.b (0x01000038 + k.val / 32 * 4) (k.val % 32) = true
        ∧ t.b Blk.spn.irqOff 2 = true
        ∧ OnlyRegs [spnSlot k.val, spnSlot k.val + 0x1C, 0x01000038 + k.val / 32 * 4, Blk.spn.irqOff] s t
        ∧ Frame [.regs, .spn, .pba, .out] s t)
  ∧ (∀ (p : Fin 8) (s : State), s.inv = true → (s.spn.evtOn.getD p.val []).any (fun x => decide (x.1 ≤ ((s.spn.ticks * nominalInc : Nat) : Int))) = true →
      Nexts (exec (.evtPulseEnd p) s) fun t =>
        t.spn.evtOn.getD p.val [] = (s.spn.evtOn.getD p.val []).filter (fun x => !decide (x.1 ≤ ((s.spn.ticks * nominalInc : Nat) : Int)))
        ∧ t.b 0x01000040 p.val = !(t.spn.evtOn.getD p.val []).isEmpty
        ∧ OnlyRegs [0x01000040] s t
        ∧ Frame [.regs, .spn] s t)
  ∧ (∀ (p : Fin 8) (s : State), s.inv = true → (∀ x ∈ s.spn.evtOn.getD p.val [], ¬ x.1 ≤ ((s.spn.ticks * nominalInc : Nat) : Int)) →
      Nexts (exec (.evtPulseEnd p) s) fun t =>
        t = s)

/-- A commit copies, is checked whole, locks and goes live at its boundary. A served COMMIT write stages the pending values of its channel, or
is held while a copy of the channel runs. With no access held, the check of a staged set refuses it with its code in LAST_CODE and leaves
what is armed, or arms it where no set was armed. An armed set with a boundary is fixed once its base is 2.0 µs before its target. An armed
set whose base has reached its target goes live: LAST_CODE is APPLIED and APPLIED counts; on every channel but a synthesizer, a PPS output
and a ToD channel that sends a message its values are those in force and its pending flags clear; a synthesizer clears RAMP_EN. On a ToD
channel that sends, the set is due and nothing is in force until the last stop bit is out, and then its values are. Where these commands
rest on choices of the model, log entries 5, 37, 41, 52 name them. (02_time_spine_and_time_bases.md, R74; 02_time_spine_and_time_bases.md,
R75; 02_time_spine_and_time_bases.md, R76; 02_time_spine_and_time_bases.md, R77; 02_time_spine_and_time_bases.md, R78;
02_time_spine_and_time_bases.md, R79; 07_synthesis_and_outputs.md, R204.) -/
def Obligations.CommitsCopyCheckAndGoLive : Prop :=
  (∀ (i : Itf) (ch : Chan) (v : Word) (s : State), s.inv = true → s.serves i (chanOff ch + 8) = true → (s.chan ch).staging = none →
      Nexts (exec (.commitWrite i ch v) s) fun t =>
        (t.chan ch).staging = some { boundary := v.field 1 0, vals := s.pendingOf ch }
        ∧ t.f (chanOff ch + 0x0C) 1 0 = 1
        ∧ OnlyRegs [chanOff ch + 0x0C] s t
        ∧ Frame [.regs, .chans, .tally] s t)
  ∧ (∀ (i : Itf) (ch : Chan) (v : Word) (s : State), s.inv = true → s.serves i (chanOff ch + 8) = true → (s.chan ch).staging.isSome = true →
      Nexts (exec (.commitWrite i ch v) s) fun t =>
        (t.chan ch).held = (s.chan ch).held ++ [⟨i, chanOff ch + 8, v, none, false, false, none⟩]
        ∧ (t.chan ch).staging = (s.chan ch).staging
        ∧ Frame [.chans, .tally] s t)
  ∧ (∀ (ch : Chan) (c : CommitSet) (code : Nat) (s : State), s.inv = true → (s.chan ch).staging = some c → (s.chan ch).held = [] → s.heldP = [] →
        s.heldI = [] → (s.modChan ch (fun x => { x with staging := none, held := [] })).commitCode ch c.boundary c.vals = some code →
      Nexts (exec (.commitCheck ch) s) fun t =>
        (t.chan ch).staging = none
        ∧ (t.chan ch).armed = (s.chan ch).armed
        ∧ t.f (chanOff ch + 0x0C) 11 8 = code % 16
        ∧ Frame [.regs, .chans, .faults, .pba, .out] s t)
  ∧ (∀ (ch : Chan) (c : CommitSet) (s : State), s.inv = true → (s.chan ch).staging = some c → (s.chan ch).held = [] → s.heldP = [] → s.heldI = [] →
        (s.modChan ch (fun x => { x with staging := none, held := [] })).commitCode ch c.boundary c.vals = none → (s.chan ch).armed = none →
      Nexts (exec (.commitCheck ch) s) fun t =>
        (t.chan ch).staging = none
        ∧ (t.chan ch).armed.map (fun a => (a.boundary, a.vals)) = some (c.boundary, c.vals)
        ∧ t.f (chanOff ch + 0x0C) 11 8 = 1
        ∧ OnlyRegs [chanOff ch + 0x0C] s t
        ∧ Frame [.regs, .chans] s t)
  ∧ (∀ (ch : Chan) (c : CommitSet) (s : State), s.inv = true → (s.chan ch).armed = some c → c.boundary ≠ 0 →
        c.target ≤ s.tbTime (s.chanTb ch) + lockLead →
      Nexts (exec (.lockPoint ch) s) fun t =>
        (t.chan ch).armed = some { c with fixed := true }
        ∧ Frame [.chans] s t)
  ∧ (∀ (ch : Chan) (c : CommitSet) (s : State), s.inv = true → (s.chan ch).armed = some c → (c.boundary = 0 ∨ c.target ≤ s.tbTime (s.chanTb ch)) →
        (∀ k : Fin 4, ch ≠ .syn k ∧ ch ≠ .pps k) → (∀ k : Fin 2, ch = .tod k → s.b (todOff k.val + 4) 0 = false) →
      Nexts (exec (.commitLive ch) s) fun t =>
        t.live = (s.putLive c.vals).live
        ∧ t.f (chanOff ch + 0x0C) 11 8 = 2
        ∧ t.f (chanOff ch + 0x0C) 31 16 = (s.f (chanOff ch + 0x0C) 31 16 + 1) % 2 ^ 16
        ∧ (∀ p ∈ t.pendSh, ∀ v ∈ c.vals, ¬(v.1 = p.1 ∧ v.2.2 = p.2))
        ∧ Frame [.regs, .live, .pendSh, .chans, .spn, .tiuP, .tiuL, .syns, .outs, .pps, .tod, .ens, .tnd, .mac, .cst, .trace, .faults, .pba, .tally,
        .mem, .out, .free] s t
        ∧ OnlyRing s t)
  ∧ (∀ (k : Fin 4) (c : CommitSet) (s : State), s.inv = true → (s.chan (.syn k)).armed = some c →
        (c.boundary = 0 ∨ c.target ≤ s.tbTime (s.chanTb (.syn k))) →
      Nexts (exec (.commitLive (.syn k)) s) fun t =>
        t.f (chanOff (.syn k) + 0x0C) 11 8 = 2
        ∧ t.f (chanOff (.syn k) + 0x0C) 31 16 = (s.f (chanOff (.syn k) + 0x0C) 31 16 + 1) % 2 ^ 16
        ∧ t.lb (synOff k.val) 1 = false
        ∧ (∀ p ∈ t.pendSh, ∀ v ∈ c.vals, ¬(v.1 = p.1 ∧ v.2.2 = p.2))
        ∧ Frame [.regs, .live, .pendSh, .chans, .spn, .tiuP, .tiuL, .syns, .outs, .pps, .tod, .ens, .tnd, .mac, .cst, .trace, .faults, .pba, .tally,
        .mem, .out, .free] s t
        ∧ OnlyRing s t)
  ∧ (∀ (k : Fin 4) (c : CommitSet) (s : State), s.inv = true → (s.chan (.pps k)).armed = some c →
        (c.boundary = 0 ∨ c.target ≤ s.tbTime (s.chanTb (.pps k))) →
      Nexts (exec (.commitLive (.pps k)) s) fun t =>
        t.f (chanOff (.pps k) + 0x0C) 11 8 = 2
        ∧ t.f (chanOff (.pps k) + 0x0C) 31 16 = (s.f (chanOff (.pps k) + 0x0C) 31 16 + 1) % 2 ^ 16
        ∧ Frame [.regs, .live, .pendSh, .chans, .spn, .tiuP, .tiuL, .syns, .outs, .pps, .tod, .ens, .tnd, .mac, .cst, .trace, .faults, .pba, .tally,
        .mem, .out, .free] s t
        ∧ OnlyRing s t)
  ∧ (∀ (k : Fin 2) (c : CommitSet) (s : State), s.inv = true → (s.chan (.tod k)).armed = some c →
        (c.boundary = 0 ∨ c.target ≤ s.tbTime (s.chanTb (.tod k))) → s.b (todOff k.val + 4) 0 = true →
      Nexts (exec (.commitLive (.tod k)) s) fun t =>
        (t.chan (.tod k)).due = some c
        ∧ t.live = s.live
        ∧ t.pendSh = s.pendSh
        ∧ Frame [.regs, .live, .pendSh, .chans, .spn, .tiuP, .tiuL, .syns, .outs, .pps, .tod, .ens, .tnd, .mac, .cst, .trace, .faults, .pba, .tally,
        .mem, .out, .free] s t
        ∧ OnlyRing s t)
  ∧ (∀ (k : Fin 2) (s : State), s.inv = true → s.b (todOff k.val + 4) 0 = true →
        ((s.tod.getD k.val {}).ends ≤ s.tbTime (s.chanTb (.tod k)) ∨ (s.base (s.chanTb (.tod k))).steps ≠ (s.tod.getD k.val {}).steps) →
        (s.chan (.tod k)).due = none →
      Nexts (exec (.todMessageEnd k) s) fun t =>
        t.b (todOff k.val + 4) 0 = false
        ∧ OnlyRegs [todOff k.val + 4] s t
        ∧ Frame [.regs] s t)
  ∧ (∀ (k : Fin 2) (c : CommitSet) (s : State), s.inv = true → s.b (todOff k.val + 4) 0 = true →
        ((s.tod.getD k.val {}).ends ≤ s.tbTime (s.chanTb (.tod k)) ∨ (s.base (s.chanTb (.tod k))).steps ≠ (s.tod.getD k.val {}).steps) →
        (s.chan (.tod k)).due = some c →
      Nexts (exec (.todMessageEnd k) s) fun t =>
        t.b (todOff k.val + 4) 0 = false
        ∧ t.live = (s.putLive c.vals).live
        ∧ (t.chan (.tod k)).due = none
        ∧ Frame [.regs, .live, .pendSh, .chans, .spn, .tiuP, .tiuL, .syns, .outs, .pps, .tod, .ens, .tnd, .mac, .cst, .trace, .faults, .pba, .tally,
        .mem, .out, .free] s t
        ∧ OnlyRing s t)

/-- A leap is applied to an OFFSET-type base, at once or over a smear window. When the master of an OFFSET-type base with a scheduled leap has
reached LEAP_AT, LEAP_OFS in force changes by one second in the direction DIR gives, SPN/LEAP_APPLIED is sent, and outside a smear window
DIR in force returns to 0, while a window that has been entered by then opens first and keeps it; the smear window opens at its start and
closes at its end with DIR 0. Where these commands rest on choices of the model, log entries 5, 52 name them.
(02_time_spine_and_time_bases.md, R67; 02_time_spine_and_time_bases.md, R70; 02_time_spine_and_time_bases.md, R71;
02_time_spine_and_time_bases.md, R72.) -/
def Obligations.LeapSecondsApply : Prop :=
  (∀ (n : Fin 8) (s : State), s.inv = true → s.tbOffsetYoked n.val = true → (s.leapDir n.val = 1 ∨ s.leapDir n.val = 3) →
        (s.base n.val).leapDone = false → s.leapAt n.val ≤ s.tbSec (s.tbMaster n.val) → (s.base n.val).smearing = false →
        (s.smearWaits n.val && decide (s.smearStart2 n.val * (secU / 2) ≤ s.tbTime (s.tbMaster n.val))) = false →
      Nexts (exec (.leapApplied n) s) fun t =>
        t.leapOfs n.val = signedOf 16 (wrapTo 16 (s.leapOfs n.val + leapSign (s.leapDir n.val)))
        ∧ t.leapDir n.val = 0
        ∧ t.sent Flt.spnLeapApplied (n.val * 2 ^ 28 + s.leapDir n.val)
        ∧ t.b Blk.spn.irqOff 4 = true
        ∧ OnlyRegs [Blk.spn.irqOff] s t
        ∧ Frame [.regs, .live, .chans, .spn, .syns, .outs, .pps, .tod, .faults, .pba, .out] s t)
  ∧ (∀ (n : Fin 8) (s : State), s.inv = true → s.tbOffsetYoked n.val = true → (s.leapDir n.val = 1 ∨ s.leapDir n.val = 3) →
        (s.base n.val).leapDone = false → s.leapAt n.val ≤ s.tbSec (s.tbMaster n.val) → (s.base n.val).smearing = true →
      Nexts (exec (.leapApplied n) s) fun t =>
        t.leapOfs n.val = signedOf 16 (wrapTo 16 (s.leapOfs n.val + leapSign (s.leapDir n.val)))
        ∧ t.leapDir n.val = s.leapDir n.val
        ∧ (t.base n.val).leapDone = true
        ∧ OnlyRegs [Blk.spn.irqOff] s t
        ∧ Frame [.regs, .live, .spn, .faults, .pba, .out] s t)
  ∧ (∀ (n : Fin 8) (s : State), s.inv = true → s.tbOffsetYoked n.val = true → (s.leapDir n.val = 1 ∨ s.leapDir n.val = 3) →
        (s.base n.val).leapDone = false → s.leapAt n.val ≤ s.tbSec (s.tbMaster n.val) →
        (s.smearWaits n.val && decide (s.smearStart2 n.val * (secU / 2) ≤ s.tbTime (s.tbMaster n.val))) = true →
      Nexts (exec (.leapApplied n) s) fun t =>
        t.leapOfs n.val = signedOf 16 (wrapTo 16 (s.leapOfs n.val + leapSign (s.leapDir n.val)))
        ∧ t.leapDir n.val = s.leapDir n.val
        ∧ (t.base n.val).smearing = true
        ∧ (t.base n.val).leapDone = true
        ∧ OnlyRegs [Blk.spn.irqOff] s t
        ∧ Frame [.regs, .live, .spn, .faults, .pba, .out] s t)
  ∧ (∀ (n : Fin 8) (s : State), s.inv = true → s.tbOffsetYoked n.val = true → s.lb (tbOff n.val + 0x6C) 31 = true → s.leapDir n.val ≠ 0 →
        (s.base n.val).smearing = false → (2 * s.leapAt n.val - (if s.lb (tbOff n.val + 0x6C) 30 then 1 else 2) * s.smearW n.val) * (secU / 2) ≤ s.tbTime (s.tbMaster n.val) →
        n.val < s.spn.bases.length →
      Nexts (exec (.smearWindowStart n) s) fun t =>
        (t.base n.val).smearing = true
        ∧ (t.base n.val).leapDone = false
        ∧ Frame [.spn] s t)
  ∧ (∀ (n : Fin 8) (s : State), s.inv = true → (s.base n.val).smearing = true → (s.base n.val).leapDone = true →
        (s.base n.val).winStart * (secU / 2) + s.smearW n.val * secU ≤ s.tbTime (s.tbMaster n.val) →
      Nexts (exec (.smearWindowEnd n) s) fun t =>
        (t.base n.val).smearing = false
        ∧ t.leapDir n.val = 0
        ∧ Frame [.live, .spn] s t)

/-- A write to a REFIN or LO register is checked with the rest of its input and applied or discarded. A REFIN or LO setting that leaves the
input outside its ranges is discarded with REF/CFG_BAD and CFG_BAD of the input; one that keeps it in range is stored and CFG_BAD clears; a
change of a measuring setting sets LOS and raises REF/LOS when the bit sets, and ELIG of an LO follows its frequency. Where these commands
rest on choices of the model, log entry 23 names them. (03_reference_inputs_and_interval_measurement.md, R87;
03_reference_inputs_and_interval_measurement.md, R91; 03_reference_inputs_and_interval_measurement.md, R92;
03_reference_inputs_and_interval_measurement.md, R93.) -/
def Obligations.InputSettingsAreCheckedWhole : Prop :=
  (∀ (i : Itf) (n : Fin 8) (reg : RefReg) (v : Word) (s : State), s.inv = true → s.serves i (refOff n.val + (refRegOff reg).1) = true →
        (s.wr (refOff n.val + (refRegOff reg).1) (v &&& (refRegOff reg).2)).refinOk n = false →
      Nexts (exec (.refinConfigWrite i n reg v) s) fun t =>
        t.sent Flt.refCfgBad ((refOff n.val + (refRegOff reg).1) % 65536 * 65536 + n.val)
        ∧ t.b (refOff n.val + 0x10) 3 = true
        ∧ OnlyRegs [refOff n.val + 0x10] s t
        ∧ Frame [.regs, .faults, .tally] s t)
  ∧ (∀ (i : Itf) (n : Fin 8) (reg : RefReg) (v : Word) (s : State), s.inv = true → s.serves i (refOff n.val + (refRegOff reg).1) = true →
        (s.wr (refOff n.val + (refRegOff reg).1) (v &&& (refRegOff reg).2)).refinOk n = true →
        (s.wr (refOff n.val + (refRegOff reg).1) (v &&& (refRegOff reg).2)).refinKey n.val ≠ s.refinKey n.val →
      Nexts (exec (.refinConfigWrite i n reg v) s) fun t =>
        t.rd (refOff n.val + (refRegOff reg).1) = v &&& (refRegOff reg).2
        ∧ t.b (refOff n.val + 0x10) 3 = false
        ∧ t.b (refOff n.val + 0x10) 1 = true
        ∧ t.b (refOff n.val + 0x10) 0 = false
        ∧ (s.b (refOff n.val + 0x10) 1 = false → t.sent Flt.refLos n.val)
        ∧ Frame [.regs, .spn, .monitors, .tiuP, .tiuL, .pps, .ens, .tnd, .cst, .trace, .faults, .pba, .tally, .mem, .out, .free] s t
        ∧ OnlyRing s t)
  ∧ (∀ (i : Itf) (n : Fin 8) (reg : RefReg) (v : Word) (s : State), s.inv = true → s.serves i (refOff n.val + (refRegOff reg).1) = true →
        (s.wr (refOff n.val + (refRegOff reg).1) (v &&& (refRegOff reg).2)).refinOk n = true →
        (s.wr (refOff n.val + (refRegOff reg).1) (v &&& (refRegOff reg).2)).refinKey n.val = s.refinKey n.val →
      Nexts (exec (.refinConfigWrite i n reg v) s) fun t =>
        t.rd (refOff n.val + (refRegOff reg).1) = v &&& (refRegOff reg).2
        ∧ t.b (refOff n.val + 0x10) 3 = false
        ∧ OnlyRegs [refOff n.val + (refRegOff reg).1, refOff n.val + 0x10] s t
        ∧ Frame [.regs, .tally] s t)
  ∧ (∀ (i : Itf) (m : Fin 4) (reg : LoReg) (v : Word) (s : State), s.inv = true → s.serves i (loOff m.val + (loRegOff reg).1) = true →
        (s.wr (loOff m.val + (loRegOff reg).1) (v &&& (loRegOff reg).2)).loOk m = false →
      Nexts (exec (.loConfigWrite i m reg v) s) fun t =>
        t.sent Flt.refCfgBad ((loOff m.val + (loRegOff reg).1) % 65536 * 65536 + 256 + m.val)
        ∧ t.b (loOff m.val + 8) 3 = true
        ∧ OnlyRegs [loOff m.val + 8] s t
        ∧ Frame [.regs, .faults, .tally] s t)
  ∧ (∀ (i : Itf) (m : Fin 4) (reg : LoReg) (v : Word) (s : State), s.inv = true → s.serves i (loOff m.val + (loRegOff reg).1) = true →
        (s.wr (loOff m.val + (loRegOff reg).1) (v &&& (loRegOff reg).2)).loOk m = true →
      Nexts (exec (.loConfigWrite i m reg v) s) fun t =>
        t.rd (loOff m.val + (loRegOff reg).1) = v &&& (loRegOff reg).2
        ∧ t.b (loOff m.val + 8) 3 = false
        ∧ t.b (loOff m.val + 8) 5 = eligibleFreq ((s.wr (loOff m.val + (loRegOff reg).1) (v &&& (loRegOff reg).2)).f (loOff m.val + 4) 27 0)
        ∧ Frame [.regs, .spn, .monitors, .tiuP, .tiuL, .pps, .ens, .tnd, .cst, .trace, .faults, .pba, .tally, .mem, .out, .free] s t
        ∧ OnlyRing s t)

/-- Divided edges, their absence and alarms drive LOS, GROSS and ALARM of the inputs. The first edge of a run only starts it; correct edges
count and after CLR_CNT of them LOS and GROSS clear; an edge too far from its nominal spacing sets GROSS; no edge for LOS_LIM nominal
periods, LOS_LIM as the last edge found it, sets LOS, and before that nothing; an alarm of an LO observed for 1 ms sets ALARM and one that
has gone clears it; diode samples reach the registers and the member cycle, a bad diode sets TEMP_FAIL; a die sample reaches REF_DIE_TEMP,
PWR_DIE_MAX is then no lower, and at the alarm level it sends PWR/THERMAL. Where these commands rest on choices of the model, log entries 5,
28, 43 name them. (03_reference_inputs_and_interval_measurement.md, R89; 03_reference_inputs_and_interval_measurement.md, R94;
03_reference_inputs_and_interval_measurement.md, R96; 18_power_electrical_and_package.md, R450.) -/
def Obligations.EdgesDriveTheInputMonitors : Prop :=
  (∀ (src : EdgeSrc) (spacing : Nat) (s : State), s.inv = true → s.srcEn src = true → s.srcOn src = true → (s.monitor src).seen = false →
      Nexts (exec (.dividedEdge src spacing) s) fun t =>
        (t.monitor src).seen = true
        ∧ (t.monitor src).good = 0
        ∧ (t.monitor src).lim = some (s.losLim src)
        ∧ t.srcLos src = s.srcLos src
        ∧ Frame [.regs, .monitors] s t)
  ∧ (∀ (src : EdgeSrc) (spacing : Nat) (s : State), s.inv = true → s.srcEn src = true → s.srcOn src = true → (s.monitor src).seen = true →
        grossSpacing (s.fDiv src) spacing = false → s.srcLos src = false → s.srcGross src = false →
      Nexts (exec (.dividedEdge src spacing) s) fun t =>
        (t.monitor src).good = (s.monitor src).good + 1
        ∧ Frame [.regs, .monitors] s t)
  ∧ (∀ (src : EdgeSrc) (spacing : Nat) (s : State), s.inv = true → s.srcEn src = true → s.srcOn src = true → (s.monitor src).seen = true →
        grossSpacing (s.fDiv src) spacing = false → (s.srcLos src = true ∨ s.srcGross src = true) → s.clrCnt src ≤ (s.monitor src).good + 1 →
      Nexts (exec (.dividedEdge src spacing) s) fun t =>
        t.srcLos src = false
        ∧ t.srcGross src = false
        ∧ Frame [.regs, .spn, .monitors, .tiuP, .tiuL, .pps, .ens, .tnd, .cst, .trace, .faults, .pba, .tally, .mem, .out, .free] s t
        ∧ OnlyRing s t)
  ∧ (∀ (src : EdgeSrc) (spacing : Nat) (s : State), s.inv = true → s.srcEn src = true → s.srcOn src = true → (s.monitor src).seen = true →
        grossSpacing (s.fDiv src) spacing = true →
      Nexts (exec (.dividedEdge src spacing) s) fun t =>
        t.srcGross src = true
        ∧ (t.monitor src).good = 0
        ∧ Frame [.regs, .spn, .monitors, .tiuP, .tiuL, .pps, .ens, .tnd, .cst, .trace, .faults, .pba, .tally, .mem, .out, .free] s t
        ∧ OnlyRing s t)
  ∧ (∀ (src : EdgeSrc) (s : State), s.inv = true →
        (s.monitor src).lim.getD (s.losLim src) * 2000000000 ≤ (s.spn.ticks - (s.monitor src).at_) * s.fDiv src →
      Nexts (exec (.los src) s) fun t =>
        t.srcLos src = true
        ∧ (t.monitor src).seen = false
        ∧ Frame [.regs, .spn, .monitors, .tiuP, .tiuL, .pps, .ens, .tnd, .cst, .trace, .faults, .pba, .tally, .mem, .out, .free] s t
        ∧ OnlyRing s t)
  ∧ (∀ (src : EdgeSrc) (s : State), s.inv = true →
        (s.spn.ticks - (s.monitor src).at_) * s.fDiv src < (s.monitor src).lim.getD (s.losLim src) * 2000000000 →
      Nexts (exec (.los src) s) fun t =>
        t = s)
  ∧ (∀ (m : Fin 4) (s : State), s.inv = true → s.b (loOff m.val) 7 = true → s.running = true → s.b (loOff m.val + 8) 4 = false →
        (s.monitor (.lo m)).almFrom + 2000000 ≤ s.spn.ticks →
      Nexts (exec (.loAlarmSet m) s) fun t =>
        t.b (loOff m.val + 8) 4 = true
        ∧ t.b (loOff m.val + 8) 0 = false
        ∧ Frame [.regs, .spn, .tiuP, .tiuL, .pps, .ens, .tnd, .cst, .trace, .faults, .pba, .tally, .mem, .out, .free] s t
        ∧ OnlyRing s t)
  ∧ (∀ (m : Fin 4) (s : State), s.inv = true → s.b (loOff m.val + 8) 4 = true →
      Nexts (exec (.loAlarmClear m) s) fun t =>
        t.b (loOff m.val + 8) 4 = false
        ∧ Frame [.regs, .spn, .ens, .tnd, .cst, .trace, .faults, .pba, .tally, .mem, .out, .free] s t
        ∧ OnlyRing s t)
  ∧ (∀ (t0 t1 t2 t3 : BitVec 16) (s : State), s.inv = true → s.f 0x01100000 11 8 = 15 →
      Nexts (exec (.loTempSample (some t0) (some t1) (some t2) (some t3)) s) fun t =>
        t.f (loOff 0 + 0x0C) 15 0 = t0.toNat
        ∧ t.f (loOff 1 + 0x0C) 15 0 = t1.toNat
        ∧ t.f (loOff 2 + 0x0C) 15 0 = t2.toNat
        ∧ t.f (loOff 3 + 0x0C) 15 0 = t3.toNat
        ∧ (t.member 2).tempSum = (s.member 2).tempSum + signedOf 16 t2.toNat
        ∧ (t.member 2).tempCnt = (s.member 2).tempCnt + 1
        ∧ OnlyRegs [loOff 0 + 0x0C, loOff 0 + 8, loOff 1 + 0x0C, loOff 1 + 8, loOff 2 + 0x0C, loOff 2 + 8, loOff 3 + 0x0C, loOff 3 + 8] s t
        ∧ Frame [.regs, .ens] s t)
  ∧ (∀ (t1 t2 t3 : BitVec 16) (s : State), s.inv = true → s.f 0x01100000 11 8 = 15 → s.b (loOff 0 + 8) 6 = false →
      Nexts (exec (.loTempSample none (some t1) (some t2) (some t3)) s) fun t =>
        t.b (loOff 0 + 8) 6 = true
        ∧ t.f (loOff 0 + 0x0C) 15 0 = s.f (loOff 0 + 0x0C) 15 0
        ∧ t.sent Flt.refTempFail 0
        ∧ Frame [.regs, .ens, .faults] s t)
  ∧ (∀ (v : BitVec 16) (s : State), s.inv = true →
      Nexts (exec (.dieTempSample v) s) fun t =>
        t.f 0x01100020 15 0 = v.toNat
        ∧ (signedOf 16 v.toNat ≤ signedOf 16 (t.f 0x00100044 15 0))
        ∧ OnlyRegs [0x01100020, 0x00100044, 0x01200014, Blk.pwr.irqOff] s t
        ∧ Frame [.regs, .tiuP, .tiuL, .pwr, .faults, .pba, .out] s t)
  ∧ (∀ (v : BitVec 16) (s : State), s.inv = true → signedOf 16 (s.f 0x00100040 15 0) ≤ signedOf 16 v.toNat → s.pwr.hot = false →
      Nexts (exec (.dieTempSample v) s) fun t =>
        t.pwr.hot = true
        ∧ t.sent Flt.pwrThermal v.toNat
        ∧ t.b Blk.pwr.irqOff 3 = true
        ∧ Frame [.regs, .tiuP, .tiuL, .pwr, .faults, .pba, .out] s t)

/-- Events of a TIU-P are latched, converted and form samples; runts and settings act on the unit. A start event at least 20 ns after the last
is latched where the unit measures, a closer one counts as a runt and sets GROSS of its source; a conversion that ends turns the oldest
latched event into an event time in every base; a control word is stored or discarded by the checks of the unit. Where these commands rest
on choices of the model, log entries 5, 23, 43, 54 name them. (03_reference_inputs_and_interval_measurement.md, R97;
03_reference_inputs_and_interval_measurement.md, R98; 03_reference_inputs_and_interval_measurement.md, R107;
03_reference_inputs_and_interval_measurement.md, R109; 03_reference_inputs_and_interval_measurement.md, R110;
03_reference_inputs_and_interval_measurement.md, R111.) -/
def Obligations.IntervalUnitsMeasure : Prop :=
  (∀ (k : Fin 12) (spacing : Nat) (x : EdgeSrc) (s : State), s.inv = true → s.unitSrc k = some x → s.unitOn k = true → 20000 ≤ spacing →
        s.b (tiuOff (.p k)) 31 = true → s.srcFailed x = false → (s.unit (.p k)).ready = true → (s.unit (.p k)).fails < 3 →
        (s.unit (.p k)).events % 2 ^ s.f (tiuOff (.p k)) 23 20 = 0 →
      Nexts (exec (.tiuEvent k spacing) s) fun t =>
        (t.unit (.p k)).converting = (s.unit (.p k)).converting ++ [s.latch (.p k)]
        ∧ (t.unit (.p k)).events = (s.unit (.p k)).events + 1
        ∧ Frame [.tiuP] s t)
  ∧ (∀ (k : Fin 12) (spacing : Nat) (x : EdgeSrc) (s : State), s.inv = true → s.unitSrc k = some x → s.unitOn k = true → spacing < 20000 →
      Nexts (exec (.tiuEvent k spacing) s) fun t =>
        t.srcGross x = true
        ∧ t.f (tiuOff (.p k) + 0x48) 15 0 = min (s.f (tiuOff (.p k) + 0x48) 15 0 + 1) 65535
        ∧ Frame [.regs, .spn, .monitors, .tiuP, .tiuL, .pps, .ens, .tnd, .cst, .trace, .faults, .pba, .tally, .mem, .out, .free] s t
        ∧ OnlyRing s t)
  ∧ (∀ (k : Fin 12) (code : BitVec 12) (c : Capture) (rest : List Capture) (x : EdgeSrc) (s : State), s.inv = true →
        (s.unit (.p k)).converting = c :: rest → s.unitSrc k = some x → s.unitOn k = true → s.fDiv x ≠ 0 →
      Nexts (exec (.tiuConversionDone k code) s) fun t =>
        (t.unit (.p k)).converting = rest
        ∧ (t.unit (.p k)).lastE = some (s.captureTimes c (s.srcDelay x) (s.unit (.p k)).sum500 (s.unit (.p k)).sum1000 ((s.unit (.p k)).corrected code.toNat)).1
        ∧ Frame [.regs, .live, .chans, .tiuP, .tiuL, .pps, .ens, .tnd, .faults, .pba, .out] s t)
  ∧ (∀ (i : Itf) (k : Fin 12) (v : Word) (s : State), s.inv = true → 8 ≤ k.val → s.serves i (tiuOff (.p k)) = true →
        s.tiuOk k ((s.rd (tiuOff (.p k)) &&& ~~~0x8FF0FFFF) ||| (v &&& 0x8FF0FFFF)) = true →
      Nexts (exec (.tiuConfigWrite i k v) s) fun t =>
        t.rd (tiuOff (.p k)) = (s.rd (tiuOff (.p k)) &&& ~~~0x8FF0FFFF) ||| (v &&& 0x8FF0FFFF)
        ∧ t.b (tiuOff (.p k) + 8) 2 = false
        ∧ Frame [.regs, .tiuP, .tiuL, .pps, .faults, .pba, .tally, .out] s t)
  ∧ (∀ (i : Itf) (k : Fin 12) (v : Word) (s : State), s.inv = true → k.val < 8 → s.unitSrc k ≠ some .vanePps → s.serves i (tiuOff (.p k)) = true →
        s.tiuOk k ((s.rd (tiuOff (.p k)) &&& ~~~0xFFF0FFFF) ||| (v &&& 0xFFF0FFFF)) = true →
      Nexts (exec (.tiuConfigWrite i k v) s) fun t =>
        t.rd (tiuOff (.p k)) = (s.rd (tiuOff (.p k)) &&& ~~~0xFFF0FFFF) ||| (v &&& 0xFFF0FFFF)
        ∧ t.b (tiuOff (.p k) + 8) 2 = false
        ∧ Frame [.regs, .tiuP, .tiuL, .pps, .faults, .pba, .tally, .out] s t)
  ∧ (∀ (i : Itf) (k : Fin 12) (v : Word) (s : State), s.inv = true → v.field 15 0 = 0 → k.val < 8 → s.unitSrc k ≠ some .vanePps →
        s.serves i (tiuOff (.p k)) = true →
      Nexts (exec (.tiuConfigWrite i k v) s) fun t =>
        t.sent Flt.tiuCfgBad k.val
        ∧ t.b (tiuOff (.p k) + 8) 2 = true
        ∧ OnlyRegs [tiuOff (.p k) + 8] s t
        ∧ Frame [.regs, .faults, .tally] s t)

/-- Calibration runs start by their triggers, end with coefficients or a failure, and are retried. The density test of a routed unit before its
first run, with a first gain and offset run within limits, makes it ready with the corrections and sums given. A run whose gain and means
are within limits puts its sums in force; one whose gain is out of limits keeps the sums, counts a failure and asks for a retry. PERIOD
milliseconds after the last run, the NOW bit, and 10 ms after a failed run a retry, each start a run of a routed unit whose domain is on and
whose first run has ended. An event of a locked lane unit leaves its time in the base of the port with the P of that base, or enters the
block of FREQ. A lane unit whose trim fails sets CAL_FAIL, sends LANE_CAL_FAIL and forms its unwrap state anew; a trim within its window
reports its two periods and clears CAL_FAIL. Where these commands rest on choices of the model, log entries 5, 23, 43 name them.
(03_reference_inputs_and_interval_measurement.md, R99; 03_reference_inputs_and_interval_measurement.md, R100;
03_reference_inputs_and_interval_measurement.md, R102; 03_reference_inputs_and_interval_measurement.md, R103;
03_reference_inputs_and_interval_measurement.md, R105; 03_reference_inputs_and_interval_measurement.md, R106.) -/
def Obligations.IntervalUnitsCalibrate : Prop :=
  (∀ (k : Fin 12) (nl : List Int) (sum500 sum1000 : Nat) (s : State), s.inv = true → (s.unit (.p k)).ready = false → (s.unit (.p k)).calFrom = none →
        s.unitOn k = true → calGainOk sum500 sum1000 = true → (s.unit (.p k)).again = false →
      Nexts (exec (.tiuDensityTest k nl sum500 sum1000) s) fun t =>
        (t.unit (.p k)).ready = true
        ∧ (t.unit (.p k)).nl = nl
        ∧ (t.unit (.p k)).sum500 = sum500
        ∧ (t.unit (.p k)).sum1000 = sum1000
        ∧ t.b 0x01200014 k.val = false
        ∧ Frame [.regs, .spn, .tiuP, .tiuL, .pps, .ens, .tnd, .cst, .trace, .faults, .pba, .tally, .mem, .out, .free] s t
        ∧ OnlyRing s t)
  ∧ (∀ (k : Fin 12) (sum500 sum1000 : Nat) (s : State), s.inv = true → s.b 0x01200014 k.val = true → s.unitOn k = true →
        calGainOk sum500 sum1000 = true → ((s.unit (.p k)).ready = false ∨ (calMeanOk (s.unit (.p k)).sum500 (s.unit (.p k)).sum1000 sum500 (s.unit (.p k)).sum500 && calMeanOk (s.unit (.p k)).sum500 (s.unit (.p k)).sum1000 sum1000 (s.unit (.p k)).sum1000) = true) →
        (s.unit (.p k)).again = false →
      Nexts (exec (.tiuCalEnd k sum500 sum1000) s) fun t =>
        (t.unit (.p k)).ready = true
        ∧ (t.unit (.p k)).sum500 = sum500
        ∧ (t.unit (.p k)).sum1000 = sum1000
        ∧ (t.unit (.p k)).fails = 0
        ∧ t.b 0x01200014 k.val = false
        ∧ t.b (tiuOff (.p k) + 8) 4 = false
        ∧ Frame [.regs, .spn, .tiuP, .tiuL, .pps, .ens, .tnd, .cst, .trace, .faults, .pba, .tally, .mem, .out, .free] s t
        ∧ OnlyRing s t)
  ∧ (∀ (k : Fin 12) (sum500 sum1000 : Nat) (s : State), s.inv = true → s.b 0x01200014 k.val = true → s.unitOn k = true →
        calGainOk sum500 sum1000 = false → (s.unit (.p k)).again = false →
      Nexts (exec (.tiuCalEnd k sum500 sum1000) s) fun t =>
        (t.unit (.p k)).fails = (s.unit (.p k)).fails + 1
        ∧ (t.unit (.p k)).retry = some s.spn.ticks
        ∧ (t.unit (.p k)).sum500 = (s.unit (.p k)).sum500
        ∧ t.b 0x01200014 k.val = false
        ∧ t.b (tiuOff (.p k) + 8) 4 = true
        ∧ Frame [.regs, .spn, .tiuP, .tiuL, .pps, .ens, .tnd, .cst, .trace, .faults, .pba, .tally, .mem, .out, .free] s t
        ∧ OnlyRing s t)
  ∧ (∀ (k : Fin 12) (s : State), s.inv = true → s.f 0x01200010 15 0 ≠ 0 → s.msPassed (s.unit (.p k)).calFrom (s.f 0x01200010 15 0) = true →
        s.unitOn k = true →
      Nexts (exec (.tiuCalPeriod k) s) fun t =>
        t.b 0x01200014 k.val = true
        ∧ OnlyRegs [0x01200014] s t
        ∧ Frame [.regs, .tiuP] s t)
  ∧ (∀ (i : Itf) (v : Word) (k : Fin 12) (s : State), s.inv = true → s.serves i 0x01200010 = true → v.bit 31 = true →
        (s.unit (.p k)).calFrom.isSome = true → s.unitOn k = true →
      Nexts (exec (.tiuCalNow i v) s) fun t =>
        t.rd 0x01200010 = v &&& 0x00FFFFFF
        ∧ t.b 0x01200014 k.val = true
        ∧ OnlyRegs [0x01200010, 0x01200014] s t
        ∧ Frame [.regs, .tiuP, .tally] s t)
  ∧ (∀ (k : Fin 12) (s : State), s.inv = true → s.msPassed (s.unit (.p k)).retry 10 = true → (s.unit (.p k)).calFrom.isSome = true → s.unitOn k = true →
      Nexts (exec (.tiuCalRetry k) s) fun t =>
        (t.unit (.p k)).retry = none
        ∧ t.b 0x01200014 k.val = true
        ∧ OnlyRegs [0x01200014] s t
        ∧ Frame [.regs, .tiuP] s t)
  ∧ (∀ (m : Fin 18) (steps : Nat) (s : State), s.inv = true → s.b (tiuOff (.lane m) + 8) 4 = false → s.f (lanOff m.val + 4) 31 28 = 5 →
      Nexts (exec (.laneUnitEvent m .tx steps) s) fun t =>
        (t.unit (.lane m)).stampTx.t = ((s.tbTime (s.laneBase m.val) : Int) - steps * s.laneStep m * 2 ^ 16).toNat
        ∧ (t.unit (.lane m)).stampTx.p = (s.rd (bndOff (s.laneBase m.val))).toNat
        ∧ Frame [.tiuL] s t)
  ∧ (∀ (m : Fin 18) (steps : Nat) (s : State), s.inv = true → s.b (tiuOff (.lane m) + 8) 4 = false → s.f (lanOff m.val + 4) 31 28 = 5 →
      Nexts (exec (.laneUnitEvent m .rx steps) s) fun t =>
        (t.unit (.lane m)).stampRx.t = ((s.tbTime (s.laneBase m.val) : Int) - steps * s.laneStep m * 2 ^ 16).toNat
        ∧ (t.unit (.lane m)).stampRx.p = (s.rd (bndOff (s.laneBase m.val))).toNat
        ∧ Frame [.tiuL, .mac] s t)
  ∧ (∀ (m : Fin 18) (steps : Nat) (s : State), s.inv = true → s.b (tiuOff (.lane m) + 8) 4 = false → s.f (lanOff m.val + 4) 31 28 = 5 →
        s.b (tiuOff (.lane m)) 31 = true →
      Nexts (exec (.laneUnitEvent m .freq steps) s) fun t =>
        ((t.unit (.lane m)).cnt = (s.unit (.lane m)).cnt + 1 ∨ (t.unit (.lane m)).cnt = 1 ∨ (t.unit (.lane m)).results = (s.unit (.lane m)).results + 1)
        ∧ (t.unit (.lane m)).lastE.isSome = true
        ∧ Frame [.regs, .tiuL, .ens, .pba, .out] s t)
  ∧ (∀ (m : Fin 18) (s : State), s.inv = true → s.b (tiuOff (.lane m) + 8) 4 = false →
      Nexts (exec (.laneCalFail m) s) fun t =>
        t.b (tiuOff (.lane m) + 8) 4 = true
        ∧ t.sent Flt.laneUnitLaneCalFail m.val
        ∧ (t.unit (.lane m)).restart = true
        ∧ OnlyRegs [tiuOff (.lane m) + 8] s t
        ∧ Frame [.regs, .tiuL, .faults] s t)
  ∧ (∀ (m : Fin 18) (slow fast : Word) (s : State), s.inv = true → s.b (tiuOff (.lane m) + 8) 4 = true → trimOk slow.toNat fast.toNat = true →
      Nexts (exec (.laneTrimDone m slow fast) s) fun t =>
        t.b (tiuOff (.lane m) + 8) 4 = false
        ∧ t.rd (tiuOff (.lane m) + 0x40) = slow
        ∧ t.rd (tiuOff (.lane m) + 0x44) = fast
        ∧ OnlyRegs [tiuOff (.lane m) + 8, tiuOff (.lane m) + 0x40, tiuOff (.lane m) + 0x44] s t
        ∧ Frame [.regs, .tiuL] s t)

/-- The monitor tick, source reports and quality inputs move the candidates. A monitor tick of a second whose ensemble cycle has run counts,
ages the ESMC information of every port and fails an enabled candidate whose source has failed; before that cycle it waits for it, and in a
second that has had its tick nothing happens. A source report fails such a candidate with cause 1 and makes a candidate without a measuring
unit UNAVAIL with cause 2. A quality input reaches QIN, QL and UEFF. A served write of a selector's control word is stored where HOLD names
nothing or a member of the selector that is not 30, is refused with SEL/CFG_BAD where it names 30, and is ignored on a yoked base. Where
these commands rest on choices of the model, log entries 5, 9, 36, 44, 54 name them. (04_reference_qualification_and_selection.md, R119;
04_reference_qualification_and_selection.md, R120; 04_reference_qualification_and_selection.md, R122;
04_reference_qualification_and_selection.md, R126; 04_reference_qualification_and_selection.md, R127;
04_reference_qualification_and_selection.md, R130; 04_reference_qualification_and_selection.md, R134.) -/
def Obligations.CandidatesQualifyAndFail : Prop :=
  (∀ (s : State), s.inv = true → s.cycleDone = true → s.ens.tickSec ≠ some (s.tbSec 0) →
      Nexts (exec (.monitorTick) s) fun t =>
        t.rd 0x0130002C = s.rd 0x0130002C + 1
        ∧ (∀ p : Fin 16, t.f (macOff p.val + 0x44) 23 16 = min (s.f (macOff p.val + 0x44) 23 16 + 1) 255)
        ∧ Frame [.regs, .spn, .ens, .tnd, .cst, .trace, .faults, .pba, .tally, .mem, .out, .free] s t
        ∧ OnlyRing s t)
  ∧ (∀ (c : Fin 30) (s : State), s.inv = true → s.cycleDone = true → s.ens.tickSec ≠ some (s.tbSec 0) → s.b (candOff c.val) 31 = true →
        s.b 0x01300000 c.val = true → 3 ≤ s.candState c.val → s.candUnavail c.val = false → s.candSrcFail c.val = true →
      Nexts (exec (.monitorTick) s) fun t =>
        t.candState c.val = cFAILED
        ∧ t.f (cStat c.val) 15 12 = 1
        ∧ Frame [.regs, .spn, .ens, .tnd, .cst, .trace, .faults, .pba, .tally, .mem, .out, .free] s t
        ∧ OnlyRing s t)
  ∧ (∀ (s : State), s.inv = true → s.cycleDone = true → s.ens.tickSec = some (s.tbSec 0) →
      Nexts (exec (.monitorTick) s) fun t =>
        t = s)
  ∧ (∀ (s : State), s.inv = true → s.cycleDone = false →
      Nexts (exec (.monitorTick) s) fun t =>
        t = { s with ens := { s.ens with waitTick := true } })
  ∧ (∀ (c : Fin 30) (s : State), s.inv = true → s.b (candOff c.val) 31 = true → s.b 0x01300000 c.val = true → 3 ≤ s.candState c.val →
        s.candUnavail c.val = false → s.candSrcFail c.val = true →
      Nexts (exec (.candidateSourceReport c) s) fun t =>
        t.candState c.val = cFAILED
        ∧ t.f (cStat c.val) 15 12 = 1
        ∧ t.sent Flt.selDisqualified (256 + c.val)
        ∧ Frame [.regs, .spn, .ens, .tnd, .cst, .trace, .faults, .pba, .tally, .mem, .out, .free] s t
        ∧ OnlyRing s t)
  ∧ (∀ (c : Fin 30) (s : State), s.inv = true → s.b (candOff c.val) 31 = true → s.b 0x01300000 c.val = true → s.candState c.val ≠ cOFF →
        s.candState c.val ≠ cUNAVAIL → s.candUnavail c.val = true →
      Nexts (exec (.candidateSourceReport c) s) fun t =>
        t.candState c.val = cUNAVAIL
        ∧ t.f (cStat c.val) 15 12 = 2
        ∧ Frame [.regs, .spn, .ens, .tnd, .cst, .trace, .faults, .pba, .tally, .mem, .out, .free] s t
        ∧ OnlyRing s t)
  ∧ (∀ (c : Fin 30) (qin : Word) (s : State), s.inv = true →
      Nexts (exec (.qualityInput c qin) s) fun t =>
        t.rd (candOff c.val + 0x14) = qin
        ∧ t.f (cStat c.val) 19 16 = s.qlOf c.val qin % 16
        ∧ t.rd (candOff c.val + 0x0C) = BitVec.ofNat 32 (max (s.rd (candOff c.val + 8)).toNat ((s.qinUnc c.val qin).reportedU c.val))
        ∧ Frame [.regs, .spn, .ens, .srcRes, .tnd, .cst, .trace, .faults, .pba, .tally, .mem, .out, .free] s t
        ∧ OnlyRing s t)
  ∧ (∀ (i : Itf) (n : Fin 8) (v : Word) (s : State), s.inv = true → s.serves i (selOff n.val + 4) = true → s.tbYoked n.val = false →
        (v.field 4 0 = 0x1F ∨ (v.field 4 0 ≠ 0x1E ∧ s.b (selOff n.val) (v.field 4 0) = true)) →
      Nexts (exec (.selPrefWrite i n v) s) fun t =>
        t.rd (selOff n.val + 4) = v &&& 0x31F
        ∧ Frame [.regs, .spn, .ens, .tnd, .cst, .trace, .faults, .pba, .tally, .mem, .out, .free] s t
        ∧ OnlyRing s t)
  ∧ (∀ (i : Itf) (n : Fin 8) (v : Word) (s : State), s.inv = true → s.serves i (selOff n.val + 4) = true → s.tbYoked n.val = false → v.field 4 0 = 0x1E →
      Nexts (exec (.selPrefWrite i n v) s) fun t =>
        t.sent Flt.selCfgBad ((selOff n.val + 4) % 0x10000 * 0x10000)
        ∧ t.b Blk.sel.irqOff 3 = true
        ∧ OnlyRegs [Blk.sel.irqOff] s t
        ∧ Frame [.regs, .faults, .pba, .tally, .out] s t)
  ∧ (∀ (i : Itf) (n : Fin 8) (v : Word) (s : State), s.inv = true → s.serves i (selOff n.val + 4) = true → s.tbYoked n.val = true →
      Nexts (exec (.selPrefWrite i n v) s) fun t =>
        Frame [.tally] s t)

/-- A cycle of the ensemble counts and closes the samples; members warm up, learn, train and rejoin. An ensemble cycle, once in a second of TB0,
counts in ENS_SEQ, ends the 20 ps of a carrier switch and closes the temperature samples of every member. WARMUP_END takes a member in
WARMUP that has not failed, and whose warm-up test has passed or WARM_MAX elapsed, into LEARNING with the phase of its latest result.
TREF_FIXED, after 3,600 cycles of LEARNING, fixes the mean temperature. TRAINED takes a member in LEARNING whose TRAINED_SEC has reached
TRAIN_MIN into TRAINED. MEMBER_REJOIN, after 3,600 cycles of REJOIN, takes a member into TRAINED where the prediction check passes and its
training suffices, else into LEARNING, with TRAINED_SEC 0 where the check fails. Where these commands rest on choices of the model, log
entries 5, 21, 44, 55 name them. (05_ensemble_servo_and_holdover.md, R137; 05_ensemble_servo_and_holdover.md, R138;
05_ensemble_servo_and_holdover.md, R142.) -/
def Obligations.EnsembleMembersAdvance : Prop :=
  (∀ (s : State), s.inv = true → s.cycleDone = false →
      Nexts (exec (.ensembleCycle) s) fun t =>
        t.ens.sec = s.tbSec 0
        ∧ t.rd 0x01400024 = s.rd 0x01400024 + 1
        ∧ t.ens.carSwitch = false
        ∧ (∀ m : Fin 4, (t.member m.val).tempCnt = 0 ∧ (t.member m.val).tempSum = 0)
        ∧ Frame [.regs, .chans, .spn, .tiuP, .tiuL, .syns, .outs, .pps, .ens, .tnd, .mac, .cst, .trace, .faults, .pba, .tally, .mem, .out, .free] s t
        ∧ OnlyRing s t)
  ∧ (∀ (s : State), s.inv = true → s.cycleDone = true →
      Nexts (exec (.ensembleCycle) s) fun t =>
        t = s)
  ∧ (∀ (m : Fin 4) (s : State), s.inv = true → s.memState m.val = 1 → s.loFailed m = false →
        ((s.member m.val).warmOk = true ∨ (s.kindOf m.val).warmMax ≤ ticksSec (s.member m.val).warmTick s.spn.ticks) →
      Nexts (exec (.warmupEnd m) s) fun t =>
        t.memState m.val = 2
        ∧ (t.member m.val).x = s.xFromResult m.val
        ∧ (t.member m.val).trefFixed = false
        ∧ Frame [.regs, .spn, .ens, .tnd, .cst, .trace, .faults, .pba, .tally, .mem, .out, .free] s t
        ∧ OnlyRing s t)
  ∧ (∀ (m : Fin 4) (s : State), s.inv = true → s.memState m.val = 2 → (s.member m.val).trefFixed = false → 3600 ≤ (s.member m.val).learnCyc →
        (s.member m.val).trefCnt ≠ 0 →
      Nexts (exec (.trefFixed m) s) fun t =>
        t.f (memOff m.val + 0x28) 15 0 = wrapTo 16 ((s.member m.val).trefSum / (s.member m.val).trefCnt)
        ∧ (t.member m.val).trefFixed = true
        ∧ OnlyRegs [memOff m.val + 0x28] s t
        ∧ Frame [.regs, .ens] s t)
  ∧ (∀ (m : Fin 4) (s : State), s.inv = true → s.memState m.val = 2 → (s.kindOf m.val).trainMin ≤ (s.rd (memOff m.val + 8)).toNat →
      Nexts (exec (.trained m) s) fun t =>
        t.memState m.val = 3
        ∧ t.sent Flt.ensTrained m.val
        ∧ Frame [.regs, .ens, .tnd, .cst, .trace, .faults, .pba, .tally, .mem, .out, .free] s t
        ∧ OnlyRing s t)
  ∧ (∀ (m : Fin 4) (s : State), s.inv = true → s.memState m.val = 5 → 3600 ≤ (s.member m.val).joinCyc →
      Nexts (exec (.memberRejoin m) s) fun t =>
        t.memState m.val = (if s.rejoinOk m.val = true ∧ (s.kindOf m.val).trainMin ≤ (s.rd (memOff m.val + 8)).toNat then 3 else 2)
        ∧ t.rd (memOff m.val + 8) = (if s.rejoinOk m.val = true then s.rd (memOff m.val + 8) else 0)
        ∧ t.sent Flt.ensMemberRejoin ((if s.rejoinOk m.val then 0 else 16) + m.val)
        ∧ Frame [.regs, .ens, .tnd, .cst, .trace, .faults, .pba, .tally, .mem, .out, .free] s t
        ∧ OnlyRing s t)

/-- A servo update applies the new result of the followed candidate. Once the ensemble cycle of the second has run, a servo update of an unyoked
base in SERVO mode whose candidate has a new result takes it: its error, the mean less that of the first result for a frequency-only
candidate, plus the share of PEND, is OFFSET; UPDATES counts; TINT clears on a time-and-phase result. The first update after a selection
change clears FIRST, and steps with ENS/STEP where the error is above the threshold and the step is permitted, else adds the negated error
to PEND. Every other update moves the integrator by the gain of the profile over the spacing of the results, within its limit, and PEND by
the proportional part. Without a new result nothing happens, and before the cycle the update waits for it. Where these commands rest on
choices of the model, log entries 5, 22, 44 name them. (05_ensemble_servo_and_holdover.md, R149; 05_ensemble_servo_and_holdover.md, R150;
05_ensemble_servo_and_holdover.md, R151; 05_ensemble_servo_and_holdover.md, R154; 06_error_bound.md, R167.) -/
def Obligations.ServoUpdates : Prop :=
  (∀ (n : Fin 8) (c : Nat) (r : CandRes) (e : Int) (s : State), s.inv = true → s.cycleDone = true → c = s.followed n.val → r = s.candRes c →
        s.freeBase n.val = true → s.tbHost n.val = false → c ≠ 0x1F → (s.ctl n.val).taken < r.count →
        e = r.meanIn.getD n.val r.mean - (if s.candFreqOnly c then (s.ctl n.val).anchor.getD (r.meanIn.getD n.val r.mean) else 0) + (s.base n.val).pendServo / 2 ^ 24 →
        s.b (ensOff n.val + 4) 24 = true →
      Nexts (exec (.servoUpdate n) s) fun t =>
        t.rd64 (ensOff n.val + 0x80) = wrapTo 64 e
        ∧ t.rd (ensOff n.val + 0xB8) = s.rd (ensOff n.val + 0xB8) + 1
        ∧ (t.ctl n.val).taken = r.count
        ∧ (t.ctl n.val).lastCand = some c
        ∧ (s.candFreqOnly c = false → t.tint n.val = 0)
        ∧ t.b (ensOff n.val + 4) 24 = false
        ∧ (((s.lv (ensOff n.val + 0x10)).toNat * 256 < e.natAbs ∧ s.stepPermitted n.val = true) →
        t.sent Flt.ensStep (n.val * 2 ^ 28 + (if 0 < e then 1 else 0)))
        ∧ (¬((s.lv (ensOff n.val + 0x10)).toNat * 256 < e.natAbs ∧ s.stepPermitted n.val = true) →
        (t.base n.val).pendServo = (s.base n.val).pendServo - e * 2 ^ 24)
        ∧ Frame [.regs, .chans, .spn, .tiuP, .tiuL, .syns, .outs, .pps, .ens, .tnd, .mac, .cst, .trace, .faults, .pba, .tally, .mem, .out, .free] s t
        ∧ OnlyRing s t)
  ∧ (∀ (n : Fin 8) (c : Nat) (r : CandRes) (e : Int) (tau : Nat) (s : State), s.inv = true → s.cycleDone = true → c = s.followed n.val →
        r = s.candRes c → s.freeBase n.val = true → s.tbHost n.val = false → c ≠ 0x1F → (s.ctl n.val).taken < r.count →
        e = r.meanIn.getD n.val r.mean - (if s.candFreqOnly c then (s.ctl n.val).anchor.getD (r.meanIn.getD n.val r.mean) else 0) + (s.base n.val).pendServo / 2 ^ 24 →
        tau = (match (s.ctl n.val).prevT with | some p => if p < r.timeIn.getD n.val r.time then (r.timeIn.getD n.val r.time - p).toNat else sec16 | none => sec16) →
        s.b (ensOff n.val + 4) 24 = false →
      Nexts (exec (.servoUpdate n) s) fun t =>
        t.rd64 (ensOff n.val + 0x80) = wrapTo 64 e
        ∧ t.rd (ensOff n.val + 0xB8) = s.rd (ensOff n.val + 0xB8) + 1
        ∧ (t.ctl n.val).taken = r.count
        ∧ (t.ctl n.val).lastCand = some c
        ∧ (s.candFreqOnly c = false → t.tint n.val = 0)
        ∧ t.integ n.val = clampInt (s.integ n.val - roundDiv ((s.lv (s.profOff n.val + 4)).toNat * e * tau) (2 ^ 32 * sec16)) (s.lv (s.profOff n.val + 8)).toNat
        ∧ (t.base n.val).pendServo = (s.base n.val).pendServo - roundDiv ((s.lf (s.profOff n.val) 15 0 : Nat) * e * tau) (2 ^ 16 * sec16) * 2 ^ 24
        ∧ Frame [.regs, .chans, .spn, .tiuP, .tiuL, .syns, .outs, .pps, .ens, .tnd, .mac, .cst, .trace, .faults, .pba, .tally, .mem, .out, .free] s t
        ∧ OnlyRing s t)
  ∧ (∀ (n : Fin 8) (s : State), s.inv = true → s.cycleDone = true →
        (s.freeBase n.val = false ∨ s.tbHost n.val = true ∨ s.followed n.val = 0x1F ∨ (s.candRes (s.followed n.val)).count ≤ (s.ctl n.val).taken) →
      Nexts (exec (.servoUpdate n) s) fun t =>
        t = s)
  ∧ (∀ (n : Fin 8) (s : State), s.inv = true → s.cycleDone = false → s.ens.waitServo = [] →
      Nexts (exec (.servoUpdate n) s) fun t =>
        t = { s with ens := { s.ens with waitServo := [n.val] } })

/-- A base is evaluated while PEND is open, a better map row that has waited goes into force, EXCEEDED expires, and each second is traced once.
While PEND of an unyoked base is not 0, BOUND_EVAL_10MS computes it anew: B_step, C, the holdover time and P take their values; in FREERUN
and HOST P is unbounded. With PEND 0 it does nothing. MAP_HOLD_EXPIRY puts a better row that has been first for MAP_HOLD seconds into force,
with its OUT in BND_TBn_QUAL and BND/MAP_CHANGE; before that it does nothing. EXCEEDED_FLAG_EXPIRY clears the flag 86,400 s after it was
set, and not before. TRACE_SECOND, while the writer runs and nothing waits, writes one record for each present base of TRACE_TB into the
ring and nowhere else, once in a second of TB0; where one base is traced the record is of type SECOND and names it. Before the ensemble
cycle of the second the records wait for it; while the writer does not run there are none and the next record carries GAP_BEFORE. Where
these commands rest on choices of the model, log entries 5, 22, 32, 44 name them. (06_error_bound.md, R165; 06_error_bound.md, R168;
06_error_bound.md, R170; 06_error_bound.md, R171; 06_error_bound.md, R178; 06_error_bound.md, R180.) -/
def Obligations.BoundsAndMapFollow : Prop :=
  (∀ (n : Fin 8) (s : State), s.inv = true → (s.base n.val).pendHost + (s.base n.val).pendServo ≠ 0 → s.freeBase n.val = true →
      Nexts (exec (.boundEval10ms n) s) fun t =>
        t.rd (bndOff n.val + 0x20) = BitVec.ofNat 32 (s.bStep n.val)
        ∧ t.rd (bndOff n.val + 0x24) = BitVec.ofNat 32 (s.boundC n.val (s.holdT n.val))
        ∧ t.rd (bndOff n.val + 0x28) = BitVec.ofNat 32 (s.holdT n.val)
        ∧ (t.ctl n.val).evalTick = s.spn.ticks
        ∧ t.rd (bndOff n.val) = BitVec.ofNat 32 (pubBound (t.ctl n.val).pFine)
        ∧ Frame [.regs, .ens, .tnd, .cst, .trace, .faults, .pba, .tally, .mem, .out, .free] s t
        ∧ OnlyRing s t)
  ∧ (∀ (n : Fin 8) (s : State), s.inv = true → (s.base n.val).pendHost + (s.base n.val).pendServo ≠ 0 → s.freeBase n.val = true →
        (s.tbState n.val = stFREERUN ∨ s.tbState n.val = stHOST) →
      Nexts (exec (.boundEval10ms n) s) fun t =>
        t.rd (bndOff n.val) = 0xFFFFFFFF
        ∧ Frame [.regs, .ens, .tnd, .cst, .trace, .faults, .pba, .tally, .mem, .out, .free] s t
        ∧ OnlyRing s t)
  ∧ (∀ (n : Fin 8) (s : State), s.inv = true → (s.base n.val).pendHost + (s.base n.val).pendServo = 0 →
      Nexts (exec (.boundEval10ms n) s) fun t =>
        t = s)
  ∧ (∀ (n : Fin 8) (k since : Nat) (s : State), s.inv = true → (s.ctl n.val).betterRow = some (k, since) → k < 8 →
        s.lf (bndOff n.val + 0x40) 15 0 ≤ ticksSec since s.spn.ticks →
      Nexts (exec (.mapHoldExpiry n) s) fun t =>
        t.f (bndOff n.val + 4) 18 16 = k
        ∧ t.rd (bndOff n.val + 0x38) = s.lv (bndOff n.val + 0x84 + k * 8)
        ∧ (t.ctl n.val).betterRow = none
        ∧ t.sent Flt.bndMapChange (n.val * 2 ^ 28 + k)
        ∧ t.b Blk.bnd.irqOff 2 = true
        ∧ Frame [.regs, .ens, .cst, .trace, .faults, .pba, .tally, .mem, .out, .free] s t
        ∧ OnlyRing s t)
  ∧ (∀ (n : Fin 8) (k since : Nat) (s : State), s.inv = true → (s.ctl n.val).betterRow = some (k, since) →
        ticksSec since s.spn.ticks < s.lf (bndOff n.val + 0x40) 15 0 →
      Nexts (exec (.mapHoldExpiry n) s) fun t =>
        t = s)
  ∧ (∀ (n : Fin 8) (at_ : Nat) (s : State), s.inv = true → (s.ctl n.val).exceeded = some at_ → 86400 ≤ ticksSec at_ s.spn.ticks →
      Nexts (exec (.exceededFlagExpiry n) s) fun t =>
        t.ctl n.val = { s.ctl n.val with exceeded := none }
        ∧ (∀ k : Fin 8, k ≠ n → t.ctl k.val = s.ctl k.val)
        ∧ t.ens.members = s.ens.members
        ∧ Frame [.ens] s t)
  ∧ (∀ (n : Fin 8) (at_ : Nat) (s : State), s.inv = true → (s.ctl n.val).exceeded = some at_ → ticksSec at_ s.spn.ticks < 86400 →
      Nexts (exec (.exceededFlagExpiry n) s) fun t =>
        t = s)
  ∧ (∀ (s : State), s.inv = true → s.trace.sec ≠ s.tbSec 0 → s.cycleDone = true → s.traceOn = true → s.trace.started = true → s.trace.subkeyDue = false →
        s.trace.queue = [] →
      Nexts (exec (.traceSecond) s) fun t =>
        t.rd 0x01500040 = s.rd 0x01500040 + BitVec.ofNat 32 ((List.range 8).filter (fun n => s.b 0x01500010 (8 + n) && s.tbPresent n)).length
        ∧ t.trace.sec = s.tbSec 0
        ∧ OnlyRegs [0x01500040, 0x01500048, Blk.bnd.irqOff] s t
        ∧ Frame [.regs, .trace, .faults, .pba, .tally, .mem, .out] s t
        ∧ OnlyRing s t)
  ∧ (∀ (n : Fin 8) (s : State), s.inv = true → s.trace.sec ≠ s.tbSec 0 → s.cycleDone = true → s.traceOn = true → s.trace.started = true →
        s.trace.subkeyDue = false → s.trace.queue = [] → s.tbPresent n.val = true → s.f 0x01500010 15 8 = 2 ^ n.val →
      Nexts (exec (.traceSecond) s) fun t =>
        t.rd 0x01500040 = s.rd 0x01500040 + 1
        ∧ t.mget (0x90000000 + (s.rd 0x01500040).toNat % 4194304 * 256) = 1
        ∧ t.mget (0x90000000 + (s.rd 0x01500040).toNat % 4194304 * 256 + 44) = BitVec.ofNat 8 n.val
        ∧ Frame [.regs, .trace, .faults, .pba, .tally, .mem, .out] s t
        ∧ OnlyRing s t)
  ∧ (∀ (s : State), s.inv = true → s.trace.sec = s.tbSec 0 →
      Nexts (exec (.traceSecond) s) fun t =>
        t = s)
  ∧ (∀ (s : State), s.inv = true → s.trace.sec ≠ s.tbSec 0 → s.cycleDone = false →
      Nexts (exec (.traceSecond) s) fun t =>
        t = { s with trace := { s.trace with waitSecond := true } })
  ∧ (∀ (s : State), s.inv = true → s.trace.sec ≠ s.tbSec 0 → s.cycleDone = true → s.traceRuns = false →
      Nexts (exec (.traceSecond) s) fun t =>
        (t.trace.gap = (s.trace.gap || (List.range 8).any (fun n => s.b 0x01500010 (8 + n) && s.tbPresent n)))
        ∧ t.trace.queue = s.trace.queue
        ∧ Frame [.trace] s t)

/-- A synthesizer searches, locks, aligns, runs, unlocks, ramps and realigns as its states say. SEARCH ends in LOCKING with the band whose
centre lies nearest FREQ in force, or is tried again up to the limit and then fails with SYN/LOCK_FAIL. LOCKING settles into ALIGN_WAIT
after 50 µs, or times out into a new search after 2 ms; before that neither does anything. ALIGN_WAIT enters RUN on a second boundary of the
base that lies after the entry, with ALIGNED and its count and SYN/LOCKED, and not on an earlier one. A loss of lock in RUN, RAMP or REALIGN
sends SYN/UNLOCK, searches again and drops a ramp. The end of a ramp, after the durations of its segments, puts the last END in force and
realigns with SYN/RAMP_DONE. REALIGN ends in RUN once the phase of the core is within 2 ps. Where these commands rest on choices of the
model, log entries 5, 45, 53 name them. (07_synthesis_and_outputs.md, R186; 07_synthesis_and_outputs.md, R187; 07_synthesis_and_outputs.md,
R188; 07_synthesis_and_outputs.md, R189; 07_synthesis_and_outputs.md, R190.) -/
def Obligations.SynthesizersMoveThroughTheirStates : Prop :=
  (∀ (k : Fin 4) (edges : List (Fin 12 × List Nat)) (s : State), s.inv = true → s.synState k.val = synSEARCH →
      Nexts (exec (.synSearchDone k true edges) s) fun t =>
        t.synState k.val = synLOCKING
        ∧ t.f (synOff k.val + 4) 21 16 = bandOf (s.lv (synOff k.val + 0x10)).toNat
        ∧ Frame [.regs, .syns, .outs, .tnd, .faults, .pba, .out] s t)
  ∧ (∀ (k : Fin 4) (edges : List (Fin 12 × List Nat)) (s : State), s.inv = true → s.synState k.val = synSEARCH → s.f (synOff k.val + 4) 1 0 ≠ 2 →
      Nexts (exec (.synSearchDone k false edges) s) fun t =>
        t.synState k.val = synSEARCH
        ∧ t.f (synOff k.val + 4) 1 0 = (s.f (synOff k.val + 4) 1 0 + 1) % 4
        ∧ Frame [.regs, .syns, .outs, .tnd, .faults, .pba, .out] s t)
  ∧ (∀ (k : Fin 4) (edges : List (Fin 12 × List Nat)) (s : State), s.inv = true → s.synState k.val = synSEARCH → s.f (synOff k.val + 4) 1 0 = 2 →
      Nexts (exec (.synSearchDone k false edges) s) fun t =>
        t.synState k.val = synFAIL
        ∧ t.sent Flt.synLockFail (k.val * 2 ^ 28)
        ∧ Frame [.regs, .syns, .outs, .tnd, .faults, .pba, .out] s t)
  ∧ (∀ (k : Fin 4) (edges : List (Fin 12 × List Nat)) (s : State), s.inv = true → s.synState k.val = synLOCKING →
        (s.syn k.val).since + 100000 ≤ s.spn.ticks →
      Nexts (exec (.synLoopSettled k edges) s) fun t =>
        t.synState k.val = synALIGN
        ∧ Frame [.regs, .syns, .outs, .tnd, .faults, .pba, .out] s t)
  ∧ (∀ (k : Fin 4) (edges : List (Fin 12 × List Nat)) (s : State), s.inv = true → s.spn.ticks < (s.syn k.val).since + 100000 →
      Nexts (exec (.synLoopSettled k edges) s) fun t =>
        t = s)
  ∧ (∀ (k : Fin 4) (edges : List (Fin 12 × List Nat)) (s : State), s.inv = true → s.synState k.val = synLOCKING →
        (s.syn k.val).since + 4000000 ≤ s.spn.ticks → s.f (synOff k.val + 4) 1 0 ≠ 2 →
      Nexts (exec (.synLockingTimeout k edges) s) fun t =>
        t.synState k.val = synSEARCH
        ∧ t.f (synOff k.val + 4) 1 0 = (s.f (synOff k.val + 4) 1 0 + 1) % 4
        ∧ Frame [.regs, .syns, .outs, .tnd, .faults, .pba, .out] s t)
  ∧ (∀ (k : Fin 4) (edges : List (Fin 12 × List Nat)) (s : State), s.inv = true → s.spn.ticks < (s.syn k.val).since + 4000000 →
      Nexts (exec (.synLockingTimeout k edges) s) fun t =>
        t = s)
  ∧ (∀ (k : Fin 4) (edges : List (Fin 12 × List Nat)) (s : State), s.inv = true → s.synState k.val = synALIGN →
        (s.syn k.val).alignFrom / secU < s.synNow k.val / secU →
      Nexts (exec (.synAlignStart k edges) s) fun t =>
        t.synState k.val = synRUN
        ∧ t.rd (synOff k.val + 0x1C) = s.rd (synOff k.val + 0x1C) + 1
        ∧ t.sent Flt.synLocked (k.val * 2 ^ 28 + s.f (synOff k.val + 4) 21 16)
        ∧ t.b Blk.syn.irqOff 2 = true
        ∧ Frame [.regs, .syns, .outs, .tnd, .faults, .pba, .out] s t)
  ∧ (∀ (k : Fin 4) (edges : List (Fin 12 × List Nat)) (s : State), s.inv = true → s.synNow k.val / secU ≤ (s.syn k.val).alignFrom / secU →
      Nexts (exec (.synAlignStart k edges) s) fun t =>
        t = s)
  ∧ (∀ (k : Fin 4) (edges : List (Fin 12 × List Nat)) (s : State), s.inv = true →
        (s.synState k.val = synRUN ∨ s.synState k.val = synRAMP ∨ s.synState k.val = synREALIGN) →
      Nexts (exec (.synUnlock k edges) s) fun t =>
        t.synState k.val = synSEARCH
        ∧ (t.syn k.val).ramp = none
        ∧ t.sent Flt.synUnlock (k.val * 2 ^ 28 + s.f (synOff k.val + 4) 21 16)
        ∧ Frame [.regs, .syns, .outs, .tnd, .faults, .pba, .out] s t)
  ∧ (∀ (k : Fin 4) (edges : List (Fin 12 × List Nat)) (r : SynRamp) (s : State), s.inv = true → s.synState k.val = synRAMP →
        (s.syn k.val).ramp = some r → r.start + rampLasts r.segs ≤ s.synNow k.val →
      Nexts (exec (.rampDone k edges) s) fun t =>
        t.synState k.val = synREALIGN
        ∧ t.lv (synOff k.val + 0x10) = BitVec.ofNat 32 (((r.segs.getLast?).getD (0, 0)).1 / 65536)
        ∧ (t.syn k.val).ramp = none
        ∧ t.sent Flt.synRampDone (k.val * 2 ^ 28)
        ∧ Frame [.regs, .live, .syns, .outs, .tnd, .faults, .pba, .out] s t)
  ∧ (∀ (k : Fin 4) (edges : List (Fin 12 × List Nat)) (s : State), s.inv = true → s.synState k.val = synREALIGN →
        (s.corePhase k.val).natAbs * 500 ≤ s.synRef k.val * 2 ^ 40 →
      Nexts (exec (.synRealigned k edges) s) fun t =>
        t.synState k.val = synRUN
        ∧ t.b (synOff k.val + 4) 27 = true
        ∧ Frame [.regs, .syns, .outs, .tnd, .faults, .pba, .out] s t)

/-- A PPS edge drives its pulse and triggers the ToD channels, and a message goes out after its edge. An edge that is due on a PPS pin that is
present, enabled and powered, on no unsmeared leap of its base, is remembered and its pulse begins DLY earlier at the ball, to the nearest 1
ps, unless the pin is released. The pulse ends after its width, and not before. A ToD message goes out START_OFS after the edge that
triggered it, with its CRC, at its line rate, and its channel sends until the last stop bit. Where these commands rest on choices of the
model, log entries 5, 34, 42, 45, 52, 53 name them. (07_synthesis_and_outputs.md, R197; 07_synthesis_and_outputs.md, R199;
07_synthesis_and_outputs.md, R201; 07_synthesis_and_outputs.md, R202; 07_synthesis_and_outputs.md, R203.) -/
def Obligations.PpsEdgesAndTodMessages : Prop :=
  (∀ (k : Fin 4) (e : Nat) (s : State), s.inv = true → s.b 0x01700000 (24 + k.val) = true → s.lb (ppsOff k.val) 31 = true → s.domOn 3 = true →
        s.leapDue (s.ppsTb k.val) = false → s.ppsDue k.val = some e → (s.pps.getD k.val {}).track = 0 → s.released (20 + k.val) = false →
      Nexts (exec (.ppsEdge k) s) fun t =>
        (t.pps.getD k.val {}).last = some e
        ∧ (t.pps.getD k.val {}).ends = e + (s.lv (ppsOff k.val + 0x14)).toNat * 2 ^ 40
        ∧ t.b (ppsOff k.val + 4) 0 = true
        ∧ t.out = .pps k.val (psOf ((e : Int) - signedOf 32 (s.lv (ppsOff k.val + 0x20)).toNat * subU)) (s.lv (ppsOff k.val + 0x14)).toNat (!s.lb (ppsOff k.val) 30) :: s.out
        ∧ OnlyRegs [ppsOff k.val + 4] s t
        ∧ Frame [.regs, .pps, .tod, .out] s t)
  ∧ (∀ (k : Fin 4) (e : Nat) (s : State), s.inv = true → s.b 0x01700000 (24 + k.val) = true → s.lb (ppsOff k.val) 31 = true → s.domOn 3 = true →
        s.leapDue (s.ppsTb k.val) = false → s.ppsDue k.val = some e → s.released (20 + k.val) = true →
      Nexts (exec (.ppsEdge k) s) fun t =>
        t.out = s.out
        ∧ t.b (ppsOff k.val + 4) 0 = true
        ∧ OnlyRegs [ppsOff k.val + 4] s t
        ∧ Frame [.regs, .live, .chans, .pps, .tod] s t)
  ∧ (∀ (k : Fin 4) (s : State), s.inv = true → s.b (ppsOff k.val + 4) 0 = true → (s.pps.getD k.val {}).ends ≤ s.tbTime (s.ppsTb k.val) →
      Nexts (exec (.ppsPulseEnd k) s) fun t =>
        t.b (ppsOff k.val + 4) 0 = false
        ∧ OnlyRegs [ppsOff k.val + 4] s t
        ∧ Frame [.regs] s t)
  ∧ (∀ (k : Fin 4) (s : State), s.inv = true → s.tbTime (s.ppsTb k.val) < (s.pps.getD k.val {}).ends →
        (s.base (s.ppsTb k.val)).steps = (s.pps.getD k.val {}).steps →
      Nexts (exec (.ppsPulseEnd k) s) fun t =>
        t = s)
  ∧ (∀ (k : Fin 2) (g : TodTrigger) (m : List Byte) (s : State), s.inv = true → (s.tod.getD k.val {}).trig = some g → s.lb (todOff k.val) 31 = true →
        s.b (todOff k.val + 4) 0 = false → s.domOn 3 = true → (s.base (s.ppsTb (s.f (todOff k.val + 4) 2 1))).steps = g.steps →
        g.from_ + s.lf (todOff k.val) 8 0 * 1000000 * 2 ^ 40 ≤ s.countNow (s.ppsTb (s.f (todOff k.val + 4) 2 1)) → s.lb (todOff k.val) 30 = false →
        s.released (24 + k.val) = false → m = s.todBody k.val g.edge g (s.tod.getD k.val {}).sent →
      Nexts (exec (.todMessage k) s) fun t =>
        t.out = .tod k.val (g.from_ + s.lf (todOff k.val) 8 0 * 1000000 * 2 ^ 40) (todRate (s.lf (todOff k.val) 18 16)) ((m ++ beBytes 2 (crc16 m)).flatMap todFrame) :: s.out
        ∧ (t.tod.getD k.val {}).trig = none
        ∧ t.b (todOff k.val + 4) 0 = true
        ∧ OnlyRegs [todOff k.val + 4] s t
        ∧ Frame [.regs, .tod, .out] s t)

/-- Solutions, missing seconds and configuration changes move the GNSS source. A solution that passes its integrity test, within the limit of TU
and with the parameters of its scale, takes the source from NOFIX to CONFIRM with COUNT 1 and keeps its mean; after a restart, in VALID, it
reaches candidate 24 with its mean and TU. Without a unit for the internal PPS such a solution begins a chain, COUNT 1, and each one after
it begins it again, with no result for candidate 24, which is a choice of the model (log entry 57). One with fewer satellites than unknowns
is a second without a solution. A second that has been evaluated, and any in OFF, changes nothing. A second without a solution takes CONFIRM
to NOFIX with cause 2; in VALID it counts a miss, and the last miss allowed loses the source with GNS/SRC_LOST. A configuration register
that stays in range is stored, and a change of it acts with the next solution; one that does not is discarded with GNS/CFG_BAD.
(08_gnss_baseband.md, R221; 08_gnss_baseband.md, R222; 08_gnss_baseband.md, R225; 08_gnss_baseband.md, R226; 08_gnss_baseband.md, R227.) -/
def Obligations.GnssSourceFollowsItsSolutions : Prop :=
  (∀ (q : GnssSecond) (g : GnssSolution) (k : Fin 12) (used ex : List Signal) (s : State), s.inv = true → s.gnsSrc = srcNOFIX → s.domOn 8 = true →
        s.gns.doneSec ≠ some q.sec → s.gns.cfgChange = false → s.routedUnit .vanePps = some k → (s.unitRes (.p k)).count ≠ s.gns.taken →
        (s.gnsBegin q).unknowns ((s.gnsBegin q).usable q g) ≤ satCount ((s.gnsBegin q).usable q g) →
        (s.gnsBegin q).raim g 2 ((s.gnsBegin q).usable q g) [] = (used, ex, .passed) → (s.gnsBegin q).gnsTu g.sigma ≤ (s.rd 0x0180002C).toNat →
        (s.gnsBegin q).scaleParams = true →
      Nexts (exec (.gnssSolution q g) s) fun t =>
        t.gnsSrc = srcCONFIRM
        ∧ t.f gnsStat 15 8 = 1
        ∧ t.gns.taken = (s.unitRes (.p k)).count
        ∧ t.gns.lastMean = some ((s.unitRes (.p k)).mean - ((s.gnsBegin q).toTai ((s.gnsBegin q).edgeTime g used) - q.sec * sec16) + ((q.sec : Int) - gridSecond (s.unitRes (.p k))) * sec16)
        ∧ t.f gnsStat 7 0 = satCount used % 256
        ∧ t.gns.solSec = some q.sec
        ∧ t.b Blk.gns.irqOff 0 = true
        ∧ Frame [.regs, .spn, .ens, .srcRes, .tnd, .gns, .cst, .trace, .faults, .pba, .tally, .mem, .out, .free] s t)
  ∧ (∀ (q : GnssSecond) (g : GnssSolution) (k : Fin 12) (used ex : List Signal) (s : State), s.inv = true → s.gnsSrc = srcVALID → s.domOn 8 = true →
        s.gns.doneSec ≠ some q.sec → s.gns.cfgChange = false → s.routedUnit .vanePps = some k → (s.unitRes (.p k)).count ≠ s.gns.taken →
        (s.gnsBegin q).unknowns ((s.gnsBegin q).usable q g) ≤ satCount ((s.gnsBegin q).usable q g) →
        (s.gnsBegin q).raim g 2 ((s.gnsBegin q).usable q g) [] = (used, ex, .passed) → (s.gnsBegin q).gnsTu g.sigma ≤ (s.rd 0x0180002C).toNat →
        (s.gnsBegin q).scaleParams = true → (s.unitRes (.p k)).restart = true →
      Nexts (exec (.gnssSolution q g) s) fun t =>
        t.gnsSrc = srcVALID
        ∧ (t.srcRes.getD 0 {}).count = (s.srcRes.getD 0 {}).count + 1
        ∧ (t.srcRes.getD 0 {}).mean = (s.unitRes (.p k)).mean - ((s.gnsBegin q).toTai ((s.gnsBegin q).edgeTime g used) - q.sec * sec16) + ((q.sec : Int) - gridSecond (s.unitRes (.p k))) * sec16
        ∧ (t.srcRes.getD 0 {}).unc = (s.gnsBegin q).gnsTu g.sigma
        ∧ t.gns.misses = 0
        ∧ Frame [.regs, .spn, .ens, .srcRes, .tnd, .gns, .cst, .trace, .faults, .pba, .tally, .mem, .out, .free] s t)
  ∧ (∀ (q : GnssSecond) (g : GnssSolution) (used ex : List Signal) (s : State), s.inv = true → (s.gnsSrc = srcNOFIX ∨ s.gnsSrc = srcCONFIRM) →
        s.domOn 8 = true → s.gns.doneSec ≠ some q.sec → s.gns.cfgChange = false → s.routedUnit .vanePps = none →
        (s.gnsBegin q).unknowns ((s.gnsBegin q).usable q g) ≤ satCount ((s.gnsBegin q).usable q g) →
        (s.gnsBegin q).raim g 2 ((s.gnsBegin q).usable q g) [] = (used, ex, .passed) → (s.gnsBegin q).gnsTu g.sigma ≤ (s.rd 0x0180002C).toNat →
        (s.gnsBegin q).scaleParams = true →
      Nexts (exec (.gnssSolution q g) s) fun t =>
        t.gnsSrc = srcCONFIRM
        ∧ t.f gnsStat 15 8 = 1
        ∧ t.srcRes = s.srcRes
        ∧ t.f gnsStat 7 0 = satCount used % 256
        ∧ t.b Blk.gns.irqOff 0 = true
        ∧ Frame [.regs, .spn, .ens, .srcRes, .tnd, .gns, .cst, .trace, .faults, .pba, .tally, .mem, .out, .free] s t)
  ∧ (∀ (q : GnssSecond) (g : GnssSolution) (s : State), s.inv = true → s.gnsSrc = srcCONFIRM → s.domOn 8 = true → s.gns.doneSec ≠ some q.sec →
        s.gns.cfgChange = false → s.edgeAbandoned = false →
        satCount ((s.gnsBegin q).usable q g) < (s.gnsBegin q).unknowns ((s.gnsBegin q).usable q g) →
      Nexts (exec (.gnssSolution q g) s) fun t =>
        t.gnsSrc = srcNOFIX
        ∧ t.f gnsStat 23 20 = 2
        ∧ t.f gnsStat 15 8 = 0
        ∧ t.b Blk.gns.irqOff 0 = true
        ∧ Frame [.regs, .spn, .ens, .srcRes, .tnd, .gns, .cst, .trace, .faults, .pba, .tally, .mem, .out, .free] s t)
  ∧ (∀ (q : GnssSecond) (g : GnssSolution) (s : State), s.inv = true → (s.gnsSrc = srcOFF ∨ s.domOn 8 = false ∨ s.gns.doneSec = some q.sec) →
      Nexts (exec (.gnssSolution q g) s) fun t =>
        t = s)
  ∧ (∀ (q : GnssSecond) (s : State), s.inv = true → s.gnsSrc = srcCONFIRM → s.domOn 8 = true → s.gns.doneSec ≠ some q.sec → s.gns.cfgChange = false →
        s.routedUnit .vanePps = none →
      Nexts (exec (.gnssMissingSecond q) s) fun t =>
        t.gnsSrc = srcNOFIX
        ∧ t.f gnsStat 23 20 = 2
        ∧ t.f gnsStat 15 8 = 0
        ∧ t.gns.misses = 0
        ∧ Frame [.regs, .spn, .ens, .tnd, .gns, .cst, .trace, .faults, .pba, .tally, .mem, .out, .free] s t)
  ∧ (∀ (q : GnssSecond) (k : Fin 12) (s : State), s.inv = true → s.gnsSrc = srcVALID → s.domOn 8 = true → s.gns.doneSec ≠ some q.sec →
        s.gns.cfgChange = false → s.routedUnit .vanePps = some k → (s.unit (.p k)).restart = false → s.gns.misses + 1 ≠ s.f 0x01800020 15 8 →
      Nexts (exec (.gnssMissingSecond q) s) fun t =>
        t.gnsSrc = srcVALID
        ∧ t.gns.misses = s.gns.misses + 1
        ∧ Frame [.regs, .spn, .ens, .tnd, .gns, .cst, .trace, .faults, .pba, .tally, .mem, .out, .free] s t)
  ∧ (∀ (q : GnssSecond) (k : Fin 12) (s : State), s.inv = true → s.gnsSrc = srcVALID → s.domOn 8 = true → s.gns.doneSec ≠ some q.sec →
        s.gns.cfgChange = false → s.routedUnit .vanePps = some k → (s.unit (.p k)).restart = false → s.gns.misses + 1 = s.f 0x01800020 15 8 →
      Nexts (exec (.gnssMissingSecond q) s) fun t =>
        t.gnsSrc = srcNOFIX
        ∧ t.f gnsStat 23 20 = 2
        ∧ t.f gnsStat 27 26 = 3
        ∧ t.sent Flt.gnsSrcLost 32
        ∧ Frame [.regs, .spn, .ens, .tnd, .gns, .cst, .trace, .faults, .pba, .tally, .mem, .out, .free] s t)
  ∧ (∀ (i : Itf) (off : Nat) (v : Word) (s : State), s.inv = true → off ∈ gnsCfgRegs → off ≠ 0x10 → s.serves i (0x01800000 + off) = true →
        (s.rwStore (0x01800000 + off) v).gnsOk off = true → (s.rwStore (0x01800000 + off) v).rd (0x01800000 + off) ≠ s.rd (0x01800000 + off) →
      Nexts (exec (.gnssConfigChange i off v) s) fun t =>
        t.rd (0x01800000 + off) = (s.rwStore (0x01800000 + off) v).rd (0x01800000 + off)
        ∧ t.gns.cfgChange = true
        ∧ OnlyRegs [0x01800000 + off] s t
        ∧ Frame [.regs, .gns, .tally] s t)
  ∧ (∀ (i : Itf) (v : Word) (s : State), s.inv = true → s.serves i 0x01800010 = true → (s.rwStore 0x01800010 v).gnsOk 0x10 = true → v.bit 31 = true →
        s.gnsSrc = srcOFF →
      Nexts (exec (.gnssConfigChange i 0x10 v) s) fun t =>
        t.gnsSrc = srcNOFIX
        ∧ t.f gnsStat 15 8 = 0
        ∧ t.b 0x01800010 31 = true
        ∧ Frame [.regs, .spn, .ens, .tnd, .gns, .cst, .trace, .faults, .pba, .tally, .mem, .out, .free] s t)
  ∧ (∀ (i : Itf) (off : Nat) (v : Word) (s : State), s.inv = true → off ∈ gnsCfgRegs → s.serves i (0x01800000 + off) = true →
        (s.rwStore (0x01800000 + off) v).gnsOk off = false →
      Nexts (exec (.gnssConfigChange i off v) s) fun t =>
        t.sent Flt.gnsCfgBad ((0x01800000 + off) % 0x10000 * 0x10000)
        ∧ OnlyRegs [Blk.gns.irqOff] s t
        ∧ Frame [.regs, .faults, .pba, .tally, .out] s t)

/-- Front ends lose and regain their clocks, channels take and drop signals, aiding runs, Vane wakes. The loss of a sample clock, and one that
is measured beyond 50 parts in a million, drop the tracking of their front end and send their message; a clock that is measured within it
clears RANGE, and CLKERR holds what was measured. A channel takes a signal that the search may find, and drops one that has been weak for 2
s. The internal PPS edge is placed on the spine tick at or before its second, and GNSS_PPS goes out its offset earlier; one that moved by
more than 10 ms sets GROSS of the internal PPS. An aiding command that can be read starts, and ends with its records counted once the store
is READY, with ERR where a line of its buffer answers with an error. The wait for aiding ends after 60 s, and not before. A wake empties a
store whose CRC fails, with GNS/STORE_BAD, and says COLD; from one that holds it reports its class, and counts the ephemerides younger than
four hours. Where these commands rest on choices of the model, log entries 5, 28, 35, 46, 57 name them. (08_gnss_baseband.md, R211;
08_gnss_baseband.md, R213; 08_gnss_baseband.md, R214; 08_gnss_baseband.md, R215; 08_gnss_baseband.md, R216; 08_gnss_baseband.md, R223;
08_gnss_baseband.md, R228; 08_gnss_baseband.md, R233; 08_gnss_baseband.md, R234.) -/
def Obligations.GnssFrontEndsAndAiding : Prop :=
  (∀ (k : Fin 2) (s : State), s.inv = true → s.b (feOff k.val + 0x0C) 0 = true →
      Nexts (exec (.clkLost k) s) fun t =>
        t.b (feOff k.val + 0x0C) 0 = false
        ∧ (∀ x ∈ t.gns.tracked, x.fe ≠ k)
        ∧ t.sent Flt.gnsClkLost k.val
        ∧ OnlyRegs [feOff k.val + 0x0C] s t
        ∧ Frame [.regs, .gns, .faults] s t)
  ∧ (∀ (k : Fin 2) (err : Word) (s : State), s.inv = true → s.b (feOff k.val + 0x0C) 1 = false → clkLimit < (signedOf 32 err.toNat).natAbs →
      Nexts (exec (.clkRange k err) s) fun t =>
        t.b (feOff k.val + 0x0C) 1 = true
        ∧ t.rd (feOff k.val + 0x10) = err
        ∧ (∀ x ∈ t.gns.tracked, x.fe ≠ k)
        ∧ t.sent Flt.gnsClkRange k.val
        ∧ OnlyRegs [feOff k.val + 0x0C, feOff k.val + 0x10] s t
        ∧ Frame [.regs, .gns, .faults] s t)
  ∧ (∀ (k : Fin 2) (err : Word) (s : State), s.inv = true → s.b (feOff k.val + 0x0C) 0 = true → s.b (feOff k.val + 0x0C) 1 = false →
        (signedOf 32 err.toNat).natAbs ≤ clkLimit →
      Nexts (exec (.clkRange k err) s) fun t =>
        t.rd (feOff k.val + 0x10) = err
        ∧ OnlyRegs [feOff k.val + 0x0C, feOff k.val + 0x10] s t
        ∧ Frame [.regs] s t)
  ∧ (∀ (k : Fin 2) (err : Word) (s : State), s.inv = true → (s.b (feOff k.val + 0x0C) 0 = false ∨ s.b (feOff k.val + 0x0C) 1 = true) →
        (signedOf 32 err.toNat).natAbs ≤ clkLimit →
      Nexts (exec (.feClockReturn k err) s) fun t =>
        t.b (feOff k.val + 0x0C) 0 = true
        ∧ t.b (feOff k.val + 0x0C) 1 = false
        ∧ t.rd (feOff k.val + 0x10) = err
        ∧ (∀ x ∈ t.gns.tracked, x.fe ≠ k)
        ∧ OnlyRegs [feOff k.val + 0x0C, feOff k.val + 0x10] s t
        ∧ Frame [.regs, .gns] s t)
  ∧ (∀ (x : Signal) (w : Nat) (s : State), s.inv = true → (x, w) ∈ s.gns.weak → w + 4000000000 ≤ s.spn.ticks →
      Nexts (exec (.channelDrop x) s) fun t =>
        t.gns.tracked = s.gns.tracked.filter (· ≠ x)
        ∧ (∀ y ∈ t.gns.weak, y.1 ≠ x)
        ∧ Frame [.gns] s t)
  ∧ (∀ (x : Signal) (s : State), s.inv = true → (∀ y ∈ s.gns.weak, y.1 = x → s.spn.ticks < y.2 + 4000000000) →
      Nexts (exec (.channelDrop x) s) fun t =>
        t = s)
  ∧ (∀ (x : Signal) (bin : Int) (s : State), s.inv = true → s.gnsSrc ≠ srcOFF → s.domOn 8 = true → s.gns.aidWait = false →
        s.b 0x01800010 x.con.val = true → s.b 0x01800010 (8 + x.fe.val) = true → s.b (feOff x.fe.val) 31 = true →
        s.b (feOff x.fe.val + 0x0C) 0 = true → s.b (feOff x.fe.val + 0x0C) 1 = false → s.gns.tracked.length < 192 → x ∉ s.gns.tracked →
        500 * bin.natAbs ≤ s.searchHalf x →
      Nexts (exec (.signalAcquired x bin) s) fun t =>
        t.gns.tracked = s.gns.tracked ++ [x]
        ∧ t.gns.found = some x
        ∧ Frame [.gns] s t)
  ∧ (∀ (sec : Nat) (e p : Int) (s : State), s.inv = true → s.domOn 8 = true → s.vaneSecond sec = some e → s.gnssPpsAt sec = some p →
        e / nominalInc ≤ s.spn.ticks → s.gns.edge.any (fun x => decide (e / nominalInc ≤ x.2)) = false → s.b 0x01800060 31 = true →
      Nexts (exec (.vanePpsEdge sec) s) fun t =>
        (∀ x, s.gns.edge = some x → 20000000 < (((e / nominalInc).toNat : Int) - x.2 - 2000000000).natAbs → s.srcEn .vanePps = true →
        s.domOn 2 = true → t.srcGross .vanePps = true)
        ∧ t.gns.edge = some (sec, (e / nominalInc).toNat)
        ∧ t.out = .gnssPps (p / nominalInc) (s.f 0x01800060 23 0) (!s.b 0x01800060 30) :: s.out
        ∧ Frame [.regs, .spn, .monitors, .tiuP, .tiuL, .pps, .ens, .tnd, .gns, .cst, .trace, .faults, .pba, .tally, .mem, .out, .free] s t
        ∧ OnlyRing s t)
  ∧ (∀ (sec : Nat) (e : Int) (s : State), s.inv = true → s.vaneSecond sec = some e → s.spn.ticks < e / nominalInc →
      Nexts (exec (.vanePpsEdge sec) s) fun t =>
        t = s)
  ∧ (∀ (i : Itf) (v : Word) (s : State), s.inv = true → s.serves i 0x01800078 = true → v.bit 0 = true → s.b 0x0180007C 0 = false →
        inScratch (s.rd 0x01800070).toNat (s.rd 0x01800074).toNat = true →
      Nexts (exec (.aidGo i v) s) fun t =>
        t.rd 0x0180007C = 1
        ∧ OnlyRegs [0x0180007C] s t
        ∧ Frame [.regs, .tally] s t)
  ∧ (∀ (s : State), s.inv = true → s.b 0x0180007C 0 = true → s.b 0x02300014 31 = true → s.damaged (s.rd 0x01800070).toNat (s.f 0x01800074 23 0) = none →
      Nexts (exec (.aidDone) s) fun t =>
        t.f 0x0180007C 31 16 = min ((((s.flawsIn (s.rd 0x01800070).toNat (s.f 0x01800074 23 0)).foldl State.eccNote s).granRead 3 (s.rd 0x01800070).toNat (s.f 0x01800074 23 0)).2.aidRun (s.f 0x01800074 23 0) (((s.flawsIn (s.rd 0x01800070).toNat (s.f 0x01800074 23 0)).foldl State.eccNote s).granRead 3 (s.rd 0x01800070).toNat (s.f 0x01800074 23 0)).1 0 0).2.1 0xFFFF
        ∧ t.b 0x0180007C 0 = false
        ∧ t.b 0x0180007C 1 = ((((s.flawsIn (s.rd 0x01800070).toNat (s.f 0x01800074 23 0)).foldl State.eccNote s).granRead 3 (s.rd 0x01800070).toNat (s.f 0x01800074 23 0)).2.aidRun (s.f 0x01800074 23 0) (((s.flawsIn (s.rd 0x01800070).toNat (s.f 0x01800074 23 0)).foldl State.eccNote s).granRead 3 (s.rd 0x01800070).toNat (s.f 0x01800074 23 0)).1 0 0).2.2.isSome
        ∧ t.b Blk.gns.irqOff 4 = true
        ∧ Frame [.regs, .spn, .ens, .tnd, .gns, .cst, .trace, .faults, .pba, .tally, .mem, .out, .free] s t)
  ∧ (∀ (x : Nat) (s : State), s.inv = true → s.b 0x0180007C 0 = true → s.b 0x02300014 31 = true →
        s.damaged (s.rd 0x01800070).toNat (s.f 0x01800074 23 0) = some x →
      Nexts (exec (.aidDone) s) fun t =>
        t.b 0x0180007C 0 = false
        ∧ t.b 0x0180007C 1 = true
        ∧ t.b Blk.gns.irqOff 4 = true
        ∧ Frame [.regs, .spn, .ens, .tnd, .gns, .cst, .trace, .faults, .pba, .tally, .mem, .out, .free] s t)
  ∧ (∀ (s : State), s.inv = true → (s.b 0x0180007C 0 = false ∨ s.b 0x02300014 31 = false) →
      Nexts (exec (.aidDone) s) fun t =>
        t = s)
  ∧ (∀ (s : State), s.inv = true → s.gns.upTick + 120000000000 ≤ s.spn.ticks →
      Nexts (exec (.aidedFirstTimeout) s) fun t =>
        t.gns.aidWait = false
        ∧ Frame [.gns] s t)
  ∧ (∀ (s : State), s.inv = true → s.spn.ticks < s.gns.upTick + 120000000000 →
      Nexts (exec (.aidedFirstTimeout) s) fun t =>
        t = s)
  ∧ (∀ (s : State), s.inv = true → s.domOn 8 = true → s.gns.wake = true →
      Nexts (exec (.gnssWake false) s) fun t =>
        t.gns.wake = false
        ∧ t.gns.hot.items = []
        ∧ t.rd 0x018000A0 = 0xFFFF
        ∧ t.sent Flt.gnsStoreBad 0
        ∧ Frame [.regs, .gns, .cst, .faults, .pba, .tally, .mem, .out] s t)
  ∧ (∀ (s : State), s.inv = true → s.domOn 8 = true → s.gns.wake = true →
      Nexts (exec (.gnssWake true) s) fun t =>
        t.gns.wake = false
        ∧ t.gns.hot = s.gns.hot
        ∧ t.f 0x018000A0 31 30 = s.wakeClass
        ∧ t.f 0x018000A0 23 16 = min (s.storeYoung (14400 * 32768) (fun i => match i with | NavItem.eph .. => true | _ => false)) 255
        ∧ Frame [.regs, .gns, .cst, .faults, .pba, .tally, .mem, .out] s t)

/-- A host write to a lane's control register moves the lane as its bits ask. LP = 1 takes a lane that is on to LP, with PLL_LOCK and ALIGN
clear; LP = 0 takes a lane from LP to LP_EXIT. A lane of a group refuses LP with LAN/CFG_BAD. RESTART takes a failed lane to WAIT_PLL. A
change of TEST takes a lane in TRAIN, ALIGN or LOCKED back to CDR. LAN_GROUP_LP takes the lanes of a group to LP. An eye point in range
starts in a lane that is aligned and scans nothing, with its settings kept; one started while another runs is refused with LAN/CFG_BAD. An
injected error counts while the generator drives the lane. Where these commands rest on choices of the model, log entries 24, 47 name them.
(09_serial_lanes.md, R240; 09_serial_lanes.md, R245; 09_serial_lanes.md, R249; 09_serial_lanes.md, R250; 09_serial_lanes.md, R252.) -/
def Obligations.LaneControlMovesTheLane : Prop :=
  (∀ (i : Itf) (m : Fin 18) (v : Word) (s : State), s.inv = true → s.serves i (lanOff m.val) = true → m.val < 16 → s.laneThere m.val = true →
        s.laneMode m.val ≠ 4 → (v &&& 0xA0000000) = 0xA0000000 → s.laneSt m.val ≠ lOFF → s.laneSt m.val ≠ lLPEXIT →
      Nexts (exec (.laneLpEnter i m v) s) fun t =>
        t.laneSt m.val = lLP
        ∧ t.b (lanOff m.val) 29 = true
        ∧ t.b (lanOff m.val + 4) 1 = false
        ∧ t.b (lanOff m.val + 4) 3 = false
        ∧ Frame [.regs, .heldP, .heldI, .spn, .tiuP, .tiuL, .lanes, .pps, .ens, .tnd, .mac, .pkt, .cst, .pwr, .trace, .faults, .pba, .tally, .mem,
        .out, .free] s t)
  ∧ (∀ (i : Itf) (m : Fin 18) (v : Word) (s : State), s.inv = true → s.serves i (lanOff m.val) = true → s.laneMode m.val = 4 → v.bit 29 = true →
      Nexts (exec (.laneLpEnter i m v) s) fun t =>
        t.sent Flt.lanCfgBad ((lanOff m.val) % 0x10000 * 0x10000)
        ∧ OnlyRegs [Blk.lan.irqOff] s t
        ∧ Frame [.regs, .faults, .pba, .tally, .out] s t)
  ∧ (∀ (i : Itf) (m : Fin 18) (v : Word) (s : State), s.inv = true → s.serves i (lanOff m.val) = true → m.val < 16 → s.laneThere m.val = true →
        s.laneSt m.val = lLP → v.bit 31 = true → v.bit 29 = false →
      Nexts (exec (.laneLpExit i m v) s) fun t =>
        t.laneSt m.val = lLPEXIT
        ∧ t.b (lanOff m.val) 29 = false
        ∧ Frame [.regs, .heldP, .heldI, .spn, .tiuP, .tiuL, .lanes, .pps, .ens, .tnd, .mac, .pkt, .cst, .pwr, .trace, .faults, .pba, .tally, .mem,
        .out, .free] s t)
  ∧ (∀ (i : Itf) (m : Fin 18) (v : Word) (s : State), s.inv = true → s.serves i (lanOff m.val) = true → s.laneThere m.val = true →
        s.laneSt m.val = lFAIL → (v &&& 0xE0000000) = 0xC0000000 → (m.val < 16 ∨ s.b (lanOff m.val) 29 = false) →
      Nexts (exec (.laneRestart i m v) s) fun t =>
        t.laneSt m.val = lWAIT
        ∧ Frame [.regs, .heldP, .heldI, .spn, .tiuP, .tiuL, .lanes, .pps, .ens, .tnd, .mac, .pkt, .cst, .pwr, .trace, .faults, .pba, .tally, .mem,
        .out, .free] s t)
  ∧ (∀ (i : Itf) (m : Fin 18) (v : Word) (s : State), s.inv = true → s.serves i (lanOff m.val) = true → m.val < 16 → s.laneThere m.val = true →
        (v &&& 0xA0000000) = 0x80000000 → 3 ≤ s.laneSt m.val → s.laneSt m.val ≤ 5 → v.bit 27 ≠ s.b (lanOff m.val) 27 →
      Nexts (exec (.laneTestWrite i m v) s) fun t =>
        t.laneSt m.val = lCDR
        ∧ t.b (lanOff m.val) 27 = v.bit 27
        ∧ t.b (lanOff m.val + 4) 0 = false
        ∧ t.b (lanOff m.val + 4) 2 = false
        ∧ Frame [.regs, .heldP, .heldI, .spn, .tiuP, .tiuL, .lanes, .pps, .ens, .tnd, .mac, .pkt, .cst, .pwr, .trace, .faults, .pba, .tally, .mem,
        .out, .free] s t)
  ∧ (∀ (i : Itf) (v : Word) (m : Fin 16) (s : State), s.inv = true → s.serves i 0x0200001C = true → s.laneMode m.val = 4 → s.laneThere m.val = true →
        s.b (lanOff m.val) 31 = true → v.bit (m.val / 4) = true → s.laneSt m.val ≠ lOFF → s.laneSt m.val ≠ lLPEXIT →
      Nexts (exec (.groupLpWrite i v) s) fun t =>
        t.laneSt m.val = lLP
        ∧ t.b (lanOff m.val) 29 = true
        ∧ Frame [.regs, .heldP, .heldI, .spn, .tiuP, .tiuL, .lanes, .pps, .ens, .tnd, .mac, .pkt, .cst, .pwr, .trace, .faults, .pba, .tally, .mem,
        .out, .free] s t)
  ∧ (∀ (i : Itf) (m : Fin 18) (v : Word) (s : State), s.inv = true → s.serves i (lanOff m.val + 0x40) = true →
        (s.laneSt m.val = lALIGN ∨ s.laneSt m.val = lLOCKED) → s.b (lanOff m.val + 0x44) 0 = false → v.bit 31 = true →
        -32 ≤ signedOf 7 (v.field 22 16) → signedOf 7 (v.field 22 16) ≤ 31 → v.field 15 8 ≠ 0x80 → v.field 4 0 ≠ 31 →
      Nexts (exec (.eyeGo i m v) s) fun t =>
        t.rd (lanOff m.val + 0x44) = 1
        ∧ t.f (lanOff m.val + 0x40) 22 16 = v.field 22 16
        ∧ t.f (lanOff m.val + 0x40) 15 8 = v.field 15 8
        ∧ OnlyRegs [lanOff m.val + 0x40, lanOff m.val + 0x44] s t
        ∧ Frame [.regs, .lanes, .tally] s t)
  ∧ (∀ (i : Itf) (m : Fin 18) (v : Word) (s : State), s.inv = true → s.serves i (lanOff m.val + 0x40) = true → v.bit 31 = true →
        s.b (lanOff m.val + 0x44) 0 = true →
      Nexts (exec (.eyeGo i m v) s) fun t =>
        t.sent Flt.lanCfgBad ((lanOff m.val + 0x40) % 0x10000 * 0x10000)
        ∧ OnlyRegs [Blk.lan.irqOff] s t
        ∧ Frame [.regs, .faults, .pba, .tally, .out] s t)
  ∧ (∀ (i : Itf) (m : Fin 18) (v : Word) (s : State), s.inv = true → s.serves i (lanOff m.val + 0x24) = true → m.val < 16 →
        (v &&& 0xE0000000) = 0xE0000000 → v.field 21 16 = 0 → v.field 26 24 < 6 → s.b (lanOff m.val) 27 = true → s.laneSt m.val = lLOCKED →
        s.b (lanOff m.val + 0x24) 31 = false →
      Nexts (exec (.prbsInj i m v) s) fun t =>
        t.rd (lanOff m.val + 0x34) = (if s.rd (lanOff m.val + 0x34) = 0xFFFFFFFF then 0xFFFFFFFF else s.rd (lanOff m.val + 0x34) + 1)
        ∧ t.f (lanOff m.val + 0x24) 26 24 = v.field 26 24
        ∧ OnlyRegs [lanOff m.val + 0x24, lanOff m.val + 0x34, lanOff m.val + 0x38] s t
        ∧ Frame [.regs, .lanes, .tally] s t)

/-- A lane walks from WAIT_PLL to LOCKED and back as its events say. The PLL takes a lane in WAIT_PLL or LP_EXIT to CDR, or straight on to LP
where LP is 1; 2 ms without it take the lane to FAIL with LAN/PLL_FAIL, and before that nothing happens. CDR lock takes the lane to TRAIN,
to ALIGN or, in TEST, to LOCKED. Training ends in ALIGN with the milliseconds that it took, or, when the signal is lost or its wait timer
has expired, fails back to CDR with LAN/TRAIN_FAIL. Alignment enters LOCKED with the measured delays and counts the lock. A loss in LOCKED
goes back to CDR and reports its cause. An INCREMENT of c(0) steps it, and PRESET sets it to 63 and the others to 0. A scan point ends with
its mismatches, no more than its bits; the checker locks on 64 predicted bits and loses lock on 16 bad ones of 64. Where these commands rest
on choices of the model, log entries 5, 24, 28, 47 name them. (09_serial_lanes.md, R240; 09_serial_lanes.md, R241; 09_serial_lanes.md, R242;
09_serial_lanes.md, R243; 09_serial_lanes.md, R245; 09_serial_lanes.md, R248.) -/
def Obligations.LaneStatesFollowTheirEvents : Prop :=
  (∀ (m : Fin 18) (s : State), s.inv = true → (s.laneSt m.val = lWAIT ∨ s.laneSt m.val = lLPEXIT) → s.b (lanOff m.val) 29 = false →
      Nexts (exec (.lanePllReady m) s) fun t =>
        t.laneSt m.val = lCDR
        ∧ t.b (lanOff m.val + 4) 1 = true
        ∧ Frame [.regs, .spn, .tiuP, .tiuL, .lanes, .pps, .ens, .tnd, .mac, .pkt, .cst, .trace, .faults, .pba, .tally, .mem, .out, .free] s t)
  ∧ (∀ (m : Fin 18) (s : State), s.inv = true → (s.laneSt m.val = lWAIT ∨ s.laneSt m.val = lLPEXIT) → s.b (lanOff m.val) 29 = true →
      Nexts (exec (.lanePllReady m) s) fun t =>
        t.laneSt m.val = lLP
        ∧ t.b (lanOff m.val + 4) 1 = false
        ∧ Frame [.regs, .spn, .tiuP, .tiuL, .lanes, .pps, .ens, .tnd, .mac, .pkt, .cst, .trace, .faults, .pba, .tally, .mem, .out, .free] s t)
  ∧ (∀ (m : Fin 18) (s : State), s.inv = true → (s.laneSt m.val = lWAIT ∨ s.laneSt m.val = lLPEXIT) → s.b (lanOff m.val) 29 = false →
        (s.lane m.val).since + 4000000 ≤ s.spn.ticks →
      Nexts (exec (.pllFail m) s) fun t =>
        t.laneSt m.val = lFAIL
        ∧ t.sent Flt.lanPllFail m.val
        ∧ t.b Blk.lan.irqOff 2 = true
        ∧ Frame [.regs, .spn, .tiuP, .tiuL, .lanes, .pps, .ens, .tnd, .mac, .pkt, .cst, .trace, .faults, .pba, .tally, .mem, .out, .free] s t)
  ∧ (∀ (m : Fin 18) (s : State), s.inv = true → s.spn.ticks < (s.lane m.val).since + 4000000 →
      Nexts (exec (.pllFail m) s) fun t =>
        t = s)
  ∧ (∀ (m : Fin 18) (rx tx : Word) (s : State), s.inv = true → s.laneSt m.val = lCDR → s.b (lanOff m.val) 29 = false → s.b (lanOff m.val) 27 = false →
        s.b (lanOff m.val) 28 = true → 2 ≤ s.laneMode m.val → s.laneMode m.val ≤ 4 →
      Nexts (exec (.laneCdrLock m rx tx) s) fun t =>
        t.laneSt m.val = lTRAIN
        ∧ t.b (lanOff m.val + 4) 0 = true
        ∧ t.b (lanOff m.val + 4) 2 = true
        ∧ t.rd (lanOff m.val + 0x0C) = s.rd (lanOff m.val + 8)
        ∧ OnlyRegs [lanOff m.val + 4, lanOff m.val + 0x0C] s t
        ∧ Frame [.regs, .lanes] s t)
  ∧ (∀ (m : Fin 18) (rx tx : Word) (s : State), s.inv = true → s.laneSt m.val = lCDR → s.b (lanOff m.val) 29 = false → s.b (lanOff m.val) 27 = false →
        (s.b (lanOff m.val) 28 = false ∨ s.laneMode m.val < 2 ∨ 4 < s.laneMode m.val) →
      Nexts (exec (.laneCdrLock m rx tx) s) fun t =>
        t.laneSt m.val = lALIGN
        ∧ t.b (lanOff m.val + 4) 4 = false
        ∧ OnlyRegs [lanOff m.val + 4] s t
        ∧ Frame [.regs, .lanes] s t)
  ∧ (∀ (m : Fin 18) (rx tx : Word) (s : State), s.inv = true → s.laneSt m.val = lCDR → s.b (lanOff m.val) 29 = false → s.b (lanOff m.val) 27 = true →
      Nexts (exec (.laneCdrLock m rx tx) s) fun t =>
        t.laneSt m.val = lLOCKED
        ∧ t.rd (lanOff m.val + 0x1C) = rx
        ∧ t.rd (lanOff m.val + 0x20) = tx
        ∧ t.b (lanOff m.val + 4) 3 = false
        ∧ t.sent Flt.lanLocked m.val
        ∧ Frame [.regs, .spn, .tiuP, .tiuL, .lanes, .pps, .ens, .tnd, .mac, .pkt, .cst, .trace, .faults, .pba, .tally, .mem, .out, .free] s t)
  ∧ (∀ (m : Fin 18) (s : State), s.inv = true → s.laneSt m.val = lTRAIN →
      Nexts (exec (.trainDone m) s) fun t =>
        t.laneSt m.val = lALIGN
        ∧ t.b (lanOff m.val + 4) 4 = true
        ∧ t.f (lanOff m.val + 0x10) 15 0 = (s.spn.ticks - (s.lane m.val).since) / 2000000 % 65536
        ∧ t.out = .trainReady m.val :: s.out
        ∧ OnlyRegs [lanOff m.val + 4, lanOff m.val + 0x10] s t
        ∧ Frame [.regs, .lanes, .out] s t)
  ∧ (∀ (m : Fin 18) (signal : Bool) (s : State), s.inv = true → s.laneSt m.val = lTRAIN →
        (signal = true ∨ (s.lane m.val).since + s.trainWait m.val ≤ s.spn.ticks) →
      Nexts (exec (.trainFail m signal) s) fun t =>
        t.laneSt m.val = lCDR
        ∧ t.f (lanOff m.val + 0x10) 31 16 = (s.f (lanOff m.val + 0x10) 31 16 + 1) % 65536
        ∧ t.sent Flt.lanTrainFail m.val
        ∧ t.b Blk.lan.irqOff 2 = true
        ∧ Frame [.regs, .spn, .tiuP, .tiuL, .lanes, .pps, .ens, .tnd, .mac, .pkt, .cst, .trace, .faults, .pba, .tally, .mem, .out, .free] s t)
  ∧ (∀ (m : Fin 18) (s : State), s.inv = true → s.spn.ticks < (s.lane m.val).since + s.trainWait m.val →
      Nexts (exec (.trainFail m false) s) fun t =>
        t = s)
  ∧ (∀ (m : Fin 18) (rx tx : Word) (s : State), s.inv = true → s.laneSt m.val = lALIGN → s.b (lanOff m.val) 29 = false →
      Nexts (exec (.laneAlignLock m rx tx) s) fun t =>
        t.laneSt m.val = lLOCKED
        ∧ t.rd (lanOff m.val + 0x1C) = rx
        ∧ t.rd (lanOff m.val + 0x20) = tx
        ∧ t.rd (lanOff m.val + 0x18) = s.rd (lanOff m.val + 0x18) + 1
        ∧ t.b 0x02000018 m.val = true
        ∧ t.sent Flt.lanLocked m.val
        ∧ Frame [.regs, .spn, .tiuP, .tiuL, .lanes, .pps, .ens, .tnd, .mac, .pkt, .cst, .trace, .faults, .pba, .tally, .mem, .out, .free] s t)
  ∧ (∀ (m : Fin 18) (cause : LossCause) (eye : Nat) (s : State), s.inv = true → s.laneSt m.val = lLOCKED →
      Nexts (exec (.lockLost m cause eye) s) fun t =>
        t.laneSt m.val = lCDR
        ∧ t.f (lanOff m.val + 0x14) 15 0 = min (s.f (lanOff m.val + 0x14) 15 0 + 1) 0xFFFF
        ∧ t.b 0x02000018 m.val = true
        ∧ t.b (lanOff m.val + 4) 0 = decide (cause ≠ .signal)
        ∧ t.sent Flt.lanLockLost ((match cause with | .signal => 1 | .cdr => 2 | .alignment => 3) * 32 + m.val)
        ∧ Frame [.regs, .spn, .tiuP, .tiuL, .lanes, .pps, .ens, .tnd, .mac, .pkt, .cst, .trace, .faults, .pba, .tally, .mem, .out, .free] s t)
  ∧ (∀ (m : Fin 18) (s : State), s.inv = true → s.laneSt m.val = lTRAIN → (s.f (lanOff m.val + 0x0C) 13 8) < 62 → 20 ≤ (s.f (lanOff m.val + 0x0C) 13 8) →
        s.f (lanOff m.val + 0x0C) 3 0 + (s.f (lanOff m.val + 0x0C) 13 8) + s.f (lanOff m.val + 0x0C) 20 16 < 63 →
      Nexts (exec (.coefficientUpdate m (.increment 1) true none) s) fun t =>
        t.f (lanOff m.val + 0x0C) 13 8 = (s.f (lanOff m.val + 0x0C) 13 8) + 1
        ∧ t.f (lanOff m.val + 0x0C) 3 0 = s.f (lanOff m.val + 0x0C) 3 0
        ∧ t.f (lanOff m.val + 0x0C) 20 16 = s.f (lanOff m.val + 0x0C) 20 16
        ∧ t.out = .train m.val 1 1 :: s.out
        ∧ OnlyRegs [lanOff m.val + 0x0C] s t
        ∧ Frame [.regs, .lanes, .out] s t)
  ∧ (∀ (m : Fin 18) (s : State), s.inv = true → s.laneSt m.val = lTRAIN →
      Nexts (exec (.coefficientUpdate m .preset true none) s) fun t =>
        t.f (lanOff m.val + 0x0C) 13 8 = 63
        ∧ t.f (lanOff m.val + 0x0C) 3 0 = 0
        ∧ t.f (lanOff m.val + 0x0C) 20 16 = 0
        ∧ t.out = .train m.val 2 3 :: .train m.val 1 3 :: .train m.val 0 3 :: s.out
        ∧ OnlyRegs [lanOff m.val + 0x0C] s t
        ∧ Frame [.regs, .lanes, .out] s t)
  ∧ (∀ (m : Fin 18) (errs n : Nat) (s : State), s.inv = true → s.b (lanOff m.val + 0x44) 0 = true → n = 2 ^ (s.f (lanOff m.val + 0x40) 4 0 + 10) →
        n ≤ bitsAt (s.laneRate m.val) s.spn.ticks - bitsAt (s.laneRate m.val) (s.lane m.val).eyeTick →
      Nexts (exec (.eyePointDone m errs) s) fun t =>
        t.rd (lanOff m.val + 0x48) = BitVec.ofNat 32 (min (min n errs) 0xFFFFFFFF)
        ∧ t.b (lanOff m.val + 0x44) 0 = false
        ∧ t.b (lanOff m.val + 0x44) 1 = true
        ∧ t.b Blk.lan.irqOff 3 = true
        ∧ OnlyRegs [lanOff m.val + 0x44, lanOff m.val + 0x48, Blk.lan.irqOff] s t
        ∧ Frame [.regs, .pba, .out] s t)
  ∧ (∀ (m : Fin 18) (rx : List Bool) (s : State), s.inv = true → s.chkRuns m.val = true → s.laneSt m.val = lLOCKED →
        prbsPredicted (prbsPoly (s.f (lanOff m.val + 0x24) 26 24)).1 (prbsPoly (s.f (lanOff m.val + 0x24) 26 24)).2 rx = true →
      Nexts (exec (.prbsChkLock m rx) s) fun t =>
        t.b (lanOff m.val + 0x38) 0 = true
        ∧ OnlyRegs [lanOff m.val + 0x38] s t
        ∧ Frame [.regs, .lanes] s t)
  ∧ (∀ (m : Fin 18) (errs : Nat) (window : BitVec 64) (s : State), s.inv = true → s.b (lanOff m.val + 0x38) 0 = true → 16 ≤ popCount window.toNat →
      Nexts (exec (.prbsLockLost m errs window) s) fun t =>
        t.b (lanOff m.val + 0x38) 0 = false
        ∧ t.f (lanOff m.val + 0x38) 31 16 = min (s.f (lanOff m.val + 0x38) 31 16 + 1) 0xFFFF
        ∧ t.sent Flt.lanPrbsLockLost m.val
        ∧ t.b Blk.lan.irqOff 1 = true
        ∧ OnlyRegs [lanOff m.val + 0x38, Blk.lan.irqOff] s t
        ∧ Frame [.regs, .lanes, .faults, .pba, .out, .free] s t)

/-- A port goes through deskew and calibration to UP, and down again. Deskew within 180 ns keeps the skews of the lanes, reports the largest and
calibrates; with more skew than that nothing happens. A deskew that takes 10 ms is reported once. The end of calibration takes a port of one
lane to UP with its delays, its calibration uncertainty, its bit of the link-change register and MAC/LINK_UP. The loss of alignment lock
takes a group port that is UP down with cause 2, and, its lanes still being LOCKED, to DESKEW again. In the 64b/66b modes the received link
faults are followed, and the port transmits remote fault for local fault and idle for remote fault. Where these commands rest on choices of
the model, log entries 5, 25, 48, 58 name them. (10_ethernet_ports_and_timestamping.md, R256; 10_ethernet_ports_and_timestamping.md, R257;
10_ethernet_ports_and_timestamping.md, R258; 10_ethernet_ports_and_timestamping.md, R269; 10_ethernet_ports_and_timestamping.md, R270.) -/
def Obligations.PortsComeUpAndGoDown : Prop :=
  (∀ (p : Fin 16) (k1 k2 k3 : Word) (s : State), s.inv = true → s.portSt p.val = pDESKEW → s.portLocked p.val = true → skewsOk ([0,
        signedOf 32 k1.toNat, signedOf 32 k2.toNat, signedOf 32 k3.toNat] : List Int) = true →
      Nexts (exec (.deskewDone p k1 k2 k3) s) fun t =>
        t.portSt p.val = pCAL
        ∧ (t.port p.val).skews = ([0, signedOf 32 k1.toNat, signedOf 32 k2.toNat, signedOf 32 k3.toNat] : List Int)
        ∧ t.rd (macOff p.val + 0x34) = BitVec.ofNat 32 (([0, signedOf 32 k1.toNat, signedOf 32 k2.toNat,
        signedOf 32 k3.toNat] : List Int).foldl (fun m k => max m k.natAbs) 0)
        ∧ OnlyRegs [macOff p.val + 0x34, macOff p.val + 4] s t
        ∧ Frame [.regs, .mac] s t)
  ∧ (∀ (p : Fin 16) (k1 k2 k3 : Word) (s : State), s.inv = true → skewsOk ([0, signedOf 32 k1.toNat, signedOf 32 k2.toNat,
        signedOf 32 k3.toNat] : List Int) = false →
      Nexts (exec (.deskewDone p k1 k2 k3) s) fun t =>
        t = s)
  ∧ (∀ (p : Fin 16) (s : State), s.inv = true → s.portSt p.val = pDESKEW → (s.port p.val).deskewFail = false →
        (s.port p.val).deskewAt + 20000000 ≤ s.spn.ticks →
      Nexts (exec (.deskewFail p) s) fun t =>
        t.portSt p.val = pDESKEW
        ∧ (t.port p.val).deskewFail = true
        ∧ t.sent Flt.macDeskewFail p.val
        ∧ Frame [.mac, .faults] s t)
  ∧ (∀ (p : Fin 16) (s : State), s.inv = true → s.portSt p.val = pCAL → s.portLocked p.val = true → s.isGroup p.val = false →
      Nexts (exec (.linkUp p) s) fun t =>
        t.portSt p.val = pUP
        ∧ t.b 0x02100018 p.val = true
        ∧ t.sent Flt.macLinkUp p.val
        ∧ t.rd (macOff p.val + 0x20) = s.rd (lanOff p.val + 0x1C) + BitVec.ofNat 32 (pcsFixed (s.portMode p.val) false)
        ∧ t.rd (macOff p.val + 0x24) = s.rd (lanOff p.val + 0x20) + BitVec.ofNat 32 (pcsFixed (s.portMode p.val) true)
        ∧ t.rd (macOff p.val + 0x30) = BitVec.ofNat 32 (calU (s.portMode p.val))
        ∧ Frame [.regs, .mac, .pkt, .faults, .pba, .tally, .mem, .out] s t)
  ∧ (∀ (p : Fin 16) (s : State), s.inv = true → s.portSt p.val = pUP → s.isGroup p.val = true → s.b (macOff p.val) 31 = true →
        s.b 0x02100000 p.val = true → s.domOn 7 = true → s.portTest p.val = false → s.portLocked p.val = true →
      Nexts (exec (.alignmentLockLoss p) s) fun t =>
        t.portSt p.val = pDESKEW
        ∧ t.rd (macOff p.val + 0x30) = 0xFFFFFFFF
        ∧ t.b 0x02100018 p.val = true
        ∧ t.sent Flt.macLinkDown (32 + p.val)
        ∧ Frame [.regs, .spn, .ens, .tnd, .mac, .pkt, .cst, .trace, .faults, .pba, .tally, .mem, .out, .free] s t)
  ∧ (∀ (p : Fin 16) (s : State), s.inv = true → s.portSt p.val = pCAL → s.isGroup p.val = true → s.b (macOff p.val) 31 = true →
        s.b 0x02100000 p.val = true → s.domOn 7 = true → s.portTest p.val = false → s.portLocked p.val = false →
      Nexts (exec (.alignmentLockLoss p) s) fun t =>
        t.portSt p.val = pDOWN
        ∧ OnlyRegs [macOff p.val + 4] s t
        ∧ Frame [.regs, .mac] s t)
  ∧ (∀ (p : Fin 16) (lf rf : Bool) (s : State), s.inv = true → s.portSt p.val = pUP → 2 ≤ s.portMode p.val → lf ≠ s.b (macOff p.val + 4) 27 →
      Nexts (exec (.linkFaultReceived p lf rf) s) fun t =>
        t.b (macOff p.val + 4) 27 = lf
        ∧ t.b (macOff p.val + 4) 26 = rf
        ∧ t.portSt p.val = pUP
        ∧ t.out = .linkSignal p.val (if lf then some .remoteFault else if rf then some .idle else none) :: s.out
        ∧ OnlyRegs [macOff p.val + 4] s t
        ∧ Frame [.regs, .out] s t)

/-- A received frame is checked in order, counted, and stored whole or consumed. A frame with a wrong FCS, with a code error or an uncorrectable
codeword, of too few or too many bytes, or for another address is discarded and counted in its own counter. One that passes is stored in the
receive FIFO with its timestamp, and counted with its bytes; one that the FIFO does not hold is dropped whole, counted and reported. A PAUSE
frame to the port pauses it for its time, is counted and not stored; the pause ends when its time is over, or is broken by the watchdog, and
not before; PAUSE frames are heeded again after the hold-off. An ESMC PDU that is due is queued, and five seconds of ESMC silence give the
candidate of the lane the quality 15. Where these commands rest on choices of the model, log entries 25, 28, 48 name them.
(10_ethernet_ports_and_timestamping.md, R259; 10_ethernet_ports_and_timestamping.md, R260; 10_ethernet_ports_and_timestamping.md, R266;
10_ethernet_ports_and_timestamping.md, R267; 10_ethernet_ports_and_timestamping.md, R276; 10_ethernet_ports_and_timestamping.md, R277;
10_ethernet_ports_and_timestamping.md, R278.) -/
def Obligations.FramesAreCheckedAndStored : Prop :=
  (∀ (p : Fin 16) (x : RxFrame) (s : State), s.inv = true → s.portSt p.val = pUP →
        crc32 (x.bytes.take (x.bytes.length - 4)) ≠ leNat (x.bytes.drop (x.bytes.length - 4)) →
      Nexts (exec (.frameReceive p x) s) fun t =>
        t.rd64 (macOff p.val + 0x100 + 16) = min (2 ^ 48 - 1) (s.rd64 (macOff p.val + 0x100 + 16) % 2 ^ 48 + 1)
        ∧ (t.port p.val).fifo = (s.port p.val).fifo
        ∧ OnlyRegs [macOff p.val + 0x100 + 144, macOff p.val + 0x100 + 148, macOff p.val + 0x100 + 152, macOff p.val + 0x100 + 156,
        macOff p.val + 0x100 + 16, macOff p.val + 0x100 + 20] s t
        ∧ Frame [.regs, .tiuL, .mac, .tally] s t)
  ∧ (∀ (p : Fin 16) (x : RxFrame) (b : List Byte) (s : State), s.inv = true → s.portSt p.val = pUP → x.bytes = b ++ leBytes 4 (crc32 b) →
        (x.codeErr = true ∨ 0 < x.uncorr) →
      Nexts (exec (.frameReceive p x) s) fun t =>
        t.rd64 (macOff p.val + 0x100 + 24) = min (2 ^ 48 - 1) (s.rd64 (macOff p.val + 0x100 + 24) % 2 ^ 48 + 1)
        ∧ (t.port p.val).fifo = (s.port p.val).fifo
        ∧ OnlyRegs [macOff p.val + 0x100 + 144, macOff p.val + 0x100 + 148, macOff p.val + 0x100 + 152, macOff p.val + 0x100 + 156,
        macOff p.val + 0x100 + 24, macOff p.val + 0x100 + 28] s t
        ∧ Frame [.regs, .tiuL, .mac, .tally] s t)
  ∧ (∀ (p : Fin 16) (x : RxFrame) (b : List Byte) (s : State), s.inv = true → s.portSt p.val = pUP → x.bytes = b ++ leBytes 4 (crc32 b) →
        x.codeErr = false → x.uncorr = 0 → b.length < 60 →
      Nexts (exec (.frameReceive p x) s) fun t =>
        t.rd64 (macOff p.val + 0x100 + 32) = min (2 ^ 48 - 1) (s.rd64 (macOff p.val + 0x100 + 32) % 2 ^ 48 + 1)
        ∧ (t.port p.val).fifo = (s.port p.val).fifo
        ∧ OnlyRegs [macOff p.val + 0x100 + 144, macOff p.val + 0x100 + 148, macOff p.val + 0x100 + 152, macOff p.val + 0x100 + 156,
        macOff p.val + 0x100 + 32, macOff p.val + 0x100 + 36] s t
        ∧ Frame [.regs, .tiuL, .mac, .tally] s t)
  ∧ (∀ (p : Fin 16) (x : RxFrame) (b : List Byte) (s : State), s.inv = true → s.portSt p.val = pUP → x.bytes = b ++ leBytes 4 (crc32 b) →
        x.codeErr = false → x.uncorr = 0 → 60 ≤ b.length → s.f (macOff p.val) 13 0 < b.length + 4 →
      Nexts (exec (.frameReceive p x) s) fun t =>
        t.rd64 (macOff p.val + 0x100 + 40) = min (2 ^ 48 - 1) (s.rd64 (macOff p.val + 0x100 + 40) % 2 ^ 48 + 1)
        ∧ (t.port p.val).fifo = (s.port p.val).fifo
        ∧ OnlyRegs [macOff p.val + 0x100 + 144, macOff p.val + 0x100 + 148, macOff p.val + 0x100 + 152, macOff p.val + 0x100 + 156,
        macOff p.val + 0x100 + 40, macOff p.val + 0x100 + 44] s t
        ∧ Frame [.regs, .tiuL, .mac, .tally] s t)
  ∧ (∀ (p : Fin 16) (x : RxFrame) (b : List Byte) (s : State), s.inv = true → s.portSt p.val = pUP → x.bytes = b ++ leBytes 4 (crc32 b) →
        x.codeErr = false → x.uncorr = 0 → 60 ≤ b.length → b.length + 4 ≤ s.f (macOff p.val) 13 0 → beAt b 12 2 ≠ 0x8808 → beAt b 12 2 ≠ 0x8809 →
        s.macFilter p.val (slice b 0 6) = false →
      Nexts (exec (.frameReceive p x) s) fun t =>
        t.rd64 (macOff p.val + 0x100 + 48) = min (2 ^ 48 - 1) (s.rd64 (macOff p.val + 0x100 + 48) % 2 ^ 48 + 1)
        ∧ (t.port p.val).fifo = (s.port p.val).fifo
        ∧ OnlyRegs [macOff p.val + 0x100 + 144, macOff p.val + 0x100 + 148, macOff p.val + 0x100 + 152, macOff p.val + 0x100 + 156,
        macOff p.val + 0x100 + 48, macOff p.val + 0x100 + 52] s t
        ∧ Frame [.regs, .tiuL, .mac, .tally] s t)
  ∧ (∀ (p : Fin 16) (x : RxFrame) (b : List Byte) (s : State), s.inv = true → s.portSt p.val = pUP → x.bytes = b ++ leBytes 4 (crc32 b) →
        x.codeErr = false → x.uncorr = 0 → 60 ≤ b.length → b.length + 4 ≤ s.f (macOff p.val) 13 0 → beAt b 12 2 ≠ 0x8808 → beAt b 12 2 ≠ 0x8809 →
        s.macFilter p.val (slice b 0 6) = true → s.fifoUse p.val + b.length ≤ s.fifoSize p.val →
      Nexts (exec (.frameReceive p x) s) fun t =>
        (t.port p.val).fifo = (s.port p.val).fifo ++ [⟨b, if (s.unit (.lane ⟨p.val, by omega⟩)).stampRx.bluta = [] then 0 else s.rxTime p.val (s.unit (.lane ⟨p.val, by omega⟩)).stampRx.t (s.startDelay p.val false x.start), (s.unit (.lane ⟨p.val, by omega⟩)).stampRx.p, (s.unit (.lane ⟨p.val, by omega⟩)).stampRx.bluta, (s.unit (.lane ⟨p.val, by omega⟩)).stampRx.cap⟩]
        ∧ t.rd64 (macOff p.val + 0x100 + 0) = min (2 ^ 48 - 1) (s.rd64 (macOff p.val + 0x100 + 0) % 2 ^ 48 + 1)
        ∧ t.rd64 (macOff p.val + 0x100 + 8) = min (2 ^ 48 - 1) (s.rd64 (macOff p.val + 0x100 + 8) % 2 ^ 48 + (b.length + 4))
        ∧ OnlyRegs [macOff p.val + 0x100 + 144, macOff p.val + 0x100 + 148, macOff p.val + 0x100 + 152, macOff p.val + 0x100 + 156,
        macOff p.val + 0x100 + 0, macOff p.val + 0x100 + 4, macOff p.val + 0x100 + 8, macOff p.val + 0x100 + 12] s t
        ∧ Frame [.regs, .tiuL, .mac, .tally] s t)
  ∧ (∀ (p : Fin 16) (x : RxFrame) (b : List Byte) (s : State), s.inv = true → s.portSt p.val = pUP → x.bytes = b ++ leBytes 4 (crc32 b) →
        x.codeErr = false → x.uncorr = 0 → 60 ≤ b.length → b.length + 4 ≤ s.f (macOff p.val) 13 0 → beAt b 12 2 ≠ 0x8808 → beAt b 12 2 ≠ 0x8809 →
        s.macFilter p.val (slice b 0 6) = true → s.fifoSize p.val < s.fifoUse p.val + b.length → (s.port p.val).fifoRun = false →
      Nexts (exec (.frameReceive p x) s) fun t =>
        (t.port p.val).fifo = (s.port p.val).fifo
        ∧ t.rd64 (macOff p.val + 0x100 + 56) = min (2 ^ 48 - 1) (s.rd64 (macOff p.val + 0x100 + 56) % 2 ^ 48 + 1)
        ∧ t.sent Flt.macFifoDrop p.val
        ∧ OnlyRegs [macOff p.val + 0x100 + 144, macOff p.val + 0x100 + 148, macOff p.val + 0x100 + 152, macOff p.val + 0x100 + 156,
        macOff p.val + 0x100 + 56, macOff p.val + 0x100 + 60, Blk.mac.irqOff] s t
        ∧ Frame [.regs, .tiuL, .mac, .faults, .pba, .tally, .out] s t)
  ∧ (∀ (p : Fin 16) (x : RxFrame) (b : List Byte) (s : State), s.inv = true → s.portSt p.val = pUP → x.bytes = b ++ leBytes 4 (crc32 b) →
        x.codeErr = false → x.uncorr = 0 → 60 ≤ b.length → b.length + 4 ≤ s.f (macOff p.val) 13 0 → beAt b 12 2 = 0x8808 → beAt b 14 2 = 1 →
        slice b 0 6 = s.macReg (macOff p.val + 8) → s.b (macOff p.val) 30 = false → (s.port p.val).ignoring = false → beAt b 16 2 ≠ 0 →
      Nexts (exec (.frameReceive p x) s) fun t =>
        t.b (macOff p.val + 4) 28 = true
        ∧ t.rd64 (macOff p.val + 0x100 + 72) = min (2 ^ 48 - 1) (s.rd64 (macOff p.val + 0x100 + 72) % 2 ^ 48 + 1)
        ∧ (t.port p.val).pauseTo = s.spn.ticks + beAt b 16 2 * s.quantum p.val / 50
        ∧ (t.port p.val).fifo = (s.port p.val).fifo
        ∧ OnlyRegs [macOff p.val + 0x100 + 144, macOff p.val + 0x100 + 148, macOff p.val + 0x100 + 152, macOff p.val + 0x100 + 156,
        macOff p.val + 0x100 + 72, macOff p.val + 0x100 + 76, macOff p.val + 4, macOff p.val + 0x14] s t
        ∧ Frame [.regs, .tiuL, .mac, .tally] s t)
  ∧ (∀ (p : Fin 16) (s : State), s.inv = true → s.b (macOff p.val + 4) 28 = true → s.portSt p.val = pUP → (s.port p.val).pauseTo ≤ s.spn.ticks →
      Nexts (exec (.pauseExpire p) s) fun t =>
        t.b (macOff p.val + 4) 28 = false
        ∧ t.rd (macOff p.val + 0x14) = 0
        ∧ t.rd64 (macOff p.val + 0x100 + 112) = min (2 ^ 48 - 1) (s.rd64 (macOff p.val + 0x100 + 112) % 2 ^ 48 + ((s.port p.val).pauseTo - (s.port p.val).pauseFrom) / 2)
        ∧ OnlyRegs [macOff p.val + 4, macOff p.val + 0x14, macOff p.val + 0x100 + 112, macOff p.val + 0x100 + 116] s t
        ∧ Frame [.regs, .mac] s t)
  ∧ (∀ (p : Fin 16) (s : State), s.inv = true → s.b (macOff p.val + 4) 28 = true → s.portSt p.val = pUP → s.f (macOff p.val + 0x10) 15 0 ≠ 0 →
        (s.port p.val).pauseFrom + s.f (macOff p.val + 0x10) 15 0 * 2000 < s.spn.ticks →
        (s.port p.val).pauseFrom + s.f (macOff p.val + 0x10) 15 0 * 2000 < (s.port p.val).pauseTo →
      Nexts (exec (.pauseWd p) s) fun t =>
        t.b (macOff p.val + 4) 28 = false
        ∧ (t.port p.val).ignoring = true
        ∧ t.rd64 (macOff p.val + 0x100 + 112) = min (2 ^ 48 - 1) (s.rd64 (macOff p.val + 0x100 + 112) % 2 ^ 48 + s.f (macOff p.val + 0x10) 15 0 * 1000)
        ∧ t.rd64 (macOff p.val + 0x100 + 160) = min (2 ^ 48 - 1) (s.rd64 (macOff p.val + 0x100 + 160) % 2 ^ 48 + 1)
        ∧ t.sent Flt.macPauseWd p.val
        ∧ OnlyRegs [macOff p.val + 4, macOff p.val + 0x14, Blk.mac.irqOff, macOff p.val + 0x100 + 112, macOff p.val + 0x100 + 116,
        macOff p.val + 0x100 + 160, macOff p.val + 0x100 + 164] s t
        ∧ Frame [.regs, .mac, .faults, .pba, .out] s t)
  ∧ (∀ (p : Fin 16) (s : State), s.inv = true →
        (s.f (macOff p.val + 0x10) 15 0 = 0 ∨ s.spn.ticks ≤ (s.port p.val).pauseFrom + s.f (macOff p.val + 0x10) 15 0 * 2000) →
      Nexts (exec (.pauseWd p) s) fun t =>
        t = s)
  ∧ (∀ (p : Fin 16) (s : State), s.inv = true → (s.port p.val).pauseLast + s.f (macOff p.val + 0x10) 31 24 * 2000000 ≤ s.spn.ticks →
      Nexts (exec (.pauseHoldoffEnd p) s) fun t =>
        (t.port p.val).ignoring = false
        ∧ Frame [.mac] s t)
  ∧ (∀ (p : Fin 16) (event : Bool) (s : State), s.inv = true → s.b (macOff p.val + 0x40) 31 = true → s.portSt p.val = pUP → s.esmcDue p.val event = true →
      Nexts (exec (.esmcTx p event) s) fun t =>
        (t.port p.val).esmc = (s.port p.val).esmc ++ [{ body := .raw (s.esmcPdu p.val event), esmc := true }]
        ∧ (t.port p.val).sentQ = some (s.esmcQuality p.val)
        ∧ Frame [.mac] s t)
  ∧ (∀ (p : Fin 16) (s : State), s.inv = true → s.isGroup p.val = false → s.esmcSilent p.val = true →
      Nexts (exec (.esmcTimeout p) s) fun t =>
        t.f (cStat (8 + p.val)) 19 16 = 15
        ∧ Frame [.regs, .spn, .ens, .tnd, .cst, .trace, .faults, .pba, .tally, .mem, .out, .free] s t
        ∧ OnlyRing s t)

/-- The rings of a port deliver, post and fetch frames. A frame for the host that fits one posted descriptor is written to its buffer and
written back, and leaves the path with RX_HEAD past the descriptor; where the ring is disabled or halted it is dropped with the counter and
the event; a PCIe error on the write of its buffer halts the ring. Tail writes are kept. A reset returns the indices to 0 and clears the
halt and, for transmit, discards the frames not started. A frame of one descriptor is fetched into the queue with what its descriptor asks
for; an error response to the read of the descriptor halts the ring, and no frame of it is written back. Where these commands rest on
choices of the model, log entries 25, 48 name them. (10_ethernet_ports_and_timestamping.md, R261; 10_ethernet_ports_and_timestamping.md,
R262; 10_ethernet_ports_and_timestamping.md, R263; 10_ethernet_ports_and_timestamping.md, R264; 10_ethernet_ports_and_timestamping.md,
R265.) -/
def Obligations.RingsMoveFramesBetweenHostAndPort : Prop :=
  (∀ (p : Fin 16) (d : List Byte) (h : HostFrame) (r : List HostFrame) (s : State), s.inv = true → s.domOn 7 = true → (s.port p.val).host = h :: r →
        s.b (macOff p.val + 0x94) 31 = true → s.b (macOff p.val + 0xB8) 0 = false → s.f (macOff p.val + 0x8C) 15 0 ≠ s.f (macOff p.val + 0x90) 15 0 →
        leNat (slice d 8 2) % 64 = 0 → 64 ≤ leNat (slice d 8 2) → leNat (slice d 8 2) ≤ 16320 → h.f.bytes.length ≤ leNat (slice d 8 2) →
      Nexts (exec (.hostRingDeliver p [some d] none) s) fun t =>
        (t.port p.val).host = r
        ∧ t.f (macOff p.val + 0x8C) 15 0 = ((s.f (macOff p.val + 0x8C) 15 0 + 1) % s.f (macOff p.val + 0x88) 16 0) % 65536
        ∧ t.out = .hostWrite (s.rxDesc p.val (s.f (macOff p.val + 0x8C) 15 0)) (s.rxDescBytes p.val h true true h.f.bytes.length) :: .hostWrite (leNat (slice d 0 8)) (h.f.bytes.take (leNat (slice d 8 2))) :: .hostRead (s.rxDesc p.val (s.f (macOff p.val + 0x8C) 15 0)) 32 :: s.out
        ∧ OnlyRegs [macOff p.val + 0x8C] s t
        ∧ Frame [.regs, .mac, .tally, .out] s t)
  ∧ (∀ (p : Fin 16) (descs : List (Option (List Byte))) (bad : Option RingWrite) (h : HostFrame) (r : List HostFrame) (s : State), s.inv = true →
        s.domOn 7 = true → (s.port p.val).host = h :: r → s.portSt p.val ≠ pOFF →
        (s.b (macOff p.val + 0x94) 31 = false ∨ s.b (macOff p.val + 0xB8) 0 = true) → (s.port p.val).ringRun = false →
      Nexts (exec (.hostRingDeliver p descs bad) s) fun t =>
        (t.port p.val).host = r
        ∧ t.rd64 (macOff p.val + 0x100 + 64) = min (2 ^ 48 - 1) (s.rd64 (macOff p.val + 0x100 + 64) % 2 ^ 48 + 1)
        ∧ t.sent Flt.macRingDrop p.val
        ∧ t.b Blk.mac.irqOff 4 = true
        ∧ OnlyRegs [macOff p.val + 0x100 + 64, macOff p.val + 0x100 + 68, Blk.mac.irqOff] s t
        ∧ Frame [.regs, .mac, .faults, .pba, .tally, .out] s t)
  ∧ (∀ (p : Fin 16) (d : List Byte) (h : HostFrame) (r : List HostFrame) (s : State), s.inv = true → s.domOn 7 = true → s.portSt p.val = pUP →
        (s.port p.val).host = h :: r → s.b (macOff p.val + 0x94) 31 = true → s.b (macOff p.val + 0xB8) 0 = false →
        s.f (macOff p.val + 0x8C) 15 0 ≠ s.f (macOff p.val + 0x90) 15 0 → leNat (slice d 8 2) % 64 = 0 → 64 ≤ leNat (slice d 8 2) →
        leNat (slice d 8 2) ≤ 16320 →
      Nexts (exec (.hostRingDeliver p [some d] (some (.buffer 0))) s) fun t =>
        t.b (macOff p.val + 0xB8) 0 = true
        ∧ (t.port p.val).host = r
        ∧ t.rd64 (macOff p.val + 0x100 + 64) = min (2 ^ 48 - 1) (s.rd64 (macOff p.val + 0x100 + 64) % 2 ^ 48 + 1)
        ∧ t.f (macOff p.val + 0x8C) 15 0 = s.f (macOff p.val + 0x8C) 15 0
        ∧ t.sent Flt.macRingErr (s.f (macOff p.val + 0x8C) 15 0 * 65536 + p.val)
        ∧ Frame [.regs, .mac, .faults, .pba, .tally, .out] s t)
  ∧ (∀ (i : Itf) (p : Fin 16) (v : Word) (s : State), s.inv = true → s.serves i (macOff p.val + 0x90) = true →
      Nexts (exec (.rxTailWrite i p v) s) fun t =>
        t.f (macOff p.val + 0x90) 15 0 = v.field 15 0
        ∧ OnlyRegs [macOff p.val + 0x90] s t
        ∧ Frame [.regs, .tally] s t)
  ∧ (∀ (i : Itf) (p : Fin 16) (v : Word) (s : State), s.inv = true → s.serves i (macOff p.val + 0x94) = true → v.bit 30 = true →
      Nexts (exec (.rxRingReset i p v) s) fun t =>
        t.f (macOff p.val + 0x8C) 15 0 = 0
        ∧ t.f (macOff p.val + 0x90) 15 0 = 0
        ∧ t.b (macOff p.val + 0xB8) 0 = false
        ∧ t.b (macOff p.val + 0x94) 31 = v.bit 31
        ∧ OnlyRegs [macOff p.val + 0x8C, macOff p.val + 0x90, macOff p.val + 0x94, macOff p.val + 0xB8] s t
        ∧ Frame [.regs, .tally] s t)
  ∧ (∀ (i : Itf) (p : Fin 16) (v : Word) (s : State), s.inv = true → s.serves i (macOff p.val + 0xB0) = true →
      Nexts (exec (.txTailWrite i p v) s) fun t =>
        t.f (macOff p.val + 0xB0) 15 0 = v.field 15 0
        ∧ OnlyRegs [macOff p.val + 0xB0] s t
        ∧ Frame [.regs, .tally] s t)
  ∧ (∀ (i : Itf) (p : Fin 16) (v : Word) (s : State), s.inv = true → s.serves i (macOff p.val + 0xB4) = true → v.bit 30 = true →
        (s.port p.val).back = [] →
      Nexts (exec (.txRingReset i p v) s) fun t =>
        t.f (macOff p.val + 0xAC) 15 0 = 0
        ∧ t.f (macOff p.val + 0xB0) 15 0 = 0
        ∧ t.b (macOff p.val + 0xB8) 1 = false
        ∧ (t.port p.val).ring = []
        ∧ (t.port p.val).cur = (s.port p.val).cur
        ∧ OnlyRegs [macOff p.val + 0xAC, macOff p.val + 0xB0, macOff p.val + 0xB4, macOff p.val + 0xB8] s t
        ∧ Frame [.regs, .mac, .tally] s t)
  ∧ (∀ (p : Fin 16) (d b : List Byte) (bad : Option Nat) (k : Nat) (s : State), s.inv = true → (s.port p.val).back = [] → s.domOn 7 = true →
        s.b (macOff p.val + 0xB4) 31 = true → s.b (macOff p.val + 0xB8) 1 = false → s.f (macOff p.val + 0xA8) 16 0 ≠ 0 →
        (s.f (macOff p.val + 0xB0) 15 0 + s.f (macOff p.val + 0xA8) 16 0 - s.f (macOff p.val + 0xAC) 15 0) % s.f (macOff p.val + 0xA8) 16 0 = k + 1 →
        byteAt d 30 % 4 = 3 → byteAt d 30 / 4 % 2 = 0 → (b.take (leNat (slice d 8 2))).length + 4 ≤ s.f (macOff p.val) 13 0 →
      Nexts (exec (.txFrameFetch p [some d] [some b] bad) s) fun t =>
        (t.port p.val).ring = (s.port p.val).ring ++ [{ body := .raw (b.take (leNat (slice d 8 2))), lateDrop := decide (byteAt d 30 / 16 % 2 = 1), tsReq := decide (byteAt d 30 / 8 % 2 = 1), descs := [s.f (macOff p.val + 0xAC) 15 0 % s.f (macOff p.val + 0xA8) 16 0] }]
        ∧ t.f (macOff p.val + 0xAC) 15 0 = ((s.f (macOff p.val + 0xAC) 15 0 + 1) % s.f (macOff p.val + 0xA8) 16 0) % 65536
        ∧ OnlyRegs [macOff p.val + 0xAC] s t
        ∧ Frame [.regs, .mac, .tally, .out] s t)
  ∧ (∀ (p : Fin 16) (bufs : List (Option (List Byte))) (bad : Option Nat) (k : Nat) (s : State), s.inv = true → (s.port p.val).back = [] →
        s.domOn 7 = true → s.portSt p.val ≠ pOFF → s.b (macOff p.val + 0xB4) 31 = true → s.b (macOff p.val + 0xB8) 1 = false →
        s.f (macOff p.val + 0xA8) 16 0 ≠ 0 →
        (s.f (macOff p.val + 0xB0) 15 0 + s.f (macOff p.val + 0xA8) 16 0 - s.f (macOff p.val + 0xAC) 15 0) % s.f (macOff p.val + 0xA8) 16 0 = k + 1 →
      Nexts (exec (.txFrameFetch p [none] bufs bad) s) fun t =>
        t.b (macOff p.val + 0xB8) 1 = true
        ∧ t.rd64 (macOff p.val + 0x100 + 128) = min (2 ^ 48 - 1) (s.rd64 (macOff p.val + 0x100 + 128) % 2 ^ 48 + 1)
        ∧ t.sent Flt.macRingErr (s.f (macOff p.val + 0xAC) 15 0 * 65536 + 16 + p.val)
        ∧ t.b Blk.mac.irqOff 4 = true
        ∧ (∀ f ∈ (t.port p.val).ring, f.wb = false)
        ∧ Frame [.regs, .mac, .faults, .pba, .tally, .mem, .out] s t)

/-- The arbiter starts a frame when the medium is free, and a frame that has left is counted. At a start position of a port that is UP, has
nothing in transmission and is neither paused nor under a link fault, the frame that the arbiter chooses is in transmission, with the fields
of its launch tick and the FEC delay of the position; where the arbiter chooses none, and where the port is paused or under a link fault,
none is; a port that is not UP or is sending does nothing. A frame at the head of the ring with nothing else offered starts where it has no
launch time, and at the first position at or after its launch time where it has one. A frame that has left goes out padded to 60 bytes with
its FCS and its TX timestamp, and is counted with its bytes where the port is not OFF. Launch-timed frames whose time has passed while the
port was not UP leave the queues, each counted as dropped where the port is not OFF; the command does nothing on a port that is UP. Where
these commands rest on choices of the model, log entries 5, 25, 48, 58 name them. (10_ethernet_ports_and_timestamping.md, R258;
10_ethernet_ports_and_timestamping.md, R264; 10_ethernet_ports_and_timestamping.md, R268; 10_ethernet_ports_and_timestamping.md, R272;
10_ethernet_ports_and_timestamping.md, R273; 10_ethernet_ports_and_timestamping.md, R274.) -/
def Obligations.FramesStartAndLeave : Prop :=
  (∀ (p : Fin 16) (pos : TxPos) (skip : Fin 21) (bad : Option Nat) (src : Nat) (f : TxFrame) (s : State), s.inv = true → s.portSt p.val = pUP →
        (s.port p.val).cur = none → s.f (macOff p.val + 4) 28 26 = 0 →
        (s.lateFrames p.val (s.gridStep p.val * (1 + if s.isGroup p.val = true then skip.val else 0)) (s.txTime p.val (s.tbTime (s.portBase p.val) + pos.off.val * 2 ^ 24) (s.startDelay p.val true pos.fec)) false).arbiter p.val (s.txTime p.val (s.tbTime (s.portBase p.val) + pos.off.val * 2 ^ 24) (s.startDelay p.val true pos.fec)) pos.marker (if s.isGroup p.val = true then pos.run.val else 0) = some (src, f) →
      Nexts (exec (.txFrameStart p pos skip bad) s) fun t =>
        (t.port p.val).cur.map (fun c => (c.1, c.2.body, c.2.fec)) = some (src,
        .raw ((s.lateFrames p.val (s.gridStep p.val * (1 + if s.isGroup p.val = true then skip.val else 0)) (s.txTime p.val (s.tbTime (s.portBase p.val) + pos.off.val * 2 ^ 24) (s.startDelay p.val true pos.fec)) false).txBytes (s.portBase p.val) (s.txTime p.val (s.tbTime (s.portBase p.val) + pos.off.val * 2 ^ 24) (s.startDelay p.val true pos.fec)) f.body),
        s.startDelay p.val true pos.fec)
        ∧ Frame [.regs, .tiuP, .tiuL, .mac, .pkt, .faults, .pba, .tally, .mem, .out] s t)
  ∧ (∀ (p : Fin 16) (pos : TxPos) (skip : Fin 21) (bad : Option Nat) (s : State), s.inv = true → s.portSt p.val = pUP → (s.port p.val).cur = none →
        s.f (macOff p.val + 4) 28 26 = 0 →
        (s.lateFrames p.val (s.gridStep p.val * (1 + if s.isGroup p.val = true then skip.val else 0)) (s.txTime p.val (s.tbTime (s.portBase p.val) + pos.off.val * 2 ^ 24) (s.startDelay p.val true pos.fec)) false).arbiter p.val (s.txTime p.val (s.tbTime (s.portBase p.val) + pos.off.val * 2 ^ 24) (s.startDelay p.val true pos.fec)) pos.marker (if s.isGroup p.val = true then pos.run.val else 0) = none →
      Nexts (exec (.txFrameStart p pos skip bad) s) fun t =>
        (t.port p.val).cur = none
        ∧ Frame [.regs, .tiuP, .tiuL, .mac, .pkt, .faults, .pba, .tally, .mem, .out] s t)
  ∧ (∀ (p : Fin 16) (pos : TxPos) (skip : Fin 21) (bad : Option Nat) (s : State), s.inv = true → s.portSt p.val = pUP → (s.port p.val).cur = none →
        s.f (macOff p.val + 4) 28 26 ≠ 0 →
      Nexts (exec (.txFrameStart p pos skip bad) s) fun t =>
        (t.port p.val).cur = none
        ∧ Frame [.regs, .tiuP, .tiuL, .mac, .pkt, .faults, .pba, .tally, .mem, .out] s t)
  ∧ (∀ (p : Fin 16) (pos : TxPos) (skip : Fin 21) (bad : Option Nat) (s : State), s.inv = true →
        (s.portSt p.val ≠ pUP ∨ (s.port p.val).cur.isSome = true) →
      Nexts (exec (.txFrameStart p pos skip bad) s) fun t =>
        t = s)
  ∧ (∀ (p : Fin 16) (pos : TxPos) (skip : Fin 21) (bad : Option Nat) (f : TxFrame) (l : List Byte) (r : List TxFrame) (s : State), s.inv = true →
        s.portSt p.val = pUP → (s.port p.val).cur = none → (s.port p.val).back = [] → s.pkt.builds = [] → s.f (macOff p.val + 4) 28 26 = 0 →
        (s.port p.val).esmc = [] → (s.port p.val).pkt = [] → (s.port p.val).ring = f :: r → f.launch = none → f.body = .raw l → f.mark = none →
      Nexts (exec (.txFrameStart p pos skip bad) s) fun t =>
        (t.port p.val).cur = some (2, { f with fec := s.startDelay p.val true pos.fec })
        ∧ (t.port p.val).ring = r
        ∧ Frame [.tiuL, .mac] s t)
  ∧ (∀ (p : Fin 16) (pos : TxPos) (skip : Fin 21) (bad : Option Nat) (f : TxFrame) (l : List Byte) (r : List TxFrame) (lt : Nat) (s : State),
        s.inv = true → s.portSt p.val = pUP → (s.port p.val).cur = none → (s.port p.val).back = [] → s.f (macOff p.val + 4) 28 26 = 0 →
        (s.port p.val).esmc = [] → (s.port p.val).pkt = [] → (s.port p.val).ring = f :: r → f.launch = some lt → f.late = false → f.passed = false →
        f.onGrid = false → f.body = .raw l →
        lt ≤ (s.txTime p.val (s.tbTime (s.portBase p.val) + pos.off.val * 2 ^ 24) (s.startDelay p.val true pos.fec)) →
        (s.txTime p.val (s.tbTime (s.portBase p.val) + pos.off.val * 2 ^ 24) (s.startDelay p.val true pos.fec)) < lt + (s.gridStep p.val * (1 + if s.isGroup p.val = true then skip.val else 0)) →
      Nexts (exec (.txFrameStart p pos skip bad) s) fun t =>
        (t.port p.val).cur.map (fun c => (c.1, c.2.body, c.2.late, c.2.launch)) = some (2, .raw l, false, some lt)
        ∧ Frame [.regs, .tiuP, .tiuL, .mac, .pkt, .faults, .pba, .tally, .mem, .out] s t)
  ∧ (∀ (p : Fin 16) (pos : TxPos) (skip : Fin 21) (bad : Option Nat) (f : TxFrame) (r : List TxFrame) (s : State), s.inv = true → s.portSt p.val = pUP →
        (s.port p.val).cur = none → (s.port p.val).back = [] → s.pkt.builds = [] → s.f (macOff p.val + 4) 28 26 ≠ 0 → (s.port p.val).pkt = [] →
        (s.port p.val).ring = f :: r → f.launch = none →
      Nexts (exec (.txFrameStart p pos skip bad) s) fun t =>
        (t.port p.val).cur = none
        ∧ (t.port p.val).ring = f :: r
        ∧ Frame [.mac] s t)
  ∧ (∀ (p : Fin 16) (bad : Option Nat) (src : Nat) (f : TxFrame) (l : List Byte) (s : State), s.inv = true → (s.port p.val).cur = some (src, f) →
        f.body = .raw l →
      Nexts (exec (.txFrameEnd p bad) s) fun t =>
        (t.port p.val).cur = none
        ∧ (s.portSt p.val ≠ pOFF → t.rd64 (macOff p.val + 0x100 + 96) = min (2 ^ 48 - 1) (s.rd64 (macOff p.val + 0x100 + 96) % 2 ^ 48 + 1))
        ∧ (s.portSt p.val ≠ pOFF → t.rd64 (macOff p.val + 0x100 + 104) = min (2 ^ 48 - 1) (s.rd64 (macOff p.val + 0x100 + 104) % 2 ^ 48 + (max 60 l.length + 4)))
        ∧ .frame p.val (padTo (max 60 l.length) l ++ leBytes 4 (crc32 (padTo (max 60 l.length) l))) (if (s.unit (.lane ⟨p.val, by omega⟩)).stampTx.bluta = [] then 0 else if f.onGrid = true
        ∧ f.late = false then f.launch.getD (s.txTime p.val (s.unit (.lane ⟨p.val, by omega⟩)).stampTx.t f.fec) else s.txTime p.val (s.unit (.lane ⟨p.val, by omega⟩)).stampTx.t f.fec) ∈ t.out
        ∧ Frame [.regs, .mac, .pkt, .faults, .pba, .tally, .mem, .out] s t)
  ∧ (∀ (p : Fin 16) (bad : Option Nat) (s : State), s.inv = true → (s.port p.val).cur = none →
      Nexts (exec (.txFrameEnd p bad) s) fun t =>
        t = s)
  ∧ (∀ (p : Fin 16) (bad : Option Nat) (f : TxFrame) (l : List Byte) (s : State), s.inv = true → s.portSt p.val ≠ pOFF → (s.port p.val).back = [] →
        s.pkt.builds = [] → (s.port p.val).cur = some (2, f) → f.body = .raw l → f.mark = none → f.follow = none → f.client = none → f.kind = none →
        f.inFlight = false → f.esmc = false → f.wb = false → f.onGrid = false →
      Nexts (exec (.txFrameEnd p bad) s) fun t =>
        (t.port p.val).cur = none
        ∧ t.rd64 (macOff p.val + 0x100 + 96) = min (2 ^ 48 - 1) (s.rd64 (macOff p.val + 0x100 + 96) % 2 ^ 48 + 1)
        ∧ t.rd64 (macOff p.val + 0x100 + 104) = min (2 ^ 48 - 1) (s.rd64 (macOff p.val + 0x100 + 104) % 2 ^ 48 + (max 60 l.length + 4))
        ∧ t.out = .frame p.val (padTo (max 60 l.length) l ++ leBytes 4 (crc32 (padTo (max 60 l.length) l))) (if (s.unit (.lane ⟨p.val, by omega⟩)).stampTx.bluta = [] then 0 else s.txTime p.val (s.unit (.lane ⟨p.val, by omega⟩)).stampTx.t f.fec) :: s.out
        ∧ OnlyRegs [macOff p.val + 0x100 + 96, macOff p.val + 0x100 + 100, macOff p.val + 0x100 + 104, macOff p.val + 0x100 + 108] s t
        ∧ Frame [.regs, .mac, .tally, .out] s t)
  ∧ (∀ (p : Fin 16) (n : Nat) (s : State), s.inv = true → s.portSt p.val ≠ pUP → s.pkt.builds = [] →
        n = (((s.port p.val).pkt ++ (s.port p.val).ring).filter (fun f => launchGone (s.tbTime (s.portBase p.val) / 2 ^ 24) f)).length →
      Nexts (exec (.launchPassedNotUp p none) s) fun t =>
        (t.port p.val).pkt = (s.port p.val).pkt.filter (fun f => !launchGone (s.tbTime (s.portBase p.val) / 2 ^ 24) f)
        ∧ (t.port p.val).ring = (s.port p.val).ring.filter (fun f => !launchGone (s.tbTime (s.portBase p.val) / 2 ^ 24) f)
        ∧ (s.portSt p.val ≠ pOFF → t.rd64 (macOff p.val + 0x100 + 128) = min (2 ^ 48 - 1) (s.rd64 (macOff p.val + 0x100 + 128) % 2 ^ 48 + n))
        ∧ Frame [.regs, .mac, .pkt, .faults, .pba, .tally, .mem, .out] s t)
  ∧ (∀ (p : Fin 16) (bad : Option Nat) (s : State), s.inv = true → s.portSt p.val = pUP →
      Nexts (exec (.launchPassedNotUp p bad) s) fun t =>
        t = s)
  ∧ (∀ (p : Fin 16) (bad : Option Nat) (f : TxFrame) (s : State), s.inv = true → s.portSt p.val = pDOWN → (s.port p.val).back = [] → s.pkt.builds = [] →
        (s.port p.val).pkt = [] → (s.port p.val).ring = [f] → launchGone (s.tbTime (s.portBase p.val) / 2 ^ 24) f = true → f.inFlight = false →
        f.mark = none → f.descs = [] →
      Nexts (exec (.launchPassedNotUp p bad) s) fun t =>
        (t.port p.val).ring = []
        ∧ (t.port p.val).pkt = []
        ∧ t.rd64 (macOff p.val + 0x100 + 128) = min (2 ^ 48 - 1) (s.rd64 (macOff p.val + 0x100 + 128) % 2 ^ 48 + 1)
        ∧ OnlyRegs [macOff p.val + 0x100 + 128, macOff p.val + 0x100 + 132] s t
        ∧ Frame [.regs, .mac] s t)

/-- A host read answers what the register shows, clears what it says, and banks its set. A read of read-to-clear fields answers them and clears
them; a read of a register that has none answers what it shows and changes nothing else. Through BAR2 memory without an error answers its
bytes, one uncorrectable word a poisoned completion, with its address in CST_ECC_LAST, and a store that is not READY zeros; BAR4 answers its
DW or QW, configuration space its register, and a zero-length read completes. MTX_Mm_STAT answers at most 64 outstanding requests,
MTX_OUTSTANDING their sum and a peak between it and 320; within that they are free. A read of the register that leads a status set, a result
set, a counter or the TIMING message answers it and copies its members, as they stand, into the bank of the reading interface. The _LO read
of a port counter clears all 48 bits. A PRBS read answers the errors since the last read of the interface and banks the bits, and both count
from 0 again. A nonce read answers the first word of a new nonce while the DRBG runs. Where these commands rest on choices of the model, log
entries 6, 19, 50, 59, 62, 63 name them. (00_scope.md, R14; 03_reference_inputs_and_interval_measurement.md, R113; 08_gnss_baseband.md,
R231; 09_serial_lanes.md, R251; 10_ethernet_ports_and_timestamping.md, R278; 12_client_store.md, R313; 12_client_store.md, R327;
12_client_store.md, R329; 13_keys_identity_and_tamper.md, R352; 16_host_interface_and_data_movement.md, R391;
16_host_interface_and_data_movement.md, R392.) -/
def Obligations.ReadsAnswerClearAndBank : Prop :=
  (∀ (i : Itf) (off : Nat) (s : State), s.inv = true → s.reads i off = true → rcMask off ≠ 0 → latched off = [] → banked off = false →
        counterLo off = false → laneOf off = none → off ≠ 0x01000024 → off ≠ 0x02400080 → off ≠ 0x00300040 → instOf off 0x00300100 4 5 = none →
        (Blk.ofOff off ≠ some .flt ∨ s.flt.split = []) →
      Nexts (exec (.rcRead (.reg i off)) s) fun t =>
        t.readOf i = some { value := ((s.regTally i false).view off).setWidth 64 }
        ∧ t.rd off = s.rd off &&& ~~~(rcMask off)
        ∧ OnlyRegs [off] s t
        ∧ Frame [.regs, .rdP, .rdI, .tally, .out] s t)
  ∧ (∀ (i : Itf) (off : Nat) (s : State), s.inv = true → s.reads i off = true → rcMask off = 0 → latched off = [] → banked off = false →
        counterLo off = false → laneOf off = none → off ≠ 0x01000024 → off ≠ 0x02400080 → off ≠ 0x00300040 → instOf off 0x00300100 4 5 = none →
        (Blk.ofOff off ≠ some .flt ∨ s.flt.split = []) →
      Nexts (exec (.rcRead (.reg i off)) s) fun t =>
        t.readOf i = some { value := ((s.regTally i false).view off).setWidth 64 }
        ∧ Frame [.rdP, .rdI, .tally, .out] s t)
  ∧ (∀ (a : Word) (n : Nat) (s : State), s.inv = true → s.hostOn = true → s.bar2Behind = false → s.cstReady = true → n ≤ 8 → s.flawsIn a.toNat n = [] →
      Nexts (exec (.rcRead (.bar2 a n [])) s) fun t =>
        t.rdP = some { value := BitVec.ofNat 64 (leNat (s.mread a.toNat n)), bytes := s.mread a.toNat n }
        ∧ Frame [.rdP, .tally] s t)
  ∧ (∀ (a : Word) (n : Nat) (e : EccHit) (s : State), s.inv = true → s.hostOn = true → s.bar2Behind = false → s.cstReady = true →
        s.flawsIn a.toNat n = [e] → e.uncorrectable = true →
      Nexts (exec (.rcRead (.bar2 a n [])) s) fun t =>
        t.rdP = some { poisoned := true }
        ∧ t.rd 0x02300038 = e.addr
        ∧ t.b Blk.cst.irqOff 1 = true
        ∧ Frame [.regs, .bankP, .bankI, .rdP, .rdI, .heldP, .heldI, .spn, .lanes, .ens, .tnd, .pkt, .cst, .pwr, .prf, .flt, .trace, .keys, .faults,
        .pba, .tally, .mem, .out, .free] s t)
  ∧ (∀ (a : Word) (n : Nat) (s : State), s.inv = true → s.hostOn = true → s.bar2Behind = false → s.cstReady = false →
      Nexts (exec (.rcRead (.bar2 a n [])) s) fun t =>
        t.rdP = some { bytes := List.replicate n 0 }
        ∧ Frame [.rdP] s t)
  ∧ (∀ (off : BitVec 14) (s : State), s.inv = true → s.hostOn = true → bar4Ok off false = true →
      Nexts (exec (.rcRead (.bar4 off false)) s) fun t =>
        t.rdP = some { value := (s.bar4Word off.toNat).setWidth 64 }
        ∧ Frame [.rdP] s t)
  ∧ (∀ (off : BitVec 14) (s : State), s.inv = true → s.hostOn = true → bar4Ok off true = true →
      Nexts (exec (.rcRead (.bar4 off true)) s) fun t =>
        t.rdP = some { value := s.bar4Word (off.toNat + 4) ++ s.bar4Word off.toNat }
        ∧ Frame [.rdP] s t)
  ∧ (∀ (r : CfgReg) (s : State), s.inv = true → s.hostOn = true →
      Nexts (exec (.rcRead (.config r)) s) fun t =>
        t.rdP = some { value := (s.cfgRead r).setWidth 64 }
        ∧ Frame [.rdP] s t)
  ∧ (∀ (off : Nat) (s : State), s.inv = true → s.hostOn = true →
      Nexts (exec (.rcRead (.zero off)) s) fun t =>
        t.rdP = some {}
        ∧ Frame [.rdP] s t)
  ∧ (∀ (i : Itf) (m : Fin 5) (s : State), s.inv = true → s.reads i (0x00300100 + 4 * m.val) = true →
      Nexts (exec (.rcRead (.reg i (0x00300100 + 4 * m.val))) s) fun t =>
        (((t.readOf i).getD {}).value.toNat % 2 ^ 7 ≤ 64)
        ∧ t.prf.seen = (((s.regTally i false).heldCount).prf.seen)
        ∧ t.rd (0x00300100 + 4 * m.val) = ((((s.regTally i false).heldCount).outOne m.val).rd (0x00300100 + 4 * m.val)) &&& 0xFFFF
        ∧ t.readOf i = some { value := ((((s.regTally i false).heldCount).outOne m.val).rd (0x00300100 + 4 * m.val)).setWidth 64 }
        ∧ Frame [.regs, .bankP, .bankI, .rdP, .rdI, .prf, .tally, .out, .free] s t)
  ∧ (∀ (i : Itf) (s : State), s.inv = true → s.reads i 0x00300040 = true →
      Nexts (exec (.rcRead (.reg i 0x00300040)) s) fun t =>
        t.f 0x00300040 9 0 = ((List.range 5).map (fun m => t.f (0x00300100 + 4 * m) 6 0)).sum
        ∧ ((t.readOf i).getD {}).value.toNat % 2 ^ 10 ≤ ((t.readOf i).getD {}).value.toNat / 2 ^ 16 % 2 ^ 10
        ∧ ((t.readOf i).getD {}).value.toNat / 2 ^ 16 % 2 ^ 10 ≤ 320
        ∧ Frame [.regs, .bankP, .bankI, .rdP, .rdI, .prf, .tally, .out, .free] s t)
  ∧ (∀ (i : Itf) (off : Nat) (s : State), s.inv = true → s.reads i off = true → rcMask off = 0 → latched off ≠ [] → banked off = false →
        counterLo off = false → laneOf off = none → off ≠ 0x01000024 → off ≠ 0x02400080 → Blk.ofOff off ≠ some .prf → off ≠ 0x00300040 →
        instOf off 0x00300100 4 5 = none → (Blk.ofOff off ≠ some .flt ∨ s.flt.split = []) →
      Nexts (exec (.statusBankRead i off) s) fun t =>
        t.readOf i = some { value := ((s.regTally i false).view off).setWidth 64 }
        ∧ (∀ o ∈ latched off, t.bankRd i o = ((s.regTally i false).view o))
        ∧ Frame [.bankP, .bankI, .rdP, .rdI, .tally, .out] s t)
  ∧ (∀ (i : Itf) (u : TiuId) (s : State), s.inv = true → s.reads i (tiuOff u + 0x10) = true →
      Nexts (exec (.tiuResultRead i u) s) fun t =>
        t.readOf i = some { value := (s.view (tiuOff u + 0x10)).setWidth 64 }
        ∧ (∀ k : Fin 11, t.bankRd i (tiuOff u + 0x14 + 4 * k.val) = s.view (tiuOff u + 0x14 + 4 * k.val))
        ∧ Frame [.bankP, .bankI, .rdP, .rdI, .tally, .out] s t)
  ∧ (∀ (i : Itf) (s : State), s.inv = true → s.reads i 0x01800200 = true →
      Nexts (exec (.gnsTimRead i) s) fun t =>
        t.readOf i = some { value := (s.view 0x01800200).setWidth 64 }
        ∧ (∀ k : Fin 15, t.bankRd i (0x01800204 + 4 * k.val) = s.view (0x01800204 + 4 * k.val))
        ∧ Frame [.bankP, .bankI, .rdP, .rdI, .tally, .out] s t)
  ∧ (∀ (i : Itf) (p : Fin 16) (c : Fin 24) (s : State), s.inv = true → s.reads i (macOff p.val + 0x100 + c.val * 8) = true →
      Nexts (exec (.macCounterRead i p c) s) fun t =>
        t.readOf i = some { value := (s.rd (macOff p.val + 0x100 + c.val * 8)).setWidth 64 }
        ∧ t.bankRd i (macOff p.val + 0x104 + c.val * 8) = s.rd (macOff p.val + 0x104 + c.val * 8)
        ∧ t.rd64 (macOff p.val + 0x100 + c.val * 8) = 0
        ∧ OnlyRegs [macOff p.val + 0x100 + c.val * 8, macOff p.val + 0x104 + c.val * 8] s t
        ∧ Frame [.regs, .bankP, .bankI, .rdP, .rdI, .tally, .out] s t)
  ∧ (∀ (i : Itf) (m : Fin 18) (errs : Nat) (e b : Nat) (s : State), s.inv = true → s.reads i (lanOff m.val + 0x28) = true →
        e = (match i with | .pcie => ((s.prbsErrs m.val errs).lane m.val).errP | .i2c => ((s.prbsErrs m.val errs).lane m.val).errI) →
        b = (match i with | .pcie => ((s.prbsErrs m.val errs).lane m.val).bitsP | .i2c => ((s.prbsErrs m.val errs).lane m.val).bitsI) →
      Nexts (exec (.prbsErrRead i m errs) s) fun t =>
        t.readOf i = some { value := BitVec.ofNat 64 (min e 0xFFFFFFFF) }
        ∧ t.bankRd i (lanOff m.val + 0x2C) = BitVec.ofNat 32 (min b (2 ^ 48 - 1))
        ∧ t.bankRd i (lanOff m.val + 0x30) = BitVec.ofNat 32 (min b (2 ^ 48 - 1) / 2 ^ 32)
        ∧ (match i with | .pcie => (t.lane m.val).errP | .i2c => (t.lane m.val).errI) = 0
        ∧ (match i with | .pcie => (t.lane m.val).bitsP | .i2c => (t.lane m.val).bitsI) = 0
        ∧ Frame [.bankP, .bankI, .rdP, .rdI, .lanes, .tally, .out] s t)
  ∧ (∀ (i : Itf) (s : State), s.inv = true → s.reads i 0x02400080 = true → s.drbgOk = true →
      Nexts (exec (.nonceRead i) s) fun t =>
        t.keys.nonce = some (Config.freeValue 128 s.free)
        ∧ t.readOf i = some { value := ((Config.freeValue 128 s.free).setWidth 32).setWidth 64 }
        ∧ t.rd 0x02400084 = (Config.freeValue 128 s.free >>> 32).setWidth 32
        ∧ t.rd 0x0240008C = (Config.freeValue 128 s.free >>> 96).setWidth 32
        ∧ t.free = s.free + 1
        ∧ OnlyRegs [0x02400080, 0x02400084, 0x02400088, 0x0240008C] s t
        ∧ Frame [.regs, .rdP, .rdI, .keys, .tally, .out, .free] s t)

/-- A DMA channel fetches, transfers, links, parks, stops and reports its errors. Enabling an idle channel starts the fetch at HEAD with BYTES
0. Disabling a channel that is not idle stops it, and a stopping channel becomes idle. A doorbell wakes a parked channel and is remembered
in any other state. A descriptor in host memory that passes every check is kept and runs; one that fails a check stops the channel with its
code and DMA/DESC_BAD. The end of a transfer of one line of host memory counts its bytes and the transfer, and goes on at NEXT; a transfer
to host memory without a NEXT, from there or from a READY store without errors, parks. The re-read of NEXT in host memory goes on at it, or
parks where it is 0. A completion that does not come, unless the host has disabled the timeout, stops the channel with code 0xFF and
DMA/BUS_ERR, or halts a ring; where nothing is outstanding a timeout does nothing. Where these commands rest on choices of the model, log
entries 27, 28, 59, 62 name them. (16_host_interface_and_data_movement.md, R402; 16_host_interface_and_data_movement.md, R403;
16_host_interface_and_data_movement.md, R404; 16_host_interface_and_data_movement.md, R407; 16_host_interface_and_data_movement.md, R408;
16_host_interface_and_data_movement.md, R409.) -/
def Obligations.DmaChannelsMoveData : Prop :=
  (∀ (i : Itf) (c : Fin 16) (s : State), s.inv = true → s.serves i (dmaOff c.val) = true → s.dmaSt c.val = dIDLE →
      Nexts (exec (.dmaEnable i c) s) fun t =>
        t.dmaSt c.val = dFETCH
        ∧ t.b (dmaOff c.val) 31 = true
        ∧ t.rd64 (dmaOff c.val + 0x14) = s.rd64 (dmaOff c.val + 8)
        ∧ t.rd64 (dmaOff c.val + 0x20) = 0
        ∧ OnlyRegs [dmaOff c.val, dmaOff c.val + 4, dmaOff c.val + 0x14, dmaOff c.val + 0x18, dmaOff c.val + 0x20, dmaOff c.val + 0x24] s t
        ∧ Frame [.regs, .tally] s t)
  ∧ (∀ (i : Itf) (c : Fin 16) (s : State), s.inv = true → s.serves i (dmaOff c.val) = true → s.dmaSt c.val ≠ dIDLE →
      Nexts (exec (.dmaDisable i c) s) fun t =>
        t.dmaSt c.val = dSTOPPING
        ∧ t.b (dmaOff c.val) 31 = false
        ∧ OnlyRegs [dmaOff c.val, dmaOff c.val + 4, dmaOff c.val + 0x20, dmaOff c.val + 0x24] s t
        ∧ Frame [.regs, .tally, .free] s t)
  ∧ (∀ (c : Fin 16) (s : State), s.inv = true → s.dmaSt c.val = dSTOPPING →
      Nexts (exec (.dmaStopped c) s) fun t =>
        t.dmaSt c.val = dIDLE
        ∧ OnlyRegs [dmaOff c.val + 4] s t
        ∧ Frame [.regs] s t)
  ∧ (∀ (i : Itf) (c : Fin 16) (s : State), s.inv = true → s.serves i (dmaOff c.val + 0x10) = true → s.dmaSt c.val = dPARKED →
      Nexts (exec (.dmaDoorbell i c) s) fun t =>
        t.dmaSt c.val = dLINK
        ∧ OnlyRegs [dmaOff c.val + 4] s t
        ∧ Frame [.regs, .tally] s t)
  ∧ (∀ (i : Itf) (c : Fin 16) (s : State), s.inv = true → s.serves i (dmaOff c.val + 0x10) = true → s.dmaSt c.val ≠ dPARKED →
      Nexts (exec (.dmaDoorbell i c) s) fun t =>
        t.dmaSt c.val = s.dmaSt c.val
        ∧ t.b (dmaOff c.val + 4) 27 = true
        ∧ OnlyRegs [dmaOff c.val + 4] s t
        ∧ Frame [.regs, .tally] s t)
  ∧ (∀ (c : Fin 16) (d : List Byte) (s : State), s.inv = true → s.dmaSt c.val = dFETCH → isHost (s.rd64 (dmaOff c.val + 0x14)) = true →
        s.rd64 (dmaOff c.val + 0x14) % 64 = 0 → descCheck (d.take 64) = 0 →
      Nexts (exec (.dmaDescFetched c (some d)) s) fun t =>
        t.dmaSt c.val = dRUN
        ∧ t.dma.getD c.val [] = d.take 64
        ∧ t.out = .hostRead (s.rd64 (dmaOff c.val + 0x14) % 2 ^ 63) 64 :: s.out
        ∧ OnlyRegs [dmaOff c.val + 4] s t
        ∧ Frame [.regs, .dma, .tally, .out] s t)
  ∧ (∀ (c : Fin 16) (d : List Byte) (s : State), s.inv = true → s.dmaSt c.val = dFETCH → isHost (s.rd64 (dmaOff c.val + 0x14)) = true →
        s.rd64 (dmaOff c.val + 0x14) % 64 = 0 → descCheck (d.take 64) ≠ 0 → byteAt (d.take 64) 48 / 2 % 2 = 0 →
      Nexts (exec (.dmaDescFetched c (some d)) s) fun t =>
        t.dmaSt c.val = dERROR
        ∧ t.f (dmaOff c.val + 4) 15 8 = descCheck (d.take 64)
        ∧ t.sent Flt.dmaDescBad (c.val * 2 ^ 28 + descCheck (d.take 64) * 256)
        ∧ t.b Blk.dma.irqOff (16 + c.val) = true
        ∧ OnlyRegs [dmaOff c.val + 4, Blk.dma.irqOff] s t
        ∧ Frame [.regs, .dma, .faults, .pba, .tally, .out] s t)
  ∧ (∀ (c : Fin 16) (src : List Byte) (s : State), s.inv = true → s.dmaSt c.val = dRUN → isHost (leNat (slice (s.dma.getD c.val []) 8 8)) = true →
        isHost (leNat (slice (s.dma.getD c.val []) 0 8)) = true → leNat (slice (s.dma.getD c.val []) 36 4) = 1 →
        leNat (slice (s.dma.getD c.val []) 40 8) ≠ 0 → byteAt (s.dma.getD c.val []) 48 = 0 →
      Nexts (exec (.dmaTransferDone c src none) s) fun t =>
        t.dmaSt c.val = dFETCH
        ∧ t.rd64 (dmaOff c.val + 0x20) = (s.rd64 (dmaOff c.val + 0x20) + leNat (slice (s.dma.getD c.val []) 28 4)) % 2 ^ 64
        ∧ t.rd64 (dmaOff c.val + 0x14) = leNat (slice (s.dma.getD c.val []) 40 8)
        ∧ t.rd (dmaOff c.val + 0x1C) = s.rd (dmaOff c.val + 0x1C) + 1
        ∧ OnlyRegs [dmaOff c.val + 4, dmaOff c.val + 0x14, dmaOff c.val + 0x18, dmaOff c.val + 0x1c, dmaOff c.val + 0x20, dmaOff c.val + 0x24] s t
        ∧ Frame [.regs, .tally, .out] s t)
  ∧ (∀ (c : Fin 16) (src : List Byte) (s : State), s.inv = true → s.dmaSt c.val = dRUN → isHost (leNat (slice (s.dma.getD c.val []) 8 8)) = true →
        (isHost (leNat (slice (s.dma.getD c.val []) 0 8)) = true ∨ s.cstReady = true ∧ s.cst.flaws = []) →
        leNat (slice (s.dma.getD c.val []) 40 8) = 0 → byteAt (s.dma.getD c.val []) 48 = 0 → s.b (dmaOff c.val + 4) 27 = false →
      Nexts (exec (.dmaTransferDone c src none) s) fun t =>
        t.dmaSt c.val = dPARKED
        ∧ t.rd (dmaOff c.val + 0x1C) = s.rd (dmaOff c.val + 0x1C) + 1
        ∧ OnlyRegs [dmaOff c.val + 4, dmaOff c.val + 0x1c, dmaOff c.val + 0x20, dmaOff c.val + 0x24] s t
        ∧ Frame [.regs, .cst, .faults, .pba, .tally, .mem, .out] s t)
  ∧ (∀ (c : Fin 16) (n : BitVec 64) (s : State), s.inv = true → s.dmaSt c.val = dLINK → isHost (s.rd64 (dmaOff c.val + 0x14)) = true → n.toNat % 64 = 0 →
        n ≠ 0 → isHost n.toNat = true →
      Nexts (exec (.dmaLinkRead c (some n)) s) fun t =>
        t.dmaSt c.val = dFETCH
        ∧ t.rd64 (dmaOff c.val + 0x14) = n.toNat
        ∧ OnlyRegs [dmaOff c.val + 4, dmaOff c.val + 0x14, dmaOff c.val + 0x18] s t
        ∧ Frame [.regs, .tally, .out] s t)
  ∧ (∀ (c : Fin 16) (s : State), s.inv = true → s.dmaSt c.val = dLINK → isHost (s.rd64 (dmaOff c.val + 0x14)) = true → s.b (dmaOff c.val + 4) 27 = false →
      Nexts (exec (.dmaLinkRead c (some 0)) s) fun t =>
        t.dmaSt c.val = dPARKED
        ∧ OnlyRegs [dmaOff c.val + 4] s t
        ∧ Frame [.regs, .tally, .out] s t)
  ∧ (∀ (c : Fin 16) (s : State), s.inv = true → s.pcie.devCtl2.bit 4 = false → s.dmaSt c.val = dFETCH →
      Nexts (exec (.completionTimeout (.dmaDesc c)) s) fun t =>
        t.dmaSt c.val = dERROR
        ∧ t.f (dmaOff c.val + 4) 15 8 = 0xFF
        ∧ t.sent Flt.dmaBusErr (c.val * 2 ^ 28 + s.rd64 (dmaOff c.val + 0x14) % 2 ^ 28)
        ∧ t.b Blk.dma.irqOff (16 + c.val) = true
        ∧ t.rd64 0x00300030 = s.rd64 (dmaOff c.val + 0x14)
        ∧ t.pcie.aerUncor.bit 14 = true
        ∧ OnlyRegs [dmaOff c.val + 4, Blk.dma.irqOff, Blk.mtx.irqOff, 0x00300030, 0x00300034, 0x00300038] s t
        ∧ Frame [.regs, .faults, .pba, .pcie, .out] s t)
  ∧ (∀ (c : Fin 16) (a : BitVec 64) (s : State), s.inv = true → s.pcie.devCtl2.bit 4 = false → s.dmaSt c.val = dRUN →
      Nexts (exec (.completionTimeout (.dmaTransfer c a)) s) fun t =>
        t.dmaSt c.val = dERROR
        ∧ t.f (dmaOff c.val + 4) 15 8 = 0xFF
        ∧ t.sent Flt.dmaBusErr (c.val * 2 ^ 28 + a.toNat % 2 ^ 28)
        ∧ t.b Blk.dma.irqOff (16 + c.val) = true
        ∧ OnlyRegs [dmaOff c.val + 4, Blk.dma.irqOff, Blk.mtx.irqOff, 0x00300030, 0x00300034, 0x00300038] s t
        ∧ Frame [.regs, .faults, .pba, .pcie, .out] s t)
  ∧ (∀ (c : Fin 16) (s : State), s.inv = true → s.pcie.devCtl2.bit 4 = false → s.dmaSt c.val = dLINK →
      Nexts (exec (.completionTimeout (.dmaLink c)) s) fun t =>
        t.dmaSt c.val = dERROR
        ∧ t.f (dmaOff c.val + 4) 15 8 = 0xFF
        ∧ t.sent Flt.dmaBusErr (c.val * 2 ^ 28 + (s.rd64 (dmaOff c.val + 0x14) + 40) % 2 ^ 28)
        ∧ t.b Blk.dma.irqOff (16 + c.val) = true
        ∧ OnlyRegs [dmaOff c.val + 4, Blk.dma.irqOff, Blk.mtx.irqOff, 0x00300030, 0x00300034, 0x00300038] s t
        ∧ Frame [.regs, .faults, .pba, .pcie, .out] s t)
  ∧ (∀ (p : Fin 16) (q : BitVec 16) (s : State), s.inv = true → s.pcie.devCtl2.bit 4 = false → s.b (macOff p.val + 0x94) 31 = true →
        s.b (macOff p.val + 0xB8) 0 = false → (s.port p.val).host ≠ [] →
      Nexts (exec (.completionTimeout (.rxRing p q)) s) fun t =>
        t.b (macOff p.val + 0xB8) 0 = true
        ∧ t.sent Flt.macRingErr (q.toNat * 65536 + p.val)
        ∧ (t.port p.val).host = (s.port p.val).host.drop 1
        ∧ Frame [.regs, .mac, .faults, .pba, .pcie, .out] s t)
  ∧ (∀ (p : Fin 16) (q : BitVec 16) (s : State), s.inv = true → s.pcie.devCtl2.bit 4 = false → s.b (macOff p.val + 0xB4) 31 = true →
        s.b (macOff p.val + 0xB8) 1 = false → s.f (macOff p.val + 0xB0) 15 0 ≠ s.f (macOff p.val + 0xAC) 15 0 →
      Nexts (exec (.completionTimeout (.txRing p q)) s) fun t =>
        t.b (macOff p.val + 0xB8) 1 = true
        ∧ t.sent Flt.macRingErr (q.toNat * 65536 + 16 + p.val)
        ∧ (t.port p.val).back = []
        ∧ Frame [.regs, .mac, .faults, .pba, .pcie, .out] s t)
  ∧ (∀ (r : HostReq) (s : State), s.inv = true → (s.asks r = false ∨ s.pcie.devCtl2.bit 4 = true) →
      Nexts (exec (.completionTimeout r) s) fun t =>
        t = s)

/-- Captures queue and are written to their slots, and dumps start and stop. While dumps run and an instant has come that no capture has taken,
a capture of every counter joins the queue with the next sequence number, the oldest lost and LATE counted when two wait; before an instant
nothing happens. The oldest capture is written at its slot in host memory or, on an error response, stops the writer with PRF/DUMP_ERR. A
write to DUMP_CTL starts or stops them. Where these commands rest on choices of the model, log entries 5, 30, 63 name them.
(16_host_interface_and_data_movement.md, R413; 16_host_interface_and_data_movement.md, R414; 16_host_interface_and_data_movement.md, R415.) -/
def Obligations.TallyCapturesAndDumps : Prop :=
  (∀ (step : Bool) (s : State), s.inv = true → s.b 0x00500010 31 = true → s.prf.instant < s.tallyInstant → s.prf.queue.length < 2 →
      Nexts (exec (.tallyCapture step) s) fun t =>
        t.prf.queue = s.prf.queue ++ [⟨(s.rd 0x00500034).toNat, s.heldCount.dumpRecord (s.rd 0x00500034).toNat (step || decide (s.prf.instant + 1 < s.tallyInstant))⟩]
        ∧ t.rd 0x00500034 = s.rd 0x00500034 + 1
        ∧ t.prf.first = false
        ∧ t.prf.instant = s.tallyInstant
        ∧ OnlyRegs [0x00500034, 0x00300100, 0x00300104, 0x00300108, 0x0030010C, 0x00300110] s t
        ∧ Frame [.regs, .prf, .tally, .free] s t)
  ∧ (∀ (step : Bool) (q r : DumpRec) (s : State), s.inv = true → s.b 0x00500010 31 = true → s.prf.instant < s.tallyInstant → s.prf.queue = [q, r] →
      Nexts (exec (.tallyCapture step) s) fun t =>
        t.prf.queue = [r, ⟨(s.rd 0x00500034).toNat, s.heldCount.dumpRecord (s.rd 0x00500034).toNat (step || decide (s.prf.instant + 1 < s.tallyInstant))⟩]
        ∧ t.f 0x0050003C 15 8 = min (s.f 0x0050003C 15 8 + 1) 255
        ∧ t.b Blk.prf.irqOff 1 = true
        ∧ OnlyRegs [0x00500034, 0x0050003C, Blk.prf.irqOff, 0x00300100, 0x00300104, 0x00300108, 0x0030010C, 0x00300110] s t
        ∧ Frame [.regs, .pkt, .prf, .faults, .pba, .tally, .out, .free] s t)
  ∧ (∀ (step : Bool) (s : State), s.inv = true → (s.b 0x00500010 31 = false ∨ s.tallyInstant ≤ s.prf.instant) →
      Nexts (exec (.tallyCapture step) s) fun t =>
        t = s)
  ∧ (∀ (q : DumpRec) (r : List DumpRec) (s : State), s.inv = true → s.prf.queue = q :: r → s.b 0x0050003C 1 = false → isHost (s.rd64 0x00500018) = true →
        (q.seq + 2 ^ 32 - (s.rd 0x00500038).toNat) % 2 ^ 32 < s.f 0x00500030 16 0 →
      Nexts (exec (.dumpWritten true) s) fun t =>
        t.prf.queue = r
        ∧ t.out = .hostWrite ((s.rd64 0x00500018 / 4096 * 4096 + q.seq % s.f 0x00500030 16 0 * 4096) % 2 ^ 63) q.bytes :: s.out
        ∧ t.b Blk.prf.irqOff 0 = true
        ∧ Frame [.regs, .prf, .pba, .tally, .out] s t)
  ∧ (∀ (q : DumpRec) (r : List DumpRec) (s : State), s.inv = true → s.prf.queue = q :: r → s.b 0x0050003C 1 = false →
        s.dmaMay [s.rd64 0x00500018] = true →
      Nexts (exec (.dumpWritten false) s) fun t =>
        t.prf.queue = r
        ∧ t.b 0x0050003C 1 = true
        ∧ t.b Blk.prf.irqOff 2 = true
        ∧ t.sent Flt.prfDumpErr ((s.rd64 0x00500018 / 4096 * 4096 + q.seq % s.f 0x00500030 16 0 * 4096) % 2 ^ 32)
        ∧ Frame [.regs, .cst, .prf, .faults, .pba, .tally, .mem, .out] s t)
  ∧ (∀ (i : Itf) (v : Word) (s : State), s.inv = true → s.serves i 0x00500010 = true → v.bit 31 = true → s.b 0x00500010 31 = false →
      Nexts (exec (.dumpCtlWrite i v) s) fun t =>
        t.b 0x00500010 31 = true
        ∧ t.b 0x0050003C 0 = true
        ∧ t.b 0x0050003C 1 = false
        ∧ t.prf.first = true
        ∧ t.prf.instant = s.tallyInstant
        ∧ OnlyRegs [0x00500010, 0x0050003C] s t
        ∧ Frame [.regs, .prf, .tally] s t)
  ∧ (∀ (i : Itf) (v : Word) (s : State), s.inv = true → s.serves i 0x00500010 = true → v.bit 31 = false →
      Nexts (exec (.dumpCtlWrite i v) s) fun t =>
        t.b 0x00500010 31 = false
        ∧ t.b 0x0050003C 0 = false
        ∧ t.prf = s.prf
        ∧ OnlyRegs [0x00500010, 0x0050003C] s t
        ∧ Frame [.regs, .tally] s t)

/-- Interrupt registers, vectors, the host link and the sideband do what their rules say. A write of ones to IRQ_STAT clears those bits. An
unmasked vector that waited is sent where its summary is non-zero; one that did not wait sends nothing; a write to the table sets a Mask
bit, an address or data. A link reset masks every vector, clears the table and Bus Master Enable and says its cause; FLR disables the
channels besides and sets its bit, and the end of FLR clears it. A link that has trained shows its speed and width; a write of the command
register sets Bus Master Enable; an AER error that was not logged is, with MTX/PCIE_ERR. A sideband write with a good PEC writes its
register, and one with a bad PEC is not acknowledged and counted. A sideband read answers the word of its register with a PEC. Where these
commands rest on choices of the model, log entries 6, 27, 62 name them. (16_host_interface_and_data_movement.md, R390;
16_host_interface_and_data_movement.md, R391; 16_host_interface_and_data_movement.md, R394; 16_host_interface_and_data_movement.md, R396;
16_host_interface_and_data_movement.md, R397; 16_host_interface_and_data_movement.md, R398.) -/
def Obligations.HostLinkInterruptsAndSideband : Prop :=
  (∀ (i : Itf) (b : Fin 21) (v : Word) (k : Blk) (s : State), s.inv = true → Blk.all[b.val]? = some k → s.serves i k.irqOff = true →
      Nexts (exec (.irqStatWrite i b v) s) fun t =>
        t.rd k.irqOff = s.rd k.irqOff &&& ~~~(v &&& (match findReg k.irqOff with | some d => BitVec.ofNat 32 d.w1c | none => 0))
        ∧ OnlyRegs [k.irqOff] s t
        ∧ Frame [.regs, .pba, .tally, .out] s t)
  ∧ (∀ (v : Fin 32) (b : Blk) (s : State), s.inv = true → s.hostOn = true → s.pcie.funcMask = false → vectorBlk v.val = some b →
        s.pba.testBit v.val = true → s.summary b ≠ 0 → s.b 0x00300010 2 = true →
      Nexts (exec (.msixUnmask (.unmask v)) s) fun t =>
        t.out = .msix v.val ((s.msixWord (16 * v.val + 4)).toNat * 2 ^ 32 + (s.msixWord (16 * v.val)).toNat) (s.msixWord (16 * v.val + 8)) :: s.out
        ∧ t.pba.testBit v.val = false
        ∧ t.vecMask.testBit v.val = false
        ∧ Frame [.regs, .faults, .vecMask, .pba, .pcie, .out] s t)
  ∧ (∀ (v : Fin 32) (s : State), s.inv = true → s.hostOn = true → s.pba.testBit v.val = false →
      Nexts (exec (.msixUnmask (.unmask v)) s) fun t =>
        t.out = s.out
        ∧ t.vecMask.testBit v.val = false
        ∧ t.pba.testBit v.val = false
        ∧ Frame [.vecMask, .pba] s t)
  ∧ (∀ (v : Fin 32) (x : BitVec 64) (s : State), s.inv = true → s.hostOn = true → x.getLsbD 0 = true →
      Nexts (exec (.msixUnmask (.bar4 (BitVec.ofNat 14 (16 * v.val + 12)) false x)) s) fun t =>
        t.vecMask.testBit v.val = true
        ∧ Frame [.vecMask] s t)
  ∧ (∀ (v : Fin 32) (k : Fin 3) (x : BitVec 64) (s : State), s.inv = true → s.hostOn = true →
      Nexts (exec (.msixUnmask (.bar4 (BitVec.ofNat 14 (16 * v.val + 4 * k.val)) false x)) s) fun t =>
        t.msixWord (16 * v.val + 4 * k.val) = (if k.val = 0 then x.setWidth 32 &&& 0xFFFFFFFC else x.setWidth 32)
        ∧ Frame [.pcie] s t)
  ∧ (∀ (cause : LinkReset) (s : State), s.inv = true → s.hostOn = true → cause ≠ .flr →
      Nexts (exec (.pcieLinkReset (.reset cause)) s) fun t =>
        t.vecMask = 0xFFFFFFFF
        ∧ t.pba.testBit 0 = false
        ∧ t.pcie.table = []
        ∧ t.pcie.command = 0
        ∧ t.pcie.bars = List.replicate 6 0
        ∧ t.rdP = none
        ∧ t.b 0x00300010 2 = false
        ∧ t.b 0x00300010 0 = false
        ∧ t.f 0x00300010 27 20 = 0
        ∧ t.sent Flt.pcieLinkDown (if cause = .dlDown then 1 else 2)
        ∧ Frame [.regs, .rdP, .heldP, .spn, .mac, .pwr, .faults, .vecMask, .pba, .pcie, .out, .free] s t)
  ∧ (∀ (s : State), s.inv = true → s.hostOn = true →
      Nexts (exec (.pcieLinkReset (.reset .flr)) s) fun t =>
        t.vecMask = 0xFFFFFFFF
        ∧ t.pcie.table = []
        ∧ t.pcie.command = 0
        ∧ t.b 0x00300010 1 = true
        ∧ t.sent Flt.pcieLinkDown 3
        ∧ (∀ c : Fin 16, t.b (dmaOff c.val) 31 = false)
        ∧ Frame [.regs, .rdP, .heldP, .spn, .mac, .pwr, .faults, .vecMask, .pba, .pcie, .out, .free] s t)
  ∧ (∀ (sp : Fin 4) (w : Fin 3) (s : State), s.inv = true → s.hostOn = true →
      Nexts (exec (.pcieLinkReset (.trained sp w)) s) fun t =>
        t.f 0x00300010 27 24 = sp.val + 1
        ∧ t.f 0x00300010 23 20 = 2 ^ w.val
        ∧ t.b 0x00300010 0 = true
        ∧ OnlyRegs [0x00300010] s t
        ∧ Frame [.regs] s t)
  ∧ (∀ (v : Word) (s : State), s.inv = true → s.hostOn = true →
      Nexts (exec (.pcieLinkReset (.config .command v)) s) fun t =>
        t.pcie.command = v &&& 0x0542
        ∧ t.b 0x00300010 2 = v.bit 2
        ∧ OnlyRegs [0x00300010] s t
        ∧ Frame [.regs, .pcie] s t)
  ∧ (∀ (bits : BitVec 21) (unc : Bool) (s : State), s.inv = true → s.hostOn = true →
        bits &&& ~~~((if unc then s.pcie.aerUncor else s.pcie.aerCor).setWidth 21) ≠ 0 →
      Nexts (exec (.pcieLinkReset (.aer unc bits)) s) fun t =>
        (if unc then t.pcie.aerUncor else t.pcie.aerCor) = ((if unc then s.pcie.aerUncor else s.pcie.aerCor) ||| bits.setWidth 32)
        ∧ t.sent Flt.pciePcieErr ((if unc then 2 ^ 31 else 0) + (bits &&& ~~~((if unc then s.pcie.aerUncor else s.pcie.aerCor).setWidth 21)).toNat)
        ∧ t.b Blk.mtx.irqOff 5 = true
        ∧ OnlyRegs [Blk.mtx.irqOff] s t
        ∧ Frame [.regs, .faults, .pba, .pcie, .out] s t)
  ∧ (∀ (s : State), s.inv = true →
      Nexts (exec (.flrComplete) s) fun t =>
        t.b 0x00300010 1 = false
        ∧ OnlyRegs [0x00300010] s t
        ∧ Frame [.regs] s t)
  ∧ (∀ (ad p : Byte) (o d : List Byte) (s : State), s.inv = true → s.hostOn = true → ad.toNat = s.f 0x00300050 6 0 * 2 → o.length = 4 → d.length = 4 →
        crc8 (ad :: (o ++ d)) = p.toNat → beNat o < 2 ^ 26 →
      Nexts (exec (.i2cWrite (ad :: (o ++ d ++ [p]))) s) fun t =>
        exec (.registerWrite .i2c (beNat o) (BitVec.ofNat 32 (beNat d))) s = .next t)
  ∧ (∀ (ad : Byte) (l : List Byte) (s : State), s.inv = true → s.hostOn = true → ad.toNat = s.f 0x00300050 6 0 * 2 → l.length = 9 →
        crc8 ((ad :: l).take 9) ≠ (l.getD 8 0).toNat →
      Nexts (exec (.i2cWrite (ad :: l)) s) fun t =>
        t.f 0x00300050 31 16 = min (s.f 0x00300050 31 16 + 1) 0xFFFF
        ∧ t.b 0x00300050 8 = true
        ∧ t.out.head? = some (.i2c [])
        ∧ t.b Blk.mtx.irqOff 1 = true
        ∧ t.rdI = s.rdI
        ∧ OnlyRegs [0x00300050, Blk.mtx.irqOff] s t
        ∧ Frame [.regs, .faults, .pba, .out] s t)
  ∧ (∀ (o3 o2 o1 o0 : Byte) (w r : Byte) (s : State), s.inv = true → s.hostOn = true → w.toNat = s.f 0x00300050 6 0 * 2 →
        r.toNat = s.f 0x00300050 6 0 * 2 + 1 → beNat [o3, o2, o1, o0] < 2 ^ 26 → s.reads .i2c (beNat [o3, o2, o1, o0]) = true → rcMask (beNat [o3,
        o2, o1, o0]) = 0 → latched (beNat [o3, o2, o1, o0]) = [] → banked (beNat [o3, o2, o1, o0]) = false → counterLo (beNat [o3, o2, o1,
        o0]) = false → laneOf (beNat [o3, o2, o1, o0]) = none → beNat [o3, o2, o1, o0] ≠ 0x02400080 → beNat [o3, o2, o1, o0] ≠ 0x01000024 →
        (beNat [o3, o2, o1, o0]) ≠ 0x00300040 → instOf (beNat [o3, o2, o1, o0]) 0x00300100 4 5 = none → (Blk.ofOff (beNat [o3, o2, o1,
        o0]) ≠ some .flt ∨ s.flt.split = []) →
      Nexts (exec (.i2cRead [w, o3, o2, o1, o0, r]) s) fun t =>
        t.rdI = some { value := ((s.regTally .i2c false).view (beNat [o3, o2, o1, o0])).setWidth 64 }
        ∧ t.out.length = s.out.length + 1
        ∧ Frame [.rdI, .tally, .out] s t)

/-- A key command does its work and ends with its code, or changes nothing but its code. GENERATE commits a fresh value, under the mask, to the
copy of the slot that is not active, and ends with code 0, or with code 4 where the DRBG is stopped. LOAD so commits the key that its
wrapped block holds and ends with code 0, or with code 2 where the block does not unwrap. ERASE clears both copies of a slot (but 5) that no
ring uses and ends with code 0, and ends with code 8 for a ring slot in use. ATTEST signs its message with the identity key. Without a valid
root GENERATE and LOAD end with code 3; with one, after a zeroisation, LOAD ends with code 9. While the use of keys is frozen GENERATE, LOAD
and ATTEST are held with BUSY set. DISARM clears the loops where the signature over its nonce holds and ends with code 5 where it does not,
with code 6 without an owner key, with code 9 after ZEROISE; it spends its nonce. ZEROISE clears both copies of every slot and the derived
keys, and with ARG_BURN it is a detection of source 7 besides. Where these commands rest on choices of the model, log entries 7, 29, 51, 56
name them. (13_keys_identity_and_tamper.md, R341; 13_keys_identity_and_tamper.md, R343; 13_keys_identity_and_tamper.md, R344;
13_keys_identity_and_tamper.md, R345; 13_keys_identity_and_tamper.md, R347; 13_keys_identity_and_tamper.md, R350;
13_keys_identity_and_tamper.md, R352; 13_keys_identity_and_tamper.md, R353; 18_power_electrical_and_package.md, R443.) -/
def Obligations.KeyCommandsEndWithTheirCode : Prop :=
  (∀ (i : Itf) (slot : BitVec 6) (kid ld mask : BitVec 256) (s : State), s.inv = true → s.serves i 0x02400100 = true → s.keys.frozen = false →
        s.keyBar = 0 → s.drbgOk = true → s.keys.derived = some (kid, ld, mask) → slot.toNat ≠ 4 → slot.toNat ≠ 5 →
      Nexts (exec (.generate i slot) s) fun t =>
        (if s.slotActive slot.toNat = 1 then t.keys.copyB else t.keys.copyA).getD slot.toNat 0 = Config.freeValue 256 s.free ^^^ mask
        ∧ t.slotActive slot.toNat = (if s.slotActive slot.toNat = 1 then 2 else 1)
        ∧ t.rd 0x02400104 = BitVec.ofNat 32 (0 * 2 ^ 24 + slot.toNat)
        ∧ t.b Blk.key.irqOff 0 = true
        ∧ OnlyRegs [0x02400104, slotOff slot.toNat, Blk.key.irqOff] s t
        ∧ Frame [.regs, .keys, .pba, .tally, .out, .free] s t)
  ∧ (∀ (i : Itf) (slot : BitVec 6) (kid ld mask : BitVec 256) (s : State), s.inv = true → s.serves i 0x02400100 = true → s.keys.frozen = false →
        s.keyBar = 0 → s.drbgOk = true → s.keys.derived = some (kid, ld, mask) →
      Nexts (exec (.generate i slot) s) fun t =>
        (if s.slotActive slot.toNat = 1 then t.keys.copyB else t.keys.copyA).getD slot.toNat 0 = Config.freeValue 256 s.free ^^^ mask
        ∧ t.slotActive slot.toNat = (if s.slotActive slot.toNat = 1 then 2 else 1)
        ∧ t.rd 0x02400104 = BitVec.ofNat 32 (0 * 2 ^ 24 + slot.toNat)
        ∧ Frame [.regs, .heldP, .heldI, .spn, .tiuP, .tiuL, .lanes, .pps, .ens, .tnd, .mac, .pkt, .cst, .pwr, .trace, .keys, .faults, .pba, .tally,
        .mem, .out, .free] s t)
  ∧ (∀ (i : Itf) (slot : BitVec 6) (s : State), s.inv = true → s.serves i 0x02400100 = true → s.keys.frozen = false → s.keyBar = 0 → s.drbgOk = false →
      Nexts (exec (.generate i slot) s) fun t =>
        t.rd 0x02400104 = BitVec.ofNat 32 (4 * 2 ^ 24 + slot.toNat)
        ∧ t.sent Flt.keyCmdFail (0x10000400 + slot.toNat)
        ∧ OnlyRegs [0x02400104, Blk.key.irqOff] s t
        ∧ Frame [.regs, .faults, .pba, .tally, .out] s t)
  ∧ (∀ (i : Itf) (slot : BitVec 6) (s : State), s.inv = true → s.serves i 0x02400100 = true → s.keys.frozen = false → s.rootValid = false →
      Nexts (exec (.generate i slot) s) fun t =>
        t.rd 0x02400104 = BitVec.ofNat 32 (3 * 2 ^ 24 + slot.toNat)
        ∧ t.sent Flt.keyCmdFail (0x10000300 + slot.toNat)
        ∧ OnlyRegs [0x02400104, Blk.key.irqOff] s t
        ∧ Frame [.regs, .faults, .pba, .tally, .out] s t)
  ∧ (∀ (i : Itf) (slot : BitVec 6) (s : State), s.inv = true → s.serves i 0x02400100 = true → s.keys.frozen = true →
      Nexts (exec (.generate i slot) s) fun t =>
        t.keys.cmd = some (BitVec.ofNat 32 (0x10000000 + slot.toNat))
        ∧ t.rd 0x02400104 = BitVec.ofNat 32 (2 ^ 31 + slot.toNat)
        ∧ t.keys.copyA = s.keys.copyA
        ∧ t.keys.copyB = s.keys.copyB
        ∧ OnlyRegs [0x02400104] s t
        ∧ Frame [.regs, .keys, .tally] s t)
  ∧ (∀ (i : Itf) (slot : BitVec 6) (kid ld mask : BitVec 256) (s : State), s.inv = true → s.serves i 0x02400100 = true → s.keys.frozen = false →
        s.keyBar = 0 → s.keys.derived = some (kid, ld, mask) → slot.toNat ≠ 4 → slot.toNat ≠ 5 →
      Nexts (exec (.load i slot) s) fun t =>
        t.rd 0x02400104 = BitVec.ofNat 32 ((if (s.loadKey ld slot.toNat).isSome then 0 else 2) * 2 ^ 24 + slot.toNat)
        ∧ (if (s.loadKey ld slot.toNat).isSome then (if s.slotActive slot.toNat = 1 then t.keys.copyB else t.keys.copyA).getD slot.toNat 0 = BitVec.ofNat 256 (leNat ((s.loadKey ld slot.toNat).getD [])) ^^^ mask else t.keys = s.keys)
        ∧ t.slotActive slot.toNat = (if (s.loadKey ld slot.toNat).isNone then s.slotActive slot.toNat else if s.slotActive slot.toNat = 1 then 2 else 1)
        ∧ t.b Blk.key.irqOff 0 = true
        ∧ OnlyRegs [0x02400104, slotOff slot.toNat, Blk.key.irqOff] s t
        ∧ Frame [.regs, .keys, .faults, .pba, .tally, .out] s t)
  ∧ (∀ (i : Itf) (slot : BitVec 6) (kid ld mask : BitVec 256) (s : State), s.inv = true → s.serves i 0x02400100 = true → s.keys.frozen = false →
        s.keyBar = 0 → s.keys.derived = some (kid, ld, mask) →
      Nexts (exec (.load i slot) s) fun t =>
        (if (s.loadKey ld slot.toNat).isSome then (if s.slotActive slot.toNat = 1 then t.keys.copyB else t.keys.copyA).getD slot.toNat 0 = BitVec.ofNat 256 (leNat ((s.loadKey ld slot.toNat).getD [])) ^^^ mask
        ∧ t.slotActive slot.toNat = (if s.slotActive slot.toNat = 1 then 2 else 1)
        ∧ t.rd 0x02400104 = BitVec.ofNat 32 (0 * 2 ^ 24 + slot.toNat) else t.keys = s.keys
        ∧ t.rd 0x02400104 = BitVec.ofNat 32 (2 * 2 ^ 24 + slot.toNat))
        ∧ Frame [.regs, .heldP, .heldI, .spn, .tiuP, .tiuL, .lanes, .pps, .ens, .tnd, .mac, .pkt, .cst, .pwr, .trace, .keys, .faults, .pba, .tally,
        .mem, .out, .free] s t)
  ∧ (∀ (i : Itf) (slot : BitVec 6) (s : State), s.inv = true → s.serves i 0x02400100 = true → s.keys.frozen = false → s.rootValid = true →
        s.keys.notAuth = true →
      Nexts (exec (.load i slot) s) fun t =>
        t.rd 0x02400104 = BitVec.ofNat 32 (9 * 2 ^ 24 + slot.toNat)
        ∧ t.sent Flt.keyCmdFail (0x20000900 + slot.toNat)
        ∧ OnlyRegs [0x02400104, Blk.key.irqOff] s t
        ∧ Frame [.regs, .faults, .pba, .tally, .out] s t)
  ∧ (∀ (i : Itf) (slot : BitVec 6) (s : State), s.inv = true → s.serves i 0x02400100 = true → s.keys.frozen = false → s.rootValid = false →
      Nexts (exec (.load i slot) s) fun t =>
        t.rd 0x02400104 = BitVec.ofNat 32 (3 * 2 ^ 24 + slot.toNat)
        ∧ t.sent Flt.keyCmdFail (0x20000300 + slot.toNat)
        ∧ OnlyRegs [0x02400104, Blk.key.irqOff] s t
        ∧ Frame [.regs, .faults, .pba, .tally, .out] s t)
  ∧ (∀ (i : Itf) (slot : BitVec 6) (s : State), s.inv = true → s.serves i 0x02400100 = true → s.keys.frozen = true →
      Nexts (exec (.load i slot) s) fun t =>
        t.keys.cmd = some (BitVec.ofNat 32 (0x20000000 + slot.toNat))
        ∧ t.rd 0x02400104 = BitVec.ofNat 32 (2 ^ 31 + slot.toNat)
        ∧ t.keys.copyA = s.keys.copyA
        ∧ t.keys.copyB = s.keys.copyB
        ∧ OnlyRegs [0x02400104] s t
        ∧ Frame [.regs, .keys, .tally] s t)
  ∧ (∀ (i : Itf) (slot : BitVec 6) (s : State), s.inv = true → s.serves i 0x02400100 = true → s.keyBar = 0 →
        (4 ≤ slot.toNat ∨ s.ringState slot.toNat = 0) → slot.toNat ≠ 5 →
      Nexts (exec (.erase i slot) s) fun t =>
        t.keys.copyA.getD slot.toNat 0 = 0
        ∧ t.keys.copyB.getD slot.toNat 0 = 0
        ∧ t.slotActive slot.toNat = 0
        ∧ t.rd 0x02400104 = BitVec.ofNat 32 (0 * 2 ^ 24 + slot.toNat)
        ∧ OnlyRegs [0x02400104, slotOff slot.toNat, Blk.key.irqOff] s t
        ∧ Frame [.regs, .keys, .pba, .tally, .out] s t)
  ∧ (∀ (i : Itf) (slot : BitVec 6) (s : State), s.inv = true → s.serves i 0x02400100 = true → s.keyBar = 0 → slot.toNat < 4 → s.ringState slot.toNat ≠ 0 →
      Nexts (exec (.erase i slot) s) fun t =>
        t.rd 0x02400104 = BitVec.ofNat 32 (8 * 2 ^ 24 + slot.toNat)
        ∧ OnlyRegs [0x02400104, Blk.key.irqOff] s t
        ∧ Frame [.regs, .faults, .pba, .tally, .out] s t)
  ∧ (∀ (i : Itf) (slot : BitVec 6) (kid ld mask : BitVec 256) (s : State), s.inv = true → s.serves i 0x02400100 = true → s.keys.frozen = false →
        s.keyBar = 0 → s.keys.derived = some (kid, ld, mask) →
      Nexts (exec (.attest i slot) s) fun t =>
        t.regBytes 0x02400160 16 = leBytes 64 (Config.ed25519Sign kid (ascii "UT9440-ATTEST" ++ s.regBytes 0x02400160 8 ++ s.regBytes 0x02400040 8 ++ s.regBytes 0x02400060 8 ++ beBytes 4 (s.rd 0x00000014).toNat)).toNat
        ∧ t.rd 0x02400104 = BitVec.ofNat 32 (0 * 2 ^ 24 + slot.toNat)
        ∧ Frame [.regs, .pba, .tally, .out] s t)
  ∧ (∀ (i : Itf) (slot : BitVec 6) (s : State), s.inv = true → s.serves i 0x02400100 = true → s.keys.frozen = true →
      Nexts (exec (.attest i slot) s) fun t =>
        t.keys.cmd = some (BitVec.ofNat 32 (0x40000000 + slot.toNat))
        ∧ t.rd 0x02400104 = BitVec.ofNat 32 (2 ^ 31 + slot.toNat)
        ∧ t.keys.copyA = s.keys.copyA
        ∧ t.keys.copyB = s.keys.copyB
        ∧ OnlyRegs [0x02400104] s t
        ∧ Frame [.regs, .keys, .tally] s t)
  ∧ (∀ (i : Itf) (loops : BitVec 4) (pub : BitVec 256) (n : BitVec 128) (s : State), s.inv = true → s.serves i 0x02400100 = true →
        s.keys.chestOnly = false → s.img.ownerKey = some pub → s.keys.nonce = some n →
      Nexts (exec (.disarm i loops) s) fun t =>
        t.rd 0x02400104 = BitVec.ofNat 32 ((if Config.ed25519Verify pub (ascii "UT9440-DISARM" ++ leBytes 16 n.toNat ++ [BitVec.ofNat 8 loops.toNat]) (BitVec.ofNat 512 (leNat (s.regBytes 0x02400160 16))) then 0 else 5) * 2 ^ 24)
        ∧ t.rd 0x02402000 = (if Config.ed25519Verify pub (ascii "UT9440-DISARM" ++ leBytes 16 n.toNat ++ [BitVec.ofNat 8 loops.toNat]) (BitVec.ofNat 512 (leNat (s.regBytes 0x02400160 16))) then s.rd 0x02402000 &&& ~~~(BitVec.ofNat 32 loops.toNat) else s.rd 0x02402000)
        ∧ t.keys.nonce = none
        ∧ Frame [.regs, .heldP, .heldI, .spn, .tiuP, .tiuL, .lanes, .pps, .ens, .tnd, .mac, .pkt, .cst, .pwr, .trace, .keys, .faults, .pba, .tally,
        .mem, .out, .free] s t)
  ∧ (∀ (i : Itf) (loops : BitVec 4) (s : State), s.inv = true → s.serves i 0x02400100 = true → s.keys.chestOnly = false → s.img.ownerKey = none →
      Nexts (exec (.disarm i loops) s) fun t =>
        t.rd 0x02400104 = BitVec.ofNat 32 (6 * 2 ^ 24 + 0)
        ∧ t.keys.nonce = none
        ∧ t.rd 0x02402000 = s.rd 0x02402000
        ∧ (∀ k : Fin 4, t.rd (0x02400080 + 4 * k.val) = 0)
        ∧ Frame [.regs, .heldP, .heldI, .spn, .tiuP, .tiuL, .lanes, .pps, .ens, .tnd, .mac, .pkt, .cst, .pwr, .trace, .keys, .faults, .pba, .tally,
        .mem, .out, .free] s t)
  ∧ (∀ (i : Itf) (loops : BitVec 4) (s : State), s.inv = true → s.serves i 0x02400100 = true → s.keys.chestOnly = true →
      Nexts (exec (.disarm i loops) s) fun t =>
        t.rd 0x02400104 = BitVec.ofNat 32 (9 * 2 ^ 24 + 0)
        ∧ t.keys.nonce = none
        ∧ t.rd 0x02402000 = s.rd 0x02402000
        ∧ Frame [.regs, .heldP, .heldI, .spn, .tiuP, .tiuL, .lanes, .pps, .ens, .tnd, .mac, .pkt, .cst, .pwr, .trace, .keys, .faults, .pba, .tally,
        .mem, .out, .free] s t)
  ∧ (∀ (i : Itf) (s : State), s.inv = true → s.serves i 0x02400100 = true → s.pwr.mainOff = false →
      Nexts (exec (.zeroise i false) s) fun t =>
        t.keys.copyA = List.replicate 64 0
        ∧ t.keys.copyB = List.replicate 64 0
        ∧ t.keys.derived = none
        ∧ t.keys.notAuth = true
        ∧ t.keys.chestOnly = true
        ∧ (∀ k : Fin 64, t.slotActive k.val = 0)
        ∧ t.rd 0x02400104 = BitVec.ofNat 32 (0 * 2 ^ 24 + 0)
        ∧ t.keys.rootField = s.keys.rootField
        ∧ Frame [.regs, .heldP, .heldI, .spn, .tiuP, .tiuL, .lanes, .pps, .ens, .tnd, .mac, .pkt, .cst, .pwr, .trace, .keys, .faults, .pba, .tally,
        .mem, .out, .free] s t)
  ∧ (∀ (i : Itf) (s : State), s.inv = true → s.serves i 0x02400100 = true → s.pwr.mainOff = false → s.keys.zeroTo ≤ s.spn.ticks →
      Nexts (exec (.zeroise i true) s) fun t =>
        t.keys.copyA = List.replicate 64 0
        ∧ t.keys.copyB = List.replicate 64 0
        ∧ t.keys.derived = none
        ∧ t.b 0x02402010 7 = true
        ∧ t.b 0x02402010 31 = true
        ∧ t.sent Flt.keyTamper (s.f 0x02402010 7 0 ||| 128)
        ∧ t.rd 0x02400040 = 0
        ∧ Frame [.regs, .heldP, .heldI, .spn, .tiuP, .tiuL, .lanes, .pps, .ens, .tnd, .mac, .pkt, .cst, .pwr, .trace, .keys, .faults, .pba, .tally,
        .mem, .out, .free] s t)

/-- A detection zeroises and asks for a burn, a burn destroys the root, the entropy source stops and returns. An armed loop that opens, and
every other source, records itself, with the seconds of the keep-counter where it is the first, clears the Chest and the derived keys, stops
the authenticated services and sets BURN_PENDING with KEY/TAMPER; on VBAT alone the message is kept for the next start, and during a
zeroisation a detection only adds to the record. A loop that is not armed only loses its bit. A burn ends in DESTROYED after 4.5 ms and not
before, or in DAMAGED where CRES cannot complete it. Loops are armed by a write, and one that is open then is a detection. A failing health
test stops the DRBG with KEY/ENTROPY_FAIL after two failed restarts and not before; 60 s later a test that passes starts it again. A
departure of the core rail freezes the use of keys for 10 µs: a rail that returns within them is a detection of source 4, one that does not
is a loss of main power. A loss of VBAT without main power clears the Chest, the arming and the keep-counter. Where these commands rest on
choices of the model, log entries 3, 5, 28, 29, 51 name them. (11_packet_time_service.md, R299; 13_keys_identity_and_tamper.md, R334;
13_keys_identity_and_tamper.md, R337; 13_keys_identity_and_tamper.md, R350; 13_keys_identity_and_tamper.md, R351;
13_keys_identity_and_tamper.md, R352; 13_keys_identity_and_tamper.md, R354; 13_keys_identity_and_tamper.md, R357;
18_power_electrical_and_package.md, R443.) -/
def Obligations.TamperDetectionsAndTheRoot : Prop :=
  (∀ (source : Fin 7) (away : Nat) (s : State), s.inv = true → s.pwr.mainOff = false → (4 ≤ source.val ∨ s.b 0x02402000 source.val = true) →
        s.keys.zeroTo ≤ s.spn.ticks →
      Nexts (exec (.tamper ⟨source, away⟩) s) fun t =>
        t.b 0x02402010 source.val = true
        ∧ t.b 0x02402010 31 = true
        ∧ t.b 0x02400010 5 = true
        ∧ t.keys.copyA = List.replicate 64 0
        ∧ t.keys.copyB = List.replicate 64 0
        ∧ t.keys.derived = none
        ∧ t.keys.notAuth = true
        ∧ t.b 0x02200014 31 = true
        ∧ t.sent Flt.keyTamper (s.f 0x02402010 7 0 ||| 2 ^ source.val)
        ∧ t.f 0x0240201C 15 0 = min (s.f 0x0240201C 15 0 + 1) 0xFFFF
        ∧ (s.f 0x02402010 7 0 = 0 → t.rd64 0x02402014 = s.keepNow / 2 ^ 15 % 2 ^ 48)
        ∧ Frame [.regs, .spn, .tiuP, .tiuL, .lanes, .pps, .ens, .tnd, .mac, .pkt, .cst, .trace, .keys, .faults, .pba, .tally, .mem, .out, .free] s t)
  ∧ (∀ (source : Fin 7) (away : Nat) (s : State), s.inv = true → s.pwr.mainOff = true → 4 ≤ source.val →
      Nexts (exec (.tamper ⟨source, away⟩) s) fun t =>
        t.b 0x02402010 source.val = true
        ∧ t.b 0x02402010 28 = true
        ∧ t.b 0x02402010 31 = true
        ∧ t.keys.copyA = List.replicate 64 0
        ∧ t.keys.copyB = List.replicate 64 0
        ∧ t.faults = s.faults
        ∧ t.keys.later.length = s.keys.later.length + 1
        ∧ (s.f 0x02402010 7 0 = 0 → t.rd64 0x02402014 = (s.keepNow + away) / 2 ^ 15 % 2 ^ 48)
        ∧ Frame [.regs, .spn, .tiuP, .tiuL, .lanes, .pps, .ens, .tnd, .mac, .pkt, .cst, .trace, .keys, .faults, .pba, .tally, .mem, .out, .free] s t)
  ∧ (∀ (source : Fin 7) (away : Nat) (s : State), s.inv = true → s.pwr.mainOff = false → 4 ≤ source.val → s.spn.ticks < s.keys.zeroTo →
      Nexts (exec (.tamper ⟨source, away⟩) s) fun t =>
        t.b 0x02402010 source.val = true
        ∧ t.f 0x0240201C 15 0 = min (s.f 0x0240201C 15 0 + 1) 0xFFFF
        ∧ t.faults = s.faults
        ∧ t.keys.copyA = s.keys.copyA
        ∧ Frame [.regs, .spn, .tiuP, .tiuL, .lanes, .pps, .ens, .tnd, .mac, .pkt, .cst, .trace, .keys, .faults, .pba, .tally, .mem, .out, .free] s t)
  ∧ (∀ (source : Fin 7) (away : Nat) (s : State), s.inv = true → source.val < 4 → s.b 0x02402000 source.val = false →
      Nexts (exec (.tamper ⟨source, away⟩) s) fun t =>
        t.b 0x02402008 source.val = false
        ∧ OnlyRegs [0x02402008] s t
        ∧ Frame [.regs] s t)
  ∧ (∀ (b : Nat) (s : State), s.inv = true → s.keys.burnFrom = some b → b + 9000000 ≤ s.spn.ticks →
      Nexts (exec (.burnDone) s) fun t =>
        t.keys.rootField = 3
        ∧ t.keys.root = 0
        ∧ t.keys.burnFrom = none
        ∧ t.b 0x02402010 31 = false
        ∧ t.b 0x02402010 30 = true
        ∧ t.sent Flt.keyBurnDone 0
        ∧ OnlyRegs [0x02402010, 0x02400010, Blk.key.irqOff] s t
        ∧ Frame [.regs, .keys, .faults, .pba, .out] s t)
  ∧ (∀ (b : Nat) (s : State), s.inv = true → s.keys.burnFrom = some b → s.spn.ticks < b + 9000000 →
      Nexts (exec (.burnDone) s) fun t =>
        t = s)
  ∧ (∀ (b : Nat) (s : State), s.inv = true → s.keys.burnFrom = some b → s.keys.rootField ≠ 3 →
      Nexts (exec (.burnIncomplete) s) fun t =>
        t.keys.rootField = 2
        ∧ t.keys.root = 0
        ∧ t.keys.burnFrom = none
        ∧ t.sent Flt.keyBurnIncomplete 0
        ∧ OnlyRegs [Blk.key.irqOff] s t
        ∧ Frame [.regs, .keys, .faults, .pba, .out] s t)
  ∧ (∀ (i : Itf) (v : Word) (intact : BitVec 4) (s : State), s.inv = true → s.serves i 0x02402000 = true → v.field 3 0 &&& intact.toNat = v.field 3 0 →
      Nexts (exec (.tampArmWrite i v intact) s) fun t =>
        t.rd 0x02402000 = s.rd 0x02402000 ||| (v &&& 0xF)
        ∧ t.f 0x02402008 3 0 = intact.toNat
        ∧ OnlyRegs [0x02402000, 0x02402008] s t
        ∧ Frame [.regs, .tally] s t)
  ∧ (∀ (i : Itf) (v : Word) (intact : BitVec 4) (k : Fin 4) (s : State), s.inv = true → s.serves i 0x02402000 = true → s.pwr.mainOff = false →
        s.keys.zeroTo ≤ s.spn.ticks → v.bit k.val = true → intact.toNat.testBit k.val = false →
      Nexts (exec (.tampArmWrite i v intact) s) fun t =>
        t.b 0x02402010 k.val = true
        ∧ t.b 0x02402010 31 = true
        ∧ t.keys.copyA = List.replicate 64 0
        ∧ t.keys.copyB = List.replicate 64 0
        ∧ Frame [.regs, .heldP, .heldI, .spn, .tiuP, .tiuL, .lanes, .pps, .ens, .tnd, .mac, .pkt, .cst, .pwr, .trace, .keys, .faults, .pba, .tally,
        .mem, .out, .free] s t)
  ∧ (∀ (restarts : Nat) (s : State), s.inv = true → s.drbgOk = true → 2 ≤ restarts →
      Nexts (exec (.healthTestFail restarts) s) fun t =>
        t.drbgOk = false
        ∧ t.keys.retryFrom = s.spn.ticks
        ∧ t.sent Flt.keyEntropyFail 0
        ∧ t.b Blk.key.irqOff 4 = true
        ∧ OnlyRegs [0x02400010, Blk.key.irqOff] s t
        ∧ Frame [.regs, .keys, .faults, .pba, .out] s t)
  ∧ (∀ (restarts : Nat) (s : State), s.inv = true → restarts < 2 →
      Nexts (exec (.healthTestFail restarts) s) fun t =>
        t = s)
  ∧ (∀ (s : State), s.inv = true → s.drbgOk = false → 3 ≤ s.phase → 60 ≤ ticksSec s.keys.retryFrom s.spn.ticks →
      Nexts (exec (.entropyRetry true) s) fun t =>
        t.drbgOk = true
        ∧ t.b Blk.key.irqOff 4 = true
        ∧ OnlyRegs [0x02400010, Blk.key.irqOff] s t
        ∧ Frame [.regs, .keys, .pba, .out] s t)
  ∧ (∀ (passed : Bool) (s : State), s.inv = true → ticksSec s.keys.retryFrom s.spn.ticks < 60 →
      Nexts (exec (.entropyRetry passed) s) fun t =>
        t = s)
  ∧ (∀ (s : State), s.inv = true → s.pwr.mainOff = false → s.keys.frozen = false →
      Nexts (exec (.coreDeparture) s) fun t =>
        t.keys.frozen = true
        ∧ t.keys.frozenTo = s.spn.ticks + 20000
        ∧ Frame [.keys] s t)
  ∧ (∀ (s : State), s.inv = true → s.keys.frozen = true → s.spn.ticks ≤ s.keys.frozenTo → s.keys.zeroTo ≤ s.spn.ticks → s.pwr.mainOff = false →
        s.heldP = [] → s.heldI = [] →
      Nexts (exec (.coreDepartureDecided true) s) fun t =>
        t.keys.frozen = false
        ∧ t.b 0x02402010 4 = true
        ∧ t.keys.copyA = List.replicate 64 0
        ∧ t.keys.copyB = List.replicate 64 0
        ∧ t.pending = s.pending)
  ∧ (∀ (s : State), s.inv = true → s.keys.frozen = true → s.keys.frozenTo ≤ s.spn.ticks →
      Nexts (exec (.coreDepartureDecided false) s) fun t =>
        t.phase = phRESET
        ∧ t.pwr.mainOff = true
        ∧ t.pending = s.pending)
  ∧ (∀ (cellLost : Bool) (s : State), s.inv = true → s.pwr.mainOff = true →
      Nexts (exec (.vbatLoss cellLost) s) fun t =>
        t.keys.copyA = List.replicate 64 0
        ∧ t.keys.copyB = List.replicate 64 0
        ∧ t.rd 0x02402000 = 0
        ∧ t.pwr.keepValid = false
        ∧ t.keys.vbatLost = some cellLost
        ∧ t.b 0x02402010 31 = (s.b 0x02402010 31 && !cellLost)
        ∧ Frame [.regs, .pwr, .keys] s t)

/-- The load window fills the buffer and hands it over, and the owner row is burned as its commands ask. In LOAD_WAIT START clears the buffer
and the address, a data write puts four bytes at the address and advances it, and GO sends the image to VERIFY; in every other phase they
change nothing. Where owner commands are taken FUSE starts a burn of a blank row and ends with NOT_BLANK on another; SET_REQUIRE starts one
of the REQUIRE bits of a row that is PRESENT and ends with NOT_PRESENT on another. A burn that misses no bit ends with code 0 and the row as
burned. Where these commands rest on choices of the model, log entries 5, 33 name them. (17_configuration_image_and_startup.md, R420;
17_configuration_image_and_startup.md, R434.) -/
def Obligations.LoadWindowAndOwnerRow : Prop :=
  (∀ (i : Itf) (s : State), s.inv = true → s.serves i 0x00000030 = true → s.phase = phLOADWAIT →
      Nexts (exec (.loadStart i) s) fun t =>
        t.img.buf = []
        ∧ t.img.full = false
        ∧ t.rd 0x00000034 = 0
        ∧ OnlyRegs [0x00000034] s t
        ∧ Frame [.regs, .heldP, .heldI, .img, .pwr, .faults, .pba, .tally, .out] s t)
  ∧ (∀ (i : Itf) (s : State), s.inv = true → s.serves i 0x00000030 = true → s.phase ≠ phLOADWAIT →
      Nexts (exec (.loadStart i) s) fun t =>
        t.phase = s.phase
        ∧ Frame [.tally] s t)
  ∧ (∀ (i : Itf) (v : Word) (s : State), s.inv = true → s.serves i 0x00000038 = true → s.phase = phLOADWAIT → s.img.full = false →
        s.f 0x00000034 18 0 % 4 = 0 → s.f 0x00000034 18 0 ≤ s.img.buf.length →
      Nexts (exec (.loadData i v) s) fun t =>
        slice t.img.buf (s.f 0x00000034 18 0) 4 = leBytes 4 v.toNat
        ∧ t.img.buf.take (s.f 0x00000034 18 0) = s.img.buf.take (s.f 0x00000034 18 0)
        ∧ t.rd 0x00000034 = BitVec.ofNat 32 ((s.f 0x00000034 18 0 + 4) % 524288)
        ∧ OnlyRegs [0x00000034] s t
        ∧ Frame [.regs, .heldP, .heldI, .img, .pwr, .faults, .pba, .tally, .out] s t)
  ∧ (∀ (i : Itf) (s : State), s.inv = true → s.serves i 0x00000030 = true → s.phase = phLOADWAIT →
      Nexts (exec (.loadGo i) s) fun t =>
        t.phase = phVERIFY
        ∧ t.img.src = 2
        ∧ OnlyRegs [0x00000010] s t
        ∧ Frame [.regs, .heldP, .heldI, .img, .pwr, .faults, .pba, .tally, .out] s t)
  ∧ (∀ (i : Itf) (v : Word) (s : State), s.inv = true → s.serves i 0x00000038 = true → s.phase ≠ phLOADWAIT →
      Nexts (exec (.loadData i v) s) fun t =>
        t.phase = s.phase
        ∧ Frame [.tally] s t)
  ∧ (∀ (i : Itf) (s : State), s.inv = true → s.serves i 0x00000030 = true → s.phase ≠ phLOADWAIT →
      Nexts (exec (.loadGo i) s) fun t =>
        t.phase = s.phase
        ∧ Frame [.tally] s t)
  ∧ (∀ (i : Itf) (req : Bool) (s : State), s.inv = true → s.serves i 0x00000060 = true → s.ownerTakes = true → s.img.ownerRow = 0 →
      Nexts (exec (.fuse i req) s) fun t =>
        t.b 0x00000064 31 = true
        ∧ t.img.burnHash = s.ownerHashReg
        ∧ t.img.burnComp = ~~~s.ownerHashReg
        ∧ t.img.burnBits = (if req then 7 else 1)
        ∧ OnlyRegs [0x00000064] s t
        ∧ Frame [.regs, .img, .tally] s t)
  ∧ (∀ (i : Itf) (req : Bool) (s : State), s.inv = true → s.serves i 0x00000060 = true → s.ownerTakes = true → s.img.ownerRow ≠ 0 →
      Nexts (exec (.fuse i req) s) fun t =>
        t.f 0x00000064 11 8 = 1
        ∧ t.b 0x00000064 31 = false
        ∧ t.b Blk.cfg.irqOff 2 = true
        ∧ OnlyRegs [0x00000064, Blk.cfg.irqOff] s t
        ∧ Frame [.regs, .pba, .tally, .out] s t)
  ∧ (∀ (i : Itf) (s : State), s.inv = true → s.serves i 0x00000060 = true → s.ownerTakes = true → s.img.ownerRow = 1 →
      Nexts (exec (.setRequire i) s) fun t =>
        t.b 0x00000064 31 = true
        ∧ t.img.burnBits = 6
        ∧ t.img.burnHash = 0
        ∧ OnlyRegs [0x00000064] s t
        ∧ Frame [.regs, .img, .tally] s t)
  ∧ (∀ (i : Itf) (s : State), s.inv = true → s.serves i 0x00000060 = true → s.ownerTakes = true → s.img.ownerRow ≠ 1 →
      Nexts (exec (.setRequire i) s) fun t =>
        t.f 0x00000064 11 8 = 2
        ∧ t.b 0x00000064 31 = false
        ∧ t.b Blk.cfg.irqOff 2 = true
        ∧ OnlyRegs [0x00000064, Blk.cfg.irqOff] s t
        ∧ Frame [.regs, .pba, .tally, .out] s t)
  ∧ (∀ (s : State), s.inv = true → s.b 0x00000064 31 = true →
      Nexts (exec (.ownerBurnDone 0) s) fun t =>
        t.img.ownerHash = s.img.ownerHash ||| s.img.burnHash
        ∧ t.img.ownerComp = s.img.ownerComp ||| s.img.burnComp
        ∧ t.img.ownerBits = s.img.ownerBits ||| s.img.burnBits
        ∧ t.b 0x00000064 31 = false
        ∧ t.f 0x00000064 11 8 = 0
        ∧ t.b Blk.cfg.irqOff 2 = true
        ∧ OnlyRegs [0x00000064, Blk.cfg.irqOff] s t
        ∧ Frame [.regs, .img, .pba, .out] s t)

/-- Start-up goes from RESET through KEYS, FETCH, VERIFY, STRUCT, POWER and REGS to RUN. The release of reset samples the straps and enters
KEYS, or BURN where a burn is pending. A start after main power was off forgets an earlier zeroisation. KEYS with a valid root derives the
keys, reports the slots whose commit words disagree and, for BOOT_SRC 1, enters LOAD_WAIT, but derives nothing after a tamper in this start;
with a blank root field it creates a root, but none while a burn is pending; with a destroyed root it reports KEY/NO_ROOT and, for BOOT_SRC
0, enters FETCH; with TEST_N low it enters TEST. FETCH takes the newer of the copies whose headers pass, and enters LOAD_WAIT where none
does. VERIFY goes on to STRUCT, or refuses the image with the code and the detail of the first check that fails. STRUCT builds the structure
and goes on to POWER, or refuses the image with code 8 or 9. A domain that fails to power up refuses it with code 0x0D; powered domains and
no REGISTERS records enter REGS. The last phase records the generation and enters RUN with CFG/IMAGE_LOADED. Where these commands rest on
choices of the model, log entries 5, 18, 28, 33, 51, 52, 56 name them. (17_configuration_image_and_startup.md, R417;
17_configuration_image_and_startup.md, R418; 17_configuration_image_and_startup.md, R419; 17_configuration_image_and_startup.md, R425;
17_configuration_image_and_startup.md, R427; 17_configuration_image_and_startup.md, R428; 17_configuration_image_and_startup.md, R429.) -/
def Obligations.StartUpRunsItsPhases : Prop :=
  (∀ (away : Nat) (boot : Fin 4) (unitB compat testN : Bool) (s : State), s.inv = true → s.phase = phRESET → s.b 0x02402010 31 = false →
      Nexts (exec (.resetRelease away boot unitB compat testN) s) fun t =>
        t.phase = phKEYS
        ∧ t.f 0x00000010 23 22 = boot.val
        ∧ t.b 0x00000010 21 = unitB
        ∧ t.b 0x00000010 20 = compat
        ∧ t.b 0x00000010 19 = testN
        ∧ t.f 0x00300050 6 0 = (if unitB then 0x59 else 0x58)
        ∧ t.f 0x00100030 9 0 = 0x3FF
        ∧ t.pwr.mainOff = false
        ∧ t.pwr.keep = s.pwr.keep + away
        ∧ (s.pwr.mainOff = true → t.keys.notAuth = false ∧ t.b 0x02400010 4 = false)
        ∧ Frame [.regs, .pwr, .keys, .faults, .pba, .out] s t)
  ∧ (∀ (away : Nat) (boot : Fin 4) (unitB compat testN : Bool) (s : State), s.inv = true → s.phase = phRESET → s.b 0x02402010 31 = true →
      Nexts (exec (.resetRelease away boot unitB compat testN) s) fun t =>
        t.phase = phBURN
        ∧ t.pwr.mainOff = false
        ∧ Frame [.regs, .pwr, .keys, .faults, .pba, .out] s t)
  ∧ (∀ (bad : List (Fin 64)) (s : State), s.inv = true → s.phase = phKEYS → s.b 0x00000010 19 = true → s.keys.rootField = 1 → s.f 0x00000010 23 22 = 1 →
        s.keys.vbatLost = none → s.keys.notAuth = false →
      Nexts (exec (.keysPhase true bad) s) fun t =>
        t.phase = phLOADWAIT
        ∧ t.rootValid = true
        ∧ t.drbgOk = true
        ∧ t.keys.derived.isSome = true
        ∧ (∀ i ∈ bad, s.slotActive i.val ≠ 3 → t.sent Flt.keySlotFault i.val)
        ∧ Frame [.regs, .keys, .faults, .pba, .out, .free] s t)
  ∧ (∀ (bad : List (Fin 64)) (s : State), s.inv = true → s.phase = phKEYS → s.b 0x00000010 19 = true → s.keys.rootField = 1 → s.f 0x00000010 23 22 = 1 →
        s.keys.vbatLost = none → s.keys.notAuth = true →
      Nexts (exec (.keysPhase true bad) s) fun t =>
        t.phase = phLOADWAIT
        ∧ t.keys.derived = s.keys.derived
        ∧ t.rd 0x02400040 = s.rd 0x02400040
        ∧ t.rd 0x02400060 = s.rd 0x02400060
        ∧ t.free = s.free
        ∧ Frame [.regs, .keys, .faults, .pba, .out, .free] s t)
  ∧ (∀ (bad : List (Fin 64)) (s : State), s.inv = true → s.phase = phKEYS → s.b 0x00000010 19 = true → s.keys.rootField = 0 → s.b 0x02402010 31 = false →
        s.keys.vbatLost = none →
      Nexts (exec (.keysPhase true bad) s) fun t =>
        t.keys.rootField = 1
        ∧ t.keys.root = Config.freeValue 256 s.free
        ∧ t.b 0x00000010 18 = true
        ∧ t.sent Flt.keyRootCreated 0
        ∧ Frame [.regs, .keys, .faults, .pba, .out, .free] s t)
  ∧ (∀ (h : Bool) (bad : List (Fin 64)) (s : State), s.inv = true → s.phase = phKEYS → s.b 0x00000010 19 = true → s.keys.rootField = 0 →
        s.b 0x02402010 31 = true →
      Nexts (exec (.keysPhase h bad) s) fun t =>
        t.keys.rootField = 0
        ∧ t.keys.root = s.keys.root
        ∧ t.keys.derived = s.keys.derived
        ∧ Frame [.regs, .keys, .faults, .pba, .out, .free] s t)
  ∧ (∀ (bad : List (Fin 64)) (s : State), s.inv = true → s.phase = phKEYS → s.b 0x00000010 19 = true → s.keys.rootField = 3 → s.f 0x00000010 23 22 = 0 →
        s.keys.vbatLost = none →
      Nexts (exec (.keysPhase true bad) s) fun t =>
        t.phase = phFETCH
        ∧ t.f 0x02400010 1 0 = 3
        ∧ t.sent Flt.keyNoRoot 3
        ∧ t.keys.derived = s.keys.derived
        ∧ t.free = s.free
        ∧ Frame [.regs, .keys, .faults, .pba, .out, .free] s t)
  ∧ (∀ (h : Bool) (bad : List (Fin 64)) (s : State), s.inv = true → s.phase = phKEYS → s.b 0x00000010 19 = false →
      Nexts (exec (.keysPhase h bad) s) fun t =>
        t.phase = phTEST
        ∧ OnlyRegs [0x00000010] s t
        ∧ Frame [.regs] s t)
  ∧ (∀ (prim sec : List Byte) (s : State), s.inv = true → s.phase = phFETCH → s.copyOk 0 prim = true → imageGen sec ≤ imageGen prim →
      Nexts (exec (.imageFetched prim sec) s) fun t =>
        t.phase = phVERIFY
        ∧ t.img.src = 0
        ∧ t.img.buf = prim.take 524288
        ∧ t.img.tried = 0 :: s.img.tried
        ∧ OnlyRegs [0x00000010] s t
        ∧ Frame [.regs, .img] s t)
  ∧ (∀ (prim sec : List Byte) (s : State), s.inv = true → s.phase = phFETCH → s.copyOk 1 sec = true →
        (s.copyOk 0 prim = false ∨ imageGen prim < imageGen sec) →
      Nexts (exec (.imageFetched prim sec) s) fun t =>
        t.phase = phVERIFY
        ∧ t.img.src = 1
        ∧ t.img.buf = sec.take 524288
        ∧ t.img.tried = 1 :: s.img.tried
        ∧ OnlyRegs [0x00000010] s t
        ∧ Frame [.regs, .img] s t)
  ∧ (∀ (prim sec : List Byte) (s : State), s.inv = true → s.phase = phFETCH → s.copyOk 0 prim = false → s.copyOk 1 sec = false →
      Nexts (exec (.imageFetched prim sec) s) fun t =>
        t.phase = phLOADWAIT
        ∧ OnlyRegs [0x00000010] s t
        ∧ Frame [.regs] s t)
  ∧ (∀ (s : State), s.inv = true → s.phase = phVERIFY →
      Nexts (exec (.imageVerified) s) fun t =>
        (∀ e ∈ s.img.verifyFail, t.f 0x00000018 31 24 = e.1 % 256 ∧ t.rd 0x0000001C = BitVec.ofNat 32 e.2
        ∧ t.f 0x00000018 7 0 = min (s.f 0x00000018 7 0 + 1) 255 ∧ (t.phase = phFETCH ∨ t.phase = phLOADWAIT))
        ∧ (s.img.verifyFail = none → t.phase = phSTRUCT ∧ t.img.buf = s.img.buf.take (imageLen s.img.buf))
        ∧ Frame [.regs, .live, .pendSh, .shStamp, .bankP, .bankI, .fenceP, .fenceI, .heldP, .heldI, .chans, .spn, .monitors, .tiuP, .tiuL, .syns,
        .outs, .lanes, .pps, .tod, .ens, .srcRes, .tnd, .gns, .mac, .pkt, .cst, .img, .pwr, .dma, .prf, .flt, .trace, .faults, .mem] s t)
  ∧ (∀ (s : State), s.inv = true → s.phase = phVERIFY → slice s.img.buf 0 4 ≠ magic → s.img.src = 2 →
      Nexts (exec (.imageVerified) s) fun t =>
        t.f 0x00000018 31 24 = 1
        ∧ t.rd 0x0000001C = 0
        ∧ t.phase = phLOADWAIT
        ∧ Frame [.regs, .live, .pendSh, .shStamp, .bankP, .bankI, .fenceP, .fenceI, .heldP, .heldI, .chans, .spn, .monitors, .tiuP, .tiuL, .syns,
        .outs, .lanes, .pps, .tod, .ens, .srcRes, .tnd, .gns, .mac, .pkt, .cst, .img, .pwr, .dma, .prf, .flt, .trace, .faults, .mem] s t)
  ∧ (∀ (m : RegFile) (s : State), s.inv = true → s.phase = phSTRUCT → structOf (imageRecords s.img.buf 1) [] = .inr m →
        (structIfs m (imageRecords s.img.buf 2)).ruleFail = none → (structState m).domainFail (imageDomains s.img.buf) = none →
      Nexts (exec (.structChecked) s) fun t =>
        t.phase = phPOWER
        ∧ t.img.regs = mapSet resetWord (mapSet resetWord m 0x00100000 (BitVec.ofNat 32 (imageDomains s.img.buf))) 0x00100010 (BitVec.ofNat 32 (imageDomains s.img.buf))
        ∧ OnlyRegs [0x00000010] s t
        ∧ Frame [.regs, .live, .pendSh, .shStamp, .bankP, .bankI, .fenceP, .fenceI, .heldP, .heldI, .chans, .spn, .monitors, .tiuP, .tiuL, .syns,
        .outs, .lanes, .pps, .tod, .ens, .srcRes, .tnd, .gns, .mac, .pkt, .cst, .img, .pwr, .dma, .prf, .flt, .trace, .faults, .mem] s t)
  ∧ (∀ (o : Nat) (s : State), s.inv = true → s.phase = phSTRUCT → structOf (imageRecords s.img.buf 1) [] = .inl o → o < 2 ^ 32 →
      Nexts (exec (.structChecked) s) fun t =>
        t.f 0x00000018 31 24 = 8
        ∧ t.rd 0x0000001C = BitVec.ofNat 32 o
        ∧ (t.phase = phFETCH ∨ t.phase = phLOADWAIT)
        ∧ Frame [.regs, .live, .pendSh, .shStamp, .bankP, .bankI, .fenceP, .fenceI, .heldP, .heldI, .chans, .spn, .monitors, .tiuP, .tiuL, .syns,
        .outs, .lanes, .pps, .tod, .ens, .srcRes, .tnd, .gns, .mac, .pkt, .cst, .img, .pwr, .dma, .prf, .flt, .trace, .faults, .mem] s t)
  ∧ (∀ (m : RegFile) (n : Nat) (s : State), s.inv = true → s.phase = phSTRUCT → structOf (imageRecords s.img.buf 1) [] = .inr m →
        (structIfs m (imageRecords s.img.buf 2)).ruleFail = some n →
      Nexts (exec (.structChecked) s) fun t =>
        t.f 0x00000018 31 24 = 9
        ∧ t.rd 0x0000001C = BitVec.ofNat 32 n
        ∧ (t.phase = phFETCH ∨ t.phase = phLOADWAIT)
        ∧ Frame [.regs, .live, .pendSh, .shStamp, .bankP, .bankI, .fenceP, .fenceI, .heldP, .heldI, .chans, .spn, .monitors, .tiuP, .tiuL, .syns,
        .outs, .lanes, .pps, .tod, .ens, .srcRes, .tnd, .gns, .mac, .pkt, .cst, .img, .pwr, .dma, .prf, .flt, .trace, .faults, .mem] s t)
  ∧ (∀ (d : Fin 10) (s : State), s.inv = true → s.phase = phPOWER →
      Nexts (exec (.domainsUp (some d)) s) fun t =>
        t.f 0x00000018 31 24 = 0x0D
        ∧ t.rd 0x0000001C = BitVec.ofNat 32 d.val
        ∧ (t.phase = phFETCH ∨ t.phase = phLOADWAIT)
        ∧ t.pending = s.pending)
  ∧ (∀ (s : State), s.inv = true → s.phase = phPOWER → imageRecords s.img.buf 2 = [] →
      Nexts (exec (.domainsUp none) s) fun t =>
        t.phase = phREGS
        ∧ (∀ d : Fin 10, (imageDomains s.img.buf).testBit d.val = true → t.domOn d.val = true)
        ∧ t.pending = s.pending)
  ∧ (∀ (ms : Word) (s : State), s.inv = true → s.phase = phREGS → (∀ ch ∈ allChans, s.pendingOf ch = []) → s.todRuleFail = none →
      Nexts (exec (.enterRun ms) s) fun t =>
        t.phase = phRUN
        ∧ t.rd 0x00000014 = BitVec.ofNat 32 (imageGen s.img.buf)
        ∧ t.rd 0x00000078 = ms
        ∧ t.f 0x00000010 27 26 = s.img.src % 4
        ∧ t.img.pub = imagePub s.img.buf
        ∧ t.sent Flt.cfgImageLoaded (imageGen s.img.buf)
        ∧ t.b Blk.cfg.irqOff 0 = true
        ∧ (s.b 0x01000000 0 = true → t.f (tbOff 0 + 4) 31 28 = 1)
        ∧ Frame [.regs, .live, .pendSh, .shStamp, .bankP, .bankI, .fenceP, .fenceI, .heldP, .heldI, .chans, .spn, .monitors, .tiuP, .tiuL, .syns,
        .outs, .lanes, .pps, .tod, .ens, .srcRes, .tnd, .gns, .mac, .pkt, .cst, .img, .pwr, .dma, .prf, .flt, .trace, .faults, .pba, .tally, .mem,
        .out, .free] s t)

/-- A domain request switches the domains one by one, and rails and resets act. A request that comes while another is in progress waits for it;
an accepted request sets TARGET and BUSY; a switched domain reaches its other state; a domain that has not ramped up after 1 ms ends the
request with code 4, and before that nothing happens; a rail fault is recorded; a power-on reset and a brown-out return to RESET and keep
the Chest and the tamper record; once in a second TB0 is copied into the keep-counter while its bound is finite. Where these commands rest
on choices of the model, log entries 5, 32 name them. (17_configuration_image_and_startup.md, R431; 18_power_electrical_and_package.md,
R441; 18_power_electrical_and_package.md, R446; 18_power_electrical_and_package.md, R447; 18_power_electrical_and_package.md, R448.) -/
def Obligations.DomainRequestsAndRails : Prop :=
  (∀ (i : Itf) (v : Word) (s : State), s.inv = true → s.serves i 0x00100010 = true → s.domBusy = true →
      Nexts (exec (.domReqWrite i v) s) fun t =>
        t.pwr.reqs = s.pwr.reqs ++ [{ itf := i, off := 0x00100010, v := v }]
        ∧ Frame [.pwr, .tally] s t)
  ∧ (∀ (i : Itf) (v : Word) (s : State), s.inv = true → s.serves i 0x00100010 = true → s.domBusy = false →
        v.field 9 0 &&& s.f 0x00100000 9 0 = v.field 9 0 → v.field 9 0 &&& 0x13 = 0x13 → domClosed (v.field 9 0) = true →
        s.f 0x00100014 9 0 &&& 0x13 = 0x13 → s.f 0x00100014 9 0 ≠ v.field 9 0 →
      Nexts (exec (.domReqWrite i v) s) fun t =>
        t.domBusy = true
        ∧ t.domTarget = v.field 9 0
        ∧ t.f 0x00100014 9 0 = s.f 0x00100014 9 0
        ∧ OnlyRegs [0x00100010, 0x00100014] s t
        ∧ Frame [.regs, .pwr, .tally] s t)
  ∧ (∀ (d : Nat) (s : State), s.inv = true → s.domBusy = true → s.domNext = some d → d < 10 → s.pwr.waits = [] → s.pwr.reqs = [] → s.heldP = [] →
        s.heldI = [] →
      Nexts (exec (.domainSwitched) s) fun t =>
        t.domOn d = !s.domOn d
        ∧ t.pending = s.pending)
  ∧ (∀ (d : Nat) (s : State), s.inv = true → s.domBusy = true → s.domNext = some d → s.domOn d = false → s.pwr.domTick + 2000000 ≤ s.spn.ticks →
        s.pwr.waits = [] → s.pwr.reqs = [] → s.heldP = [] → s.heldI = [] →
      Nexts (exec (.rampFail) s) fun t =>
        t.domBusy = false
        ∧ t.f 0x00100014 27 24 = 4
        ∧ t.f 0x00100014 9 0 = s.f 0x00100014 9 0
        ∧ t.sent Flt.pwrRefused (4 * 2 ^ 28 + s.domTarget)
        ∧ t.sent Flt.pwrDomainChange (s.f 0x00100014 9 0)
        ∧ OnlyRegs [0x00100014, Blk.pwr.irqOff] s t
        ∧ t.pending = s.pending)
  ∧ (∀ (s : State), s.inv = true → s.spn.ticks < s.pwr.domTick + 2000000 →
      Nexts (exec (.rampFail) s) fun t =>
        t = s)
  ∧ (∀ (rail : Fin 10) (s : State), s.inv = true → s.pwr.mainOff = false →
      Nexts (exec (.railFault rail) s) fun t =>
        t.b 0x00100030 (16 + rail.val) = true
        ∧ t.b 0x00100030 rail.val = false
        ∧ t.sent Flt.pwrRailFault rail.val
        ∧ t.b Blk.pwr.irqOff 2 = true
        ∧ OnlyRegs [0x00100030, Blk.pwr.irqOff] s t
        ∧ Frame [.regs, .faults, .pba, .out] s t)
  ∧ (∀ (mainLost : Bool) (s : State), s.inv = true →
      Nexts (exec (.powerOnReset mainLost) s) fun t =>
        t.phase = phRESET
        ∧ t.pwr.mainOff = mainLost
        ∧ t.keys.copyA = s.keys.copyA
        ∧ t.keys.rootField = s.keys.rootField
        ∧ t.img.ownerHash = s.img.ownerHash
        ∧ t.rd 0x02402010 = s.rd 0x02402010
        ∧ t.rd 0x02402000 = s.rd 0x02402000
        ∧ t.domOn 5 = false
        ∧ Frame [.regs, .live, .pendSh, .shStamp, .bankP, .bankI, .rdP, .rdI, .fenceP, .fenceI, .heldP, .heldI, .chans, .spn, .monitors, .tiuP,
        .tiuL, .syns, .outs, .lanes, .pps, .tod, .ens, .srcRes, .tnd, .gns, .mac, .pkt, .cst, .img, .pwr, .dma, .prf, .flt, .trace, .keys, .faults,
        .vecMask, .pba, .pcie, .tally, .mem, .free] s t)
  ∧ (∀ (s : State), s.inv = true →
      Nexts (exec (.brownOut) s) fun t =>
        t.phase = phRESET
        ∧ t.pwr.mainOff = s.pwr.mainOff
        ∧ t.keys.copyA = s.keys.copyA
        ∧ t.rd 0x02402010 = s.rd 0x02402010
        ∧ Frame [.regs, .live, .pendSh, .shStamp, .bankP, .bankI, .rdP, .rdI, .fenceP, .fenceI, .heldP, .heldI, .chans, .spn, .monitors, .tiuP,
        .tiuL, .syns, .outs, .lanes, .pps, .tod, .ens, .srcRes, .tnd, .gns, .mac, .pkt, .cst, .img, .pwr, .dma, .prf, .flt, .trace, .keys, .faults,
        .vecMask, .pba, .pcie, .tally, .mem, .free] s t)
  ∧ (∀ (s : State), s.inv = true → s.running = true → s.rd (bndOff 0) ≠ 0xFFFFFFFF → s.pwr.keepCopy / 2 ^ 15 ≠ s.tbSec 0 →
      Nexts (exec (.keepCopy) s) fun t =>
        t.pwr.keep = s.tbTime 0 * 2 ^ 15 / secU
        ∧ t.pwr.keepValid = true
        ∧ t.pwr.keepTick = s.spn.ticks
        ∧ Frame [.pwr] s t)

/-- A round takes the latched messages, records and logs them, and reacts. A message that is not masked goes into the log at FLT_LOG_WR with its
source, kind, severity and round, and counts at its source; a message of a masked block only counts at FLT_MASKED; the first and the worst
message are recorded; a message whose reaction holds CRESET restarts the part with its cause; a message that overwrites an entry not yet
read counts in OVERRUNS, and sends LOG_OVERRUN where the run of such messages has stood still for 1 s; RECORD_CLEAR clears a record. Where
these commands rest on choices of the model, log entry 16 names them. (15_fault_collection.md, R377; 15_fault_collection.md, R378;
15_fault_collection.md, R379; 15_fault_collection.md, R381; 15_fault_collection.md, R383; 15_fault_collection.md, R385;
15_fault_collection.md, R387.) -/
def Obligations.WatchTakesItsMessages : Prop :=
  (∀ (m : FaultMsg) (s : State), s.inv = true → s.running = true → s.faults = [m] → s.flt.early = 0 → s.flt.split = [] → s.heldP = [] → s.heldI = [] →
        s.maskedSrc m.src = false → m.sev = 0 → m.src < 0x70 → ((s.rd 0x00200040).toNat + 2 ^ 32 - (s.rd 0x00200044).toNat) % 2 ^ 32 < 1024 →
      Nexts (exec (.watchRound) s) fun t =>
        t.faults = []
        ∧ t.flt.round = (s.flt.round + 1) % 4096
        ∧ t.rd 0x00200040 = s.rd 0x00200040 + 1
        ∧ mapGet noEntry t.flt.log ((s.rd 0x00200040).toNat % 1024) = (BitVec.ofNat 32 (m.src * 2 ^ 24 + m.kind * 2 ^ 16 + (if s.safe then 2 ^ 12 else 0) + s.flt.round),
        m.ctx, (timeWords (s.tbTime 0)).1, BitVec.ofNat 32 (s.tbSec 0))
        ∧ t.b (srcOff m.src) 28 = true
        ∧ t.f (srcOff m.src) 23 16 = m.kind % 256
        ∧ t.f (srcOff m.src) 15 0 = min (s.f (srcOff m.src) 15 0 + 1) 0xFFFF
        ∧ OnlyRegs [0x00200040, srcOff m.src] s t
        ∧ Frame [.regs, .flt, .faults] s t)
  ∧ (∀ (m : FaultMsg) (s : State), s.inv = true → s.running = true → s.faults = [m] → s.flt.early = 0 → s.flt.split = [] → s.heldP = [] → s.heldI = [] →
        s.maskedSrc m.src = true →
      Nexts (exec (.watchRound) s) fun t =>
        t.faults = []
        ∧ t.rd 0x00200068 = (if s.rd 0x00200068 = 0xFFFFFFFF then 0xFFFFFFFF else s.rd 0x00200068 + 1)
        ∧ t.flt.log = s.flt.log
        ∧ OnlyRegs [0x00200068] s t
        ∧ Frame [.regs, .flt, .faults] s t)
  ∧ (∀ (m : FaultMsg) (s : State), s.inv = true → s.running = true → s.faults = [m] → s.flt.early = 0 → s.flt.split = [] → s.heldP = [] → s.heldI = [] →
        s.maskedSrc m.src = false → 1 ≤ m.sev → m.sev ≤ 3 → m.src < 0x70 → s.b 0x00200030 12 = false → s.b 0x00200038 12 = false → s.reaction m = 0 →
        ((s.rd 0x00200040).toNat + 2 ^ 32 - (s.rd 0x00200044).toNat) % 2 ^ 32 < 1024 →
      Nexts (exec (.watchRound) s) fun t =>
        t.rd 0x00200030 = BitVec.ofNat 32 (m.src * 2 ^ 24 + m.kind * 2 ^ 16 + m.sev * 2 ^ 14 + 2 ^ 12 + s.flt.round)
        ∧ t.rd 0x00200034 = m.ctx
        ∧ t.rd 0x00200038 = t.rd 0x00200030
        ∧ t.rd 0x0020003C = m.ctx
        ∧ t.b Blk.flt.irqOff 1 = true
        ∧ t.b (srcOff m.src) (28 + m.sev) = true
        ∧ OnlyRegs [0x00200030, 0x00200034, 0x00200038, 0x0020003C, 0x00200040, Blk.flt.irqOff, srcOff m.src] s t
        ∧ Frame [.regs, .flt, .faults, .pba, .out] s t)
  ∧ (∀ (m : FaultMsg) (s : State), s.inv = true → s.running = true → s.faults = [m] → s.flt.early = 0 → s.flt.split = [] → s.heldP = [] → s.heldI = [] →
        s.maskedSrc m.src = false → (s.reaction m).testBit 3 = true → m.src < 0x70 →
      Nexts (exec (.watchRound) s) fun t =>
        t.phase = phRESET
        ∧ t.rd 0x0020007C = BitVec.ofNat 32 (2 ^ 30 + m.src * 256)
        ∧ t.keys.copyA = s.keys.copyA
        ∧ t.pending = s.pending)
  ∧ (∀ (m : FaultMsg) (s : State), s.inv = true → s.running = true → s.faults = [m] → s.flt.early = 0 → s.flt.split = [] → s.heldP = [] → s.heldI = [] →
        s.maskedSrc m.src = false → m.sev = 0 → m.src < 0x70 → 1024 ≤ ((s.rd 0x00200040).toNat + 2 ^ 32 - (s.rd 0x00200044).toNat) % 2 ^ 32 →
      Nexts (exec (.watchRound) s) fun t =>
        t.rd 0x00200040 = s.rd 0x00200040 + 1
        ∧ t.f 0x00200058 15 0 = min (s.f 0x00200058 15 0 + 1) 0xFFFF
        ∧ t.b Blk.flt.irqOff 2 = true
        ∧ ((mapGet (fun _ => 0) s.pkt.runs 512 = 0 ∨ mapGet (fun _ => 0) s.pkt.runs 512 + 2000000000 ≤ s.spn.ticks + 1) →
        t.faults = [⟨Flt.fltLogOverrun.src, Flt.fltLogOverrun.kind, Flt.fltLogOverrun.sev, BitVec.ofNat 32 (((s.rd 0x00200040).toNat + 2 ^ 32 - 1024) % 2 ^ 32)⟩])
        ∧ (¬(mapGet (fun _ => 0) s.pkt.runs 512 = 0 ∨ mapGet (fun _ => 0) s.pkt.runs 512 + 2000000000 ≤ s.spn.ticks + 1) → t.faults = [])
        ∧ OnlyRegs [0x00200040, 0x00200058, Blk.flt.irqOff, srcOff m.src] s t
        ∧ Frame [.regs, .pkt, .flt, .faults, .pba, .out] s t)
  ∧ (∀ (i : Itf) (worst : Bool) (s : State), s.inv = true → s.serves i (if worst then 0x00200038 else 0x00200030) = true →
      Nexts (exec (.recordClear i worst) s) fun t =>
        t.rd (if worst then 0x00200038 else 0x00200030) = 0
        ∧ t.rd (if worst then 0x0020003C else 0x00200034) = 0
        ∧ OnlyRegs [if worst then 0x00200038 else 0x00200030, if worst then 0x0020003C else 0x00200034] s t
        ∧ Frame [.regs, .tally] s t)

/-- Block resets open their masking windows, CRESET restarts the part, the safe state is entered and stays. Every block named by FLT_BRESET that
has a reset has its masking window opened at the tick of the write and is masked; PRF named so begins again; in the safe state no window
opens. MASK_WINDOW_END removes the windows of its block that have passed and leaves every other, and before a window has passed does
nothing. FLT_CRESET with its key restarts the part with cause 2 and keeps copy A of the Chest, the root field and the records, and without
it changes no phase and no register but its interrupt status. FLT_SAFE_REQ with its key enters the safe state with its message, its cause
and one NMI event, and in the safe state only sends the message; a pair whose halves are found to differ, by a check or by an access to its
register, enters it with cause 1 and its offset; a disturbed half that no check has met yet changes no register where it is the inverted
one. Where these commands rest on choices of the model, log entries 15, 16, 51, 60 name them. (15_fault_collection.md, R384;
15_fault_collection.md, R385; 15_fault_collection.md, R386; 15_fault_collection.md, R387; 15_fault_collection.md, R388;
15_fault_collection.md, R389.) -/
def Obligations.BlockResetsRestartAndSafeState : Prop :=
  (∀ (i : Itf) (v : Word) (b : Blk) (s : State), s.inv = true → s.serves i 0x00200060 = true → s.safe = false → b ∈ Blk.all → v.bit b.bit = true →
        b.resets = true → s.flt.split = [] → s.heldP = [] → s.heldI = [] →
      Nexts (exec (.fltBresetWrite i v) s) fun t =>
        t.flt.windows.contains (b.bit, s.spn.ticks) = true
        ∧ t.maskedBits.testBit b.bit = true
        ∧ (b = .prf → t.prf = {})
        ∧ t.pending = s.pending)
  ∧ (∀ (i : Itf) (v : Word) (s : State), s.inv = true → s.serves i 0x00200060 = true → s.safe = true → s.flt.split = [] → s.heldP = [] → s.heldI = [] →
      Nexts (exec (.fltBresetWrite i v) s) fun t =>
        t.flt.windows = s.flt.windows
        ∧ Frame [.tally] s t)
  ∧ (∀ (b : Fin 21) (s : State), s.inv = true →
        s.flt.windows.all (fun x => decide (x.1 ≠ b.val) || decide (x.2 + resetWindow x.1 + 20000 ≤ s.spn.ticks)) = true →
      Nexts (exec (.maskWindowEnd b) s) fun t =>
        (∀ x ∈ t.flt.windows, x.1 ≠ b.val)
        ∧ (∀ x ∈ s.flt.windows, x.1 = b.val ∨ x ∈ t.flt.windows)
        ∧ Frame [.flt] s t)
  ∧ (∀ (b : Fin 21) (s : State), s.inv = true → s.flt.windows.all (fun x => decide (s.spn.ticks < x.2 + resetWindow x.1 + 20000)) = true →
      Nexts (exec (.maskWindowEnd b) s) fun t =>
        t = s)
  ∧ (∀ (i : Itf) (v : Word) (s : State), s.inv = true → s.serves i 0x00200070 = true → v.field 31 24 = 0xA5 →
      Nexts (exec (.fltCresetWrite i v) s) fun t =>
        t.phase = phRESET
        ∧ t.rd 0x0020007C = 0x80000000
        ∧ t.keys.copyA = s.keys.copyA
        ∧ t.keys.rootField = s.keys.rootField
        ∧ t.rd 0x00200030 = s.rd 0x00200030
        ∧ t.rd 0x00200038 = s.rd 0x00200038
        ∧ t.rd 0x02402010 = s.rd 0x02402010
        ∧ t.f 0x00000018 7 0 = s.f 0x00000018 7 0
        ∧ t.domOn 5 = false
        ∧ t.pending = s.pending)
  ∧ (∀ (i : Itf) (v : Word) (s : State), s.inv = true → s.serves i 0x00200070 = true → v.field 31 24 ≠ 0xA5 →
      Nexts (exec (.fltCresetWrite i v) s) fun t =>
        t.phase = s.phase
        ∧ OnlyRegs [Blk.flt.irqOff] s t
        ∧ Frame [.regs, .faults, .pba, .tally, .out] s t)
  ∧ (∀ (i : Itf) (v : Word) (s : State), s.inv = true → s.serves i 0x00200074 = true → v.field 15 0 = 0x5AFE → s.safe = false →
      Nexts (exec (.fltSafeReqWrite i v) s) fun t =>
        t.safe = true
        ∧ t.rd 0x00200078 = 0x80000000
        ∧ t.sent Flt.fltSafeReq 0
        ∧ t.b 0x02200014 31 = true
        ∧ t.b 0x00200028 0 = true
        ∧ Frame [.regs, .heldP, .heldI, .spn, .ens, .tnd, .cst, .pwr, .flt, .trace, .keys, .faults, .pba, .tally, .mem, .out, .free] s t
        ∧ OnlyRing s t)
  ∧ (∀ (i : Itf) (v : Word) (s : State), s.inv = true → s.serves i 0x00200074 = true → v.field 15 0 = 0x5AFE → s.safe = true →
      Nexts (exec (.fltSafeReqWrite i v) s) fun t =>
        t.safe = true
        ∧ t.rd 0x00200078 = s.rd 0x00200078
        ∧ t.sent Flt.fltSafeReq 0
        ∧ OnlyRegs [] s t
        ∧ Frame [.faults, .tally] s t)
  ∧ (∀ (o : BitVec 16) (x : Word) (inv : Bool) (s : State), s.inv = true → s.running = true → s.safe = false → isPair o.toNat = true → s.flt.split = [] →
        x &&& pairBits o.toNat ≠ 0 →
      Nexts (exec (.pairCheck ⟨some ⟨o, x, inv⟩, false⟩) s) fun t =>
        t.safe = true
        ∧ t.rd 0x00200078 = BitVec.ofNat 32 (0x40000000 + o.toNat)
        ∧ t.sent Flt.fltPairMismatch o.toNat
        ∧ t.b 0x00200028 0 = true
        ∧ t.flt.split = []
        ∧ Frame [.regs, .spn, .ens, .tnd, .cst, .flt, .trace, .keys, .faults, .pba, .tally, .mem, .out, .free] s t
        ∧ OnlyRing s t)
  ∧ (∀ (o : BitVec 16) (x : Word) (s : State), s.inv = true → s.running = true → isPair o.toNat = true → s.flt.split = [] → x &&& pairBits o.toNat ≠ 0 →
      Nexts (exec (.pairCheck ⟨some ⟨o, x, true⟩, true⟩) s) fun t =>
        t.flt.split = [(o.toNat, x &&& pairBits o.toNat)]
        ∧ t.regs = s.regs
        ∧ Frame [.flt] s t)
  ∧ (∀ (i : Itf) (o : Nat) (x : Word) (s : State), s.inv = true → s.reads i (0x00200000 + o) = true → s.flt.split = [(o, x)] → s.safe = false →
        o < 0x100000 →
      Nexts (exec (.rcRead (.reg i (0x00200000 + o))) s) fun t =>
        t.safe = true
        ∧ t.rd 0x00200078 = BitVec.ofNat 32 (0x40000000 + o)
        ∧ t.sent Flt.fltPairMismatch o
        ∧ t.flt.split = []
        ∧ Frame [.regs, .bankP, .bankI, .rdP, .rdI, .heldP, .heldI, .spn, .lanes, .ens, .tnd, .pkt, .cst, .pwr, .prf, .flt, .trace, .keys, .faults,
        .pba, .tally, .mem, .out, .free] s t)
  ∧ (∀ (late : Bool) (s : State), s.inv = true → (s.running = false ∨ s.flt.split = []) →
      Nexts (exec (.pairCheck ⟨none, late⟩) s) fun t =>
        t = s)

/-- Claims are sent, received and compared, and the role follows them. At a microsecond boundary, once, the claims move on, the claim for the
second boundary after it is fixed, and a frame INDEX to CRC goes out; a good frame is kept and marks the peer fresh with its driving bit, a
bad one counts; at a boundary, once, a driving unit whose claim does not win releases, one whose claim wins stays, and a unit whose claim
wins and that may start takes the role, to drive from 20 ns after the boundary; a peer not heard for 5 µs is reported and its claim is 0;
the holdoff ends 5 µs after the unit came up; at the end of a second health bit 12 follows the known-answer tests. Where these commands rest
on choices of the model, log entries 5, 20, 51 name them. (14_tandem_redundancy.md, R359; 14_tandem_redundancy.md, R361;
14_tandem_redundancy.md, R362; 14_tandem_redundancy.md, R364; 14_tandem_redundancy.md, R365; 14_tandem_redundancy.md, R374.) -/
def Obligations.TandemClaimsDecideTheRole : Prop :=
  (∀ (s : State), s.inv = true → s.domOn 9 = true → s.tandemUs ≠ s.tnd.cAt →
      Nexts (exec (.claimFrameSend) s) fun t =>
        t.tnd.cAt = s.tandemUs
        ∧ t.tnd.c0 = s.claimFor s.tandemUs
        ∧ t.tnd.c1 = s.claimFor (s.tandemUs + 1)
        ∧ t.tnd.c2 = t.claimNow
        ∧ t.b 0x02500014 24 = s.safe
        ∧ t.out.head? = some (.claim (t.claimBody s.tandemUs ++ [BitVec.ofNat 8 (crc8 (t.claimBody s.tandemUs))]))
        ∧ Frame [.regs, .tnd, .faults, .pba, .out] s t)
  ∧ (∀ (s : State), s.inv = true → s.tandemUs = s.tnd.cAt →
      Nexts (exec (.claimFrameSend) s) fun t =>
        t = s)
  ∧ (∀ (l : List Byte) (c : Byte) (s : State), s.inv = true → s.domOn 9 = true → l.length = 10 → crc8 l = c.toNat →
      Nexts (exec (.claimFrameReceive (l ++ [c])) s) fun t =>
        t.tnd.frames = ⟨byteAt l 0, byteAt l 1, beAt l 2 4, beAt l 6 4⟩ :: s.tnd.frames.take 1
        ∧ t.b 0x02500014 28 = true
        ∧ t.b 0x02500014 27 = decide (byteAt l 1 % 2 = 1)
        ∧ t.tnd.crcBad = 0
        ∧ Frame [.regs, .tnd, .faults] s t)
  ∧ (∀ (l : List Byte) (c : Byte) (s : State), s.inv = true → s.domOn 9 = true → (l.length ≠ 10 ∨ crc8 l ≠ c.toNat) →
      Nexts (exec (.claimFrameReceive (l ++ [c])) s) fun t =>
        t.rd 0x02500038 = (if s.rd 0x02500038 = 0xFFFFFFFF then 0xFFFFFFFF else s.rd 0x02500038 + 1)
        ∧ t.tnd.frames = s.tnd.frames
        ∧ t.tnd.crcBad = s.tnd.crcBad + 1
        ∧ OnlyRegs [0x02500038] s t
        ∧ Frame [.regs, .tnd] s t)
  ∧ (∀ (peer : Nat) (s : State), s.inv = true → s.domOn 9 = true → s.peerClaim (s.tandemUs % 256) = some peer → s.tnd.cmpAt ≠ some s.tandemUs →
        s.role = 2 → (s.claimFor s.tandemUs = 0 ∨ s.claimFor s.tandemUs ≤ peer) →
      Nexts (exec (.claimBoundary) s) fun t =>
        t.role = 1
        ∧ t.rd 0x02500030 = BitVec.ofNat 32 (s.claimFor s.tandemUs)
        ∧ t.rd 0x02500034 = BitVec.ofNat 32 peer
        ∧ t.sent Flt.tndRoleStandby (peer % 2 ^ 32)
        ∧ t.b Blk.tnd.irqOff 0 = true
        ∧ Frame [.regs, .spn, .ens, .tnd, .cst, .trace, .faults, .pba, .tally, .mem, .out, .free] s t
        ∧ OnlyRing s t)
  ∧ (∀ (peer : Nat) (s : State), s.inv = true → s.domOn 9 = true → s.peerClaim (s.tandemUs % 256) = some peer → s.tnd.cmpAt ≠ some s.tandemUs →
        s.role = 1 → peer < s.claimFor s.tandemUs → (s.b 0x02500014 29 = true ∨ s.b 0x02500014 28 = false ∨ s.b 0x02500014 27 = false) →
      Nexts (exec (.claimBoundary) s) fun t =>
        t.role = 2
        ∧ t.rd 0x02500030 = BitVec.ofNat 32 (s.claimFor s.tandemUs)
        ∧ t.sent Flt.tndRoleActive (peer % 2 ^ 32)
        ∧ t.rd 0x02500084 = s.rd 0x02500084 + 1
        ∧ t.tnd.driveFrom = s.spineAt s.tandemTb (s.tandemUs * (1000 * 2 ^ 40)) + 20 * 2 ^ 40
        ∧ Frame [.regs, .spn, .ens, .tnd, .cst, .trace, .faults, .pba, .tally, .mem, .out, .free] s t
        ∧ OnlyRing s t)
  ∧ (∀ (peer : Nat) (s : State), s.inv = true → s.domOn 9 = true → s.peerClaim (s.tandemUs % 256) = some peer → s.tnd.cmpAt ≠ some s.tandemUs →
        s.role = 2 → peer < s.claimFor s.tandemUs →
      Nexts (exec (.claimBoundary) s) fun t =>
        t.role = 2
        ∧ t.rd 0x02500030 = BitVec.ofNat 32 (s.claimFor s.tandemUs)
        ∧ t.rd 0x02500034 = BitVec.ofNat 32 peer
        ∧ OnlyRegs [0x02500030, 0x02500034] s t
        ∧ Frame [.regs, .tnd] s t)
  ∧ (∀ (s : State), s.inv = true → s.tnd.cmpAt = some s.tandemUs →
      Nexts (exec (.claimBoundary) s) fun t =>
        t = s)
  ∧ (∀ (s : State), s.inv = true → s.domOn 9 = true → s.b 0x02500014 28 = true → s.tnd.heard.all (fun h => decide (h.1 + 10000 < s.spn.ticks)) = true →
      Nexts (exec (.peerStale) s) fun t =>
        t.b 0x02500014 28 = false
        ∧ t.rd 0x02500034 = 0
        ∧ t.tnd.frames = []
        ∧ t.sent Flt.tndPeerStale (s.rd 0x02500034).toNat
        ∧ t.b Blk.tnd.irqOff 2 = true
        ∧ Frame [.regs, .tnd, .faults, .pba, .out] s t)
  ∧ (∀ (s : State), s.inv = true → s.tnd.upTick + 10000 ≤ s.spn.ticks →
      Nexts (exec (.claimHoldoffEnd) s) fun t =>
        t.tnd = { s.tnd with holdoff := false }
        ∧ Frame [.tnd] s t)
  ∧ (∀ (s : State), s.inv = true → s.spn.ticks < s.tnd.upTick + 10000 →
      Nexts (exec (.claimHoldoffEnd) s) fun t =>
        t = s)
  ∧ (∀ (s : State), s.inv = true → s.domOn 9 = true → s.tnd.healthSec ≠ s.tbSec 0 →
      Nexts (exec (.healthSecond false) s) fun t =>
        t.b 0x02500014 12 = false
        ∧ t.tnd.katBad = true
        ∧ Frame [.regs, .tnd, .faults, .pba, .out] s t)
  ∧ (∀ (s : State), s.inv = true → s.domOn 9 = true → s.tnd.healthSec ≠ s.tbSec 0 → s.tnd.failed.testBit 12 = false →
      Nexts (exec (.healthSecond true) s) fun t =>
        t.b 0x02500014 12 = true
        ∧ t.tnd.katBad = false
        ∧ Frame [.regs, .tnd, .faults, .pba, .out] s t)

/-- Link frames are numbered, kept until they are acknowledged, resent, checked, and taken by type. When a heartbeat falls due it takes the next
SEQ, goes out and is kept; an ACK frame is sent and not kept, where nothing else is due; a key frame goes out where it is due and not
otherwise; at one of its four times the retry resends the frame that waits, with RETRY; 40 µs without an ACK hold the frames of unit B, and
without a good spare lane take the link of unit A down; a heartbeat whose CRC, MAC and SEQ fit is taken and the next SEQ expected, and TIME
brings the peer's second and bound; a frame with a wrong CRC changes no part of the state; without frames for TND_HB_TO the link goes down;
SPARE_OK says that the spare lane was checked for the whole second and had no error. Where these commands rest on choices of the model, log
entries 7, 13, 51, 61 name them. (14_tandem_redundancy.md, R366; 14_tandem_redundancy.md, R367; 14_tandem_redundancy.md, R368;
14_tandem_redundancy.md, R369; 14_tandem_redundancy.md, R372.) -/
def Obligations.TheTandemLinkCarriesItsFrames : Prop :=
  (∀ (s : State), s.inv = true → s.linkSt = kPAIRED → s.after s.tnd.beatAt 100000 = true →
      Nexts (exec (.linkFrameSend .heartbeat) s) fun t =>
        t.tnd.beatAt = some s.spn.ticks
        ∧ t.tnd.txSeq = (s.tnd.txSeq + 1) % 65536
        ∧ t.tnd.unacked = s.tnd.unacked ++ [{ seq := s.tnd.txSeq, typ := 2, payload := [], sent := s.spn.ticks }]
        ∧ (s.tnd.hold = false → s.tnd.relock = false →
        t.out = .link s.carry (s.linkBytes { seq := s.tnd.txSeq, typ := 2, payload := [], sent := s.spn.ticks }) :: s.out)
        ∧ Frame [.tnd, .out] s t)
  ∧ (∀ (s : State), s.inv = true → s.linkSt = kPAIRED → s.tnd.hold = false → s.tnd.relock = false → s.otherDue = false →
      Nexts (exec (.linkFrameSend .ack) s) fun t =>
        t.tnd = s.tnd
        ∧ t.out = .link s.carry (s.linkBytes { seq := s.tnd.txSeq, typ := 7, payload := [], sent := s.spn.ticks }) :: s.out
        ∧ Frame [.out] s t)
  ∧ (∀ (s : State), s.inv = true → s.otherDue = true →
      Nexts (exec (.linkFrameSend .ack) s) fun t =>
        t = s)
  ∧ (∀ (slot : BitVec 6) (s : State), s.inv = true → s.keyDue slot.toNat = false →
      Nexts (exec (.linkFrameSend (.key slot)) s) fun t =>
        t = s)
  ∧ (∀ (slot : BitVec 6) (s : State), s.inv = true → s.keyDue slot.toNat = true → s.chestKey slot.toNat = none → s.keys.frozen = false →
      Nexts (exec (.linkFrameSend (.key slot)) s) fun t =>
        t.tnd.keyAt = mapSet (fun _ => (0, 0)) s.tnd.keyAt slot.toNat (s.spn.ticks + 1, s.f (slotOff slot.toNat) 27 0)
        ∧ t.tnd.unacked = s.tnd.unacked ++ [{ seq := s.tnd.txSeq, typ := 5, payload := [BitVec.ofNat 8 slot.toNat, 0, 0, 0] ++ List.replicate 40 0, sent := s.spn.ticks }]
        ∧ t.tnd.txSeq = (s.tnd.txSeq + 1) % 65536
        ∧ Frame [.tnd, .out] s t)
  ∧ (∀ (f : LinkFrame) (s : State), s.inv = true → s.tnd.unacked = [f] → f.slot < s.retrySlot f → s.tnd.hold = false → s.tnd.relock = false →
      Nexts (exec (.linkRetry) s) fun t =>
        t.tnd.unacked = [{ f with slot := s.retrySlot f, resends := f.resends + 1 }]
        ∧ t.out = .link s.carry (s.linkBytes { f with slot := s.retrySlot f, resends := f.resends + 1 }) :: s.out
        ∧ Frame [.tnd, .out] s t)
  ∧ (∀ (s : State), s.inv = true → s.linkSt = kPAIRED → s.ackLate = true → s.tnd.relock = false → s.unitB = true →
      Nexts (exec (.linkAckTimeout) s) fun t =>
        t.tnd.hold = true
        ∧ t.tnd.unacked = s.tnd.unacked
        ∧ Frame [.tnd] s t)
  ∧ (∀ (s : State), s.inv = true → s.linkSt = kPAIRED → s.ackLate = true → s.tnd.relock = false → s.unitB = false → s.b 0x02500018 25 = false →
      Nexts (exec (.linkAckTimeout) s) fun t =>
        t.linkSt ≠ kPAIRED
        ∧ t.sent Flt.tndLinkDown kPAIRED
        ∧ t.tnd.unacked = []
        ∧ Frame [.regs, .spn, .tiuP, .tiuL, .lanes, .pps, .ens, .tnd, .mac, .pkt, .cst, .trace, .faults, .pba, .tally, .mem, .out, .free] s t)
  ∧ (∀ (lane : Fin 2) (q : Nat) (s : State), s.inv = true → s.linkSt = kPAIRED → q < 65536 → s.unitB = false → s.tnd.rxSeq = some q →
        s.tnd.hold = false → s.timeMissing = false →
      Nexts (exec (.linkFrameReceive lane (sealedFrame s.tnd.macK ([BitVec.ofNat 8 2, 0] ++ beBytes 2 q ++ [0, 0, 0, 0]))) s) fun t =>
        t.tnd = { s.tnd with rxAt := s.spn.ticks, rxSeq := some ((q + 1) % 65536) }
        ∧ Frame [.tnd] s t)
  ∧ (∀ (lane : Fin 2) (q : Nat) (p : List Byte) (s : State), s.inv = true → s.linkSt = kPAIRED → q < 65536 → p.length = 16 → s.unitB = false →
        s.tnd.rxSeq = some q → s.tnd.hold = false →
      Nexts (exec (.linkFrameReceive lane (sealedFrame s.tnd.macK ([BitVec.ofNat 8 3, 0] ++ beBytes 2 q ++ [0, 0, 0, 16] ++ p))) s) fun t =>
        t.tnd.rxSeq = some ((q + 1) % 65536)
        ∧ t.tnd.peerSec = beAt p 0 6
        ∧ t.tnd.peerBound = beAt p 6 4
        ∧ t.rd 0x02500098 = BitVec.ofNat 32 (beAt p 6 4)
        ∧ t.linkSt = kPAIRED
        ∧ Frame [.regs, .spn, .tiuP, .tiuL, .lanes, .pps, .ens, .srcRes, .tnd, .mac, .pkt, .cst, .trace, .keys, .faults, .pba, .tally, .mem, .out,
        .free] s t)
  ∧ (∀ (lane : Fin 2) (bytes : List Byte) (s : State), s.inv = true → crc32c (bytes.take (bytes.length - 4)) ≠ beAt bytes (bytes.length - 4) 4 →
      Nexts (exec (.linkFrameReceive lane bytes) s) fun t =>
        t.tnd.rxSeq = s.tnd.rxSeq
        ∧ Frame [] s t)
  ∧ (∀ (s : State), s.inv = true → s.linkSt = kPAIRED → s.tnd.rxAt + s.f 0x02500044 15 0 * 2000 ≤ s.spn.ticks →
      Nexts (exec (.tndLinkDown) s) fun t =>
        t.linkSt ≠ kPAIRED
        ∧ t.sent Flt.tndLinkDown kPAIRED
        ∧ t.tnd.unacked = []
        ∧ t.tnd.rxSeq = none
        ∧ Frame [.regs, .spn, .tiuP, .tiuL, .lanes, .pps, .ens, .tnd, .mac, .pkt, .cst, .trace, .faults, .pba, .tally, .mem, .out, .free] s t)
  ∧ (∀ (errs : Nat) (from_ : Nat) (s : State), s.inv = true → (s.linkSt = kHELLO ∨ s.linkSt = kPAIRED) → s.tnd.spareAt = some from_ →
        from_ + 2000000000 ≤ s.spn.ticks →
      Nexts (exec (.spareCheck errs) s) fun t =>
        t.b 0x02500018 25 = (decide (((s.prbsErrs (16 + (1 - s.carry)) (some errs)).lane (16 + (1 - s.carry))).errT = 0) && decide (bitsAt (s.laneRate (16 + (1 - s.carry))) s.spn.ticks - bitsAt (s.laneRate (16 + (1 - s.carry))) from_ ≤ ((s.prbsErrs (16 + (1 - s.carry)) (some errs)).lane (16 + (1 - s.carry))).bitsT) && s.b (lanOff (16 + (1 - s.carry)) + 0x38) 0 && s.chkRuns (16 + (1 - s.carry)))
        ∧ t.tnd.spareAt = some s.spn.ticks
        ∧ Frame [.regs, .lanes, .tnd, .faults, .pba, .out, .free] s t)

/-- The classifier answers, serves or hands on the oldest frame of a port. A frame of a port that is not served, and one whose EtherType is none
of ARP, IPv4, IPv6 and PTP, goes to the host with reason 0; an ARP request for an interface is answered; a plain NTP request to an interface
with NTP service is answered in a launch-timed response that is dropped when late, all where no build waits for a place in flight; no frame
is taken while 8,192 packets are in flight. Where these commands rest on choices of the model, log entries 5, 11, 26, 49 name them.
(11_packet_time_service.md, R281; 11_packet_time_service.md, R282; 11_packet_time_service.md, R283; 11_packet_time_service.md, R284;
11_packet_time_service.md, R300; 11_packet_time_service.md, R301; 11_packet_time_service.md, R306.) -/
def Obligations.ClassifierSendsFramesOn : Prop :=
  (∀ (p : Fin 16) (launch : Nat) (f : RxStored) (r : List RxStored) (s : State), s.inv = true → (s.port p.val).fifo = f :: r → s.pkt.builds = [] →
        s.served p.val = false →
      Nexts (exec (.classify p launch []) s) fun t =>
        (t.port p.val).host = (s.port p.val).host ++ [⟨f, 0⟩]
        ∧ (t.port p.val).fifo = r
        ∧ Frame [.mac] s t)
  ∧ (∀ (p : Fin 16) (launch : Nat) (f : RxStored) (r : List RxStored) (s : State), s.inv = true → (s.port p.val).fifo = f :: r → s.served p.val = true →
        s.f 0x02200014 13 0 < 8191 → s.pkt.builds = [] → (ethOf f.bytes).etype ≠ 0x0806 → (ethOf f.bytes).etype ≠ 0x86DD →
        (ethOf f.bytes).etype ≠ 0x0800 → (ethOf f.bytes).etype ≠ 0x88F7 →
      Nexts (exec (.classify p launch []) s) fun t =>
        (t.port p.val).host = (s.port p.val).host ++ [⟨f, 0⟩]
        ∧ (t.port p.val).fifo = r
        ∧ Frame [.mac] s t)
  ∧ (∀ (p : Fin 16) (launch : Nat) (f : RxStored) (r : List RxStored) (k : Nat) (s : State), s.inv = true → (s.port p.val).fifo = f :: r →
        s.served p.val = true → s.f 0x02200014 13 0 < 8191 → s.pkt.builds = [] → (ethOf f.bytes).etype = 0x0806 → beAt (ethOf f.bytes).pay 6 2 = 1 →
        s.findIf p.val (ethOf f.bytes).vid (fun k => !s.b (ifOff k) 30 && decide (s.ifIp k = slice (ethOf f.bytes).pay 24 4)) = some k →
      Nexts (exec (.classify p launch []) s) fun t =>
        (t.port p.val).pkt = (s.port p.val).pkt ++ [{ body := .raw (ethHead (slice (ethOf f.bytes).pay 8 6) (s.ifMac k) (ethOf f.bytes).vid 0x0806 ++ arpPacket 2 (s.ifMac k) (s.ifIp k) (slice (ethOf f.bytes).pay 8 6) (slice (ethOf f.bytes).pay 14 4)), kind := some 5, inFlight := true }]
        ∧ (t.port p.val).fifo = r
        ∧ t.f 0x02200014 13 0 = s.f 0x02200014 13 0 + 1
        ∧ OnlyRegs [0x02200014, 0x02200018] s t
        ∧ Frame [.regs, .mac, .tally] s t)
  ∧ (∀ (p : Fin 16) (launch : Nat) (f : RxStored) (r : List RxStored) (d : Udp) (k : Nat) (s : State), s.inv = true → (s.port p.val).fifo = f :: r →
        s.served p.val = true → s.f 0x02200014 13 0 < 8191 → s.pkt.builds = [] → (ethOf f.bytes).etype = 0x0800 → udpOf (ethOf f.bytes) = some d →
        d.dport = 123 → d.pay.length = 48 → ntpForeign d.pay = false → f.bluta ≠ [] → tokensOut s.ntpUsed < 1024 →
        s.tbTime (s.portBase p.val) / 2 ^ 24 + 500 * 65536 ≤ launch →
        s.findIf p.val (ethOf f.bytes).vid (fun k => s.b (ifOff k) 28 && decide (s.b (ifOff k) 30 = d.v6) && decide (s.ifIp k = d.dip)) = some k →
      Nexts (exec (.classify p launch []) s) fun t =>
        (t.port p.val).pkt = (s.port p.val).pkt ++ [{ body := .ntp (s.replyTo ⟨p.val, f, ethOf f.bytes, some d, k, d.pay⟩ true) { req := d.pay, rx := f.ts, bluta := s.b 0x0220004C 23, nak := false, uid := [], nts := none }, launch := some launch, lateDrop := true, onGrid := true, kind := some 4, inFlight := true }]
        ∧ (t.port p.val).fifo = r
        ∧ t.f 0x02200014 13 0 = s.f 0x02200014 13 0 + 1
        ∧ t.rd64 0x02205010 = min (2 ^ 48 - 1) (s.rd64 0x02205010 % 2 ^ 48 + 1)
        ∧ OnlyRegs [0x02200014, 0x02200018, 0x02205010, 0x02205014] s t
        ∧ Frame [.regs, .mac, .pkt, .tally] s t)
  ∧ (∀ (p : Fin 16) (launch : Nat) (f : RxStored) (r : List RxStored) (s : State), s.inv = true → (s.port p.val).fifo = f :: r → s.served p.val = true →
        8192 ≤ s.f 0x02200014 13 0 →
      Nexts (exec (.classify p launch []) s) fun t =>
        (t.port p.val).fifo = f :: r
        ∧ Frame [.pkt] s t)

/-- A multicast stream sends its Sync and Announce messages. A served port with multicast streams and no authentication, at the place of an
occurrence, sends a Sync that is launch-timed at the first start position after the place, dropped when late unless the port is two-step,
and an Announce, each counting the sequence of its stream and in flight; where a place in flight is wanting or an earlier build waits for
one, the build waits, at its place; for a session whose slot is not in use, and read without an error, nothing happens. Where these commands
rest on choices of the model, log entries 5, 11, 26, 49 name them. (11_packet_time_service.md, R290; 11_packet_time_service.md, R291;
11_packet_time_service.md, R293; 11_packet_time_service.md, R306.) -/
def Obligations.StreamsEmitTheirMessages : Prop :=
  (∀ (p : Fin 16) (launch pl : Nat) (s : State), s.inv = true → s.served p.val = true → s.hasStreams p.val = true → s.f 0x02200014 13 0 < 8191 →
        s.pkt.builds = [] → s.f (pktOff p.val) 27 26 = 0 →
        s.placeDue p.val none 0 (BitVec.ofNat 8 (s.f (pktOff p.val + 8) 31 24)) buildLead = some pl → s.firstStart p.val pl launch = true →
        s.tbTime (s.portBase p.val) / 2 ^ 24 + 500 * 65536 ≤ launch →
      Nexts (exec (.syncEmit (.mcast p) launch) s) fun t =>
        (t.port p.val).pkt.dropLast = (s.port p.val).pkt
        ∧ (t.port p.val).pkt.getLast?.map (fun f => (f.launch, f.kind, f.lateDrop, f.inFlight)) = some (some launch, some 1, !s.b (pktOff p.val) 25, true)
        ∧ (t.port p.val).syncSeq = ((s.port p.val).syncSeq + 1) % 65536
        ∧ t.f 0x02200014 13 0 = s.f 0x02200014 13 0 + 1
        ∧ OnlyRegs [0x02200014, 0x02200018] s t
        ∧ Frame [.regs, .mac, .pkt, .tally] s t)
  ∧ (∀ (p : Fin 16) (pl : Nat) (s : State), s.inv = true → s.served p.val = true → s.hasStreams p.val = true → s.f 0x02200014 13 0 < 8191 →
        s.pkt.builds = [] → s.f (pktOff p.val) 27 26 = 0 → s.placeDue p.val none 1 (BitVec.ofNat 8 (s.f (pktOff p.val + 8) 23 16)) 0 = some pl →
      Nexts (exec (.announceEmit (.mcast p)) s) fun t =>
        (t.port p.val).pkt.dropLast = (s.port p.val).pkt
        ∧ (t.port p.val).pkt.getLast?.map (fun f => (f.launch, f.kind, f.lateDrop, f.inFlight)) = some (none, some 1, false, true)
        ∧ (t.port p.val).annSeq = ((s.port p.val).annSeq + 1) % 65536
        ∧ t.f 0x02200014 13 0 = s.f 0x02200014 13 0 + 1
        ∧ OnlyRegs [0x02200014, 0x02200018] s t
        ∧ Frame [.regs, .mac, .pkt, .tally] s t)
  ∧ (∀ (p : Fin 16) (launch pl : Nat) (s : State), s.inv = true → s.served p.val = true → s.hasStreams p.val = true → s.mayBuild = false →
        s.f (pktOff p.val) 27 26 = 0 → s.placeDue p.val none 0 (BitVec.ofNat 8 (s.f (pktOff p.val + 8) 31 24)) buildLead = some pl →
        s.firstStart p.val pl launch = true →
      Nexts (exec (.syncEmit (.mcast p) launch) s) fun t =>
        t.pkt.builds = s.pkt.builds ++ [.sync (.mcast p) launch]
        ∧ t.pkt.places = mapSet (fun _ => 0) s.pkt.places (placeKey p.val none 0) (pl + 1)
        ∧ Frame [.pkt] s t)
  ∧ (∀ (p : Fin 16) (pl : Nat) (s : State), s.inv = true → s.served p.val = true → s.hasStreams p.val = true → s.mayBuild = false →
        s.f (pktOff p.val) 27 26 = 0 → s.placeDue p.val none 1 (BitVec.ofNat 8 (s.f (pktOff p.val + 8) 23 16)) 0 = some pl →
      Nexts (exec (.announceEmit (.mcast p)) s) fun t =>
        t.pkt.builds = s.pkt.builds ++ [.announce (.mcast p)]
        ∧ t.pkt.places = mapSet (fun _ => 0) s.pkt.places (placeKey p.val none 1) (pl + 1)
        ∧ Frame [.pkt] s t)
  ∧ (∀ (slot : BitVec 20) (launch : Nat) (s : State), s.inv = true → s.slotUsed slot.toNat = false → s.flawsIn (slotAddr slot.toNat) 0x100 = [] →
      Nexts (exec (.syncEmit (.session slot) launch) s) fun t =>
        t = s)
  ∧ (∀ (slot : BitVec 20) (s : State), s.inv = true → s.slotUsed slot.toNat = false → s.flawsIn (slotAddr slot.toNat) 0x100 = [] →
      Nexts (exec (.announceEmit (.session slot)) s) fun t =>
        t = s)

/-- Group keys are loaded and deleted, the cookie ring moves its CURRENT, a mint run starts and ends. A key load whose SPP and keyID no other
entry holds ends with its entry and either the error bit and nothing stored, or the entry valid with the key window's keyID, SPP and slot; a
key under a slot that is not a WRAP slot is never stored; a delete leaves the entry empty; a ring slot with a key becomes CURRENT, and a
ring word with a field of 3 is refused; a mint run within scratch starts, and, once the store is READY, ends with BUSY clear and a count
that is at most COUNT, at its first record and with MINT_ERR where the DRBG is stopped; while the store is not READY it goes on. Where these
commands rest on choices of the model, log entries 7, 26, 59 name them. (11_packet_time_service.md, R296; 11_packet_time_service.md, R303;
11_packet_time_service.md, R304; 11_packet_time_service.md, R305; 13_keys_identity_and_tamper.md, R349.) -/
def Obligations.GroupKeysRingAndMint : Prop :=
  (∀ (i : Itf) (v : Word) (s : State), s.inv = true → s.serves i 0x02203200 = true →
        (s.pkt.keys.any (fun x => decide (x.1 ≠ v.field 7 0) && x.2.valid && decide (x.2.spp = s.f 0x02203208 3 0) && decide (x.2.keyId = (s.rd 0x02203204).toNat))) = false →
      Nexts (exec (.keyLoad i v) s) fun t =>
        t.f 0x02203240 7 0 = v.field 7 0
        ∧ (t.b 0x02203240 30 = false → (t.groupKey (v.field 7 0)).valid = true ∧ (t.groupKey (v.field 7 0)).keyId = (s.rd 0x02203204).toNat
        ∧ (t.groupKey (v.field 7 0)).spp = s.f 0x02203208 3 0 ∧ (t.groupKey (v.field 7 0)).slot = s.f 0x02203208 13 8)
        ∧ (t.b 0x02203240 30 = true → t.pkt.keys = s.pkt.keys)
        ∧ t.b Blk.pkt.irqOff 4 = true
        ∧ OnlyRegs [0x02203240, Blk.pkt.irqOff] s t
        ∧ Frame [.regs, .heldP, .heldI, .pkt, .pwr, .faults, .pba, .tally, .out] s t)
  ∧ (∀ (i : Itf) (v : Word) (s : State), s.inv = true → s.serves i 0x02203200 = true → s.f 0x02203208 13 8 < 6 →
      Nexts (exec (.keyLoad i v) s) fun t =>
        t.b 0x02203240 30 = true
        ∧ t.pkt.keys = s.pkt.keys
        ∧ t.sent Flt.pktKeyLoadErr (v.field 7 0)
        ∧ OnlyRegs [0x02203240, Blk.pkt.irqOff] s t
        ∧ Frame [.regs, .faults, .pba, .tally, .out] s t)
  ∧ (∀ (i : Itf) (v : Word) (s : State), s.inv = true → s.serves i 0x02203200 = true →
      Nexts (exec (.keyDelete i v) s) fun t =>
        t.groupKey (v.field 7 0) = {}
        ∧ t.b 0x02203240 30 = false
        ∧ t.f 0x02203240 7 0 = v.field 7 0
        ∧ OnlyRegs [0x02203240, Blk.pkt.irqOff] s t
        ∧ Frame [.regs, .heldP, .heldI, .pkt, .pwr, .faults, .pba, .tally, .out] s t)
  ∧ (∀ (i : Itf) (r : Fin 4) (s : State), s.inv = true → s.serves i 0x02203420 = true → s.rd 0x02203420 = 0 →
        (s.slotActive r.val = 1 ∨ s.slotActive r.val = 2) →
      Nexts (exec (.ntsRingWrite i (BitVec.ofNat 32 (2 * 4 ^ r.val))) s) fun t =>
        t.ringState r.val = 2
        ∧ (∀ q : Fin 4, q ≠ r → t.ringState q.val = 0)
        ∧ OnlyRegs [0x02203420] s t
        ∧ Frame [.regs, .tally] s t)
  ∧ (∀ (i : Itf) (v : Word) (r : Fin 4) (s : State), s.inv = true → s.serves i 0x02203420 = true → v.field (2 * r.val + 1) (2 * r.val) = 3 →
      Nexts (exec (.ntsRingWrite i v) s) fun t =>
        t.rd 0x02203420 = s.rd 0x02203420
        ∧ t.sent Flt.pktCfgBad (0x02203420 % 0x10000 * 0x10000)
        ∧ OnlyRegs [Blk.pkt.irqOff] s t
        ∧ Frame [.regs, .faults, .pba, .tally, .out] s t)
  ∧ (∀ (i : Itf) (s : State), s.inv = true → s.serves i 0x0220344C = true → s.b 0x02203450 31 = false →
        inScratch (s.rd 0x02203440).toNat (72 * s.f 0x02203448 16 0) = true → inScratch (s.rd 0x02203444).toNat (104 * s.f 0x02203448 16 0) = true →
      Nexts (exec (.mintGo i 1) s) fun t =>
        t.rd 0x02203450 = 0x80000000
        ∧ OnlyRegs [0x02203450] s t
        ∧ Frame [.regs, .tally] s t)
  ∧ (∀ (s : State), s.inv = true → s.b 0x02203450 31 = true → s.cstReady = true →
      Nexts (exec (.mintDone) s) fun t =>
        t.b 0x02203450 31 = false
        ∧ t.f 0x02203450 16 0 ≤ s.f 0x02203448 16 0
        ∧ t.b Blk.pkt.irqOff 5 = true
        ∧ Frame [.regs, .pkt, .cst, .faults, .pba, .tally, .mem, .out, .free] s t)
  ∧ (∀ (s : State), s.inv = true → s.b 0x02203450 31 = true → s.cstReady = true → s.drbgOk = false → s.f 0x02203448 16 0 ≠ 0 →
        s.damaged (s.rd 0x02203440).toNat 72 = none →
      Nexts (exec (.mintDone) s) fun t =>
        t.rd 0x02203450 = 0x40000000
        ∧ t.sent Flt.pktMintErr 0
        ∧ t.free = s.free
        ∧ Frame [.regs, .pkt, .cst, .faults, .pba, .tally, .mem, .out, .free] s t)
  ∧ (∀ (s : State), s.inv = true → (s.b 0x02203450 31 = false ∨ s.cstReady = false) →
      Nexts (exec (.mintDone) s) fun t =>
        t = s)

/-- A client instance asks, waits, runs, loses its server and asks again. An instance that may run leaves OFF for REQUEST with its grants
forgotten, and asks again 10 s after its requests failed; one that may not run is OFF; 5 s without every grant count as one denial, reported
once; 10 s in WAIT, and 3 s without a Sync in RUN, lead to REQUEST, the latter with PKT/CLIENT_LOST; a grant of which half the duration has
passed is asked for anew in a Signaling message. Where these commands rest on choices of the model, log entries 5, 11, 26, 49 name them.
(11_packet_time_service.md, R308; 11_packet_time_service.md, R309; 11_packet_time_service.md, R310; 11_packet_time_service.md, R311.) -/
def Obligations.ClientInstancesFollowTheirServer : Prop :=
  (∀ (k : Fin 4) (s : State), s.inv = true → s.cliMay k.val = true → s.cliMcast k.val = false →
        (s.cliState k.val = clOFF ∨ s.cliState k.val = clREQUEST ∧ (s.cli k.val).failed = true ∧ s.since (s.cli k.val).failAt 10 = true) →
      Nexts (exec (.clientRequest k) s) fun t =>
        t.cliState k.val = clREQUEST
        ∧ (t.cli k.val).grants = 0
        ∧ (t.cli k.val).announces = 0
        ∧ (t.cli k.val).failed = false
        ∧ Frame [.regs, .spn, .ens, .tnd, .mac, .pkt, .cst, .trace, .faults, .pba, .tally, .mem, .out, .free] s t)
  ∧ (∀ (k : Fin 4) (s : State), s.inv = true → s.cliMay k.val = false →
      Nexts (exec (.clientRequest k) s) fun t =>
        t.cliState k.val = clOFF
        ∧ Frame [.regs, .spn, .ens, .tnd, .mac, .pkt, .cst, .trace, .faults, .pba, .tally, .mem, .out, .free] s t)
  ∧ (∀ (k : Fin 4) (s : State), s.inv = true → s.cliState k.val = clREQUEST → (s.cli k.val).failed = false → s.since (s.cli k.val).asked 5 = true →
      Nexts (exec (.clientRequestRetry k) s) fun t =>
        (t.cli k.val).failed = true
        ∧ t.f (cliOff k.val + 0x28) 7 0 = min (s.f (cliOff k.val + 0x28) 7 0 + 1) 255
        ∧ t.sent Flt.pktClientDenied k.val
        ∧ OnlyRegs [cliOff k.val + 0x28] s t
        ∧ Frame [.regs, .pkt, .faults] s t)
  ∧ (∀ (k : Fin 4) (s : State), s.inv = true → s.cliState k.val = clWAIT → s.cliMcast k.val = false → s.since (s.cli k.val).waitAt 10 = true →
      Nexts (exec (.clientWaitTimeout k) s) fun t =>
        t.cliState k.val = clREQUEST
        ∧ (t.cli k.val).grants = 0
        ∧ Frame [.regs, .spn, .ens, .tnd, .mac, .pkt, .cst, .trace, .faults, .pba, .tally, .mem, .out, .free] s t)
  ∧ (∀ (k : Fin 4) (s : State), s.inv = true → s.cliState k.val = clRUN → s.cliMcast k.val = false → s.since (s.cli k.val).syncAt 3 = true →
      Nexts (exec (.clientLost k .sync) s) fun t =>
        t.cliState k.val = clREQUEST
        ∧ t.sent Flt.pktClientLost (32 + k.val)
        ∧ Frame [.regs, .spn, .ens, .tnd, .mac, .pkt, .cst, .trace, .faults, .pba, .tally, .mem, .out, .free] s t)
  ∧ (∀ (k : Fin 4) (g : Fin 3) (s : State), s.inv = true → 2 ≤ s.cliState k.val → s.cliHalf k.val g.val = true →
        s.f (pktOff (s.cliPort k.val)) 27 26 = 0 → s.f 0x02200014 13 0 < 8191 → s.pkt.builds = [] →
      Nexts (exec (.clientRenew k g) s) fun t =>
        (t.cli k.val).sigSeq = (s.cli k.val).sigSeq + 1
        ∧ t.f 0x02200014 13 0 = s.f 0x02200014 13 0 + 1
        ∧ t.cliState k.val = s.cliState k.val
        ∧ OnlyRegs [0x02200014, 0x02200018] s t
        ∧ Frame [.regs, .mac, .pkt, .faults, .pba, .tally, .mem, .out] s t)

/-- A store command looks up, creates, provisions, releases or unpins a session and ends with its code. In a store whose words read are without
error, LOOKUP answers the slot that holds the key and copies its hot line, with code 0, or ends with code 1; CREATE of a key that no lookup
finds takes a free slot, with code 0, and a lookup then finds that slot; it ends with code 2 and the slot for a key that a lookup finds, and
with code 3 where no slot is free; a key that is not valid ends both with code 4 and changes no slot; PROVISION of a slot in use writes the
24 bytes of the wrapped key and sets the slot's key bit, with code 0, where the unwrapping succeeds, and else ends with code 5 and changes
nothing in the store; RELEASE frees the slot and UNPIN clears its bit, with code 0; PROVISION, RELEASE and UNPIN of a slot not in use end
with code 6. Where these commands rest on choices of the model, log entries 7, 38, 59 name them. (12_client_store.md, R318;
12_client_store.md, R319; 12_client_store.md, R320; 12_client_store.md, R321; 12_client_store.md, R322; 12_client_store.md, R324.) -/
def Obligations.StoreCommandsEndWithTheirCode : Prop :=
  (∀ (i : Itf) (k : SessKey) (n : Nat) (s : State), s.inv = true → s.serves i 0x02300100 = true → s.cst.flaws = [] → s.cstKey = some k →
        s.sessFind k = some n → n < 2 ^ 20 →
      Nexts (exec (.lookup i) s) fun t =>
        t.f 0x02300104 27 24 = 0
        ∧ t.b 0x02300104 31 = false
        ∧ t.b Blk.cst.irqOff 4 = true
        ∧ t.f 0x02300104 20 0 = n
        ∧ (∀ j : Fin 16, t.rd (0x02300180 + 4 * j.val) = BitVec.ofNat 32 (s.hot n (4 * j.val) 4))
        ∧ Frame [.regs, .pba, .tally, .out] s t)
  ∧ (∀ (i : Itf) (k : SessKey) (s : State), s.inv = true → s.serves i 0x02300100 = true → s.cst.flaws = [] → s.cstKey = some k → s.sessFind k = none →
      Nexts (exec (.lookup i) s) fun t =>
        t.f 0x02300104 27 24 = 1
        ∧ t.b 0x02300104 31 = false
        ∧ t.b Blk.cst.irqOff 4 = true
        ∧ OnlyRegs [0x02300104, Blk.cst.irqOff] s t
        ∧ Frame [.regs, .pba, .tally, .out] s t)
  ∧ (∀ (i : Itf) (s : State), s.inv = true → s.serves i 0x02300100 = true → s.cstKey = none →
      Nexts (exec (.lookup i) s) fun t =>
        t.f 0x02300104 27 24 = 4
        ∧ t.b 0x02300104 31 = false
        ∧ t.b Blk.cst.irqOff 4 = true
        ∧ OnlyRegs [0x02300104, Blk.cst.irqOff] s t
        ∧ Frame [.regs, .pba, .tally, .out] s t)
  ∧ (∀ (i : Itf) (k : SessKey) (n : Nat) (s : State), s.inv = true → s.serves i 0x02300100 = true → s.cst.flaws = [] → s.cstKey = some k →
        s.sessFind k = some n → n < 2 ^ 20 →
      Nexts (exec (.create i) s) fun t =>
        t.f 0x02300104 27 24 = 2
        ∧ t.b 0x02300104 31 = false
        ∧ t.b Blk.cst.irqOff 4 = true
        ∧ t.f 0x02300104 20 0 = n
        ∧ OnlyRegs [0x02300104, Blk.cst.irqOff] s t
        ∧ Frame [.regs, .pba, .tally, .out] s t)
  ∧ (∀ (i : Itf) (k : SessKey) (s : State), s.inv = true → s.serves i 0x02300100 = true → s.cst.flaws = [] → s.cstKey = some k → s.sessFind k = none →
        s.freeSlot = none →
      Nexts (exec (.create i) s) fun t =>
        t.f 0x02300104 27 24 = 3
        ∧ t.b 0x02300104 31 = false
        ∧ t.b Blk.cst.irqOff 4 = true
        ∧ t.b Blk.cst.irqOff 2 = true
        ∧ OnlyRegs [0x02300104, Blk.cst.irqOff] s t
        ∧ Frame [.regs, .pba, .tally, .out] s t)
  ∧ (∀ (i : Itf) (k : SessKey) (n j : Nat) (s : State), s.inv = true → s.serves i 0x02300100 = true → s.cst.flaws = [] → s.cstKey = some k →
        s.sessFind k = none → s.freeSlot = some n → s.bucketFree (s.hashOf k).1 = some j →
      Nexts (exec (.create i) s) fun t =>
        t.f 0x02300104 27 24 = 0
        ∧ t.b 0x02300104 31 = false
        ∧ t.b Blk.cst.irqOff 4 = true
        ∧ t.f 0x02300104 20 0 = n
        ∧ t.sessFind k = some n
        ∧ t.cst.used = insertNat s.cst.used n
        ∧ Frame [.regs, .heldP, .heldI, .pkt, .cst, .pwr, .faults, .pba, .tally, .mem, .out] s t)
  ∧ (∀ (i : Itf) (s : State), s.inv = true → s.serves i 0x02300100 = true → s.cstKey = none →
      Nexts (exec (.create i) s) fun t =>
        t.f 0x02300104 27 24 = 4
        ∧ t.b 0x02300104 31 = false
        ∧ t.b Blk.cst.irqOff 4 = true
        ∧ OnlyRegs [0x02300104, Blk.cst.irqOff] s t
        ∧ Frame [.regs, .pba, .tally, .out] s t)
  ∧ (∀ (i : Itf) (s : State), s.inv = true → s.serves i 0x02300100 = true → s.flawsIn (slotAddr (s.f 0x02300108 20 0)) 0x100 = [] →
        s.slotUsed (s.f 0x02300108 20 0) = true →
      Nexts (exec (.provision i) s) fun t =>
        t.b 0x02300104 31 = false
        ∧ t.b Blk.cst.irqOff 4 = true
        ∧ t.f 0x02300104 27 24 = (if (s.unwrapKey (s.f 0x0230015C 13 8) ((List.range 6).flatMap (fun j => leBytes 4 (s.rd (0x02300140 + 4 * j)).toNat))).isSome = true then 0 else 5)
        ∧ ((s.unwrapKey (s.f 0x0230015C 13 8) ((List.range 6).flatMap (fun j => leBytes 4 (s.rd (0x02300140 + 4 * j)).toNat))).isSome = true →
        t.hotBit (s.f 0x02300108 20 0) 0 3 = true
        ∧ t.mread (slotAddr (s.f 0x02300108 20 0) + 0x40) 24 = ((List.range 6).flatMap (fun j => leBytes 4 (s.rd (0x02300140 + 4 * j)).toNat)))
        ∧ ((s.unwrapKey (s.f 0x0230015C 13 8) ((List.range 6).flatMap (fun j => leBytes 4 (s.rd (0x02300140 + 4 * j)).toNat))).isSome = false →
        t.mem = s.mem)
        ∧ OnlyRegs [0x02300104, Blk.cst.irqOff] s t
        ∧ Frame [.regs, .heldP, .heldI, .pkt, .cst, .pwr, .faults, .pba, .tally, .mem, .out] s t)
  ∧ (∀ (i : Itf) (s : State), s.inv = true → s.serves i 0x02300100 = true → s.flawsIn (slotAddr (s.f 0x02300108 20 0)) 0x100 = [] →
        s.slotUsed (s.f 0x02300108 20 0) = false →
      Nexts (exec (.provision i) s) fun t =>
        t.f 0x02300104 27 24 = 6
        ∧ t.b 0x02300104 31 = false
        ∧ t.b Blk.cst.irqOff 4 = true
        ∧ OnlyRegs [0x02300104, Blk.cst.irqOff] s t
        ∧ Frame [.regs, .pba, .tally, .out] s t)
  ∧ (∀ (i : Itf) (s : State), s.inv = true → s.serves i 0x02300100 = true → s.flawsIn (slotAddr (s.f 0x02300108 20 0)) 0x100 = [] →
        s.slotUsed (s.f 0x02300108 20 0) = true →
      Nexts (exec (.release i) s) fun t =>
        t.f 0x02300104 27 24 = 0
        ∧ t.b 0x02300104 31 = false
        ∧ t.b Blk.cst.irqOff 4 = true
        ∧ t.slotUsed (s.f 0x02300108 20 0) = false
        ∧ t.hotBit (s.f 0x02300108 20 0) 0 0 = false
        ∧ Frame [.regs, .heldP, .heldI, .pkt, .cst, .pwr, .faults, .pba, .tally, .mem, .out] s t)
  ∧ (∀ (i : Itf) (s : State), s.inv = true → s.serves i 0x02300100 = true → s.flawsIn (slotAddr (s.f 0x02300108 20 0)) 0x100 = [] →
        s.slotUsed (s.f 0x02300108 20 0) = false →
      Nexts (exec (.release i) s) fun t =>
        t.f 0x02300104 27 24 = 6
        ∧ t.b 0x02300104 31 = false
        ∧ t.b Blk.cst.irqOff 4 = true
        ∧ OnlyRegs [0x02300104, Blk.cst.irqOff] s t
        ∧ Frame [.regs, .pba, .tally, .out] s t)
  ∧ (∀ (i : Itf) (s : State), s.inv = true → s.serves i 0x02300100 = true → s.flawsIn (slotAddr (s.f 0x02300108 20 0)) 0x100 = [] →
        s.slotUsed (s.f 0x02300108 20 0) = true →
      Nexts (exec (.unpin i) s) fun t =>
        t.f 0x02300104 27 24 = 0
        ∧ t.b 0x02300104 31 = false
        ∧ t.b Blk.cst.irqOff 4 = true
        ∧ t.hotBit (s.f 0x02300108 20 0) 0 5 = false
        ∧ t.cst = s.cst
        ∧ OnlyRegs [0x02300104, Blk.cst.irqOff] s t
        ∧ Frame [.regs, .heldP, .heldI, .pkt, .cst, .pwr, .faults, .pba, .tally, .mem, .out] s t)

/-- The store starts empty, the sweep frees what no grant holds, the scrub counts what it meets. In each power-up of its domain a trained store,
where no record or message waits for it, reads zero below the configuration region and is READY with nothing in use; one trained while the
DRBG is stopped is zeroed and becomes READY when the DRBG runs; a training that fails leaves READY 0 with CST/INIT_FAIL, for good; in a
store without errors the sweep, once in a TB0 second, releases the one session in use when it has no grant and is not pinned; a line of the
scrub that is due moves the pass on, a corrected error on it counts with its address, and an uncorrectable one in a slot not in use retires
the slot. Where these commands rest on choices of the model, log entries 5, 38, 50, 59 name them. (12_client_store.md, R313;
12_client_store.md, R323; 12_client_store.md, R326; 12_client_store.md, R327; 12_client_store.md, R328.) -/
def Obligations.StoreStartsSweepsAndScrubs : Prop :=
  (∀ (a : Nat) (s : State), s.inv = true → s.domOn 6 = true → s.b 0x02400010 2 = true → s.cstReady = false → s.cst.ready = none → s.trace.queue = [] →
        s.gns.queue = [] → a < 0xF0000000 →
      Nexts (exec (.storeInit true) s) fun t =>
        t.mget a = 0
        ∧ t.cstReady = true
        ∧ t.cst.used = []
        ∧ t.b Blk.cst.irqOff 5 = true
        ∧ t.f 0x02300014 20 0 = 0
        ∧ Frame [.regs, .tnd, .gns, .cst, .trace, .faults, .pba, .tally, .mem, .out, .free] s t)
  ∧ (∀ (s : State), s.inv = true → s.domOn 6 = true → s.cstReady = false → s.cst.ready = none →
      Nexts (exec (.storeInit false) s) fun t =>
        t.cstReady = false
        ∧ t.cst.ready = some false
        ∧ t.sent Flt.cstInitFail 0
        ∧ t.mem = s.mem
        ∧ Frame [.regs, .tnd, .gns, .cst, .trace, .faults, .pba, .tally, .mem, .out, .free] s t)
  ∧ (∀ (n : Nat) (s : State), s.inv = true → s.cstReady = true → s.cst.sweepSec ≠ some (s.tbSec 0) → s.cst.used = [n] → n < 2 ^ 20 →
        s.hot n 36 1 % 8 = 0 → s.hotBit n 0 5 = false → s.cst.flaws = [] →
      Nexts (exec (.sessionSweep) s) fun t =>
        t.cst.used = []
        ∧ t.cst.sweepSec = some (s.tbSec 0)
        ∧ t.hotBit n 0 0 = false
        ∧ t.rd64 0x022050A0 = min (2 ^ 48 - 1) (s.rd64 0x022050A0 % 2 ^ 48 + 1)
        ∧ Frame [.regs, .pkt, .cst, .faults, .pba, .mem, .out] s t)
  ∧ (∀ (b : Bool) (s : State), s.inv = true → s.domOn 6 = true → s.cstReady = false → s.cst.ready = some true → s.b 0x02400010 2 = true →
      Nexts (exec (.storeInit b) s) fun t =>
        t.cstReady = true
        ∧ t.b Blk.cst.irqOff 5 = true
        ∧ Frame [.regs, .tnd, .gns, .cst, .trace, .faults, .pba, .tally, .mem, .out, .free] s t)
  ∧ (∀ (s : State), s.inv = true → s.domOn 6 = true → s.b 0x02400010 2 = false → s.cstReady = false → s.cst.ready = none →
      Nexts (exec (.storeInit true) s) fun t =>
        t.cstReady = false
        ∧ t.cst.ready = some true
        ∧ t.cst.used = []
        ∧ t.cst.flaws = []
        ∧ t.free = s.free
        ∧ Frame [.regs, .tnd, .gns, .cst, .trace, .faults, .pba, .tally, .mem, .out, .free] s t)
  ∧ (∀ (b : Bool) (s : State), s.inv = true → (s.domOn 6 = false ∨ s.cstReady = true ∨ s.cst.ready = some false) →
      Nexts (exec (.storeInit b) s) fun t =>
        t = s)
  ∧ (∀ (s : State), s.inv = true → s.cstReady = true → s.b 0x02300010 0 = true → s.scrubDue = true → s.cst.scrubAt + 64 < 0xF0000000 →
        s.flawsIn (s.cst.scrubAt / 64 * 64) 64 = [] →
      Nexts (exec (.scrubLine []) s) fun t =>
        t.cst.scrubAt = s.cst.scrubAt + 64
        ∧ t.mem = s.mem
        ∧ Frame [.cst, .tally] s t)
  ∧ (∀ (a : Word) (s : State), s.inv = true → a.toNat / 64 = s.cst.scrubAt / 64 → a.toNat % 8 = 0 → s.cstReady = true → s.b 0x02300010 0 = true →
        s.scrubDue = true → s.cst.scrubAt + 64 < 0xF0000000 → s.flawsIn (s.cst.scrubAt / 64 * 64) 64 = [] →
      Nexts (exec (.scrubLine [⟨a, false⟩]) s) fun t =>
        t.cst.scrubAt = s.cst.scrubAt + 64
        ∧ t.rd 0x02300038 = a
        ∧ t.rd 0x02300030 = (if s.rd 0x02300030 = 0xFFFFFFFF then 0xFFFFFFFF else s.rd 0x02300030 + 1)
        ∧ t.mem = s.mem
        ∧ OnlyRegs [0x02300038, 0x02300030, Blk.cst.irqOff] s t
        ∧ Frame [.regs, .tnd, .pkt, .cst, .faults, .pba, .tally, .mem, .out] s t)
  ∧ (∀ (a : Word) (s : State), s.inv = true → a.toNat / 64 = s.cst.scrubAt / 64 → a.toNat % 8 = 0 → s.cstReady = true → s.b 0x02300010 0 = true →
        s.scrubDue = true → s.cst.scrubAt + 64 < 0xF0000000 → s.flawsIn (s.cst.scrubAt / 64 * 64) 64 = [] → a.toNat < 0x80000000 →
        s.slotUsed (a.toNat / 0x800) = false → s.cst.retired.contains (a.toNat / 0x800) = false →
      Nexts (exec (.scrubLine [⟨a, true⟩]) s) fun t =>
        (a.toNat / 0x800) ∈ t.cst.retired
        ∧ t.cst.passUe = true
        ∧ t.rd 0x02300038 = a
        ∧ t.sent Flt.cstEccUe a.toNat
        ∧ t.sent Flt.cstSlotRetired (a.toNat / 0x800)
        ∧ Frame [.regs, .tnd, .pkt, .cst, .faults, .pba, .tally, .mem, .out] s t)

/-- BAR2 writes and AtomicOps reach scratch alone. A BAR2 write into scratch of a store that is READY stores its bytes there and changes no
other byte of memory; one is held while a fence that names CST is open, or an earlier BAR2 access waits. An AtomicOp of 32 or 64 bits on an
aligned word of scratch without an error answers the old value, stores the new one and changes no other byte; on a word with an
uncorrectable error it answers a poisoned completion and changes no memory; addressed anywhere else, or in another shape, it completes with
Completer Abort and MTX/BAD_ACCESS and changes no memory. A broken lock completes its AtomicOp with Completer Abort, changes no memory and
raises MTX/LOCK_TIMEOUT. Where these commands rest on choices of the model, log entries 2, 50, 59 name them. (12_client_store.md, R330;
12_client_store.md, R331; 16_host_interface_and_data_movement.md, R401.) -/
def Obligations.ScratchWritesAndAtomics : Prop :=
  (∀ (addr : Word) (bytes : List Byte) (b : Nat) (s : State), s.inv = true → s.fenceHolds .pcie 0x02300000 = false → s.bar2Behind = false →
        s.cstReady = true → inScratch addr.toNat bytes.length = true →
      Nexts (exec (.bar2Write addr bytes) s) fun t =>
        t.mread addr.toNat bytes.length = bytes
        ∧ (b < addr.toNat ∨ addr.toNat + bytes.length ≤ b → t.mget b = s.mget b)
        ∧ Frame [.cst, .tally, .mem] s t)
  ∧ (∀ (addr : Word) (bytes : List Byte) (s : State), s.inv = true → (s.fenceHolds .pcie 0x02300000 = true ∨ s.bar2Behind = true) →
      Nexts (exec (.bar2Write addr bytes) s) fun t =>
        t.heldP = s.heldP ++ [{ itf := .pcie, off := addr.toNat, v := 0, bar2 := some bytes, fenced := s.fenceP.isSome }]
        ∧ Frame [.heldP] s t)
  ∧ (∀ (addr : Word) (wide : Bool) (op : AtomicKind) (a c : BitVec 64) (n b : Nat) (s : State), s.inv = true → n = (if wide then 8 else 4) →
        s.running = true → s.cstReady = true → inScratch addr.toNat n = true → addr.toNat % n = 0 → s.flawsIn (addr.toNat / 8 * 8) 8 = [] →
      Nexts (exec (.atomicOp (some addr) wide op a c) s) fun t =>
        t.readOf .pcie = some { value := BitVec.ofNat 64 (leNat (s.mread addr.toNat n)) }
        ∧ leNat (t.mread addr.toNat n) = atomicNew op (8 * n) (leNat (s.mread addr.toNat n)) a.toNat c.toNat
        ∧ (b < addr.toNat ∨ addr.toNat + n ≤ b → t.mget b = s.mget b)
        ∧ t.out = s.out
        ∧ Frame [.rdP, .tally, .mem] s t)
  ∧ (∀ (addr : Word) (wide : Bool) (op : AtomicKind) (a c : BitVec 64) (n : Nat) (s : State), s.inv = true → n = (if wide then 8 else 4) →
        s.running = true → s.cstReady = true → inScratch addr.toNat n = true → addr.toNat % n = 0 → (s.damaged (addr.toNat / 8 * 8) 8).isSome = true →
      Nexts (exec (.atomicOp (some addr) wide op a c) s) fun t =>
        t.readOf .pcie = some { poisoned := true }
        ∧ t.mem = s.mem
        ∧ Frame [.regs, .rdP, .rdI, .pkt, .cst, .faults, .pba, .tally, .mem, .out] s t)
  ∧ (∀ (addr : Word) (wide : Bool) (op : AtomicKind) (a c : BitVec 64) (n : Nat) (s : State), s.inv = true → n = (if wide then 8 else 4) →
        (s.running = false ∨ s.cstReady = false ∨ inScratch addr.toNat n = false ∨ addr.toNat % n ≠ 0) →
      Nexts (exec (.atomicOp (some addr) wide op a c) s) fun t =>
        t.readOf .pcie = some { aborted := true }
        ∧ t.sent Flt.mtxBadAccess (addr.toNat % 2 ^ 28)
        ∧ t.b Blk.mtx.irqOff 1 = true
        ∧ t.mem = s.mem
        ∧ OnlyRegs [Blk.mtx.irqOff] s t
        ∧ Frame [.regs, .rdP, .faults, .pba, .out] s t)
  ∧ (∀ (wide : Bool) (op : AtomicKind) (a c : BitVec 64) (s : State), s.inv = true →
      Nexts (exec (.atomicOp none wide op a c) s) fun t =>
        t.readOf .pcie = some { aborted := true }
        ∧ t.sent Flt.mtxBadAccess 0
        ∧ t.b Blk.mtx.irqOff 1 = true
        ∧ t.mem = s.mem
        ∧ OnlyRegs [Blk.mtx.irqOff] s t
        ∧ Frame [.regs, .rdP, .faults, .pba, .out] s t)
  ∧ (∀ (addr : Word) (m : Fin 5) (s : State), s.inv = true →
      Nexts (exec (.lockTimeout addr m) s) fun t =>
        t.readOf .pcie = some { aborted := true }
        ∧ t.mem = s.mem
        ∧ t.sent Flt.mtxLockTimeout (m.val * 2 ^ 28 + addr.toNat % 2 ^ 28)
        ∧ t.b Blk.mtx.irqOff 3 = true
        ∧ OnlyRegs [Blk.mtx.irqOff] s t
        ∧ Frame [.regs, .rdP, .rdI, .faults, .pba, .out] s t)
end

