-- ==== Sys2Proof/Laws/SMap.lean ====
section
/-! SUPPORT. Sparse maps: what a write leaves to be read, and that it keeps the canonical form. -/
namespace Sys2Proof.Machine

variable {α : Type} [DecidableEq α] (dv : Nat → α)

/-- What was written is read. -/
@[simp] theorem mapGet_mapSet_same (m : List (Nat × α)) (k : Nat) (v : α) (h : mapWf dv m = true) :
    mapGet dv (mapSet dv m k v) k = v := by
  unfold mapWf at h
  revert h
  generalize (0 : Nat) = lo
  have above : ∀ (l : List (Nat × α)) (lo : Nat), mapWfFrom dv lo l = true → k < lo → mapGet dv l k = dv k := by
    intro l
    induction l with
    | nil => intro lo _ _; rfl
    | cons x r ih =>
      obtain ⟨k', v'⟩ := x
      intro lo h hk
      simp only [mapWfFrom, Bool.and_eq_true, decide_eq_true_eq] at h
      have : k' ≠ k := by omega
      simp only [mapGet, this, if_false]
      exact ih (k' + 1) h.2 (by omega)
  induction m generalizing lo with
  | nil => intro _; by_cases hv : v = dv k <;> simp [mapSet, mapGet, hv]
  | cons x r ih =>
    obtain ⟨k', v'⟩ := x
    intro h
    simp only [mapWfFrom, Bool.and_eq_true, decide_eq_true_eq] at h
    unfold mapSet
    by_cases h1 : k < k'
    · by_cases hv : v = dv k
      · have : k' ≠ k := by omega
        simp only [h1, hv, if_true, mapGet, this, if_false]
        exact above r (k' + 1) h.2 (by omega)
      · simp [h1, hv, mapGet]
    · by_cases h2 : k' = k
      · subst h2
        by_cases hv : v = dv k'
        · simp only [Nat.lt_irrefl, if_false, if_true, hv]
          exact above r (k' + 1) h.2 (by omega)
        · simp [hv, mapGet]
      · simp only [h1, h2, if_false, mapGet]
        exact ih (k' + 1) h.2

/-- A write leaves every other key. -/
@[simp] theorem mapGet_mapSet_ne (m : List (Nat × α)) (k k2 : Nat) (v : α) (h : k ≠ k2) :
    mapGet dv (mapSet dv m k v) k2 = mapGet dv m k2 := by
  induction m with
  | nil => by_cases hv : v = dv k <;> simp [mapSet, mapGet, hv, h]
  | cons x r ih =>
    obtain ⟨k', v'⟩ := x
    unfold mapSet
    by_cases h1 : k < k'
    · by_cases hv : v = dv k <;> simp [h1, hv, mapGet, h]
    · by_cases h2 : k' = k
      · subst h2
        by_cases hv : v = dv k' <;> simp [hv, mapGet, h]
      · simp only [h1, h2, if_false, mapGet, ih]

/-- A bound below the keys may fall. -/
theorem mapWfFrom_mono (m : List (Nat × α)) {lo lo2 : Nat} (h : mapWfFrom dv lo m = true) (hl : lo2 ≤ lo) :
    mapWfFrom dv lo2 m = true := by
  cases m with
  | nil => rfl
  | cons x r =>
    simp only [mapWfFrom, Bool.and_eq_true, decide_eq_true_eq] at h ⊢
    exact ⟨⟨by omega, h.1.2⟩, h.2⟩

/-- A write keeps the canonical form above a bound that the key respects. -/
theorem mapSet_wfFrom (m : List (Nat × α)) (k : Nat) (v : α) {lo : Nat} (h : mapWfFrom dv lo m = true) (hl : lo ≤ k) :
    mapWfFrom dv lo (mapSet dv m k v) = true := by
  induction m generalizing lo with
  | nil => by_cases hv : v = dv k <;> simp [mapSet, mapWfFrom, hv, hl]
  | cons x r ih =>
    obtain ⟨k', v'⟩ := x
    have h0 := h
    simp only [mapWfFrom, Bool.and_eq_true, decide_eq_true_eq, Bool.not_eq_true', decide_eq_false_iff_not] at h
    unfold mapSet
    by_cases h1 : k < k'
    · by_cases hv : v = dv k
      · simpa [h1, hv] using h0
      · simp only [h1, hv, if_true, if_false, mapWfFrom, Bool.and_eq_true, decide_eq_true_eq, Bool.not_eq_true',
          decide_eq_false_iff_not]
        exact ⟨⟨hl, not_false⟩, ⟨by omega, h.1.2⟩, h.2⟩
    · by_cases h2 : k' = k
      · subst h2
        by_cases hv : v = dv k'
        · simp only [Nat.lt_irrefl, if_false, if_true, hv]
          exact mapWfFrom_mono dv r h.2 (by omega)
        · simp only [Nat.lt_irrefl, if_false, if_true, hv, mapWfFrom, Bool.and_eq_true, decide_eq_true_eq, Bool.not_eq_true',
            decide_eq_false_iff_not]
          exact ⟨⟨hl, not_false⟩, h.2⟩
      · simp only [h1, h2, if_false, mapWfFrom, Bool.and_eq_true, decide_eq_true_eq, Bool.not_eq_true', decide_eq_false_iff_not]
        exact ⟨h.1, ih h.2 (by omega)⟩

/-- A write keeps the canonical form. -/
@[simp] theorem mapSet_wf (m : List (Nat × α)) (k : Nat) (v : α) (h : mapWf dv m = true) : mapWf dv (mapSet dv m k v) = true :=
  mapSet_wfFrom dv m k v h (Nat.zero_le k)

/-- Taking entries out keeps the canonical form. -/
theorem filter_wfFrom (p : Nat × α → Bool) (m : List (Nat × α)) {lo : Nat} (h : mapWfFrom dv lo m = true) :
    mapWfFrom dv lo (m.filter p) = true := by
  induction m generalizing lo with
  | nil => rfl
  | cons x r ih =>
    simp only [mapWfFrom, Bool.and_eq_true, decide_eq_true_eq] at h
    by_cases hp : p x = true
    · simp only [List.filter_cons, hp, if_true, mapWfFrom, Bool.and_eq_true, decide_eq_true_eq]
      exact ⟨h.1, ih h.2⟩
    · simp only [List.filter_cons, hp]
      exact mapWfFrom_mono dv _ (ih h.2) (by omega)

@[simp] theorem filter_wf (p : Nat × α → Bool) (m : List (Nat × α)) (h : mapWf dv m = true) : mapWf dv (m.filter p) = true :=
  filter_wfFrom dv p m h

/-- Entries at or above a bound are canonical from that bound on. -/
theorem filter_ge_wfFrom (k : Nat) (m : List (Nat × α)) {lo : Nat} (h : mapWfFrom dv lo m = true) :
    mapWfFrom dv k (m.filter (fun r => decide (k ≤ r.1))) = true := by
  induction m generalizing lo with
  | nil => rfl
  | cons x r ih =>
    simp only [mapWfFrom, Bool.and_eq_true, decide_eq_true_eq] at h
    by_cases hp : k ≤ x.1
    · simp only [List.filter_cons, hp, decide_true, if_true, mapWfFrom, Bool.and_eq_true, decide_eq_true_eq]
      exact ⟨⟨trivial, h.1.2⟩, filter_wfFrom dv _ _ h.2⟩
    · simp only [List.filter_cons, hp, decide_false, Bool.false_eq_true, if_false]
      exact ih h.2

/-- Two canonical lists one above the other. -/
theorem append_wfFrom (m r : List (Nat × α)) {lo k : Nat} (h : mapWfFrom dv lo m = true) (hk : ∀ x ∈ m, x.1 < k) (hl : lo ≤ k)
    (hr : mapWfFrom dv k r = true) : mapWfFrom dv lo (m ++ r) = true := by
  induction m generalizing lo with
  | nil => exact mapWfFrom_mono dv r hr hl
  | cons x l ih =>
    simp only [List.cons_append, mapWfFrom, Bool.and_eq_true, decide_eq_true_eq] at h ⊢
    have := hk x (List.mem_cons_self ..)
    exact ⟨h.1, ih h.2 (fun y hy => hk y (List.mem_cons_of_mem _ hy)) (by omega)⟩

end Sys2Proof.Machine
end

