-- ==== Sys2Proof/Laws/State.lean ====
section
/-! SUPPORT. What each named update of the state leaves alone: one lemma for each update and each field it does not write, so that no later
proof unfolds a record update. -/
namespace Sys2Proof.Machine

/-! ### `wr` -/

@[simp] theorem State.wr_live (s : State) (o : Nat) (v : Word) : (s.wr o v).live = s.live := rfl
@[simp] theorem State.wr_pendSh (s : State) (o : Nat) (v : Word) : (s.wr o v).pendSh = s.pendSh := rfl
@[simp] theorem State.wr_shStamp (s : State) (o : Nat) (v : Word) : (s.wr o v).shStamp = s.shStamp := rfl
@[simp] theorem State.wr_bankP (s : State) (o : Nat) (v : Word) : (s.wr o v).bankP = s.bankP := rfl
@[simp] theorem State.wr_bankI (s : State) (o : Nat) (v : Word) : (s.wr o v).bankI = s.bankI := rfl
@[simp] theorem State.wr_rdP (s : State) (o : Nat) (v : Word) : (s.wr o v).rdP = s.rdP := rfl
@[simp] theorem State.wr_rdI (s : State) (o : Nat) (v : Word) : (s.wr o v).rdI = s.rdI := rfl
@[simp] theorem State.wr_fenceP (s : State) (o : Nat) (v : Word) : (s.wr o v).fenceP = s.fenceP := rfl
@[simp] theorem State.wr_fenceI (s : State) (o : Nat) (v : Word) : (s.wr o v).fenceI = s.fenceI := rfl
@[simp] theorem State.wr_heldP (s : State) (o : Nat) (v : Word) : (s.wr o v).heldP = s.heldP := rfl
@[simp] theorem State.wr_heldI (s : State) (o : Nat) (v : Word) : (s.wr o v).heldI = s.heldI := rfl
@[simp] theorem State.wr_chans (s : State) (o : Nat) (v : Word) : (s.wr o v).chans = s.chans := rfl
@[simp] theorem State.wr_spn (s : State) (o : Nat) (v : Word) : (s.wr o v).spn = s.spn := rfl
@[simp] theorem State.wr_monitors (s : State) (o : Nat) (v : Word) : (s.wr o v).monitors = s.monitors := rfl
@[simp] theorem State.wr_tiuP (s : State) (o : Nat) (v : Word) : (s.wr o v).tiuP = s.tiuP := rfl
@[simp] theorem State.wr_tiuL (s : State) (o : Nat) (v : Word) : (s.wr o v).tiuL = s.tiuL := rfl
@[simp] theorem State.wr_syns (s : State) (o : Nat) (v : Word) : (s.wr o v).syns = s.syns := rfl
@[simp] theorem State.wr_outs (s : State) (o : Nat) (v : Word) : (s.wr o v).outs = s.outs := rfl
@[simp] theorem State.wr_lanes (s : State) (o : Nat) (v : Word) : (s.wr o v).lanes = s.lanes := rfl
@[simp] theorem State.wr_pps (s : State) (o : Nat) (v : Word) : (s.wr o v).pps = s.pps := rfl
@[simp] theorem State.wr_tod (s : State) (o : Nat) (v : Word) : (s.wr o v).tod = s.tod := rfl
@[simp] theorem State.wr_ens (s : State) (o : Nat) (v : Word) : (s.wr o v).ens = s.ens := rfl
@[simp] theorem State.wr_srcRes (s : State) (o : Nat) (v : Word) : (s.wr o v).srcRes = s.srcRes := rfl
@[simp] theorem State.wr_tnd (s : State) (o : Nat) (v : Word) : (s.wr o v).tnd = s.tnd := rfl
@[simp] theorem State.wr_gns (s : State) (o : Nat) (v : Word) : (s.wr o v).gns = s.gns := rfl
@[simp] theorem State.wr_mac (s : State) (o : Nat) (v : Word) : (s.wr o v).mac = s.mac := rfl
@[simp] theorem State.wr_pkt (s : State) (o : Nat) (v : Word) : (s.wr o v).pkt = s.pkt := rfl
@[simp] theorem State.wr_cst (s : State) (o : Nat) (v : Word) : (s.wr o v).cst = s.cst := rfl
@[simp] theorem State.wr_img (s : State) (o : Nat) (v : Word) : (s.wr o v).img = s.img := rfl
@[simp] theorem State.wr_pwr (s : State) (o : Nat) (v : Word) : (s.wr o v).pwr = s.pwr := rfl
@[simp] theorem State.wr_dma (s : State) (o : Nat) (v : Word) : (s.wr o v).dma = s.dma := rfl
@[simp] theorem State.wr_prf (s : State) (o : Nat) (v : Word) : (s.wr o v).prf = s.prf := rfl
@[simp] theorem State.wr_pcie (s : State) (o : Nat) (v : Word) : (s.wr o v).pcie = s.pcie := rfl
@[simp] theorem State.wr_flt (s : State) (o : Nat) (v : Word) : (s.wr o v).flt = s.flt := rfl
@[simp] theorem State.wr_trace (s : State) (o : Nat) (v : Word) : (s.wr o v).trace = s.trace := rfl
@[simp] theorem State.wr_keys (s : State) (o : Nat) (v : Word) : (s.wr o v).keys = s.keys := rfl
@[simp] theorem State.wr_faults (s : State) (o : Nat) (v : Word) : (s.wr o v).faults = s.faults := rfl
@[simp] theorem State.wr_vecMask (s : State) (o : Nat) (v : Word) : (s.wr o v).vecMask = s.vecMask := rfl
@[simp] theorem State.wr_pba (s : State) (o : Nat) (v : Word) : (s.wr o v).pba = s.pba := rfl
@[simp] theorem State.wr_tally (s : State) (o : Nat) (v : Word) : (s.wr o v).tally = s.tally := rfl
@[simp] theorem State.wr_mem (s : State) (o : Nat) (v : Word) : (s.wr o v).mem = s.mem := rfl
@[simp] theorem State.wr_out (s : State) (o : Nat) (v : Word) : (s.wr o v).out = s.out := rfl
@[simp] theorem State.wr_free (s : State) (o : Nat) (v : Word) : (s.wr o v).free = s.free := rfl
@[simp] theorem State.wr_pending (s : State) (o : Nat) (v : Word) : (s.wr o v).pending = s.pending := rfl

/-! ### `setF` -/

@[simp] theorem State.setF_live (s : State) (o hi lo v : Nat) : (s.setF o hi lo v).live = s.live := rfl
@[simp] theorem State.setF_pendSh (s : State) (o hi lo v : Nat) : (s.setF o hi lo v).pendSh = s.pendSh := rfl
@[simp] theorem State.setF_shStamp (s : State) (o hi lo v : Nat) : (s.setF o hi lo v).shStamp = s.shStamp := rfl
@[simp] theorem State.setF_bankP (s : State) (o hi lo v : Nat) : (s.setF o hi lo v).bankP = s.bankP := rfl
@[simp] theorem State.setF_bankI (s : State) (o hi lo v : Nat) : (s.setF o hi lo v).bankI = s.bankI := rfl
@[simp] theorem State.setF_rdP (s : State) (o hi lo v : Nat) : (s.setF o hi lo v).rdP = s.rdP := rfl
@[simp] theorem State.setF_rdI (s : State) (o hi lo v : Nat) : (s.setF o hi lo v).rdI = s.rdI := rfl
@[simp] theorem State.setF_fenceP (s : State) (o hi lo v : Nat) : (s.setF o hi lo v).fenceP = s.fenceP := rfl
@[simp] theorem State.setF_fenceI (s : State) (o hi lo v : Nat) : (s.setF o hi lo v).fenceI = s.fenceI := rfl
@[simp] theorem State.setF_heldP (s : State) (o hi lo v : Nat) : (s.setF o hi lo v).heldP = s.heldP := rfl
@[simp] theorem State.setF_heldI (s : State) (o hi lo v : Nat) : (s.setF o hi lo v).heldI = s.heldI := rfl
@[simp] theorem State.setF_chans (s : State) (o hi lo v : Nat) : (s.setF o hi lo v).chans = s.chans := rfl
@[simp] theorem State.setF_spn (s : State) (o hi lo v : Nat) : (s.setF o hi lo v).spn = s.spn := rfl
@[simp] theorem State.setF_monitors (s : State) (o hi lo v : Nat) : (s.setF o hi lo v).monitors = s.monitors := rfl
@[simp] theorem State.setF_tiuP (s : State) (o hi lo v : Nat) : (s.setF o hi lo v).tiuP = s.tiuP := rfl
@[simp] theorem State.setF_tiuL (s : State) (o hi lo v : Nat) : (s.setF o hi lo v).tiuL = s.tiuL := rfl
@[simp] theorem State.setF_syns (s : State) (o hi lo v : Nat) : (s.setF o hi lo v).syns = s.syns := rfl
@[simp] theorem State.setF_outs (s : State) (o hi lo v : Nat) : (s.setF o hi lo v).outs = s.outs := rfl
@[simp] theorem State.setF_lanes (s : State) (o hi lo v : Nat) : (s.setF o hi lo v).lanes = s.lanes := rfl
@[simp] theorem State.setF_pps (s : State) (o hi lo v : Nat) : (s.setF o hi lo v).pps = s.pps := rfl
@[simp] theorem State.setF_tod (s : State) (o hi lo v : Nat) : (s.setF o hi lo v).tod = s.tod := rfl
@[simp] theorem State.setF_ens (s : State) (o hi lo v : Nat) : (s.setF o hi lo v).ens = s.ens := rfl
@[simp] theorem State.setF_srcRes (s : State) (o hi lo v : Nat) : (s.setF o hi lo v).srcRes = s.srcRes := rfl
@[simp] theorem State.setF_tnd (s : State) (o hi lo v : Nat) : (s.setF o hi lo v).tnd = s.tnd := rfl
@[simp] theorem State.setF_gns (s : State) (o hi lo v : Nat) : (s.setF o hi lo v).gns = s.gns := rfl
@[simp] theorem State.setF_mac (s : State) (o hi lo v : Nat) : (s.setF o hi lo v).mac = s.mac := rfl
@[simp] theorem State.setF_pkt (s : State) (o hi lo v : Nat) : (s.setF o hi lo v).pkt = s.pkt := rfl
@[simp] theorem State.setF_cst (s : State) (o hi lo v : Nat) : (s.setF o hi lo v).cst = s.cst := rfl
@[simp] theorem State.setF_img (s : State) (o hi lo v : Nat) : (s.setF o hi lo v).img = s.img := rfl
@[simp] theorem State.setF_pwr (s : State) (o hi lo v : Nat) : (s.setF o hi lo v).pwr = s.pwr := rfl
@[simp] theorem State.setF_dma (s : State) (o hi lo v : Nat) : (s.setF o hi lo v).dma = s.dma := rfl
@[simp] theorem State.setF_prf (s : State) (o hi lo v : Nat) : (s.setF o hi lo v).prf = s.prf := rfl
@[simp] theorem State.setF_pcie (s : State) (o hi lo v : Nat) : (s.setF o hi lo v).pcie = s.pcie := rfl
@[simp] theorem State.setF_flt (s : State) (o hi lo v : Nat) : (s.setF o hi lo v).flt = s.flt := rfl
@[simp] theorem State.setF_trace (s : State) (o hi lo v : Nat) : (s.setF o hi lo v).trace = s.trace := rfl
@[simp] theorem State.setF_keys (s : State) (o hi lo v : Nat) : (s.setF o hi lo v).keys = s.keys := rfl
@[simp] theorem State.setF_faults (s : State) (o hi lo v : Nat) : (s.setF o hi lo v).faults = s.faults := rfl
@[simp] theorem State.setF_vecMask (s : State) (o hi lo v : Nat) : (s.setF o hi lo v).vecMask = s.vecMask := rfl
@[simp] theorem State.setF_pba (s : State) (o hi lo v : Nat) : (s.setF o hi lo v).pba = s.pba := rfl
@[simp] theorem State.setF_tally (s : State) (o hi lo v : Nat) : (s.setF o hi lo v).tally = s.tally := rfl
@[simp] theorem State.setF_mem (s : State) (o hi lo v : Nat) : (s.setF o hi lo v).mem = s.mem := rfl
@[simp] theorem State.setF_out (s : State) (o hi lo v : Nat) : (s.setF o hi lo v).out = s.out := rfl
@[simp] theorem State.setF_free (s : State) (o hi lo v : Nat) : (s.setF o hi lo v).free = s.free := rfl
@[simp] theorem State.setF_pending (s : State) (o hi lo v : Nat) : (s.setF o hi lo v).pending = s.pending := rfl

/-! ### `setB` -/

@[simp] theorem State.setB_live (s : State) (o i : Nat) (v : Bool) : (s.setB o i v).live = s.live := rfl
@[simp] theorem State.setB_pendSh (s : State) (o i : Nat) (v : Bool) : (s.setB o i v).pendSh = s.pendSh := rfl
@[simp] theorem State.setB_shStamp (s : State) (o i : Nat) (v : Bool) : (s.setB o i v).shStamp = s.shStamp := rfl
@[simp] theorem State.setB_bankP (s : State) (o i : Nat) (v : Bool) : (s.setB o i v).bankP = s.bankP := rfl
@[simp] theorem State.setB_bankI (s : State) (o i : Nat) (v : Bool) : (s.setB o i v).bankI = s.bankI := rfl
@[simp] theorem State.setB_rdP (s : State) (o i : Nat) (v : Bool) : (s.setB o i v).rdP = s.rdP := rfl
@[simp] theorem State.setB_rdI (s : State) (o i : Nat) (v : Bool) : (s.setB o i v).rdI = s.rdI := rfl
@[simp] theorem State.setB_fenceP (s : State) (o i : Nat) (v : Bool) : (s.setB o i v).fenceP = s.fenceP := rfl
@[simp] theorem State.setB_fenceI (s : State) (o i : Nat) (v : Bool) : (s.setB o i v).fenceI = s.fenceI := rfl
@[simp] theorem State.setB_heldP (s : State) (o i : Nat) (v : Bool) : (s.setB o i v).heldP = s.heldP := rfl
@[simp] theorem State.setB_heldI (s : State) (o i : Nat) (v : Bool) : (s.setB o i v).heldI = s.heldI := rfl
@[simp] theorem State.setB_chans (s : State) (o i : Nat) (v : Bool) : (s.setB o i v).chans = s.chans := rfl
@[simp] theorem State.setB_spn (s : State) (o i : Nat) (v : Bool) : (s.setB o i v).spn = s.spn := rfl
@[simp] theorem State.setB_monitors (s : State) (o i : Nat) (v : Bool) : (s.setB o i v).monitors = s.monitors := rfl
@[simp] theorem State.setB_tiuP (s : State) (o i : Nat) (v : Bool) : (s.setB o i v).tiuP = s.tiuP := rfl
@[simp] theorem State.setB_tiuL (s : State) (o i : Nat) (v : Bool) : (s.setB o i v).tiuL = s.tiuL := rfl
@[simp] theorem State.setB_syns (s : State) (o i : Nat) (v : Bool) : (s.setB o i v).syns = s.syns := rfl
@[simp] theorem State.setB_outs (s : State) (o i : Nat) (v : Bool) : (s.setB o i v).outs = s.outs := rfl
@[simp] theorem State.setB_lanes (s : State) (o i : Nat) (v : Bool) : (s.setB o i v).lanes = s.lanes := rfl
@[simp] theorem State.setB_pps (s : State) (o i : Nat) (v : Bool) : (s.setB o i v).pps = s.pps := rfl
@[simp] theorem State.setB_tod (s : State) (o i : Nat) (v : Bool) : (s.setB o i v).tod = s.tod := rfl
@[simp] theorem State.setB_ens (s : State) (o i : Nat) (v : Bool) : (s.setB o i v).ens = s.ens := rfl
@[simp] theorem State.setB_srcRes (s : State) (o i : Nat) (v : Bool) : (s.setB o i v).srcRes = s.srcRes := rfl
@[simp] theorem State.setB_tnd (s : State) (o i : Nat) (v : Bool) : (s.setB o i v).tnd = s.tnd := rfl
@[simp] theorem State.setB_gns (s : State) (o i : Nat) (v : Bool) : (s.setB o i v).gns = s.gns := rfl
@[simp] theorem State.setB_mac (s : State) (o i : Nat) (v : Bool) : (s.setB o i v).mac = s.mac := rfl
@[simp] theorem State.setB_pkt (s : State) (o i : Nat) (v : Bool) : (s.setB o i v).pkt = s.pkt := rfl
@[simp] theorem State.setB_cst (s : State) (o i : Nat) (v : Bool) : (s.setB o i v).cst = s.cst := rfl
@[simp] theorem State.setB_img (s : State) (o i : Nat) (v : Bool) : (s.setB o i v).img = s.img := rfl
@[simp] theorem State.setB_pwr (s : State) (o i : Nat) (v : Bool) : (s.setB o i v).pwr = s.pwr := rfl
@[simp] theorem State.setB_dma (s : State) (o i : Nat) (v : Bool) : (s.setB o i v).dma = s.dma := rfl
@[simp] theorem State.setB_prf (s : State) (o i : Nat) (v : Bool) : (s.setB o i v).prf = s.prf := rfl
@[simp] theorem State.setB_pcie (s : State) (o i : Nat) (v : Bool) : (s.setB o i v).pcie = s.pcie := rfl
@[simp] theorem State.setB_flt (s : State) (o i : Nat) (v : Bool) : (s.setB o i v).flt = s.flt := rfl
@[simp] theorem State.setB_trace (s : State) (o i : Nat) (v : Bool) : (s.setB o i v).trace = s.trace := rfl
@[simp] theorem State.setB_keys (s : State) (o i : Nat) (v : Bool) : (s.setB o i v).keys = s.keys := rfl
@[simp] theorem State.setB_faults (s : State) (o i : Nat) (v : Bool) : (s.setB o i v).faults = s.faults := rfl
@[simp] theorem State.setB_vecMask (s : State) (o i : Nat) (v : Bool) : (s.setB o i v).vecMask = s.vecMask := rfl
@[simp] theorem State.setB_pba (s : State) (o i : Nat) (v : Bool) : (s.setB o i v).pba = s.pba := rfl
@[simp] theorem State.setB_tally (s : State) (o i : Nat) (v : Bool) : (s.setB o i v).tally = s.tally := rfl
@[simp] theorem State.setB_mem (s : State) (o i : Nat) (v : Bool) : (s.setB o i v).mem = s.mem := rfl
@[simp] theorem State.setB_out (s : State) (o i : Nat) (v : Bool) : (s.setB o i v).out = s.out := rfl
@[simp] theorem State.setB_free (s : State) (o i : Nat) (v : Bool) : (s.setB o i v).free = s.free := rfl
@[simp] theorem State.setB_pending (s : State) (o i : Nat) (v : Bool) : (s.setB o i v).pending = s.pending := rfl

/-! ### `count` -/

@[simp] theorem State.count_live (s : State) (o hi lo n : Nat) : (s.count o hi lo n).live = s.live := rfl
@[simp] theorem State.count_pendSh (s : State) (o hi lo n : Nat) : (s.count o hi lo n).pendSh = s.pendSh := rfl
@[simp] theorem State.count_shStamp (s : State) (o hi lo n : Nat) : (s.count o hi lo n).shStamp = s.shStamp := rfl
@[simp] theorem State.count_bankP (s : State) (o hi lo n : Nat) : (s.count o hi lo n).bankP = s.bankP := rfl
@[simp] theorem State.count_bankI (s : State) (o hi lo n : Nat) : (s.count o hi lo n).bankI = s.bankI := rfl
@[simp] theorem State.count_rdP (s : State) (o hi lo n : Nat) : (s.count o hi lo n).rdP = s.rdP := rfl
@[simp] theorem State.count_rdI (s : State) (o hi lo n : Nat) : (s.count o hi lo n).rdI = s.rdI := rfl
@[simp] theorem State.count_fenceP (s : State) (o hi lo n : Nat) : (s.count o hi lo n).fenceP = s.fenceP := rfl
@[simp] theorem State.count_fenceI (s : State) (o hi lo n : Nat) : (s.count o hi lo n).fenceI = s.fenceI := rfl
@[simp] theorem State.count_heldP (s : State) (o hi lo n : Nat) : (s.count o hi lo n).heldP = s.heldP := rfl
@[simp] theorem State.count_heldI (s : State) (o hi lo n : Nat) : (s.count o hi lo n).heldI = s.heldI := rfl
@[simp] theorem State.count_chans (s : State) (o hi lo n : Nat) : (s.count o hi lo n).chans = s.chans := rfl
@[simp] theorem State.count_spn (s : State) (o hi lo n : Nat) : (s.count o hi lo n).spn = s.spn := rfl
@[simp] theorem State.count_monitors (s : State) (o hi lo n : Nat) : (s.count o hi lo n).monitors = s.monitors := rfl
@[simp] theorem State.count_tiuP (s : State) (o hi lo n : Nat) : (s.count o hi lo n).tiuP = s.tiuP := rfl
@[simp] theorem State.count_tiuL (s : State) (o hi lo n : Nat) : (s.count o hi lo n).tiuL = s.tiuL := rfl
@[simp] theorem State.count_syns (s : State) (o hi lo n : Nat) : (s.count o hi lo n).syns = s.syns := rfl
@[simp] theorem State.count_outs (s : State) (o hi lo n : Nat) : (s.count o hi lo n).outs = s.outs := rfl
@[simp] theorem State.count_lanes (s : State) (o hi lo n : Nat) : (s.count o hi lo n).lanes = s.lanes := rfl
@[simp] theorem State.count_pps (s : State) (o hi lo n : Nat) : (s.count o hi lo n).pps = s.pps := rfl
@[simp] theorem State.count_tod (s : State) (o hi lo n : Nat) : (s.count o hi lo n).tod = s.tod := rfl
@[simp] theorem State.count_ens (s : State) (o hi lo n : Nat) : (s.count o hi lo n).ens = s.ens := rfl
@[simp] theorem State.count_srcRes (s : State) (o hi lo n : Nat) : (s.count o hi lo n).srcRes = s.srcRes := rfl
@[simp] theorem State.count_tnd (s : State) (o hi lo n : Nat) : (s.count o hi lo n).tnd = s.tnd := rfl
@[simp] theorem State.count_gns (s : State) (o hi lo n : Nat) : (s.count o hi lo n).gns = s.gns := rfl
@[simp] theorem State.count_mac (s : State) (o hi lo n : Nat) : (s.count o hi lo n).mac = s.mac := rfl
@[simp] theorem State.count_pkt (s : State) (o hi lo n : Nat) : (s.count o hi lo n).pkt = s.pkt := rfl
@[simp] theorem State.count_cst (s : State) (o hi lo n : Nat) : (s.count o hi lo n).cst = s.cst := rfl
@[simp] theorem State.count_img (s : State) (o hi lo n : Nat) : (s.count o hi lo n).img = s.img := rfl
@[simp] theorem State.count_pwr (s : State) (o hi lo n : Nat) : (s.count o hi lo n).pwr = s.pwr := rfl
@[simp] theorem State.count_dma (s : State) (o hi lo n : Nat) : (s.count o hi lo n).dma = s.dma := rfl
@[simp] theorem State.count_prf (s : State) (o hi lo n : Nat) : (s.count o hi lo n).prf = s.prf := rfl
@[simp] theorem State.count_pcie (s : State) (o hi lo n : Nat) : (s.count o hi lo n).pcie = s.pcie := rfl
@[simp] theorem State.count_flt (s : State) (o hi lo n : Nat) : (s.count o hi lo n).flt = s.flt := rfl
@[simp] theorem State.count_trace (s : State) (o hi lo n : Nat) : (s.count o hi lo n).trace = s.trace := rfl
@[simp] theorem State.count_keys (s : State) (o hi lo n : Nat) : (s.count o hi lo n).keys = s.keys := rfl
@[simp] theorem State.count_faults (s : State) (o hi lo n : Nat) : (s.count o hi lo n).faults = s.faults := rfl
@[simp] theorem State.count_vecMask (s : State) (o hi lo n : Nat) : (s.count o hi lo n).vecMask = s.vecMask := rfl
@[simp] theorem State.count_pba (s : State) (o hi lo n : Nat) : (s.count o hi lo n).pba = s.pba := rfl
@[simp] theorem State.count_tally (s : State) (o hi lo n : Nat) : (s.count o hi lo n).tally = s.tally := rfl
@[simp] theorem State.count_mem (s : State) (o hi lo n : Nat) : (s.count o hi lo n).mem = s.mem := rfl
@[simp] theorem State.count_out (s : State) (o hi lo n : Nat) : (s.count o hi lo n).out = s.out := rfl
@[simp] theorem State.count_free (s : State) (o hi lo n : Nat) : (s.count o hi lo n).free = s.free := rfl
@[simp] theorem State.count_pending (s : State) (o hi lo n : Nat) : (s.count o hi lo n).pending = s.pending := rfl

/-! ### `countSat` -/

@[simp] theorem State.countSat_live (s : State) (o hi lo n : Nat) : (s.countSat o hi lo n).live = s.live := rfl
@[simp] theorem State.countSat_pendSh (s : State) (o hi lo n : Nat) : (s.countSat o hi lo n).pendSh = s.pendSh := rfl
@[simp] theorem State.countSat_shStamp (s : State) (o hi lo n : Nat) : (s.countSat o hi lo n).shStamp = s.shStamp := rfl
@[simp] theorem State.countSat_bankP (s : State) (o hi lo n : Nat) : (s.countSat o hi lo n).bankP = s.bankP := rfl
@[simp] theorem State.countSat_bankI (s : State) (o hi lo n : Nat) : (s.countSat o hi lo n).bankI = s.bankI := rfl
@[simp] theorem State.countSat_rdP (s : State) (o hi lo n : Nat) : (s.countSat o hi lo n).rdP = s.rdP := rfl
@[simp] theorem State.countSat_rdI (s : State) (o hi lo n : Nat) : (s.countSat o hi lo n).rdI = s.rdI := rfl
@[simp] theorem State.countSat_fenceP (s : State) (o hi lo n : Nat) : (s.countSat o hi lo n).fenceP = s.fenceP := rfl
@[simp] theorem State.countSat_fenceI (s : State) (o hi lo n : Nat) : (s.countSat o hi lo n).fenceI = s.fenceI := rfl
@[simp] theorem State.countSat_heldP (s : State) (o hi lo n : Nat) : (s.countSat o hi lo n).heldP = s.heldP := rfl
@[simp] theorem State.countSat_heldI (s : State) (o hi lo n : Nat) : (s.countSat o hi lo n).heldI = s.heldI := rfl
@[simp] theorem State.countSat_chans (s : State) (o hi lo n : Nat) : (s.countSat o hi lo n).chans = s.chans := rfl
@[simp] theorem State.countSat_spn (s : State) (o hi lo n : Nat) : (s.countSat o hi lo n).spn = s.spn := rfl
@[simp] theorem State.countSat_monitors (s : State) (o hi lo n : Nat) : (s.countSat o hi lo n).monitors = s.monitors := rfl
@[simp] theorem State.countSat_tiuP (s : State) (o hi lo n : Nat) : (s.countSat o hi lo n).tiuP = s.tiuP := rfl
@[simp] theorem State.countSat_tiuL (s : State) (o hi lo n : Nat) : (s.countSat o hi lo n).tiuL = s.tiuL := rfl
@[simp] theorem State.countSat_syns (s : State) (o hi lo n : Nat) : (s.countSat o hi lo n).syns = s.syns := rfl
@[simp] theorem State.countSat_outs (s : State) (o hi lo n : Nat) : (s.countSat o hi lo n).outs = s.outs := rfl
@[simp] theorem State.countSat_lanes (s : State) (o hi lo n : Nat) : (s.countSat o hi lo n).lanes = s.lanes := rfl
@[simp] theorem State.countSat_pps (s : State) (o hi lo n : Nat) : (s.countSat o hi lo n).pps = s.pps := rfl
@[simp] theorem State.countSat_tod (s : State) (o hi lo n : Nat) : (s.countSat o hi lo n).tod = s.tod := rfl
@[simp] theorem State.countSat_ens (s : State) (o hi lo n : Nat) : (s.countSat o hi lo n).ens = s.ens := rfl
@[simp] theorem State.countSat_srcRes (s : State) (o hi lo n : Nat) : (s.countSat o hi lo n).srcRes = s.srcRes := rfl
@[simp] theorem State.countSat_tnd (s : State) (o hi lo n : Nat) : (s.countSat o hi lo n).tnd = s.tnd := rfl
@[simp] theorem State.countSat_gns (s : State) (o hi lo n : Nat) : (s.countSat o hi lo n).gns = s.gns := rfl
@[simp] theorem State.countSat_mac (s : State) (o hi lo n : Nat) : (s.countSat o hi lo n).mac = s.mac := rfl
@[simp] theorem State.countSat_pkt (s : State) (o hi lo n : Nat) : (s.countSat o hi lo n).pkt = s.pkt := rfl
@[simp] theorem State.countSat_cst (s : State) (o hi lo n : Nat) : (s.countSat o hi lo n).cst = s.cst := rfl
@[simp] theorem State.countSat_img (s : State) (o hi lo n : Nat) : (s.countSat o hi lo n).img = s.img := rfl
@[simp] theorem State.countSat_pwr (s : State) (o hi lo n : Nat) : (s.countSat o hi lo n).pwr = s.pwr := rfl
@[simp] theorem State.countSat_dma (s : State) (o hi lo n : Nat) : (s.countSat o hi lo n).dma = s.dma := rfl
@[simp] theorem State.countSat_prf (s : State) (o hi lo n : Nat) : (s.countSat o hi lo n).prf = s.prf := rfl
@[simp] theorem State.countSat_pcie (s : State) (o hi lo n : Nat) : (s.countSat o hi lo n).pcie = s.pcie := rfl
@[simp] theorem State.countSat_flt (s : State) (o hi lo n : Nat) : (s.countSat o hi lo n).flt = s.flt := rfl
@[simp] theorem State.countSat_trace (s : State) (o hi lo n : Nat) : (s.countSat o hi lo n).trace = s.trace := rfl
@[simp] theorem State.countSat_keys (s : State) (o hi lo n : Nat) : (s.countSat o hi lo n).keys = s.keys := rfl
@[simp] theorem State.countSat_faults (s : State) (o hi lo n : Nat) : (s.countSat o hi lo n).faults = s.faults := rfl
@[simp] theorem State.countSat_vecMask (s : State) (o hi lo n : Nat) : (s.countSat o hi lo n).vecMask = s.vecMask := rfl
@[simp] theorem State.countSat_pba (s : State) (o hi lo n : Nat) : (s.countSat o hi lo n).pba = s.pba := rfl
@[simp] theorem State.countSat_tally (s : State) (o hi lo n : Nat) : (s.countSat o hi lo n).tally = s.tally := rfl
@[simp] theorem State.countSat_mem (s : State) (o hi lo n : Nat) : (s.countSat o hi lo n).mem = s.mem := rfl
@[simp] theorem State.countSat_out (s : State) (o hi lo n : Nat) : (s.countSat o hi lo n).out = s.out := rfl
@[simp] theorem State.countSat_free (s : State) (o hi lo n : Nat) : (s.countSat o hi lo n).free = s.free := rfl
@[simp] theorem State.countSat_pending (s : State) (o hi lo n : Nat) : (s.countSat o hi lo n).pending = s.pending := rfl

/-! ### `wr64` -/

@[simp] theorem State.wr64_live (s : State) (o v : Nat) : (s.wr64 o v).live = s.live := rfl
@[simp] theorem State.wr64_pendSh (s : State) (o v : Nat) : (s.wr64 o v).pendSh = s.pendSh := rfl
@[simp] theorem State.wr64_shStamp (s : State) (o v : Nat) : (s.wr64 o v).shStamp = s.shStamp := rfl
@[simp] theorem State.wr64_bankP (s : State) (o v : Nat) : (s.wr64 o v).bankP = s.bankP := rfl
@[simp] theorem State.wr64_bankI (s : State) (o v : Nat) : (s.wr64 o v).bankI = s.bankI := rfl
@[simp] theorem State.wr64_rdP (s : State) (o v : Nat) : (s.wr64 o v).rdP = s.rdP := rfl
@[simp] theorem State.wr64_rdI (s : State) (o v : Nat) : (s.wr64 o v).rdI = s.rdI := rfl
@[simp] theorem State.wr64_fenceP (s : State) (o v : Nat) : (s.wr64 o v).fenceP = s.fenceP := rfl
@[simp] theorem State.wr64_fenceI (s : State) (o v : Nat) : (s.wr64 o v).fenceI = s.fenceI := rfl
@[simp] theorem State.wr64_heldP (s : State) (o v : Nat) : (s.wr64 o v).heldP = s.heldP := rfl
@[simp] theorem State.wr64_heldI (s : State) (o v : Nat) : (s.wr64 o v).heldI = s.heldI := rfl
@[simp] theorem State.wr64_chans (s : State) (o v : Nat) : (s.wr64 o v).chans = s.chans := rfl
@[simp] theorem State.wr64_spn (s : State) (o v : Nat) : (s.wr64 o v).spn = s.spn := rfl
@[simp] theorem State.wr64_monitors (s : State) (o v : Nat) : (s.wr64 o v).monitors = s.monitors := rfl
@[simp] theorem State.wr64_tiuP (s : State) (o v : Nat) : (s.wr64 o v).tiuP = s.tiuP := rfl
@[simp] theorem State.wr64_tiuL (s : State) (o v : Nat) : (s.wr64 o v).tiuL = s.tiuL := rfl
@[simp] theorem State.wr64_syns (s : State) (o v : Nat) : (s.wr64 o v).syns = s.syns := rfl
@[simp] theorem State.wr64_outs (s : State) (o v : Nat) : (s.wr64 o v).outs = s.outs := rfl
@[simp] theorem State.wr64_lanes (s : State) (o v : Nat) : (s.wr64 o v).lanes = s.lanes := rfl
@[simp] theorem State.wr64_pps (s : State) (o v : Nat) : (s.wr64 o v).pps = s.pps := rfl
@[simp] theorem State.wr64_tod (s : State) (o v : Nat) : (s.wr64 o v).tod = s.tod := rfl
@[simp] theorem State.wr64_ens (s : State) (o v : Nat) : (s.wr64 o v).ens = s.ens := rfl
@[simp] theorem State.wr64_srcRes (s : State) (o v : Nat) : (s.wr64 o v).srcRes = s.srcRes := rfl
@[simp] theorem State.wr64_tnd (s : State) (o v : Nat) : (s.wr64 o v).tnd = s.tnd := rfl
@[simp] theorem State.wr64_gns (s : State) (o v : Nat) : (s.wr64 o v).gns = s.gns := rfl
@[simp] theorem State.wr64_mac (s : State) (o v : Nat) : (s.wr64 o v).mac = s.mac := rfl
@[simp] theorem State.wr64_pkt (s : State) (o v : Nat) : (s.wr64 o v).pkt = s.pkt := rfl
@[simp] theorem State.wr64_cst (s : State) (o v : Nat) : (s.wr64 o v).cst = s.cst := rfl
@[simp] theorem State.wr64_img (s : State) (o v : Nat) : (s.wr64 o v).img = s.img := rfl
@[simp] theorem State.wr64_pwr (s : State) (o v : Nat) : (s.wr64 o v).pwr = s.pwr := rfl
@[simp] theorem State.wr64_dma (s : State) (o v : Nat) : (s.wr64 o v).dma = s.dma := rfl
@[simp] theorem State.wr64_prf (s : State) (o v : Nat) : (s.wr64 o v).prf = s.prf := rfl
@[simp] theorem State.wr64_pcie (s : State) (o v : Nat) : (s.wr64 o v).pcie = s.pcie := rfl
@[simp] theorem State.wr64_flt (s : State) (o v : Nat) : (s.wr64 o v).flt = s.flt := rfl
@[simp] theorem State.wr64_trace (s : State) (o v : Nat) : (s.wr64 o v).trace = s.trace := rfl
@[simp] theorem State.wr64_keys (s : State) (o v : Nat) : (s.wr64 o v).keys = s.keys := rfl
@[simp] theorem State.wr64_faults (s : State) (o v : Nat) : (s.wr64 o v).faults = s.faults := rfl
@[simp] theorem State.wr64_vecMask (s : State) (o v : Nat) : (s.wr64 o v).vecMask = s.vecMask := rfl
@[simp] theorem State.wr64_pba (s : State) (o v : Nat) : (s.wr64 o v).pba = s.pba := rfl
@[simp] theorem State.wr64_tally (s : State) (o v : Nat) : (s.wr64 o v).tally = s.tally := rfl
@[simp] theorem State.wr64_mem (s : State) (o v : Nat) : (s.wr64 o v).mem = s.mem := rfl
@[simp] theorem State.wr64_out (s : State) (o v : Nat) : (s.wr64 o v).out = s.out := rfl
@[simp] theorem State.wr64_free (s : State) (o v : Nat) : (s.wr64 o v).free = s.free := rfl
@[simp] theorem State.wr64_pending (s : State) (o v : Nat) : (s.wr64 o v).pending = s.pending := rfl

/-! ### `wrN` -/

@[simp] theorem State.wrN_live (s : State) (o v : Nat) : (s.wrN o v).live = s.live := rfl
@[simp] theorem State.wrN_pendSh (s : State) (o v : Nat) : (s.wrN o v).pendSh = s.pendSh := rfl
@[simp] theorem State.wrN_shStamp (s : State) (o v : Nat) : (s.wrN o v).shStamp = s.shStamp := rfl
@[simp] theorem State.wrN_bankP (s : State) (o v : Nat) : (s.wrN o v).bankP = s.bankP := rfl
@[simp] theorem State.wrN_bankI (s : State) (o v : Nat) : (s.wrN o v).bankI = s.bankI := rfl
@[simp] theorem State.wrN_rdP (s : State) (o v : Nat) : (s.wrN o v).rdP = s.rdP := rfl
@[simp] theorem State.wrN_rdI (s : State) (o v : Nat) : (s.wrN o v).rdI = s.rdI := rfl
@[simp] theorem State.wrN_fenceP (s : State) (o v : Nat) : (s.wrN o v).fenceP = s.fenceP := rfl
@[simp] theorem State.wrN_fenceI (s : State) (o v : Nat) : (s.wrN o v).fenceI = s.fenceI := rfl
@[simp] theorem State.wrN_heldP (s : State) (o v : Nat) : (s.wrN o v).heldP = s.heldP := rfl
@[simp] theorem State.wrN_heldI (s : State) (o v : Nat) : (s.wrN o v).heldI = s.heldI := rfl
@[simp] theorem State.wrN_chans (s : State) (o v : Nat) : (s.wrN o v).chans = s.chans := rfl
@[simp] theorem State.wrN_spn (s : State) (o v : Nat) : (s.wrN o v).spn = s.spn := rfl
@[simp] theorem State.wrN_monitors (s : State) (o v : Nat) : (s.wrN o v).monitors = s.monitors := rfl
@[simp] theorem State.wrN_tiuP (s : State) (o v : Nat) : (s.wrN o v).tiuP = s.tiuP := rfl
@[simp] theorem State.wrN_tiuL (s : State) (o v : Nat) : (s.wrN o v).tiuL = s.tiuL := rfl
@[simp] theorem State.wrN_syns (s : State) (o v : Nat) : (s.wrN o v).syns = s.syns := rfl
@[simp] theorem State.wrN_outs (s : State) (o v : Nat) : (s.wrN o v).outs = s.outs := rfl
@[simp] theorem State.wrN_lanes (s : State) (o v : Nat) : (s.wrN o v).lanes = s.lanes := rfl
@[simp] theorem State.wrN_pps (s : State) (o v : Nat) : (s.wrN o v).pps = s.pps := rfl
@[simp] theorem State.wrN_tod (s : State) (o v : Nat) : (s.wrN o v).tod = s.tod := rfl
@[simp] theorem State.wrN_ens (s : State) (o v : Nat) : (s.wrN o v).ens = s.ens := rfl
@[simp] theorem State.wrN_srcRes (s : State) (o v : Nat) : (s.wrN o v).srcRes = s.srcRes := rfl
@[simp] theorem State.wrN_tnd (s : State) (o v : Nat) : (s.wrN o v).tnd = s.tnd := rfl
@[simp] theorem State.wrN_gns (s : State) (o v : Nat) : (s.wrN o v).gns = s.gns := rfl
@[simp] theorem State.wrN_mac (s : State) (o v : Nat) : (s.wrN o v).mac = s.mac := rfl
@[simp] theorem State.wrN_pkt (s : State) (o v : Nat) : (s.wrN o v).pkt = s.pkt := rfl
@[simp] theorem State.wrN_cst (s : State) (o v : Nat) : (s.wrN o v).cst = s.cst := rfl
@[simp] theorem State.wrN_img (s : State) (o v : Nat) : (s.wrN o v).img = s.img := rfl
@[simp] theorem State.wrN_pwr (s : State) (o v : Nat) : (s.wrN o v).pwr = s.pwr := rfl
@[simp] theorem State.wrN_dma (s : State) (o v : Nat) : (s.wrN o v).dma = s.dma := rfl
@[simp] theorem State.wrN_prf (s : State) (o v : Nat) : (s.wrN o v).prf = s.prf := rfl
@[simp] theorem State.wrN_pcie (s : State) (o v : Nat) : (s.wrN o v).pcie = s.pcie := rfl
@[simp] theorem State.wrN_flt (s : State) (o v : Nat) : (s.wrN o v).flt = s.flt := rfl
@[simp] theorem State.wrN_trace (s : State) (o v : Nat) : (s.wrN o v).trace = s.trace := rfl
@[simp] theorem State.wrN_keys (s : State) (o v : Nat) : (s.wrN o v).keys = s.keys := rfl
@[simp] theorem State.wrN_faults (s : State) (o v : Nat) : (s.wrN o v).faults = s.faults := rfl
@[simp] theorem State.wrN_vecMask (s : State) (o v : Nat) : (s.wrN o v).vecMask = s.vecMask := rfl
@[simp] theorem State.wrN_pba (s : State) (o v : Nat) : (s.wrN o v).pba = s.pba := rfl
@[simp] theorem State.wrN_tally (s : State) (o v : Nat) : (s.wrN o v).tally = s.tally := rfl
@[simp] theorem State.wrN_mem (s : State) (o v : Nat) : (s.wrN o v).mem = s.mem := rfl
@[simp] theorem State.wrN_out (s : State) (o v : Nat) : (s.wrN o v).out = s.out := rfl
@[simp] theorem State.wrN_free (s : State) (o v : Nat) : (s.wrN o v).free = s.free := rfl
@[simp] theorem State.wrN_pending (s : State) (o v : Nat) : (s.wrN o v).pending = s.pending := rfl

/-! ### `wrS64` -/

@[simp] theorem State.wrS64_live (s : State) (o : Nat) (v : Int) : (s.wrS64 o v).live = s.live := rfl
@[simp] theorem State.wrS64_pendSh (s : State) (o : Nat) (v : Int) : (s.wrS64 o v).pendSh = s.pendSh := rfl
@[simp] theorem State.wrS64_shStamp (s : State) (o : Nat) (v : Int) : (s.wrS64 o v).shStamp = s.shStamp := rfl
@[simp] theorem State.wrS64_bankP (s : State) (o : Nat) (v : Int) : (s.wrS64 o v).bankP = s.bankP := rfl
@[simp] theorem State.wrS64_bankI (s : State) (o : Nat) (v : Int) : (s.wrS64 o v).bankI = s.bankI := rfl
@[simp] theorem State.wrS64_rdP (s : State) (o : Nat) (v : Int) : (s.wrS64 o v).rdP = s.rdP := rfl
@[simp] theorem State.wrS64_rdI (s : State) (o : Nat) (v : Int) : (s.wrS64 o v).rdI = s.rdI := rfl
@[simp] theorem State.wrS64_fenceP (s : State) (o : Nat) (v : Int) : (s.wrS64 o v).fenceP = s.fenceP := rfl
@[simp] theorem State.wrS64_fenceI (s : State) (o : Nat) (v : Int) : (s.wrS64 o v).fenceI = s.fenceI := rfl
@[simp] theorem State.wrS64_heldP (s : State) (o : Nat) (v : Int) : (s.wrS64 o v).heldP = s.heldP := rfl
@[simp] theorem State.wrS64_heldI (s : State) (o : Nat) (v : Int) : (s.wrS64 o v).heldI = s.heldI := rfl
@[simp] theorem State.wrS64_chans (s : State) (o : Nat) (v : Int) : (s.wrS64 o v).chans = s.chans := rfl
@[simp] theorem State.wrS64_spn (s : State) (o : Nat) (v : Int) : (s.wrS64 o v).spn = s.spn := rfl
@[simp] theorem State.wrS64_monitors (s : State) (o : Nat) (v : Int) : (s.wrS64 o v).monitors = s.monitors := rfl
@[simp] theorem State.wrS64_tiuP (s : State) (o : Nat) (v : Int) : (s.wrS64 o v).tiuP = s.tiuP := rfl
@[simp] theorem State.wrS64_tiuL (s : State) (o : Nat) (v : Int) : (s.wrS64 o v).tiuL = s.tiuL := rfl
@[simp] theorem State.wrS64_syns (s : State) (o : Nat) (v : Int) : (s.wrS64 o v).syns = s.syns := rfl
@[simp] theorem State.wrS64_outs (s : State) (o : Nat) (v : Int) : (s.wrS64 o v).outs = s.outs := rfl
@[simp] theorem State.wrS64_lanes (s : State) (o : Nat) (v : Int) : (s.wrS64 o v).lanes = s.lanes := rfl
@[simp] theorem State.wrS64_pps (s : State) (o : Nat) (v : Int) : (s.wrS64 o v).pps = s.pps := rfl
@[simp] theorem State.wrS64_tod (s : State) (o : Nat) (v : Int) : (s.wrS64 o v).tod = s.tod := rfl
@[simp] theorem State.wrS64_ens (s : State) (o : Nat) (v : Int) : (s.wrS64 o v).ens = s.ens := rfl
@[simp] theorem State.wrS64_srcRes (s : State) (o : Nat) (v : Int) : (s.wrS64 o v).srcRes = s.srcRes := rfl
@[simp] theorem State.wrS64_tnd (s : State) (o : Nat) (v : Int) : (s.wrS64 o v).tnd = s.tnd := rfl
@[simp] theorem State.wrS64_gns (s : State) (o : Nat) (v : Int) : (s.wrS64 o v).gns = s.gns := rfl
@[simp] theorem State.wrS64_mac (s : State) (o : Nat) (v : Int) : (s.wrS64 o v).mac = s.mac := rfl
@[simp] theorem State.wrS64_pkt (s : State) (o : Nat) (v : Int) : (s.wrS64 o v).pkt = s.pkt := rfl
@[simp] theorem State.wrS64_cst (s : State) (o : Nat) (v : Int) : (s.wrS64 o v).cst = s.cst := rfl
@[simp] theorem State.wrS64_img (s : State) (o : Nat) (v : Int) : (s.wrS64 o v).img = s.img := rfl
@[simp] theorem State.wrS64_pwr (s : State) (o : Nat) (v : Int) : (s.wrS64 o v).pwr = s.pwr := rfl
@[simp] theorem State.wrS64_dma (s : State) (o : Nat) (v : Int) : (s.wrS64 o v).dma = s.dma := rfl
@[simp] theorem State.wrS64_prf (s : State) (o : Nat) (v : Int) : (s.wrS64 o v).prf = s.prf := rfl
@[simp] theorem State.wrS64_pcie (s : State) (o : Nat) (v : Int) : (s.wrS64 o v).pcie = s.pcie := rfl
@[simp] theorem State.wrS64_flt (s : State) (o : Nat) (v : Int) : (s.wrS64 o v).flt = s.flt := rfl
@[simp] theorem State.wrS64_trace (s : State) (o : Nat) (v : Int) : (s.wrS64 o v).trace = s.trace := rfl
@[simp] theorem State.wrS64_keys (s : State) (o : Nat) (v : Int) : (s.wrS64 o v).keys = s.keys := rfl
@[simp] theorem State.wrS64_faults (s : State) (o : Nat) (v : Int) : (s.wrS64 o v).faults = s.faults := rfl
@[simp] theorem State.wrS64_vecMask (s : State) (o : Nat) (v : Int) : (s.wrS64 o v).vecMask = s.vecMask := rfl
@[simp] theorem State.wrS64_pba (s : State) (o : Nat) (v : Int) : (s.wrS64 o v).pba = s.pba := rfl
@[simp] theorem State.wrS64_tally (s : State) (o : Nat) (v : Int) : (s.wrS64 o v).tally = s.tally := rfl
@[simp] theorem State.wrS64_mem (s : State) (o : Nat) (v : Int) : (s.wrS64 o v).mem = s.mem := rfl
@[simp] theorem State.wrS64_out (s : State) (o : Nat) (v : Int) : (s.wrS64 o v).out = s.out := rfl
@[simp] theorem State.wrS64_free (s : State) (o : Nat) (v : Int) : (s.wrS64 o v).free = s.free := rfl
@[simp] theorem State.wrS64_pending (s : State) (o : Nat) (v : Int) : (s.wrS64 o v).pending = s.pending := rfl

/-! ### `wrS48` -/

@[simp] theorem State.wrS48_live (s : State) (o : Nat) (v : Int) : (s.wrS48 o v).live = s.live := rfl
@[simp] theorem State.wrS48_pendSh (s : State) (o : Nat) (v : Int) : (s.wrS48 o v).pendSh = s.pendSh := rfl
@[simp] theorem State.wrS48_shStamp (s : State) (o : Nat) (v : Int) : (s.wrS48 o v).shStamp = s.shStamp := rfl
@[simp] theorem State.wrS48_bankP (s : State) (o : Nat) (v : Int) : (s.wrS48 o v).bankP = s.bankP := rfl
@[simp] theorem State.wrS48_bankI (s : State) (o : Nat) (v : Int) : (s.wrS48 o v).bankI = s.bankI := rfl
@[simp] theorem State.wrS48_rdP (s : State) (o : Nat) (v : Int) : (s.wrS48 o v).rdP = s.rdP := rfl
@[simp] theorem State.wrS48_rdI (s : State) (o : Nat) (v : Int) : (s.wrS48 o v).rdI = s.rdI := rfl
@[simp] theorem State.wrS48_fenceP (s : State) (o : Nat) (v : Int) : (s.wrS48 o v).fenceP = s.fenceP := rfl
@[simp] theorem State.wrS48_fenceI (s : State) (o : Nat) (v : Int) : (s.wrS48 o v).fenceI = s.fenceI := rfl
@[simp] theorem State.wrS48_heldP (s : State) (o : Nat) (v : Int) : (s.wrS48 o v).heldP = s.heldP := rfl
@[simp] theorem State.wrS48_heldI (s : State) (o : Nat) (v : Int) : (s.wrS48 o v).heldI = s.heldI := rfl
@[simp] theorem State.wrS48_chans (s : State) (o : Nat) (v : Int) : (s.wrS48 o v).chans = s.chans := rfl
@[simp] theorem State.wrS48_spn (s : State) (o : Nat) (v : Int) : (s.wrS48 o v).spn = s.spn := rfl
@[simp] theorem State.wrS48_monitors (s : State) (o : Nat) (v : Int) : (s.wrS48 o v).monitors = s.monitors := rfl
@[simp] theorem State.wrS48_tiuP (s : State) (o : Nat) (v : Int) : (s.wrS48 o v).tiuP = s.tiuP := rfl
@[simp] theorem State.wrS48_tiuL (s : State) (o : Nat) (v : Int) : (s.wrS48 o v).tiuL = s.tiuL := rfl
@[simp] theorem State.wrS48_syns (s : State) (o : Nat) (v : Int) : (s.wrS48 o v).syns = s.syns := rfl
@[simp] theorem State.wrS48_outs (s : State) (o : Nat) (v : Int) : (s.wrS48 o v).outs = s.outs := rfl
@[simp] theorem State.wrS48_lanes (s : State) (o : Nat) (v : Int) : (s.wrS48 o v).lanes = s.lanes := rfl
@[simp] theorem State.wrS48_pps (s : State) (o : Nat) (v : Int) : (s.wrS48 o v).pps = s.pps := rfl
@[simp] theorem State.wrS48_tod (s : State) (o : Nat) (v : Int) : (s.wrS48 o v).tod = s.tod := rfl
@[simp] theorem State.wrS48_ens (s : State) (o : Nat) (v : Int) : (s.wrS48 o v).ens = s.ens := rfl
@[simp] theorem State.wrS48_srcRes (s : State) (o : Nat) (v : Int) : (s.wrS48 o v).srcRes = s.srcRes := rfl
@[simp] theorem State.wrS48_tnd (s : State) (o : Nat) (v : Int) : (s.wrS48 o v).tnd = s.tnd := rfl
@[simp] theorem State.wrS48_gns (s : State) (o : Nat) (v : Int) : (s.wrS48 o v).gns = s.gns := rfl
@[simp] theorem State.wrS48_mac (s : State) (o : Nat) (v : Int) : (s.wrS48 o v).mac = s.mac := rfl
@[simp] theorem State.wrS48_pkt (s : State) (o : Nat) (v : Int) : (s.wrS48 o v).pkt = s.pkt := rfl
@[simp] theorem State.wrS48_cst (s : State) (o : Nat) (v : Int) : (s.wrS48 o v).cst = s.cst := rfl
@[simp] theorem State.wrS48_img (s : State) (o : Nat) (v : Int) : (s.wrS48 o v).img = s.img := rfl
@[simp] theorem State.wrS48_pwr (s : State) (o : Nat) (v : Int) : (s.wrS48 o v).pwr = s.pwr := rfl
@[simp] theorem State.wrS48_dma (s : State) (o : Nat) (v : Int) : (s.wrS48 o v).dma = s.dma := rfl
@[simp] theorem State.wrS48_prf (s : State) (o : Nat) (v : Int) : (s.wrS48 o v).prf = s.prf := rfl
@[simp] theorem State.wrS48_pcie (s : State) (o : Nat) (v : Int) : (s.wrS48 o v).pcie = s.pcie := rfl
@[simp] theorem State.wrS48_flt (s : State) (o : Nat) (v : Int) : (s.wrS48 o v).flt = s.flt := rfl
@[simp] theorem State.wrS48_trace (s : State) (o : Nat) (v : Int) : (s.wrS48 o v).trace = s.trace := rfl
@[simp] theorem State.wrS48_keys (s : State) (o : Nat) (v : Int) : (s.wrS48 o v).keys = s.keys := rfl
@[simp] theorem State.wrS48_faults (s : State) (o : Nat) (v : Int) : (s.wrS48 o v).faults = s.faults := rfl
@[simp] theorem State.wrS48_vecMask (s : State) (o : Nat) (v : Int) : (s.wrS48 o v).vecMask = s.vecMask := rfl
@[simp] theorem State.wrS48_pba (s : State) (o : Nat) (v : Int) : (s.wrS48 o v).pba = s.pba := rfl
@[simp] theorem State.wrS48_tally (s : State) (o : Nat) (v : Int) : (s.wrS48 o v).tally = s.tally := rfl
@[simp] theorem State.wrS48_mem (s : State) (o : Nat) (v : Int) : (s.wrS48 o v).mem = s.mem := rfl
@[simp] theorem State.wrS48_out (s : State) (o : Nat) (v : Int) : (s.wrS48 o v).out = s.out := rfl
@[simp] theorem State.wrS48_free (s : State) (o : Nat) (v : Int) : (s.wrS48 o v).free = s.free := rfl
@[simp] theorem State.wrS48_pending (s : State) (o : Nat) (v : Int) : (s.wrS48 o v).pending = s.pending := rfl

/-! ### `rwStore` -/

@[simp] theorem State.rwStore_live (s : State) (a : Nat) (v : Word) : (s.rwStore a v).live = s.live := rfl
@[simp] theorem State.rwStore_pendSh (s : State) (a : Nat) (v : Word) : (s.rwStore a v).pendSh = s.pendSh := rfl
@[simp] theorem State.rwStore_shStamp (s : State) (a : Nat) (v : Word) : (s.rwStore a v).shStamp = s.shStamp := rfl
@[simp] theorem State.rwStore_bankP (s : State) (a : Nat) (v : Word) : (s.rwStore a v).bankP = s.bankP := rfl
@[simp] theorem State.rwStore_bankI (s : State) (a : Nat) (v : Word) : (s.rwStore a v).bankI = s.bankI := rfl
@[simp] theorem State.rwStore_rdP (s : State) (a : Nat) (v : Word) : (s.rwStore a v).rdP = s.rdP := rfl
@[simp] theorem State.rwStore_rdI (s : State) (a : Nat) (v : Word) : (s.rwStore a v).rdI = s.rdI := rfl
@[simp] theorem State.rwStore_fenceP (s : State) (a : Nat) (v : Word) : (s.rwStore a v).fenceP = s.fenceP := rfl
@[simp] theorem State.rwStore_fenceI (s : State) (a : Nat) (v : Word) : (s.rwStore a v).fenceI = s.fenceI := rfl
@[simp] theorem State.rwStore_heldP (s : State) (a : Nat) (v : Word) : (s.rwStore a v).heldP = s.heldP := rfl
@[simp] theorem State.rwStore_heldI (s : State) (a : Nat) (v : Word) : (s.rwStore a v).heldI = s.heldI := rfl
@[simp] theorem State.rwStore_chans (s : State) (a : Nat) (v : Word) : (s.rwStore a v).chans = s.chans := rfl
@[simp] theorem State.rwStore_spn (s : State) (a : Nat) (v : Word) : (s.rwStore a v).spn = s.spn := rfl
@[simp] theorem State.rwStore_monitors (s : State) (a : Nat) (v : Word) : (s.rwStore a v).monitors = s.monitors := rfl
@[simp] theorem State.rwStore_tiuP (s : State) (a : Nat) (v : Word) : (s.rwStore a v).tiuP = s.tiuP := rfl
@[simp] theorem State.rwStore_tiuL (s : State) (a : Nat) (v : Word) : (s.rwStore a v).tiuL = s.tiuL := rfl
@[simp] theorem State.rwStore_syns (s : State) (a : Nat) (v : Word) : (s.rwStore a v).syns = s.syns := rfl
@[simp] theorem State.rwStore_outs (s : State) (a : Nat) (v : Word) : (s.rwStore a v).outs = s.outs := rfl
@[simp] theorem State.rwStore_lanes (s : State) (a : Nat) (v : Word) : (s.rwStore a v).lanes = s.lanes := rfl
@[simp] theorem State.rwStore_pps (s : State) (a : Nat) (v : Word) : (s.rwStore a v).pps = s.pps := rfl
@[simp] theorem State.rwStore_tod (s : State) (a : Nat) (v : Word) : (s.rwStore a v).tod = s.tod := rfl
@[simp] theorem State.rwStore_ens (s : State) (a : Nat) (v : Word) : (s.rwStore a v).ens = s.ens := rfl
@[simp] theorem State.rwStore_srcRes (s : State) (a : Nat) (v : Word) : (s.rwStore a v).srcRes = s.srcRes := rfl
@[simp] theorem State.rwStore_tnd (s : State) (a : Nat) (v : Word) : (s.rwStore a v).tnd = s.tnd := rfl
@[simp] theorem State.rwStore_gns (s : State) (a : Nat) (v : Word) : (s.rwStore a v).gns = s.gns := rfl
@[simp] theorem State.rwStore_mac (s : State) (a : Nat) (v : Word) : (s.rwStore a v).mac = s.mac := rfl
@[simp] theorem State.rwStore_pkt (s : State) (a : Nat) (v : Word) : (s.rwStore a v).pkt = s.pkt := rfl
@[simp] theorem State.rwStore_cst (s : State) (a : Nat) (v : Word) : (s.rwStore a v).cst = s.cst := rfl
@[simp] theorem State.rwStore_img (s : State) (a : Nat) (v : Word) : (s.rwStore a v).img = s.img := rfl
@[simp] theorem State.rwStore_pwr (s : State) (a : Nat) (v : Word) : (s.rwStore a v).pwr = s.pwr := rfl
@[simp] theorem State.rwStore_dma (s : State) (a : Nat) (v : Word) : (s.rwStore a v).dma = s.dma := rfl
@[simp] theorem State.rwStore_prf (s : State) (a : Nat) (v : Word) : (s.rwStore a v).prf = s.prf := rfl
@[simp] theorem State.rwStore_pcie (s : State) (a : Nat) (v : Word) : (s.rwStore a v).pcie = s.pcie := rfl
@[simp] theorem State.rwStore_flt (s : State) (a : Nat) (v : Word) : (s.rwStore a v).flt = s.flt := rfl
@[simp] theorem State.rwStore_trace (s : State) (a : Nat) (v : Word) : (s.rwStore a v).trace = s.trace := rfl
@[simp] theorem State.rwStore_keys (s : State) (a : Nat) (v : Word) : (s.rwStore a v).keys = s.keys := rfl
@[simp] theorem State.rwStore_faults (s : State) (a : Nat) (v : Word) : (s.rwStore a v).faults = s.faults := rfl
@[simp] theorem State.rwStore_vecMask (s : State) (a : Nat) (v : Word) : (s.rwStore a v).vecMask = s.vecMask := rfl
@[simp] theorem State.rwStore_pba (s : State) (a : Nat) (v : Word) : (s.rwStore a v).pba = s.pba := rfl
@[simp] theorem State.rwStore_tally (s : State) (a : Nat) (v : Word) : (s.rwStore a v).tally = s.tally := rfl
@[simp] theorem State.rwStore_mem (s : State) (a : Nat) (v : Word) : (s.rwStore a v).mem = s.mem := rfl
@[simp] theorem State.rwStore_out (s : State) (a : Nat) (v : Word) : (s.rwStore a v).out = s.out := rfl
@[simp] theorem State.rwStore_free (s : State) (a : Nat) (v : Word) : (s.rwStore a v).free = s.free := rfl
@[simp] theorem State.rwStore_pending (s : State) (a : Nat) (v : Word) : (s.rwStore a v).pending = s.pending := rfl

/-! ### `setLv` -/

@[simp] theorem State.setLv_regs (s : State) (o : Nat) (v : Word) : (s.setLv o v).regs = s.regs := rfl
@[simp] theorem State.setLv_pendSh (s : State) (o : Nat) (v : Word) : (s.setLv o v).pendSh = s.pendSh := rfl
@[simp] theorem State.setLv_shStamp (s : State) (o : Nat) (v : Word) : (s.setLv o v).shStamp = s.shStamp := rfl
@[simp] theorem State.setLv_bankP (s : State) (o : Nat) (v : Word) : (s.setLv o v).bankP = s.bankP := rfl
@[simp] theorem State.setLv_bankI (s : State) (o : Nat) (v : Word) : (s.setLv o v).bankI = s.bankI := rfl
@[simp] theorem State.setLv_rdP (s : State) (o : Nat) (v : Word) : (s.setLv o v).rdP = s.rdP := rfl
@[simp] theorem State.setLv_rdI (s : State) (o : Nat) (v : Word) : (s.setLv o v).rdI = s.rdI := rfl
@[simp] theorem State.setLv_fenceP (s : State) (o : Nat) (v : Word) : (s.setLv o v).fenceP = s.fenceP := rfl
@[simp] theorem State.setLv_fenceI (s : State) (o : Nat) (v : Word) : (s.setLv o v).fenceI = s.fenceI := rfl
@[simp] theorem State.setLv_heldP (s : State) (o : Nat) (v : Word) : (s.setLv o v).heldP = s.heldP := rfl
@[simp] theorem State.setLv_heldI (s : State) (o : Nat) (v : Word) : (s.setLv o v).heldI = s.heldI := rfl
@[simp] theorem State.setLv_chans (s : State) (o : Nat) (v : Word) : (s.setLv o v).chans = s.chans := rfl
@[simp] theorem State.setLv_spn (s : State) (o : Nat) (v : Word) : (s.setLv o v).spn = s.spn := rfl
@[simp] theorem State.setLv_monitors (s : State) (o : Nat) (v : Word) : (s.setLv o v).monitors = s.monitors := rfl
@[simp] theorem State.setLv_tiuP (s : State) (o : Nat) (v : Word) : (s.setLv o v).tiuP = s.tiuP := rfl
@[simp] theorem State.setLv_tiuL (s : State) (o : Nat) (v : Word) : (s.setLv o v).tiuL = s.tiuL := rfl
@[simp] theorem State.setLv_syns (s : State) (o : Nat) (v : Word) : (s.setLv o v).syns = s.syns := rfl
@[simp] theorem State.setLv_outs (s : State) (o : Nat) (v : Word) : (s.setLv o v).outs = s.outs := rfl
@[simp] theorem State.setLv_lanes (s : State) (o : Nat) (v : Word) : (s.setLv o v).lanes = s.lanes := rfl
@[simp] theorem State.setLv_pps (s : State) (o : Nat) (v : Word) : (s.setLv o v).pps = s.pps := rfl
@[simp] theorem State.setLv_tod (s : State) (o : Nat) (v : Word) : (s.setLv o v).tod = s.tod := rfl
@[simp] theorem State.setLv_ens (s : State) (o : Nat) (v : Word) : (s.setLv o v).ens = s.ens := rfl
@[simp] theorem State.setLv_srcRes (s : State) (o : Nat) (v : Word) : (s.setLv o v).srcRes = s.srcRes := rfl
@[simp] theorem State.setLv_tnd (s : State) (o : Nat) (v : Word) : (s.setLv o v).tnd = s.tnd := rfl
@[simp] theorem State.setLv_gns (s : State) (o : Nat) (v : Word) : (s.setLv o v).gns = s.gns := rfl
@[simp] theorem State.setLv_mac (s : State) (o : Nat) (v : Word) : (s.setLv o v).mac = s.mac := rfl
@[simp] theorem State.setLv_pkt (s : State) (o : Nat) (v : Word) : (s.setLv o v).pkt = s.pkt := rfl
@[simp] theorem State.setLv_cst (s : State) (o : Nat) (v : Word) : (s.setLv o v).cst = s.cst := rfl
@[simp] theorem State.setLv_img (s : State) (o : Nat) (v : Word) : (s.setLv o v).img = s.img := rfl
@[simp] theorem State.setLv_pwr (s : State) (o : Nat) (v : Word) : (s.setLv o v).pwr = s.pwr := rfl
@[simp] theorem State.setLv_dma (s : State) (o : Nat) (v : Word) : (s.setLv o v).dma = s.dma := rfl
@[simp] theorem State.setLv_prf (s : State) (o : Nat) (v : Word) : (s.setLv o v).prf = s.prf := rfl
@[simp] theorem State.setLv_pcie (s : State) (o : Nat) (v : Word) : (s.setLv o v).pcie = s.pcie := rfl
@[simp] theorem State.setLv_flt (s : State) (o : Nat) (v : Word) : (s.setLv o v).flt = s.flt := rfl
@[simp] theorem State.setLv_trace (s : State) (o : Nat) (v : Word) : (s.setLv o v).trace = s.trace := rfl
@[simp] theorem State.setLv_keys (s : State) (o : Nat) (v : Word) : (s.setLv o v).keys = s.keys := rfl
@[simp] theorem State.setLv_faults (s : State) (o : Nat) (v : Word) : (s.setLv o v).faults = s.faults := rfl
@[simp] theorem State.setLv_vecMask (s : State) (o : Nat) (v : Word) : (s.setLv o v).vecMask = s.vecMask := rfl
@[simp] theorem State.setLv_pba (s : State) (o : Nat) (v : Word) : (s.setLv o v).pba = s.pba := rfl
@[simp] theorem State.setLv_tally (s : State) (o : Nat) (v : Word) : (s.setLv o v).tally = s.tally := rfl
@[simp] theorem State.setLv_mem (s : State) (o : Nat) (v : Word) : (s.setLv o v).mem = s.mem := rfl
@[simp] theorem State.setLv_out (s : State) (o : Nat) (v : Word) : (s.setLv o v).out = s.out := rfl
@[simp] theorem State.setLv_free (s : State) (o : Nat) (v : Word) : (s.setLv o v).free = s.free := rfl
@[simp] theorem State.setLv_pending (s : State) (o : Nat) (v : Word) : (s.setLv o v).pending = s.pending := rfl

/-! ### `emit` -/

@[simp] theorem State.emit_regs (s : State) (e : Emit) : (s.emit e).regs = s.regs := rfl
@[simp] theorem State.emit_live (s : State) (e : Emit) : (s.emit e).live = s.live := rfl
@[simp] theorem State.emit_pendSh (s : State) (e : Emit) : (s.emit e).pendSh = s.pendSh := rfl
@[simp] theorem State.emit_shStamp (s : State) (e : Emit) : (s.emit e).shStamp = s.shStamp := rfl
@[simp] theorem State.emit_bankP (s : State) (e : Emit) : (s.emit e).bankP = s.bankP := rfl
@[simp] theorem State.emit_bankI (s : State) (e : Emit) : (s.emit e).bankI = s.bankI := rfl
@[simp] theorem State.emit_rdP (s : State) (e : Emit) : (s.emit e).rdP = s.rdP := rfl
@[simp] theorem State.emit_rdI (s : State) (e : Emit) : (s.emit e).rdI = s.rdI := rfl
@[simp] theorem State.emit_fenceP (s : State) (e : Emit) : (s.emit e).fenceP = s.fenceP := rfl
@[simp] theorem State.emit_fenceI (s : State) (e : Emit) : (s.emit e).fenceI = s.fenceI := rfl
@[simp] theorem State.emit_heldP (s : State) (e : Emit) : (s.emit e).heldP = s.heldP := rfl
@[simp] theorem State.emit_heldI (s : State) (e : Emit) : (s.emit e).heldI = s.heldI := rfl
@[simp] theorem State.emit_chans (s : State) (e : Emit) : (s.emit e).chans = s.chans := rfl
@[simp] theorem State.emit_spn (s : State) (e : Emit) : (s.emit e).spn = s.spn := rfl
@[simp] theorem State.emit_monitors (s : State) (e : Emit) : (s.emit e).monitors = s.monitors := rfl
@[simp] theorem State.emit_tiuP (s : State) (e : Emit) : (s.emit e).tiuP = s.tiuP := rfl
@[simp] theorem State.emit_tiuL (s : State) (e : Emit) : (s.emit e).tiuL = s.tiuL := rfl
@[simp] theorem State.emit_syns (s : State) (e : Emit) : (s.emit e).syns = s.syns := rfl
@[simp] theorem State.emit_outs (s : State) (e : Emit) : (s.emit e).outs = s.outs := rfl
@[simp] theorem State.emit_lanes (s : State) (e : Emit) : (s.emit e).lanes = s.lanes := rfl
@[simp] theorem State.emit_pps (s : State) (e : Emit) : (s.emit e).pps = s.pps := rfl
@[simp] theorem State.emit_tod (s : State) (e : Emit) : (s.emit e).tod = s.tod := rfl
@[simp] theorem State.emit_ens (s : State) (e : Emit) : (s.emit e).ens = s.ens := rfl
@[simp] theorem State.emit_srcRes (s : State) (e : Emit) : (s.emit e).srcRes = s.srcRes := rfl
@[simp] theorem State.emit_tnd (s : State) (e : Emit) : (s.emit e).tnd = s.tnd := rfl
@[simp] theorem State.emit_gns (s : State) (e : Emit) : (s.emit e).gns = s.gns := rfl
@[simp] theorem State.emit_mac (s : State) (e : Emit) : (s.emit e).mac = s.mac := rfl
@[simp] theorem State.emit_pkt (s : State) (e : Emit) : (s.emit e).pkt = s.pkt := rfl
@[simp] theorem State.emit_cst (s : State) (e : Emit) : (s.emit e).cst = s.cst := rfl
@[simp] theorem State.emit_img (s : State) (e : Emit) : (s.emit e).img = s.img := rfl
@[simp] theorem State.emit_pwr (s : State) (e : Emit) : (s.emit e).pwr = s.pwr := rfl
@[simp] theorem State.emit_dma (s : State) (e : Emit) : (s.emit e).dma = s.dma := rfl
@[simp] theorem State.emit_prf (s : State) (e : Emit) : (s.emit e).prf = s.prf := rfl
@[simp] theorem State.emit_pcie (s : State) (e : Emit) : (s.emit e).pcie = s.pcie := rfl
@[simp] theorem State.emit_flt (s : State) (e : Emit) : (s.emit e).flt = s.flt := rfl
@[simp] theorem State.emit_trace (s : State) (e : Emit) : (s.emit e).trace = s.trace := rfl
@[simp] theorem State.emit_keys (s : State) (e : Emit) : (s.emit e).keys = s.keys := rfl
@[simp] theorem State.emit_faults (s : State) (e : Emit) : (s.emit e).faults = s.faults := rfl
@[simp] theorem State.emit_vecMask (s : State) (e : Emit) : (s.emit e).vecMask = s.vecMask := rfl
@[simp] theorem State.emit_pba (s : State) (e : Emit) : (s.emit e).pba = s.pba := rfl
@[simp] theorem State.emit_tally (s : State) (e : Emit) : (s.emit e).tally = s.tally := rfl
@[simp] theorem State.emit_mem (s : State) (e : Emit) : (s.emit e).mem = s.mem := rfl
@[simp] theorem State.emit_free (s : State) (e : Emit) : (s.emit e).free = s.free := rfl
@[simp] theorem State.emit_pending (s : State) (e : Emit) : (s.emit e).pending = s.pending := rfl

/-! ### `raise` -/

@[simp] theorem State.raise_regs (s : State) (f : FaultId) (c : Nat) : (s.raise f c).regs = s.regs := rfl
@[simp] theorem State.raise_live (s : State) (f : FaultId) (c : Nat) : (s.raise f c).live = s.live := rfl
@[simp] theorem State.raise_pendSh (s : State) (f : FaultId) (c : Nat) : (s.raise f c).pendSh = s.pendSh := rfl
@[simp] theorem State.raise_shStamp (s : State) (f : FaultId) (c : Nat) : (s.raise f c).shStamp = s.shStamp := rfl
@[simp] theorem State.raise_bankP (s : State) (f : FaultId) (c : Nat) : (s.raise f c).bankP = s.bankP := rfl
@[simp] theorem State.raise_bankI (s : State) (f : FaultId) (c : Nat) : (s.raise f c).bankI = s.bankI := rfl
@[simp] theorem State.raise_rdP (s : State) (f : FaultId) (c : Nat) : (s.raise f c).rdP = s.rdP := rfl
@[simp] theorem State.raise_rdI (s : State) (f : FaultId) (c : Nat) : (s.raise f c).rdI = s.rdI := rfl
@[simp] theorem State.raise_fenceP (s : State) (f : FaultId) (c : Nat) : (s.raise f c).fenceP = s.fenceP := rfl
@[simp] theorem State.raise_fenceI (s : State) (f : FaultId) (c : Nat) : (s.raise f c).fenceI = s.fenceI := rfl
@[simp] theorem State.raise_heldP (s : State) (f : FaultId) (c : Nat) : (s.raise f c).heldP = s.heldP := rfl
@[simp] theorem State.raise_heldI (s : State) (f : FaultId) (c : Nat) : (s.raise f c).heldI = s.heldI := rfl
@[simp] theorem State.raise_chans (s : State) (f : FaultId) (c : Nat) : (s.raise f c).chans = s.chans := rfl
@[simp] theorem State.raise_spn (s : State) (f : FaultId) (c : Nat) : (s.raise f c).spn = s.spn := rfl
@[simp] theorem State.raise_monitors (s : State) (f : FaultId) (c : Nat) : (s.raise f c).monitors = s.monitors := rfl
@[simp] theorem State.raise_tiuP (s : State) (f : FaultId) (c : Nat) : (s.raise f c).tiuP = s.tiuP := rfl
@[simp] theorem State.raise_tiuL (s : State) (f : FaultId) (c : Nat) : (s.raise f c).tiuL = s.tiuL := rfl
@[simp] theorem State.raise_syns (s : State) (f : FaultId) (c : Nat) : (s.raise f c).syns = s.syns := rfl
@[simp] theorem State.raise_outs (s : State) (f : FaultId) (c : Nat) : (s.raise f c).outs = s.outs := rfl
@[simp] theorem State.raise_lanes (s : State) (f : FaultId) (c : Nat) : (s.raise f c).lanes = s.lanes := rfl
@[simp] theorem State.raise_pps (s : State) (f : FaultId) (c : Nat) : (s.raise f c).pps = s.pps := rfl
@[simp] theorem State.raise_tod (s : State) (f : FaultId) (c : Nat) : (s.raise f c).tod = s.tod := rfl
@[simp] theorem State.raise_ens (s : State) (f : FaultId) (c : Nat) : (s.raise f c).ens = s.ens := rfl
@[simp] theorem State.raise_srcRes (s : State) (f : FaultId) (c : Nat) : (s.raise f c).srcRes = s.srcRes := rfl
@[simp] theorem State.raise_tnd (s : State) (f : FaultId) (c : Nat) : (s.raise f c).tnd = s.tnd := rfl
@[simp] theorem State.raise_gns (s : State) (f : FaultId) (c : Nat) : (s.raise f c).gns = s.gns := rfl
@[simp] theorem State.raise_mac (s : State) (f : FaultId) (c : Nat) : (s.raise f c).mac = s.mac := rfl
@[simp] theorem State.raise_pkt (s : State) (f : FaultId) (c : Nat) : (s.raise f c).pkt = s.pkt := rfl
@[simp] theorem State.raise_cst (s : State) (f : FaultId) (c : Nat) : (s.raise f c).cst = s.cst := rfl
@[simp] theorem State.raise_img (s : State) (f : FaultId) (c : Nat) : (s.raise f c).img = s.img := rfl
@[simp] theorem State.raise_pwr (s : State) (f : FaultId) (c : Nat) : (s.raise f c).pwr = s.pwr := rfl
@[simp] theorem State.raise_dma (s : State) (f : FaultId) (c : Nat) : (s.raise f c).dma = s.dma := rfl
@[simp] theorem State.raise_prf (s : State) (f : FaultId) (c : Nat) : (s.raise f c).prf = s.prf := rfl
@[simp] theorem State.raise_pcie (s : State) (f : FaultId) (c : Nat) : (s.raise f c).pcie = s.pcie := rfl
@[simp] theorem State.raise_flt (s : State) (f : FaultId) (c : Nat) : (s.raise f c).flt = s.flt := rfl
@[simp] theorem State.raise_trace (s : State) (f : FaultId) (c : Nat) : (s.raise f c).trace = s.trace := rfl
@[simp] theorem State.raise_keys (s : State) (f : FaultId) (c : Nat) : (s.raise f c).keys = s.keys := rfl
@[simp] theorem State.raise_vecMask (s : State) (f : FaultId) (c : Nat) : (s.raise f c).vecMask = s.vecMask := rfl
@[simp] theorem State.raise_pba (s : State) (f : FaultId) (c : Nat) : (s.raise f c).pba = s.pba := rfl
@[simp] theorem State.raise_tally (s : State) (f : FaultId) (c : Nat) : (s.raise f c).tally = s.tally := rfl
@[simp] theorem State.raise_mem (s : State) (f : FaultId) (c : Nat) : (s.raise f c).mem = s.mem := rfl
@[simp] theorem State.raise_out (s : State) (f : FaultId) (c : Nat) : (s.raise f c).out = s.out := rfl
@[simp] theorem State.raise_free (s : State) (f : FaultId) (c : Nat) : (s.raise f c).free = s.free := rfl
@[simp] theorem State.raise_pending (s : State) (f : FaultId) (c : Nat) : (s.raise f c).pending = s.pending := rfl

/-! ### `tallyAdd` -/

@[simp] theorem State.tallyAdd_regs (s : State) (i n : Nat) : (s.tallyAdd i n).regs = s.regs := rfl
@[simp] theorem State.tallyAdd_live (s : State) (i n : Nat) : (s.tallyAdd i n).live = s.live := rfl
@[simp] theorem State.tallyAdd_pendSh (s : State) (i n : Nat) : (s.tallyAdd i n).pendSh = s.pendSh := rfl
@[simp] theorem State.tallyAdd_shStamp (s : State) (i n : Nat) : (s.tallyAdd i n).shStamp = s.shStamp := rfl
@[simp] theorem State.tallyAdd_bankP (s : State) (i n : Nat) : (s.tallyAdd i n).bankP = s.bankP := rfl
@[simp] theorem State.tallyAdd_bankI (s : State) (i n : Nat) : (s.tallyAdd i n).bankI = s.bankI := rfl
@[simp] theorem State.tallyAdd_rdP (s : State) (i n : Nat) : (s.tallyAdd i n).rdP = s.rdP := rfl
@[simp] theorem State.tallyAdd_rdI (s : State) (i n : Nat) : (s.tallyAdd i n).rdI = s.rdI := rfl
@[simp] theorem State.tallyAdd_fenceP (s : State) (i n : Nat) : (s.tallyAdd i n).fenceP = s.fenceP := rfl
@[simp] theorem State.tallyAdd_fenceI (s : State) (i n : Nat) : (s.tallyAdd i n).fenceI = s.fenceI := rfl
@[simp] theorem State.tallyAdd_heldP (s : State) (i n : Nat) : (s.tallyAdd i n).heldP = s.heldP := rfl
@[simp] theorem State.tallyAdd_heldI (s : State) (i n : Nat) : (s.tallyAdd i n).heldI = s.heldI := rfl
@[simp] theorem State.tallyAdd_chans (s : State) (i n : Nat) : (s.tallyAdd i n).chans = s.chans := rfl
@[simp] theorem State.tallyAdd_spn (s : State) (i n : Nat) : (s.tallyAdd i n).spn = s.spn := rfl
@[simp] theorem State.tallyAdd_monitors (s : State) (i n : Nat) : (s.tallyAdd i n).monitors = s.monitors := rfl
@[simp] theorem State.tallyAdd_tiuP (s : State) (i n : Nat) : (s.tallyAdd i n).tiuP = s.tiuP := rfl
@[simp] theorem State.tallyAdd_tiuL (s : State) (i n : Nat) : (s.tallyAdd i n).tiuL = s.tiuL := rfl
@[simp] theorem State.tallyAdd_syns (s : State) (i n : Nat) : (s.tallyAdd i n).syns = s.syns := rfl
@[simp] theorem State.tallyAdd_outs (s : State) (i n : Nat) : (s.tallyAdd i n).outs = s.outs := rfl
@[simp] theorem State.tallyAdd_lanes (s : State) (i n : Nat) : (s.tallyAdd i n).lanes = s.lanes := rfl
@[simp] theorem State.tallyAdd_pps (s : State) (i n : Nat) : (s.tallyAdd i n).pps = s.pps := rfl
@[simp] theorem State.tallyAdd_tod (s : State) (i n : Nat) : (s.tallyAdd i n).tod = s.tod := rfl
@[simp] theorem State.tallyAdd_ens (s : State) (i n : Nat) : (s.tallyAdd i n).ens = s.ens := rfl
@[simp] theorem State.tallyAdd_srcRes (s : State) (i n : Nat) : (s.tallyAdd i n).srcRes = s.srcRes := rfl
@[simp] theorem State.tallyAdd_tnd (s : State) (i n : Nat) : (s.tallyAdd i n).tnd = s.tnd := rfl
@[simp] theorem State.tallyAdd_gns (s : State) (i n : Nat) : (s.tallyAdd i n).gns = s.gns := rfl
@[simp] theorem State.tallyAdd_mac (s : State) (i n : Nat) : (s.tallyAdd i n).mac = s.mac := rfl
@[simp] theorem State.tallyAdd_pkt (s : State) (i n : Nat) : (s.tallyAdd i n).pkt = s.pkt := rfl
@[simp] theorem State.tallyAdd_cst (s : State) (i n : Nat) : (s.tallyAdd i n).cst = s.cst := rfl
@[simp] theorem State.tallyAdd_img (s : State) (i n : Nat) : (s.tallyAdd i n).img = s.img := rfl
@[simp] theorem State.tallyAdd_pwr (s : State) (i n : Nat) : (s.tallyAdd i n).pwr = s.pwr := rfl
@[simp] theorem State.tallyAdd_dma (s : State) (i n : Nat) : (s.tallyAdd i n).dma = s.dma := rfl
@[simp] theorem State.tallyAdd_prf (s : State) (i n : Nat) : (s.tallyAdd i n).prf = s.prf := rfl
@[simp] theorem State.tallyAdd_pcie (s : State) (i n : Nat) : (s.tallyAdd i n).pcie = s.pcie := rfl
@[simp] theorem State.tallyAdd_flt (s : State) (i n : Nat) : (s.tallyAdd i n).flt = s.flt := rfl
@[simp] theorem State.tallyAdd_trace (s : State) (i n : Nat) : (s.tallyAdd i n).trace = s.trace := rfl
@[simp] theorem State.tallyAdd_keys (s : State) (i n : Nat) : (s.tallyAdd i n).keys = s.keys := rfl
@[simp] theorem State.tallyAdd_faults (s : State) (i n : Nat) : (s.tallyAdd i n).faults = s.faults := rfl
@[simp] theorem State.tallyAdd_vecMask (s : State) (i n : Nat) : (s.tallyAdd i n).vecMask = s.vecMask := rfl
@[simp] theorem State.tallyAdd_pba (s : State) (i n : Nat) : (s.tallyAdd i n).pba = s.pba := rfl
@[simp] theorem State.tallyAdd_mem (s : State) (i n : Nat) : (s.tallyAdd i n).mem = s.mem := rfl
@[simp] theorem State.tallyAdd_out (s : State) (i n : Nat) : (s.tallyAdd i n).out = s.out := rfl
@[simp] theorem State.tallyAdd_free (s : State) (i n : Nat) : (s.tallyAdd i n).free = s.free := rfl
@[simp] theorem State.tallyAdd_pending (s : State) (i n : Nat) : (s.tallyAdd i n).pending = s.pending := rfl

/-! ### `mset` -/

@[simp] theorem State.mset_regs (s : State) (a : Nat) (v : Byte) : (s.mset a v).regs = s.regs := rfl
@[simp] theorem State.mset_live (s : State) (a : Nat) (v : Byte) : (s.mset a v).live = s.live := rfl
@[simp] theorem State.mset_pendSh (s : State) (a : Nat) (v : Byte) : (s.mset a v).pendSh = s.pendSh := rfl
@[simp] theorem State.mset_shStamp (s : State) (a : Nat) (v : Byte) : (s.mset a v).shStamp = s.shStamp := rfl
@[simp] theorem State.mset_bankP (s : State) (a : Nat) (v : Byte) : (s.mset a v).bankP = s.bankP := rfl
@[simp] theorem State.mset_bankI (s : State) (a : Nat) (v : Byte) : (s.mset a v).bankI = s.bankI := rfl
@[simp] theorem State.mset_rdP (s : State) (a : Nat) (v : Byte) : (s.mset a v).rdP = s.rdP := rfl
@[simp] theorem State.mset_rdI (s : State) (a : Nat) (v : Byte) : (s.mset a v).rdI = s.rdI := rfl
@[simp] theorem State.mset_fenceP (s : State) (a : Nat) (v : Byte) : (s.mset a v).fenceP = s.fenceP := rfl
@[simp] theorem State.mset_fenceI (s : State) (a : Nat) (v : Byte) : (s.mset a v).fenceI = s.fenceI := rfl
@[simp] theorem State.mset_heldP (s : State) (a : Nat) (v : Byte) : (s.mset a v).heldP = s.heldP := rfl
@[simp] theorem State.mset_heldI (s : State) (a : Nat) (v : Byte) : (s.mset a v).heldI = s.heldI := rfl
@[simp] theorem State.mset_chans (s : State) (a : Nat) (v : Byte) : (s.mset a v).chans = s.chans := rfl
@[simp] theorem State.mset_spn (s : State) (a : Nat) (v : Byte) : (s.mset a v).spn = s.spn := rfl
@[simp] theorem State.mset_monitors (s : State) (a : Nat) (v : Byte) : (s.mset a v).monitors = s.monitors := rfl
@[simp] theorem State.mset_tiuP (s : State) (a : Nat) (v : Byte) : (s.mset a v).tiuP = s.tiuP := rfl
@[simp] theorem State.mset_tiuL (s : State) (a : Nat) (v : Byte) : (s.mset a v).tiuL = s.tiuL := rfl
@[simp] theorem State.mset_syns (s : State) (a : Nat) (v : Byte) : (s.mset a v).syns = s.syns := rfl
@[simp] theorem State.mset_outs (s : State) (a : Nat) (v : Byte) : (s.mset a v).outs = s.outs := rfl
@[simp] theorem State.mset_lanes (s : State) (a : Nat) (v : Byte) : (s.mset a v).lanes = s.lanes := rfl
@[simp] theorem State.mset_pps (s : State) (a : Nat) (v : Byte) : (s.mset a v).pps = s.pps := rfl
@[simp] theorem State.mset_tod (s : State) (a : Nat) (v : Byte) : (s.mset a v).tod = s.tod := rfl
@[simp] theorem State.mset_ens (s : State) (a : Nat) (v : Byte) : (s.mset a v).ens = s.ens := rfl
@[simp] theorem State.mset_srcRes (s : State) (a : Nat) (v : Byte) : (s.mset a v).srcRes = s.srcRes := rfl
@[simp] theorem State.mset_tnd (s : State) (a : Nat) (v : Byte) : (s.mset a v).tnd = s.tnd := rfl
@[simp] theorem State.mset_gns (s : State) (a : Nat) (v : Byte) : (s.mset a v).gns = s.gns := rfl
@[simp] theorem State.mset_mac (s : State) (a : Nat) (v : Byte) : (s.mset a v).mac = s.mac := rfl
@[simp] theorem State.mset_pkt (s : State) (a : Nat) (v : Byte) : (s.mset a v).pkt = s.pkt := rfl
@[simp] theorem State.mset_cst (s : State) (a : Nat) (v : Byte) : (s.mset a v).cst = s.cst := rfl
@[simp] theorem State.mset_img (s : State) (a : Nat) (v : Byte) : (s.mset a v).img = s.img := rfl
@[simp] theorem State.mset_pwr (s : State) (a : Nat) (v : Byte) : (s.mset a v).pwr = s.pwr := rfl
@[simp] theorem State.mset_dma (s : State) (a : Nat) (v : Byte) : (s.mset a v).dma = s.dma := rfl
@[simp] theorem State.mset_prf (s : State) (a : Nat) (v : Byte) : (s.mset a v).prf = s.prf := rfl
@[simp] theorem State.mset_pcie (s : State) (a : Nat) (v : Byte) : (s.mset a v).pcie = s.pcie := rfl
@[simp] theorem State.mset_flt (s : State) (a : Nat) (v : Byte) : (s.mset a v).flt = s.flt := rfl
@[simp] theorem State.mset_trace (s : State) (a : Nat) (v : Byte) : (s.mset a v).trace = s.trace := rfl
@[simp] theorem State.mset_keys (s : State) (a : Nat) (v : Byte) : (s.mset a v).keys = s.keys := rfl
@[simp] theorem State.mset_faults (s : State) (a : Nat) (v : Byte) : (s.mset a v).faults = s.faults := rfl
@[simp] theorem State.mset_vecMask (s : State) (a : Nat) (v : Byte) : (s.mset a v).vecMask = s.vecMask := rfl
@[simp] theorem State.mset_pba (s : State) (a : Nat) (v : Byte) : (s.mset a v).pba = s.pba := rfl
@[simp] theorem State.mset_tally (s : State) (a : Nat) (v : Byte) : (s.mset a v).tally = s.tally := rfl
@[simp] theorem State.mset_out (s : State) (a : Nat) (v : Byte) : (s.mset a v).out = s.out := rfl
@[simp] theorem State.mset_free (s : State) (a : Nat) (v : Byte) : (s.mset a v).free = s.free := rfl
@[simp] theorem State.mset_pending (s : State) (a : Nat) (v : Byte) : (s.mset a v).pending = s.pending := rfl

/-! ### `modSpn` -/

@[simp] theorem State.modSpn_regs (s : State) (g : Spn → Spn) : (s.modSpn g).regs = s.regs := rfl
@[simp] theorem State.modSpn_live (s : State) (g : Spn → Spn) : (s.modSpn g).live = s.live := rfl
@[simp] theorem State.modSpn_pendSh (s : State) (g : Spn → Spn) : (s.modSpn g).pendSh = s.pendSh := rfl
@[simp] theorem State.modSpn_shStamp (s : State) (g : Spn → Spn) : (s.modSpn g).shStamp = s.shStamp := rfl
@[simp] theorem State.modSpn_bankP (s : State) (g : Spn → Spn) : (s.modSpn g).bankP = s.bankP := rfl
@[simp] theorem State.modSpn_bankI (s : State) (g : Spn → Spn) : (s.modSpn g).bankI = s.bankI := rfl
@[simp] theorem State.modSpn_rdP (s : State) (g : Spn → Spn) : (s.modSpn g).rdP = s.rdP := rfl
@[simp] theorem State.modSpn_rdI (s : State) (g : Spn → Spn) : (s.modSpn g).rdI = s.rdI := rfl
@[simp] theorem State.modSpn_fenceP (s : State) (g : Spn → Spn) : (s.modSpn g).fenceP = s.fenceP := rfl
@[simp] theorem State.modSpn_fenceI (s : State) (g : Spn → Spn) : (s.modSpn g).fenceI = s.fenceI := rfl
@[simp] theorem State.modSpn_heldP (s : State) (g : Spn → Spn) : (s.modSpn g).heldP = s.heldP := rfl
@[simp] theorem State.modSpn_heldI (s : State) (g : Spn → Spn) : (s.modSpn g).heldI = s.heldI := rfl
@[simp] theorem State.modSpn_chans (s : State) (g : Spn → Spn) : (s.modSpn g).chans = s.chans := rfl
@[simp] theorem State.modSpn_monitors (s : State) (g : Spn → Spn) : (s.modSpn g).monitors = s.monitors := rfl
@[simp] theorem State.modSpn_tiuP (s : State) (g : Spn → Spn) : (s.modSpn g).tiuP = s.tiuP := rfl
@[simp] theorem State.modSpn_tiuL (s : State) (g : Spn → Spn) : (s.modSpn g).tiuL = s.tiuL := rfl
@[simp] theorem State.modSpn_syns (s : State) (g : Spn → Spn) : (s.modSpn g).syns = s.syns := rfl
@[simp] theorem State.modSpn_outs (s : State) (g : Spn → Spn) : (s.modSpn g).outs = s.outs := rfl
@[simp] theorem State.modSpn_lanes (s : State) (g : Spn → Spn) : (s.modSpn g).lanes = s.lanes := rfl
@[simp] theorem State.modSpn_pps (s : State) (g : Spn → Spn) : (s.modSpn g).pps = s.pps := rfl
@[simp] theorem State.modSpn_tod (s : State) (g : Spn → Spn) : (s.modSpn g).tod = s.tod := rfl
@[simp] theorem State.modSpn_ens (s : State) (g : Spn → Spn) : (s.modSpn g).ens = s.ens := rfl
@[simp] theorem State.modSpn_srcRes (s : State) (g : Spn → Spn) : (s.modSpn g).srcRes = s.srcRes := rfl
@[simp] theorem State.modSpn_tnd (s : State) (g : Spn → Spn) : (s.modSpn g).tnd = s.tnd := rfl
@[simp] theorem State.modSpn_gns (s : State) (g : Spn → Spn) : (s.modSpn g).gns = s.gns := rfl
@[simp] theorem State.modSpn_mac (s : State) (g : Spn → Spn) : (s.modSpn g).mac = s.mac := rfl
@[simp] theorem State.modSpn_pkt (s : State) (g : Spn → Spn) : (s.modSpn g).pkt = s.pkt := rfl
@[simp] theorem State.modSpn_cst (s : State) (g : Spn → Spn) : (s.modSpn g).cst = s.cst := rfl
@[simp] theorem State.modSpn_img (s : State) (g : Spn → Spn) : (s.modSpn g).img = s.img := rfl
@[simp] theorem State.modSpn_pwr (s : State) (g : Spn → Spn) : (s.modSpn g).pwr = s.pwr := rfl
@[simp] theorem State.modSpn_dma (s : State) (g : Spn → Spn) : (s.modSpn g).dma = s.dma := rfl
@[simp] theorem State.modSpn_prf (s : State) (g : Spn → Spn) : (s.modSpn g).prf = s.prf := rfl
@[simp] theorem State.modSpn_pcie (s : State) (g : Spn → Spn) : (s.modSpn g).pcie = s.pcie := rfl
@[simp] theorem State.modSpn_flt (s : State) (g : Spn → Spn) : (s.modSpn g).flt = s.flt := rfl
@[simp] theorem State.modSpn_trace (s : State) (g : Spn → Spn) : (s.modSpn g).trace = s.trace := rfl
@[simp] theorem State.modSpn_keys (s : State) (g : Spn → Spn) : (s.modSpn g).keys = s.keys := rfl
@[simp] theorem State.modSpn_faults (s : State) (g : Spn → Spn) : (s.modSpn g).faults = s.faults := rfl
@[simp] theorem State.modSpn_vecMask (s : State) (g : Spn → Spn) : (s.modSpn g).vecMask = s.vecMask := rfl
@[simp] theorem State.modSpn_pba (s : State) (g : Spn → Spn) : (s.modSpn g).pba = s.pba := rfl
@[simp] theorem State.modSpn_tally (s : State) (g : Spn → Spn) : (s.modSpn g).tally = s.tally := rfl
@[simp] theorem State.modSpn_mem (s : State) (g : Spn → Spn) : (s.modSpn g).mem = s.mem := rfl
@[simp] theorem State.modSpn_out (s : State) (g : Spn → Spn) : (s.modSpn g).out = s.out := rfl
@[simp] theorem State.modSpn_free (s : State) (g : Spn → Spn) : (s.modSpn g).free = s.free := rfl
@[simp] theorem State.modSpn_pending (s : State) (g : Spn → Spn) : (s.modSpn g).pending = s.pending := rfl

/-! ### `modBase` -/

@[simp] theorem State.modBase_regs (s : State) (n : Nat) (g : TBase → TBase) : (s.modBase n g).regs = s.regs := rfl
@[simp] theorem State.modBase_live (s : State) (n : Nat) (g : TBase → TBase) : (s.modBase n g).live = s.live := rfl
@[simp] theorem State.modBase_pendSh (s : State) (n : Nat) (g : TBase → TBase) : (s.modBase n g).pendSh = s.pendSh := rfl
@[simp] theorem State.modBase_shStamp (s : State) (n : Nat) (g : TBase → TBase) : (s.modBase n g).shStamp = s.shStamp := rfl
@[simp] theorem State.modBase_bankP (s : State) (n : Nat) (g : TBase → TBase) : (s.modBase n g).bankP = s.bankP := rfl
@[simp] theorem State.modBase_bankI (s : State) (n : Nat) (g : TBase → TBase) : (s.modBase n g).bankI = s.bankI := rfl
@[simp] theorem State.modBase_rdP (s : State) (n : Nat) (g : TBase → TBase) : (s.modBase n g).rdP = s.rdP := rfl
@[simp] theorem State.modBase_rdI (s : State) (n : Nat) (g : TBase → TBase) : (s.modBase n g).rdI = s.rdI := rfl
@[simp] theorem State.modBase_fenceP (s : State) (n : Nat) (g : TBase → TBase) : (s.modBase n g).fenceP = s.fenceP := rfl
@[simp] theorem State.modBase_fenceI (s : State) (n : Nat) (g : TBase → TBase) : (s.modBase n g).fenceI = s.fenceI := rfl
@[simp] theorem State.modBase_heldP (s : State) (n : Nat) (g : TBase → TBase) : (s.modBase n g).heldP = s.heldP := rfl
@[simp] theorem State.modBase_heldI (s : State) (n : Nat) (g : TBase → TBase) : (s.modBase n g).heldI = s.heldI := rfl
@[simp] theorem State.modBase_chans (s : State) (n : Nat) (g : TBase → TBase) : (s.modBase n g).chans = s.chans := rfl
@[simp] theorem State.modBase_monitors (s : State) (n : Nat) (g : TBase → TBase) : (s.modBase n g).monitors = s.monitors := rfl
@[simp] theorem State.modBase_tiuP (s : State) (n : Nat) (g : TBase → TBase) : (s.modBase n g).tiuP = s.tiuP := rfl
@[simp] theorem State.modBase_tiuL (s : State) (n : Nat) (g : TBase → TBase) : (s.modBase n g).tiuL = s.tiuL := rfl
@[simp] theorem State.modBase_syns (s : State) (n : Nat) (g : TBase → TBase) : (s.modBase n g).syns = s.syns := rfl
@[simp] theorem State.modBase_outs (s : State) (n : Nat) (g : TBase → TBase) : (s.modBase n g).outs = s.outs := rfl
@[simp] theorem State.modBase_lanes (s : State) (n : Nat) (g : TBase → TBase) : (s.modBase n g).lanes = s.lanes := rfl
@[simp] theorem State.modBase_pps (s : State) (n : Nat) (g : TBase → TBase) : (s.modBase n g).pps = s.pps := rfl
@[simp] theorem State.modBase_tod (s : State) (n : Nat) (g : TBase → TBase) : (s.modBase n g).tod = s.tod := rfl
@[simp] theorem State.modBase_ens (s : State) (n : Nat) (g : TBase → TBase) : (s.modBase n g).ens = s.ens := rfl
@[simp] theorem State.modBase_srcRes (s : State) (n : Nat) (g : TBase → TBase) : (s.modBase n g).srcRes = s.srcRes := rfl
@[simp] theorem State.modBase_tnd (s : State) (n : Nat) (g : TBase → TBase) : (s.modBase n g).tnd = s.tnd := rfl
@[simp] theorem State.modBase_gns (s : State) (n : Nat) (g : TBase → TBase) : (s.modBase n g).gns = s.gns := rfl
@[simp] theorem State.modBase_mac (s : State) (n : Nat) (g : TBase → TBase) : (s.modBase n g).mac = s.mac := rfl
@[simp] theorem State.modBase_pkt (s : State) (n : Nat) (g : TBase → TBase) : (s.modBase n g).pkt = s.pkt := rfl
@[simp] theorem State.modBase_cst (s : State) (n : Nat) (g : TBase → TBase) : (s.modBase n g).cst = s.cst := rfl
@[simp] theorem State.modBase_img (s : State) (n : Nat) (g : TBase → TBase) : (s.modBase n g).img = s.img := rfl
@[simp] theorem State.modBase_pwr (s : State) (n : Nat) (g : TBase → TBase) : (s.modBase n g).pwr = s.pwr := rfl
@[simp] theorem State.modBase_dma (s : State) (n : Nat) (g : TBase → TBase) : (s.modBase n g).dma = s.dma := rfl
@[simp] theorem State.modBase_prf (s : State) (n : Nat) (g : TBase → TBase) : (s.modBase n g).prf = s.prf := rfl
@[simp] theorem State.modBase_pcie (s : State) (n : Nat) (g : TBase → TBase) : (s.modBase n g).pcie = s.pcie := rfl
@[simp] theorem State.modBase_flt (s : State) (n : Nat) (g : TBase → TBase) : (s.modBase n g).flt = s.flt := rfl
@[simp] theorem State.modBase_trace (s : State) (n : Nat) (g : TBase → TBase) : (s.modBase n g).trace = s.trace := rfl
@[simp] theorem State.modBase_keys (s : State) (n : Nat) (g : TBase → TBase) : (s.modBase n g).keys = s.keys := rfl
@[simp] theorem State.modBase_faults (s : State) (n : Nat) (g : TBase → TBase) : (s.modBase n g).faults = s.faults := rfl
@[simp] theorem State.modBase_vecMask (s : State) (n : Nat) (g : TBase → TBase) : (s.modBase n g).vecMask = s.vecMask := rfl
@[simp] theorem State.modBase_pba (s : State) (n : Nat) (g : TBase → TBase) : (s.modBase n g).pba = s.pba := rfl
@[simp] theorem State.modBase_tally (s : State) (n : Nat) (g : TBase → TBase) : (s.modBase n g).tally = s.tally := rfl
@[simp] theorem State.modBase_mem (s : State) (n : Nat) (g : TBase → TBase) : (s.modBase n g).mem = s.mem := rfl
@[simp] theorem State.modBase_out (s : State) (n : Nat) (g : TBase → TBase) : (s.modBase n g).out = s.out := rfl
@[simp] theorem State.modBase_free (s : State) (n : Nat) (g : TBase → TBase) : (s.modBase n g).free = s.free := rfl
@[simp] theorem State.modBase_pending (s : State) (n : Nat) (g : TBase → TBase) : (s.modBase n g).pending = s.pending := rfl

/-! ### `modSlot` -/

@[simp] theorem State.modSlot_regs (s : State) (n : Nat) (g : Slot → Slot) : (s.modSlot n g).regs = s.regs := rfl
@[simp] theorem State.modSlot_live (s : State) (n : Nat) (g : Slot → Slot) : (s.modSlot n g).live = s.live := rfl
@[simp] theorem State.modSlot_pendSh (s : State) (n : Nat) (g : Slot → Slot) : (s.modSlot n g).pendSh = s.pendSh := rfl
@[simp] theorem State.modSlot_shStamp (s : State) (n : Nat) (g : Slot → Slot) : (s.modSlot n g).shStamp = s.shStamp := rfl
@[simp] theorem State.modSlot_bankP (s : State) (n : Nat) (g : Slot → Slot) : (s.modSlot n g).bankP = s.bankP := rfl
@[simp] theorem State.modSlot_bankI (s : State) (n : Nat) (g : Slot → Slot) : (s.modSlot n g).bankI = s.bankI := rfl
@[simp] theorem State.modSlot_rdP (s : State) (n : Nat) (g : Slot → Slot) : (s.modSlot n g).rdP = s.rdP := rfl
@[simp] theorem State.modSlot_rdI (s : State) (n : Nat) (g : Slot → Slot) : (s.modSlot n g).rdI = s.rdI := rfl
@[simp] theorem State.modSlot_fenceP (s : State) (n : Nat) (g : Slot → Slot) : (s.modSlot n g).fenceP = s.fenceP := rfl
@[simp] theorem State.modSlot_fenceI (s : State) (n : Nat) (g : Slot → Slot) : (s.modSlot n g).fenceI = s.fenceI := rfl
@[simp] theorem State.modSlot_heldP (s : State) (n : Nat) (g : Slot → Slot) : (s.modSlot n g).heldP = s.heldP := rfl
@[simp] theorem State.modSlot_heldI (s : State) (n : Nat) (g : Slot → Slot) : (s.modSlot n g).heldI = s.heldI := rfl
@[simp] theorem State.modSlot_chans (s : State) (n : Nat) (g : Slot → Slot) : (s.modSlot n g).chans = s.chans := rfl
@[simp] theorem State.modSlot_monitors (s : State) (n : Nat) (g : Slot → Slot) : (s.modSlot n g).monitors = s.monitors := rfl
@[simp] theorem State.modSlot_tiuP (s : State) (n : Nat) (g : Slot → Slot) : (s.modSlot n g).tiuP = s.tiuP := rfl
@[simp] theorem State.modSlot_tiuL (s : State) (n : Nat) (g : Slot → Slot) : (s.modSlot n g).tiuL = s.tiuL := rfl
@[simp] theorem State.modSlot_syns (s : State) (n : Nat) (g : Slot → Slot) : (s.modSlot n g).syns = s.syns := rfl
@[simp] theorem State.modSlot_outs (s : State) (n : Nat) (g : Slot → Slot) : (s.modSlot n g).outs = s.outs := rfl
@[simp] theorem State.modSlot_lanes (s : State) (n : Nat) (g : Slot → Slot) : (s.modSlot n g).lanes = s.lanes := rfl
@[simp] theorem State.modSlot_pps (s : State) (n : Nat) (g : Slot → Slot) : (s.modSlot n g).pps = s.pps := rfl
@[simp] theorem State.modSlot_tod (s : State) (n : Nat) (g : Slot → Slot) : (s.modSlot n g).tod = s.tod := rfl
@[simp] theorem State.modSlot_ens (s : State) (n : Nat) (g : Slot → Slot) : (s.modSlot n g).ens = s.ens := rfl
@[simp] theorem State.modSlot_srcRes (s : State) (n : Nat) (g : Slot → Slot) : (s.modSlot n g).srcRes = s.srcRes := rfl
@[simp] theorem State.modSlot_tnd (s : State) (n : Nat) (g : Slot → Slot) : (s.modSlot n g).tnd = s.tnd := rfl
@[simp] theorem State.modSlot_gns (s : State) (n : Nat) (g : Slot → Slot) : (s.modSlot n g).gns = s.gns := rfl
@[simp] theorem State.modSlot_mac (s : State) (n : Nat) (g : Slot → Slot) : (s.modSlot n g).mac = s.mac := rfl
@[simp] theorem State.modSlot_pkt (s : State) (n : Nat) (g : Slot → Slot) : (s.modSlot n g).pkt = s.pkt := rfl
@[simp] theorem State.modSlot_cst (s : State) (n : Nat) (g : Slot → Slot) : (s.modSlot n g).cst = s.cst := rfl
@[simp] theorem State.modSlot_img (s : State) (n : Nat) (g : Slot → Slot) : (s.modSlot n g).img = s.img := rfl
@[simp] theorem State.modSlot_pwr (s : State) (n : Nat) (g : Slot → Slot) : (s.modSlot n g).pwr = s.pwr := rfl
@[simp] theorem State.modSlot_dma (s : State) (n : Nat) (g : Slot → Slot) : (s.modSlot n g).dma = s.dma := rfl
@[simp] theorem State.modSlot_prf (s : State) (n : Nat) (g : Slot → Slot) : (s.modSlot n g).prf = s.prf := rfl
@[simp] theorem State.modSlot_pcie (s : State) (n : Nat) (g : Slot → Slot) : (s.modSlot n g).pcie = s.pcie := rfl
@[simp] theorem State.modSlot_flt (s : State) (n : Nat) (g : Slot → Slot) : (s.modSlot n g).flt = s.flt := rfl
@[simp] theorem State.modSlot_trace (s : State) (n : Nat) (g : Slot → Slot) : (s.modSlot n g).trace = s.trace := rfl
@[simp] theorem State.modSlot_keys (s : State) (n : Nat) (g : Slot → Slot) : (s.modSlot n g).keys = s.keys := rfl
@[simp] theorem State.modSlot_faults (s : State) (n : Nat) (g : Slot → Slot) : (s.modSlot n g).faults = s.faults := rfl
@[simp] theorem State.modSlot_vecMask (s : State) (n : Nat) (g : Slot → Slot) : (s.modSlot n g).vecMask = s.vecMask := rfl
@[simp] theorem State.modSlot_pba (s : State) (n : Nat) (g : Slot → Slot) : (s.modSlot n g).pba = s.pba := rfl
@[simp] theorem State.modSlot_tally (s : State) (n : Nat) (g : Slot → Slot) : (s.modSlot n g).tally = s.tally := rfl
@[simp] theorem State.modSlot_mem (s : State) (n : Nat) (g : Slot → Slot) : (s.modSlot n g).mem = s.mem := rfl
@[simp] theorem State.modSlot_out (s : State) (n : Nat) (g : Slot → Slot) : (s.modSlot n g).out = s.out := rfl
@[simp] theorem State.modSlot_free (s : State) (n : Nat) (g : Slot → Slot) : (s.modSlot n g).free = s.free := rfl
@[simp] theorem State.modSlot_pending (s : State) (n : Nat) (g : Slot → Slot) : (s.modSlot n g).pending = s.pending := rfl

/-! ### `modCtl` -/

@[simp] theorem State.modCtl_regs (s : State) (n : Nat) (g : BaseCtl → BaseCtl) : (s.modCtl n g).regs = s.regs := rfl
@[simp] theorem State.modCtl_live (s : State) (n : Nat) (g : BaseCtl → BaseCtl) : (s.modCtl n g).live = s.live := rfl
@[simp] theorem State.modCtl_pendSh (s : State) (n : Nat) (g : BaseCtl → BaseCtl) : (s.modCtl n g).pendSh = s.pendSh := rfl
@[simp] theorem State.modCtl_shStamp (s : State) (n : Nat) (g : BaseCtl → BaseCtl) : (s.modCtl n g).shStamp = s.shStamp := rfl
@[simp] theorem State.modCtl_bankP (s : State) (n : Nat) (g : BaseCtl → BaseCtl) : (s.modCtl n g).bankP = s.bankP := rfl
@[simp] theorem State.modCtl_bankI (s : State) (n : Nat) (g : BaseCtl → BaseCtl) : (s.modCtl n g).bankI = s.bankI := rfl
@[simp] theorem State.modCtl_rdP (s : State) (n : Nat) (g : BaseCtl → BaseCtl) : (s.modCtl n g).rdP = s.rdP := rfl
@[simp] theorem State.modCtl_rdI (s : State) (n : Nat) (g : BaseCtl → BaseCtl) : (s.modCtl n g).rdI = s.rdI := rfl
@[simp] theorem State.modCtl_fenceP (s : State) (n : Nat) (g : BaseCtl → BaseCtl) : (s.modCtl n g).fenceP = s.fenceP := rfl
@[simp] theorem State.modCtl_fenceI (s : State) (n : Nat) (g : BaseCtl → BaseCtl) : (s.modCtl n g).fenceI = s.fenceI := rfl
@[simp] theorem State.modCtl_heldP (s : State) (n : Nat) (g : BaseCtl → BaseCtl) : (s.modCtl n g).heldP = s.heldP := rfl
@[simp] theorem State.modCtl_heldI (s : State) (n : Nat) (g : BaseCtl → BaseCtl) : (s.modCtl n g).heldI = s.heldI := rfl
@[simp] theorem State.modCtl_chans (s : State) (n : Nat) (g : BaseCtl → BaseCtl) : (s.modCtl n g).chans = s.chans := rfl
@[simp] theorem State.modCtl_spn (s : State) (n : Nat) (g : BaseCtl → BaseCtl) : (s.modCtl n g).spn = s.spn := rfl
@[simp] theorem State.modCtl_monitors (s : State) (n : Nat) (g : BaseCtl → BaseCtl) : (s.modCtl n g).monitors = s.monitors := rfl
@[simp] theorem State.modCtl_tiuP (s : State) (n : Nat) (g : BaseCtl → BaseCtl) : (s.modCtl n g).tiuP = s.tiuP := rfl
@[simp] theorem State.modCtl_tiuL (s : State) (n : Nat) (g : BaseCtl → BaseCtl) : (s.modCtl n g).tiuL = s.tiuL := rfl
@[simp] theorem State.modCtl_syns (s : State) (n : Nat) (g : BaseCtl → BaseCtl) : (s.modCtl n g).syns = s.syns := rfl
@[simp] theorem State.modCtl_outs (s : State) (n : Nat) (g : BaseCtl → BaseCtl) : (s.modCtl n g).outs = s.outs := rfl
@[simp] theorem State.modCtl_lanes (s : State) (n : Nat) (g : BaseCtl → BaseCtl) : (s.modCtl n g).lanes = s.lanes := rfl
@[simp] theorem State.modCtl_pps (s : State) (n : Nat) (g : BaseCtl → BaseCtl) : (s.modCtl n g).pps = s.pps := rfl
@[simp] theorem State.modCtl_tod (s : State) (n : Nat) (g : BaseCtl → BaseCtl) : (s.modCtl n g).tod = s.tod := rfl
@[simp] theorem State.modCtl_srcRes (s : State) (n : Nat) (g : BaseCtl → BaseCtl) : (s.modCtl n g).srcRes = s.srcRes := rfl
@[simp] theorem State.modCtl_tnd (s : State) (n : Nat) (g : BaseCtl → BaseCtl) : (s.modCtl n g).tnd = s.tnd := rfl
@[simp] theorem State.modCtl_gns (s : State) (n : Nat) (g : BaseCtl → BaseCtl) : (s.modCtl n g).gns = s.gns := rfl
@[simp] theorem State.modCtl_mac (s : State) (n : Nat) (g : BaseCtl → BaseCtl) : (s.modCtl n g).mac = s.mac := rfl
@[simp] theorem State.modCtl_pkt (s : State) (n : Nat) (g : BaseCtl → BaseCtl) : (s.modCtl n g).pkt = s.pkt := rfl
@[simp] theorem State.modCtl_cst (s : State) (n : Nat) (g : BaseCtl → BaseCtl) : (s.modCtl n g).cst = s.cst := rfl
@[simp] theorem State.modCtl_img (s : State) (n : Nat) (g : BaseCtl → BaseCtl) : (s.modCtl n g).img = s.img := rfl
@[simp] theorem State.modCtl_pwr (s : State) (n : Nat) (g : BaseCtl → BaseCtl) : (s.modCtl n g).pwr = s.pwr := rfl
@[simp] theorem State.modCtl_dma (s : State) (n : Nat) (g : BaseCtl → BaseCtl) : (s.modCtl n g).dma = s.dma := rfl
@[simp] theorem State.modCtl_prf (s : State) (n : Nat) (g : BaseCtl → BaseCtl) : (s.modCtl n g).prf = s.prf := rfl
@[simp] theorem State.modCtl_pcie (s : State) (n : Nat) (g : BaseCtl → BaseCtl) : (s.modCtl n g).pcie = s.pcie := rfl
@[simp] theorem State.modCtl_flt (s : State) (n : Nat) (g : BaseCtl → BaseCtl) : (s.modCtl n g).flt = s.flt := rfl
@[simp] theorem State.modCtl_trace (s : State) (n : Nat) (g : BaseCtl → BaseCtl) : (s.modCtl n g).trace = s.trace := rfl
@[simp] theorem State.modCtl_keys (s : State) (n : Nat) (g : BaseCtl → BaseCtl) : (s.modCtl n g).keys = s.keys := rfl
@[simp] theorem State.modCtl_faults (s : State) (n : Nat) (g : BaseCtl → BaseCtl) : (s.modCtl n g).faults = s.faults := rfl
@[simp] theorem State.modCtl_vecMask (s : State) (n : Nat) (g : BaseCtl → BaseCtl) : (s.modCtl n g).vecMask = s.vecMask := rfl
@[simp] theorem State.modCtl_pba (s : State) (n : Nat) (g : BaseCtl → BaseCtl) : (s.modCtl n g).pba = s.pba := rfl
@[simp] theorem State.modCtl_tally (s : State) (n : Nat) (g : BaseCtl → BaseCtl) : (s.modCtl n g).tally = s.tally := rfl
@[simp] theorem State.modCtl_mem (s : State) (n : Nat) (g : BaseCtl → BaseCtl) : (s.modCtl n g).mem = s.mem := rfl
@[simp] theorem State.modCtl_out (s : State) (n : Nat) (g : BaseCtl → BaseCtl) : (s.modCtl n g).out = s.out := rfl
@[simp] theorem State.modCtl_free (s : State) (n : Nat) (g : BaseCtl → BaseCtl) : (s.modCtl n g).free = s.free := rfl
@[simp] theorem State.modCtl_pending (s : State) (n : Nat) (g : BaseCtl → BaseCtl) : (s.modCtl n g).pending = s.pending := rfl

/-! ### `modMember` -/

@[simp] theorem State.modMember_regs (s : State) (n : Nat) (g : Member → Member) : (s.modMember n g).regs = s.regs := rfl
@[simp] theorem State.modMember_live (s : State) (n : Nat) (g : Member → Member) : (s.modMember n g).live = s.live := rfl
@[simp] theorem State.modMember_pendSh (s : State) (n : Nat) (g : Member → Member) : (s.modMember n g).pendSh = s.pendSh := rfl
@[simp] theorem State.modMember_shStamp (s : State) (n : Nat) (g : Member → Member) : (s.modMember n g).shStamp = s.shStamp := rfl
@[simp] theorem State.modMember_bankP (s : State) (n : Nat) (g : Member → Member) : (s.modMember n g).bankP = s.bankP := rfl
@[simp] theorem State.modMember_bankI (s : State) (n : Nat) (g : Member → Member) : (s.modMember n g).bankI = s.bankI := rfl
@[simp] theorem State.modMember_rdP (s : State) (n : Nat) (g : Member → Member) : (s.modMember n g).rdP = s.rdP := rfl
@[simp] theorem State.modMember_rdI (s : State) (n : Nat) (g : Member → Member) : (s.modMember n g).rdI = s.rdI := rfl
@[simp] theorem State.modMember_fenceP (s : State) (n : Nat) (g : Member → Member) : (s.modMember n g).fenceP = s.fenceP := rfl
@[simp] theorem State.modMember_fenceI (s : State) (n : Nat) (g : Member → Member) : (s.modMember n g).fenceI = s.fenceI := rfl
@[simp] theorem State.modMember_heldP (s : State) (n : Nat) (g : Member → Member) : (s.modMember n g).heldP = s.heldP := rfl
@[simp] theorem State.modMember_heldI (s : State) (n : Nat) (g : Member → Member) : (s.modMember n g).heldI = s.heldI := rfl
@[simp] theorem State.modMember_chans (s : State) (n : Nat) (g : Member → Member) : (s.modMember n g).chans = s.chans := rfl
@[simp] theorem State.modMember_spn (s : State) (n : Nat) (g : Member → Member) : (s.modMember n g).spn = s.spn := rfl
@[simp] theorem State.modMember_monitors (s : State) (n : Nat) (g : Member → Member) : (s.modMember n g).monitors = s.monitors := rfl
@[simp] theorem State.modMember_tiuP (s : State) (n : Nat) (g : Member → Member) : (s.modMember n g).tiuP = s.tiuP := rfl
@[simp] theorem State.modMember_tiuL (s : State) (n : Nat) (g : Member → Member) : (s.modMember n g).tiuL = s.tiuL := rfl
@[simp] theorem State.modMember_syns (s : State) (n : Nat) (g : Member → Member) : (s.modMember n g).syns = s.syns := rfl
@[simp] theorem State.modMember_outs (s : State) (n : Nat) (g : Member → Member) : (s.modMember n g).outs = s.outs := rfl
@[simp] theorem State.modMember_lanes (s : State) (n : Nat) (g : Member → Member) : (s.modMember n g).lanes = s.lanes := rfl
@[simp] theorem State.modMember_pps (s : State) (n : Nat) (g : Member → Member) : (s.modMember n g).pps = s.pps := rfl
@[simp] theorem State.modMember_tod (s : State) (n : Nat) (g : Member → Member) : (s.modMember n g).tod = s.tod := rfl
@[simp] theorem State.modMember_srcRes (s : State) (n : Nat) (g : Member → Member) : (s.modMember n g).srcRes = s.srcRes := rfl
@[simp] theorem State.modMember_tnd (s : State) (n : Nat) (g : Member → Member) : (s.modMember n g).tnd = s.tnd := rfl
@[simp] theorem State.modMember_gns (s : State) (n : Nat) (g : Member → Member) : (s.modMember n g).gns = s.gns := rfl
@[simp] theorem State.modMember_mac (s : State) (n : Nat) (g : Member → Member) : (s.modMember n g).mac = s.mac := rfl
@[simp] theorem State.modMember_pkt (s : State) (n : Nat) (g : Member → Member) : (s.modMember n g).pkt = s.pkt := rfl
@[simp] theorem State.modMember_cst (s : State) (n : Nat) (g : Member → Member) : (s.modMember n g).cst = s.cst := rfl
@[simp] theorem State.modMember_img (s : State) (n : Nat) (g : Member → Member) : (s.modMember n g).img = s.img := rfl
@[simp] theorem State.modMember_pwr (s : State) (n : Nat) (g : Member → Member) : (s.modMember n g).pwr = s.pwr := rfl
@[simp] theorem State.modMember_dma (s : State) (n : Nat) (g : Member → Member) : (s.modMember n g).dma = s.dma := rfl
@[simp] theorem State.modMember_prf (s : State) (n : Nat) (g : Member → Member) : (s.modMember n g).prf = s.prf := rfl
@[simp] theorem State.modMember_pcie (s : State) (n : Nat) (g : Member → Member) : (s.modMember n g).pcie = s.pcie := rfl
@[simp] theorem State.modMember_flt (s : State) (n : Nat) (g : Member → Member) : (s.modMember n g).flt = s.flt := rfl
@[simp] theorem State.modMember_trace (s : State) (n : Nat) (g : Member → Member) : (s.modMember n g).trace = s.trace := rfl
@[simp] theorem State.modMember_keys (s : State) (n : Nat) (g : Member → Member) : (s.modMember n g).keys = s.keys := rfl
@[simp] theorem State.modMember_faults (s : State) (n : Nat) (g : Member → Member) : (s.modMember n g).faults = s.faults := rfl
@[simp] theorem State.modMember_vecMask (s : State) (n : Nat) (g : Member → Member) : (s.modMember n g).vecMask = s.vecMask := rfl
@[simp] theorem State.modMember_pba (s : State) (n : Nat) (g : Member → Member) : (s.modMember n g).pba = s.pba := rfl
@[simp] theorem State.modMember_tally (s : State) (n : Nat) (g : Member → Member) : (s.modMember n g).tally = s.tally := rfl
@[simp] theorem State.modMember_mem (s : State) (n : Nat) (g : Member → Member) : (s.modMember n g).mem = s.mem := rfl
@[simp] theorem State.modMember_out (s : State) (n : Nat) (g : Member → Member) : (s.modMember n g).out = s.out := rfl
@[simp] theorem State.modMember_free (s : State) (n : Nat) (g : Member → Member) : (s.modMember n g).free = s.free := rfl
@[simp] theorem State.modMember_pending (s : State) (n : Nat) (g : Member → Member) : (s.modMember n g).pending = s.pending := rfl

/-! ### `modMonitor` -/

@[simp] theorem State.modMonitor_regs (s : State) (x : EdgeSrc) (g : Monitor → Monitor) : (s.modMonitor x g).regs = s.regs := rfl
@[simp] theorem State.modMonitor_live (s : State) (x : EdgeSrc) (g : Monitor → Monitor) : (s.modMonitor x g).live = s.live := rfl
@[simp] theorem State.modMonitor_pendSh (s : State) (x : EdgeSrc) (g : Monitor → Monitor) : (s.modMonitor x g).pendSh = s.pendSh := rfl
@[simp] theorem State.modMonitor_shStamp (s : State) (x : EdgeSrc) (g : Monitor → Monitor) : (s.modMonitor x g).shStamp = s.shStamp := rfl
@[simp] theorem State.modMonitor_bankP (s : State) (x : EdgeSrc) (g : Monitor → Monitor) : (s.modMonitor x g).bankP = s.bankP := rfl
@[simp] theorem State.modMonitor_bankI (s : State) (x : EdgeSrc) (g : Monitor → Monitor) : (s.modMonitor x g).bankI = s.bankI := rfl
@[simp] theorem State.modMonitor_rdP (s : State) (x : EdgeSrc) (g : Monitor → Monitor) : (s.modMonitor x g).rdP = s.rdP := rfl
@[simp] theorem State.modMonitor_rdI (s : State) (x : EdgeSrc) (g : Monitor → Monitor) : (s.modMonitor x g).rdI = s.rdI := rfl
@[simp] theorem State.modMonitor_fenceP (s : State) (x : EdgeSrc) (g : Monitor → Monitor) : (s.modMonitor x g).fenceP = s.fenceP := rfl
@[simp] theorem State.modMonitor_fenceI (s : State) (x : EdgeSrc) (g : Monitor → Monitor) : (s.modMonitor x g).fenceI = s.fenceI := rfl
@[simp] theorem State.modMonitor_heldP (s : State) (x : EdgeSrc) (g : Monitor → Monitor) : (s.modMonitor x g).heldP = s.heldP := rfl
@[simp] theorem State.modMonitor_heldI (s : State) (x : EdgeSrc) (g : Monitor → Monitor) : (s.modMonitor x g).heldI = s.heldI := rfl
@[simp] theorem State.modMonitor_chans (s : State) (x : EdgeSrc) (g : Monitor → Monitor) : (s.modMonitor x g).chans = s.chans := rfl
@[simp] theorem State.modMonitor_spn (s : State) (x : EdgeSrc) (g : Monitor → Monitor) : (s.modMonitor x g).spn = s.spn := rfl
@[simp] theorem State.modMonitor_tiuP (s : State) (x : EdgeSrc) (g : Monitor → Monitor) : (s.modMonitor x g).tiuP = s.tiuP := rfl
@[simp] theorem State.modMonitor_tiuL (s : State) (x : EdgeSrc) (g : Monitor → Monitor) : (s.modMonitor x g).tiuL = s.tiuL := rfl
@[simp] theorem State.modMonitor_syns (s : State) (x : EdgeSrc) (g : Monitor → Monitor) : (s.modMonitor x g).syns = s.syns := rfl
@[simp] theorem State.modMonitor_outs (s : State) (x : EdgeSrc) (g : Monitor → Monitor) : (s.modMonitor x g).outs = s.outs := rfl
@[simp] theorem State.modMonitor_lanes (s : State) (x : EdgeSrc) (g : Monitor → Monitor) : (s.modMonitor x g).lanes = s.lanes := rfl
@[simp] theorem State.modMonitor_pps (s : State) (x : EdgeSrc) (g : Monitor → Monitor) : (s.modMonitor x g).pps = s.pps := rfl
@[simp] theorem State.modMonitor_tod (s : State) (x : EdgeSrc) (g : Monitor → Monitor) : (s.modMonitor x g).tod = s.tod := rfl
@[simp] theorem State.modMonitor_ens (s : State) (x : EdgeSrc) (g : Monitor → Monitor) : (s.modMonitor x g).ens = s.ens := rfl
@[simp] theorem State.modMonitor_srcRes (s : State) (x : EdgeSrc) (g : Monitor → Monitor) : (s.modMonitor x g).srcRes = s.srcRes := rfl
@[simp] theorem State.modMonitor_tnd (s : State) (x : EdgeSrc) (g : Monitor → Monitor) : (s.modMonitor x g).tnd = s.tnd := rfl
@[simp] theorem State.modMonitor_gns (s : State) (x : EdgeSrc) (g : Monitor → Monitor) : (s.modMonitor x g).gns = s.gns := rfl
@[simp] theorem State.modMonitor_mac (s : State) (x : EdgeSrc) (g : Monitor → Monitor) : (s.modMonitor x g).mac = s.mac := rfl
@[simp] theorem State.modMonitor_pkt (s : State) (x : EdgeSrc) (g : Monitor → Monitor) : (s.modMonitor x g).pkt = s.pkt := rfl
@[simp] theorem State.modMonitor_cst (s : State) (x : EdgeSrc) (g : Monitor → Monitor) : (s.modMonitor x g).cst = s.cst := rfl
@[simp] theorem State.modMonitor_img (s : State) (x : EdgeSrc) (g : Monitor → Monitor) : (s.modMonitor x g).img = s.img := rfl
@[simp] theorem State.modMonitor_pwr (s : State) (x : EdgeSrc) (g : Monitor → Monitor) : (s.modMonitor x g).pwr = s.pwr := rfl
@[simp] theorem State.modMonitor_dma (s : State) (x : EdgeSrc) (g : Monitor → Monitor) : (s.modMonitor x g).dma = s.dma := rfl
@[simp] theorem State.modMonitor_prf (s : State) (x : EdgeSrc) (g : Monitor → Monitor) : (s.modMonitor x g).prf = s.prf := rfl
@[simp] theorem State.modMonitor_pcie (s : State) (x : EdgeSrc) (g : Monitor → Monitor) : (s.modMonitor x g).pcie = s.pcie := rfl
@[simp] theorem State.modMonitor_flt (s : State) (x : EdgeSrc) (g : Monitor → Monitor) : (s.modMonitor x g).flt = s.flt := rfl
@[simp] theorem State.modMonitor_trace (s : State) (x : EdgeSrc) (g : Monitor → Monitor) : (s.modMonitor x g).trace = s.trace := rfl
@[simp] theorem State.modMonitor_keys (s : State) (x : EdgeSrc) (g : Monitor → Monitor) : (s.modMonitor x g).keys = s.keys := rfl
@[simp] theorem State.modMonitor_faults (s : State) (x : EdgeSrc) (g : Monitor → Monitor) : (s.modMonitor x g).faults = s.faults := rfl
@[simp] theorem State.modMonitor_vecMask (s : State) (x : EdgeSrc) (g : Monitor → Monitor) : (s.modMonitor x g).vecMask = s.vecMask := rfl
@[simp] theorem State.modMonitor_pba (s : State) (x : EdgeSrc) (g : Monitor → Monitor) : (s.modMonitor x g).pba = s.pba := rfl
@[simp] theorem State.modMonitor_tally (s : State) (x : EdgeSrc) (g : Monitor → Monitor) : (s.modMonitor x g).tally = s.tally := rfl
@[simp] theorem State.modMonitor_mem (s : State) (x : EdgeSrc) (g : Monitor → Monitor) : (s.modMonitor x g).mem = s.mem := rfl
@[simp] theorem State.modMonitor_out (s : State) (x : EdgeSrc) (g : Monitor → Monitor) : (s.modMonitor x g).out = s.out := rfl
@[simp] theorem State.modMonitor_free (s : State) (x : EdgeSrc) (g : Monitor → Monitor) : (s.modMonitor x g).free = s.free := rfl
@[simp] theorem State.modMonitor_pending (s : State) (x : EdgeSrc) (g : Monitor → Monitor) : (s.modMonitor x g).pending = s.pending := rfl

/-! ### `modKeys` -/

@[simp] theorem State.modKeys_regs (s : State) (g : Keys → Keys) : (s.modKeys g).regs = s.regs := rfl
@[simp] theorem State.modKeys_live (s : State) (g : Keys → Keys) : (s.modKeys g).live = s.live := rfl
@[simp] theorem State.modKeys_pendSh (s : State) (g : Keys → Keys) : (s.modKeys g).pendSh = s.pendSh := rfl
@[simp] theorem State.modKeys_shStamp (s : State) (g : Keys → Keys) : (s.modKeys g).shStamp = s.shStamp := rfl
@[simp] theorem State.modKeys_bankP (s : State) (g : Keys → Keys) : (s.modKeys g).bankP = s.bankP := rfl
@[simp] theorem State.modKeys_bankI (s : State) (g : Keys → Keys) : (s.modKeys g).bankI = s.bankI := rfl
@[simp] theorem State.modKeys_rdP (s : State) (g : Keys → Keys) : (s.modKeys g).rdP = s.rdP := rfl
@[simp] theorem State.modKeys_rdI (s : State) (g : Keys → Keys) : (s.modKeys g).rdI = s.rdI := rfl
@[simp] theorem State.modKeys_fenceP (s : State) (g : Keys → Keys) : (s.modKeys g).fenceP = s.fenceP := rfl
@[simp] theorem State.modKeys_fenceI (s : State) (g : Keys → Keys) : (s.modKeys g).fenceI = s.fenceI := rfl
@[simp] theorem State.modKeys_heldP (s : State) (g : Keys → Keys) : (s.modKeys g).heldP = s.heldP := rfl
@[simp] theorem State.modKeys_heldI (s : State) (g : Keys → Keys) : (s.modKeys g).heldI = s.heldI := rfl
@[simp] theorem State.modKeys_chans (s : State) (g : Keys → Keys) : (s.modKeys g).chans = s.chans := rfl
@[simp] theorem State.modKeys_spn (s : State) (g : Keys → Keys) : (s.modKeys g).spn = s.spn := rfl
@[simp] theorem State.modKeys_monitors (s : State) (g : Keys → Keys) : (s.modKeys g).monitors = s.monitors := rfl
@[simp] theorem State.modKeys_tiuP (s : State) (g : Keys → Keys) : (s.modKeys g).tiuP = s.tiuP := rfl
@[simp] theorem State.modKeys_tiuL (s : State) (g : Keys → Keys) : (s.modKeys g).tiuL = s.tiuL := rfl
@[simp] theorem State.modKeys_syns (s : State) (g : Keys → Keys) : (s.modKeys g).syns = s.syns := rfl
@[simp] theorem State.modKeys_outs (s : State) (g : Keys → Keys) : (s.modKeys g).outs = s.outs := rfl
@[simp] theorem State.modKeys_lanes (s : State) (g : Keys → Keys) : (s.modKeys g).lanes = s.lanes := rfl
@[simp] theorem State.modKeys_pps (s : State) (g : Keys → Keys) : (s.modKeys g).pps = s.pps := rfl
@[simp] theorem State.modKeys_tod (s : State) (g : Keys → Keys) : (s.modKeys g).tod = s.tod := rfl
@[simp] theorem State.modKeys_ens (s : State) (g : Keys → Keys) : (s.modKeys g).ens = s.ens := rfl
@[simp] theorem State.modKeys_srcRes (s : State) (g : Keys → Keys) : (s.modKeys g).srcRes = s.srcRes := rfl
@[simp] theorem State.modKeys_tnd (s : State) (g : Keys → Keys) : (s.modKeys g).tnd = s.tnd := rfl
@[simp] theorem State.modKeys_gns (s : State) (g : Keys → Keys) : (s.modKeys g).gns = s.gns := rfl
@[simp] theorem State.modKeys_mac (s : State) (g : Keys → Keys) : (s.modKeys g).mac = s.mac := rfl
@[simp] theorem State.modKeys_pkt (s : State) (g : Keys → Keys) : (s.modKeys g).pkt = s.pkt := rfl
@[simp] theorem State.modKeys_cst (s : State) (g : Keys → Keys) : (s.modKeys g).cst = s.cst := rfl
@[simp] theorem State.modKeys_img (s : State) (g : Keys → Keys) : (s.modKeys g).img = s.img := rfl
@[simp] theorem State.modKeys_pwr (s : State) (g : Keys → Keys) : (s.modKeys g).pwr = s.pwr := rfl
@[simp] theorem State.modKeys_dma (s : State) (g : Keys → Keys) : (s.modKeys g).dma = s.dma := rfl
@[simp] theorem State.modKeys_prf (s : State) (g : Keys → Keys) : (s.modKeys g).prf = s.prf := rfl
@[simp] theorem State.modKeys_pcie (s : State) (g : Keys → Keys) : (s.modKeys g).pcie = s.pcie := rfl
@[simp] theorem State.modKeys_flt (s : State) (g : Keys → Keys) : (s.modKeys g).flt = s.flt := rfl
@[simp] theorem State.modKeys_trace (s : State) (g : Keys → Keys) : (s.modKeys g).trace = s.trace := rfl
@[simp] theorem State.modKeys_faults (s : State) (g : Keys → Keys) : (s.modKeys g).faults = s.faults := rfl
@[simp] theorem State.modKeys_vecMask (s : State) (g : Keys → Keys) : (s.modKeys g).vecMask = s.vecMask := rfl
@[simp] theorem State.modKeys_pba (s : State) (g : Keys → Keys) : (s.modKeys g).pba = s.pba := rfl
@[simp] theorem State.modKeys_tally (s : State) (g : Keys → Keys) : (s.modKeys g).tally = s.tally := rfl
@[simp] theorem State.modKeys_mem (s : State) (g : Keys → Keys) : (s.modKeys g).mem = s.mem := rfl
@[simp] theorem State.modKeys_out (s : State) (g : Keys → Keys) : (s.modKeys g).out = s.out := rfl
@[simp] theorem State.modKeys_free (s : State) (g : Keys → Keys) : (s.modKeys g).free = s.free := rfl
@[simp] theorem State.modKeys_pending (s : State) (g : Keys → Keys) : (s.modKeys g).pending = s.pending := rfl

/-! ### `modCst` -/

@[simp] theorem State.modCst_regs (s : State) (g : Cst → Cst) : (s.modCst g).regs = s.regs := rfl
@[simp] theorem State.modCst_live (s : State) (g : Cst → Cst) : (s.modCst g).live = s.live := rfl
@[simp] theorem State.modCst_pendSh (s : State) (g : Cst → Cst) : (s.modCst g).pendSh = s.pendSh := rfl
@[simp] theorem State.modCst_shStamp (s : State) (g : Cst → Cst) : (s.modCst g).shStamp = s.shStamp := rfl
@[simp] theorem State.modCst_bankP (s : State) (g : Cst → Cst) : (s.modCst g).bankP = s.bankP := rfl
@[simp] theorem State.modCst_bankI (s : State) (g : Cst → Cst) : (s.modCst g).bankI = s.bankI := rfl
@[simp] theorem State.modCst_rdP (s : State) (g : Cst → Cst) : (s.modCst g).rdP = s.rdP := rfl
@[simp] theorem State.modCst_rdI (s : State) (g : Cst → Cst) : (s.modCst g).rdI = s.rdI := rfl
@[simp] theorem State.modCst_fenceP (s : State) (g : Cst → Cst) : (s.modCst g).fenceP = s.fenceP := rfl
@[simp] theorem State.modCst_fenceI (s : State) (g : Cst → Cst) : (s.modCst g).fenceI = s.fenceI := rfl
@[simp] theorem State.modCst_heldP (s : State) (g : Cst → Cst) : (s.modCst g).heldP = s.heldP := rfl
@[simp] theorem State.modCst_heldI (s : State) (g : Cst → Cst) : (s.modCst g).heldI = s.heldI := rfl
@[simp] theorem State.modCst_chans (s : State) (g : Cst → Cst) : (s.modCst g).chans = s.chans := rfl
@[simp] theorem State.modCst_spn (s : State) (g : Cst → Cst) : (s.modCst g).spn = s.spn := rfl
@[simp] theorem State.modCst_monitors (s : State) (g : Cst → Cst) : (s.modCst g).monitors = s.monitors := rfl
@[simp] theorem State.modCst_tiuP (s : State) (g : Cst → Cst) : (s.modCst g).tiuP = s.tiuP := rfl
@[simp] theorem State.modCst_tiuL (s : State) (g : Cst → Cst) : (s.modCst g).tiuL = s.tiuL := rfl
@[simp] theorem State.modCst_syns (s : State) (g : Cst → Cst) : (s.modCst g).syns = s.syns := rfl
@[simp] theorem State.modCst_outs (s : State) (g : Cst → Cst) : (s.modCst g).outs = s.outs := rfl
@[simp] theorem State.modCst_lanes (s : State) (g : Cst → Cst) : (s.modCst g).lanes = s.lanes := rfl
@[simp] theorem State.modCst_pps (s : State) (g : Cst → Cst) : (s.modCst g).pps = s.pps := rfl
@[simp] theorem State.modCst_tod (s : State) (g : Cst → Cst) : (s.modCst g).tod = s.tod := rfl
@[simp] theorem State.modCst_ens (s : State) (g : Cst → Cst) : (s.modCst g).ens = s.ens := rfl
@[simp] theorem State.modCst_srcRes (s : State) (g : Cst → Cst) : (s.modCst g).srcRes = s.srcRes := rfl
@[simp] theorem State.modCst_tnd (s : State) (g : Cst → Cst) : (s.modCst g).tnd = s.tnd := rfl
@[simp] theorem State.modCst_gns (s : State) (g : Cst → Cst) : (s.modCst g).gns = s.gns := rfl
@[simp] theorem State.modCst_mac (s : State) (g : Cst → Cst) : (s.modCst g).mac = s.mac := rfl
@[simp] theorem State.modCst_pkt (s : State) (g : Cst → Cst) : (s.modCst g).pkt = s.pkt := rfl
@[simp] theorem State.modCst_img (s : State) (g : Cst → Cst) : (s.modCst g).img = s.img := rfl
@[simp] theorem State.modCst_pwr (s : State) (g : Cst → Cst) : (s.modCst g).pwr = s.pwr := rfl
@[simp] theorem State.modCst_dma (s : State) (g : Cst → Cst) : (s.modCst g).dma = s.dma := rfl
@[simp] theorem State.modCst_prf (s : State) (g : Cst → Cst) : (s.modCst g).prf = s.prf := rfl
@[simp] theorem State.modCst_pcie (s : State) (g : Cst → Cst) : (s.modCst g).pcie = s.pcie := rfl
@[simp] theorem State.modCst_flt (s : State) (g : Cst → Cst) : (s.modCst g).flt = s.flt := rfl
@[simp] theorem State.modCst_trace (s : State) (g : Cst → Cst) : (s.modCst g).trace = s.trace := rfl
@[simp] theorem State.modCst_keys (s : State) (g : Cst → Cst) : (s.modCst g).keys = s.keys := rfl
@[simp] theorem State.modCst_faults (s : State) (g : Cst → Cst) : (s.modCst g).faults = s.faults := rfl
@[simp] theorem State.modCst_vecMask (s : State) (g : Cst → Cst) : (s.modCst g).vecMask = s.vecMask := rfl
@[simp] theorem State.modCst_pba (s : State) (g : Cst → Cst) : (s.modCst g).pba = s.pba := rfl
@[simp] theorem State.modCst_tally (s : State) (g : Cst → Cst) : (s.modCst g).tally = s.tally := rfl
@[simp] theorem State.modCst_mem (s : State) (g : Cst → Cst) : (s.modCst g).mem = s.mem := rfl
@[simp] theorem State.modCst_out (s : State) (g : Cst → Cst) : (s.modCst g).out = s.out := rfl
@[simp] theorem State.modCst_free (s : State) (g : Cst → Cst) : (s.modCst g).free = s.free := rfl
@[simp] theorem State.modCst_pending (s : State) (g : Cst → Cst) : (s.modCst g).pending = s.pending := rfl

/-! ### `modTnd` -/

@[simp] theorem State.modTnd_regs (s : State) (g : Tnd → Tnd) : (s.modTnd g).regs = s.regs := rfl
@[simp] theorem State.modTnd_live (s : State) (g : Tnd → Tnd) : (s.modTnd g).live = s.live := rfl
@[simp] theorem State.modTnd_pendSh (s : State) (g : Tnd → Tnd) : (s.modTnd g).pendSh = s.pendSh := rfl
@[simp] theorem State.modTnd_shStamp (s : State) (g : Tnd → Tnd) : (s.modTnd g).shStamp = s.shStamp := rfl
@[simp] theorem State.modTnd_bankP (s : State) (g : Tnd → Tnd) : (s.modTnd g).bankP = s.bankP := rfl
@[simp] theorem State.modTnd_bankI (s : State) (g : Tnd → Tnd) : (s.modTnd g).bankI = s.bankI := rfl
@[simp] theorem State.modTnd_rdP (s : State) (g : Tnd → Tnd) : (s.modTnd g).rdP = s.rdP := rfl
@[simp] theorem State.modTnd_rdI (s : State) (g : Tnd → Tnd) : (s.modTnd g).rdI = s.rdI := rfl
@[simp] theorem State.modTnd_fenceP (s : State) (g : Tnd → Tnd) : (s.modTnd g).fenceP = s.fenceP := rfl
@[simp] theorem State.modTnd_fenceI (s : State) (g : Tnd → Tnd) : (s.modTnd g).fenceI = s.fenceI := rfl
@[simp] theorem State.modTnd_heldP (s : State) (g : Tnd → Tnd) : (s.modTnd g).heldP = s.heldP := rfl
@[simp] theorem State.modTnd_heldI (s : State) (g : Tnd → Tnd) : (s.modTnd g).heldI = s.heldI := rfl
@[simp] theorem State.modTnd_chans (s : State) (g : Tnd → Tnd) : (s.modTnd g).chans = s.chans := rfl
@[simp] theorem State.modTnd_spn (s : State) (g : Tnd → Tnd) : (s.modTnd g).spn = s.spn := rfl
@[simp] theorem State.modTnd_monitors (s : State) (g : Tnd → Tnd) : (s.modTnd g).monitors = s.monitors := rfl
@[simp] theorem State.modTnd_tiuP (s : State) (g : Tnd → Tnd) : (s.modTnd g).tiuP = s.tiuP := rfl
@[simp] theorem State.modTnd_tiuL (s : State) (g : Tnd → Tnd) : (s.modTnd g).tiuL = s.tiuL := rfl
@[simp] theorem State.modTnd_syns (s : State) (g : Tnd → Tnd) : (s.modTnd g).syns = s.syns := rfl
@[simp] theorem State.modTnd_outs (s : State) (g : Tnd → Tnd) : (s.modTnd g).outs = s.outs := rfl
@[simp] theorem State.modTnd_lanes (s : State) (g : Tnd → Tnd) : (s.modTnd g).lanes = s.lanes := rfl
@[simp] theorem State.modTnd_pps (s : State) (g : Tnd → Tnd) : (s.modTnd g).pps = s.pps := rfl
@[simp] theorem State.modTnd_tod (s : State) (g : Tnd → Tnd) : (s.modTnd g).tod = s.tod := rfl
@[simp] theorem State.modTnd_ens (s : State) (g : Tnd → Tnd) : (s.modTnd g).ens = s.ens := rfl
@[simp] theorem State.modTnd_srcRes (s : State) (g : Tnd → Tnd) : (s.modTnd g).srcRes = s.srcRes := rfl
@[simp] theorem State.modTnd_gns (s : State) (g : Tnd → Tnd) : (s.modTnd g).gns = s.gns := rfl
@[simp] theorem State.modTnd_mac (s : State) (g : Tnd → Tnd) : (s.modTnd g).mac = s.mac := rfl
@[simp] theorem State.modTnd_pkt (s : State) (g : Tnd → Tnd) : (s.modTnd g).pkt = s.pkt := rfl
@[simp] theorem State.modTnd_cst (s : State) (g : Tnd → Tnd) : (s.modTnd g).cst = s.cst := rfl
@[simp] theorem State.modTnd_img (s : State) (g : Tnd → Tnd) : (s.modTnd g).img = s.img := rfl
@[simp] theorem State.modTnd_pwr (s : State) (g : Tnd → Tnd) : (s.modTnd g).pwr = s.pwr := rfl
@[simp] theorem State.modTnd_dma (s : State) (g : Tnd → Tnd) : (s.modTnd g).dma = s.dma := rfl
@[simp] theorem State.modTnd_prf (s : State) (g : Tnd → Tnd) : (s.modTnd g).prf = s.prf := rfl
@[simp] theorem State.modTnd_pcie (s : State) (g : Tnd → Tnd) : (s.modTnd g).pcie = s.pcie := rfl
@[simp] theorem State.modTnd_flt (s : State) (g : Tnd → Tnd) : (s.modTnd g).flt = s.flt := rfl
@[simp] theorem State.modTnd_trace (s : State) (g : Tnd → Tnd) : (s.modTnd g).trace = s.trace := rfl
@[simp] theorem State.modTnd_keys (s : State) (g : Tnd → Tnd) : (s.modTnd g).keys = s.keys := rfl
@[simp] theorem State.modTnd_faults (s : State) (g : Tnd → Tnd) : (s.modTnd g).faults = s.faults := rfl
@[simp] theorem State.modTnd_vecMask (s : State) (g : Tnd → Tnd) : (s.modTnd g).vecMask = s.vecMask := rfl
@[simp] theorem State.modTnd_pba (s : State) (g : Tnd → Tnd) : (s.modTnd g).pba = s.pba := rfl
@[simp] theorem State.modTnd_tally (s : State) (g : Tnd → Tnd) : (s.modTnd g).tally = s.tally := rfl
@[simp] theorem State.modTnd_mem (s : State) (g : Tnd → Tnd) : (s.modTnd g).mem = s.mem := rfl
@[simp] theorem State.modTnd_out (s : State) (g : Tnd → Tnd) : (s.modTnd g).out = s.out := rfl
@[simp] theorem State.modTnd_free (s : State) (g : Tnd → Tnd) : (s.modTnd g).free = s.free := rfl
@[simp] theorem State.modTnd_pending (s : State) (g : Tnd → Tnd) : (s.modTnd g).pending = s.pending := rfl

/-! ### `modPort` -/

@[simp] theorem State.modPort_regs (s : State) (p : Nat) (g : MacPort → MacPort) : (s.modPort p g).regs = s.regs := rfl
@[simp] theorem State.modPort_live (s : State) (p : Nat) (g : MacPort → MacPort) : (s.modPort p g).live = s.live := rfl
@[simp] theorem State.modPort_pendSh (s : State) (p : Nat) (g : MacPort → MacPort) : (s.modPort p g).pendSh = s.pendSh := rfl
@[simp] theorem State.modPort_shStamp (s : State) (p : Nat) (g : MacPort → MacPort) : (s.modPort p g).shStamp = s.shStamp := rfl
@[simp] theorem State.modPort_bankP (s : State) (p : Nat) (g : MacPort → MacPort) : (s.modPort p g).bankP = s.bankP := rfl
@[simp] theorem State.modPort_bankI (s : State) (p : Nat) (g : MacPort → MacPort) : (s.modPort p g).bankI = s.bankI := rfl
@[simp] theorem State.modPort_rdP (s : State) (p : Nat) (g : MacPort → MacPort) : (s.modPort p g).rdP = s.rdP := rfl
@[simp] theorem State.modPort_rdI (s : State) (p : Nat) (g : MacPort → MacPort) : (s.modPort p g).rdI = s.rdI := rfl
@[simp] theorem State.modPort_fenceP (s : State) (p : Nat) (g : MacPort → MacPort) : (s.modPort p g).fenceP = s.fenceP := rfl
@[simp] theorem State.modPort_fenceI (s : State) (p : Nat) (g : MacPort → MacPort) : (s.modPort p g).fenceI = s.fenceI := rfl
@[simp] theorem State.modPort_heldP (s : State) (p : Nat) (g : MacPort → MacPort) : (s.modPort p g).heldP = s.heldP := rfl
@[simp] theorem State.modPort_heldI (s : State) (p : Nat) (g : MacPort → MacPort) : (s.modPort p g).heldI = s.heldI := rfl
@[simp] theorem State.modPort_chans (s : State) (p : Nat) (g : MacPort → MacPort) : (s.modPort p g).chans = s.chans := rfl
@[simp] theorem State.modPort_spn (s : State) (p : Nat) (g : MacPort → MacPort) : (s.modPort p g).spn = s.spn := rfl
@[simp] theorem State.modPort_monitors (s : State) (p : Nat) (g : MacPort → MacPort) : (s.modPort p g).monitors = s.monitors := rfl
@[simp] theorem State.modPort_tiuP (s : State) (p : Nat) (g : MacPort → MacPort) : (s.modPort p g).tiuP = s.tiuP := rfl
@[simp] theorem State.modPort_tiuL (s : State) (p : Nat) (g : MacPort → MacPort) : (s.modPort p g).tiuL = s.tiuL := rfl
@[simp] theorem State.modPort_syns (s : State) (p : Nat) (g : MacPort → MacPort) : (s.modPort p g).syns = s.syns := rfl
@[simp] theorem State.modPort_outs (s : State) (p : Nat) (g : MacPort → MacPort) : (s.modPort p g).outs = s.outs := rfl
@[simp] theorem State.modPort_lanes (s : State) (p : Nat) (g : MacPort → MacPort) : (s.modPort p g).lanes = s.lanes := rfl
@[simp] theorem State.modPort_pps (s : State) (p : Nat) (g : MacPort → MacPort) : (s.modPort p g).pps = s.pps := rfl
@[simp] theorem State.modPort_tod (s : State) (p : Nat) (g : MacPort → MacPort) : (s.modPort p g).tod = s.tod := rfl
@[simp] theorem State.modPort_ens (s : State) (p : Nat) (g : MacPort → MacPort) : (s.modPort p g).ens = s.ens := rfl
@[simp] theorem State.modPort_srcRes (s : State) (p : Nat) (g : MacPort → MacPort) : (s.modPort p g).srcRes = s.srcRes := rfl
@[simp] theorem State.modPort_tnd (s : State) (p : Nat) (g : MacPort → MacPort) : (s.modPort p g).tnd = s.tnd := rfl
@[simp] theorem State.modPort_gns (s : State) (p : Nat) (g : MacPort → MacPort) : (s.modPort p g).gns = s.gns := rfl
@[simp] theorem State.modPort_pkt (s : State) (p : Nat) (g : MacPort → MacPort) : (s.modPort p g).pkt = s.pkt := rfl
@[simp] theorem State.modPort_cst (s : State) (p : Nat) (g : MacPort → MacPort) : (s.modPort p g).cst = s.cst := rfl
@[simp] theorem State.modPort_img (s : State) (p : Nat) (g : MacPort → MacPort) : (s.modPort p g).img = s.img := rfl
@[simp] theorem State.modPort_pwr (s : State) (p : Nat) (g : MacPort → MacPort) : (s.modPort p g).pwr = s.pwr := rfl
@[simp] theorem State.modPort_dma (s : State) (p : Nat) (g : MacPort → MacPort) : (s.modPort p g).dma = s.dma := rfl
@[simp] theorem State.modPort_prf (s : State) (p : Nat) (g : MacPort → MacPort) : (s.modPort p g).prf = s.prf := rfl
@[simp] theorem State.modPort_pcie (s : State) (p : Nat) (g : MacPort → MacPort) : (s.modPort p g).pcie = s.pcie := rfl
@[simp] theorem State.modPort_flt (s : State) (p : Nat) (g : MacPort → MacPort) : (s.modPort p g).flt = s.flt := rfl
@[simp] theorem State.modPort_trace (s : State) (p : Nat) (g : MacPort → MacPort) : (s.modPort p g).trace = s.trace := rfl
@[simp] theorem State.modPort_keys (s : State) (p : Nat) (g : MacPort → MacPort) : (s.modPort p g).keys = s.keys := rfl
@[simp] theorem State.modPort_faults (s : State) (p : Nat) (g : MacPort → MacPort) : (s.modPort p g).faults = s.faults := rfl
@[simp] theorem State.modPort_vecMask (s : State) (p : Nat) (g : MacPort → MacPort) : (s.modPort p g).vecMask = s.vecMask := rfl
@[simp] theorem State.modPort_pba (s : State) (p : Nat) (g : MacPort → MacPort) : (s.modPort p g).pba = s.pba := rfl
@[simp] theorem State.modPort_tally (s : State) (p : Nat) (g : MacPort → MacPort) : (s.modPort p g).tally = s.tally := rfl
@[simp] theorem State.modPort_mem (s : State) (p : Nat) (g : MacPort → MacPort) : (s.modPort p g).mem = s.mem := rfl
@[simp] theorem State.modPort_out (s : State) (p : Nat) (g : MacPort → MacPort) : (s.modPort p g).out = s.out := rfl
@[simp] theorem State.modPort_free (s : State) (p : Nat) (g : MacPort → MacPort) : (s.modPort p g).free = s.free := rfl
@[simp] theorem State.modPort_pending (s : State) (p : Nat) (g : MacPort → MacPort) : (s.modPort p g).pending = s.pending := rfl

/-! ### `modImg` -/

@[simp] theorem State.modImg_regs (s : State) (g : Img → Img) : (s.modImg g).regs = s.regs := rfl
@[simp] theorem State.modImg_live (s : State) (g : Img → Img) : (s.modImg g).live = s.live := rfl
@[simp] theorem State.modImg_pendSh (s : State) (g : Img → Img) : (s.modImg g).pendSh = s.pendSh := rfl
@[simp] theorem State.modImg_shStamp (s : State) (g : Img → Img) : (s.modImg g).shStamp = s.shStamp := rfl
@[simp] theorem State.modImg_bankP (s : State) (g : Img → Img) : (s.modImg g).bankP = s.bankP := rfl
@[simp] theorem State.modImg_bankI (s : State) (g : Img → Img) : (s.modImg g).bankI = s.bankI := rfl
@[simp] theorem State.modImg_rdP (s : State) (g : Img → Img) : (s.modImg g).rdP = s.rdP := rfl
@[simp] theorem State.modImg_rdI (s : State) (g : Img → Img) : (s.modImg g).rdI = s.rdI := rfl
@[simp] theorem State.modImg_fenceP (s : State) (g : Img → Img) : (s.modImg g).fenceP = s.fenceP := rfl
@[simp] theorem State.modImg_fenceI (s : State) (g : Img → Img) : (s.modImg g).fenceI = s.fenceI := rfl
@[simp] theorem State.modImg_heldP (s : State) (g : Img → Img) : (s.modImg g).heldP = s.heldP := rfl
@[simp] theorem State.modImg_heldI (s : State) (g : Img → Img) : (s.modImg g).heldI = s.heldI := rfl
@[simp] theorem State.modImg_chans (s : State) (g : Img → Img) : (s.modImg g).chans = s.chans := rfl
@[simp] theorem State.modImg_spn (s : State) (g : Img → Img) : (s.modImg g).spn = s.spn := rfl
@[simp] theorem State.modImg_monitors (s : State) (g : Img → Img) : (s.modImg g).monitors = s.monitors := rfl
@[simp] theorem State.modImg_tiuP (s : State) (g : Img → Img) : (s.modImg g).tiuP = s.tiuP := rfl
@[simp] theorem State.modImg_tiuL (s : State) (g : Img → Img) : (s.modImg g).tiuL = s.tiuL := rfl
@[simp] theorem State.modImg_syns (s : State) (g : Img → Img) : (s.modImg g).syns = s.syns := rfl
@[simp] theorem State.modImg_outs (s : State) (g : Img → Img) : (s.modImg g).outs = s.outs := rfl
@[simp] theorem State.modImg_lanes (s : State) (g : Img → Img) : (s.modImg g).lanes = s.lanes := rfl
@[simp] theorem State.modImg_pps (s : State) (g : Img → Img) : (s.modImg g).pps = s.pps := rfl
@[simp] theorem State.modImg_tod (s : State) (g : Img → Img) : (s.modImg g).tod = s.tod := rfl
@[simp] theorem State.modImg_ens (s : State) (g : Img → Img) : (s.modImg g).ens = s.ens := rfl
@[simp] theorem State.modImg_srcRes (s : State) (g : Img → Img) : (s.modImg g).srcRes = s.srcRes := rfl
@[simp] theorem State.modImg_tnd (s : State) (g : Img → Img) : (s.modImg g).tnd = s.tnd := rfl
@[simp] theorem State.modImg_gns (s : State) (g : Img → Img) : (s.modImg g).gns = s.gns := rfl
@[simp] theorem State.modImg_mac (s : State) (g : Img → Img) : (s.modImg g).mac = s.mac := rfl
@[simp] theorem State.modImg_pkt (s : State) (g : Img → Img) : (s.modImg g).pkt = s.pkt := rfl
@[simp] theorem State.modImg_cst (s : State) (g : Img → Img) : (s.modImg g).cst = s.cst := rfl
@[simp] theorem State.modImg_pwr (s : State) (g : Img → Img) : (s.modImg g).pwr = s.pwr := rfl
@[simp] theorem State.modImg_dma (s : State) (g : Img → Img) : (s.modImg g).dma = s.dma := rfl
@[simp] theorem State.modImg_prf (s : State) (g : Img → Img) : (s.modImg g).prf = s.prf := rfl
@[simp] theorem State.modImg_pcie (s : State) (g : Img → Img) : (s.modImg g).pcie = s.pcie := rfl
@[simp] theorem State.modImg_flt (s : State) (g : Img → Img) : (s.modImg g).flt = s.flt := rfl
@[simp] theorem State.modImg_trace (s : State) (g : Img → Img) : (s.modImg g).trace = s.trace := rfl
@[simp] theorem State.modImg_keys (s : State) (g : Img → Img) : (s.modImg g).keys = s.keys := rfl
@[simp] theorem State.modImg_faults (s : State) (g : Img → Img) : (s.modImg g).faults = s.faults := rfl
@[simp] theorem State.modImg_vecMask (s : State) (g : Img → Img) : (s.modImg g).vecMask = s.vecMask := rfl
@[simp] theorem State.modImg_pba (s : State) (g : Img → Img) : (s.modImg g).pba = s.pba := rfl
@[simp] theorem State.modImg_tally (s : State) (g : Img → Img) : (s.modImg g).tally = s.tally := rfl
@[simp] theorem State.modImg_mem (s : State) (g : Img → Img) : (s.modImg g).mem = s.mem := rfl
@[simp] theorem State.modImg_out (s : State) (g : Img → Img) : (s.modImg g).out = s.out := rfl
@[simp] theorem State.modImg_free (s : State) (g : Img → Img) : (s.modImg g).free = s.free := rfl
@[simp] theorem State.modImg_pending (s : State) (g : Img → Img) : (s.modImg g).pending = s.pending := rfl

/-! ### `modGns` -/

@[simp] theorem State.modGns_regs (s : State) (g : Gns → Gns) : (s.modGns g).regs = s.regs := rfl
@[simp] theorem State.modGns_live (s : State) (g : Gns → Gns) : (s.modGns g).live = s.live := rfl
@[simp] theorem State.modGns_pendSh (s : State) (g : Gns → Gns) : (s.modGns g).pendSh = s.pendSh := rfl
@[simp] theorem State.modGns_shStamp (s : State) (g : Gns → Gns) : (s.modGns g).shStamp = s.shStamp := rfl
@[simp] theorem State.modGns_bankP (s : State) (g : Gns → Gns) : (s.modGns g).bankP = s.bankP := rfl
@[simp] theorem State.modGns_bankI (s : State) (g : Gns → Gns) : (s.modGns g).bankI = s.bankI := rfl
@[simp] theorem State.modGns_rdP (s : State) (g : Gns → Gns) : (s.modGns g).rdP = s.rdP := rfl
@[simp] theorem State.modGns_rdI (s : State) (g : Gns → Gns) : (s.modGns g).rdI = s.rdI := rfl
@[simp] theorem State.modGns_fenceP (s : State) (g : Gns → Gns) : (s.modGns g).fenceP = s.fenceP := rfl
@[simp] theorem State.modGns_fenceI (s : State) (g : Gns → Gns) : (s.modGns g).fenceI = s.fenceI := rfl
@[simp] theorem State.modGns_heldP (s : State) (g : Gns → Gns) : (s.modGns g).heldP = s.heldP := rfl
@[simp] theorem State.modGns_heldI (s : State) (g : Gns → Gns) : (s.modGns g).heldI = s.heldI := rfl
@[simp] theorem State.modGns_chans (s : State) (g : Gns → Gns) : (s.modGns g).chans = s.chans := rfl
@[simp] theorem State.modGns_spn (s : State) (g : Gns → Gns) : (s.modGns g).spn = s.spn := rfl
@[simp] theorem State.modGns_monitors (s : State) (g : Gns → Gns) : (s.modGns g).monitors = s.monitors := rfl
@[simp] theorem State.modGns_tiuP (s : State) (g : Gns → Gns) : (s.modGns g).tiuP = s.tiuP := rfl
@[simp] theorem State.modGns_tiuL (s : State) (g : Gns → Gns) : (s.modGns g).tiuL = s.tiuL := rfl
@[simp] theorem State.modGns_syns (s : State) (g : Gns → Gns) : (s.modGns g).syns = s.syns := rfl
@[simp] theorem State.modGns_outs (s : State) (g : Gns → Gns) : (s.modGns g).outs = s.outs := rfl
@[simp] theorem State.modGns_lanes (s : State) (g : Gns → Gns) : (s.modGns g).lanes = s.lanes := rfl
@[simp] theorem State.modGns_pps (s : State) (g : Gns → Gns) : (s.modGns g).pps = s.pps := rfl
@[simp] theorem State.modGns_tod (s : State) (g : Gns → Gns) : (s.modGns g).tod = s.tod := rfl
@[simp] theorem State.modGns_ens (s : State) (g : Gns → Gns) : (s.modGns g).ens = s.ens := rfl
@[simp] theorem State.modGns_srcRes (s : State) (g : Gns → Gns) : (s.modGns g).srcRes = s.srcRes := rfl
@[simp] theorem State.modGns_tnd (s : State) (g : Gns → Gns) : (s.modGns g).tnd = s.tnd := rfl
@[simp] theorem State.modGns_mac (s : State) (g : Gns → Gns) : (s.modGns g).mac = s.mac := rfl
@[simp] theorem State.modGns_pkt (s : State) (g : Gns → Gns) : (s.modGns g).pkt = s.pkt := rfl
@[simp] theorem State.modGns_cst (s : State) (g : Gns → Gns) : (s.modGns g).cst = s.cst := rfl
@[simp] theorem State.modGns_img (s : State) (g : Gns → Gns) : (s.modGns g).img = s.img := rfl
@[simp] theorem State.modGns_pwr (s : State) (g : Gns → Gns) : (s.modGns g).pwr = s.pwr := rfl
@[simp] theorem State.modGns_dma (s : State) (g : Gns → Gns) : (s.modGns g).dma = s.dma := rfl
@[simp] theorem State.modGns_prf (s : State) (g : Gns → Gns) : (s.modGns g).prf = s.prf := rfl
@[simp] theorem State.modGns_pcie (s : State) (g : Gns → Gns) : (s.modGns g).pcie = s.pcie := rfl
@[simp] theorem State.modGns_flt (s : State) (g : Gns → Gns) : (s.modGns g).flt = s.flt := rfl
@[simp] theorem State.modGns_trace (s : State) (g : Gns → Gns) : (s.modGns g).trace = s.trace := rfl
@[simp] theorem State.modGns_keys (s : State) (g : Gns → Gns) : (s.modGns g).keys = s.keys := rfl
@[simp] theorem State.modGns_faults (s : State) (g : Gns → Gns) : (s.modGns g).faults = s.faults := rfl
@[simp] theorem State.modGns_vecMask (s : State) (g : Gns → Gns) : (s.modGns g).vecMask = s.vecMask := rfl
@[simp] theorem State.modGns_pba (s : State) (g : Gns → Gns) : (s.modGns g).pba = s.pba := rfl
@[simp] theorem State.modGns_tally (s : State) (g : Gns → Gns) : (s.modGns g).tally = s.tally := rfl
@[simp] theorem State.modGns_mem (s : State) (g : Gns → Gns) : (s.modGns g).mem = s.mem := rfl
@[simp] theorem State.modGns_out (s : State) (g : Gns → Gns) : (s.modGns g).out = s.out := rfl
@[simp] theorem State.modGns_free (s : State) (g : Gns → Gns) : (s.modGns g).free = s.free := rfl
@[simp] theorem State.modGns_pending (s : State) (g : Gns → Gns) : (s.modGns g).pending = s.pending := rfl

/-! ### `modCli` -/

@[simp] theorem State.modCli_regs (s : State) (k : Nat) (g : Client → Client) : (s.modCli k g).regs = s.regs := rfl
@[simp] theorem State.modCli_live (s : State) (k : Nat) (g : Client → Client) : (s.modCli k g).live = s.live := rfl
@[simp] theorem State.modCli_pendSh (s : State) (k : Nat) (g : Client → Client) : (s.modCli k g).pendSh = s.pendSh := rfl
@[simp] theorem State.modCli_shStamp (s : State) (k : Nat) (g : Client → Client) : (s.modCli k g).shStamp = s.shStamp := rfl
@[simp] theorem State.modCli_bankP (s : State) (k : Nat) (g : Client → Client) : (s.modCli k g).bankP = s.bankP := rfl
@[simp] theorem State.modCli_bankI (s : State) (k : Nat) (g : Client → Client) : (s.modCli k g).bankI = s.bankI := rfl
@[simp] theorem State.modCli_rdP (s : State) (k : Nat) (g : Client → Client) : (s.modCli k g).rdP = s.rdP := rfl
@[simp] theorem State.modCli_rdI (s : State) (k : Nat) (g : Client → Client) : (s.modCli k g).rdI = s.rdI := rfl
@[simp] theorem State.modCli_fenceP (s : State) (k : Nat) (g : Client → Client) : (s.modCli k g).fenceP = s.fenceP := rfl
@[simp] theorem State.modCli_fenceI (s : State) (k : Nat) (g : Client → Client) : (s.modCli k g).fenceI = s.fenceI := rfl
@[simp] theorem State.modCli_heldP (s : State) (k : Nat) (g : Client → Client) : (s.modCli k g).heldP = s.heldP := rfl
@[simp] theorem State.modCli_heldI (s : State) (k : Nat) (g : Client → Client) : (s.modCli k g).heldI = s.heldI := rfl
@[simp] theorem State.modCli_chans (s : State) (k : Nat) (g : Client → Client) : (s.modCli k g).chans = s.chans := rfl
@[simp] theorem State.modCli_spn (s : State) (k : Nat) (g : Client → Client) : (s.modCli k g).spn = s.spn := rfl
@[simp] theorem State.modCli_monitors (s : State) (k : Nat) (g : Client → Client) : (s.modCli k g).monitors = s.monitors := rfl
@[simp] theorem State.modCli_tiuP (s : State) (k : Nat) (g : Client → Client) : (s.modCli k g).tiuP = s.tiuP := rfl
@[simp] theorem State.modCli_tiuL (s : State) (k : Nat) (g : Client → Client) : (s.modCli k g).tiuL = s.tiuL := rfl
@[simp] theorem State.modCli_syns (s : State) (k : Nat) (g : Client → Client) : (s.modCli k g).syns = s.syns := rfl
@[simp] theorem State.modCli_outs (s : State) (k : Nat) (g : Client → Client) : (s.modCli k g).outs = s.outs := rfl
@[simp] theorem State.modCli_lanes (s : State) (k : Nat) (g : Client → Client) : (s.modCli k g).lanes = s.lanes := rfl
@[simp] theorem State.modCli_pps (s : State) (k : Nat) (g : Client → Client) : (s.modCli k g).pps = s.pps := rfl
@[simp] theorem State.modCli_tod (s : State) (k : Nat) (g : Client → Client) : (s.modCli k g).tod = s.tod := rfl
@[simp] theorem State.modCli_ens (s : State) (k : Nat) (g : Client → Client) : (s.modCli k g).ens = s.ens := rfl
@[simp] theorem State.modCli_srcRes (s : State) (k : Nat) (g : Client → Client) : (s.modCli k g).srcRes = s.srcRes := rfl
@[simp] theorem State.modCli_tnd (s : State) (k : Nat) (g : Client → Client) : (s.modCli k g).tnd = s.tnd := rfl
@[simp] theorem State.modCli_gns (s : State) (k : Nat) (g : Client → Client) : (s.modCli k g).gns = s.gns := rfl
@[simp] theorem State.modCli_mac (s : State) (k : Nat) (g : Client → Client) : (s.modCli k g).mac = s.mac := rfl
@[simp] theorem State.modCli_cst (s : State) (k : Nat) (g : Client → Client) : (s.modCli k g).cst = s.cst := rfl
@[simp] theorem State.modCli_img (s : State) (k : Nat) (g : Client → Client) : (s.modCli k g).img = s.img := rfl
@[simp] theorem State.modCli_pwr (s : State) (k : Nat) (g : Client → Client) : (s.modCli k g).pwr = s.pwr := rfl
@[simp] theorem State.modCli_dma (s : State) (k : Nat) (g : Client → Client) : (s.modCli k g).dma = s.dma := rfl
@[simp] theorem State.modCli_prf (s : State) (k : Nat) (g : Client → Client) : (s.modCli k g).prf = s.prf := rfl
@[simp] theorem State.modCli_pcie (s : State) (k : Nat) (g : Client → Client) : (s.modCli k g).pcie = s.pcie := rfl
@[simp] theorem State.modCli_flt (s : State) (k : Nat) (g : Client → Client) : (s.modCli k g).flt = s.flt := rfl
@[simp] theorem State.modCli_trace (s : State) (k : Nat) (g : Client → Client) : (s.modCli k g).trace = s.trace := rfl
@[simp] theorem State.modCli_keys (s : State) (k : Nat) (g : Client → Client) : (s.modCli k g).keys = s.keys := rfl
@[simp] theorem State.modCli_faults (s : State) (k : Nat) (g : Client → Client) : (s.modCli k g).faults = s.faults := rfl
@[simp] theorem State.modCli_vecMask (s : State) (k : Nat) (g : Client → Client) : (s.modCli k g).vecMask = s.vecMask := rfl
@[simp] theorem State.modCli_pba (s : State) (k : Nat) (g : Client → Client) : (s.modCli k g).pba = s.pba := rfl
@[simp] theorem State.modCli_tally (s : State) (k : Nat) (g : Client → Client) : (s.modCli k g).tally = s.tally := rfl
@[simp] theorem State.modCli_mem (s : State) (k : Nat) (g : Client → Client) : (s.modCli k g).mem = s.mem := rfl
@[simp] theorem State.modCli_out (s : State) (k : Nat) (g : Client → Client) : (s.modCli k g).out = s.out := rfl
@[simp] theorem State.modCli_free (s : State) (k : Nat) (g : Client → Client) : (s.modCli k g).free = s.free := rfl
@[simp] theorem State.modCli_pending (s : State) (k : Nat) (g : Client → Client) : (s.modCli k g).pending = s.pending := rfl

/-! ### `modSyn` -/

@[simp] theorem State.modSyn_regs (s : State) (k : Nat) (g : Syn → Syn) : (s.modSyn k g).regs = s.regs := rfl
@[simp] theorem State.modSyn_live (s : State) (k : Nat) (g : Syn → Syn) : (s.modSyn k g).live = s.live := rfl
@[simp] theorem State.modSyn_pendSh (s : State) (k : Nat) (g : Syn → Syn) : (s.modSyn k g).pendSh = s.pendSh := rfl
@[simp] theorem State.modSyn_shStamp (s : State) (k : Nat) (g : Syn → Syn) : (s.modSyn k g).shStamp = s.shStamp := rfl
@[simp] theorem State.modSyn_bankP (s : State) (k : Nat) (g : Syn → Syn) : (s.modSyn k g).bankP = s.bankP := rfl
@[simp] theorem State.modSyn_bankI (s : State) (k : Nat) (g : Syn → Syn) : (s.modSyn k g).bankI = s.bankI := rfl
@[simp] theorem State.modSyn_rdP (s : State) (k : Nat) (g : Syn → Syn) : (s.modSyn k g).rdP = s.rdP := rfl
@[simp] theorem State.modSyn_rdI (s : State) (k : Nat) (g : Syn → Syn) : (s.modSyn k g).rdI = s.rdI := rfl
@[simp] theorem State.modSyn_fenceP (s : State) (k : Nat) (g : Syn → Syn) : (s.modSyn k g).fenceP = s.fenceP := rfl
@[simp] theorem State.modSyn_fenceI (s : State) (k : Nat) (g : Syn → Syn) : (s.modSyn k g).fenceI = s.fenceI := rfl
@[simp] theorem State.modSyn_heldP (s : State) (k : Nat) (g : Syn → Syn) : (s.modSyn k g).heldP = s.heldP := rfl
@[simp] theorem State.modSyn_heldI (s : State) (k : Nat) (g : Syn → Syn) : (s.modSyn k g).heldI = s.heldI := rfl
@[simp] theorem State.modSyn_chans (s : State) (k : Nat) (g : Syn → Syn) : (s.modSyn k g).chans = s.chans := rfl
@[simp] theorem State.modSyn_spn (s : State) (k : Nat) (g : Syn → Syn) : (s.modSyn k g).spn = s.spn := rfl
@[simp] theorem State.modSyn_monitors (s : State) (k : Nat) (g : Syn → Syn) : (s.modSyn k g).monitors = s.monitors := rfl
@[simp] theorem State.modSyn_tiuP (s : State) (k : Nat) (g : Syn → Syn) : (s.modSyn k g).tiuP = s.tiuP := rfl
@[simp] theorem State.modSyn_tiuL (s : State) (k : Nat) (g : Syn → Syn) : (s.modSyn k g).tiuL = s.tiuL := rfl
@[simp] theorem State.modSyn_outs (s : State) (k : Nat) (g : Syn → Syn) : (s.modSyn k g).outs = s.outs := rfl
@[simp] theorem State.modSyn_lanes (s : State) (k : Nat) (g : Syn → Syn) : (s.modSyn k g).lanes = s.lanes := rfl
@[simp] theorem State.modSyn_pps (s : State) (k : Nat) (g : Syn → Syn) : (s.modSyn k g).pps = s.pps := rfl
@[simp] theorem State.modSyn_tod (s : State) (k : Nat) (g : Syn → Syn) : (s.modSyn k g).tod = s.tod := rfl
@[simp] theorem State.modSyn_ens (s : State) (k : Nat) (g : Syn → Syn) : (s.modSyn k g).ens = s.ens := rfl
@[simp] theorem State.modSyn_srcRes (s : State) (k : Nat) (g : Syn → Syn) : (s.modSyn k g).srcRes = s.srcRes := rfl
@[simp] theorem State.modSyn_tnd (s : State) (k : Nat) (g : Syn → Syn) : (s.modSyn k g).tnd = s.tnd := rfl
@[simp] theorem State.modSyn_gns (s : State) (k : Nat) (g : Syn → Syn) : (s.modSyn k g).gns = s.gns := rfl
@[simp] theorem State.modSyn_mac (s : State) (k : Nat) (g : Syn → Syn) : (s.modSyn k g).mac = s.mac := rfl
@[simp] theorem State.modSyn_pkt (s : State) (k : Nat) (g : Syn → Syn) : (s.modSyn k g).pkt = s.pkt := rfl
@[simp] theorem State.modSyn_cst (s : State) (k : Nat) (g : Syn → Syn) : (s.modSyn k g).cst = s.cst := rfl
@[simp] theorem State.modSyn_img (s : State) (k : Nat) (g : Syn → Syn) : (s.modSyn k g).img = s.img := rfl
@[simp] theorem State.modSyn_pwr (s : State) (k : Nat) (g : Syn → Syn) : (s.modSyn k g).pwr = s.pwr := rfl
@[simp] theorem State.modSyn_dma (s : State) (k : Nat) (g : Syn → Syn) : (s.modSyn k g).dma = s.dma := rfl
@[simp] theorem State.modSyn_prf (s : State) (k : Nat) (g : Syn → Syn) : (s.modSyn k g).prf = s.prf := rfl
@[simp] theorem State.modSyn_pcie (s : State) (k : Nat) (g : Syn → Syn) : (s.modSyn k g).pcie = s.pcie := rfl
@[simp] theorem State.modSyn_flt (s : State) (k : Nat) (g : Syn → Syn) : (s.modSyn k g).flt = s.flt := rfl
@[simp] theorem State.modSyn_trace (s : State) (k : Nat) (g : Syn → Syn) : (s.modSyn k g).trace = s.trace := rfl
@[simp] theorem State.modSyn_keys (s : State) (k : Nat) (g : Syn → Syn) : (s.modSyn k g).keys = s.keys := rfl
@[simp] theorem State.modSyn_faults (s : State) (k : Nat) (g : Syn → Syn) : (s.modSyn k g).faults = s.faults := rfl
@[simp] theorem State.modSyn_vecMask (s : State) (k : Nat) (g : Syn → Syn) : (s.modSyn k g).vecMask = s.vecMask := rfl
@[simp] theorem State.modSyn_pba (s : State) (k : Nat) (g : Syn → Syn) : (s.modSyn k g).pba = s.pba := rfl
@[simp] theorem State.modSyn_tally (s : State) (k : Nat) (g : Syn → Syn) : (s.modSyn k g).tally = s.tally := rfl
@[simp] theorem State.modSyn_mem (s : State) (k : Nat) (g : Syn → Syn) : (s.modSyn k g).mem = s.mem := rfl
@[simp] theorem State.modSyn_out (s : State) (k : Nat) (g : Syn → Syn) : (s.modSyn k g).out = s.out := rfl
@[simp] theorem State.modSyn_free (s : State) (k : Nat) (g : Syn → Syn) : (s.modSyn k g).free = s.free := rfl
@[simp] theorem State.modSyn_pending (s : State) (k : Nat) (g : Syn → Syn) : (s.modSyn k g).pending = s.pending := rfl

/-! ### `setWaves` -/

@[simp] theorem State.setWaves_regs (s : State) (j : Nat) (ws : List Wave) : (s.setWaves j ws).regs = s.regs := rfl
@[simp] theorem State.setWaves_live (s : State) (j : Nat) (ws : List Wave) : (s.setWaves j ws).live = s.live := rfl
@[simp] theorem State.setWaves_pendSh (s : State) (j : Nat) (ws : List Wave) : (s.setWaves j ws).pendSh = s.pendSh := rfl
@[simp] theorem State.setWaves_shStamp (s : State) (j : Nat) (ws : List Wave) : (s.setWaves j ws).shStamp = s.shStamp := rfl
@[simp] theorem State.setWaves_bankP (s : State) (j : Nat) (ws : List Wave) : (s.setWaves j ws).bankP = s.bankP := rfl
@[simp] theorem State.setWaves_bankI (s : State) (j : Nat) (ws : List Wave) : (s.setWaves j ws).bankI = s.bankI := rfl
@[simp] theorem State.setWaves_rdP (s : State) (j : Nat) (ws : List Wave) : (s.setWaves j ws).rdP = s.rdP := rfl
@[simp] theorem State.setWaves_rdI (s : State) (j : Nat) (ws : List Wave) : (s.setWaves j ws).rdI = s.rdI := rfl
@[simp] theorem State.setWaves_fenceP (s : State) (j : Nat) (ws : List Wave) : (s.setWaves j ws).fenceP = s.fenceP := rfl
@[simp] theorem State.setWaves_fenceI (s : State) (j : Nat) (ws : List Wave) : (s.setWaves j ws).fenceI = s.fenceI := rfl
@[simp] theorem State.setWaves_heldP (s : State) (j : Nat) (ws : List Wave) : (s.setWaves j ws).heldP = s.heldP := rfl
@[simp] theorem State.setWaves_heldI (s : State) (j : Nat) (ws : List Wave) : (s.setWaves j ws).heldI = s.heldI := rfl
@[simp] theorem State.setWaves_chans (s : State) (j : Nat) (ws : List Wave) : (s.setWaves j ws).chans = s.chans := rfl
@[simp] theorem State.setWaves_spn (s : State) (j : Nat) (ws : List Wave) : (s.setWaves j ws).spn = s.spn := rfl
@[simp] theorem State.setWaves_monitors (s : State) (j : Nat) (ws : List Wave) : (s.setWaves j ws).monitors = s.monitors := rfl
@[simp] theorem State.setWaves_tiuP (s : State) (j : Nat) (ws : List Wave) : (s.setWaves j ws).tiuP = s.tiuP := rfl
@[simp] theorem State.setWaves_tiuL (s : State) (j : Nat) (ws : List Wave) : (s.setWaves j ws).tiuL = s.tiuL := rfl
@[simp] theorem State.setWaves_syns (s : State) (j : Nat) (ws : List Wave) : (s.setWaves j ws).syns = s.syns := rfl
@[simp] theorem State.setWaves_lanes (s : State) (j : Nat) (ws : List Wave) : (s.setWaves j ws).lanes = s.lanes := rfl
@[simp] theorem State.setWaves_pps (s : State) (j : Nat) (ws : List Wave) : (s.setWaves j ws).pps = s.pps := rfl
@[simp] theorem State.setWaves_tod (s : State) (j : Nat) (ws : List Wave) : (s.setWaves j ws).tod = s.tod := rfl
@[simp] theorem State.setWaves_ens (s : State) (j : Nat) (ws : List Wave) : (s.setWaves j ws).ens = s.ens := rfl
@[simp] theorem State.setWaves_srcRes (s : State) (j : Nat) (ws : List Wave) : (s.setWaves j ws).srcRes = s.srcRes := rfl
@[simp] theorem State.setWaves_tnd (s : State) (j : Nat) (ws : List Wave) : (s.setWaves j ws).tnd = s.tnd := rfl
@[simp] theorem State.setWaves_gns (s : State) (j : Nat) (ws : List Wave) : (s.setWaves j ws).gns = s.gns := rfl
@[simp] theorem State.setWaves_mac (s : State) (j : Nat) (ws : List Wave) : (s.setWaves j ws).mac = s.mac := rfl
@[simp] theorem State.setWaves_pkt (s : State) (j : Nat) (ws : List Wave) : (s.setWaves j ws).pkt = s.pkt := rfl
@[simp] theorem State.setWaves_cst (s : State) (j : Nat) (ws : List Wave) : (s.setWaves j ws).cst = s.cst := rfl
@[simp] theorem State.setWaves_img (s : State) (j : Nat) (ws : List Wave) : (s.setWaves j ws).img = s.img := rfl
@[simp] theorem State.setWaves_pwr (s : State) (j : Nat) (ws : List Wave) : (s.setWaves j ws).pwr = s.pwr := rfl
@[simp] theorem State.setWaves_dma (s : State) (j : Nat) (ws : List Wave) : (s.setWaves j ws).dma = s.dma := rfl
@[simp] theorem State.setWaves_prf (s : State) (j : Nat) (ws : List Wave) : (s.setWaves j ws).prf = s.prf := rfl
@[simp] theorem State.setWaves_pcie (s : State) (j : Nat) (ws : List Wave) : (s.setWaves j ws).pcie = s.pcie := rfl
@[simp] theorem State.setWaves_flt (s : State) (j : Nat) (ws : List Wave) : (s.setWaves j ws).flt = s.flt := rfl
@[simp] theorem State.setWaves_trace (s : State) (j : Nat) (ws : List Wave) : (s.setWaves j ws).trace = s.trace := rfl
@[simp] theorem State.setWaves_keys (s : State) (j : Nat) (ws : List Wave) : (s.setWaves j ws).keys = s.keys := rfl
@[simp] theorem State.setWaves_faults (s : State) (j : Nat) (ws : List Wave) : (s.setWaves j ws).faults = s.faults := rfl
@[simp] theorem State.setWaves_vecMask (s : State) (j : Nat) (ws : List Wave) : (s.setWaves j ws).vecMask = s.vecMask := rfl
@[simp] theorem State.setWaves_pba (s : State) (j : Nat) (ws : List Wave) : (s.setWaves j ws).pba = s.pba := rfl
@[simp] theorem State.setWaves_tally (s : State) (j : Nat) (ws : List Wave) : (s.setWaves j ws).tally = s.tally := rfl
@[simp] theorem State.setWaves_mem (s : State) (j : Nat) (ws : List Wave) : (s.setWaves j ws).mem = s.mem := rfl
@[simp] theorem State.setWaves_out (s : State) (j : Nat) (ws : List Wave) : (s.setWaves j ws).out = s.out := rfl
@[simp] theorem State.setWaves_free (s : State) (j : Nat) (ws : List Wave) : (s.setWaves j ws).free = s.free := rfl
@[simp] theorem State.setWaves_pending (s : State) (j : Nat) (ws : List Wave) : (s.setWaves j ws).pending = s.pending := rfl

/-! ### `modLane` -/

@[simp] theorem State.modLane_regs (s : State) (m : Nat) (g : LaneRt → LaneRt) : (s.modLane m g).regs = s.regs := rfl
@[simp] theorem State.modLane_live (s : State) (m : Nat) (g : LaneRt → LaneRt) : (s.modLane m g).live = s.live := rfl
@[simp] theorem State.modLane_pendSh (s : State) (m : Nat) (g : LaneRt → LaneRt) : (s.modLane m g).pendSh = s.pendSh := rfl
@[simp] theorem State.modLane_shStamp (s : State) (m : Nat) (g : LaneRt → LaneRt) : (s.modLane m g).shStamp = s.shStamp := rfl
@[simp] theorem State.modLane_bankP (s : State) (m : Nat) (g : LaneRt → LaneRt) : (s.modLane m g).bankP = s.bankP := rfl
@[simp] theorem State.modLane_bankI (s : State) (m : Nat) (g : LaneRt → LaneRt) : (s.modLane m g).bankI = s.bankI := rfl
@[simp] theorem State.modLane_rdP (s : State) (m : Nat) (g : LaneRt → LaneRt) : (s.modLane m g).rdP = s.rdP := rfl
@[simp] theorem State.modLane_rdI (s : State) (m : Nat) (g : LaneRt → LaneRt) : (s.modLane m g).rdI = s.rdI := rfl
@[simp] theorem State.modLane_fenceP (s : State) (m : Nat) (g : LaneRt → LaneRt) : (s.modLane m g).fenceP = s.fenceP := rfl
@[simp] theorem State.modLane_fenceI (s : State) (m : Nat) (g : LaneRt → LaneRt) : (s.modLane m g).fenceI = s.fenceI := rfl
@[simp] theorem State.modLane_heldP (s : State) (m : Nat) (g : LaneRt → LaneRt) : (s.modLane m g).heldP = s.heldP := rfl
@[simp] theorem State.modLane_heldI (s : State) (m : Nat) (g : LaneRt → LaneRt) : (s.modLane m g).heldI = s.heldI := rfl
@[simp] theorem State.modLane_chans (s : State) (m : Nat) (g : LaneRt → LaneRt) : (s.modLane m g).chans = s.chans := rfl
@[simp] theorem State.modLane_spn (s : State) (m : Nat) (g : LaneRt → LaneRt) : (s.modLane m g).spn = s.spn := rfl
@[simp] theorem State.modLane_monitors (s : State) (m : Nat) (g : LaneRt → LaneRt) : (s.modLane m g).monitors = s.monitors := rfl
@[simp] theorem State.modLane_tiuP (s : State) (m : Nat) (g : LaneRt → LaneRt) : (s.modLane m g).tiuP = s.tiuP := rfl
@[simp] theorem State.modLane_tiuL (s : State) (m : Nat) (g : LaneRt → LaneRt) : (s.modLane m g).tiuL = s.tiuL := rfl
@[simp] theorem State.modLane_syns (s : State) (m : Nat) (g : LaneRt → LaneRt) : (s.modLane m g).syns = s.syns := rfl
@[simp] theorem State.modLane_outs (s : State) (m : Nat) (g : LaneRt → LaneRt) : (s.modLane m g).outs = s.outs := rfl
@[simp] theorem State.modLane_pps (s : State) (m : Nat) (g : LaneRt → LaneRt) : (s.modLane m g).pps = s.pps := rfl
@[simp] theorem State.modLane_tod (s : State) (m : Nat) (g : LaneRt → LaneRt) : (s.modLane m g).tod = s.tod := rfl
@[simp] theorem State.modLane_ens (s : State) (m : Nat) (g : LaneRt → LaneRt) : (s.modLane m g).ens = s.ens := rfl
@[simp] theorem State.modLane_srcRes (s : State) (m : Nat) (g : LaneRt → LaneRt) : (s.modLane m g).srcRes = s.srcRes := rfl
@[simp] theorem State.modLane_tnd (s : State) (m : Nat) (g : LaneRt → LaneRt) : (s.modLane m g).tnd = s.tnd := rfl
@[simp] theorem State.modLane_gns (s : State) (m : Nat) (g : LaneRt → LaneRt) : (s.modLane m g).gns = s.gns := rfl
@[simp] theorem State.modLane_mac (s : State) (m : Nat) (g : LaneRt → LaneRt) : (s.modLane m g).mac = s.mac := rfl
@[simp] theorem State.modLane_pkt (s : State) (m : Nat) (g : LaneRt → LaneRt) : (s.modLane m g).pkt = s.pkt := rfl
@[simp] theorem State.modLane_cst (s : State) (m : Nat) (g : LaneRt → LaneRt) : (s.modLane m g).cst = s.cst := rfl
@[simp] theorem State.modLane_img (s : State) (m : Nat) (g : LaneRt → LaneRt) : (s.modLane m g).img = s.img := rfl
@[simp] theorem State.modLane_pwr (s : State) (m : Nat) (g : LaneRt → LaneRt) : (s.modLane m g).pwr = s.pwr := rfl
@[simp] theorem State.modLane_dma (s : State) (m : Nat) (g : LaneRt → LaneRt) : (s.modLane m g).dma = s.dma := rfl
@[simp] theorem State.modLane_prf (s : State) (m : Nat) (g : LaneRt → LaneRt) : (s.modLane m g).prf = s.prf := rfl
@[simp] theorem State.modLane_pcie (s : State) (m : Nat) (g : LaneRt → LaneRt) : (s.modLane m g).pcie = s.pcie := rfl
@[simp] theorem State.modLane_flt (s : State) (m : Nat) (g : LaneRt → LaneRt) : (s.modLane m g).flt = s.flt := rfl
@[simp] theorem State.modLane_trace (s : State) (m : Nat) (g : LaneRt → LaneRt) : (s.modLane m g).trace = s.trace := rfl
@[simp] theorem State.modLane_keys (s : State) (m : Nat) (g : LaneRt → LaneRt) : (s.modLane m g).keys = s.keys := rfl
@[simp] theorem State.modLane_faults (s : State) (m : Nat) (g : LaneRt → LaneRt) : (s.modLane m g).faults = s.faults := rfl
@[simp] theorem State.modLane_vecMask (s : State) (m : Nat) (g : LaneRt → LaneRt) : (s.modLane m g).vecMask = s.vecMask := rfl
@[simp] theorem State.modLane_pba (s : State) (m : Nat) (g : LaneRt → LaneRt) : (s.modLane m g).pba = s.pba := rfl
@[simp] theorem State.modLane_tally (s : State) (m : Nat) (g : LaneRt → LaneRt) : (s.modLane m g).tally = s.tally := rfl
@[simp] theorem State.modLane_mem (s : State) (m : Nat) (g : LaneRt → LaneRt) : (s.modLane m g).mem = s.mem := rfl
@[simp] theorem State.modLane_out (s : State) (m : Nat) (g : LaneRt → LaneRt) : (s.modLane m g).out = s.out := rfl
@[simp] theorem State.modLane_free (s : State) (m : Nat) (g : LaneRt → LaneRt) : (s.modLane m g).free = s.free := rfl
@[simp] theorem State.modLane_pending (s : State) (m : Nat) (g : LaneRt → LaneRt) : (s.modLane m g).pending = s.pending := rfl

/-! ### `modUnit` -/

@[simp] theorem State.modUnit_regs (s : State) (u : TiuId) (g : TiuUnit → TiuUnit) : (s.modUnit u g).regs = s.regs := by cases u <;> rfl
@[simp] theorem State.modUnit_live (s : State) (u : TiuId) (g : TiuUnit → TiuUnit) : (s.modUnit u g).live = s.live := by cases u <;> rfl
@[simp] theorem State.modUnit_pendSh (s : State) (u : TiuId) (g : TiuUnit → TiuUnit) : (s.modUnit u g).pendSh = s.pendSh := by cases u <;> rfl
@[simp] theorem State.modUnit_shStamp (s : State) (u : TiuId) (g : TiuUnit → TiuUnit) : (s.modUnit u g).shStamp = s.shStamp := by cases u <;> rfl
@[simp] theorem State.modUnit_bankP (s : State) (u : TiuId) (g : TiuUnit → TiuUnit) : (s.modUnit u g).bankP = s.bankP := by cases u <;> rfl
@[simp] theorem State.modUnit_bankI (s : State) (u : TiuId) (g : TiuUnit → TiuUnit) : (s.modUnit u g).bankI = s.bankI := by cases u <;> rfl
@[simp] theorem State.modUnit_rdP (s : State) (u : TiuId) (g : TiuUnit → TiuUnit) : (s.modUnit u g).rdP = s.rdP := by cases u <;> rfl
@[simp] theorem State.modUnit_rdI (s : State) (u : TiuId) (g : TiuUnit → TiuUnit) : (s.modUnit u g).rdI = s.rdI := by cases u <;> rfl
@[simp] theorem State.modUnit_fenceP (s : State) (u : TiuId) (g : TiuUnit → TiuUnit) : (s.modUnit u g).fenceP = s.fenceP := by cases u <;> rfl
@[simp] theorem State.modUnit_fenceI (s : State) (u : TiuId) (g : TiuUnit → TiuUnit) : (s.modUnit u g).fenceI = s.fenceI := by cases u <;> rfl
@[simp] theorem State.modUnit_heldP (s : State) (u : TiuId) (g : TiuUnit → TiuUnit) : (s.modUnit u g).heldP = s.heldP := by cases u <;> rfl
@[simp] theorem State.modUnit_heldI (s : State) (u : TiuId) (g : TiuUnit → TiuUnit) : (s.modUnit u g).heldI = s.heldI := by cases u <;> rfl
@[simp] theorem State.modUnit_chans (s : State) (u : TiuId) (g : TiuUnit → TiuUnit) : (s.modUnit u g).chans = s.chans := by cases u <;> rfl
@[simp] theorem State.modUnit_spn (s : State) (u : TiuId) (g : TiuUnit → TiuUnit) : (s.modUnit u g).spn = s.spn := by cases u <;> rfl
@[simp] theorem State.modUnit_monitors (s : State) (u : TiuId) (g : TiuUnit → TiuUnit) : (s.modUnit u g).monitors = s.monitors := by cases u <;> rfl
@[simp] theorem State.modUnit_syns (s : State) (u : TiuId) (g : TiuUnit → TiuUnit) : (s.modUnit u g).syns = s.syns := by cases u <;> rfl
@[simp] theorem State.modUnit_outs (s : State) (u : TiuId) (g : TiuUnit → TiuUnit) : (s.modUnit u g).outs = s.outs := by cases u <;> rfl
@[simp] theorem State.modUnit_lanes (s : State) (u : TiuId) (g : TiuUnit → TiuUnit) : (s.modUnit u g).lanes = s.lanes := by cases u <;> rfl
@[simp] theorem State.modUnit_pps (s : State) (u : TiuId) (g : TiuUnit → TiuUnit) : (s.modUnit u g).pps = s.pps := by cases u <;> rfl
@[simp] theorem State.modUnit_tod (s : State) (u : TiuId) (g : TiuUnit → TiuUnit) : (s.modUnit u g).tod = s.tod := by cases u <;> rfl
@[simp] theorem State.modUnit_ens (s : State) (u : TiuId) (g : TiuUnit → TiuUnit) : (s.modUnit u g).ens = s.ens := by cases u <;> rfl
@[simp] theorem State.modUnit_srcRes (s : State) (u : TiuId) (g : TiuUnit → TiuUnit) : (s.modUnit u g).srcRes = s.srcRes := by cases u <;> rfl
@[simp] theorem State.modUnit_tnd (s : State) (u : TiuId) (g : TiuUnit → TiuUnit) : (s.modUnit u g).tnd = s.tnd := by cases u <;> rfl
@[simp] theorem State.modUnit_gns (s : State) (u : TiuId) (g : TiuUnit → TiuUnit) : (s.modUnit u g).gns = s.gns := by cases u <;> rfl
@[simp] theorem State.modUnit_mac (s : State) (u : TiuId) (g : TiuUnit → TiuUnit) : (s.modUnit u g).mac = s.mac := by cases u <;> rfl
@[simp] theorem State.modUnit_pkt (s : State) (u : TiuId) (g : TiuUnit → TiuUnit) : (s.modUnit u g).pkt = s.pkt := by cases u <;> rfl
@[simp] theorem State.modUnit_cst (s : State) (u : TiuId) (g : TiuUnit → TiuUnit) : (s.modUnit u g).cst = s.cst := by cases u <;> rfl
@[simp] theorem State.modUnit_img (s : State) (u : TiuId) (g : TiuUnit → TiuUnit) : (s.modUnit u g).img = s.img := by cases u <;> rfl
@[simp] theorem State.modUnit_pwr (s : State) (u : TiuId) (g : TiuUnit → TiuUnit) : (s.modUnit u g).pwr = s.pwr := by cases u <;> rfl
@[simp] theorem State.modUnit_dma (s : State) (u : TiuId) (g : TiuUnit → TiuUnit) : (s.modUnit u g).dma = s.dma := by cases u <;> rfl
@[simp] theorem State.modUnit_prf (s : State) (u : TiuId) (g : TiuUnit → TiuUnit) : (s.modUnit u g).prf = s.prf := by cases u <;> rfl
@[simp] theorem State.modUnit_pcie (s : State) (u : TiuId) (g : TiuUnit → TiuUnit) : (s.modUnit u g).pcie = s.pcie := by cases u <;> rfl
@[simp] theorem State.modUnit_flt (s : State) (u : TiuId) (g : TiuUnit → TiuUnit) : (s.modUnit u g).flt = s.flt := by cases u <;> rfl
@[simp] theorem State.modUnit_trace (s : State) (u : TiuId) (g : TiuUnit → TiuUnit) : (s.modUnit u g).trace = s.trace := by cases u <;> rfl
@[simp] theorem State.modUnit_keys (s : State) (u : TiuId) (g : TiuUnit → TiuUnit) : (s.modUnit u g).keys = s.keys := by cases u <;> rfl
@[simp] theorem State.modUnit_faults (s : State) (u : TiuId) (g : TiuUnit → TiuUnit) : (s.modUnit u g).faults = s.faults := by cases u <;> rfl
@[simp] theorem State.modUnit_vecMask (s : State) (u : TiuId) (g : TiuUnit → TiuUnit) : (s.modUnit u g).vecMask = s.vecMask := by cases u <;> rfl
@[simp] theorem State.modUnit_pba (s : State) (u : TiuId) (g : TiuUnit → TiuUnit) : (s.modUnit u g).pba = s.pba := by cases u <;> rfl
@[simp] theorem State.modUnit_tally (s : State) (u : TiuId) (g : TiuUnit → TiuUnit) : (s.modUnit u g).tally = s.tally := by cases u <;> rfl
@[simp] theorem State.modUnit_mem (s : State) (u : TiuId) (g : TiuUnit → TiuUnit) : (s.modUnit u g).mem = s.mem := by cases u <;> rfl
@[simp] theorem State.modUnit_out (s : State) (u : TiuId) (g : TiuUnit → TiuUnit) : (s.modUnit u g).out = s.out := by cases u <;> rfl
@[simp] theorem State.modUnit_free (s : State) (u : TiuId) (g : TiuUnit → TiuUnit) : (s.modUnit u g).free = s.free := by cases u <;> rfl
@[simp] theorem State.modUnit_pending (s : State) (u : TiuId) (g : TiuUnit → TiuUnit) : (s.modUnit u g).pending = s.pending := by cases u <;> rfl

/-! ### `modMon` -/

@[simp] theorem State.modMon_regs (s : State) (c : Nat) (g : CandMon → CandMon) : (s.modMon c g).regs = s.regs := rfl
@[simp] theorem State.modMon_live (s : State) (c : Nat) (g : CandMon → CandMon) : (s.modMon c g).live = s.live := rfl
@[simp] theorem State.modMon_pendSh (s : State) (c : Nat) (g : CandMon → CandMon) : (s.modMon c g).pendSh = s.pendSh := rfl
@[simp] theorem State.modMon_shStamp (s : State) (c : Nat) (g : CandMon → CandMon) : (s.modMon c g).shStamp = s.shStamp := rfl
@[simp] theorem State.modMon_bankP (s : State) (c : Nat) (g : CandMon → CandMon) : (s.modMon c g).bankP = s.bankP := rfl
@[simp] theorem State.modMon_bankI (s : State) (c : Nat) (g : CandMon → CandMon) : (s.modMon c g).bankI = s.bankI := rfl
@[simp] theorem State.modMon_rdP (s : State) (c : Nat) (g : CandMon → CandMon) : (s.modMon c g).rdP = s.rdP := rfl
@[simp] theorem State.modMon_rdI (s : State) (c : Nat) (g : CandMon → CandMon) : (s.modMon c g).rdI = s.rdI := rfl
@[simp] theorem State.modMon_fenceP (s : State) (c : Nat) (g : CandMon → CandMon) : (s.modMon c g).fenceP = s.fenceP := rfl
@[simp] theorem State.modMon_fenceI (s : State) (c : Nat) (g : CandMon → CandMon) : (s.modMon c g).fenceI = s.fenceI := rfl
@[simp] theorem State.modMon_heldP (s : State) (c : Nat) (g : CandMon → CandMon) : (s.modMon c g).heldP = s.heldP := rfl
@[simp] theorem State.modMon_heldI (s : State) (c : Nat) (g : CandMon → CandMon) : (s.modMon c g).heldI = s.heldI := rfl
@[simp] theorem State.modMon_chans (s : State) (c : Nat) (g : CandMon → CandMon) : (s.modMon c g).chans = s.chans := rfl
@[simp] theorem State.modMon_spn (s : State) (c : Nat) (g : CandMon → CandMon) : (s.modMon c g).spn = s.spn := rfl
@[simp] theorem State.modMon_monitors (s : State) (c : Nat) (g : CandMon → CandMon) : (s.modMon c g).monitors = s.monitors := rfl
@[simp] theorem State.modMon_tiuP (s : State) (c : Nat) (g : CandMon → CandMon) : (s.modMon c g).tiuP = s.tiuP := rfl
@[simp] theorem State.modMon_tiuL (s : State) (c : Nat) (g : CandMon → CandMon) : (s.modMon c g).tiuL = s.tiuL := rfl
@[simp] theorem State.modMon_syns (s : State) (c : Nat) (g : CandMon → CandMon) : (s.modMon c g).syns = s.syns := rfl
@[simp] theorem State.modMon_outs (s : State) (c : Nat) (g : CandMon → CandMon) : (s.modMon c g).outs = s.outs := rfl
@[simp] theorem State.modMon_lanes (s : State) (c : Nat) (g : CandMon → CandMon) : (s.modMon c g).lanes = s.lanes := rfl
@[simp] theorem State.modMon_pps (s : State) (c : Nat) (g : CandMon → CandMon) : (s.modMon c g).pps = s.pps := rfl
@[simp] theorem State.modMon_tod (s : State) (c : Nat) (g : CandMon → CandMon) : (s.modMon c g).tod = s.tod := rfl
@[simp] theorem State.modMon_srcRes (s : State) (c : Nat) (g : CandMon → CandMon) : (s.modMon c g).srcRes = s.srcRes := rfl
@[simp] theorem State.modMon_tnd (s : State) (c : Nat) (g : CandMon → CandMon) : (s.modMon c g).tnd = s.tnd := rfl
@[simp] theorem State.modMon_gns (s : State) (c : Nat) (g : CandMon → CandMon) : (s.modMon c g).gns = s.gns := rfl
@[simp] theorem State.modMon_mac (s : State) (c : Nat) (g : CandMon → CandMon) : (s.modMon c g).mac = s.mac := rfl
@[simp] theorem State.modMon_pkt (s : State) (c : Nat) (g : CandMon → CandMon) : (s.modMon c g).pkt = s.pkt := rfl
@[simp] theorem State.modMon_cst (s : State) (c : Nat) (g : CandMon → CandMon) : (s.modMon c g).cst = s.cst := rfl
@[simp] theorem State.modMon_img (s : State) (c : Nat) (g : CandMon → CandMon) : (s.modMon c g).img = s.img := rfl
@[simp] theorem State.modMon_pwr (s : State) (c : Nat) (g : CandMon → CandMon) : (s.modMon c g).pwr = s.pwr := rfl
@[simp] theorem State.modMon_dma (s : State) (c : Nat) (g : CandMon → CandMon) : (s.modMon c g).dma = s.dma := rfl
@[simp] theorem State.modMon_prf (s : State) (c : Nat) (g : CandMon → CandMon) : (s.modMon c g).prf = s.prf := rfl
@[simp] theorem State.modMon_pcie (s : State) (c : Nat) (g : CandMon → CandMon) : (s.modMon c g).pcie = s.pcie := rfl
@[simp] theorem State.modMon_flt (s : State) (c : Nat) (g : CandMon → CandMon) : (s.modMon c g).flt = s.flt := rfl
@[simp] theorem State.modMon_trace (s : State) (c : Nat) (g : CandMon → CandMon) : (s.modMon c g).trace = s.trace := rfl
@[simp] theorem State.modMon_keys (s : State) (c : Nat) (g : CandMon → CandMon) : (s.modMon c g).keys = s.keys := rfl
@[simp] theorem State.modMon_faults (s : State) (c : Nat) (g : CandMon → CandMon) : (s.modMon c g).faults = s.faults := rfl
@[simp] theorem State.modMon_vecMask (s : State) (c : Nat) (g : CandMon → CandMon) : (s.modMon c g).vecMask = s.vecMask := rfl
@[simp] theorem State.modMon_pba (s : State) (c : Nat) (g : CandMon → CandMon) : (s.modMon c g).pba = s.pba := rfl
@[simp] theorem State.modMon_tally (s : State) (c : Nat) (g : CandMon → CandMon) : (s.modMon c g).tally = s.tally := rfl
@[simp] theorem State.modMon_mem (s : State) (c : Nat) (g : CandMon → CandMon) : (s.modMon c g).mem = s.mem := rfl
@[simp] theorem State.modMon_out (s : State) (c : Nat) (g : CandMon → CandMon) : (s.modMon c g).out = s.out := rfl
@[simp] theorem State.modMon_free (s : State) (c : Nat) (g : CandMon → CandMon) : (s.modMon c g).free = s.free := rfl
@[simp] theorem State.modMon_pending (s : State) (c : Nat) (g : CandMon → CandMon) : (s.modMon c g).pending = s.pending := rfl

/-! ### `modChan` -/

@[simp] theorem State.modChan_regs (s : State) (ch : Chan) (g : CommitChan → CommitChan) : (s.modChan ch g).regs = s.regs := rfl
@[simp] theorem State.modChan_live (s : State) (ch : Chan) (g : CommitChan → CommitChan) : (s.modChan ch g).live = s.live := rfl
@[simp] theorem State.modChan_pendSh (s : State) (ch : Chan) (g : CommitChan → CommitChan) : (s.modChan ch g).pendSh = s.pendSh := rfl
@[simp] theorem State.modChan_shStamp (s : State) (ch : Chan) (g : CommitChan → CommitChan) : (s.modChan ch g).shStamp = s.shStamp := rfl
@[simp] theorem State.modChan_bankP (s : State) (ch : Chan) (g : CommitChan → CommitChan) : (s.modChan ch g).bankP = s.bankP := rfl
@[simp] theorem State.modChan_bankI (s : State) (ch : Chan) (g : CommitChan → CommitChan) : (s.modChan ch g).bankI = s.bankI := rfl
@[simp] theorem State.modChan_rdP (s : State) (ch : Chan) (g : CommitChan → CommitChan) : (s.modChan ch g).rdP = s.rdP := rfl
@[simp] theorem State.modChan_rdI (s : State) (ch : Chan) (g : CommitChan → CommitChan) : (s.modChan ch g).rdI = s.rdI := rfl
@[simp] theorem State.modChan_fenceP (s : State) (ch : Chan) (g : CommitChan → CommitChan) : (s.modChan ch g).fenceP = s.fenceP := rfl
@[simp] theorem State.modChan_fenceI (s : State) (ch : Chan) (g : CommitChan → CommitChan) : (s.modChan ch g).fenceI = s.fenceI := rfl
@[simp] theorem State.modChan_heldP (s : State) (ch : Chan) (g : CommitChan → CommitChan) : (s.modChan ch g).heldP = s.heldP := rfl
@[simp] theorem State.modChan_heldI (s : State) (ch : Chan) (g : CommitChan → CommitChan) : (s.modChan ch g).heldI = s.heldI := rfl
@[simp] theorem State.modChan_spn (s : State) (ch : Chan) (g : CommitChan → CommitChan) : (s.modChan ch g).spn = s.spn := rfl
@[simp] theorem State.modChan_monitors (s : State) (ch : Chan) (g : CommitChan → CommitChan) : (s.modChan ch g).monitors = s.monitors := rfl
@[simp] theorem State.modChan_tiuP (s : State) (ch : Chan) (g : CommitChan → CommitChan) : (s.modChan ch g).tiuP = s.tiuP := rfl
@[simp] theorem State.modChan_tiuL (s : State) (ch : Chan) (g : CommitChan → CommitChan) : (s.modChan ch g).tiuL = s.tiuL := rfl
@[simp] theorem State.modChan_syns (s : State) (ch : Chan) (g : CommitChan → CommitChan) : (s.modChan ch g).syns = s.syns := rfl
@[simp] theorem State.modChan_outs (s : State) (ch : Chan) (g : CommitChan → CommitChan) : (s.modChan ch g).outs = s.outs := rfl
@[simp] theorem State.modChan_lanes (s : State) (ch : Chan) (g : CommitChan → CommitChan) : (s.modChan ch g).lanes = s.lanes := rfl
@[simp] theorem State.modChan_pps (s : State) (ch : Chan) (g : CommitChan → CommitChan) : (s.modChan ch g).pps = s.pps := rfl
@[simp] theorem State.modChan_tod (s : State) (ch : Chan) (g : CommitChan → CommitChan) : (s.modChan ch g).tod = s.tod := rfl
@[simp] theorem State.modChan_ens (s : State) (ch : Chan) (g : CommitChan → CommitChan) : (s.modChan ch g).ens = s.ens := rfl
@[simp] theorem State.modChan_srcRes (s : State) (ch : Chan) (g : CommitChan → CommitChan) : (s.modChan ch g).srcRes = s.srcRes := rfl
@[simp] theorem State.modChan_tnd (s : State) (ch : Chan) (g : CommitChan → CommitChan) : (s.modChan ch g).tnd = s.tnd := rfl
@[simp] theorem State.modChan_gns (s : State) (ch : Chan) (g : CommitChan → CommitChan) : (s.modChan ch g).gns = s.gns := rfl
@[simp] theorem State.modChan_mac (s : State) (ch : Chan) (g : CommitChan → CommitChan) : (s.modChan ch g).mac = s.mac := rfl
@[simp] theorem State.modChan_pkt (s : State) (ch : Chan) (g : CommitChan → CommitChan) : (s.modChan ch g).pkt = s.pkt := rfl
@[simp] theorem State.modChan_cst (s : State) (ch : Chan) (g : CommitChan → CommitChan) : (s.modChan ch g).cst = s.cst := rfl
@[simp] theorem State.modChan_img (s : State) (ch : Chan) (g : CommitChan → CommitChan) : (s.modChan ch g).img = s.img := rfl
@[simp] theorem State.modChan_pwr (s : State) (ch : Chan) (g : CommitChan → CommitChan) : (s.modChan ch g).pwr = s.pwr := rfl
@[simp] theorem State.modChan_dma (s : State) (ch : Chan) (g : CommitChan → CommitChan) : (s.modChan ch g).dma = s.dma := rfl
@[simp] theorem State.modChan_prf (s : State) (ch : Chan) (g : CommitChan → CommitChan) : (s.modChan ch g).prf = s.prf := rfl
@[simp] theorem State.modChan_pcie (s : State) (ch : Chan) (g : CommitChan → CommitChan) : (s.modChan ch g).pcie = s.pcie := rfl
@[simp] theorem State.modChan_flt (s : State) (ch : Chan) (g : CommitChan → CommitChan) : (s.modChan ch g).flt = s.flt := rfl
@[simp] theorem State.modChan_trace (s : State) (ch : Chan) (g : CommitChan → CommitChan) : (s.modChan ch g).trace = s.trace := rfl
@[simp] theorem State.modChan_keys (s : State) (ch : Chan) (g : CommitChan → CommitChan) : (s.modChan ch g).keys = s.keys := rfl
@[simp] theorem State.modChan_faults (s : State) (ch : Chan) (g : CommitChan → CommitChan) : (s.modChan ch g).faults = s.faults := rfl
@[simp] theorem State.modChan_vecMask (s : State) (ch : Chan) (g : CommitChan → CommitChan) : (s.modChan ch g).vecMask = s.vecMask := rfl
@[simp] theorem State.modChan_pba (s : State) (ch : Chan) (g : CommitChan → CommitChan) : (s.modChan ch g).pba = s.pba := rfl
@[simp] theorem State.modChan_tally (s : State) (ch : Chan) (g : CommitChan → CommitChan) : (s.modChan ch g).tally = s.tally := rfl
@[simp] theorem State.modChan_mem (s : State) (ch : Chan) (g : CommitChan → CommitChan) : (s.modChan ch g).mem = s.mem := rfl
@[simp] theorem State.modChan_out (s : State) (ch : Chan) (g : CommitChan → CommitChan) : (s.modChan ch g).out = s.out := rfl
@[simp] theorem State.modChan_free (s : State) (ch : Chan) (g : CommitChan → CommitChan) : (s.modChan ch g).free = s.free := rfl
@[simp] theorem State.modChan_pending (s : State) (ch : Chan) (g : CommitChan → CommitChan) : (s.modChan ch g).pending = s.pending := rfl

/-! ### `sendVector` -/

@[simp] theorem State.sendVector_regs (s : State) (v : Nat) : (s.sendVector v).regs = s.regs := by unfold State.sendVector; split <;> first | rfl | (split <;> rfl)
@[simp] theorem State.sendVector_live (s : State) (v : Nat) : (s.sendVector v).live = s.live := by unfold State.sendVector; split <;> first | rfl | (split <;> rfl)
@[simp] theorem State.sendVector_pendSh (s : State) (v : Nat) : (s.sendVector v).pendSh = s.pendSh := by unfold State.sendVector; split <;> first | rfl | (split <;> rfl)
@[simp] theorem State.sendVector_shStamp (s : State) (v : Nat) : (s.sendVector v).shStamp = s.shStamp := by unfold State.sendVector; split <;> first | rfl | (split <;> rfl)
@[simp] theorem State.sendVector_bankP (s : State) (v : Nat) : (s.sendVector v).bankP = s.bankP := by unfold State.sendVector; split <;> first | rfl | (split <;> rfl)
@[simp] theorem State.sendVector_bankI (s : State) (v : Nat) : (s.sendVector v).bankI = s.bankI := by unfold State.sendVector; split <;> first | rfl | (split <;> rfl)
@[simp] theorem State.sendVector_rdP (s : State) (v : Nat) : (s.sendVector v).rdP = s.rdP := by unfold State.sendVector; split <;> first | rfl | (split <;> rfl)
@[simp] theorem State.sendVector_rdI (s : State) (v : Nat) : (s.sendVector v).rdI = s.rdI := by unfold State.sendVector; split <;> first | rfl | (split <;> rfl)
@[simp] theorem State.sendVector_fenceP (s : State) (v : Nat) : (s.sendVector v).fenceP = s.fenceP := by unfold State.sendVector; split <;> first | rfl | (split <;> rfl)
@[simp] theorem State.sendVector_fenceI (s : State) (v : Nat) : (s.sendVector v).fenceI = s.fenceI := by unfold State.sendVector; split <;> first | rfl | (split <;> rfl)
@[simp] theorem State.sendVector_heldP (s : State) (v : Nat) : (s.sendVector v).heldP = s.heldP := by unfold State.sendVector; split <;> first | rfl | (split <;> rfl)
@[simp] theorem State.sendVector_heldI (s : State) (v : Nat) : (s.sendVector v).heldI = s.heldI := by unfold State.sendVector; split <;> first | rfl | (split <;> rfl)
@[simp] theorem State.sendVector_chans (s : State) (v : Nat) : (s.sendVector v).chans = s.chans := by unfold State.sendVector; split <;> first | rfl | (split <;> rfl)
@[simp] theorem State.sendVector_spn (s : State) (v : Nat) : (s.sendVector v).spn = s.spn := by unfold State.sendVector; split <;> first | rfl | (split <;> rfl)
@[simp] theorem State.sendVector_monitors (s : State) (v : Nat) : (s.sendVector v).monitors = s.monitors := by unfold State.sendVector; split <;> first | rfl | (split <;> rfl)
@[simp] theorem State.sendVector_tiuP (s : State) (v : Nat) : (s.sendVector v).tiuP = s.tiuP := by unfold State.sendVector; split <;> first | rfl | (split <;> rfl)
@[simp] theorem State.sendVector_tiuL (s : State) (v : Nat) : (s.sendVector v).tiuL = s.tiuL := by unfold State.sendVector; split <;> first | rfl | (split <;> rfl)
@[simp] theorem State.sendVector_syns (s : State) (v : Nat) : (s.sendVector v).syns = s.syns := by unfold State.sendVector; split <;> first | rfl | (split <;> rfl)
@[simp] theorem State.sendVector_outs (s : State) (v : Nat) : (s.sendVector v).outs = s.outs := by unfold State.sendVector; split <;> first | rfl | (split <;> rfl)
@[simp] theorem State.sendVector_lanes (s : State) (v : Nat) : (s.sendVector v).lanes = s.lanes := by unfold State.sendVector; split <;> first | rfl | (split <;> rfl)
@[simp] theorem State.sendVector_pps (s : State) (v : Nat) : (s.sendVector v).pps = s.pps := by unfold State.sendVector; split <;> first | rfl | (split <;> rfl)
@[simp] theorem State.sendVector_tod (s : State) (v : Nat) : (s.sendVector v).tod = s.tod := by unfold State.sendVector; split <;> first | rfl | (split <;> rfl)
@[simp] theorem State.sendVector_ens (s : State) (v : Nat) : (s.sendVector v).ens = s.ens := by unfold State.sendVector; split <;> first | rfl | (split <;> rfl)
@[simp] theorem State.sendVector_srcRes (s : State) (v : Nat) : (s.sendVector v).srcRes = s.srcRes := by unfold State.sendVector; split <;> first | rfl | (split <;> rfl)
@[simp] theorem State.sendVector_tnd (s : State) (v : Nat) : (s.sendVector v).tnd = s.tnd := by unfold State.sendVector; split <;> first | rfl | (split <;> rfl)
@[simp] theorem State.sendVector_gns (s : State) (v : Nat) : (s.sendVector v).gns = s.gns := by unfold State.sendVector; split <;> first | rfl | (split <;> rfl)
@[simp] theorem State.sendVector_mac (s : State) (v : Nat) : (s.sendVector v).mac = s.mac := by unfold State.sendVector; split <;> first | rfl | (split <;> rfl)
@[simp] theorem State.sendVector_pkt (s : State) (v : Nat) : (s.sendVector v).pkt = s.pkt := by unfold State.sendVector; split <;> first | rfl | (split <;> rfl)
@[simp] theorem State.sendVector_cst (s : State) (v : Nat) : (s.sendVector v).cst = s.cst := by unfold State.sendVector; split <;> first | rfl | (split <;> rfl)
@[simp] theorem State.sendVector_img (s : State) (v : Nat) : (s.sendVector v).img = s.img := by unfold State.sendVector; split <;> first | rfl | (split <;> rfl)
@[simp] theorem State.sendVector_pwr (s : State) (v : Nat) : (s.sendVector v).pwr = s.pwr := by unfold State.sendVector; split <;> first | rfl | (split <;> rfl)
@[simp] theorem State.sendVector_dma (s : State) (v : Nat) : (s.sendVector v).dma = s.dma := by unfold State.sendVector; split <;> first | rfl | (split <;> rfl)
@[simp] theorem State.sendVector_prf (s : State) (v : Nat) : (s.sendVector v).prf = s.prf := by unfold State.sendVector; split <;> first | rfl | (split <;> rfl)
@[simp] theorem State.sendVector_pcie (s : State) (v : Nat) : (s.sendVector v).pcie = s.pcie := by unfold State.sendVector; split <;> first | rfl | (split <;> rfl)
@[simp] theorem State.sendVector_flt (s : State) (v : Nat) : (s.sendVector v).flt = s.flt := by unfold State.sendVector; split <;> first | rfl | (split <;> rfl)
@[simp] theorem State.sendVector_trace (s : State) (v : Nat) : (s.sendVector v).trace = s.trace := by unfold State.sendVector; split <;> first | rfl | (split <;> rfl)
@[simp] theorem State.sendVector_keys (s : State) (v : Nat) : (s.sendVector v).keys = s.keys := by unfold State.sendVector; split <;> first | rfl | (split <;> rfl)
@[simp] theorem State.sendVector_faults (s : State) (v : Nat) : (s.sendVector v).faults = s.faults := by unfold State.sendVector; split <;> first | rfl | (split <;> rfl)
@[simp] theorem State.sendVector_vecMask (s : State) (v : Nat) : (s.sendVector v).vecMask = s.vecMask := by unfold State.sendVector; split <;> first | rfl | (split <;> rfl)
@[simp] theorem State.sendVector_tally (s : State) (v : Nat) : (s.sendVector v).tally = s.tally := by unfold State.sendVector; split <;> first | rfl | (split <;> rfl)
@[simp] theorem State.sendVector_mem (s : State) (v : Nat) : (s.sendVector v).mem = s.mem := by unfold State.sendVector; split <;> first | rfl | (split <;> rfl)
@[simp] theorem State.sendVector_free (s : State) (v : Nat) : (s.sendVector v).free = s.free := by unfold State.sendVector; split <;> first | rfl | (split <;> rfl)
@[simp] theorem State.sendVector_pending (s : State) (v : Nat) : (s.sendVector v).pending = s.pending := by unfold State.sendVector; split <;> first | rfl | (split <;> rfl)

/-! ### `irq` -/

@[simp] theorem State.irq_live (s : State) (b : Blk) (i : Nat) : (s.irq b i).live = s.live := by unfold State.irq; simp only []; split <;> simp
@[simp] theorem State.irq_pendSh (s : State) (b : Blk) (i : Nat) : (s.irq b i).pendSh = s.pendSh := by unfold State.irq; simp only []; split <;> simp
@[simp] theorem State.irq_shStamp (s : State) (b : Blk) (i : Nat) : (s.irq b i).shStamp = s.shStamp := by unfold State.irq; simp only []; split <;> simp
@[simp] theorem State.irq_bankP (s : State) (b : Blk) (i : Nat) : (s.irq b i).bankP = s.bankP := by unfold State.irq; simp only []; split <;> simp
@[simp] theorem State.irq_bankI (s : State) (b : Blk) (i : Nat) : (s.irq b i).bankI = s.bankI := by unfold State.irq; simp only []; split <;> simp
@[simp] theorem State.irq_rdP (s : State) (b : Blk) (i : Nat) : (s.irq b i).rdP = s.rdP := by unfold State.irq; simp only []; split <;> simp
@[simp] theorem State.irq_rdI (s : State) (b : Blk) (i : Nat) : (s.irq b i).rdI = s.rdI := by unfold State.irq; simp only []; split <;> simp
@[simp] theorem State.irq_fenceP (s : State) (b : Blk) (i : Nat) : (s.irq b i).fenceP = s.fenceP := by unfold State.irq; simp only []; split <;> simp
@[simp] theorem State.irq_fenceI (s : State) (b : Blk) (i : Nat) : (s.irq b i).fenceI = s.fenceI := by unfold State.irq; simp only []; split <;> simp
@[simp] theorem State.irq_heldP (s : State) (b : Blk) (i : Nat) : (s.irq b i).heldP = s.heldP := by unfold State.irq; simp only []; split <;> simp
@[simp] theorem State.irq_heldI (s : State) (b : Blk) (i : Nat) : (s.irq b i).heldI = s.heldI := by unfold State.irq; simp only []; split <;> simp
@[simp] theorem State.irq_chans (s : State) (b : Blk) (i : Nat) : (s.irq b i).chans = s.chans := by unfold State.irq; simp only []; split <;> simp
@[simp] theorem State.irq_spn (s : State) (b : Blk) (i : Nat) : (s.irq b i).spn = s.spn := by unfold State.irq; simp only []; split <;> simp
@[simp] theorem State.irq_monitors (s : State) (b : Blk) (i : Nat) : (s.irq b i).monitors = s.monitors := by unfold State.irq; simp only []; split <;> simp
@[simp] theorem State.irq_tiuP (s : State) (b : Blk) (i : Nat) : (s.irq b i).tiuP = s.tiuP := by unfold State.irq; simp only []; split <;> simp
@[simp] theorem State.irq_tiuL (s : State) (b : Blk) (i : Nat) : (s.irq b i).tiuL = s.tiuL := by unfold State.irq; simp only []; split <;> simp
@[simp] theorem State.irq_syns (s : State) (b : Blk) (i : Nat) : (s.irq b i).syns = s.syns := by unfold State.irq; simp only []; split <;> simp
@[simp] theorem State.irq_outs (s : State) (b : Blk) (i : Nat) : (s.irq b i).outs = s.outs := by unfold State.irq; simp only []; split <;> simp
@[simp] theorem State.irq_lanes (s : State) (b : Blk) (i : Nat) : (s.irq b i).lanes = s.lanes := by unfold State.irq; simp only []; split <;> simp
@[simp] theorem State.irq_pps (s : State) (b : Blk) (i : Nat) : (s.irq b i).pps = s.pps := by unfold State.irq; simp only []; split <;> simp
@[simp] theorem State.irq_tod (s : State) (b : Blk) (i : Nat) : (s.irq b i).tod = s.tod := by unfold State.irq; simp only []; split <;> simp
@[simp] theorem State.irq_ens (s : State) (b : Blk) (i : Nat) : (s.irq b i).ens = s.ens := by unfold State.irq; simp only []; split <;> simp
@[simp] theorem State.irq_srcRes (s : State) (b : Blk) (i : Nat) : (s.irq b i).srcRes = s.srcRes := by unfold State.irq; simp only []; split <;> simp
@[simp] theorem State.irq_tnd (s : State) (b : Blk) (i : Nat) : (s.irq b i).tnd = s.tnd := by unfold State.irq; simp only []; split <;> simp
@[simp] theorem State.irq_gns (s : State) (b : Blk) (i : Nat) : (s.irq b i).gns = s.gns := by unfold State.irq; simp only []; split <;> simp
@[simp] theorem State.irq_mac (s : State) (b : Blk) (i : Nat) : (s.irq b i).mac = s.mac := by unfold State.irq; simp only []; split <;> simp
@[simp] theorem State.irq_pkt (s : State) (b : Blk) (i : Nat) : (s.irq b i).pkt = s.pkt := by unfold State.irq; simp only []; split <;> simp
@[simp] theorem State.irq_cst (s : State) (b : Blk) (i : Nat) : (s.irq b i).cst = s.cst := by unfold State.irq; simp only []; split <;> simp
@[simp] theorem State.irq_img (s : State) (b : Blk) (i : Nat) : (s.irq b i).img = s.img := by unfold State.irq; simp only []; split <;> simp
@[simp] theorem State.irq_pwr (s : State) (b : Blk) (i : Nat) : (s.irq b i).pwr = s.pwr := by unfold State.irq; simp only []; split <;> simp
@[simp] theorem State.irq_dma (s : State) (b : Blk) (i : Nat) : (s.irq b i).dma = s.dma := by unfold State.irq; simp only []; split <;> simp
@[simp] theorem State.irq_prf (s : State) (b : Blk) (i : Nat) : (s.irq b i).prf = s.prf := by unfold State.irq; simp only []; split <;> simp
@[simp] theorem State.irq_pcie (s : State) (b : Blk) (i : Nat) : (s.irq b i).pcie = s.pcie := by unfold State.irq; simp only []; split <;> simp
@[simp] theorem State.irq_flt (s : State) (b : Blk) (i : Nat) : (s.irq b i).flt = s.flt := by unfold State.irq; simp only []; split <;> simp
@[simp] theorem State.irq_trace (s : State) (b : Blk) (i : Nat) : (s.irq b i).trace = s.trace := by unfold State.irq; simp only []; split <;> simp
@[simp] theorem State.irq_keys (s : State) (b : Blk) (i : Nat) : (s.irq b i).keys = s.keys := by unfold State.irq; simp only []; split <;> simp
@[simp] theorem State.irq_faults (s : State) (b : Blk) (i : Nat) : (s.irq b i).faults = s.faults := by unfold State.irq; simp only []; split <;> simp
@[simp] theorem State.irq_vecMask (s : State) (b : Blk) (i : Nat) : (s.irq b i).vecMask = s.vecMask := by unfold State.irq; simp only []; split <;> simp
@[simp] theorem State.irq_tally (s : State) (b : Blk) (i : Nat) : (s.irq b i).tally = s.tally := by unfold State.irq; simp only []; split <;> simp
@[simp] theorem State.irq_mem (s : State) (b : Blk) (i : Nat) : (s.irq b i).mem = s.mem := by unfold State.irq; simp only []; split <;> simp
@[simp] theorem State.irq_free (s : State) (b : Blk) (i : Nat) : (s.irq b i).free = s.free := by unfold State.irq; simp only []; split <;> simp
@[simp] theorem State.irq_pending (s : State) (b : Blk) (i : Nat) : (s.irq b i).pending = s.pending := by unfold State.irq; simp only []; split <;> simp

/-! ### `cfgBad` -/

@[simp] theorem State.cfgBad_live (s : State) (b : Blk) (o : Nat) : (s.cfgBad b o).live = s.live := by unfold State.cfgBad; simp only []; (repeat' split) <;> simp
@[simp] theorem State.cfgBad_pendSh (s : State) (b : Blk) (o : Nat) : (s.cfgBad b o).pendSh = s.pendSh := by unfold State.cfgBad; simp only []; (repeat' split) <;> simp
@[simp] theorem State.cfgBad_shStamp (s : State) (b : Blk) (o : Nat) : (s.cfgBad b o).shStamp = s.shStamp := by unfold State.cfgBad; simp only []; (repeat' split) <;> simp
@[simp] theorem State.cfgBad_bankP (s : State) (b : Blk) (o : Nat) : (s.cfgBad b o).bankP = s.bankP := by unfold State.cfgBad; simp only []; (repeat' split) <;> simp
@[simp] theorem State.cfgBad_bankI (s : State) (b : Blk) (o : Nat) : (s.cfgBad b o).bankI = s.bankI := by unfold State.cfgBad; simp only []; (repeat' split) <;> simp
@[simp] theorem State.cfgBad_rdP (s : State) (b : Blk) (o : Nat) : (s.cfgBad b o).rdP = s.rdP := by unfold State.cfgBad; simp only []; (repeat' split) <;> simp
@[simp] theorem State.cfgBad_rdI (s : State) (b : Blk) (o : Nat) : (s.cfgBad b o).rdI = s.rdI := by unfold State.cfgBad; simp only []; (repeat' split) <;> simp
@[simp] theorem State.cfgBad_fenceP (s : State) (b : Blk) (o : Nat) : (s.cfgBad b o).fenceP = s.fenceP := by unfold State.cfgBad; simp only []; (repeat' split) <;> simp
@[simp] theorem State.cfgBad_fenceI (s : State) (b : Blk) (o : Nat) : (s.cfgBad b o).fenceI = s.fenceI := by unfold State.cfgBad; simp only []; (repeat' split) <;> simp
@[simp] theorem State.cfgBad_heldP (s : State) (b : Blk) (o : Nat) : (s.cfgBad b o).heldP = s.heldP := by unfold State.cfgBad; simp only []; (repeat' split) <;> simp
@[simp] theorem State.cfgBad_heldI (s : State) (b : Blk) (o : Nat) : (s.cfgBad b o).heldI = s.heldI := by unfold State.cfgBad; simp only []; (repeat' split) <;> simp
@[simp] theorem State.cfgBad_chans (s : State) (b : Blk) (o : Nat) : (s.cfgBad b o).chans = s.chans := by unfold State.cfgBad; simp only []; (repeat' split) <;> simp
@[simp] theorem State.cfgBad_spn (s : State) (b : Blk) (o : Nat) : (s.cfgBad b o).spn = s.spn := by unfold State.cfgBad; simp only []; (repeat' split) <;> simp
@[simp] theorem State.cfgBad_monitors (s : State) (b : Blk) (o : Nat) : (s.cfgBad b o).monitors = s.monitors := by unfold State.cfgBad; simp only []; (repeat' split) <;> simp
@[simp] theorem State.cfgBad_tiuP (s : State) (b : Blk) (o : Nat) : (s.cfgBad b o).tiuP = s.tiuP := by unfold State.cfgBad; simp only []; (repeat' split) <;> simp
@[simp] theorem State.cfgBad_tiuL (s : State) (b : Blk) (o : Nat) : (s.cfgBad b o).tiuL = s.tiuL := by unfold State.cfgBad; simp only []; (repeat' split) <;> simp
@[simp] theorem State.cfgBad_syns (s : State) (b : Blk) (o : Nat) : (s.cfgBad b o).syns = s.syns := by unfold State.cfgBad; simp only []; (repeat' split) <;> simp
@[simp] theorem State.cfgBad_outs (s : State) (b : Blk) (o : Nat) : (s.cfgBad b o).outs = s.outs := by unfold State.cfgBad; simp only []; (repeat' split) <;> simp
@[simp] theorem State.cfgBad_lanes (s : State) (b : Blk) (o : Nat) : (s.cfgBad b o).lanes = s.lanes := by unfold State.cfgBad; simp only []; (repeat' split) <;> simp
@[simp] theorem State.cfgBad_pps (s : State) (b : Blk) (o : Nat) : (s.cfgBad b o).pps = s.pps := by unfold State.cfgBad; simp only []; (repeat' split) <;> simp
@[simp] theorem State.cfgBad_tod (s : State) (b : Blk) (o : Nat) : (s.cfgBad b o).tod = s.tod := by unfold State.cfgBad; simp only []; (repeat' split) <;> simp
@[simp] theorem State.cfgBad_ens (s : State) (b : Blk) (o : Nat) : (s.cfgBad b o).ens = s.ens := by unfold State.cfgBad; simp only []; (repeat' split) <;> simp
@[simp] theorem State.cfgBad_srcRes (s : State) (b : Blk) (o : Nat) : (s.cfgBad b o).srcRes = s.srcRes := by unfold State.cfgBad; simp only []; (repeat' split) <;> simp
@[simp] theorem State.cfgBad_tnd (s : State) (b : Blk) (o : Nat) : (s.cfgBad b o).tnd = s.tnd := by unfold State.cfgBad; simp only []; (repeat' split) <;> simp
@[simp] theorem State.cfgBad_gns (s : State) (b : Blk) (o : Nat) : (s.cfgBad b o).gns = s.gns := by unfold State.cfgBad; simp only []; (repeat' split) <;> simp
@[simp] theorem State.cfgBad_mac (s : State) (b : Blk) (o : Nat) : (s.cfgBad b o).mac = s.mac := by unfold State.cfgBad; simp only []; (repeat' split) <;> simp
@[simp] theorem State.cfgBad_pkt (s : State) (b : Blk) (o : Nat) : (s.cfgBad b o).pkt = s.pkt := by unfold State.cfgBad; simp only []; (repeat' split) <;> simp
@[simp] theorem State.cfgBad_cst (s : State) (b : Blk) (o : Nat) : (s.cfgBad b o).cst = s.cst := by unfold State.cfgBad; simp only []; (repeat' split) <;> simp
@[simp] theorem State.cfgBad_img (s : State) (b : Blk) (o : Nat) : (s.cfgBad b o).img = s.img := by unfold State.cfgBad; simp only []; (repeat' split) <;> simp
@[simp] theorem State.cfgBad_pwr (s : State) (b : Blk) (o : Nat) : (s.cfgBad b o).pwr = s.pwr := by unfold State.cfgBad; simp only []; (repeat' split) <;> simp
@[simp] theorem State.cfgBad_dma (s : State) (b : Blk) (o : Nat) : (s.cfgBad b o).dma = s.dma := by unfold State.cfgBad; simp only []; (repeat' split) <;> simp
@[simp] theorem State.cfgBad_prf (s : State) (b : Blk) (o : Nat) : (s.cfgBad b o).prf = s.prf := by unfold State.cfgBad; simp only []; (repeat' split) <;> simp
@[simp] theorem State.cfgBad_pcie (s : State) (b : Blk) (o : Nat) : (s.cfgBad b o).pcie = s.pcie := by unfold State.cfgBad; simp only []; (repeat' split) <;> simp
@[simp] theorem State.cfgBad_flt (s : State) (b : Blk) (o : Nat) : (s.cfgBad b o).flt = s.flt := by unfold State.cfgBad; simp only []; (repeat' split) <;> simp
@[simp] theorem State.cfgBad_trace (s : State) (b : Blk) (o : Nat) : (s.cfgBad b o).trace = s.trace := by unfold State.cfgBad; simp only []; (repeat' split) <;> simp
@[simp] theorem State.cfgBad_keys (s : State) (b : Blk) (o : Nat) : (s.cfgBad b o).keys = s.keys := by unfold State.cfgBad; simp only []; (repeat' split) <;> simp
@[simp] theorem State.cfgBad_vecMask (s : State) (b : Blk) (o : Nat) : (s.cfgBad b o).vecMask = s.vecMask := by unfold State.cfgBad; simp only []; (repeat' split) <;> simp
@[simp] theorem State.cfgBad_tally (s : State) (b : Blk) (o : Nat) : (s.cfgBad b o).tally = s.tally := by unfold State.cfgBad; simp only []; (repeat' split) <;> simp
@[simp] theorem State.cfgBad_mem (s : State) (b : Blk) (o : Nat) : (s.cfgBad b o).mem = s.mem := by unfold State.cfgBad; simp only []; (repeat' split) <;> simp
@[simp] theorem State.cfgBad_free (s : State) (b : Blk) (o : Nat) : (s.cfgBad b o).free = s.free := by unfold State.cfgBad; simp only []; (repeat' split) <;> simp
@[simp] theorem State.cfgBad_pending (s : State) (b : Blk) (o : Nat) : (s.cfgBad b o).pending = s.pending := by unfold State.cfgBad; simp only []; (repeat' split) <;> simp

/-! ### `setBank` -/

@[simp] theorem State.setBank_regs (s : State) (i : Itf) (m : RegFile) : (s.setBank i m).regs = s.regs := by cases i <;> rfl
@[simp] theorem State.setBank_live (s : State) (i : Itf) (m : RegFile) : (s.setBank i m).live = s.live := by cases i <;> rfl
@[simp] theorem State.setBank_pendSh (s : State) (i : Itf) (m : RegFile) : (s.setBank i m).pendSh = s.pendSh := by cases i <;> rfl
@[simp] theorem State.setBank_shStamp (s : State) (i : Itf) (m : RegFile) : (s.setBank i m).shStamp = s.shStamp := by cases i <;> rfl
@[simp] theorem State.setBank_rdP (s : State) (i : Itf) (m : RegFile) : (s.setBank i m).rdP = s.rdP := by cases i <;> rfl
@[simp] theorem State.setBank_rdI (s : State) (i : Itf) (m : RegFile) : (s.setBank i m).rdI = s.rdI := by cases i <;> rfl
@[simp] theorem State.setBank_fenceP (s : State) (i : Itf) (m : RegFile) : (s.setBank i m).fenceP = s.fenceP := by cases i <;> rfl
@[simp] theorem State.setBank_fenceI (s : State) (i : Itf) (m : RegFile) : (s.setBank i m).fenceI = s.fenceI := by cases i <;> rfl
@[simp] theorem State.setBank_heldP (s : State) (i : Itf) (m : RegFile) : (s.setBank i m).heldP = s.heldP := by cases i <;> rfl
@[simp] theorem State.setBank_heldI (s : State) (i : Itf) (m : RegFile) : (s.setBank i m).heldI = s.heldI := by cases i <;> rfl
@[simp] theorem State.setBank_chans (s : State) (i : Itf) (m : RegFile) : (s.setBank i m).chans = s.chans := by cases i <;> rfl
@[simp] theorem State.setBank_spn (s : State) (i : Itf) (m : RegFile) : (s.setBank i m).spn = s.spn := by cases i <;> rfl
@[simp] theorem State.setBank_monitors (s : State) (i : Itf) (m : RegFile) : (s.setBank i m).monitors = s.monitors := by cases i <;> rfl
@[simp] theorem State.setBank_tiuP (s : State) (i : Itf) (m : RegFile) : (s.setBank i m).tiuP = s.tiuP := by cases i <;> rfl
@[simp] theorem State.setBank_tiuL (s : State) (i : Itf) (m : RegFile) : (s.setBank i m).tiuL = s.tiuL := by cases i <;> rfl
@[simp] theorem State.setBank_syns (s : State) (i : Itf) (m : RegFile) : (s.setBank i m).syns = s.syns := by cases i <;> rfl
@[simp] theorem State.setBank_outs (s : State) (i : Itf) (m : RegFile) : (s.setBank i m).outs = s.outs := by cases i <;> rfl
@[simp] theorem State.setBank_lanes (s : State) (i : Itf) (m : RegFile) : (s.setBank i m).lanes = s.lanes := by cases i <;> rfl
@[simp] theorem State.setBank_pps (s : State) (i : Itf) (m : RegFile) : (s.setBank i m).pps = s.pps := by cases i <;> rfl
@[simp] theorem State.setBank_tod (s : State) (i : Itf) (m : RegFile) : (s.setBank i m).tod = s.tod := by cases i <;> rfl
@[simp] theorem State.setBank_ens (s : State) (i : Itf) (m : RegFile) : (s.setBank i m).ens = s.ens := by cases i <;> rfl
@[simp] theorem State.setBank_srcRes (s : State) (i : Itf) (m : RegFile) : (s.setBank i m).srcRes = s.srcRes := by cases i <;> rfl
@[simp] theorem State.setBank_tnd (s : State) (i : Itf) (m : RegFile) : (s.setBank i m).tnd = s.tnd := by cases i <;> rfl
@[simp] theorem State.setBank_gns (s : State) (i : Itf) (m : RegFile) : (s.setBank i m).gns = s.gns := by cases i <;> rfl
@[simp] theorem State.setBank_mac (s : State) (i : Itf) (m : RegFile) : (s.setBank i m).mac = s.mac := by cases i <;> rfl
@[simp] theorem State.setBank_pkt (s : State) (i : Itf) (m : RegFile) : (s.setBank i m).pkt = s.pkt := by cases i <;> rfl
@[simp] theorem State.setBank_cst (s : State) (i : Itf) (m : RegFile) : (s.setBank i m).cst = s.cst := by cases i <;> rfl
@[simp] theorem State.setBank_img (s : State) (i : Itf) (m : RegFile) : (s.setBank i m).img = s.img := by cases i <;> rfl
@[simp] theorem State.setBank_pwr (s : State) (i : Itf) (m : RegFile) : (s.setBank i m).pwr = s.pwr := by cases i <;> rfl
@[simp] theorem State.setBank_dma (s : State) (i : Itf) (m : RegFile) : (s.setBank i m).dma = s.dma := by cases i <;> rfl
@[simp] theorem State.setBank_prf (s : State) (i : Itf) (m : RegFile) : (s.setBank i m).prf = s.prf := by cases i <;> rfl
@[simp] theorem State.setBank_pcie (s : State) (i : Itf) (m : RegFile) : (s.setBank i m).pcie = s.pcie := by cases i <;> rfl
@[simp] theorem State.setBank_flt (s : State) (i : Itf) (m : RegFile) : (s.setBank i m).flt = s.flt := by cases i <;> rfl
@[simp] theorem State.setBank_trace (s : State) (i : Itf) (m : RegFile) : (s.setBank i m).trace = s.trace := by cases i <;> rfl
@[simp] theorem State.setBank_keys (s : State) (i : Itf) (m : RegFile) : (s.setBank i m).keys = s.keys := by cases i <;> rfl
@[simp] theorem State.setBank_faults (s : State) (i : Itf) (m : RegFile) : (s.setBank i m).faults = s.faults := by cases i <;> rfl
@[simp] theorem State.setBank_vecMask (s : State) (i : Itf) (m : RegFile) : (s.setBank i m).vecMask = s.vecMask := by cases i <;> rfl
@[simp] theorem State.setBank_pba (s : State) (i : Itf) (m : RegFile) : (s.setBank i m).pba = s.pba := by cases i <;> rfl
@[simp] theorem State.setBank_tally (s : State) (i : Itf) (m : RegFile) : (s.setBank i m).tally = s.tally := by cases i <;> rfl
@[simp] theorem State.setBank_mem (s : State) (i : Itf) (m : RegFile) : (s.setBank i m).mem = s.mem := by cases i <;> rfl
@[simp] theorem State.setBank_out (s : State) (i : Itf) (m : RegFile) : (s.setBank i m).out = s.out := by cases i <;> rfl
@[simp] theorem State.setBank_free (s : State) (i : Itf) (m : RegFile) : (s.setBank i m).free = s.free := by cases i <;> rfl
@[simp] theorem State.setBank_pending (s : State) (i : Itf) (m : RegFile) : (s.setBank i m).pending = s.pending := by cases i <;> rfl

/-! ### `bankWr` -/

@[simp] theorem State.bankWr_regs (s : State) (i : Itf) (o : Nat) (v : Word) : (s.bankWr i o v).regs = s.regs := by cases i <;> rfl
@[simp] theorem State.bankWr_live (s : State) (i : Itf) (o : Nat) (v : Word) : (s.bankWr i o v).live = s.live := by cases i <;> rfl
@[simp] theorem State.bankWr_pendSh (s : State) (i : Itf) (o : Nat) (v : Word) : (s.bankWr i o v).pendSh = s.pendSh := by cases i <;> rfl
@[simp] theorem State.bankWr_shStamp (s : State) (i : Itf) (o : Nat) (v : Word) : (s.bankWr i o v).shStamp = s.shStamp := by cases i <;> rfl
@[simp] theorem State.bankWr_rdP (s : State) (i : Itf) (o : Nat) (v : Word) : (s.bankWr i o v).rdP = s.rdP := by cases i <;> rfl
@[simp] theorem State.bankWr_rdI (s : State) (i : Itf) (o : Nat) (v : Word) : (s.bankWr i o v).rdI = s.rdI := by cases i <;> rfl
@[simp] theorem State.bankWr_fenceP (s : State) (i : Itf) (o : Nat) (v : Word) : (s.bankWr i o v).fenceP = s.fenceP := by cases i <;> rfl
@[simp] theorem State.bankWr_fenceI (s : State) (i : Itf) (o : Nat) (v : Word) : (s.bankWr i o v).fenceI = s.fenceI := by cases i <;> rfl
@[simp] theorem State.bankWr_heldP (s : State) (i : Itf) (o : Nat) (v : Word) : (s.bankWr i o v).heldP = s.heldP := by cases i <;> rfl
@[simp] theorem State.bankWr_heldI (s : State) (i : Itf) (o : Nat) (v : Word) : (s.bankWr i o v).heldI = s.heldI := by cases i <;> rfl
@[simp] theorem State.bankWr_chans (s : State) (i : Itf) (o : Nat) (v : Word) : (s.bankWr i o v).chans = s.chans := by cases i <;> rfl
@[simp] theorem State.bankWr_spn (s : State) (i : Itf) (o : Nat) (v : Word) : (s.bankWr i o v).spn = s.spn := by cases i <;> rfl
@[simp] theorem State.bankWr_monitors (s : State) (i : Itf) (o : Nat) (v : Word) : (s.bankWr i o v).monitors = s.monitors := by cases i <;> rfl
@[simp] theorem State.bankWr_tiuP (s : State) (i : Itf) (o : Nat) (v : Word) : (s.bankWr i o v).tiuP = s.tiuP := by cases i <;> rfl
@[simp] theorem State.bankWr_tiuL (s : State) (i : Itf) (o : Nat) (v : Word) : (s.bankWr i o v).tiuL = s.tiuL := by cases i <;> rfl
@[simp] theorem State.bankWr_syns (s : State) (i : Itf) (o : Nat) (v : Word) : (s.bankWr i o v).syns = s.syns := by cases i <;> rfl
@[simp] theorem State.bankWr_outs (s : State) (i : Itf) (o : Nat) (v : Word) : (s.bankWr i o v).outs = s.outs := by cases i <;> rfl
@[simp] theorem State.bankWr_lanes (s : State) (i : Itf) (o : Nat) (v : Word) : (s.bankWr i o v).lanes = s.lanes := by cases i <;> rfl
@[simp] theorem State.bankWr_pps (s : State) (i : Itf) (o : Nat) (v : Word) : (s.bankWr i o v).pps = s.pps := by cases i <;> rfl
@[simp] theorem State.bankWr_tod (s : State) (i : Itf) (o : Nat) (v : Word) : (s.bankWr i o v).tod = s.tod := by cases i <;> rfl
@[simp] theorem State.bankWr_ens (s : State) (i : Itf) (o : Nat) (v : Word) : (s.bankWr i o v).ens = s.ens := by cases i <;> rfl
@[simp] theorem State.bankWr_srcRes (s : State) (i : Itf) (o : Nat) (v : Word) : (s.bankWr i o v).srcRes = s.srcRes := by cases i <;> rfl
@[simp] theorem State.bankWr_tnd (s : State) (i : Itf) (o : Nat) (v : Word) : (s.bankWr i o v).tnd = s.tnd := by cases i <;> rfl
@[simp] theorem State.bankWr_gns (s : State) (i : Itf) (o : Nat) (v : Word) : (s.bankWr i o v).gns = s.gns := by cases i <;> rfl
@[simp] theorem State.bankWr_mac (s : State) (i : Itf) (o : Nat) (v : Word) : (s.bankWr i o v).mac = s.mac := by cases i <;> rfl
@[simp] theorem State.bankWr_pkt (s : State) (i : Itf) (o : Nat) (v : Word) : (s.bankWr i o v).pkt = s.pkt := by cases i <;> rfl
@[simp] theorem State.bankWr_cst (s : State) (i : Itf) (o : Nat) (v : Word) : (s.bankWr i o v).cst = s.cst := by cases i <;> rfl
@[simp] theorem State.bankWr_img (s : State) (i : Itf) (o : Nat) (v : Word) : (s.bankWr i o v).img = s.img := by cases i <;> rfl
@[simp] theorem State.bankWr_pwr (s : State) (i : Itf) (o : Nat) (v : Word) : (s.bankWr i o v).pwr = s.pwr := by cases i <;> rfl
@[simp] theorem State.bankWr_dma (s : State) (i : Itf) (o : Nat) (v : Word) : (s.bankWr i o v).dma = s.dma := by cases i <;> rfl
@[simp] theorem State.bankWr_prf (s : State) (i : Itf) (o : Nat) (v : Word) : (s.bankWr i o v).prf = s.prf := by cases i <;> rfl
@[simp] theorem State.bankWr_pcie (s : State) (i : Itf) (o : Nat) (v : Word) : (s.bankWr i o v).pcie = s.pcie := by cases i <;> rfl
@[simp] theorem State.bankWr_flt (s : State) (i : Itf) (o : Nat) (v : Word) : (s.bankWr i o v).flt = s.flt := by cases i <;> rfl
@[simp] theorem State.bankWr_trace (s : State) (i : Itf) (o : Nat) (v : Word) : (s.bankWr i o v).trace = s.trace := by cases i <;> rfl
@[simp] theorem State.bankWr_keys (s : State) (i : Itf) (o : Nat) (v : Word) : (s.bankWr i o v).keys = s.keys := by cases i <;> rfl
@[simp] theorem State.bankWr_faults (s : State) (i : Itf) (o : Nat) (v : Word) : (s.bankWr i o v).faults = s.faults := by cases i <;> rfl
@[simp] theorem State.bankWr_vecMask (s : State) (i : Itf) (o : Nat) (v : Word) : (s.bankWr i o v).vecMask = s.vecMask := by cases i <;> rfl
@[simp] theorem State.bankWr_pba (s : State) (i : Itf) (o : Nat) (v : Word) : (s.bankWr i o v).pba = s.pba := by cases i <;> rfl
@[simp] theorem State.bankWr_tally (s : State) (i : Itf) (o : Nat) (v : Word) : (s.bankWr i o v).tally = s.tally := by cases i <;> rfl
@[simp] theorem State.bankWr_mem (s : State) (i : Itf) (o : Nat) (v : Word) : (s.bankWr i o v).mem = s.mem := by cases i <;> rfl
@[simp] theorem State.bankWr_out (s : State) (i : Itf) (o : Nat) (v : Word) : (s.bankWr i o v).out = s.out := by cases i <;> rfl
@[simp] theorem State.bankWr_free (s : State) (i : Itf) (o : Nat) (v : Word) : (s.bankWr i o v).free = s.free := by cases i <;> rfl
@[simp] theorem State.bankWr_pending (s : State) (i : Itf) (o : Nat) (v : Word) : (s.bankWr i o v).pending = s.pending := by cases i <;> rfl

/-! ### `complete` -/

@[simp] theorem State.complete_regs (s : State) (i : Itf) (c : Completion) : (s.complete i c).regs = s.regs := by cases i <;> rfl
@[simp] theorem State.complete_live (s : State) (i : Itf) (c : Completion) : (s.complete i c).live = s.live := by cases i <;> rfl
@[simp] theorem State.complete_pendSh (s : State) (i : Itf) (c : Completion) : (s.complete i c).pendSh = s.pendSh := by cases i <;> rfl
@[simp] theorem State.complete_shStamp (s : State) (i : Itf) (c : Completion) : (s.complete i c).shStamp = s.shStamp := by cases i <;> rfl
@[simp] theorem State.complete_bankP (s : State) (i : Itf) (c : Completion) : (s.complete i c).bankP = s.bankP := by cases i <;> rfl
@[simp] theorem State.complete_bankI (s : State) (i : Itf) (c : Completion) : (s.complete i c).bankI = s.bankI := by cases i <;> rfl
@[simp] theorem State.complete_fenceP (s : State) (i : Itf) (c : Completion) : (s.complete i c).fenceP = s.fenceP := by cases i <;> rfl
@[simp] theorem State.complete_fenceI (s : State) (i : Itf) (c : Completion) : (s.complete i c).fenceI = s.fenceI := by cases i <;> rfl
@[simp] theorem State.complete_heldP (s : State) (i : Itf) (c : Completion) : (s.complete i c).heldP = s.heldP := by cases i <;> rfl
@[simp] theorem State.complete_heldI (s : State) (i : Itf) (c : Completion) : (s.complete i c).heldI = s.heldI := by cases i <;> rfl
@[simp] theorem State.complete_chans (s : State) (i : Itf) (c : Completion) : (s.complete i c).chans = s.chans := by cases i <;> rfl
@[simp] theorem State.complete_spn (s : State) (i : Itf) (c : Completion) : (s.complete i c).spn = s.spn := by cases i <;> rfl
@[simp] theorem State.complete_monitors (s : State) (i : Itf) (c : Completion) : (s.complete i c).monitors = s.monitors := by cases i <;> rfl
@[simp] theorem State.complete_tiuP (s : State) (i : Itf) (c : Completion) : (s.complete i c).tiuP = s.tiuP := by cases i <;> rfl
@[simp] theorem State.complete_tiuL (s : State) (i : Itf) (c : Completion) : (s.complete i c).tiuL = s.tiuL := by cases i <;> rfl
@[simp] theorem State.complete_syns (s : State) (i : Itf) (c : Completion) : (s.complete i c).syns = s.syns := by cases i <;> rfl
@[simp] theorem State.complete_outs (s : State) (i : Itf) (c : Completion) : (s.complete i c).outs = s.outs := by cases i <;> rfl
@[simp] theorem State.complete_lanes (s : State) (i : Itf) (c : Completion) : (s.complete i c).lanes = s.lanes := by cases i <;> rfl
@[simp] theorem State.complete_pps (s : State) (i : Itf) (c : Completion) : (s.complete i c).pps = s.pps := by cases i <;> rfl
@[simp] theorem State.complete_tod (s : State) (i : Itf) (c : Completion) : (s.complete i c).tod = s.tod := by cases i <;> rfl
@[simp] theorem State.complete_ens (s : State) (i : Itf) (c : Completion) : (s.complete i c).ens = s.ens := by cases i <;> rfl
@[simp] theorem State.complete_srcRes (s : State) (i : Itf) (c : Completion) : (s.complete i c).srcRes = s.srcRes := by cases i <;> rfl
@[simp] theorem State.complete_tnd (s : State) (i : Itf) (c : Completion) : (s.complete i c).tnd = s.tnd := by cases i <;> rfl
@[simp] theorem State.complete_gns (s : State) (i : Itf) (c : Completion) : (s.complete i c).gns = s.gns := by cases i <;> rfl
@[simp] theorem State.complete_mac (s : State) (i : Itf) (c : Completion) : (s.complete i c).mac = s.mac := by cases i <;> rfl
@[simp] theorem State.complete_pkt (s : State) (i : Itf) (c : Completion) : (s.complete i c).pkt = s.pkt := by cases i <;> rfl
@[simp] theorem State.complete_cst (s : State) (i : Itf) (c : Completion) : (s.complete i c).cst = s.cst := by cases i <;> rfl
@[simp] theorem State.complete_img (s : State) (i : Itf) (c : Completion) : (s.complete i c).img = s.img := by cases i <;> rfl
@[simp] theorem State.complete_pwr (s : State) (i : Itf) (c : Completion) : (s.complete i c).pwr = s.pwr := by cases i <;> rfl
@[simp] theorem State.complete_dma (s : State) (i : Itf) (c : Completion) : (s.complete i c).dma = s.dma := by cases i <;> rfl
@[simp] theorem State.complete_prf (s : State) (i : Itf) (c : Completion) : (s.complete i c).prf = s.prf := by cases i <;> rfl
@[simp] theorem State.complete_pcie (s : State) (i : Itf) (c : Completion) : (s.complete i c).pcie = s.pcie := by cases i <;> rfl
@[simp] theorem State.complete_flt (s : State) (i : Itf) (c : Completion) : (s.complete i c).flt = s.flt := by cases i <;> rfl
@[simp] theorem State.complete_trace (s : State) (i : Itf) (c : Completion) : (s.complete i c).trace = s.trace := by cases i <;> rfl
@[simp] theorem State.complete_keys (s : State) (i : Itf) (c : Completion) : (s.complete i c).keys = s.keys := by cases i <;> rfl
@[simp] theorem State.complete_faults (s : State) (i : Itf) (c : Completion) : (s.complete i c).faults = s.faults := by cases i <;> rfl
@[simp] theorem State.complete_vecMask (s : State) (i : Itf) (c : Completion) : (s.complete i c).vecMask = s.vecMask := by cases i <;> rfl
@[simp] theorem State.complete_pba (s : State) (i : Itf) (c : Completion) : (s.complete i c).pba = s.pba := by cases i <;> rfl
@[simp] theorem State.complete_tally (s : State) (i : Itf) (c : Completion) : (s.complete i c).tally = s.tally := by cases i <;> rfl
@[simp] theorem State.complete_mem (s : State) (i : Itf) (c : Completion) : (s.complete i c).mem = s.mem := by cases i <;> rfl
@[simp] theorem State.complete_out (s : State) (i : Itf) (c : Completion) : (s.complete i c).out = s.out := by cases i <;> rfl
@[simp] theorem State.complete_free (s : State) (i : Itf) (c : Completion) : (s.complete i c).free = s.free := by cases i <;> rfl
@[simp] theorem State.complete_pending (s : State) (i : Itf) (c : Completion) : (s.complete i c).pending = s.pending := by cases i <;> rfl

/-! ### `answer` -/

@[simp] theorem State.answer_regs (s : State) (i : Itf) (a : Nat) (v : Word) : (s.answer i a v).regs = s.regs := by cases i <;> rfl
@[simp] theorem State.answer_live (s : State) (i : Itf) (a : Nat) (v : Word) : (s.answer i a v).live = s.live := by cases i <;> rfl
@[simp] theorem State.answer_pendSh (s : State) (i : Itf) (a : Nat) (v : Word) : (s.answer i a v).pendSh = s.pendSh := by cases i <;> rfl
@[simp] theorem State.answer_shStamp (s : State) (i : Itf) (a : Nat) (v : Word) : (s.answer i a v).shStamp = s.shStamp := by cases i <;> rfl
@[simp] theorem State.answer_bankP (s : State) (i : Itf) (a : Nat) (v : Word) : (s.answer i a v).bankP = s.bankP := by cases i <;> rfl
@[simp] theorem State.answer_bankI (s : State) (i : Itf) (a : Nat) (v : Word) : (s.answer i a v).bankI = s.bankI := by cases i <;> rfl
@[simp] theorem State.answer_fenceP (s : State) (i : Itf) (a : Nat) (v : Word) : (s.answer i a v).fenceP = s.fenceP := by cases i <;> rfl
@[simp] theorem State.answer_fenceI (s : State) (i : Itf) (a : Nat) (v : Word) : (s.answer i a v).fenceI = s.fenceI := by cases i <;> rfl
@[simp] theorem State.answer_heldP (s : State) (i : Itf) (a : Nat) (v : Word) : (s.answer i a v).heldP = s.heldP := by cases i <;> rfl
@[simp] theorem State.answer_heldI (s : State) (i : Itf) (a : Nat) (v : Word) : (s.answer i a v).heldI = s.heldI := by cases i <;> rfl
@[simp] theorem State.answer_chans (s : State) (i : Itf) (a : Nat) (v : Word) : (s.answer i a v).chans = s.chans := by cases i <;> rfl
@[simp] theorem State.answer_spn (s : State) (i : Itf) (a : Nat) (v : Word) : (s.answer i a v).spn = s.spn := by cases i <;> rfl
@[simp] theorem State.answer_monitors (s : State) (i : Itf) (a : Nat) (v : Word) : (s.answer i a v).monitors = s.monitors := by cases i <;> rfl
@[simp] theorem State.answer_tiuP (s : State) (i : Itf) (a : Nat) (v : Word) : (s.answer i a v).tiuP = s.tiuP := by cases i <;> rfl
@[simp] theorem State.answer_tiuL (s : State) (i : Itf) (a : Nat) (v : Word) : (s.answer i a v).tiuL = s.tiuL := by cases i <;> rfl
@[simp] theorem State.answer_syns (s : State) (i : Itf) (a : Nat) (v : Word) : (s.answer i a v).syns = s.syns := by cases i <;> rfl
@[simp] theorem State.answer_outs (s : State) (i : Itf) (a : Nat) (v : Word) : (s.answer i a v).outs = s.outs := by cases i <;> rfl
@[simp] theorem State.answer_lanes (s : State) (i : Itf) (a : Nat) (v : Word) : (s.answer i a v).lanes = s.lanes := by cases i <;> rfl
@[simp] theorem State.answer_pps (s : State) (i : Itf) (a : Nat) (v : Word) : (s.answer i a v).pps = s.pps := by cases i <;> rfl
@[simp] theorem State.answer_tod (s : State) (i : Itf) (a : Nat) (v : Word) : (s.answer i a v).tod = s.tod := by cases i <;> rfl
@[simp] theorem State.answer_ens (s : State) (i : Itf) (a : Nat) (v : Word) : (s.answer i a v).ens = s.ens := by cases i <;> rfl
@[simp] theorem State.answer_srcRes (s : State) (i : Itf) (a : Nat) (v : Word) : (s.answer i a v).srcRes = s.srcRes := by cases i <;> rfl
@[simp] theorem State.answer_tnd (s : State) (i : Itf) (a : Nat) (v : Word) : (s.answer i a v).tnd = s.tnd := by cases i <;> rfl
@[simp] theorem State.answer_gns (s : State) (i : Itf) (a : Nat) (v : Word) : (s.answer i a v).gns = s.gns := by cases i <;> rfl
@[simp] theorem State.answer_mac (s : State) (i : Itf) (a : Nat) (v : Word) : (s.answer i a v).mac = s.mac := by cases i <;> rfl
@[simp] theorem State.answer_pkt (s : State) (i : Itf) (a : Nat) (v : Word) : (s.answer i a v).pkt = s.pkt := by cases i <;> rfl
@[simp] theorem State.answer_cst (s : State) (i : Itf) (a : Nat) (v : Word) : (s.answer i a v).cst = s.cst := by cases i <;> rfl
@[simp] theorem State.answer_img (s : State) (i : Itf) (a : Nat) (v : Word) : (s.answer i a v).img = s.img := by cases i <;> rfl
@[simp] theorem State.answer_pwr (s : State) (i : Itf) (a : Nat) (v : Word) : (s.answer i a v).pwr = s.pwr := by cases i <;> rfl
@[simp] theorem State.answer_dma (s : State) (i : Itf) (a : Nat) (v : Word) : (s.answer i a v).dma = s.dma := by cases i <;> rfl
@[simp] theorem State.answer_prf (s : State) (i : Itf) (a : Nat) (v : Word) : (s.answer i a v).prf = s.prf := by cases i <;> rfl
@[simp] theorem State.answer_pcie (s : State) (i : Itf) (a : Nat) (v : Word) : (s.answer i a v).pcie = s.pcie := by cases i <;> rfl
@[simp] theorem State.answer_flt (s : State) (i : Itf) (a : Nat) (v : Word) : (s.answer i a v).flt = s.flt := by cases i <;> rfl
@[simp] theorem State.answer_trace (s : State) (i : Itf) (a : Nat) (v : Word) : (s.answer i a v).trace = s.trace := by cases i <;> rfl
@[simp] theorem State.answer_keys (s : State) (i : Itf) (a : Nat) (v : Word) : (s.answer i a v).keys = s.keys := by cases i <;> rfl
@[simp] theorem State.answer_faults (s : State) (i : Itf) (a : Nat) (v : Word) : (s.answer i a v).faults = s.faults := by cases i <;> rfl
@[simp] theorem State.answer_vecMask (s : State) (i : Itf) (a : Nat) (v : Word) : (s.answer i a v).vecMask = s.vecMask := by cases i <;> rfl
@[simp] theorem State.answer_pba (s : State) (i : Itf) (a : Nat) (v : Word) : (s.answer i a v).pba = s.pba := by cases i <;> rfl
@[simp] theorem State.answer_tally (s : State) (i : Itf) (a : Nat) (v : Word) : (s.answer i a v).tally = s.tally := by cases i <;> rfl
@[simp] theorem State.answer_mem (s : State) (i : Itf) (a : Nat) (v : Word) : (s.answer i a v).mem = s.mem := by cases i <;> rfl
@[simp] theorem State.answer_free (s : State) (i : Itf) (a : Nat) (v : Word) : (s.answer i a v).free = s.free := by cases i <;> rfl
@[simp] theorem State.answer_pending (s : State) (i : Itf) (a : Nat) (v : Word) : (s.answer i a v).pending = s.pending := by cases i <;> rfl

/-! ### `hold` -/

@[simp] theorem State.hold_regs (s : State) (h : HeldWrite) : (s.hold h).regs = s.regs := by unfold State.hold; cases h.itf <;> rfl
@[simp] theorem State.hold_live (s : State) (h : HeldWrite) : (s.hold h).live = s.live := by unfold State.hold; cases h.itf <;> rfl
@[simp] theorem State.hold_pendSh (s : State) (h : HeldWrite) : (s.hold h).pendSh = s.pendSh := by unfold State.hold; cases h.itf <;> rfl
@[simp] theorem State.hold_shStamp (s : State) (h : HeldWrite) : (s.hold h).shStamp = s.shStamp := by unfold State.hold; cases h.itf <;> rfl
@[simp] theorem State.hold_bankP (s : State) (h : HeldWrite) : (s.hold h).bankP = s.bankP := by unfold State.hold; cases h.itf <;> rfl
@[simp] theorem State.hold_bankI (s : State) (h : HeldWrite) : (s.hold h).bankI = s.bankI := by unfold State.hold; cases h.itf <;> rfl
@[simp] theorem State.hold_rdP (s : State) (h : HeldWrite) : (s.hold h).rdP = s.rdP := by unfold State.hold; cases h.itf <;> rfl
@[simp] theorem State.hold_rdI (s : State) (h : HeldWrite) : (s.hold h).rdI = s.rdI := by unfold State.hold; cases h.itf <;> rfl
@[simp] theorem State.hold_fenceP (s : State) (h : HeldWrite) : (s.hold h).fenceP = s.fenceP := by unfold State.hold; cases h.itf <;> rfl
@[simp] theorem State.hold_fenceI (s : State) (h : HeldWrite) : (s.hold h).fenceI = s.fenceI := by unfold State.hold; cases h.itf <;> rfl
@[simp] theorem State.hold_chans (s : State) (h : HeldWrite) : (s.hold h).chans = s.chans := by unfold State.hold; cases h.itf <;> rfl
@[simp] theorem State.hold_spn (s : State) (h : HeldWrite) : (s.hold h).spn = s.spn := by unfold State.hold; cases h.itf <;> rfl
@[simp] theorem State.hold_monitors (s : State) (h : HeldWrite) : (s.hold h).monitors = s.monitors := by unfold State.hold; cases h.itf <;> rfl
@[simp] theorem State.hold_tiuP (s : State) (h : HeldWrite) : (s.hold h).tiuP = s.tiuP := by unfold State.hold; cases h.itf <;> rfl
@[simp] theorem State.hold_tiuL (s : State) (h : HeldWrite) : (s.hold h).tiuL = s.tiuL := by unfold State.hold; cases h.itf <;> rfl
@[simp] theorem State.hold_syns (s : State) (h : HeldWrite) : (s.hold h).syns = s.syns := by unfold State.hold; cases h.itf <;> rfl
@[simp] theorem State.hold_outs (s : State) (h : HeldWrite) : (s.hold h).outs = s.outs := by unfold State.hold; cases h.itf <;> rfl
@[simp] theorem State.hold_lanes (s : State) (h : HeldWrite) : (s.hold h).lanes = s.lanes := by unfold State.hold; cases h.itf <;> rfl
@[simp] theorem State.hold_pps (s : State) (h : HeldWrite) : (s.hold h).pps = s.pps := by unfold State.hold; cases h.itf <;> rfl
@[simp] theorem State.hold_tod (s : State) (h : HeldWrite) : (s.hold h).tod = s.tod := by unfold State.hold; cases h.itf <;> rfl
@[simp] theorem State.hold_ens (s : State) (h : HeldWrite) : (s.hold h).ens = s.ens := by unfold State.hold; cases h.itf <;> rfl
@[simp] theorem State.hold_srcRes (s : State) (h : HeldWrite) : (s.hold h).srcRes = s.srcRes := by unfold State.hold; cases h.itf <;> rfl
@[simp] theorem State.hold_tnd (s : State) (h : HeldWrite) : (s.hold h).tnd = s.tnd := by unfold State.hold; cases h.itf <;> rfl
@[simp] theorem State.hold_gns (s : State) (h : HeldWrite) : (s.hold h).gns = s.gns := by unfold State.hold; cases h.itf <;> rfl
@[simp] theorem State.hold_mac (s : State) (h : HeldWrite) : (s.hold h).mac = s.mac := by unfold State.hold; cases h.itf <;> rfl
@[simp] theorem State.hold_pkt (s : State) (h : HeldWrite) : (s.hold h).pkt = s.pkt := by unfold State.hold; cases h.itf <;> rfl
@[simp] theorem State.hold_cst (s : State) (h : HeldWrite) : (s.hold h).cst = s.cst := by unfold State.hold; cases h.itf <;> rfl
@[simp] theorem State.hold_img (s : State) (h : HeldWrite) : (s.hold h).img = s.img := by unfold State.hold; cases h.itf <;> rfl
@[simp] theorem State.hold_pwr (s : State) (h : HeldWrite) : (s.hold h).pwr = s.pwr := by unfold State.hold; cases h.itf <;> rfl
@[simp] theorem State.hold_dma (s : State) (h : HeldWrite) : (s.hold h).dma = s.dma := by unfold State.hold; cases h.itf <;> rfl
@[simp] theorem State.hold_prf (s : State) (h : HeldWrite) : (s.hold h).prf = s.prf := by unfold State.hold; cases h.itf <;> rfl
@[simp] theorem State.hold_pcie (s : State) (h : HeldWrite) : (s.hold h).pcie = s.pcie := by unfold State.hold; cases h.itf <;> rfl
@[simp] theorem State.hold_flt (s : State) (h : HeldWrite) : (s.hold h).flt = s.flt := by unfold State.hold; cases h.itf <;> rfl
@[simp] theorem State.hold_trace (s : State) (h : HeldWrite) : (s.hold h).trace = s.trace := by unfold State.hold; cases h.itf <;> rfl
@[simp] theorem State.hold_keys (s : State) (h : HeldWrite) : (s.hold h).keys = s.keys := by unfold State.hold; cases h.itf <;> rfl
@[simp] theorem State.hold_faults (s : State) (h : HeldWrite) : (s.hold h).faults = s.faults := by unfold State.hold; cases h.itf <;> rfl
@[simp] theorem State.hold_vecMask (s : State) (h : HeldWrite) : (s.hold h).vecMask = s.vecMask := by unfold State.hold; cases h.itf <;> rfl
@[simp] theorem State.hold_pba (s : State) (h : HeldWrite) : (s.hold h).pba = s.pba := by unfold State.hold; cases h.itf <;> rfl
@[simp] theorem State.hold_tally (s : State) (h : HeldWrite) : (s.hold h).tally = s.tally := by unfold State.hold; cases h.itf <;> rfl
@[simp] theorem State.hold_mem (s : State) (h : HeldWrite) : (s.hold h).mem = s.mem := by unfold State.hold; cases h.itf <;> rfl
@[simp] theorem State.hold_out (s : State) (h : HeldWrite) : (s.hold h).out = s.out := by unfold State.hold; cases h.itf <;> rfl
@[simp] theorem State.hold_free (s : State) (h : HeldWrite) : (s.hold h).free = s.free := by unfold State.hold; cases h.itf <;> rfl
@[simp] theorem State.hold_pending (s : State) (h : HeldWrite) : (s.hold h).pending = s.pending := by unfold State.hold; cases h.itf <;> rfl

/-! ### `regTally` -/

@[simp] theorem State.regTally_regs (s : State) (i : Itf) (w : Bool) : (s.regTally i w).regs = s.regs := by cases i <;> rfl
@[simp] theorem State.regTally_live (s : State) (i : Itf) (w : Bool) : (s.regTally i w).live = s.live := by cases i <;> rfl
@[simp] theorem State.regTally_pendSh (s : State) (i : Itf) (w : Bool) : (s.regTally i w).pendSh = s.pendSh := by cases i <;> rfl
@[simp] theorem State.regTally_shStamp (s : State) (i : Itf) (w : Bool) : (s.regTally i w).shStamp = s.shStamp := by cases i <;> rfl
@[simp] theorem State.regTally_bankP (s : State) (i : Itf) (w : Bool) : (s.regTally i w).bankP = s.bankP := by cases i <;> rfl
@[simp] theorem State.regTally_bankI (s : State) (i : Itf) (w : Bool) : (s.regTally i w).bankI = s.bankI := by cases i <;> rfl
@[simp] theorem State.regTally_rdP (s : State) (i : Itf) (w : Bool) : (s.regTally i w).rdP = s.rdP := by cases i <;> rfl
@[simp] theorem State.regTally_rdI (s : State) (i : Itf) (w : Bool) : (s.regTally i w).rdI = s.rdI := by cases i <;> rfl
@[simp] theorem State.regTally_fenceP (s : State) (i : Itf) (w : Bool) : (s.regTally i w).fenceP = s.fenceP := by cases i <;> rfl
@[simp] theorem State.regTally_fenceI (s : State) (i : Itf) (w : Bool) : (s.regTally i w).fenceI = s.fenceI := by cases i <;> rfl
@[simp] theorem State.regTally_heldP (s : State) (i : Itf) (w : Bool) : (s.regTally i w).heldP = s.heldP := by cases i <;> rfl
@[simp] theorem State.regTally_heldI (s : State) (i : Itf) (w : Bool) : (s.regTally i w).heldI = s.heldI := by cases i <;> rfl
@[simp] theorem State.regTally_chans (s : State) (i : Itf) (w : Bool) : (s.regTally i w).chans = s.chans := by cases i <;> rfl
@[simp] theorem State.regTally_spn (s : State) (i : Itf) (w : Bool) : (s.regTally i w).spn = s.spn := by cases i <;> rfl
@[simp] theorem State.regTally_monitors (s : State) (i : Itf) (w : Bool) : (s.regTally i w).monitors = s.monitors := by cases i <;> rfl
@[simp] theorem State.regTally_tiuP (s : State) (i : Itf) (w : Bool) : (s.regTally i w).tiuP = s.tiuP := by cases i <;> rfl
@[simp] theorem State.regTally_tiuL (s : State) (i : Itf) (w : Bool) : (s.regTally i w).tiuL = s.tiuL := by cases i <;> rfl
@[simp] theorem State.regTally_syns (s : State) (i : Itf) (w : Bool) : (s.regTally i w).syns = s.syns := by cases i <;> rfl
@[simp] theorem State.regTally_outs (s : State) (i : Itf) (w : Bool) : (s.regTally i w).outs = s.outs := by cases i <;> rfl
@[simp] theorem State.regTally_lanes (s : State) (i : Itf) (w : Bool) : (s.regTally i w).lanes = s.lanes := by cases i <;> rfl
@[simp] theorem State.regTally_pps (s : State) (i : Itf) (w : Bool) : (s.regTally i w).pps = s.pps := by cases i <;> rfl
@[simp] theorem State.regTally_tod (s : State) (i : Itf) (w : Bool) : (s.regTally i w).tod = s.tod := by cases i <;> rfl
@[simp] theorem State.regTally_ens (s : State) (i : Itf) (w : Bool) : (s.regTally i w).ens = s.ens := by cases i <;> rfl
@[simp] theorem State.regTally_srcRes (s : State) (i : Itf) (w : Bool) : (s.regTally i w).srcRes = s.srcRes := by cases i <;> rfl
@[simp] theorem State.regTally_tnd (s : State) (i : Itf) (w : Bool) : (s.regTally i w).tnd = s.tnd := by cases i <;> rfl
@[simp] theorem State.regTally_gns (s : State) (i : Itf) (w : Bool) : (s.regTally i w).gns = s.gns := by cases i <;> rfl
@[simp] theorem State.regTally_mac (s : State) (i : Itf) (w : Bool) : (s.regTally i w).mac = s.mac := by cases i <;> rfl
@[simp] theorem State.regTally_pkt (s : State) (i : Itf) (w : Bool) : (s.regTally i w).pkt = s.pkt := by cases i <;> rfl
@[simp] theorem State.regTally_cst (s : State) (i : Itf) (w : Bool) : (s.regTally i w).cst = s.cst := by cases i <;> rfl
@[simp] theorem State.regTally_img (s : State) (i : Itf) (w : Bool) : (s.regTally i w).img = s.img := by cases i <;> rfl
@[simp] theorem State.regTally_pwr (s : State) (i : Itf) (w : Bool) : (s.regTally i w).pwr = s.pwr := by cases i <;> rfl
@[simp] theorem State.regTally_dma (s : State) (i : Itf) (w : Bool) : (s.regTally i w).dma = s.dma := by cases i <;> rfl
@[simp] theorem State.regTally_prf (s : State) (i : Itf) (w : Bool) : (s.regTally i w).prf = s.prf := by cases i <;> rfl
@[simp] theorem State.regTally_pcie (s : State) (i : Itf) (w : Bool) : (s.regTally i w).pcie = s.pcie := by cases i <;> rfl
@[simp] theorem State.regTally_flt (s : State) (i : Itf) (w : Bool) : (s.regTally i w).flt = s.flt := by cases i <;> rfl
@[simp] theorem State.regTally_trace (s : State) (i : Itf) (w : Bool) : (s.regTally i w).trace = s.trace := by cases i <;> rfl
@[simp] theorem State.regTally_keys (s : State) (i : Itf) (w : Bool) : (s.regTally i w).keys = s.keys := by cases i <;> rfl
@[simp] theorem State.regTally_faults (s : State) (i : Itf) (w : Bool) : (s.regTally i w).faults = s.faults := by cases i <;> rfl
@[simp] theorem State.regTally_vecMask (s : State) (i : Itf) (w : Bool) : (s.regTally i w).vecMask = s.vecMask := by cases i <;> rfl
@[simp] theorem State.regTally_pba (s : State) (i : Itf) (w : Bool) : (s.regTally i w).pba = s.pba := by cases i <;> rfl
@[simp] theorem State.regTally_mem (s : State) (i : Itf) (w : Bool) : (s.regTally i w).mem = s.mem := by cases i <;> rfl
@[simp] theorem State.regTally_out (s : State) (i : Itf) (w : Bool) : (s.regTally i w).out = s.out := by cases i <;> rfl
@[simp] theorem State.regTally_free (s : State) (i : Itf) (w : Bool) : (s.regTally i w).free = s.free := by cases i <;> rfl
@[simp] theorem State.regTally_pending (s : State) (i : Itf) (w : Bool) : (s.regTally i w).pending = s.pending := by cases i <;> rfl

/-! ### `mwrite` -/

@[simp] theorem State.mwrite_regs (s : State) (a : Nat) (l : List Byte) : (s.mwrite a l).regs = s.regs := by
  induction l generalizing s a with
  | nil => rfl
  | cons v r ih => unfold State.mwrite; rw [ih]; rfl

@[simp] theorem State.mwrite_live (s : State) (a : Nat) (l : List Byte) : (s.mwrite a l).live = s.live := by
  induction l generalizing s a with
  | nil => rfl
  | cons v r ih => unfold State.mwrite; rw [ih]; rfl

@[simp] theorem State.mwrite_pendSh (s : State) (a : Nat) (l : List Byte) : (s.mwrite a l).pendSh = s.pendSh := by
  induction l generalizing s a with
  | nil => rfl
  | cons v r ih => unfold State.mwrite; rw [ih]; rfl

@[simp] theorem State.mwrite_shStamp (s : State) (a : Nat) (l : List Byte) : (s.mwrite a l).shStamp = s.shStamp := by
  induction l generalizing s a with
  | nil => rfl
  | cons v r ih => unfold State.mwrite; rw [ih]; rfl

@[simp] theorem State.mwrite_bankP (s : State) (a : Nat) (l : List Byte) : (s.mwrite a l).bankP = s.bankP := by
  induction l generalizing s a with
  | nil => rfl
  | cons v r ih => unfold State.mwrite; rw [ih]; rfl

@[simp] theorem State.mwrite_bankI (s : State) (a : Nat) (l : List Byte) : (s.mwrite a l).bankI = s.bankI := by
  induction l generalizing s a with
  | nil => rfl
  | cons v r ih => unfold State.mwrite; rw [ih]; rfl

@[simp] theorem State.mwrite_rdP (s : State) (a : Nat) (l : List Byte) : (s.mwrite a l).rdP = s.rdP := by
  induction l generalizing s a with
  | nil => rfl
  | cons v r ih => unfold State.mwrite; rw [ih]; rfl

@[simp] theorem State.mwrite_rdI (s : State) (a : Nat) (l : List Byte) : (s.mwrite a l).rdI = s.rdI := by
  induction l generalizing s a with
  | nil => rfl
  | cons v r ih => unfold State.mwrite; rw [ih]; rfl

@[simp] theorem State.mwrite_fenceP (s : State) (a : Nat) (l : List Byte) : (s.mwrite a l).fenceP = s.fenceP := by
  induction l generalizing s a with
  | nil => rfl
  | cons v r ih => unfold State.mwrite; rw [ih]; rfl

@[simp] theorem State.mwrite_fenceI (s : State) (a : Nat) (l : List Byte) : (s.mwrite a l).fenceI = s.fenceI := by
  induction l generalizing s a with
  | nil => rfl
  | cons v r ih => unfold State.mwrite; rw [ih]; rfl

@[simp] theorem State.mwrite_heldP (s : State) (a : Nat) (l : List Byte) : (s.mwrite a l).heldP = s.heldP := by
  induction l generalizing s a with
  | nil => rfl
  | cons v r ih => unfold State.mwrite; rw [ih]; rfl

@[simp] theorem State.mwrite_heldI (s : State) (a : Nat) (l : List Byte) : (s.mwrite a l).heldI = s.heldI := by
  induction l generalizing s a with
  | nil => rfl
  | cons v r ih => unfold State.mwrite; rw [ih]; rfl

@[simp] theorem State.mwrite_chans (s : State) (a : Nat) (l : List Byte) : (s.mwrite a l).chans = s.chans := by
  induction l generalizing s a with
  | nil => rfl
  | cons v r ih => unfold State.mwrite; rw [ih]; rfl

@[simp] theorem State.mwrite_spn (s : State) (a : Nat) (l : List Byte) : (s.mwrite a l).spn = s.spn := by
  induction l generalizing s a with
  | nil => rfl
  | cons v r ih => unfold State.mwrite; rw [ih]; rfl

@[simp] theorem State.mwrite_monitors (s : State) (a : Nat) (l : List Byte) : (s.mwrite a l).monitors = s.monitors := by
  induction l generalizing s a with
  | nil => rfl
  | cons v r ih => unfold State.mwrite; rw [ih]; rfl

@[simp] theorem State.mwrite_tiuP (s : State) (a : Nat) (l : List Byte) : (s.mwrite a l).tiuP = s.tiuP := by
  induction l generalizing s a with
  | nil => rfl
  | cons v r ih => unfold State.mwrite; rw [ih]; rfl

@[simp] theorem State.mwrite_tiuL (s : State) (a : Nat) (l : List Byte) : (s.mwrite a l).tiuL = s.tiuL := by
  induction l generalizing s a with
  | nil => rfl
  | cons v r ih => unfold State.mwrite; rw [ih]; rfl

@[simp] theorem State.mwrite_syns (s : State) (a : Nat) (l : List Byte) : (s.mwrite a l).syns = s.syns := by
  induction l generalizing s a with
  | nil => rfl
  | cons v r ih => unfold State.mwrite; rw [ih]; rfl

@[simp] theorem State.mwrite_outs (s : State) (a : Nat) (l : List Byte) : (s.mwrite a l).outs = s.outs := by
  induction l generalizing s a with
  | nil => rfl
  | cons v r ih => unfold State.mwrite; rw [ih]; rfl

@[simp] theorem State.mwrite_lanes (s : State) (a : Nat) (l : List Byte) : (s.mwrite a l).lanes = s.lanes := by
  induction l generalizing s a with
  | nil => rfl
  | cons v r ih => unfold State.mwrite; rw [ih]; rfl

@[simp] theorem State.mwrite_pps (s : State) (a : Nat) (l : List Byte) : (s.mwrite a l).pps = s.pps := by
  induction l generalizing s a with
  | nil => rfl
  | cons v r ih => unfold State.mwrite; rw [ih]; rfl

@[simp] theorem State.mwrite_tod (s : State) (a : Nat) (l : List Byte) : (s.mwrite a l).tod = s.tod := by
  induction l generalizing s a with
  | nil => rfl
  | cons v r ih => unfold State.mwrite; rw [ih]; rfl

@[simp] theorem State.mwrite_ens (s : State) (a : Nat) (l : List Byte) : (s.mwrite a l).ens = s.ens := by
  induction l generalizing s a with
  | nil => rfl
  | cons v r ih => unfold State.mwrite; rw [ih]; rfl

@[simp] theorem State.mwrite_srcRes (s : State) (a : Nat) (l : List Byte) : (s.mwrite a l).srcRes = s.srcRes := by
  induction l generalizing s a with
  | nil => rfl
  | cons v r ih => unfold State.mwrite; rw [ih]; rfl

@[simp] theorem State.mwrite_tnd (s : State) (a : Nat) (l : List Byte) : (s.mwrite a l).tnd = s.tnd := by
  induction l generalizing s a with
  | nil => rfl
  | cons v r ih => unfold State.mwrite; rw [ih]; rfl

@[simp] theorem State.mwrite_gns (s : State) (a : Nat) (l : List Byte) : (s.mwrite a l).gns = s.gns := by
  induction l generalizing s a with
  | nil => rfl
  | cons v r ih => unfold State.mwrite; rw [ih]; rfl

@[simp] theorem State.mwrite_mac (s : State) (a : Nat) (l : List Byte) : (s.mwrite a l).mac = s.mac := by
  induction l generalizing s a with
  | nil => rfl
  | cons v r ih => unfold State.mwrite; rw [ih]; rfl

@[simp] theorem State.mwrite_pkt (s : State) (a : Nat) (l : List Byte) : (s.mwrite a l).pkt = s.pkt := by
  induction l generalizing s a with
  | nil => rfl
  | cons v r ih => unfold State.mwrite; rw [ih]; rfl

@[simp] theorem State.mwrite_cst (s : State) (a : Nat) (l : List Byte) : (s.mwrite a l).cst = s.cst := by
  induction l generalizing s a with
  | nil => rfl
  | cons v r ih => unfold State.mwrite; rw [ih]; rfl

@[simp] theorem State.mwrite_img (s : State) (a : Nat) (l : List Byte) : (s.mwrite a l).img = s.img := by
  induction l generalizing s a with
  | nil => rfl
  | cons v r ih => unfold State.mwrite; rw [ih]; rfl

@[simp] theorem State.mwrite_pwr (s : State) (a : Nat) (l : List Byte) : (s.mwrite a l).pwr = s.pwr := by
  induction l generalizing s a with
  | nil => rfl
  | cons v r ih => unfold State.mwrite; rw [ih]; rfl

@[simp] theorem State.mwrite_dma (s : State) (a : Nat) (l : List Byte) : (s.mwrite a l).dma = s.dma := by
  induction l generalizing s a with
  | nil => rfl
  | cons v r ih => unfold State.mwrite; rw [ih]; rfl

@[simp] theorem State.mwrite_prf (s : State) (a : Nat) (l : List Byte) : (s.mwrite a l).prf = s.prf := by
  induction l generalizing s a with
  | nil => rfl
  | cons v r ih => unfold State.mwrite; rw [ih]; rfl
@[simp] theorem State.mwrite_pcie (s : State) (a : Nat) (l : List Byte) : (s.mwrite a l).pcie = s.pcie := by
  induction l generalizing s a with
  | nil => rfl
  | cons v r ih => unfold State.mwrite; rw [ih]; rfl
@[simp] theorem State.mwrite_flt (s : State) (a : Nat) (l : List Byte) : (s.mwrite a l).flt = s.flt := by
  induction l generalizing s a with
  | nil => rfl
  | cons v r ih => unfold State.mwrite; rw [ih]; rfl

@[simp] theorem State.mwrite_trace (s : State) (a : Nat) (l : List Byte) : (s.mwrite a l).trace = s.trace := by
  induction l generalizing s a with
  | nil => rfl
  | cons v r ih => unfold State.mwrite; rw [ih]; rfl

@[simp] theorem State.mwrite_keys (s : State) (a : Nat) (l : List Byte) : (s.mwrite a l).keys = s.keys := by
  induction l generalizing s a with
  | nil => rfl
  | cons v r ih => unfold State.mwrite; rw [ih]; rfl

@[simp] theorem State.mwrite_faults (s : State) (a : Nat) (l : List Byte) : (s.mwrite a l).faults = s.faults := by
  induction l generalizing s a with
  | nil => rfl
  | cons v r ih => unfold State.mwrite; rw [ih]; rfl

@[simp] theorem State.mwrite_vecMask (s : State) (a : Nat) (l : List Byte) : (s.mwrite a l).vecMask = s.vecMask := by
  induction l generalizing s a with
  | nil => rfl
  | cons v r ih => unfold State.mwrite; rw [ih]; rfl

@[simp] theorem State.mwrite_pba (s : State) (a : Nat) (l : List Byte) : (s.mwrite a l).pba = s.pba := by
  induction l generalizing s a with
  | nil => rfl
  | cons v r ih => unfold State.mwrite; rw [ih]; rfl

@[simp] theorem State.mwrite_tally (s : State) (a : Nat) (l : List Byte) : (s.mwrite a l).tally = s.tally := by
  induction l generalizing s a with
  | nil => rfl
  | cons v r ih => unfold State.mwrite; rw [ih]; rfl

@[simp] theorem State.mwrite_out (s : State) (a : Nat) (l : List Byte) : (s.mwrite a l).out = s.out := by
  induction l generalizing s a with
  | nil => rfl
  | cons v r ih => unfold State.mwrite; rw [ih]; rfl

@[simp] theorem State.mwrite_free (s : State) (a : Nat) (l : List Byte) : (s.mwrite a l).free = s.free := by
  induction l generalizing s a with
  | nil => rfl
  | cons v r ih => unfold State.mwrite; rw [ih]; rfl

@[simp] theorem State.mwrite_pending (s : State) (a : Nat) (l : List Byte) : (s.mwrite a l).pending = s.pending := by
  induction l generalizing s a with
  | nil => rfl
  | cons v r ih => unfold State.mwrite; rw [ih]; rfl

end Sys2Proof.Machine
end

