-- ==== Sys2Proof/Laws/Regs.lean ====
section
/-! SUPPORT. Words, fields and registers: what a write of a field leaves to be read (R11), and what each named operation over the registers
leaves alone. -/
namespace Sys2Proof

/-- A field that was set reads as its low bits. -/
@[simp] theorem Word.field_setField_same (w : Word) (hi lo v : Nat) (hl : lo ≤ hi) (hh : hi < 32) :
    (w.setField hi lo v).field hi lo = v % 2 ^ (hi + 1 - lo) := by
  obtain ⟨n, rfl⟩ : ∃ n, hi = lo + n := ⟨hi - lo, by omega⟩
  have hn : lo + n + 1 - lo = n + 1 := by omega
  unfold Word.setField Word.field
  simp only [hn, BitVec.toNat_ofNat]
  have hw := w.isLt
  generalize w.toNat = x at hw
  have h32 : (2 : Nat) ^ 32 = 2 ^ lo * (2 ^ (n + 1) * 2 ^ (31 - lo - n)) := by
    rw [← Nat.pow_add, ← Nat.pow_add]; congr 1; omega
  generalize 2 ^ (31 - lo - n) = c at h32
  generalize hm : (2 : Nat) ^ (n + 1) = m at *
  generalize hp : (2 : Nat) ^ lo = p at *
  have hp0 : 0 < p := by rw [← hp]; exact Nat.two_pow_pos _
  have hm0 : 0 < m := by rw [← hm]; exact Nat.two_pow_pos _
  -- x = q * (p*m) + f * p + r
  have e1 : x = p * (x / p) + x % p := (Nat.div_add_mod x p).symm
  have e2 : x / p = m * (x / p / m) + x / p % m := (Nat.div_add_mod _ _).symm
  have hr := Nat.mod_lt x hp0
  have hv := Nat.mod_lt v hm0
  have hq : x / p / m < c := by
    rw [Nat.div_div_eq_div_mul]; apply Nat.div_lt_of_lt_mul; rw [Nat.mul_assoc, ← h32]; exact hw
  have e3 : x - x / p % m * p + v % m * p = p * (m * (x / p / m) + v % m) + x % p := by
    have : x = p * (m * (x / p / m)) + x / p % m * p + x % p := by
      conv => lhs; rw [e1, e2]
      rw [Nat.mul_add, Nat.mul_comm p (x / p % m)]
    rw [Nat.mul_add, Nat.mul_comm p (v % m)]; omega
  rw [e3]
  have hlt : p * (m * (x / p / m) + v % m) + x % p < 2 ^ 32 := by
    rw [h32]
    have h1 : m * (x / p / m) + v % m + 1 ≤ m * c := by
      have : m * (x / p / m) + m ≤ m * c := by rw [← Nat.mul_succ]; exact Nat.mul_le_mul_left m hq
      omega
    have h2 := Nat.mul_le_mul_left p h1
    rw [Nat.mul_succ] at h2; omega
  rw [Nat.mod_eq_of_lt hlt, Nat.mul_add_div hp0, Nat.div_eq_of_lt hr, Nat.add_zero, Nat.mul_add_mod, Nat.mod_mod]

/-- A bit is its one-bit field. -/
theorem Word.bit_eq_field (w : Word) (i : Nat) : w.bit i = (w.field i i == 1) := by
  unfold Word.bit Word.field
  rw [Nat.add_sub_cancel_left, Nat.pow_one]

/-- The bits of a word with a field set. -/
theorem Word.testBit_setField (w : Word) (hi lo v j : Nat) (hl : lo ≤ hi) (hh : hi < 32) :
    (w.setField hi lo v).toNat.testBit j = if lo ≤ j ∧ j ≤ hi then v.testBit (j - lo) else w.toNat.testBit j := by
  obtain ⟨n, rfl⟩ : ∃ n, hi = lo + n := ⟨hi - lo, by omega⟩
  have hn : lo + n + 1 - lo = n + 1 := by omega
  unfold Word.setField
  simp only [hn, BitVec.toNat_ofNat]
  have hw := w.isLt
  generalize w.toNat = x at hw
  have e1 : x = 2 ^ lo * (x / 2 ^ lo) + x % 2 ^ lo := (Nat.div_add_mod x _).symm
  have e2 : x / 2 ^ lo = 2 ^ (n + 1) * (x / 2 ^ lo / 2 ^ (n + 1)) + x / 2 ^ lo % 2 ^ (n + 1) := (Nat.div_add_mod _ _).symm
  have hr := Nat.mod_lt x (Nat.two_pow_pos lo)
  have hv := Nat.mod_lt v (Nat.two_pow_pos (n + 1))
  have hf := Nat.mod_lt (x / 2 ^ lo) (Nat.two_pow_pos (n + 1))
  generalize hq : x / 2 ^ lo / 2 ^ (n + 1) = q at e2
  have ex : x = 2 ^ lo * (2 ^ (n + 1) * q + x / 2 ^ lo % 2 ^ (n + 1)) + x % 2 ^ lo := by rw [← e2]; exact e1
  have e3 : x - x / 2 ^ lo % 2 ^ (n + 1) * 2 ^ lo + v % 2 ^ (n + 1) * 2 ^ lo = 2 ^ lo * (2 ^ (n + 1) * q + v % 2 ^ (n + 1)) + x % 2 ^ lo := by
    have : x = 2 ^ lo * (2 ^ (n + 1) * q) + x / 2 ^ lo % 2 ^ (n + 1) * 2 ^ lo + x % 2 ^ lo := by
      conv => lhs; rw [ex]
      rw [Nat.mul_add, Nat.mul_comm (2 ^ lo) (x / 2 ^ lo % 2 ^ (n + 1))]
    rw [Nat.mul_add, Nat.mul_comm (2 ^ lo) (v % 2 ^ (n + 1))]; omega
  rw [e3, Nat.testBit_mod_two_pow, Nat.testBit_two_pow_mul_add _ hr, Nat.testBit_two_pow_mul_add _ hv, Nat.testBit_mod_two_pow]
  conv => rhs; rw [ex, Nat.testBit_two_pow_mul_add _ hr, Nat.testBit_two_pow_mul_add _ hf]
  by_cases hj : j < 32
  · by_cases a : j < lo
    · have : ¬ lo ≤ j := by omega
      simp [hj, a, this]
    · by_cases b : j - lo < n + 1
      · have : lo ≤ j ∧ j ≤ lo + n := by omega
        simp [hj, a, b, this]
      · have : ¬ (lo ≤ j ∧ j ≤ lo + n) := by omega
        simp [hj, a, b, this]
  · have hbig : x.testBit j = false := Nat.testBit_lt_two_pow (Nat.lt_of_lt_of_le hw (Nat.pow_le_pow_right (by omega) (by omega)))
    have : ¬ (lo ≤ j ∧ j ≤ lo + n) := by omega
    rw [ex, Nat.testBit_two_pow_mul_add _ hr, Nat.testBit_two_pow_mul_add _ hf] at hbig
    simp only [hj, decide_false, Bool.false_and, this, if_false]
    exact hbig.symm

/-- The bits of a field. -/
theorem Word.testBit_field (w : Word) (hi lo j : Nat) :
    (w.field hi lo).testBit j = (decide (j < hi + 1 - lo) && w.toNat.testBit (lo + j)) := by
  unfold Word.field
  rw [Nat.testBit_mod_two_pow, Nat.testBit_div_two_pow, Nat.add_comm j lo]

/-- A field apart from the one that was set is as it was. -/
theorem Word.field_setField_disj (w : Word) (hi lo v hi' lo' : Nat) (hl : lo ≤ hi) (hh : hi < 32) (h : hi < lo' ∨ hi' < lo) :
    (w.setField hi lo v).field hi' lo' = w.field hi' lo' := by
  apply Nat.eq_of_testBit_eq
  intro j
  rw [Word.testBit_field, Word.testBit_field, Word.testBit_setField w hi lo v _ hl hh]
  by_cases hj : j < hi' + 1 - lo'
  · have : ¬ (lo ≤ lo' + j ∧ lo' + j ≤ hi) := by omega
    simp [this]
  · simp [hj]

/-- A one-bit field set from a Bool. -/
theorem Word.bit_setField_same (w : Word) (i v : Nat) (h : i < 32) : (w.setField i i v).bit i = decide (v % 2 = 1) := by
  rw [Word.bit_eq_field, Word.field_setField_same w i i v (Nat.le_refl i) h]
  have : i + 1 - i = 1 := by omega
  rw [this]
  rcases Nat.mod_two_eq_zero_or_one v with h | h <;> simp [h]

/-- A bit outside the field that was set. -/
theorem Word.bit_setField_disj (w : Word) (hi lo v i : Nat) (hl : lo ≤ hi) (hh : hi < 32) (h : hi < i ∨ i < lo) :
    (w.setField hi lo v).bit i = w.bit i := by
  rw [Word.bit_eq_field, Word.bit_eq_field, Word.field_setField_disj w hi lo v i i hl hh (by omega)]

namespace Machine

/-- The register file of a state is in canonical form. -/
abbrev State.regsWf (s : State) : Prop := mapWf resetWord s.regs = true

/-! ### One register -/

@[simp] theorem State.rd_wr_same (s : State) (o : Nat) (v : Word) (h : s.regsWf) : (s.wr o v).rd o = v :=
  mapGet_mapSet_same resetWord s.regs o v h

@[simp] theorem State.rd_wr_ne (s : State) (o o' : Nat) (v : Word) (h : o ≠ o') : (s.wr o v).rd o' = s.rd o' :=
  mapGet_mapSet_ne resetWord s.regs o o' v h

@[simp] theorem State.wr_regsWf (s : State) (o : Nat) (v : Word) (h : s.regsWf) : (s.wr o v).regsWf :=
  mapSet_wf resetWord s.regs o v h

@[simp] theorem State.setF_regsWf (s : State) (o hi lo v : Nat) (h : s.regsWf) : (s.setF o hi lo v).regsWf := s.wr_regsWf o _ h

@[simp] theorem State.setB_regsWf (s : State) (o i : Nat) (v : Bool) (h : s.regsWf) : (s.setB o i v).regsWf := s.wr_regsWf o _ h

@[simp] theorem State.count_regsWf (s : State) (o hi lo n : Nat) (h : s.regsWf) : (s.count o hi lo n).regsWf := s.wr_regsWf o _ h

@[simp] theorem State.countSat_regsWf (s : State) (o hi lo n : Nat) (h : s.regsWf) : (s.countSat o hi lo n).regsWf := s.wr_regsWf o _ h

@[simp] theorem State.wrN_regsWf (s : State) (o v : Nat) (h : s.regsWf) : (s.wrN o v).regsWf := s.wr_regsWf o _ h

@[simp] theorem State.wr64_regsWf (s : State) (o v : Nat) (h : s.regsWf) : (s.wr64 o v).regsWf :=
  State.wr_regsWf _ _ _ (s.wr_regsWf o _ h)

/-! ### Fields -/

@[simp] theorem State.f_setF_same (s : State) (o hi lo v : Nat) (h : s.regsWf) (hl : lo ≤ hi) (hh : hi < 32) :
    (s.setF o hi lo v).f o hi lo = v % 2 ^ (hi + 1 - lo) := by
  unfold State.f State.setF
  rw [State.rd_wr_same s o _ h, Word.field_setField_same _ hi lo v hl hh]

theorem State.f_setF_disj (s : State) (o hi lo v hi' lo' : Nat) (h : s.regsWf) (hl : lo ≤ hi) (hh : hi < 32) (hd : hi < lo' ∨ hi' < lo) :
    (s.setF o hi lo v).f o hi' lo' = s.f o hi' lo' := by
  unfold State.f State.setF
  rw [State.rd_wr_same s o _ h, Word.field_setField_disj _ hi lo v hi' lo' hl hh hd]

@[simp] theorem State.rd_setF_ne (s : State) (o hi lo v o' : Nat) (h : o ≠ o') : (s.setF o hi lo v).rd o' = s.rd o' :=
  s.rd_wr_ne o o' _ h

@[simp] theorem State.f_setF_ne (s : State) (o hi lo v o' hi' lo' : Nat) (h : o ≠ o') : (s.setF o hi lo v).f o' hi' lo' = s.f o' hi' lo' := by
  unfold State.f; rw [State.rd_setF_ne s o hi lo v o' h]

@[simp] theorem State.b_setB_same (s : State) (o i : Nat) (v : Bool) (h : s.regsWf) (hi : i < 32) : (s.setB o i v).b o i = v := by
  unfold State.b State.setB State.setF
  rw [State.rd_wr_same s o _ h, Word.bit_setField_same _ i _ hi]
  cases v <;> rfl

theorem State.b_setB_bit (s : State) (o i j : Nat) (v : Bool) (h : s.regsWf) (hi : i < 32) (hj : i ≠ j) :
    (s.setB o i v).b o j = s.b o j := by
  unfold State.b State.setB State.setF
  rw [State.rd_wr_same s o _ h, Word.bit_setField_disj _ i i _ j (Nat.le_refl i) hi (by omega)]

@[simp] theorem State.rd_setB_ne (s : State) (o i : Nat) (v : Bool) (o' : Nat) (h : o ≠ o') : (s.setB o i v).rd o' = s.rd o' :=
  s.rd_wr_ne o o' _ h

@[simp] theorem State.f_setB_ne (s : State) (o i : Nat) (v : Bool) (o' hi' lo' : Nat) (h : o ≠ o') :
    (s.setB o i v).f o' hi' lo' = s.f o' hi' lo' := by
  unfold State.f; rw [State.rd_setB_ne s o i v o' h]

@[simp] theorem State.b_setB_ne (s : State) (o i : Nat) (v : Bool) (o' j : Nat) (h : o ≠ o') : (s.setB o i v).b o' j = s.b o' j := by
  unfold State.b; rw [State.rd_setB_ne s o i v o' h]

@[simp] theorem State.b_setF_ne (s : State) (o hi lo v o' j : Nat) (h : o ≠ o') : (s.setF o hi lo v).b o' j = s.b o' j := by
  unfold State.b; rw [State.rd_setF_ne s o hi lo v o' h]

/-! ### Interrupts and messages -/

/-- What an interrupt does to the registers: its bit of IRQ_STAT. -/
@[simp] theorem State.irq_regs (s : State) (b : Blk) (i : Nat) : (s.irq b i).regs = (s.setB b.irqOff i true).regs := by
  unfold State.irq; simp only []; split
  · exact State.sendVector_regs _ _
  · rfl

@[simp] theorem State.irq_regsWf (s : State) (b : Blk) (i : Nat) (h : s.regsWf) : (s.irq b i).regsWf := by
  unfold State.regsWf; rw [State.irq_regs]; exact s.setB_regsWf _ _ _ h

@[simp] theorem State.irq_rd_ne (s : State) (b : Blk) (i o : Nat) (h : b.irqOff ≠ o) : (s.irq b i).rd o = s.rd o := by
  unfold State.rd; rw [State.irq_regs]; exact s.rd_setB_ne _ _ _ _ h

@[simp] theorem State.irq_f_ne (s : State) (b : Blk) (i o hi lo : Nat) (h : b.irqOff ≠ o) : (s.irq b i).f o hi lo = s.f o hi lo := by
  unfold State.f; rw [State.irq_rd_ne s b i o h]

@[simp] theorem State.irq_b_ne (s : State) (b : Blk) (i o j : Nat) (h : b.irqOff ≠ o) : (s.irq b i).b o j = s.b o j := by
  unfold State.b; rw [State.irq_rd_ne s b i o h]

/-- The bit of IRQ_STAT that an interrupt sets. -/
@[simp] theorem State.irq_bit (s : State) (b : Blk) (i : Nat) (h : s.regsWf) (hi : i < 32) : (s.irq b i).b b.irqOff i = true := by
  have : (s.irq b i).b b.irqOff i = (s.setB b.irqOff i true).b b.irqOff i := by
    unfold State.b State.rd; rw [State.irq_regs]
  rw [this, State.b_setB_same s _ _ _ h hi]

/-! ### A host write that is served -/

/-- A count of Tally changes nothing that an access waits for. -/
@[simp] theorem State.tallyAdd_joins (s : State) (k n a : Nat) : (s.tallyAdd k n).joins a = s.joins a := rfl
@[simp] theorem State.tallyAdd_ramping (s : State) (k n a : Nat) : (s.tallyAdd k n).ramping a = s.ramping a := rfl
@[simp] theorem State.tallyAdd_chan (s : State) (k n : Nat) (c : Chan) : (s.tallyAdd k n).chan c = s.chan c := rfl
@[simp] theorem State.tallyAdd_heldBy (s : State) (k n : Nat) (i : Itf) : (s.tallyAdd k n).heldBy i = s.heldBy i := rfl
@[simp] theorem State.tallyAdd_behind (s : State) (k n : Nat) (i : Itf) (a : Nat) (w : Bool) : (s.tallyAdd k n).behind i a w = s.behind i a w := by
  simp only [State.behind, State.heldElse, tallyAdd_joins, tallyAdd_ramping, tallyAdd_heldBy, State.i2cStretch, State.keyBusy,
    State.tallyAdd_chans, State.tallyAdd_spn, State.tallyAdd_pwr, State.tallyAdd_keys, tallyAdd_chan]
  rfl

@[simp] theorem State.regTally_behind (s : State) (i j : Itf) (c : Bool) (a : Nat) (w : Bool) :
    (s.regTally i c).behind j a w = s.behind j a w := by
  cases i <;> simp [State.regTally]

/-- Whether a register is absent follows from the registers alone. -/
theorem State.absent_congr {s t : State} (h : t.regs = s.regs) (a : Nat) : t.absent a = s.absent a := by
  have hb : ∀ o i, t.b o i = s.b o i := by intro o i; unfold State.b State.rd; rw [h]
  have hf : ∀ o i j, t.f o i j = s.f o i j := by intro o i j; unfold State.f State.rd; rw [h]
  have ht : t.tbPresent = s.tbPresent := by funext n; unfold State.tbPresent; rw [hb]
  simp only [State.absent, State.domOn, ht, hb, hf]

/-- A served host write: counted, then done. -/
theorem State.reach_served (s : State) (i : Itf) (a : Nat) (v : Word) (g : State → State) (ho : s.hostOn = true)
    (hr : (s.running || decide (Blk.ofOff a = some .cfg)) = true) (hf : s.fenceHolds i a = false) (hb : s.behind i a true = false)
    (hm : s.ramping a = false) (ha : s.absent a = false) : s.reach i a v g = g (s.regTally i true) := by
  have e1 : (s.regTally i true).running = s.running := by cases i <;> rfl
  have e2 : (s.regTally i true).fenceHolds i a = s.fenceHolds i a := by cases i <;> rfl
  have e3 : (s.regTally i true).behind i a true = s.behind i a true := s.regTally_behind i i true a true
  have e4 : (s.regTally i true).ramping a = s.ramping a := by cases i <;> rfl
  have e5 : (s.regTally i true).absent a = s.absent a := State.absent_congr (s.regTally_regs i true) a
  have hn : ¬ ((!s.running) = true ∧ Blk.ofOff a ≠ some .cfg) := by
    simp only [Bool.or_eq_true, decide_eq_true_eq] at hr
    rcases hr with h | h <;> simp [h]
  unfold State.reach
  simp only [ho, e1, e2, e3, e4, e5, hf, hb, hm, ha, if_neg hn, Bool.not_true, Bool.false_eq_true, Bool.or_self, if_false]

end Machine
end Sys2Proof
end

