-- ==== Sys2Proof/Laws/Keeps.lean ====
section
/-! SUPPORT. What a command can change: the parts of a state, and the relation that says which of them two states share and that the
sparse maps stay in their canonical form. One lemma for each way to build a state out of another. -/
namespace Sys2Proof.Machine

/-- Number of a part: its bit in a mask. -/
def Part.idx : Part → Nat
  | .regs => 0
  | .live => 1
  | .pendSh => 2
  | .shStamp => 3
  | .bankP => 4
  | .bankI => 5
  | .rdP => 6
  | .rdI => 7
  | .fenceP => 8
  | .fenceI => 9
  | .heldP => 10
  | .heldI => 11
  | .chans => 12
  | .spn => 13
  | .monitors => 14
  | .tiuP => 15
  | .tiuL => 16
  | .syns => 17
  | .outs => 18
  | .lanes => 19
  | .pps => 20
  | .tod => 21
  | .ens => 22
  | .srcRes => 23
  | .tnd => 24
  | .gns => 25
  | .mac => 26
  | .pkt => 27
  | .cst => 28
  | .img => 29
  | .pwr => 30
  | .dma => 31
  | .prf => 32
  | .flt => 33
  | .trace => 34
  | .keys => 35
  | .faults => 36
  | .vecMask => 37
  | .pba => 38
  | .tally => 39
  | .mem => 40
  | .out => 41
  | .free => 42
  | .pending => 43
  | .pcie => 46

/-- The lengths of a state's lists, and its group key table in canonical form: `State.shaped`, one field a list. -/
structure Shape (s : State) : Prop where
  chans : s.chans.length = 46
  bases : s.spn.bases.length = 8
  slots : s.spn.slots.length = 64
  monitors : s.monitors.length = 15
  tiuP : s.tiuP.length = 12
  tiuL : s.tiuL.length = 18
  syns : s.syns.length = 4
  outs : s.outs.length = 12
  lanes : s.lanes.length = 18
  pps : s.pps.length = 4
  tod : s.tod.length = 2
  members : s.ens.members.length = 4
  ctl : s.ens.ctl.length = 8
  cands : s.ens.cands.length = 30
  srcRes : s.srcRes.length = 6
  mac : s.mac.length = 16
  clients : s.pkt.clients.length = 4
  keyTable : mapWf (fun _ => ({} : GroupKey)) s.pkt.keys = true
  dma : s.dma.length = 16
  copyA : s.keys.copyA.length = 64
  copyB : s.keys.copyB.length = 64

theorem State.shaped_iff (s : State) : s.shaped = true ↔ Shape s := by
  simp only [State.shaped, Bool.and_eq_true, decide_eq_true_eq]
  constructor
  · rintro ⟨⟨⟨⟨⟨⟨⟨⟨⟨⟨⟨⟨⟨⟨⟨⟨⟨⟨⟨⟨a1, a2⟩, a3⟩, a4⟩, a5⟩, a6⟩, a7⟩, a8⟩, a9⟩, b1⟩, b2⟩, b3⟩, b4⟩, b5⟩, b6⟩, b7⟩, b8⟩, b9⟩, c1⟩, c2⟩, c3⟩
    exact ⟨a1, a2, a3, a4, a5, a6, a7, a8, a9, b1, b2, b3, b4, b5, b6, b7, b8, b9, c1, c2, c3⟩
  · rintro ⟨a1, a2, a3, a4, a5, a6, a7, a8, a9, b1, b2, b3, b4, b5, b6, b7, b8, b9, c1, c2, c3⟩
    exact ⟨⟨⟨⟨⟨⟨⟨⟨⟨⟨⟨⟨⟨⟨⟨⟨⟨⟨⟨⟨a1, a2⟩, a3⟩, a4⟩, a5⟩, a6⟩, a7⟩, a8⟩, a9⟩, b1⟩, b2⟩, b3⟩, b4⟩, b5⟩, b6⟩, b7⟩, b8⟩, b9⟩, c1⟩, c2⟩, c3⟩

theorem Shape.spnR {s : State} (h : Shape s) : s.spn.bases.length = 8 ∧ s.spn.slots.length = 64 := ⟨h.bases, h.slots⟩
theorem Shape.ensR {s : State} (h : Shape s) : s.ens.members.length = 4 ∧ s.ens.ctl.length = 8 ∧ s.ens.cands.length = 30 :=
  ⟨h.members, h.ctl, h.cands⟩
theorem Shape.pktR {s : State} (h : Shape s) : s.pkt.clients.length = 4 ∧ mapWf (fun _ => ({} : GroupKey)) s.pkt.keys = true :=
  ⟨h.clients, h.keyTable⟩
theorem Shape.keysR {s : State} (h : Shape s) : s.keys.copyA.length = 64 ∧ s.keys.copyB.length = 64 := ⟨h.copyA, h.copyB⟩
/-- All of the shape as one list of equations. -/
theorem Shape.all {s : State} (h : Shape s) : s.chans.length = 46 ∧ s.spn.bases.length = 8 ∧ s.spn.slots.length = 64 ∧ s.monitors.length = 15 ∧
    s.tiuP.length = 12 ∧ s.tiuL.length = 18 ∧ s.syns.length = 4 ∧ s.outs.length = 12 ∧ s.lanes.length = 18 ∧ s.pps.length = 4 ∧ s.tod.length = 2 ∧ s.ens.members.length = 4 ∧
    s.ens.ctl.length = 8 ∧ s.ens.cands.length = 30 ∧ s.srcRes.length = 6 ∧ s.mac.length = 16 ∧ s.pkt.clients.length = 4 ∧
    mapWf (fun _ => ({} : GroupKey)) s.pkt.keys = true ∧ s.dma.length = 16 ∧ s.keys.copyA.length = 64 ∧ s.keys.copyB.length = 64 :=
  ⟨h.1, h.2, h.3, h.4, h.5, h.6, h.7, h.8, h.9, h.10, h.11, h.12, h.13, h.14, h.15, h.16, h.17, h.18, h.19, h.20, h.21⟩
/-- A fact that follows from the shape of a state. -/
theorem Shape.lenOf {s : State} {p : Prop} (h : Shape s → p) : Shape s → p := h

@[simp] theorem allChans_length : allChans.length = 46 := by decide

@[simp] theorem mapWf_nil {α : Type} [DecidableEq α] (d : Nat → α) : mapWf d [] = true := rfl

@[simp] theorem listMod_length {α : Type} (l : List α) (n : Nat) (g : α → α) : (listMod l n g).length = l.length := by
  induction l generalizing n with
  | nil => rfl
  | cons x r ih => cases n <;> simp [listMod, ih]

/-- From `s` to `t` only the parts of the mask `m` change, and the canonical form and the shape are kept. Without bit 44 the Granary changes in the
trace ring alone, and without bit 45 no waiting fault message is lost. -/
structure Keeps (m : Nat) (s t : State) : Prop where
  wf : s.wf = true → t.wf = true
  same : ∀ c : Part, m.testBit c.idx = false → c.same s t
  ring : m.testBit 44 = false → OnlyRing s t
  faults : m.testBit 45 = false → KeepsFaults s t
  shape : Shape s → Shape t

theorem Part.same_refl (c : Part) (s : State) : c.same s s := by cases c <;> rfl

theorem Part.same_trans (c : Part) {s t u : State} (h : c.same s t) (k : c.same t u) : c.same s u := by
  cases c <;> exact Eq.trans k h

theorem Keeps.refl (m : Nat) (s : State) : Keeps m s s := ⟨fun h => h, fun c _ => c.same_refl s, fun _ _ _ => rfl, fun _ _ h => h, fun h => h⟩

theorem testBit_sub {a m i : Nat} (h : a &&& m = a) (hi : m.testBit i = false) : a.testBit i = false := by
  rw [← h, Nat.testBit_and, hi, Bool.and_false]

/-- The parts of a mask are all that changes. -/
theorem Keeps.frame {m : Nat} {l : List Part} {s t : State} (h : Keeps m s t) (hl : ∀ c : Part, c ∉ l → m.testBit c.idx = false) :
    Frame l s t := fun c hc => h.same c (hl c hc)

/-- Masks compare. -/
theorem Keeps.sub {a b m : Nat} (h : Nat.beq (Nat.land a b) a = true) (k : Nat.beq (Nat.land b m) b = true) :
    Nat.beq (Nat.land a m) a = true := by
  have h := Nat.eq_of_beq_eq_true h
  have k := Nat.eq_of_beq_eq_true k
  have : Nat.land a m = a := by
    show a &&& m = a
    have h : a &&& b = a := h
    have k : b &&& m = b := k
    rw [← h, Nat.and_assoc, k]
  rw [this]; exact Nat.beq_refl a

/-- One more operation after others. -/
theorem Keeps.step {m a : Nat} {s t u : State} (k : Keeps a t u) (ha : Nat.beq (Nat.land a m) a = true) (h : Keeps m s t) : Keeps m s u :=
  ⟨fun x => k.wf (h.wf x), fun c hc => c.same_trans (h.same c hc) (k.same c (testBit_sub (Nat.eq_of_beq_eq_true ha) hc)),
   fun hm a hr => (k.ring (testBit_sub (Nat.eq_of_beq_eq_true ha) hm) a hr).trans (h.ring hm a hr),
   fun hm x hx => k.faults (testBit_sub (Nat.eq_of_beq_eq_true ha) hm) x (h.faults hm x hx),
   fun x => k.shape (h.shape x)⟩

/-- An operation repeated over a list. -/
theorem Keeps.foldl {m : Nat} {s : State} {α : Type} (g : State → α → State) (l : List α) {t : State} (h : Keeps m s t)
    (k : ∀ x a, Keeps m s x → Keeps m s (g x a)) : Keeps m s (l.foldl g t) := by
  induction l generalizing t with
  | nil => exact h
  | cons a r ih => exact ih (k t a h)

/-- The state of an outcome, where it is a next state. -/
def OutKeeps (m : Nat) (s : State) (o : Out) : Prop := ∀ t, o = .next t → Keeps m s t

theorem OutKeeps.next {m : Nat} {s t : State} (h : Keeps m s t) : OutKeeps m s (.next t) := by
  intro u hu; cases hu; exact h

theorem State.wr_keeps (s : State) (o : Nat) (v : Word) : Keeps 1 s (s.wr o v) := by
  refine ⟨fun h => ?_, fun c hc => ?_, fun _ _ _ => rfl, fun _ _ h => h, fun h => ⟨h.1, h.2, h.3, h.4, h.5, h.6, h.7, h.8, h.9, h.10, h.11, h.12, h.13, h.14, h.15, h.16, h.17, h.18, h.19, h.20, h.21⟩⟩
  · simp only [State.wf, Memory.wf, Bool.and_eq_true] at h ⊢
    simp [State.wr, h]
  · cases c <;> first | rfl | exact absurd hc (by decide)

theorem State.setLv_keeps (s : State) (o : Nat) (v : Word) : Keeps 2 s (s.setLv o v) := by
  refine ⟨fun h => ?_, fun c hc => ?_, fun _ _ _ => rfl, fun _ _ h => h, fun h => ⟨h.1, h.2, h.3, h.4, h.5, h.6, h.7, h.8, h.9, h.10, h.11, h.12, h.13, h.14, h.15, h.16, h.17, h.18, h.19, h.20, h.21⟩⟩
  · simp only [State.wf, Memory.wf, Bool.and_eq_true] at h ⊢
    simp [State.setLv, h]
  · cases c <;> first | rfl | exact absurd hc (by decide)

theorem State.tallyAdd_keeps (s : State) (i n : Nat) : Keeps 549755813888 s (s.tallyAdd i n) := by
  refine ⟨fun h => ?_, fun c hc => ?_, fun _ _ _ => rfl, fun _ _ h => h, fun h => ⟨h.1, h.2, h.3, h.4, h.5, h.6, h.7, h.8, h.9, h.10, h.11, h.12, h.13, h.14, h.15, h.16, h.17, h.18, h.19, h.20, h.21⟩⟩
  · simp only [State.wf, Memory.wf, Bool.and_eq_true] at h ⊢
    simp [State.tallyAdd, h]
  · cases c <;> first | rfl | exact absurd hc (by decide)

theorem State.mset_keeps (s : State) (a : Nat) (v : Byte) : Keeps 18691697672192 s (s.mset a v) := by
  refine ⟨fun h => ?_, fun c hc => ?_, fun h => absurd h (by decide), fun _ _ h => h, fun h => ⟨h.1, h.2, h.3, h.4, h.5, h.6, h.7, h.8, h.9, h.10, h.11, h.12, h.13, h.14, h.15, h.16, h.17, h.18, h.19, h.20, h.21⟩⟩
  · simp only [State.wf, Memory.wf, Bool.and_eq_true] at h ⊢
    simp [State.mset, h]
  · cases c <;> first | rfl | exact absurd hc (by decide)

theorem Keeps.ite {m : Nat} {s a b : State} {c : Prop} [Decidable c] (h : c → Keeps m s a) (k : ¬c → Keeps m s b) :
    Keeps m s (if c then a else b) := by
  split
  · exact h (by assumption)
  · exact k (by assumption)

theorem OutKeeps.ite {m : Nat} {s : State} {a b : Out} {c : Prop} [Decidable c] (h : c → OutKeeps m s a) (k : ¬c → OutKeeps m s b) :
    OutKeeps m s (if c then a else b) := by
  split
  · exact h (by assumption)
  · exact k (by assumption)

/-- The state beside a value. -/
theorem Keeps.ofSnd {m : Nat} {s t : State} {α : Type} {p : α × State} {a : α} (e : p = (a, t)) (k : Keeps m s p.2) : Keeps m s t := by
  rw [e] at k; exact k

theorem Keeps.ofFst {m : Nat} {s t : State} {α : Type} {p : State × α} {a : α} (e : p = (t, a)) (k : Keeps m s p.1) : Keeps m s t := by
  rw [e] at k; exact k

/-! ### Updates of fields -/

theorem Keeps.with_bankI (s : State) (x0 : RegFile) (h0 : s.wf = true → mapWf resetWord x0 = true) :
    Keeps 32 s { s with bankI := x0 } := by
  refine ⟨fun h => ?_, fun c hc => ?_, fun _ _ _ => rfl, fun _ _ h => h, fun h => ⟨h.1, h.2, h.3, h.4, h.5, h.6, h.7, h.8, h.9, h.10, h.11, h.12, h.13, h.14, h.15, h.16, h.17, h.18, h.19, h.20, h.21⟩⟩
  · have k0 := h0 h; simp only [State.wf, Memory.wf, Bool.and_eq_true] at h k0 ⊢
    simp [h, k0]
  · cases c <;> first | rfl | exact absurd hc (by decide)

theorem Keeps.with_bankP (s : State) (x0 : RegFile) (h0 : s.wf = true → mapWf resetWord x0 = true) :
    Keeps 16 s { s with bankP := x0 } := by
  refine ⟨fun h => ?_, fun c hc => ?_, fun _ _ _ => rfl, fun _ _ h => h, fun h => ⟨h.1, h.2, h.3, h.4, h.5, h.6, h.7, h.8, h.9, h.10, h.11, h.12, h.13, h.14, h.15, h.16, h.17, h.18, h.19, h.20, h.21⟩⟩
  · have k0 := h0 h; simp only [State.wf, Memory.wf, Bool.and_eq_true] at h k0 ⊢
    simp [h, k0]
  · cases c <;> first | rfl | exact absurd hc (by decide)

theorem Keeps.with_chans (s : State) (x0 : List CommitChan)  (g0 : Shape s → x0.length = 46) :
    Keeps 4096 s { s with chans := x0 } := by
  refine ⟨fun h => h, fun c hc => ?_, fun _ _ _ => rfl, fun _ _ h => h, fun h => ⟨g0 h, h.2, h.3, h.4, h.5, h.6, h.7, h.8, h.9, h.10, h.11, h.12, h.13, h.14, h.15, h.16, h.17, h.18, h.19, h.20, h.21⟩⟩
  · cases c <;> first | rfl | exact absurd hc (by decide)

theorem Keeps.with_cst (s : State) (x0 : Cst)  :
    Keeps 268435456 s { s with cst := x0 } := by
  refine ⟨fun h => h, fun c hc => ?_, fun _ _ _ => rfl, fun _ _ h => h, fun h => ⟨h.1, h.2, h.3, h.4, h.5, h.6, h.7, h.8, h.9, h.10, h.11, h.12, h.13, h.14, h.15, h.16, h.17, h.18, h.19, h.20, h.21⟩⟩
  · cases c <;> first | rfl | exact absurd hc (by decide)

theorem Keeps.with_dma (s : State) (x0 : List (List Byte))  (g0 : Shape s → x0.length = 16) :
    Keeps 2147483648 s { s with dma := x0 } := by
  refine ⟨fun h => h, fun c hc => ?_, fun _ _ _ => rfl, fun _ _ h => h, fun h => ⟨h.1, h.2, h.3, h.4, h.5, h.6, h.7, h.8, h.9, h.10, h.11, h.12, h.13, h.14, h.15, h.16, h.17, h.18, g0 h, h.20, h.21⟩⟩
  · cases c <;> first | rfl | exact absurd hc (by decide)

theorem Keeps.with_ens (s : State) (x0 : Ens)  (g0 : Shape s → x0.members.length = 4 ∧ x0.ctl.length = 8 ∧ x0.cands.length = 30) :
    Keeps 4194304 s { s with ens := x0 } := by
  refine ⟨fun h => h, fun c hc => ?_, fun _ _ _ => rfl, fun _ _ h => h, fun h => ⟨h.1, h.2, h.3, h.4, h.5, h.6, h.7, h.8, h.9, h.10, h.11, (g0 h).1, (g0 h).2.1, (g0 h).2.2, h.15, h.16, h.17, h.18, h.19, h.20, h.21⟩⟩
  · cases c <;> first | rfl | exact absurd hc (by decide)

theorem Keeps.with_ens_trace (s : State) (x0 : Ens) (x1 : Trace)  (g0 : Shape s → x0.members.length = 4 ∧ x0.ctl.length = 8 ∧ x0.cands.length = 30) :
    Keeps 17184063488 s { s with ens := x0, trace := x1 } := by
  refine ⟨fun h => h, fun c hc => ?_, fun _ _ _ => rfl, fun _ _ h => h, fun h => ⟨h.1, h.2, h.3, h.4, h.5, h.6, h.7, h.8, h.9, h.10, h.11, (g0 h).1, (g0 h).2.1, (g0 h).2.2, h.15, h.16, h.17, h.18, h.19, h.20, h.21⟩⟩
  · cases c <;> first | rfl | exact absurd hc (by decide)

theorem Keeps.with_faults (s : State) (x0 : List FaultMsg)  :
    Keeps 35253091565568 s { s with faults := x0 } := by
  refine ⟨fun h => h, fun c hc => ?_, fun _ _ _ => rfl, fun h => absurd h (by decide), fun h => ⟨h.1, h.2, h.3, h.4, h.5, h.6, h.7, h.8, h.9, h.10, h.11, h.12, h.13, h.14, h.15, h.16, h.17, h.18, h.19, h.20, h.21⟩⟩
  · cases c <;> first | rfl | exact absurd hc (by decide)

theorem Keeps.with_fenceI (s : State) (x0 : Option Fence)  :
    Keeps 512 s { s with fenceI := x0 } := by
  refine ⟨fun h => h, fun c hc => ?_, fun _ _ _ => rfl, fun _ _ h => h, fun h => ⟨h.1, h.2, h.3, h.4, h.5, h.6, h.7, h.8, h.9, h.10, h.11, h.12, h.13, h.14, h.15, h.16, h.17, h.18, h.19, h.20, h.21⟩⟩
  · cases c <;> first | rfl | exact absurd hc (by decide)

theorem Keeps.with_fenceP (s : State) (x0 : Option Fence)  :
    Keeps 256 s { s with fenceP := x0 } := by
  refine ⟨fun h => h, fun c hc => ?_, fun _ _ _ => rfl, fun _ _ h => h, fun h => ⟨h.1, h.2, h.3, h.4, h.5, h.6, h.7, h.8, h.9, h.10, h.11, h.12, h.13, h.14, h.15, h.16, h.17, h.18, h.19, h.20, h.21⟩⟩
  · cases c <;> first | rfl | exact absurd hc (by decide)

theorem Keeps.with_flt (s : State) (x0 : Watch) (h0 : s.wf = true → mapWf noEntry x0.log = true) :
    Keeps 8589934592 s { s with flt := x0 } := by
  refine ⟨fun h => ?_, fun c hc => ?_, fun _ _ _ => rfl, fun _ _ h => h, fun h => ⟨h.1, h.2, h.3, h.4, h.5, h.6, h.7, h.8, h.9, h.10, h.11, h.12, h.13, h.14, h.15, h.16, h.17, h.18, h.19, h.20, h.21⟩⟩
  · have k0 := h0 h; simp only [State.wf, Memory.wf, Bool.and_eq_true] at h k0 ⊢
    simp [h, k0]
  · cases c <;> first | rfl | exact absurd hc (by decide)

theorem Keeps.with_flt_faults (s : State) (x0 : Watch) (x1 : List FaultMsg) (h0 : s.wf = true → mapWf noEntry x0.log = true) :
    Keeps 35261681500160 s { s with flt := x0, faults := x1 } := by
  refine ⟨fun h => ?_, fun c hc => ?_, fun _ _ _ => rfl, fun h => absurd h (by decide), fun h => ⟨h.1, h.2, h.3, h.4, h.5, h.6, h.7, h.8, h.9, h.10, h.11, h.12, h.13, h.14, h.15, h.16, h.17, h.18, h.19, h.20, h.21⟩⟩
  · have k0 := h0 h; simp only [State.wf, Memory.wf, Bool.and_eq_true] at h k0 ⊢
    simp [h, k0]
  · cases c <;> first | rfl | exact absurd hc (by decide)

theorem Keeps.with_free (s : State) (x0 : Nat)  :
    Keeps 4398046511104 s { s with free := x0 } := by
  refine ⟨fun h => h, fun c hc => ?_, fun _ _ _ => rfl, fun _ _ h => h, fun h => ⟨h.1, h.2, h.3, h.4, h.5, h.6, h.7, h.8, h.9, h.10, h.11, h.12, h.13, h.14, h.15, h.16, h.17, h.18, h.19, h.20, h.21⟩⟩
  · cases c <;> first | rfl | exact absurd hc (by decide)

theorem Keeps.with_gns (s : State) (x0 : Gns)  :
    Keeps 33554432 s { s with gns := x0 } := by
  refine ⟨fun h => h, fun c hc => ?_, fun _ _ _ => rfl, fun _ _ h => h, fun h => ⟨h.1, h.2, h.3, h.4, h.5, h.6, h.7, h.8, h.9, h.10, h.11, h.12, h.13, h.14, h.15, h.16, h.17, h.18, h.19, h.20, h.21⟩⟩
  · cases c <;> first | rfl | exact absurd hc (by decide)

theorem Keeps.with_heldI (s : State) (x0 : List HeldWrite)  :
    Keeps 2048 s { s with heldI := x0 } := by
  refine ⟨fun h => h, fun c hc => ?_, fun _ _ _ => rfl, fun _ _ h => h, fun h => ⟨h.1, h.2, h.3, h.4, h.5, h.6, h.7, h.8, h.9, h.10, h.11, h.12, h.13, h.14, h.15, h.16, h.17, h.18, h.19, h.20, h.21⟩⟩
  · cases c <;> first | rfl | exact absurd hc (by decide)

theorem Keeps.with_heldP (s : State) (x0 : List HeldWrite)  :
    Keeps 1024 s { s with heldP := x0 } := by
  refine ⟨fun h => h, fun c hc => ?_, fun _ _ _ => rfl, fun _ _ h => h, fun h => ⟨h.1, h.2, h.3, h.4, h.5, h.6, h.7, h.8, h.9, h.10, h.11, h.12, h.13, h.14, h.15, h.16, h.17, h.18, h.19, h.20, h.21⟩⟩
  · cases c <;> first | rfl | exact absurd hc (by decide)

theorem Keeps.with_img (s : State) (x0 : Img) (h0 : s.wf = true → mapWf resetWord x0.regs = true) :
    Keeps 536870912 s { s with img := x0 } := by
  refine ⟨fun h => ?_, fun c hc => ?_, fun _ _ _ => rfl, fun _ _ h => h, fun h => ⟨h.1, h.2, h.3, h.4, h.5, h.6, h.7, h.8, h.9, h.10, h.11, h.12, h.13, h.14, h.15, h.16, h.17, h.18, h.19, h.20, h.21⟩⟩
  · have k0 := h0 h; simp only [State.wf, Memory.wf, Bool.and_eq_true] at h k0 ⊢
    simp [h, k0]
  · cases c <;> first | rfl | exact absurd hc (by decide)

theorem Keeps.with_keys (s : State) (x0 : Keys)  (g0 : Shape s → x0.copyA.length = 64 ∧ x0.copyB.length = 64) :
    Keeps 34359738368 s { s with keys := x0 } := by
  refine ⟨fun h => h, fun c hc => ?_, fun _ _ _ => rfl, fun _ _ h => h, fun h => ⟨h.1, h.2, h.3, h.4, h.5, h.6, h.7, h.8, h.9, h.10, h.11, h.12, h.13, h.14, h.15, h.16, h.17, h.18, h.19, (g0 h).1, (g0 h).2⟩⟩
  · cases c <;> first | rfl | exact absurd hc (by decide)

theorem Keeps.with_keys_faults (s : State) (x0 : Keys) (x1 : List FaultMsg)  (g0 : Shape s → x0.copyA.length = 64 ∧ x0.copyB.length = 64) :
    Keeps 35287451303936 s { s with keys := x0, faults := x1 } := by
  refine ⟨fun h => h, fun c hc => ?_, fun _ _ _ => rfl, fun h => absurd h (by decide), fun h => ⟨h.1, h.2, h.3, h.4, h.5, h.6, h.7, h.8, h.9, h.10, h.11, h.12, h.13, h.14, h.15, h.16, h.17, h.18, h.19, (g0 h).1, (g0 h).2⟩⟩
  · cases c <;> first | rfl | exact absurd hc (by decide)

theorem Keeps.with_lanes (s : State) (x0 : List LaneRt)  (g0 : Shape s → x0.length = 18) :
    Keeps 524288 s { s with lanes := x0 } := by
  refine ⟨fun h => h, fun c hc => ?_, fun _ _ _ => rfl, fun _ _ h => h, fun h => ⟨h.1, h.2, h.3, h.4, h.5, h.6, h.7, h.8, g0 h, h.10, h.11, h.12, h.13, h.14, h.15, h.16, h.17, h.18, h.19, h.20, h.21⟩⟩
  · cases c <;> first | rfl | exact absurd hc (by decide)

theorem Keeps.with_live (s : State) (x0 : RegFile) (h0 : s.wf = true → mapWf resetWord x0 = true) :
    Keeps 2 s { s with live := x0 } := by
  refine ⟨fun h => ?_, fun c hc => ?_, fun _ _ _ => rfl, fun _ _ h => h, fun h => ⟨h.1, h.2, h.3, h.4, h.5, h.6, h.7, h.8, h.9, h.10, h.11, h.12, h.13, h.14, h.15, h.16, h.17, h.18, h.19, h.20, h.21⟩⟩
  · have k0 := h0 h; simp only [State.wf, Memory.wf, Bool.and_eq_true] at h k0 ⊢
    simp [h, k0]
  · cases c <;> first | rfl | exact absurd hc (by decide)

theorem Keeps.with_mac (s : State) (x0 : List MacPort)  (g0 : Shape s → x0.length = 16) :
    Keeps 67108864 s { s with mac := x0 } := by
  refine ⟨fun h => h, fun c hc => ?_, fun _ _ _ => rfl, fun _ _ h => h, fun h => ⟨h.1, h.2, h.3, h.4, h.5, h.6, h.7, h.8, h.9, h.10, h.11, h.12, h.13, h.14, h.15, g0 h, h.17, h.18, h.19, h.20, h.21⟩⟩
  · cases c <;> first | rfl | exact absurd hc (by decide)

theorem Keeps.with_mem (s : State) (x0 : Memory) (h0 : s.wf = true → Memory.wf x0 = true) :
    Keeps 18691697672192 s { s with mem := x0 } := by
  refine ⟨fun h => ?_, fun c hc => ?_, fun h => absurd h (by decide), fun _ _ h => h, fun h => ⟨h.1, h.2, h.3, h.4, h.5, h.6, h.7, h.8, h.9, h.10, h.11, h.12, h.13, h.14, h.15, h.16, h.17, h.18, h.19, h.20, h.21⟩⟩
  · have k0 := h0 h; simp only [State.wf, Memory.wf, Bool.and_eq_true] at h k0 ⊢
    simp [h, k0]
  · cases c <;> first | rfl | exact absurd hc (by decide)

theorem Keeps.with_monitors (s : State) (x0 : List Monitor)  (g0 : Shape s → x0.length = 15) :
    Keeps 16384 s { s with monitors := x0 } := by
  refine ⟨fun h => h, fun c hc => ?_, fun _ _ _ => rfl, fun _ _ h => h, fun h => ⟨h.1, h.2, h.3, g0 h, h.5, h.6, h.7, h.8, h.9, h.10, h.11, h.12, h.13, h.14, h.15, h.16, h.17, h.18, h.19, h.20, h.21⟩⟩
  · cases c <;> first | rfl | exact absurd hc (by decide)

theorem Keeps.with_out (s : State) (x0 : List Emit)  :
    Keeps 2199023255552 s { s with out := x0 } := by
  refine ⟨fun h => h, fun c hc => ?_, fun _ _ _ => rfl, fun _ _ h => h, fun h => ⟨h.1, h.2, h.3, h.4, h.5, h.6, h.7, h.8, h.9, h.10, h.11, h.12, h.13, h.14, h.15, h.16, h.17, h.18, h.19, h.20, h.21⟩⟩
  · cases c <;> first | rfl | exact absurd hc (by decide)

theorem Keeps.with_outs (s : State) (x0 : List (List Wave))  (g0 : Shape s → x0.length = 12) :
    Keeps 262144 s { s with outs := x0 } := by
  refine ⟨fun h => h, fun c hc => ?_, fun _ _ _ => rfl, fun _ _ h => h, fun h => ⟨h.1, h.2, h.3, h.4, h.5, h.6, h.7, g0 h, h.9, h.10, h.11, h.12, h.13, h.14, h.15, h.16, h.17, h.18, h.19, h.20, h.21⟩⟩
  · cases c <;> first | rfl | exact absurd hc (by decide)

theorem Keeps.with_pba (s : State) (x0 : Nat)  :
    Keeps 274877906944 s { s with pba := x0 } := by
  refine ⟨fun h => h, fun c hc => ?_, fun _ _ _ => rfl, fun _ _ h => h, fun h => ⟨h.1, h.2, h.3, h.4, h.5, h.6, h.7, h.8, h.9, h.10, h.11, h.12, h.13, h.14, h.15, h.16, h.17, h.18, h.19, h.20, h.21⟩⟩
  · cases c <;> first | rfl | exact absurd hc (by decide)

theorem Keeps.with_pcie (s : State) (x0 : Pcie)  :
    Keeps 70368744177664 s { s with pcie := x0 } := by
  refine ⟨fun h => h, fun c hc => ?_, fun _ _ _ => rfl, fun _ _ h => h, fun h => ⟨h.1, h.2, h.3, h.4, h.5, h.6, h.7, h.8, h.9, h.10, h.11, h.12, h.13, h.14, h.15, h.16, h.17, h.18, h.19, h.20, h.21⟩⟩
  · cases c <;> first | rfl | exact absurd hc (by decide)

theorem Keeps.with_pendSh (s : State) (x0 : List (Nat × Nat))  :
    Keeps 4 s { s with pendSh := x0 } := by
  refine ⟨fun h => h, fun c hc => ?_, fun _ _ _ => rfl, fun _ _ h => h, fun h => ⟨h.1, h.2, h.3, h.4, h.5, h.6, h.7, h.8, h.9, h.10, h.11, h.12, h.13, h.14, h.15, h.16, h.17, h.18, h.19, h.20, h.21⟩⟩
  · cases c <;> first | rfl | exact absurd hc (by decide)

theorem Keeps.with_pendSh_shStamp (s : State) (x0 : List (Nat × Nat)) (x1 : Nat)  :
    Keeps 12 s { s with pendSh := x0, shStamp := x1 } := by
  refine ⟨fun h => h, fun c hc => ?_, fun _ _ _ => rfl, fun _ _ h => h, fun h => ⟨h.1, h.2, h.3, h.4, h.5, h.6, h.7, h.8, h.9, h.10, h.11, h.12, h.13, h.14, h.15, h.16, h.17, h.18, h.19, h.20, h.21⟩⟩
  · cases c <;> first | rfl | exact absurd hc (by decide)

theorem Keeps.with_pkt (s : State) (x0 : Pkt)  (g0 : Shape s → x0.clients.length = 4 ∧ mapWf (fun _ => ({} : GroupKey)) x0.keys = true) :
    Keeps 134217728 s { s with pkt := x0 } := by
  refine ⟨fun h => h, fun c hc => ?_, fun _ _ _ => rfl, fun _ _ h => h, fun h => ⟨h.1, h.2, h.3, h.4, h.5, h.6, h.7, h.8, h.9, h.10, h.11, h.12, h.13, h.14, h.15, h.16, (g0 h).1, (g0 h).2, h.19, h.20, h.21⟩⟩
  · cases c <;> first | rfl | exact absurd hc (by decide)

theorem Keeps.with_pps (s : State) (x0 : List PpsPin)  (g0 : Shape s → x0.length = 4) :
    Keeps 1048576 s { s with pps := x0 } := by
  refine ⟨fun h => h, fun c hc => ?_, fun _ _ _ => rfl, fun _ _ h => h, fun h => ⟨h.1, h.2, h.3, h.4, h.5, h.6, h.7, h.8, h.9, g0 h, h.11, h.12, h.13, h.14, h.15, h.16, h.17, h.18, h.19, h.20, h.21⟩⟩
  · cases c <;> first | rfl | exact absurd hc (by decide)

theorem Keeps.with_pps_tod (s : State) (x0 : List PpsPin) (x1 : List TodChan)  (g0 : Shape s → x0.length = 4) (g1 : Shape s → x1.length = 2) :
    Keeps 3145728 s { s with pps := x0, tod := x1 } := by
  refine ⟨fun h => h, fun c hc => ?_, fun _ _ _ => rfl, fun _ _ h => h, fun h => ⟨h.1, h.2, h.3, h.4, h.5, h.6, h.7, h.8, h.9, g0 h, g1 h, h.12, h.13, h.14, h.15, h.16, h.17, h.18, h.19, h.20, h.21⟩⟩
  · cases c <;> first | rfl | exact absurd hc (by decide)

theorem Keeps.with_prf (s : State) (x0 : Prf)  :
    Keeps 4294967296 s { s with prf := x0 } := by
  refine ⟨fun h => h, fun c hc => ?_, fun _ _ _ => rfl, fun _ _ h => h, fun h => ⟨h.1, h.2, h.3, h.4, h.5, h.6, h.7, h.8, h.9, h.10, h.11, h.12, h.13, h.14, h.15, h.16, h.17, h.18, h.19, h.20, h.21⟩⟩
  · cases c <;> first | rfl | exact absurd hc (by decide)

theorem Keeps.with_prf_tally (s : State) (x0 : Prf) (x1 : List (Nat × Nat)) (h1 : s.wf = true → mapWf (fun _ => 0) x1 = true) :
    Keeps 554050781184 s { s with prf := x0, tally := x1 } := by
  refine ⟨fun h => ?_, fun c hc => ?_, fun _ _ _ => rfl, fun _ _ h => h, fun h => ⟨h.1, h.2, h.3, h.4, h.5, h.6, h.7, h.8, h.9, h.10, h.11, h.12, h.13, h.14, h.15, h.16, h.17, h.18, h.19, h.20, h.21⟩⟩
  · have k1 := h1 h; simp only [State.wf, Memory.wf, Bool.and_eq_true] at h k1 ⊢
    simp [h, k1]
  · cases c <;> first | rfl | exact absurd hc (by decide)

theorem Keeps.with_pwr (s : State) (x0 : Pwr)  :
    Keeps 1073741824 s { s with pwr := x0 } := by
  refine ⟨fun h => h, fun c hc => ?_, fun _ _ _ => rfl, fun _ _ h => h, fun h => ⟨h.1, h.2, h.3, h.4, h.5, h.6, h.7, h.8, h.9, h.10, h.11, h.12, h.13, h.14, h.15, h.16, h.17, h.18, h.19, h.20, h.21⟩⟩
  · cases c <;> first | rfl | exact absurd hc (by decide)

theorem Keeps.with_rdI (s : State) (x0 : Option Completion)  :
    Keeps 128 s { s with rdI := x0 } := by
  refine ⟨fun h => h, fun c hc => ?_, fun _ _ _ => rfl, fun _ _ h => h, fun h => ⟨h.1, h.2, h.3, h.4, h.5, h.6, h.7, h.8, h.9, h.10, h.11, h.12, h.13, h.14, h.15, h.16, h.17, h.18, h.19, h.20, h.21⟩⟩
  · cases c <;> first | rfl | exact absurd hc (by decide)

theorem Keeps.with_rdP (s : State) (x0 : Option Completion)  :
    Keeps 64 s { s with rdP := x0 } := by
  refine ⟨fun h => h, fun c hc => ?_, fun _ _ _ => rfl, fun _ _ h => h, fun h => ⟨h.1, h.2, h.3, h.4, h.5, h.6, h.7, h.8, h.9, h.10, h.11, h.12, h.13, h.14, h.15, h.16, h.17, h.18, h.19, h.20, h.21⟩⟩
  · cases c <;> first | rfl | exact absurd hc (by decide)

theorem Keeps.with_rdP_heldP_spn_pwr_vecMask_pba_pcie (s : State) (x0 : Option Completion) (x1 : List HeldWrite) (x2 : Spn) (x3 : Pwr) (x4 : Nat) (x5 : Nat) (x6 : Pcie)  (g2 : Shape s → x2.bases.length = 8 ∧ x2.slots.length = 64) :
    Keeps 70782134789184 s { s with rdP := x0, heldP := x1, spn := x2, pwr := x3, vecMask := x4, pba := x5, pcie := x6 } := by
  refine ⟨fun h => h, fun c hc => ?_, fun _ _ _ => rfl, fun _ _ h => h, fun h => ⟨h.1, (g2 h).1, (g2 h).2, h.4, h.5, h.6, h.7, h.8, h.9, h.10, h.11, h.12, h.13, h.14, h.15, h.16, h.17, h.18, h.19, h.20, h.21⟩⟩
  · cases c <;> first | rfl | exact absurd hc (by decide)

theorem Keeps.with_regs (s : State) (x0 : RegFile) (h0 : s.wf = true → mapWf resetWord x0 = true) :
    Keeps 1 s { s with regs := x0 } := by
  refine ⟨fun h => ?_, fun c hc => ?_, fun _ _ _ => rfl, fun _ _ h => h, fun h => ⟨h.1, h.2, h.3, h.4, h.5, h.6, h.7, h.8, h.9, h.10, h.11, h.12, h.13, h.14, h.15, h.16, h.17, h.18, h.19, h.20, h.21⟩⟩
  · have k0 := h0 h; simp only [State.wf, Memory.wf, Bool.and_eq_true] at h k0 ⊢
    simp [h, k0]
  · cases c <;> first | rfl | exact absurd hc (by decide)

theorem Keeps.with_regs_live_pendSh (s : State) (x0 : RegFile) (x1 : RegFile) (x2 : List (Nat × Nat)) (h0 : s.wf = true → mapWf resetWord x0 = true) (h1 : s.wf = true → mapWf resetWord x1 = true) :
    Keeps 7 s { s with regs := x0, live := x1, pendSh := x2 } := by
  refine ⟨fun h => ?_, fun c hc => ?_, fun _ _ _ => rfl, fun _ _ h => h, fun h => ⟨h.1, h.2, h.3, h.4, h.5, h.6, h.7, h.8, h.9, h.10, h.11, h.12, h.13, h.14, h.15, h.16, h.17, h.18, h.19, h.20, h.21⟩⟩
  · have k0 := h0 h; have k1 := h1 h; simp only [State.wf, Memory.wf, Bool.and_eq_true] at h k0 k1 ⊢
    simp [h, k0, k1]
  · cases c <;> first | rfl | exact absurd hc (by decide)

theorem Keeps.with_spn (s : State) (x0 : Spn)  (g0 : Shape s → x0.bases.length = 8 ∧ x0.slots.length = 64) :
    Keeps 8192 s { s with spn := x0 } := by
  refine ⟨fun h => h, fun c hc => ?_, fun _ _ _ => rfl, fun _ _ h => h, fun h => ⟨h.1, (g0 h).1, (g0 h).2, h.4, h.5, h.6, h.7, h.8, h.9, h.10, h.11, h.12, h.13, h.14, h.15, h.16, h.17, h.18, h.19, h.20, h.21⟩⟩
  · cases c <;> first | rfl | exact absurd hc (by decide)

theorem Keeps.with_srcRes (s : State) (x0 : List CandRes)  (g0 : Shape s → x0.length = 6) :
    Keeps 8388608 s { s with srcRes := x0 } := by
  refine ⟨fun h => h, fun c hc => ?_, fun _ _ _ => rfl, fun _ _ h => h, fun h => ⟨h.1, h.2, h.3, h.4, h.5, h.6, h.7, h.8, h.9, h.10, h.11, h.12, h.13, h.14, g0 h, h.16, h.17, h.18, h.19, h.20, h.21⟩⟩
  · cases c <;> first | rfl | exact absurd hc (by decide)

theorem Keeps.with_srcRes_gns (s : State) (x0 : List CandRes) (x1 : Gns)  (g0 : Shape s → x0.length = 6) :
    Keeps 41943040 s { s with srcRes := x0, gns := x1 } := by
  refine ⟨fun h => h, fun c hc => ?_, fun _ _ _ => rfl, fun _ _ h => h, fun h => ⟨h.1, h.2, h.3, h.4, h.5, h.6, h.7, h.8, h.9, h.10, h.11, h.12, h.13, h.14, g0 h, h.16, h.17, h.18, h.19, h.20, h.21⟩⟩
  · cases c <;> first | rfl | exact absurd hc (by decide)

theorem Keeps.with_srcRes_mac_pkt (s : State) (x0 : List CandRes) (x1 : List MacPort) (x2 : Pkt)  (g0 : Shape s → x0.length = 6) (g1 : Shape s → x1.length = 16) (g2 : Shape s → x2.clients.length = 4 ∧ mapWf (fun _ => ({} : GroupKey)) x2.keys = true) :
    Keeps 209715200 s { s with srcRes := x0, mac := x1, pkt := x2 } := by
  refine ⟨fun h => h, fun c hc => ?_, fun _ _ _ => rfl, fun _ _ h => h, fun h => ⟨h.1, h.2, h.3, h.4, h.5, h.6, h.7, h.8, h.9, h.10, h.11, h.12, h.13, h.14, g0 h, g1 h, (g2 h).1, (g2 h).2, h.19, h.20, h.21⟩⟩
  · cases c <;> first | rfl | exact absurd hc (by decide)

theorem Keeps.with_srcRes_tnd (s : State) (x0 : List CandRes) (x1 : Tnd)  (g0 : Shape s → x0.length = 6) :
    Keeps 25165824 s { s with srcRes := x0, tnd := x1 } := by
  refine ⟨fun h => h, fun c hc => ?_, fun _ _ _ => rfl, fun _ _ h => h, fun h => ⟨h.1, h.2, h.3, h.4, h.5, h.6, h.7, h.8, h.9, h.10, h.11, h.12, h.13, h.14, g0 h, h.16, h.17, h.18, h.19, h.20, h.21⟩⟩
  · cases c <;> first | rfl | exact absurd hc (by decide)

theorem Keeps.with_syns (s : State) (x0 : List Syn)  (g0 : Shape s → x0.length = 4) :
    Keeps 131072 s { s with syns := x0 } := by
  refine ⟨fun h => h, fun c hc => ?_, fun _ _ _ => rfl, fun _ _ h => h, fun h => ⟨h.1, h.2, h.3, h.4, h.5, h.6, g0 h, h.8, h.9, h.10, h.11, h.12, h.13, h.14, h.15, h.16, h.17, h.18, h.19, h.20, h.21⟩⟩
  · cases c <;> first | rfl | exact absurd hc (by decide)

theorem Keeps.with_syns_outs (s : State) (x0 : List Syn) (x1 : List (List Wave))  (g0 : Shape s → x0.length = 4) (g1 : Shape s → x1.length = 12) :
    Keeps 393216 s { s with syns := x0, outs := x1 } := by
  refine ⟨fun h => h, fun c hc => ?_, fun _ _ _ => rfl, fun _ _ h => h, fun h => ⟨h.1, h.2, h.3, h.4, h.5, h.6, g0 h, g1 h, h.9, h.10, h.11, h.12, h.13, h.14, h.15, h.16, h.17, h.18, h.19, h.20, h.21⟩⟩
  · cases c <;> first | rfl | exact absurd hc (by decide)

theorem Keeps.with_syns_tod (s : State) (x0 : List Syn) (x1 : List TodChan)  (g0 : Shape s → x0.length = 4) (g1 : Shape s → x1.length = 2) :
    Keeps 2228224 s { s with syns := x0, tod := x1 } := by
  refine ⟨fun h => h, fun c hc => ?_, fun _ _ _ => rfl, fun _ _ h => h, fun h => ⟨h.1, h.2, h.3, h.4, h.5, h.6, g0 h, h.8, h.9, h.10, g1 h, h.12, h.13, h.14, h.15, h.16, h.17, h.18, h.19, h.20, h.21⟩⟩
  · cases c <;> first | rfl | exact absurd hc (by decide)

theorem Keeps.with_tally (s : State) (x0 : List (Nat × Nat)) (h0 : s.wf = true → mapWf (fun _ => 0) x0 = true) :
    Keeps 549755813888 s { s with tally := x0 } := by
  refine ⟨fun h => ?_, fun c hc => ?_, fun _ _ _ => rfl, fun _ _ h => h, fun h => ⟨h.1, h.2, h.3, h.4, h.5, h.6, h.7, h.8, h.9, h.10, h.11, h.12, h.13, h.14, h.15, h.16, h.17, h.18, h.19, h.20, h.21⟩⟩
  · have k0 := h0 h; simp only [State.wf, Memory.wf, Bool.and_eq_true] at h k0 ⊢
    simp [h, k0]
  · cases c <;> first | rfl | exact absurd hc (by decide)

theorem Keeps.with_tiuL (s : State) (x0 : List TiuUnit)  (g0 : Shape s → x0.length = 18) :
    Keeps 65536 s { s with tiuL := x0 } := by
  refine ⟨fun h => h, fun c hc => ?_, fun _ _ _ => rfl, fun _ _ h => h, fun h => ⟨h.1, h.2, h.3, h.4, h.5, g0 h, h.7, h.8, h.9, h.10, h.11, h.12, h.13, h.14, h.15, h.16, h.17, h.18, h.19, h.20, h.21⟩⟩
  · cases c <;> first | rfl | exact absurd hc (by decide)

theorem Keeps.with_tiuP (s : State) (x0 : List TiuUnit)  (g0 : Shape s → x0.length = 12) :
    Keeps 32768 s { s with tiuP := x0 } := by
  refine ⟨fun h => h, fun c hc => ?_, fun _ _ _ => rfl, fun _ _ h => h, fun h => ⟨h.1, h.2, h.3, h.4, g0 h, h.6, h.7, h.8, h.9, h.10, h.11, h.12, h.13, h.14, h.15, h.16, h.17, h.18, h.19, h.20, h.21⟩⟩
  · cases c <;> first | rfl | exact absurd hc (by decide)

theorem Keeps.with_tnd (s : State) (x0 : Tnd)  :
    Keeps 16777216 s { s with tnd := x0 } := by
  refine ⟨fun h => h, fun c hc => ?_, fun _ _ _ => rfl, fun _ _ h => h, fun h => ⟨h.1, h.2, h.3, h.4, h.5, h.6, h.7, h.8, h.9, h.10, h.11, h.12, h.13, h.14, h.15, h.16, h.17, h.18, h.19, h.20, h.21⟩⟩
  · cases c <;> first | rfl | exact absurd hc (by decide)

theorem Keeps.with_tod (s : State) (x0 : List TodChan)  (g0 : Shape s → x0.length = 2) :
    Keeps 2097152 s { s with tod := x0 } := by
  refine ⟨fun h => h, fun c hc => ?_, fun _ _ _ => rfl, fun _ _ h => h, fun h => ⟨h.1, h.2, h.3, h.4, h.5, h.6, h.7, h.8, h.9, h.10, g0 h, h.12, h.13, h.14, h.15, h.16, h.17, h.18, h.19, h.20, h.21⟩⟩
  · cases c <;> first | rfl | exact absurd hc (by decide)

theorem Keeps.with_trace (s : State) (x0 : Trace)  :
    Keeps 17179869184 s { s with trace := x0 } := by
  refine ⟨fun h => h, fun c hc => ?_, fun _ _ _ => rfl, fun _ _ h => h, fun h => ⟨h.1, h.2, h.3, h.4, h.5, h.6, h.7, h.8, h.9, h.10, h.11, h.12, h.13, h.14, h.15, h.16, h.17, h.18, h.19, h.20, h.21⟩⟩
  · cases c <;> first | rfl | exact absurd hc (by decide)

theorem Keeps.with_trace_mem (s : State) (x0 : Trace) (x1 : Memory) (h1 : s.wf = true → Memory.wf x1 = true) :
    Keeps 18708877541376 s { s with trace := x0, mem := x1 } := by
  refine ⟨fun h => ?_, fun c hc => ?_, fun h => absurd h (by decide), fun _ _ h => h, fun h => ⟨h.1, h.2, h.3, h.4, h.5, h.6, h.7, h.8, h.9, h.10, h.11, h.12, h.13, h.14, h.15, h.16, h.17, h.18, h.19, h.20, h.21⟩⟩
  · have k1 := h1 h; simp only [State.wf, Memory.wf, Bool.and_eq_true] at h k1 ⊢
    simp [h, k1]
  · cases c <;> first | rfl | exact absurd hc (by decide)

theorem Keeps.with_vecMask (s : State) (x0 : Nat)  :
    Keeps 137438953472 s { s with vecMask := x0 } := by
  refine ⟨fun h => h, fun c hc => ?_, fun _ _ _ => rfl, fun _ _ h => h, fun h => ⟨h.1, h.2, h.3, h.4, h.5, h.6, h.7, h.8, h.9, h.10, h.11, h.12, h.13, h.14, h.15, h.16, h.17, h.18, h.19, h.20, h.21⟩⟩
  · cases c <;> first | rfl | exact absurd hc (by decide)

/-- An update of Watch that leaves its log alone. -/
theorem Keeps.with_flt_log (s : State) (x : Watch) (h : x.log = s.flt.log) : Keeps 8589934592 s { s with flt := x } :=
  Keeps.with_flt s x (fun w => by simp only [State.wf, Bool.and_eq_true] at w; rw [h]; exact w.1.2)

/-- An update of what start-up keeps that leaves the image's values alone. -/
theorem Keeps.with_img_regs (s : State) (x : Img) (h : x.regs = s.img.regs) : Keeps 536870912 s { s with img := x } :=
  Keeps.with_img s x (fun w => by simp only [State.wf, Bool.and_eq_true] at w; rw [h]; exact w.1.1.1.2)

end Sys2Proof.Machine
end

