-- ==== Sys2Proof/Laws/KeepsA.lean ====
section
/-! SUPPORT. What each operation of the model can change (its mask of parts, `Part.idx`) and that it keeps the canonical form: one lemma for each
operation, in the order in which they rest on each other. Part 1 of 4. -/
set_option linter.unusedSimpArgs false
namespace Sys2Proof.Machine

theorem State.emit_keeps (s : State) (e : Emit) : Keeps 2199023255552 s (State.emit s e) := by
  unfold State.emit
  try dsimp only
  repeat' first
    | exact (rfl : (_ : Bool) = _)
    | with_reducible first
      | exact Keeps.refl ..
    | with_reducible apply Keeps.step (Keeps.with_out ..)

theorem State.msixSend_keeps (s : State) (v : Nat) : Keeps 2199023255552 s (State.msixSend s v) := by
  unfold State.msixSend
  try dsimp only
  repeat' first
    | exact (rfl : (_ : Bool) = _)
    | with_reducible first
      | exact Keeps.refl ..
      | apply Keeps.step (State.emit_keeps ..)

theorem State.sendVector_keeps (s : State) (v : Nat) : Keeps 2473901162496 s (State.sendVector s v) := by
  unfold State.sendVector
  try dsimp only
  repeat' first
    | exact (rfl : (_ : Bool) = _)
    | with_reducible first
      | exact Keeps.refl ..
      | refine Keeps.ite (fun _ => ?_) (fun _ => ?_)
      | apply Keeps.step (State.msixSend_keeps ..)
    | split
    | with_reducible apply Keeps.step (Keeps.with_pba ..)

theorem State.setF_keeps (s : State) (o : Nat) (hi : Nat) (lo : Nat) (v : Nat) : Keeps 1 s (State.setF s o hi lo v) := by
  unfold State.setF
  try dsimp only
  repeat' first
    | exact (rfl : (_ : Bool) = _)
    | with_reducible first
      | exact Keeps.refl ..
      | apply Keeps.step (State.wr_keeps ..)

theorem State.setB_keeps (s : State) (o : Nat) (i : Nat) (v : Bool) : Keeps 1 s (State.setB s o i v) := by
  unfold State.setB
  try dsimp only
  repeat' first
    | exact (rfl : (_ : Bool) = _)
    | with_reducible first
      | exact Keeps.refl ..
      | refine Keeps.ite (fun _ => ?_) (fun _ => ?_)
      | apply Keeps.step (State.setF_keeps ..)
    | split

theorem State.irq_keeps (s : State) (b : Blk) (i : Nat) : Keeps 2473901162497 s (State.irq s b i) := by
  unfold State.irq
  try dsimp only
  repeat' first
    | exact (rfl : (_ : Bool) = _)
    | with_reducible first
      | exact Keeps.refl ..
      | refine Keeps.ite (fun _ => ?_) (fun _ => ?_)
      | apply Keeps.step (State.setB_keeps ..)
      | apply Keeps.step (State.sendVector_keeps ..)
    | split

theorem State.raise_keeps (s : State) (f : FaultId) (ctx : Nat) : Keeps 68719476736 s (State.raise s f ctx) := by
  refine ⟨fun h => h, fun c hc => ?_, fun _ _ _ => rfl, fun _ m hm => List.mem_append_left _ hm, fun h => ⟨h.1, h.2, h.3, h.4, h.5, h.6, h.7, h.8, h.9, h.10, h.11, h.12, h.13, h.14, h.15, h.16, h.17, h.18, h.19, h.20, h.21⟩⟩
  cases c <;> first | rfl | exact absurd hc (by decide)

theorem State.alignLost_keeps (s : State) (u : Nat) : Keeps 2542621687809 s (State.alignLost s u) := by
  unfold State.alignLost
  try dsimp only
  repeat' first
    | exact (rfl : (_ : Bool) = _)
    | exact Shape.lenOf (fun h => by first | (simp only [listMod_length, List.length_map, List.length_mapIdx, List.length_set, List.length_range, List.length_replicate, h.all, mapWf_nil, and_self]; done) | (simp [h.all, mapSet_wf]; done) | (split <;> simp [h.all] <;> done) | (constructor <;> split <;> simp [h.all] <;> done))
    | with_reducible first
      | exact Keeps.refl ..
      | assumption
      | refine Keeps.ite (fun _ => ?_) (fun _ => ?_)
      | apply Keeps.step (State.setB_keeps ..)
      | apply Keeps.step (State.irq_keeps ..)
      | apply Keeps.step (State.raise_keeps ..)
      | refine Keeps.foldl _ _ ?_ (fun _ _ _ => ?_)
    | split
    | with_reducible apply Keeps.step (Keeps.with_pps _ _ ?_)

theorem State.modUnit_keeps (s : State) (u : TiuId) (g : TiuUnit → TiuUnit) : Keeps 98304 s (State.modUnit s u g) := by
  unfold State.modUnit
  try dsimp only
  repeat' first
    | exact (rfl : (_ : Bool) = _)
    | exact Shape.lenOf (fun h => by first | (simp only [listMod_length, List.length_map, List.length_mapIdx, List.length_set, List.length_range, List.length_replicate, h.all, mapWf_nil, and_self]; done) | (simp [h.all, mapSet_wf]; done) | (split <;> simp [h.all] <;> done) | (constructor <;> split <;> simp [h.all] <;> done))
    | with_reducible first
      | exact Keeps.refl ..
      | assumption
    | split
    | with_reducible apply Keeps.step (Keeps.with_tiuP _ _ ?_)
    | with_reducible apply Keeps.step (Keeps.with_tiuL _ _ ?_)

theorem State.abandon_keeps (s : State) (u : TiuId) (cause : Nat) : Keeps 2542621786113 s (State.abandon s u cause) := by
  unfold State.abandon
  try dsimp only
  repeat' first
    | exact (rfl : (_ : Bool) = _)
    | with_reducible first
      | exact Keeps.refl ..
      | assumption
      | refine Keeps.ite (fun _ => ?_) (fun _ => ?_)
      | apply Keeps.step (State.setB_keeps ..)
      | apply Keeps.step (State.modUnit_keeps ..)
      | apply Keeps.step (State.raise_keeps ..)
      | apply Keeps.step (State.alignLost_keeps ..)
    | split

theorem State.abandonGrid_keeps (s : State) (n : Nat) : Keeps 2542621786113 s (State.abandonGrid s n) := by
  unfold State.abandonGrid
  try dsimp only
  repeat' first
    | exact (rfl : (_ : Bool) = _)
    | with_reducible first
      | exact Keeps.refl ..
      | assumption
      | refine Keeps.ite (fun _ => ?_) (fun _ => ?_)
      | apply Keeps.step (State.abandon_keeps ..)
      | refine Keeps.foldl _ _ ?_ (fun _ _ _ => ?_)
    | split

theorem State.flightOut_keeps (s : State) : Keeps 1 s (State.flightOut s) := by
  unfold State.flightOut
  try dsimp only
  repeat' first
    | exact (rfl : (_ : Bool) = _)
    | with_reducible first
      | exact Keeps.refl ..
      | apply Keeps.step (State.setB_keeps ..)
      | apply Keeps.step (State.setF_keeps ..)

theorem State.modPort_keeps (s : State) (p : Nat) (g : MacPort → MacPort) : Keeps 67108864 s (State.modPort s p g) := by
  unfold State.modPort
  try dsimp only
  repeat' first
    | exact (rfl : (_ : Bool) = _)
    | exact Shape.lenOf (fun h => by first | (simp only [listMod_length, List.length_map, List.length_mapIdx, List.length_set, List.length_range, List.length_replicate, h.all, mapWf_nil, and_self]; done) | (simp [h.all, mapSet_wf]; done) | (split <;> simp [h.all] <;> done) | (constructor <;> split <;> simp [h.all] <;> done))
    | with_reducible first
      | exact Keeps.refl ..
    | with_reducible apply Keeps.step (Keeps.with_mac _ _ ?_)

theorem State.wr64_keeps (s : State) (o : Nat) (v : Nat) : Keeps 1 s (State.wr64 s o v) := by
  unfold State.wr64
  try dsimp only
  repeat' first
    | exact (rfl : (_ : Bool) = _)
    | with_reducible first
      | exact Keeps.refl ..
      | apply Keeps.step (State.wr_keeps ..)

theorem State.pktCount_keeps (s : State) (i : Nat) (n : Nat) : Keeps 1 s (State.pktCount s i n) := by
  unfold State.pktCount
  try dsimp only
  repeat' first
    | exact (rfl : (_ : Bool) = _)
    | with_reducible first
      | exact Keeps.refl ..
      | apply Keeps.step (State.wr64_keeps ..)

theorem State.abortPort_keeps (s : State) (p : Nat) : Keeps 67108865 s (State.abortPort s p) := by
  unfold State.abortPort
  try dsimp only
  repeat' first
    | exact (rfl : (_ : Bool) = _)
    | with_reducible first
      | exact Keeps.refl ..
      | assumption
      | apply Keeps.step (State.modPort_keeps ..)
      | apply Keeps.step (State.flightOut_keeps ..)
      | apply Keeps.step (State.pktCount_keeps ..)
      | refine Keeps.foldl _ _ ?_ (fun _ _ _ => ?_)

theorem State.absentHit_keeps (s : State) (a : Nat) : Keeps 2542620639233 s (State.absentHit s a) := by
  unfold State.absentHit
  try dsimp only
  repeat' first
    | exact (rfl : (_ : Bool) = _)
    | with_reducible first
      | exact Keeps.refl ..
      | apply Keeps.step (State.irq_keeps ..)
      | apply Keeps.step (State.raise_keeps ..)

theorem State.accStore_keeps (s : State) (a : Nat) (v : Word) : Keeps 1 s (State.accStore s a v) := by
  unfold State.accStore
  try dsimp only
  repeat' first
    | exact (rfl : (_ : Bool) = _)
    | with_reducible first
      | exact Keeps.refl ..
      | assumption
      | refine Keeps.ite (fun _ => ?_) (fun _ => ?_)
      | apply Keeps.step (State.wr_keeps ..)
    | split

theorem State.activeBit_keeps (s : State) (x : EdgeSrc) : Keeps 1 s (State.activeBit s x) := by
  unfold State.activeBit
  try dsimp only
  repeat' first
    | exact (rfl : (_ : Bool) = _)
    | with_reducible first
      | exact Keeps.refl ..
      | assumption
      | apply Keeps.step (State.setB_keeps ..)
    | split

theorem State.modBase_keeps (s : State) (n : Nat) (g : TBase → TBase) : Keeps 8192 s (State.modBase s n g) := by
  unfold State.modBase
  try dsimp only
  repeat' first
    | exact (rfl : (_ : Bool) = _)
    | exact Shape.lenOf (fun h => by first | (simp only [listMod_length, List.length_map, List.length_mapIdx, List.length_set, List.length_range, List.length_replicate, h.all, mapWf_nil, and_self]; done) | (simp [h.all, mapSet_wf]; done) | (split <;> simp [h.all] <;> done) | (constructor <;> split <;> simp [h.all] <;> done))
    | with_reducible first
      | exact Keeps.refl ..
    | with_reducible apply Keeps.step (Keeps.with_spn _ _ ?_)

theorem State.launchStep_keeps (s : State) (n : Nat) (t0 : Nat) (t1 : Nat) : Keeps 67108864 s (State.launchStep s n t0 t1) := by
  unfold State.launchStep
  try dsimp only
  repeat' first
    | exact (rfl : (_ : Bool) = _)
    | with_reducible first
      | exact Keeps.refl ..
      | assumption
      | refine Keeps.ite (fun _ => ?_) (fun _ => ?_)
      | apply Keeps.step (State.modPort_keeps ..)
      | refine Keeps.foldl _ _ ?_ (fun _ _ _ => ?_)
    | split

theorem State.countSat_keeps (s : State) (o : Nat) (hi : Nat) (lo : Nat) (n : Nat) : Keeps 1 s (State.countSat s o hi lo n) := by
  unfold State.countSat
  try dsimp only
  repeat' first
    | exact (rfl : (_ : Bool) = _)
    | with_reducible first
      | exact Keeps.refl ..
      | apply Keeps.step (State.setF_keeps ..)

theorem State.ppsStep_keeps (s : State) (k : Nat) (t0 : Nat) (t1 : Nat) : Keeps 2542621687809 s (State.ppsStep s k t0 t1) := by
  unfold State.ppsStep
  try dsimp only
  repeat' first
    | exact (rfl : (_ : Bool) = _)
    | exact Shape.lenOf (fun h => by first | (simp only [listMod_length, List.length_map, List.length_mapIdx, List.length_set, List.length_range, List.length_replicate, h.all, mapWf_nil, and_self]; done) | (simp [h.all, mapSet_wf]; done) | (split <;> simp [h.all] <;> done) | (constructor <;> split <;> simp [h.all] <;> done))
    | with_reducible first
      | exact Keeps.refl ..
      | assumption
      | refine Keeps.ite (fun _ => ?_) (fun _ => ?_)
      | apply Keeps.step (State.setB_keeps ..)
      | apply Keeps.step (State.countSat_keeps ..)
      | apply Keeps.step (State.irq_keeps ..)
      | apply Keeps.step (State.raise_keeps ..)
    | split
    | with_reducible apply Keeps.step (Keeps.with_pps _ _ ?_)

theorem State.ppsSteps_keeps (s : State) (n : Nat) (t0 : Nat) (t1 : Nat) : Keeps 2542621687809 s (State.ppsSteps s n t0 t1) := by
  unfold State.ppsSteps
  try dsimp only
  repeat' first
    | exact (rfl : (_ : Bool) = _)
    | with_reducible first
      | exact Keeps.refl ..
      | assumption
      | refine Keeps.ite (fun _ => ?_) (fun _ => ?_)
      | apply Keeps.step (State.ppsStep_keeps ..)
      | refine Keeps.foldl _ _ ?_ (fun _ _ _ => ?_)
    | split

theorem State.retarget_keeps (s : State) (n : Nat) : Keeps 4096 s (State.retarget s n) := by
  unfold State.retarget
  try dsimp only
  repeat' first
    | exact (rfl : (_ : Bool) = _)
    | exact Shape.lenOf (fun h => by first | (simp only [listMod_length, List.length_map, List.length_mapIdx, List.length_set, List.length_range, List.length_replicate, h.all, mapWf_nil, and_self]; done) | (simp [h.all, mapSet_wf]; done) | (split <;> simp [h.all] <;> done) | (constructor <;> split <;> simp [h.all] <;> done))
    | with_reducible first
      | exact Keeps.refl ..
      | assumption
      | refine Keeps.ite (fun _ => ?_) (fun _ => ?_)
    | split
    | with_reducible apply Keeps.step (Keeps.with_chans _ _ ?_)

theorem State.modSpn_keeps (s : State) (g : Spn → Spn) (h : Shape s → (g s.spn).bases.length = 8 ∧ (g s.spn).slots.length = 64) :
    Keeps 8192 s (State.modSpn s g) := Keeps.with_spn s _ h

theorem State.modSlot_keeps (s : State) (i : Nat) (g : Slot → Slot) : Keeps 8192 s (State.modSlot s i g) := by
  unfold State.modSlot
  try dsimp only
  repeat' first
    | exact (rfl : (_ : Bool) = _)
    | exact Shape.lenOf (fun h => by first | (simp only [listMod_length, List.length_map, List.length_mapIdx, List.length_set, List.length_range, List.length_replicate, h.all, mapWf_nil, and_self]; done) | (simp [h.all, mapSet_wf]; done) | (split <;> simp [h.all] <;> done) | (constructor <;> split <;> simp [h.all] <;> done))
    | with_reducible first
      | exact Keeps.refl ..
      | apply Keeps.step (State.modSpn_keeps _ _ ?_)

theorem State.slotPass_keeps (s : State) (n : Nat) (lo : Nat) (hi : Nat) : Keeps 8192 s (State.slotPass s n lo hi) := by
  unfold State.slotPass
  try dsimp only
  repeat' first
    | exact (rfl : (_ : Bool) = _)
    | with_reducible first
      | exact Keeps.refl ..
      | assumption
      | refine Keeps.ite (fun _ => ?_) (fun _ => ?_)
      | apply Keeps.step (State.modSlot_keeps ..)
      | refine Keeps.foldl _ _ ?_ (fun _ _ _ => ?_)
    | split

theorem State.modSyn_keeps (s : State) (k : Nat) (g : Syn → Syn) : Keeps 131072 s (State.modSyn s k g) := by
  unfold State.modSyn
  try dsimp only
  repeat' first
    | exact (rfl : (_ : Bool) = _)
    | exact Shape.lenOf (fun h => by first | (simp only [listMod_length, List.length_map, List.length_mapIdx, List.length_set, List.length_range, List.length_replicate, h.all, mapWf_nil, and_self]; done) | (simp [h.all, mapSet_wf]; done) | (split <;> simp [h.all] <;> done) | (constructor <;> split <;> simp [h.all] <;> done))
    | with_reducible first
      | exact Keeps.refl ..
    | with_reducible apply Keeps.step (Keeps.with_syns _ _ ?_)

theorem State.realignHere_keeps (s : State) (k : Nat) (off : Int) : Keeps 131072 s (State.realignHere s k off) := by
  unfold State.realignHere
  try dsimp only
  repeat' first
    | exact (rfl : (_ : Bool) = _)
    | with_reducible first
      | exact Keeps.refl ..
      | apply Keeps.step (State.modSyn_keeps ..)

theorem Keeps.forMapped {m : Nat} {b s : State} {k : Nat} {g : State → Nat → State} (hg : ∀ x j, Keeps m b x → Keeps m b (g x j)) (h : Keeps m b s) :
    Keeps m b (State.forMapped s k g) := by
  unfold State.forMapped
  exact Keeps.foldl _ _ h hg

theorem State.synAligned_keeps (s : State) (k : Nat) (v : Bool) : Keeps 1 s (State.synAligned s k v) := by
  unfold State.synAligned
  try dsimp only
  repeat' first
    | exact (rfl : (_ : Bool) = _)
    | with_reducible first
      | exact Keeps.refl ..
      | assumption
      | apply Keeps.step (State.setB_keeps ..)
      | refine Keeps.forMapped (fun _ _ _ => ?_) ?_

theorem State.guardCount_keeps (s : State) (j : Nat) (n : Nat) (runs : Nat) : Keeps 2542620639233 s (State.guardCount s j n runs) := by
  unfold State.guardCount
  try dsimp only
  repeat' first
    | exact (rfl : (_ : Bool) = _)
    | with_reducible first
      | exact Keeps.refl ..
      | assumption
      | apply Keeps.step (State.countSat_keeps ..)
      | apply Keeps.step (State.irq_keeps ..)
      | apply Keeps.step (State.raise_keeps ..)
      | refine Keeps.foldl _ _ ?_ (fun _ _ _ => ?_)

theorem State.setWaves_keeps (s : State) (j : Nat) (ws : List Wave) : Keeps 262144 s (State.setWaves s j ws) := by
  unfold State.setWaves
  try dsimp only
  repeat' first
    | exact (rfl : (_ : Bool) = _)
    | exact Shape.lenOf (fun h => by first | (simp only [listMod_length, List.length_map, List.length_mapIdx, List.length_set, List.length_range, List.length_replicate, h.all, mapWf_nil, and_self]; done) | (simp [h.all, mapSet_wf]; done) | (split <;> simp [h.all] <;> done) | (constructor <;> split <;> simp [h.all] <;> done))
    | with_reducible first
      | exact Keeps.refl ..
    | with_reducible apply Keeps.step (Keeps.with_outs _ _ ?_)

theorem State.guarded_keeps (s : State) (j : Nat) (ws : List Wave) : Keeps 2542620901377 s (State.guarded s j ws) := by
  unfold State.guarded
  try dsimp only
  repeat' first
    | exact (rfl : (_ : Bool) = _)
    | with_reducible first
      | exact Keeps.refl ..
      | assumption
      | refine Keeps.ite (fun _ => ?_) (fun _ => ?_)
      | apply Keeps.step (State.guardCount_keeps ..)
      | apply Keeps.step (State.setWaves_keeps ..)
    | split

theorem State.drive_keeps (s : State) (j : Nat) (st : Nat) : Keeps 2542620901377 s (State.drive s j st) := by
  unfold State.drive
  try dsimp only
  repeat' first
    | exact (rfl : (_ : Bool) = _)
    | with_reducible first
      | exact Keeps.refl ..
      | refine Keeps.ite (fun _ => ?_) (fun _ => ?_)
      | apply Keeps.step (State.setF_keeps ..)
      | apply Keeps.step (State.guarded_keeps ..)
      | apply Keeps.step (State.setWaves_keeps ..)
    | split

theorem State.freezeOuts_keeps (s : State) (k : Nat) : Keeps 262144 s (State.freezeOuts s k) := by
  unfold State.freezeOuts
  try dsimp only
  repeat' first
    | exact (rfl : (_ : Bool) = _)
    | with_reducible first
      | exact Keeps.refl ..
      | assumption
      | refine Keeps.forMapped (fun _ _ _ => ?_) ?_
      | apply Keeps.step (State.setWaves_keeps ..)

theorem State.healthBit_keeps (s : State) (bit : Nat) : Keeps 2542637416449 s (State.healthBit s bit) := by
  unfold State.healthBit
  try dsimp only
  repeat' first
    | exact (rfl : (_ : Bool) = _)
    | with_reducible first
      | exact Keeps.refl ..
      | refine Keeps.ite (fun _ => ?_) (fun _ => ?_)
      | apply Keeps.step (State.setB_keeps ..)
      | apply Keeps.step (State.irq_keeps ..)
      | apply Keeps.step (State.raise_keeps ..)
    | split
    | with_reducible apply Keeps.step (Keeps.with_tnd ..)

theorem State.healthFall_keeps (s : State) : Keeps 2542637416449 s (State.healthFall s) := by
  unfold State.healthFall
  try dsimp only
  repeat' first
    | exact (rfl : (_ : Bool) = _)
    | with_reducible first
      | exact Keeps.refl ..
      | assumption
      | refine Keeps.ite (fun _ => ?_) (fun _ => ?_)
      | apply Keeps.step (State.setF_keeps ..)
      | apply Keeps.step (State.healthBit_keeps ..)
      | refine Keeps.foldl _ _ ?_ (fun _ _ _ => ?_)
    | split

theorem State.setSynState_keeps (s : State) (k : Nat) (v : Nat) : Keeps 1 s (State.setSynState s k v) := by
  unfold State.setSynState
  try dsimp only
  repeat' first
    | exact (rfl : (_ : Bool) = _)
    | with_reducible first
      | exact Keeps.refl ..
      | apply Keeps.step (State.setF_keeps ..)

theorem State.synEnter_keeps (s : State) (k : Nat) (st : Nat) : Keeps 2542637809665 s (State.synEnter s k st) := by
  unfold State.synEnter
  try dsimp only
  repeat' first
    | exact (rfl : (_ : Bool) = _)
    | with_reducible first
      | exact Keeps.refl ..
      | assumption
      | refine Keeps.ite (fun _ => ?_) (fun _ => ?_)
      | apply Keeps.step (State.freezeOuts_keeps ..)
      | apply Keeps.step (State.drive_keeps ..)
      | refine Keeps.forMapped (fun _ _ _ => ?_) ?_
      | apply Keeps.step (State.healthFall_keeps ..)
      | apply Keeps.step (State.modSyn_keeps ..)
      | apply Keeps.step (State.setSynState_keeps ..)
    | split

theorem State.synShift_keeps (s : State) (n : Nat) (d : Int) : Keeps 393216 s (State.synShift s n d) := by
  unfold State.synShift
  try dsimp only
  repeat' first
    | exact (rfl : (_ : Bool) = _)
    | exact Shape.lenOf (fun h => by first | (simp only [listMod_length, List.length_map, List.length_mapIdx, List.length_set, List.length_range, List.length_replicate, h.all, mapWf_nil, and_self]; done) | (simp [h.all, mapSet_wf]; done) | (split <;> simp [h.all] <;> done) | (constructor <;> split <;> simp [h.all] <;> done))
    | with_reducible first
      | exact Keeps.refl ..
      | refine Keeps.ite (fun _ => ?_) (fun _ => ?_)
    | split
    | with_reducible apply Keeps.step (Keeps.with_syns_outs _ _ _ ?_ ?_)

theorem State.synStep_keeps (s : State) (n : Nat) (d : Int) : Keeps 2542637809665 s (State.synStep s n d) := by
  unfold State.synStep
  try dsimp only
  repeat' first
    | exact (rfl : (_ : Bool) = _)
    | with_reducible first
      | exact Keeps.refl ..
      | assumption
      | refine Keeps.ite (fun _ => ?_) (fun _ => ?_)
      | apply Keeps.step (State.synShift_keeps ..)
      | apply Keeps.step (State.realignHere_keeps ..)
      | apply Keeps.step (State.synAligned_keeps ..)
      | apply Keeps.step (State.modSyn_keeps ..)
      | apply Keeps.step (State.synEnter_keeps ..)
      | refine Keeps.foldl _ _ ?_ (fun _ _ _ => ?_)
    | split

theorem State.baseStepped_keeps (s : State) (n : Nat) (t0 : Nat) (d : Int) : Keeps 2542710272001 s (State.baseStepped s n t0 d) := by
  unfold State.baseStepped
  try dsimp only
  repeat' first
    | exact (rfl : (_ : Bool) = _)
    | exact Shape.lenOf (fun h => by first | (simp only [listMod_length, List.length_map, List.length_mapIdx, List.length_set, List.length_range, List.length_replicate, h.all, mapWf_nil, and_self]; done) | (simp [h.all, mapSet_wf]; done) | (split <;> simp [h.all] <;> done) | (constructor <;> split <;> simp [h.all] <;> done))
    | with_reducible first
      | exact Keeps.refl ..
      | refine Keeps.ite (fun _ => ?_) (fun _ => ?_)
      | apply Keeps.step (State.setB_keeps ..)
      | apply Keeps.step (State.modBase_keeps ..)
      | apply Keeps.step (State.abandonGrid_keeps ..)
      | apply Keeps.step (State.retarget_keeps ..)
      | apply Keeps.step (State.ppsSteps_keeps ..)
      | apply Keeps.step (State.slotPass_keeps ..)
      | apply Keeps.step (State.synStep_keeps ..)
      | apply Keeps.step (State.launchStep_keeps ..)
      | apply Keeps.step (State.raise_keeps ..)
    | split
    | with_reducible apply Keeps.step (Keeps.with_ens _ _ ?_)
    | with_reducible apply Keeps.step (Keeps.with_tnd ..)

theorem State.moveBase_keeps (s : State) (n : Nat) (d : Int) : Keeps 2542710272001 s (State.moveBase s n d) := by
  unfold State.moveBase
  try dsimp only
  repeat' first
    | exact (rfl : (_ : Bool) = _)
    | with_reducible first
      | exact Keeps.refl ..
      | assumption
      | refine Keeps.ite (fun _ => ?_) (fun _ => ?_)
      | apply Keeps.step (State.baseStepped_keeps ..)
      | apply Keeps.step (State.modBase_keeps ..)
      | refine Keeps.foldl _ _ ?_ (fun _ _ _ => ?_)
    | split

theorem State.addPadj_keeps (s : State) (n : Nat) (padj : Int) (step : Bool) : Keeps 2542710272001 s (State.addPadj s n padj step) := by
  unfold State.addPadj
  try dsimp only
  repeat' first
    | exact (rfl : (_ : Bool) = _)
    | with_reducible first
      | exact Keeps.refl ..
      | refine Keeps.ite (fun _ => ?_) (fun _ => ?_)
      | apply Keeps.step (State.modBase_keeps ..)
      | apply Keeps.step (State.moveBase_keeps ..)
    | split

theorem State.addPendServo_keeps (s : State) (n : Nat) (d : Int) : Keeps 8192 s (State.addPendServo s n d) := by
  unfold State.addPendServo
  try dsimp only
  repeat' first
    | exact (rfl : (_ : Bool) = _)
    | with_reducible first
      | exact Keeps.refl ..
      | apply Keeps.step (State.modBase_keeps ..)

theorem State.count_keeps (s : State) (o : Nat) (hi : Nat) (lo : Nat) (n : Nat) : Keeps 1 s (State.count s o hi lo n) := by
  unfold State.count
  try dsimp only
  repeat' first
    | exact (rfl : (_ : Bool) = _)
    | with_reducible first
      | exact Keeps.refl ..
      | apply Keeps.step (State.setF_keeps ..)

theorem State.wrN_keeps (s : State) (o : Nat) (v : Nat) : Keeps 1 s (State.wrN s o v) := by
  unfold State.wrN
  try dsimp only
  repeat' first
    | exact (rfl : (_ : Bool) = _)
    | with_reducible first
      | exact Keeps.refl ..
      | apply Keeps.step (State.wr_keeps ..)

theorem State.wrS64_keeps (s : State) (o : Nat) (v : Int) : Keeps 1 s (State.wrS64 s o v) := by
  unfold State.wrS64
  try dsimp only
  repeat' first
    | exact (rfl : (_ : Bool) = _)
    | with_reducible first
      | exact Keeps.refl ..
      | apply Keeps.step (State.wr64_keeps ..)

theorem State.blockResult_keeps (s : State) (u : TiuId) : Keeps 2473901260801 s (State.blockResult s u) := by
  unfold State.blockResult
  try dsimp only
  repeat' first
    | exact (rfl : (_ : Bool) = _)
    | with_reducible first
      | exact Keeps.refl ..
      | assumption
      | refine Keeps.ite (fun _ => ?_) (fun _ => ?_)
      | apply Keeps.step (State.setB_keeps ..)
      | apply Keeps.step (State.irq_keeps ..)
      | apply Keeps.step (State.modUnit_keeps ..)
      | apply Keeps.step (State.wr_keeps ..)
      | apply Keeps.step (State.wrN_keeps ..)
      | apply Keeps.step (State.wrS64_keeps ..)
      | apply Keeps.step (State.count_keeps ..)
    | split

theorem State.addSample_keeps (s : State) (u : TiuId) (x : Int) (es : List Int) (c : Capture) : Keeps 2473901260801 s (State.addSample s u x es c) := by
  unfold State.addSample
  try dsimp only
  repeat' first
    | exact (rfl : (_ : Bool) = _)
    | with_reducible first
      | exact Keeps.refl ..
      | refine Keeps.ite (fun _ => ?_) (fun _ => ?_)
      | apply Keeps.step (State.setB_keeps ..)
      | apply Keeps.step (State.blockResult_keeps ..)
      | apply Keeps.step (State.modUnit_keeps ..)
    | split

theorem State.name_keeps (s : State) (m : Nat) : Keeps 2473901162497 s (State.name s m) := by
  unfold State.name
  try dsimp only
  repeat' first
    | exact (rfl : (_ : Bool) = _)
    | with_reducible first
      | exact Keeps.refl ..
      | apply Keeps.step (State.setB_keeps ..)
      | apply Keeps.step (State.irq_keeps ..)
      | apply Keeps.step (State.setF_keeps ..)

theorem State.modCtl_keeps (s : State) (n : Nat) (g : BaseCtl → BaseCtl) : Keeps 4194304 s (State.modCtl s n g) := by
  unfold State.modCtl
  try dsimp only
  repeat' first
    | exact (rfl : (_ : Bool) = _)
    | exact Shape.lenOf (fun h => by first | (simp only [listMod_length, List.length_map, List.length_mapIdx, List.length_set, List.length_range, List.length_replicate, h.all, mapWf_nil, and_self]; done) | (simp [h.all, mapSet_wf]; done) | (split <;> simp [h.all] <;> done) | (constructor <;> split <;> simp [h.all] <;> done))
    | with_reducible first
      | exact Keeps.refl ..
    | with_reducible apply Keeps.step (Keeps.with_ens _ _ ?_)

theorem State.mapShow_keeps (s : State) (n : Nat) : Keeps 1 s (State.mapShow s n) := by
  unfold State.mapShow
  try dsimp only
  repeat' first
    | exact (rfl : (_ : Bool) = _)
    | with_reducible first
      | exact Keeps.refl ..
      | apply Keeps.step (State.wr_keeps ..)

theorem State.takeFree_keeps (s : State) (w : Nat) : Keeps 4398046511104 s (State.takeFree s w).2 := by
  unfold State.takeFree
  try dsimp only
  repeat' first
    | exact (rfl : (_ : Bool) = _)
    | with_reducible first
      | exact Keeps.refl ..
    | with_reducible apply Keeps.step (Keeps.with_free ..)

theorem State.setFlaws_keeps (s : State) (l : List EccHit) : Keeps 268435456 s (State.setFlaws s l) := by
  unfold State.setFlaws
  try dsimp only
  repeat' first
    | exact (rfl : (_ : Bool) = _)
    | with_reducible first
      | exact Keeps.refl ..
    | with_reducible apply Keeps.step (Keeps.with_cst ..)

theorem State.heal_keeps (s : State) (a : Nat) (n : Nat) : Keeps 268435456 s (State.heal s a n) := by
  unfold State.heal
  try dsimp only
  repeat' first
    | exact (rfl : (_ : Bool) = _)
    | with_reducible first
      | exact Keeps.refl ..
      | refine Keeps.ite (fun _ => ?_) (fun _ => ?_)
      | apply Keeps.step (State.setFlaws_keeps ..)
    | split

theorem State.mwrite_keeps (s : State) (a : Nat) (l : List Byte) : Keeps 18691697672192 s (State.mwrite s a l) := by
  induction l generalizing s a with
  | nil => exact Keeps.refl _ _
  | cons v r ih => exact Keeps.step (ih _ _) rfl (State.mset_keeps s a v)

theorem State.granWrite_keeps (s : State) (m : Nat) (a : Nat) (l : List Byte) : Keeps 19241721921536 s (State.granWrite s m a l) := by
  unfold State.granWrite
  try dsimp only
  repeat' first
    | exact (rfl : (_ : Bool) = _)
    | with_reducible first
      | exact Keeps.refl ..
      | apply Keeps.step (State.tallyAdd_keeps ..)
      | apply Keeps.step (State.heal_keeps ..)
      | apply Keeps.step (State.mwrite_keeps ..)

theorem State.recordDone_keeps (s : State) (seq : Nat) (lapped : Bool) (unsigned : Bool) (gap : Bool) (digest : List Byte) : Keeps 2559800508417 s (State.recordDone s seq lapped unsigned gap digest) := by
  unfold State.recordDone
  try dsimp only
  repeat' first
    | exact (rfl : (_ : Bool) = _)
    | with_reducible first
      | exact Keeps.refl ..
      | refine Keeps.ite (fun _ => ?_) (fun _ => ?_)
      | apply Keeps.step (State.setB_keeps ..)
      | apply Keeps.step (State.countSat_keeps ..)
      | apply Keeps.step (State.irq_keeps ..)
      | apply Keeps.step (State.wrN_keeps ..)
      | apply Keeps.step (State.raise_keeps ..)
    | split
    | with_reducible apply Keeps.step (Keeps.with_trace ..)

/-- Bytes written inside the trace ring. -/
theorem State.mwrite_ring (s : State) (a : Nat) (l : List Byte) (h : 0x90000000 ≤ a) (k : a + l.length ≤ 0xD0000000) :
    OnlyRing s (s.mwrite a l) := by
  induction l generalizing s a with
  | nil => exact fun _ _ => rfl
  | cons v r ih =>
    intro b hb
    simp only [List.length_cons] at k
    rw [State.mwrite, ih _ _ (by omega) (by omega) b hb]
    exact mapGet_mapSet_ne unwritten s.mem a b v (by omega)

theorem State.recordWrite_keepsMem (s : State) (r : TraceRec) : Keeps 21801522429953 s (State.recordWrite s r) := by
  unfold State.recordWrite
  try dsimp only
  repeat' first
    | exact (rfl : (_ : Bool) = _)
    | with_reducible first
      | exact Keeps.refl ..
      | apply Keeps.step (State.recordDone_keeps ..)
      | apply Keeps.step (State.granWrite_keeps ..)

@[simp] theorem padTo_length (n : Nat) (l : List Byte) : (padTo n l).length = n := by
  unfold padTo; simp; omega

@[simp] theorem leBytes_length (n v : Nat) : (leBytes n v).length = n := by
  induction n generalizing v with
  | zero => rfl
  | succ n ih => simp [leBytes, ih]

/-- A record is 256 bytes long (06, trace record common layout). -/
theorem State.record_length (s : State) (r : TraceRec) : (s.record r).length = 256 := by
  have h : ∀ q u, (s.recordHead r q u).length = 192 := by
    intro q u
    unfold State.recordHead timeBytes
    by_cases h : r.typ = 5 <;> simp [h]
  unfold State.record
  rw [List.length_append, h]
  split <;> simp

/-- A record lands inside the trace ring (R179). -/
theorem State.recordWrite_ring (s : State) (r : TraceRec) : OnlyRing s (s.recordWrite r) := by
  unfold State.recordWrite
  intro a ha
  have h1 := s.mwrite_ring (0x90000000 + (s.rd 0x01500040).toNat % 4194304 * 256) (s.record r) (by omega)
    (by rw [State.record_length]; omega) a ha
  rw [← h1]
  have h2 : ∀ t q o u g d, (State.recordDone t q o u g d).mem = t.mem :=
    fun t q o u g d => (State.recordDone_keeps t q o u g d).same .mem (by decide)
  have h3 : ∀ t a n, (State.heal t a n).mem = t.mem := fun t a n => (State.heal_keeps t a n).same .mem (by decide)
  simp only [State.mget, h2]
  simp [State.granWrite, h3]

theorem State.recordWrite_keeps (s : State) (r : TraceRec) : Keeps 4209336385537 s (State.recordWrite s r) := by
  have h := s.recordWrite_keepsMem r
  refine ⟨h.wf, fun c hc => h.same c ?_, fun _ => s.recordWrite_ring r, fun _ => h.faults (by decide), h.shape⟩
  revert hc; cases c <;> decide

theorem State.traceDrain_keeps (s : State) : Keeps 4209336385537 s (State.traceDrain s) := by
  unfold State.traceDrain
  try dsimp only
  repeat' first
    | exact (rfl : (_ : Bool) = _)
    | with_reducible first
      | exact Keeps.refl ..
      | assumption
      | refine Keeps.ite (fun _ => ?_) (fun _ => ?_)
      | apply Keeps.step (State.recordWrite_keeps ..)
      | refine Keeps.foldl _ _ ?_ (fun _ _ _ => ?_)
    | split
    | with_reducible apply Keeps.step (Keeps.with_trace ..)

theorem State.tracePut_keeps (s : State) (typ : Nat) (payload : List Byte) : Keeps 4209336385537 s (State.tracePut s typ payload) := by
  unfold State.tracePut
  try dsimp only
  repeat' first
    | exact (rfl : (_ : Bool) = _)
    | with_reducible first
      | exact Keeps.refl ..
      | refine Keeps.ite (fun _ => ?_) (fun _ => ?_)
      | apply Keeps.step (State.traceDrain_keeps ..)
    | split
    | with_reducible apply Keeps.step (Keeps.with_trace ..)

theorem State.traceAhead_keeps (s : State) (typ : Nat) (payload : List Byte) : Keeps 4209336385537 s (State.traceAhead s typ payload) := by
  unfold State.traceAhead
  try dsimp only
  repeat' first
    | exact (rfl : (_ : Bool) = _)
    | with_reducible first
      | exact Keeps.refl ..
      | refine Keeps.ite (fun _ => ?_) (fun _ => ?_)
      | apply Keeps.step (State.traceDrain_keeps ..)
      | apply Keeps.step (State.tracePut_keeps ..)
    | split
    | with_reducible apply Keeps.step (Keeps.with_trace ..)

theorem State.subkeyPut_keeps (s : State) : Keeps 4209336385537 s (State.subkeyPut s) := by
  unfold State.subkeyPut
  try dsimp only
  repeat' first
    | exact (rfl : (_ : Bool) = _)
    | with_reducible first
      | exact Keeps.refl ..
      | assumption
      | apply Keeps.step (State.traceAhead_keeps ..)
    | split
    | with_reducible apply Keeps.step (Keeps.with_trace ..)

theorem State.traceFirst_keeps (s : State) : Keeps 4209336385537 s (State.traceFirst s) := by
  unfold State.traceFirst
  try dsimp only
  repeat' first
    | exact (rfl : (_ : Bool) = _)
    | with_reducible first
      | exact Keeps.refl ..
      | refine Keeps.ite (fun _ => ?_) (fun _ => ?_)
      | apply Keeps.step (State.subkeyPut_keeps ..)
      | apply Keeps.step (State.tracePut_keeps ..)
    | split
    | with_reducible apply Keeps.step (Keeps.with_trace ..)

theorem State.traceWrite_keeps (s : State) (typ : Nat) (payload : List Byte) : Keeps 4209336385537 s (State.traceWrite s typ payload) := by
  unfold State.traceWrite
  try dsimp only
  repeat' first
    | exact (rfl : (_ : Bool) = _)
    | with_reducible first
      | exact Keeps.refl ..
      | apply Keeps.step (State.tracePut_keeps ..)
      | apply Keeps.step (State.traceFirst_keeps ..)

theorem State.traceEvent_keeps (s : State) (n : Nat) (kind : Nat) (ctx : Nat) : Keeps 8607382896641 s (State.traceEvent s n kind ctx) := by
  unfold State.traceEvent
  try dsimp only
  repeat' first
    | exact (rfl : (_ : Bool) = _)
    | with_reducible first
      | exact Keeps.refl ..
      | apply Keeps.step (State.traceWrite_keeps ..)
      | apply Keeps.step (State.takeFree_keeps ..)
      | apply Keeps.step (Keeps.ofSnd ‹_› (State.takeFree_keeps ..))

theorem State.mapForce_keeps (s : State) (n : Nat) (k : Nat) : Keeps 8607387090945 s (State.mapForce s n k) := by
  unfold State.mapForce
  try dsimp only
  repeat' first
    | exact (rfl : (_ : Bool) = _)
    | with_reducible first
      | exact Keeps.refl ..
      | apply Keeps.step (State.irq_keeps ..)
      | apply Keeps.step (State.modCtl_keeps ..)
      | apply Keeps.step (State.setF_keeps ..)
      | apply Keeps.step (State.traceEvent_keeps ..)
      | apply Keeps.step (State.mapShow_keeps ..)
      | apply Keeps.step (State.raise_keeps ..)

theorem State.mapEval_keeps (s : State) (n : Nat) : Keeps 8607387090945 s (State.mapEval s n) := by
  unfold State.mapEval
  try dsimp only
  repeat' first
    | exact (rfl : (_ : Bool) = _)
    | with_reducible first
      | exact Keeps.refl ..
      | assumption
      | refine Keeps.ite (fun _ => ?_) (fun _ => ?_)
      | apply Keeps.step (State.modCtl_keeps ..)
      | apply Keeps.step (State.mapForce_keeps ..)
    | split

theorem State.publish_keeps (s : State) (n : Nat) (p : Nat) : Keeps 8607403868161 s (State.publish s n p) := by
  unfold State.publish
  try dsimp only
  repeat' first
    | exact (rfl : (_ : Bool) = _)
    | with_reducible first
      | exact Keeps.refl ..
      | refine Keeps.ite (fun _ => ?_) (fun _ => ?_)
      | apply Keeps.step (State.mapEval_keeps ..)
      | apply Keeps.step (State.irq_keeps ..)
      | apply Keeps.step (State.wrN_keeps ..)
      | apply Keeps.step (State.raise_keeps ..)
      | apply Keeps.step (State.healthFall_keeps ..)
    | split

theorem State.publishYoked_keeps (s : State) (j : Nat) (p : Nat) : Keeps 8607403868161 s (State.publishYoked s j p) := by
  unfold State.publishYoked
  try dsimp only
  repeat' first
    | exact (rfl : (_ : Bool) = _)
    | with_reducible first
      | exact Keeps.refl ..
      | refine Keeps.ite (fun _ => ?_) (fun _ => ?_)
      | apply Keeps.step (State.publish_keeps ..)
    | split

theorem State.boundEvalAt_keeps (s : State) (n : Nat) (extra : Nat) : Keeps 8607403868161 s (State.boundEvalAt s n extra) := by
  unfold State.boundEvalAt
  try dsimp only
  repeat' first
    | exact (rfl : (_ : Bool) = _)
    | with_reducible first
      | exact Keeps.refl ..
      | assumption
      | refine Keeps.ite (fun _ => ?_) (fun _ => ?_)
      | apply Keeps.step (State.modCtl_keeps ..)
      | apply Keeps.step (State.publishYoked_keeps ..)
      | apply Keeps.step (State.wrN_keeps ..)
      | apply Keeps.step (State.publish_keeps ..)
      | refine Keeps.foldl _ _ ?_ (fun _ _ _ => ?_)
    | split

theorem State.boundEval_keeps (s : State) (n : Nat) : Keeps 8607403868161 s (State.boundEval s n) := by
  unfold State.boundEval
  try dsimp only
  repeat' first
    | exact (rfl : (_ : Bool) = _)
    | with_reducible first
      | exact Keeps.refl ..
      | apply Keeps.step (State.boundEvalAt_keeps ..)

theorem State.boundEvalAll_keeps (s : State) : Keeps 8607403868161 s (State.boundEvalAll s) := by
  unfold State.boundEvalAll
  try dsimp only
  repeat' first
    | exact (rfl : (_ : Bool) = _)
    | with_reducible first
      | exact Keeps.refl ..
      | assumption
      | apply Keeps.step (State.boundEval_keeps ..)
      | refine Keeps.foldl _ _ ?_ (fun _ _ _ => ?_)

theorem State.noCarrier_keeps (s : State) (old : Nat) : Keeps 8607403876353 s (State.noCarrier s old) := by
  unfold State.noCarrier
  try dsimp only
  repeat' first
    | exact (rfl : (_ : Bool) = _)
    | exact Shape.lenOf (fun h => by first | (simp only [listMod_length, List.length_map, List.length_mapIdx, List.length_set, List.length_range, List.length_replicate, h.all, mapWf_nil, and_self]; done) | (simp [h.all, mapSet_wf]; done) | (split <;> simp [h.all] <;> done) | (constructor <;> split <;> simp [h.all] <;> done))
    | with_reducible first
      | exact Keeps.refl ..
      | apply Keeps.step (State.setB_keeps ..)
      | apply Keeps.step (State.irq_keeps ..)
      | apply Keeps.step (State.raise_keeps ..)
      | apply Keeps.step (State.boundEvalAll_keeps ..)
      | apply Keeps.step (State.modSpn_keeps _ _ ?_)

theorem State.carrierLost_keeps (s : State) (old : Nat) : Keeps 8607403876353 s (State.carrierLost s old) := by
  unfold State.carrierLost
  try dsimp only
  repeat' first
    | exact (rfl : (_ : Bool) = _)
    | exact Shape.lenOf (fun h => by first | (simp only [listMod_length, List.length_map, List.length_mapIdx, List.length_set, List.length_range, List.length_replicate, h.all, mapWf_nil, and_self]; done) | (simp [h.all, mapSet_wf]; done) | (split <;> simp [h.all] <;> done) | (constructor <;> split <;> simp [h.all] <;> done))
    | with_reducible first
      | exact Keeps.refl ..
      | assumption
      | refine Keeps.ite (fun _ => ?_) (fun _ => ?_)
      | apply Keeps.step (State.setB_keeps ..)
      | apply Keeps.step (State.irq_keeps ..)
      | apply Keeps.step (State.name_keeps ..)
      | apply Keeps.step (State.raise_keeps ..)
      | apply Keeps.step (State.noCarrier_keeps ..)
      | apply Keeps.step (State.modSpn_keeps _ _ ?_)
    | split

theorem State.firstEval_keeps (s : State) : Keeps 4194304 s (State.firstEval s) := by
  unfold State.firstEval
  try dsimp only
  repeat' first
    | exact (rfl : (_ : Bool) = _)
    | exact Shape.lenOf (fun h => by first | (simp only [listMod_length, List.length_map, List.length_mapIdx, List.length_set, List.length_range, List.length_replicate, h.all, mapWf_nil, and_self]; done) | (simp [h.all, mapSet_wf]; done) | (split <;> simp [h.all] <;> done) | (constructor <;> split <;> simp [h.all] <;> done))
    | with_reducible first
      | exact Keeps.refl ..
      | assumption
      | refine Keeps.ite (fun _ => ?_) (fun _ => ?_)
    | split
    | with_reducible apply Keeps.step (Keeps.with_ens _ _ ?_)

theorem State.forcedBit_keeps (s : State) : Keeps 1 s (State.forcedBit s) := by
  unfold State.forcedBit
  try dsimp only
  repeat' first
    | exact (rfl : (_ : Bool) = _)
    | with_reducible first
      | exact Keeps.refl ..
      | apply Keeps.step (State.setB_keeps ..)

theorem State.startRamp_keeps (s : State) (old : Nat) (new : Nat) : Keeps 8607403876353 s (State.startRamp s old new) := by
  unfold State.startRamp
  try dsimp only
  repeat' first
    | exact (rfl : (_ : Bool) = _)
    | exact Shape.lenOf (fun h => by first | (simp only [listMod_length, List.length_map, List.length_mapIdx, List.length_set, List.length_range, List.length_replicate, h.all, mapWf_nil, and_self]; done) | (simp [h.all, mapSet_wf]; done) | (split <;> simp [h.all] <;> done) | (constructor <;> split <;> simp [h.all] <;> done))
    | with_reducible first
      | exact Keeps.refl ..
      | apply Keeps.step (State.setB_keeps ..)
      | apply Keeps.step (State.irq_keeps ..)
      | apply Keeps.step (State.raise_keeps ..)
      | apply Keeps.step (State.boundEvalAll_keeps ..)
      | apply Keeps.step (State.modSpn_keeps _ _ ?_)
    | with_reducible apply Keeps.step (Keeps.with_ens _ _ ?_)

theorem State.carrierEval_keeps (s : State) : Keeps 8607403876353 s (State.carrierEval s) := by
  unfold State.carrierEval
  try dsimp only
  repeat' first
    | exact (rfl : (_ : Bool) = _)
    | with_reducible first
      | exact Keeps.refl ..
      | assumption
      | refine Keeps.ite (fun _ => ?_) (fun _ => ?_)
      | apply Keeps.step (State.setB_keeps ..)
      | apply Keeps.step (State.carrierLost_keeps ..)
      | apply Keeps.step (State.firstEval_keeps ..)
      | apply Keeps.step (State.name_keeps ..)
      | apply Keeps.step (State.noCarrier_keeps ..)
      | apply Keeps.step (State.startRamp_keeps ..)
      | apply Keeps.step (State.forcedBit_keeps ..)
    | split

theorem State.setEnv_keeps (s : State) (n : Nat) (k : Nat × Nat × Nat × Nat) : Keeps 1 s (State.setEnv s n k) := by
  unfold State.setEnv
  try dsimp only
  repeat' first
    | exact (rfl : (_ : Bool) = _)
    | with_reducible first
      | exact Keeps.refl ..
      | apply Keeps.step (State.wrN_keeps ..)

theorem State.ensStateEval_keeps (s : State) : Keeps 8607403868161 s (State.ensStateEval s) := by
  unfold State.ensStateEval
  try dsimp only
  repeat' first
    | exact (rfl : (_ : Bool) = _)
    | with_reducible first
      | exact Keeps.refl ..
      | assumption
      | refine Keeps.ite (fun _ => ?_) (fun _ => ?_)
      | apply Keeps.step (State.setF_keeps ..)
      | apply Keeps.step (State.setEnv_keeps ..)
      | apply Keeps.step (State.raise_keeps ..)
      | apply Keeps.step (State.boundEvalAll_keeps ..)
      | refine Keeps.foldl _ _ ?_ (fun _ _ _ => ?_)
    | split

theorem State.modMember_keeps (s : State) (m : Nat) (g : Member → Member) : Keeps 4194304 s (State.modMember s m g) := by
  unfold State.modMember
  try dsimp only
  repeat' first
    | exact (rfl : (_ : Bool) = _)
    | exact Shape.lenOf (fun h => by first | (simp only [listMod_length, List.length_map, List.length_mapIdx, List.length_set, List.length_range, List.length_replicate, h.all, mapWf_nil, and_self]; done) | (simp [h.all, mapSet_wf]; done) | (split <;> simp [h.all] <;> done) | (constructor <;> split <;> simp [h.all] <;> done))
    | with_reducible first
      | exact Keeps.refl ..
    | with_reducible apply Keeps.step (Keeps.with_ens _ _ ?_)

theorem State.noWeight_keeps (s : State) (m : Nat) : Keeps 4194305 s (State.noWeight s m) := by
  unfold State.noWeight
  try dsimp only
  repeat' first
    | exact (rfl : (_ : Bool) = _)
    | with_reducible first
      | exact Keeps.refl ..
      | apply Keeps.step (State.setB_keeps ..)
      | apply Keeps.step (State.setF_keeps ..)
      | apply Keeps.step (State.modMember_keeps ..)

theorem State.setMemState_keeps (s : State) (m : Nat) (st : Nat) : Keeps 2473901162497 s (State.setMemState s m st) := by
  unfold State.setMemState
  try dsimp only
  repeat' first
    | exact (rfl : (_ : Bool) = _)
    | with_reducible first
      | exact Keeps.refl ..
      | apply Keeps.step (State.irq_keeps ..)
      | apply Keeps.step (State.setF_keeps ..)

theorem State.wrS48_keeps (s : State) (o : Nat) (v : Int) : Keeps 1 s (State.wrS48 s o v) := by
  unfold State.wrS48
  try dsimp only
  repeat' first
    | exact (rfl : (_ : Bool) = _)
    | with_reducible first
      | exact Keeps.refl ..
      | apply Keeps.step (State.wr64_keeps ..)

theorem State.showMember_keeps (s : State) (m : Nat) : Keeps 1 s (State.showMember s m) := by
  unfold State.showMember
  try dsimp only
  repeat' first
    | exact (rfl : (_ : Bool) = _)
    | with_reducible first
      | exact Keeps.refl ..
      | apply Keeps.step (State.wrS48_keeps ..)
      | apply Keeps.step (State.wrN_keeps ..)
      | apply Keeps.step (State.wrS64_keeps ..)

theorem State.memRejoin_keeps (s : State) (m : Nat) : Keeps 2473905356801 s (State.memRejoin s m) := by
  unfold State.memRejoin
  try dsimp only
  repeat' first
    | exact (rfl : (_ : Bool) = _)
    | with_reducible first
      | exact Keeps.refl ..
      | apply Keeps.step (State.noWeight_keeps ..)
      | apply Keeps.step (State.showMember_keeps ..)
      | apply Keeps.step (State.setMemState_keeps ..)
      | apply Keeps.step (State.modMember_keeps ..)

theorem State.adopt_keeps (s : State) (m : Nat) : Keeps 8607403876353 s (State.adopt s m) := by
  unfold State.adopt
  try dsimp only
  repeat' first
    | exact (rfl : (_ : Bool) = _)
    | with_reducible first
      | exact Keeps.refl ..
      | refine Keeps.ite (fun _ => ?_) (fun _ => ?_)
      | apply Keeps.step (State.ensStateEval_keeps ..)
      | apply Keeps.step (State.memRejoin_keeps ..)
      | apply Keeps.step (State.setF_keeps ..)
      | apply Keeps.step (State.wrN_keeps ..)
      | apply Keeps.step (State.modMember_keeps ..)
      | apply Keeps.step (State.carrierEval_keeps ..)
    | split

theorem State.aerLog_keeps (s : State) (unc : Bool) (bits : Word) : Keeps 72911364816897 s (State.aerLog s unc bits) := by
  unfold State.aerLog
  try dsimp only
  repeat' first
    | exact (rfl : (_ : Bool) = _)
    | with_reducible first
      | exact Keeps.refl ..
      | refine Keeps.ite (fun _ => ?_) (fun _ => ?_)
      | apply Keeps.step (State.irq_keeps ..)
      | apply Keeps.step (State.raise_keeps ..)
    | split
    | with_reducible apply Keeps.step (Keeps.with_pcie ..)

theorem State.modGns_keeps (s : State) (g : Gns → Gns) : Keeps 33554432 s (State.modGns s g) := by
  unfold State.modGns
  try dsimp only
  repeat' first
    | exact (rfl : (_ : Bool) = _)
    | with_reducible first
      | exact Keeps.refl ..
    | with_reducible apply Keeps.step (Keeps.with_gns ..)

theorem State.cfgBad_keeps (s : State) (b : Blk) (o : Nat) : Keeps 2542620639233 s (State.cfgBad s b o) := by
  unfold State.cfgBad
  try dsimp only
  repeat' first
    | exact (rfl : (_ : Bool) = _)
    | with_reducible first
      | exact Keeps.refl ..
      | assumption
      | apply Keeps.step (State.irq_keeps ..)
      | apply Keeps.step (State.raise_keeps ..)
    | split

theorem State.setCandState_keeps (s : State) (c : Nat) (st : Nat) : Keeps 2473901162497 s (State.setCandState s c st) := by
  unfold State.setCandState
  try dsimp only
  repeat' first
    | exact (rfl : (_ : Bool) = _)
    | with_reducible first
      | exact Keeps.refl ..
      | apply Keeps.step (State.setB_keeps ..)
      | apply Keeps.step (State.irq_keeps ..)
      | apply Keeps.step (State.setF_keeps ..)

theorem State.toQualified_keeps (s : State) (c : Nat) : Keeps 2542620639233 s (State.toQualified s c) := by
  unfold State.toQualified
  try dsimp only
  repeat' first
    | exact (rfl : (_ : Bool) = _)
    | with_reducible first
      | exact Keeps.refl ..
      | apply Keeps.step (State.raise_keeps ..)
      | apply Keeps.step (State.setCandState_keeps ..)

theorem State.modMon_keeps (s : State) (c : Nat) (g : CandMon → CandMon) : Keeps 4194304 s (State.modMon s c g) := by
  unfold State.modMon
  try dsimp only
  repeat' first
    | exact (rfl : (_ : Bool) = _)
    | exact Shape.lenOf (fun h => by first | (simp only [listMod_length, List.length_map, List.length_mapIdx, List.length_set, List.length_range, List.length_replicate, h.all, mapWf_nil, and_self]; done) | (simp [h.all, mapSet_wf]; done) | (split <;> simp [h.all] <;> done) | (constructor <;> split <;> simp [h.all] <;> done))
    | with_reducible first
      | exact Keeps.refl ..
    | with_reducible apply Keeps.step (Keeps.with_ens _ _ ?_)

theorem State.monReset_keeps (s : State) (c : Nat) : Keeps 4194305 s (State.monReset s c) := by
  unfold State.monReset
  try dsimp only
  repeat' first
    | exact (rfl : (_ : Bool) = _)
    | with_reducible first
      | exact Keeps.refl ..
      | apply Keeps.step (State.modMon_keeps ..)
      | apply Keeps.step (State.setF_keeps ..)
      | apply Keeps.step (State.wr_keeps ..)

theorem State.toQualifying_keeps (s : State) (c : Nat) : Keeps 2473905356801 s (State.toQualifying s c) := by
  unfold State.toQualifying
  try dsimp only
  repeat' first
    | exact (rfl : (_ : Bool) = _)
    | with_reducible first
      | exact Keeps.refl ..
      | apply Keeps.step (State.monReset_keeps ..)
      | apply Keeps.step (State.setCandState_keeps ..)

theorem State.toWtr_keeps (s : State) (c : Nat) : Keeps 2473901162497 s (State.toWtr s c) := by
  unfold State.toWtr
  try dsimp only
  repeat' first
    | exact (rfl : (_ : Bool) = _)
    | with_reducible first
      | exact Keeps.refl ..
      | apply Keeps.step (State.setF_keeps ..)
      | apply Keeps.step (State.setCandState_keeps ..)

theorem State.candEval_keeps (s : State) (c : Nat) (tick : Bool) (lost : Bool) : Keeps 2542624833537 s (State.candEval s c tick lost) := by
  unfold State.candEval
  try dsimp only
  repeat' first
    | exact (rfl : (_ : Bool) = _)
    | with_reducible first
      | exact Keeps.refl ..
      | refine Keeps.ite (fun _ => ?_) (fun _ => ?_)
      | apply Keeps.step (State.setB_keeps ..)
      | apply Keeps.step (State.countSat_keeps ..)
      | apply Keeps.step (State.setF_keeps ..)
      | apply Keeps.step (State.toQualified_keeps ..)
      | apply Keeps.step (State.toQualifying_keeps ..)
      | apply Keeps.step (State.toWtr_keeps ..)
      | apply Keeps.step (State.raise_keeps ..)
      | apply Keeps.step (State.setCandState_keeps ..)
    | split

theorem State.follow_keeps (s : State) (n : Nat) (c : Nat) (st : Nat) : Keeps 4194305 s (State.follow s n c st) := by
  unfold State.follow
  try dsimp only
  repeat' first
    | exact (rfl : (_ : Bool) = _)
    | with_reducible first
      | exact Keeps.refl ..
      | apply Keeps.step (State.setB_keeps ..)
      | apply Keeps.step (State.modCtl_keeps ..)
      | apply Keeps.step (State.setF_keeps ..)

theorem State.setFnow_keeps (s : State) (n : Nat) (v : Int) : Keeps 68719484928 s (State.setFnow s n v) := by
  unfold State.setFnow
  try dsimp only
  repeat' first
    | exact (rfl : (_ : Bool) = _)
    | with_reducible first
      | exact Keeps.refl ..
      | refine Keeps.ite (fun _ => ?_) (fun _ => ?_)
      | apply Keeps.step (State.modBase_keeps ..)
      | apply Keeps.step (State.raise_keeps ..)
    | split

theorem State.setInteg_keeps (s : State) (n : Nat) (v : Int) : Keeps 1 s (State.setInteg s n v) := by
  unfold State.setInteg
  try dsimp only
  repeat' first
    | exact (rfl : (_ : Bool) = _)
    | with_reducible first
      | exact Keeps.refl ..
      | apply Keeps.step (State.wrS48_keeps ..)

theorem State.setTbState_keeps (s : State) (n : Nat) (st : Nat) (ctx : Nat) : Keeps 8607403876353 s (State.setTbState s n st ctx) := by
  unfold State.setTbState
  try dsimp only
  repeat' first
    | exact (rfl : (_ : Bool) = _)
    | with_reducible first
      | exact Keeps.refl ..
      | assumption
      | refine Keeps.ite (fun _ => ?_) (fun _ => ?_)
      | apply Keeps.step (State.setB_keeps ..)
      | apply Keeps.step (State.irq_keeps ..)
      | apply Keeps.step (State.modCtl_keeps ..)
      | apply Keeps.step (State.setF_keeps ..)
      | apply Keeps.step (State.traceEvent_keeps ..)
      | apply Keeps.step (State.modBase_keeps ..)
      | apply Keeps.step (State.boundEval_keeps ..)
    | split

theorem State.unfollow_keeps (s : State) (n : Nat) : Keeps 1 s (State.unfollow s n) := by
  unfold State.unfollow
  try dsimp only
  repeat' first
    | exact (rfl : (_ : Bool) = _)
    | with_reducible first
      | exact Keeps.refl ..
      | apply Keeps.step (State.setB_keeps ..)
      | apply Keeps.step (State.setF_keeps ..)

theorem State.tbEval_keeps (s : State) (n : Nat) : Keeps 8607403876353 s (State.tbEval s n) := by
  unfold State.tbEval
  try dsimp only
  repeat' first
    | exact (rfl : (_ : Bool) = _)
    | with_reducible first
      | exact Keeps.refl ..
      | refine Keeps.ite (fun _ => ?_) (fun _ => ?_)
      | apply Keeps.step (State.setFnow_keeps ..)
      | apply Keeps.step (State.follow_keeps ..)
      | apply Keeps.step (State.boundEval_keeps ..)
      | apply Keeps.step (State.unfollow_keeps ..)
      | apply Keeps.step (State.raise_keeps ..)
      | apply Keeps.step (State.setTbState_keeps ..)
      | apply Keeps.step (State.setInteg_keeps ..)
    | split

theorem State.tndAlign_keeps (s : State) : Keeps 1 s (State.tndAlign s) := by
  unfold State.tndAlign
  try dsimp only
  repeat' first
    | exact (rfl : (_ : Bool) = _)
    | with_reducible first
      | exact Keeps.refl ..
      | refine Keeps.ite (fun _ => ?_) (fun _ => ?_)
      | apply Keeps.step (State.setB_keeps ..)
    | split

theorem State.selEval_keeps (s : State) (n : Nat) : Keeps 8607403876353 s (State.selEval s n) := by
  unfold State.selEval
  try dsimp only
  repeat' first
    | exact (rfl : (_ : Bool) = _)
    | with_reducible first
      | exact Keeps.refl ..
      | refine Keeps.ite (fun _ => ?_) (fun _ => ?_)
      | apply Keeps.step (State.setB_keeps ..)
      | apply Keeps.step (State.irq_keeps ..)
      | apply Keeps.step (State.setF_keeps ..)
      | apply Keeps.step (State.traceEvent_keeps ..)
      | apply Keeps.step (State.tbEval_keeps ..)
      | apply Keeps.step (State.wrS64_keeps ..)
      | apply Keeps.step (State.boundEval_keeps ..)
      | apply Keeps.step (State.raise_keeps ..)
      | apply Keeps.step (State.tndAlign_keeps ..)
      | apply Keeps.step (State.count_keeps ..)
    | split

theorem State.selRound_keeps (s : State) (s0 : State) : Keeps 8607403876353 s (State.selRound s s0) := by
  unfold State.selRound
  try dsimp only
  repeat' first
    | exact (rfl : (_ : Bool) = _)
    | with_reducible first
      | exact Keeps.refl ..
      | assumption
      | refine Keeps.ite (fun _ => ?_) (fun _ => ?_)
      | apply Keeps.step (State.selEval_keeps ..)
      | refine Keeps.foldl _ _ ?_ (fun _ _ _ => ?_)
    | split

theorem State.candRound_keeps (s : State) (s0 : State) (cs : List Nat) : Keeps 8607403876353 s (State.candRound s s0 cs) := by
  unfold State.candRound
  try dsimp only
  repeat' first
    | exact (rfl : (_ : Bool) = _)
    | with_reducible first
      | exact Keeps.refl ..
      | assumption
      | apply Keeps.step (State.candEval_keeps ..)
      | apply Keeps.step (State.selRound_keeps ..)
      | refine Keeps.foldl _ _ ?_ (fun _ _ _ => ?_)

theorem State.gnsWrite_keeps (s : State) (m : Nat × List Byte) : Keeps 21784376115201 s (State.gnsWrite s m) := by
  unfold State.gnsWrite
  try dsimp only
  repeat' first
    | exact (rfl : (_ : Bool) = _)
    | with_reducible first
      | exact Keeps.refl ..
      | refine Keeps.ite (fun _ => ?_) (fun _ => ?_)
      | apply Keeps.step (State.countSat_keeps ..)
      | apply Keeps.step (State.irq_keeps ..)
      | apply Keeps.step (State.wrN_keeps ..)
      | apply Keeps.step (State.raise_keeps ..)
      | apply Keeps.step (State.granWrite_keeps ..)
      | apply Keeps.step (State.modGns_keeps ..)
    | split

theorem State.gnsMessage_keeps (s : State) (typ : Nat) (body : List Byte) : Keeps 21784376115201 s (State.gnsMessage s typ body) := by
  unfold State.gnsMessage
  try dsimp only
  repeat' first
    | exact (rfl : (_ : Bool) = _)
    | with_reducible first
      | exact Keeps.refl ..
      | refine Keeps.ite (fun _ => ?_) (fun _ => ?_)
      | apply Keeps.step (State.countSat_keeps ..)
      | apply Keeps.step (State.gnsWrite_keeps ..)
      | apply Keeps.step (State.modGns_keeps ..)
    | split

theorem State.gnsEvent_keeps (s : State) (kind : Nat) (detail : Nat) : Keeps 21784376115201 s (State.gnsEvent s kind detail) := by
  unfold State.gnsEvent
  try dsimp only
  repeat' first
    | exact (rfl : (_ : Bool) = _)
    | with_reducible first
      | exact Keeps.refl ..
      | apply Keeps.step (State.irq_keeps ..)
      | apply Keeps.step (State.gnsMessage_keeps ..)

theorem State.gnsEnter_keeps (s : State) (st : Nat) : Keeps 21784376115201 s (State.gnsEnter s st) := by
  unfold State.gnsEnter
  try dsimp only
  repeat' first
    | exact (rfl : (_ : Bool) = _)
    | with_reducible first
      | exact Keeps.refl ..
      | refine Keeps.ite (fun _ => ?_) (fun _ => ?_)
      | apply Keeps.step (State.irq_keeps ..)
      | apply Keeps.step (State.setF_keeps ..)
      | apply Keeps.step (State.gnsEvent_keeps ..)
    | split

theorem State.gnsOff_keeps (s : State) : Keeps 26199623475201 s (State.gnsOff s) := by
  unfold State.gnsOff
  try dsimp only
  repeat' first
    | exact (rfl : (_ : Bool) = _)
    | with_reducible first
      | exact Keeps.refl ..
      | refine Keeps.ite (fun _ => ?_) (fun _ => ?_)
      | apply Keeps.step (State.gnsEnter_keeps ..)
      | apply Keeps.step (State.modGns_keeps ..)
      | apply Keeps.step (State.candRound_keeps ..)
    | split

theorem State.gnsMode_keeps (s : State) (pos : Nat) : Keeps 21784376115201 s (State.gnsMode s pos) := by
  unfold State.gnsMode
  try dsimp only
  repeat' first
    | exact (rfl : (_ : Bool) = _)
    | with_reducible first
      | exact Keeps.refl ..
      | refine Keeps.ite (fun _ => ?_) (fun _ => ?_)
      | apply Keeps.step (State.setF_keeps ..)
      | apply Keeps.step (State.gnsEvent_keeps ..)
    | split

theorem State.gnsOn_keeps (s : State) : Keeps 21784376115201 s (State.gnsOn s) := by
  unfold State.gnsOn
  try dsimp only
  repeat' first
    | exact (rfl : (_ : Bool) = _)
    | with_reducible first
      | exact Keeps.refl ..
      | refine Keeps.ite (fun _ => ?_) (fun _ => ?_)
      | apply Keeps.step (State.setF_keeps ..)
      | apply Keeps.step (State.gnsMode_keeps ..)
      | apply Keeps.step (State.gnsEnter_keeps ..)
      | apply Keeps.step (State.modGns_keeps ..)
    | split

theorem State.rwStore_keeps (s : State) (a : Nat) (v : Word) : Keeps 1 s (State.rwStore s a v) := by
  unfold State.rwStore
  try dsimp only
  repeat' first
    | exact (rfl : (_ : Bool) = _)
    | with_reducible first
      | exact Keeps.refl ..
      | apply Keeps.step (State.wr_keeps ..)

theorem State.vaneUnit_keeps (s : State) : Keeps 1 s (State.vaneUnit s) := by
  unfold State.vaneUnit
  try dsimp only
  repeat' first
    | exact (rfl : (_ : Bool) = _)
    | with_reducible first
      | exact Keeps.refl ..
      | assumption
      | apply Keeps.step (State.setB_keeps ..)
      | apply Keeps.step (State.setF_keeps ..)
    | split

theorem State.wGns_keeps (s : State) (o : Nat) (v : Word) : Keeps 26199623475201 s (State.wGns s o v) := by
  unfold State.wGns
  try dsimp only
  repeat' first
    | exact (rfl : (_ : Bool) = _)
    | with_reducible first
      | exact Keeps.refl ..
      | refine Keeps.ite (fun _ => ?_) (fun _ => ?_)
      | apply Keeps.step (State.vaneUnit_keeps ..)
      | apply Keeps.step (State.cfgBad_keeps ..)
      | apply Keeps.step (State.gnsOn_keeps ..)
      | apply Keeps.step (State.rwStore_keeps ..)
      | apply Keeps.step (State.modGns_keeps ..)
      | apply Keeps.step (State.gnsOff_keeps ..)
    | split

theorem State.aidApply_keeps (s0 : State) (r : List Byte) : Keeps 26199623475201 s0 (State.aidApply s0 r) := by
  unfold State.aidApply
  try dsimp only
  repeat' first
    | exact (rfl : (_ : Bool) = _)
    | with_reducible first
      | exact Keeps.refl ..
      | assumption
      | refine Keeps.ite (fun _ => ?_) (fun _ => ?_)
      | apply Keeps.step (State.modGns_keeps ..)
      | apply Keeps.step (State.wGns_keeps ..)
      | refine Keeps.foldl _ _ ?_ (fun _ _ _ => ?_)
    | split

theorem State.aidRun_keeps (s : State) (fuel : Nat) (b : List Byte) (n pos : Nat) : Keeps 26199623475201 s (State.aidRun s fuel b n pos).1 := by
  induction fuel generalizing s b n pos with
  | zero => cases b <;> exact Keeps.refl _ _
  | succ f ih =>
    cases b with
    | nil => exact Keeps.refl _ _
    | cons x l =>
      unfold State.aidRun
      split
      · exact Keeps.refl _ _
      · exact Keeps.step (ih _ _ _ _) rfl (Keeps.step (State.aidApply_keeps s _) rfl (Keeps.refl _ _))

theorem State.runRaise_keeps (s : State) (kind : Nat) (p : Nat) (f : FaultId) (ctx : Nat) : Keeps 68853694464 s (State.runRaise s kind p f ctx) := by
  unfold State.runRaise
  try dsimp only
  repeat' first
    | exact (rfl : (_ : Bool) = _)
    | exact Shape.lenOf (fun h => by first | (simp only [listMod_length, List.length_map, List.length_mapIdx, List.length_set, List.length_range, List.length_replicate, h.all, mapWf_nil, and_self]; done) | (simp [h.all, mapSet_wf]; done) | (split <;> simp [h.all] <;> done) | (constructor <;> split <;> simp [h.all] <;> done))
    | with_reducible first
      | exact Keeps.refl ..
      | refine Keeps.ite (fun _ => ?_) (fun _ => ?_)
      | apply Keeps.step (State.raise_keeps ..)
    | split
    | with_reducible apply Keeps.step (Keeps.with_pkt _ _ ?_)

theorem State.flightIn_keeps (s : State) (p : Nat) : Keeps 3092510670849 s (State.flightIn s p) := by
  unfold State.flightIn
  try dsimp only
  repeat' first
    | exact (rfl : (_ : Bool) = _)
    | with_reducible first
      | exact Keeps.refl ..
      | refine Keeps.ite (fun _ => ?_) (fun _ => ?_)
      | apply Keeps.step (State.setB_keeps ..)
      | apply Keeps.step (State.irq_keeps ..)
      | apply Keeps.step (State.tallyAdd_keeps ..)
      | apply Keeps.step (State.setF_keeps ..)
      | apply Keeps.step (State.pktCount_keeps ..)
      | apply Keeps.step (State.runRaise_keeps ..)
    | split

theorem State.macCount_keeps (s : State) (p : Nat) (i : Nat) (n : Nat) : Keeps 1 s (State.macCount s p i n) := by
  unfold State.macCount
  try dsimp only
  repeat' first
    | exact (rfl : (_ : Bool) = _)
    | with_reducible first
      | exact Keeps.refl ..
      | refine Keeps.ite (fun _ => ?_) (fun _ => ?_)
      | apply Keeps.step (State.wr64_keeps ..)
    | split

theorem State.slotStat_keeps (s : State) (i : Nat) (w : Nat) : Keeps 18691697672192 s (State.slotStat s i w) := by
  unfold State.slotStat
  try dsimp only
  repeat' first
    | exact (rfl : (_ : Bool) = _)
    | with_reducible first
      | exact Keeps.refl ..
      | apply Keeps.step (State.mwrite_keeps ..)

theorem State.txOwe_keeps (s : State) (p : Nat) (f : TxFrame) (ts : Option Nat) (bound : Nat) (status : Nat) : Keeps 67108864 s (State.txOwe s p f ts bound status) := by
  unfold State.txOwe
  try dsimp only
  repeat' first
    | exact (rfl : (_ : Bool) = _)
    | with_reducible first
      | exact Keeps.refl ..
      | refine Keeps.ite (fun _ => ?_) (fun _ => ?_)
      | apply Keeps.step (State.modPort_keeps ..)
    | split

theorem State.txDrop_keeps (s : State) (p : Nat) (f : TxFrame) (cause : Nat) : Keeps 18691764781057 s (State.txDrop s p f cause) := by
  unfold State.txDrop
  try dsimp only
  repeat' first
    | exact (rfl : (_ : Bool) = _)
    | with_reducible first
      | exact Keeps.refl ..
      | assumption
      | refine Keeps.ite (fun _ => ?_) (fun _ => ?_)
      | apply Keeps.step (State.flightOut_keeps ..)
      | apply Keeps.step (State.slotStat_keeps ..)
      | apply Keeps.step (State.macCount_keeps ..)
      | apply Keeps.step (State.txOwe_keeps ..)
    | split

theorem State.txLate_keeps (s : State) (p : Nat) (src : Nat) (f : TxFrame) : Keeps 21234385420289 s (State.txLate s p src f).2 := by
  unfold State.txLate
  try dsimp only
  repeat' first
    | exact (rfl : (_ : Bool) = _)
    | with_reducible first
      | exact Keeps.refl ..
      | refine Keeps.ite (fun _ => ?_) (fun _ => ?_)
      | apply Keeps.step (State.irq_keeps ..)
      | apply Keeps.step (State.raise_keeps ..)
      | apply Keeps.step (State.macCount_keeps ..)
      | apply Keeps.step (State.txDrop_keeps ..)
    | split

theorem State.txQueue_keeps (s : State) (p : Nat) (src : Nat) (f : TxFrame) : Keeps 67108864 s (State.txQueue s p src f) := by
  unfold State.txQueue
  try dsimp only
  repeat' first
    | exact (rfl : (_ : Bool) = _)
    | with_reducible first
      | exact Keeps.refl ..
      | assumption
      | apply Keeps.step (State.modPort_keeps ..)
    | split

theorem State.txLaunch_keeps (s : State) (p : Nat) (src : Nat) (f : TxFrame) : Keeps 21234385420289 s (State.txLaunch s p src f) := by
  unfold State.txLaunch
  try dsimp only
  repeat' first
    | exact (rfl : (_ : Bool) = _)
    | with_reducible first
      | exact Keeps.refl ..
      | assumption
      | refine Keeps.ite (fun _ => ?_) (fun _ => ?_)
      | apply Keeps.step (State.txLate_keeps ..)
      | apply Keeps.step (Keeps.ofSnd ‹_› (State.txLate_keeps ..))
      | apply Keeps.step (State.txQueue_keeps ..)
    | split

theorem State.send_keeps (s : State) (p : Nat) (f : TxFrame) : Keeps 21234385420289 s (State.send s p f) := by
  unfold State.send
  try dsimp only
  repeat' first
    | exact (rfl : (_ : Bool) = _)
    | with_reducible first
      | exact Keeps.refl ..
      | apply Keeps.step (State.txLaunch_keeps ..)

theorem State.sessSeq_keeps (s : State) (i : Nat) (x : Nat) : Keeps 134217728 s (State.sessSeq s i x).2 := by
  unfold State.sessSeq
  try dsimp only
  repeat' first
    | exact (rfl : (_ : Bool) = _)
    | exact Shape.lenOf (fun h => by first | (simp only [listMod_length, List.length_map, List.length_mapIdx, List.length_set, List.length_range, List.length_replicate, h.all, mapWf_nil, and_self]; done) | (simp [h.all, mapSet_wf]; done) | (split <;> simp [h.all] <;> done) | (constructor <;> split <;> simp [h.all] <;> done))
    | with_reducible first
      | exact Keeps.refl ..
    | with_reducible apply Keeps.step (Keeps.with_pkt _ _ ?_)

theorem State.streamSeq_keeps (s : State) (p : Nat) (x : Nat) (slot : Option Nat) : Keeps 201326592 s (State.streamSeq s p x slot).2 := by
  unfold State.streamSeq
  try dsimp only
  repeat' first
    | exact (rfl : (_ : Bool) = _)
    | with_reducible first
      | exact Keeps.refl ..
      | assumption
      | refine Keeps.ite (fun _ => ?_) (fun _ => ?_)
      | apply Keeps.step (State.modPort_keeps ..)
      | apply Keeps.step (State.sessSeq_keeps ..)
      | apply Keeps.step (Keeps.ofSnd ‹_› (State.sessSeq_keeps ..))
    | split

theorem State.announceBuild_keeps (s : State) (p : Nat) (slot : Option Nat) (e : Encap) (log : Byte) (auth : Option AuthOut) : Keeps 21784275451905 s (State.announceBuild s p slot e log auth) := by
  unfold State.announceBuild
  try dsimp only
  repeat' first
    | exact (rfl : (_ : Bool) = _)
    | with_reducible first
      | exact Keeps.refl ..
      | apply Keeps.step (State.tallyAdd_keeps ..)
      | apply Keeps.step (State.flightIn_keeps ..)
      | apply Keeps.step (State.streamSeq_keeps ..)
      | apply Keeps.step (Keeps.ofSnd ‹_› (State.streamSeq_keeps ..))
      | apply Keeps.step (State.send_keeps ..)

theorem State.complete_keeps (s : State) (i : Itf) (c : Completion) : Keeps 192 s (State.complete s i c) := by
  unfold State.complete
  try dsimp only
  repeat' first
    | exact (rfl : (_ : Bool) = _)
    | with_reducible first
      | exact Keeps.refl ..
      | assumption
    | split
    | with_reducible apply Keeps.step (Keeps.with_rdP ..)
    | with_reducible apply Keeps.step (Keeps.with_rdI ..)

theorem State.answer_keeps (s : State) (i : Itf) (a : Nat) (v : Word) : Keeps 2199023255744 s (State.answer s i a v) := by
  unfold State.answer
  try dsimp only
  repeat' first
    | exact (rfl : (_ : Bool) = _)
    | with_reducible first
      | exact Keeps.refl ..
      | assumption
      | apply Keeps.step (State.complete_keeps ..)
      | apply Keeps.step (State.emit_keeps ..)
    | split

theorem State.holdNow_keeps (s : State) (n : Nat) (c : Nat) (r : CandRes) : Keeps 4194304 s (State.holdNow s n c r) := by
  unfold State.holdNow
  try dsimp only
  repeat' first
    | exact (rfl : (_ : Bool) = _)
    | with_reducible first
      | exact Keeps.refl ..
      | refine Keeps.ite (fun _ => ?_) (fun _ => ?_)
      | apply Keeps.step (State.modCtl_keeps ..)
    | split

theorem State.applied_keeps (s : State) (n : Nat) (c : Nat) (r : CandRes) (e : Int) : Keeps 4194305 s (State.applied s n c r e) := by
  unfold State.applied
  try dsimp only
  repeat' first
    | exact (rfl : (_ : Bool) = _)
    | with_reducible first
      | exact Keeps.refl ..
      | refine Keeps.ite (fun _ => ?_) (fun _ => ?_)
      | apply Keeps.step (State.modCtl_keeps ..)
      | apply Keeps.step (State.wr64_keeps ..)
      | apply Keeps.step (State.wrN_keeps ..)
      | apply Keeps.step (State.holdNow_keeps ..)
      | apply Keeps.step (State.wrS64_keeps ..)
      | apply Keeps.step (State.count_keeps ..)
    | split

theorem State.appliedIrq_keeps (s : State) (ch : Chan) : Keeps 2473901162497 s (State.appliedIrq s ch) := by
  unfold State.appliedIrq
  try dsimp only
  repeat' first
    | exact (rfl : (_ : Bool) = _)
    | with_reducible first
      | exact Keeps.refl ..
      | assumption
      | apply Keeps.step (State.irq_keeps ..)
    | split

theorem State.wBnd_keeps (s : State) (a : Nat) (v : Word) : Keeps 4209336385537 s (State.wBnd s a v) := by
  unfold State.wBnd
  try dsimp only
  repeat' first
    | exact (rfl : (_ : Bool) = _)
    | with_reducible first
      | exact Keeps.refl ..
      | refine Keeps.ite (fun _ => ?_) (fun _ => ?_)
      | apply Keeps.step (State.traceDrain_keeps ..)
      | apply Keeps.step (State.cfgBad_keeps ..)
      | apply Keeps.step (State.accStore_keeps ..)
    | split
    | with_reducible apply Keeps.step (Keeps.with_trace ..)

theorem State.fenceStat_keeps (s : State) (tag : Nat) : Keeps 549755813889 s (State.fenceStat s tag) := by
  unfold State.fenceStat
  try dsimp only
  repeat' first
    | exact (rfl : (_ : Bool) = _)
    | with_reducible first
      | exact Keeps.refl ..
      | apply Keeps.step (State.tallyAdd_keeps ..)
      | apply Keeps.step (State.setF_keeps ..)
      | apply Keeps.step (State.count_keeps ..)

theorem State.setFence_keeps (s : State) (i : Itf) (f : Option Fence) : Keeps 769 s (State.setFence s i f) := by
  unfold State.setFence
  try dsimp only
  repeat' first
    | exact (rfl : (_ : Bool) = _)
    | with_reducible first
      | exact Keeps.refl ..
      | assumption
      | apply Keeps.step (State.setB_keeps ..)
    | split
    | with_reducible apply Keeps.step (Keeps.with_fenceP ..)
    | with_reducible apply Keeps.step (Keeps.with_fenceI ..)

theorem State.wFence_keeps (s : State) (i : Itf) (v : Word) : Keeps 549755814657 s (State.wFence s i v) := by
  unfold State.wFence
  try dsimp only
  repeat' first
    | exact (rfl : (_ : Bool) = _)
    | with_reducible first
      | exact Keeps.refl ..
      | refine Keeps.ite (fun _ => ?_) (fun _ => ?_)
      | apply Keeps.step (State.fenceStat_keeps ..)
      | apply Keeps.step (State.setFence_keeps ..)
    | split

theorem State.cfgDiscard_keeps (s : State) (a : Nat) : Keeps 2542620639233 s (State.cfgDiscard s a) := by
  unfold State.cfgDiscard
  try dsimp only
  repeat' first
    | exact (rfl : (_ : Bool) = _)
    | with_reducible first
      | exact Keeps.refl ..
      | refine Keeps.ite (fun _ => ?_) (fun _ => ?_)
      | apply Keeps.step (State.cfgBad_keeps ..)
    | split

theorem State.modImg_keeps (s : State) (g : Img → Img) (h : s.wf = true → mapWf resetWord (g s.img).regs = true) : Keeps 536870912 s (State.modImg s g) :=
  Keeps.with_img s _ h

/-- An update of what start-up keeps that leaves the image's values alone. -/
theorem State.modImg_keeps' (s : State) (g : Img → Img) (h : (g s.img).regs = s.img.regs) : Keeps 536870912 s (State.modImg s g) := by
  refine State.modImg_keeps s g fun w => ?_
  simp only [State.wf, Bool.and_eq_true] at w
  rw [h]; exact w.1.1.1.2

theorem State.wLoadAddr_keeps (s : State) (v : Word) : Keeps 2543157510145 s (State.wLoadAddr s v) := by
  unfold State.wLoadAddr
  try dsimp only
  repeat' first
    | exact (rfl : (_ : Bool) = _)
    | with_reducible first
      | exact Keeps.refl ..
      | refine Keeps.ite (fun _ => ?_) (fun _ => ?_)
      | apply Keeps.step (State.wrN_keeps ..)
      | apply Keeps.step (State.cfgDiscard_keeps ..)
      | apply Keeps.step (State.modImg_keeps' _ _ rfl)
    | split

theorem State.setPhase_keeps (s : State) (p : Nat) : Keeps 1 s (State.setPhase s p) := by
  unfold State.setPhase
  try dsimp only
  repeat' first
    | exact (rfl : (_ : Bool) = _)
    | with_reducible first
      | exact Keeps.refl ..
      | apply Keeps.step (State.setF_keeps ..)

theorem State.loadGo_keeps (s : State) : Keeps 536870913 s (State.loadGo s) := by
  unfold State.loadGo
  try dsimp only
  repeat' first
    | exact (rfl : (_ : Bool) = _)
    | with_reducible first
      | exact Keeps.refl ..
      | refine Keeps.ite (fun _ => ?_) (fun _ => ?_)
      | apply Keeps.step (State.modImg_keeps' _ _ rfl)
      | apply Keeps.step (State.setPhase_keeps ..)
    | split

theorem State.loadStart_keeps (s : State) : Keeps 536870913 s (State.loadStart s) := by
  unfold State.loadStart
  try dsimp only
  repeat' first
    | exact (rfl : (_ : Bool) = _)
    | with_reducible first
      | exact Keeps.refl ..
      | refine Keeps.ite (fun _ => ?_) (fun _ => ?_)
      | apply Keeps.step (State.wrN_keeps ..)
      | apply Keeps.step (State.modImg_keeps' _ _ rfl)
    | split

theorem State.wLoadCtl_keeps (s : State) (v : Word) : Keeps 536870913 s (State.wLoadCtl s v) := by
  unfold State.wLoadCtl
  try dsimp only
  repeat' first
    | exact (rfl : (_ : Bool) = _)
    | with_reducible first
      | exact Keeps.refl ..
      | refine Keeps.ite (fun _ => ?_) (fun _ => ?_)
      | apply Keeps.step (State.loadGo_keeps ..)
      | apply Keeps.step (State.loadStart_keeps ..)
    | split

theorem State.wLoadData_keeps (s : State) (v : Word) : Keeps 536870913 s (State.wLoadData s v) := by
  unfold State.wLoadData
  try dsimp only
  repeat' first
    | exact (rfl : (_ : Bool) = _)
    | with_reducible first
      | exact Keeps.refl ..
      | refine Keeps.ite (fun _ => ?_) (fun _ => ?_)
      | apply Keeps.step (State.wrN_keeps ..)
      | apply Keeps.step (State.modImg_keeps' _ _ rfl)
    | split

theorem State.ownerBurn_keeps (s : State) (h : BitVec 256) (c : BitVec 256) (b : BitVec 8) : Keeps 536870913 s (State.ownerBurn s h c b) := by
  unfold State.ownerBurn
  try dsimp only
  repeat' first
    | exact (rfl : (_ : Bool) = _)
    | with_reducible first
      | exact Keeps.refl ..
      | apply Keeps.step (State.setB_keeps ..)
      | apply Keeps.step (State.modImg_keeps' _ _ rfl)

theorem State.ownerEnd_keeps (s : State) (code : Nat) : Keeps 2473901162497 s (State.ownerEnd s code) := by
  unfold State.ownerEnd
  try dsimp only
  repeat' first
    | exact (rfl : (_ : Bool) = _)
    | with_reducible first
      | exact Keeps.refl ..
      | apply Keeps.step (State.setB_keeps ..)
      | apply Keeps.step (State.irq_keeps ..)
      | apply Keeps.step (State.setF_keeps ..)

theorem State.ownerFuse_keeps (s : State) (req : Bool) : Keeps 2474438033409 s (State.ownerFuse s req) := by
  unfold State.ownerFuse
  try dsimp only
  repeat' first
    | exact (rfl : (_ : Bool) = _)
    | with_reducible first
      | exact Keeps.refl ..
      | refine Keeps.ite (fun _ => ?_) (fun _ => ?_)
      | apply Keeps.step (State.ownerBurn_keeps ..)
      | apply Keeps.step (State.ownerEnd_keeps ..)
    | split

theorem State.ownerRequire_keeps (s : State) : Keeps 2474438033409 s (State.ownerRequire s) := by
  unfold State.ownerRequire
  try dsimp only
  repeat' first
    | exact (rfl : (_ : Bool) = _)
    | with_reducible first
      | exact Keeps.refl ..
      | refine Keeps.ite (fun _ => ?_) (fun _ => ?_)
      | apply Keeps.step (State.ownerBurn_keeps ..)
      | apply Keeps.step (State.ownerEnd_keeps ..)
    | split

theorem State.wOwnerCmd_keeps (s : State) (v : Word) : Keeps 2543157510145 s (State.wOwnerCmd s v) := by
  unfold State.wOwnerCmd
  try dsimp only
  repeat' first
    | exact (rfl : (_ : Bool) = _)
    | with_reducible first
      | exact Keeps.refl ..
      | refine Keeps.ite (fun _ => ?_) (fun _ => ?_)
      | apply Keeps.step (State.cfgDiscard_keeps ..)
      | apply Keeps.step (State.ownerRequire_keeps ..)
      | apply Keeps.step (State.ownerFuse_keeps ..)
    | split

theorem State.wCfg_keeps (s : State) (i : Itf) (a : Nat) (v : Word) : Keeps 3092913324801 s (State.wCfg s i a v) := by
  unfold State.wCfg
  try dsimp only
  repeat' first
    | exact (rfl : (_ : Bool) = _)
    | with_reducible first
      | exact Keeps.refl ..
      | assumption
      | apply Keeps.step (State.wOwnerCmd_keeps ..)
      | apply Keeps.step (State.wFence_keeps ..)
      | apply Keeps.step (State.rwStore_keeps ..)
      | apply Keeps.step (State.wLoadData_keeps ..)
      | apply Keeps.step (State.wLoadCtl_keeps ..)
      | apply Keeps.step (State.wLoadAddr_keeps ..)
    | split

theorem State.commitState_keeps (s : State) (ch : Chan) : Keeps 1 s (State.commitState s ch) := by
  unfold State.commitState
  try dsimp only
  repeat' first
    | exact (rfl : (_ : Bool) = _)
    | with_reducible first
      | exact Keeps.refl ..
      | refine Keeps.ite (fun _ => ?_) (fun _ => ?_)
      | apply Keeps.step (State.setF_keeps ..)
    | split

theorem State.modChan_keeps (s : State) (ch : Chan) (g : CommitChan → CommitChan) : Keeps 4096 s (State.modChan s ch g) := by
  unfold State.modChan
  try dsimp only
  repeat' first
    | exact (rfl : (_ : Bool) = _)
    | exact Shape.lenOf (fun h => by first | (simp only [listMod_length, List.length_map, List.length_mapIdx, List.length_set, List.length_range, List.length_replicate, h.all, mapWf_nil, and_self]; done) | (simp [h.all, mapSet_wf]; done) | (split <;> simp [h.all] <;> done) | (constructor <;> split <;> simp [h.all] <;> done))
    | with_reducible first
      | exact Keeps.refl ..
    | with_reducible apply Keeps.step (Keeps.with_chans _ _ ?_)

theorem State.commitStart_keeps (s : State) (ch : Chan) (b : Nat) : Keeps 4097 s (State.commitStart s ch b) := by
  unfold State.commitStart
  try dsimp only
  repeat' first
    | exact (rfl : (_ : Bool) = _)
    | with_reducible first
      | exact Keeps.refl ..
      | apply Keeps.step (State.modChan_keeps ..)
      | apply Keeps.step (State.commitState_keeps ..)

theorem State.wCommit_keeps (s : State) (i : Itf) (ch : Chan) (v : Word) : Keeps 4097 s (State.wCommit s i ch v) := by
  unfold State.wCommit
  try dsimp only
  repeat' first
    | exact (rfl : (_ : Bool) = _)
    | with_reducible first
      | exact Keeps.refl ..
      | refine Keeps.ite (fun _ => ?_) (fun _ => ?_)
      | apply Keeps.step (State.modChan_keeps ..)
      | apply Keeps.step (State.commitStart_keeps ..)
    | split

theorem State.cstDone_keeps (s : State) (code : Nat) : Keeps 2473901162497 s (State.cstDone s code) := by
  unfold State.cstDone
  try dsimp only
  repeat' first
    | exact (rfl : (_ : Bool) = _)
    | with_reducible first
      | exact Keeps.refl ..
      | apply Keeps.step (State.setB_keeps ..)
      | apply Keeps.step (State.irq_keeps ..)
      | apply Keeps.step (State.setF_keeps ..)

theorem State.modCst_keeps (s : State) (g : Cst → Cst) : Keeps 268435456 s (State.modCst s g) := by
  unfold State.modCst
  try dsimp only
  repeat' first
    | exact (rfl : (_ : Bool) = _)
    | with_reducible first
      | exact Keeps.refl ..
    | with_reducible apply Keeps.step (Keeps.with_cst ..)

theorem State.budgetShow_keeps (s : State) (p : Nat) : Keeps 1 s (State.budgetShow s p) := by
  unfold State.budgetShow
  try dsimp only
  repeat' first
    | exact (rfl : (_ : Bool) = _)
    | with_reducible first
      | exact Keeps.refl ..
      | apply Keeps.step (State.wrN_keeps ..)

end Sys2Proof.Machine
end

