-- ==== Sys2Proof/Laws/KeepsB.lean ====
section
/-! SUPPORT. What each operation of the model can change (its mask of parts, `Part.idx`) and that it keeps the canonical form: one lemma for each
operation, in the order in which they rest on each other. Part 2 of 4. -/
set_option linter.unusedSimpArgs false
namespace Sys2Proof.Machine

theorem State.entryClear_keeps (s : State) (b : Nat) (j : Nat) : Keeps 18691697672192 s (State.entryClear s b j) := by
  unfold State.entryClear
  try dsimp only
  repeat' first
    | exact (rfl : (_ : Bool) = _)
    | with_reducible first
      | exact Keeps.refl ..
      | apply Keeps.step (State.mwrite_keeps ..)

theorem State.setHot_keeps (s : State) (i : Nat) (o : Nat) (n : Nat) (v : Nat) : Keeps 18691697672192 s (State.setHot s i o n v) := by
  unfold State.setHot
  try dsimp only
  repeat' first
    | exact (rfl : (_ : Bool) = _)
    | with_reducible first
      | exact Keeps.refl ..
      | apply Keeps.step (State.mwrite_keeps ..)

theorem State.setHotBit_keeps (s : State) (i : Nat) (o : Nat) (b : Nat) (v : Bool) : Keeps 18691697672192 s (State.setHotBit s i o b v) := by
  unfold State.setHotBit
  try dsimp only
  repeat' first
    | exact (rfl : (_ : Bool) = _)
    | with_reducible first
      | exact Keeps.refl ..
      | refine Keeps.ite (fun _ => ?_) (fun _ => ?_)
      | apply Keeps.step (State.setHot_keeps ..)
    | split

theorem State.usedShow_keeps (s : State) : Keeps 1 s (State.usedShow s) := by
  unfold State.usedShow
  try dsimp only
  repeat' first
    | exact (rfl : (_ : Bool) = _)
    | with_reducible first
      | exact Keeps.refl ..
      | apply Keeps.step (State.setF_keeps ..)

theorem State.sessDelete_keeps (s : State) (i : Nat) : Keeps 18692100325377 s (State.sessDelete s i) := by
  unfold State.sessDelete
  try dsimp only
  repeat' first
    | exact (rfl : (_ : Bool) = _)
    | exact Shape.lenOf (fun h => by first | (simp only [listMod_length, List.length_map, List.length_mapIdx, List.length_set, List.length_range, List.length_replicate, h.all, mapWf_nil, and_self]; done) | (simp [h.all, mapSet_wf]; done) | (split <;> simp [h.all] <;> done) | (constructor <;> split <;> simp [h.all] <;> done))
    | with_reducible first
      | exact Keeps.refl ..
      | assumption
      | apply Keeps.step (State.budgetShow_keeps ..)
      | apply Keeps.step (State.usedShow_keeps ..)
      | apply Keeps.step (State.modCst_keeps ..)
      | apply Keeps.step (State.setHotBit_keeps ..)
      | apply Keeps.step (State.entryClear_keeps ..)
      | refine Keeps.foldl _ _ ?_ (fun _ _ _ => ?_)
    | with_reducible apply Keeps.step (Keeps.with_pkt _ _ ?_)

theorem State.sessRelease_keeps (s : State) (i : Nat) : Keeps 18692100325377 s (State.sessRelease s i) := by
  unfold State.sessRelease
  try dsimp only
  repeat' first
    | exact (rfl : (_ : Bool) = _)
    | with_reducible first
      | exact Keeps.refl ..
      | apply Keeps.step (State.sessDelete_keeps ..)
      | apply Keeps.step (State.pktCount_keeps ..)

theorem State.shadowRebuild_keeps (s : State) : Keeps 18691966107648 s (State.shadowRebuild s) := by
  unfold State.shadowRebuild
  dsimp only
  refine Keeps.step (State.heal_keeps _ _ _) rfl (Keeps.step (State.mwrite_keeps _ _ _) rfl (Keeps.step (State.mwrite_keeps _ _ _) rfl ?_))
  exact Keeps.step (Keeps.with_mem s _ fun h => by
    simp only [State.wf, Bool.and_eq_true] at h
    exact filter_wf _ _ _ h.2) rfl (Keeps.refl _ _)

theorem State.eccAct_keeps (s : State) (a : Nat) : Keeps 21234720964609 s (State.eccAct s a) := by
  unfold State.eccAct
  try dsimp only
  repeat' first
    | exact (rfl : (_ : Bool) = _)
    | with_reducible first
      | exact Keeps.refl ..
      | refine Keeps.ite (fun _ => ?_) (fun _ => ?_)
      | apply Keeps.step (State.irq_keeps ..)
      | apply Keeps.step (State.setF_keeps ..)
      | apply Keeps.step (State.sessRelease_keeps ..)
      | apply Keeps.step (State.heal_keeps ..)
      | apply Keeps.step (State.mwrite_keeps ..)
      | apply Keeps.step (State.raise_keeps ..)
      | apply Keeps.step (State.shadowRebuild_keeps ..)
      | apply Keeps.step (State.modCst_keeps ..)
    | split

theorem State.eccNote_keeps (s : State) (e : EccHit) : Keeps 2542889074689 s (State.eccNote s e) := by
  unfold State.eccNote
  try dsimp only
  repeat' first
    | exact (rfl : (_ : Bool) = _)
    | with_reducible first
      | exact Keeps.refl ..
      | refine Keeps.ite (fun _ => ?_) (fun _ => ?_)
      | apply Keeps.step (State.countSat_keeps ..)
      | apply Keeps.step (State.irq_keeps ..)
      | apply Keeps.step (State.wr_keeps ..)
      | apply Keeps.step (State.setFlaws_keeps ..)
      | apply Keeps.step (State.raise_keeps ..)
    | split
    | with_reducible apply Keeps.step (Keeps.with_cst ..)

theorem State.eccHit_keeps (s : State) (e : EccHit) : Keeps 21234720964609 s (State.eccHit s e) := by
  unfold State.eccHit
  try dsimp only
  repeat' first
    | exact (rfl : (_ : Bool) = _)
    | with_reducible first
      | exact Keeps.refl ..
      | refine Keeps.ite (fun _ => ?_) (fun _ => ?_)
      | apply Keeps.step (State.eccNote_keeps ..)
      | apply Keeps.step (State.eccAct_keeps ..)
    | split

theorem State.meet_keeps (s : State) (a : Nat) (n : Nat) : Keeps 21234720964609 s (State.meet s a n) := by
  unfold State.meet
  try dsimp only
  repeat' first
    | exact (rfl : (_ : Bool) = _)
    | with_reducible first
      | exact Keeps.refl ..
      | assumption
      | apply Keeps.step (State.eccHit_keeps ..)
      | refine Keeps.foldl _ _ ?_ (fun _ _ _ => ?_)

theorem State.meetSlot_keeps (s : State) (i : Nat) : Keeps 21234720964609 s (State.meetSlot s i) := by
  unfold State.meetSlot
  try dsimp only
  repeat' first
    | exact (rfl : (_ : Bool) = _)
    | with_reducible first
      | exact Keeps.refl ..
      | apply Keeps.step (State.meet_keeps ..)

theorem State.meetBucket_keeps (s : State) (b : Nat) (tag : Nat) : Keeps 21234720964609 s (State.meetBucket s b tag) := by
  unfold State.meetBucket
  try dsimp only
  repeat' first
    | exact (rfl : (_ : Bool) = _)
    | with_reducible first
      | exact Keeps.refl ..
      | assumption
      | apply Keeps.step (State.meetSlot_keeps ..)
      | apply Keeps.step (State.meet_keeps ..)
      | refine Keeps.foldl _ _ ?_ (fun _ _ _ => ?_)

theorem State.meetKey_keeps (s : State) (k : SessKey) : Keeps 21234720964609 s (State.meetKey s k) := by
  unfold State.meetKey
  try dsimp only
  repeat' first
    | exact (rfl : (_ : Bool) = _)
    | with_reducible first
      | exact Keeps.refl ..
      | refine Keeps.ite (fun _ => ?_) (fun _ => ?_)
      | apply Keeps.step (State.meetBucket_keeps ..)
    | split

theorem State.sessInsert_keeps (s : State) (k : SessKey) (pinned : Bool) : Keeps 21234586746881 s (State.sessInsert s k pinned).2 := by
  unfold State.sessInsert
  try dsimp only
  repeat' first
    | exact (rfl : (_ : Bool) = _)
    | with_reducible first
      | exact Keeps.refl ..
      | assumption
      | refine Keeps.ite (fun _ => ?_) (fun _ => ?_)
      | apply Keeps.step (State.usedShow_keeps ..)
      | apply Keeps.step (State.countSat_keeps ..)
      | apply Keeps.step (State.irq_keeps ..)
      | apply Keeps.step (State.heal_keeps ..)
      | apply Keeps.step (State.mwrite_keeps ..)
      | apply Keeps.step (State.raise_keeps ..)
      | apply Keeps.step (State.modCst_keeps ..)
    | split

theorem State.cstCreate_keeps (s : State) : Keeps 21234720964609 s (State.cstCreate s) := by
  unfold State.cstCreate
  try dsimp only
  repeat' first
    | exact (rfl : (_ : Bool) = _)
    | with_reducible first
      | exact Keeps.refl ..
      | assumption
      | apply Keeps.step (State.meetKey_keeps ..)
      | apply Keeps.step (State.setF_keeps ..)
      | apply Keeps.step (State.cstDone_keeps ..)
      | apply Keeps.step (State.sessInsert_keeps ..)
      | apply Keeps.step (Keeps.ofSnd ‹_› (State.sessInsert_keeps ..))
    | split

theorem State.cstLookup_keeps (s : State) : Keeps 21234720964609 s (State.cstLookup s) := by
  unfold State.cstLookup
  try dsimp only
  repeat' first
    | exact (rfl : (_ : Bool) = _)
    | with_reducible first
      | exact Keeps.refl ..
      | assumption
      | apply Keeps.step (State.meetKey_keeps ..)
      | apply Keeps.step (State.setF_keeps ..)
      | apply Keeps.step (State.wrN_keeps ..)
      | apply Keeps.step (State.cstDone_keeps ..)
      | refine Keeps.foldl _ _ ?_ (fun _ _ _ => ?_)
    | split

theorem State.cstProvision_keeps (s : State) : Keeps 21234720964609 s (State.cstProvision s) := by
  unfold State.cstProvision
  try dsimp only
  repeat' first
    | exact (rfl : (_ : Bool) = _)
    | with_reducible first
      | exact Keeps.refl ..
      | assumption
      | refine Keeps.ite (fun _ => ?_) (fun _ => ?_)
      | apply Keeps.step (State.meetSlot_keeps ..)
      | apply Keeps.step (State.cstDone_keeps ..)
      | apply Keeps.step (State.mwrite_keeps ..)
      | apply Keeps.step (State.setHotBit_keeps ..)
    | split

theorem State.cstRelease_keeps (s : State) : Keeps 21234720964609 s (State.cstRelease s) := by
  unfold State.cstRelease
  try dsimp only
  repeat' first
    | exact (rfl : (_ : Bool) = _)
    | with_reducible first
      | exact Keeps.refl ..
      | refine Keeps.ite (fun _ => ?_) (fun _ => ?_)
      | apply Keeps.step (State.sessRelease_keeps ..)
      | apply Keeps.step (State.meetSlot_keeps ..)
      | apply Keeps.step (State.cstDone_keeps ..)
    | split

theorem State.cstUnpin_keeps (s : State) : Keeps 21234720964609 s (State.cstUnpin s) := by
  unfold State.cstUnpin
  try dsimp only
  repeat' first
    | exact (rfl : (_ : Bool) = _)
    | with_reducible first
      | exact Keeps.refl ..
      | refine Keeps.ite (fun _ => ?_) (fun _ => ?_)
      | apply Keeps.step (State.meetSlot_keeps ..)
      | apply Keeps.step (State.cstDone_keeps ..)
      | apply Keeps.step (State.setHotBit_keeps ..)
    | split

theorem State.wCstCmd_keeps (s : State) (v : Word) : Keeps 21234720964609 s (State.wCstCmd s v) := by
  unfold State.wCstCmd
  try dsimp only
  repeat' first
    | exact (rfl : (_ : Bool) = _)
    | with_reducible first
      | exact Keeps.refl ..
      | assumption
      | apply Keeps.step (State.cfgBad_keeps ..)
      | apply Keeps.step (State.cstLookup_keeps ..)
      | apply Keeps.step (State.cstUnpin_keeps ..)
      | apply Keeps.step (State.cstProvision_keeps ..)
      | apply Keeps.step (State.cstCreate_keeps ..)
      | apply Keeps.step (State.cstRelease_keeps ..)
    | split

theorem State.wCst_keeps (s : State) (a : Nat) (v : Word) : Keeps 21234720964609 s (State.wCst s a v) := by
  unfold State.wCst
  try dsimp only
  repeat' first
    | exact (rfl : (_ : Bool) = _)
    | with_reducible first
      | exact Keeps.refl ..
      | refine Keeps.ite (fun _ => ?_) (fun _ => ?_)
      | apply Keeps.step (State.cfgBad_keeps ..)
      | apply Keeps.step (State.wCstCmd_keeps ..)
      | apply Keeps.step (State.accStore_keeps ..)
    | split

theorem State.setDma_keeps (s : State) (c : Nat) (st : Nat) : Keeps 1 s (State.setDma s c st) := by
  unfold State.setDma
  try dsimp only
  repeat' first
    | exact (rfl : (_ : Bool) = _)
    | with_reducible first
      | exact Keeps.refl ..
      | apply Keeps.step (State.setF_keeps ..)

theorem State.dmaStop_keeps (s : State) (c : Nat) : Keeps 4398046511105 s (State.dmaStop s c) := by
  unfold State.dmaStop
  try dsimp only
  repeat' first
    | exact (rfl : (_ : Bool) = _)
    | with_reducible first
      | exact Keeps.refl ..
      | refine Keeps.ite (fun _ => ?_) (fun _ => ?_)
      | apply Keeps.step (State.setB_keeps ..)
      | apply Keeps.step (State.wr64_keeps ..)
      | apply Keeps.step (State.setDma_keeps ..)
      | apply Keeps.step (State.takeFree_keeps ..)
      | apply Keeps.step (Keeps.ofSnd ‹_› (State.takeFree_keeps ..))
    | split

theorem State.wDma_keeps (s : State) (a : Nat) (v : Word) : Keeps 6940667150337 s (State.wDma s a v) := by
  unfold State.wDma
  try dsimp only
  repeat' first
    | exact (rfl : (_ : Bool) = _)
    | with_reducible first
      | exact Keeps.refl ..
      | refine Keeps.ite (fun _ => ?_) (fun _ => ?_)
      | apply Keeps.step (State.setB_keeps ..)
      | apply Keeps.step (State.cfgBad_keeps ..)
      | apply Keeps.step (State.dmaStop_keeps ..)
      | apply Keeps.step (State.wr64_keeps ..)
      | apply Keeps.step (State.setDma_keeps ..)
      | apply Keeps.step (State.wr_keeps ..)
      | apply Keeps.step (State.rwStore_keeps ..)
    | split

theorem State.wDmaReg_keeps (s : State) (a : Nat) (v : Word) : Keeps 6940667150337 s (State.wDmaReg s a v) := by
  unfold State.wDmaReg
  try dsimp only
  repeat' first
    | exact (rfl : (_ : Bool) = _)
    | with_reducible first
      | exact Keeps.refl ..
      | refine Keeps.ite (fun _ => ?_) (fun _ => ?_)
      | apply Keeps.step (State.wDma_keeps ..)
    | split

theorem State.domEnd_keeps (s : State) : Keeps 68719476737 s (State.domEnd s) := by
  unfold State.domEnd
  try dsimp only
  repeat' first
    | exact (rfl : (_ : Bool) = _)
    | with_reducible first
      | exact Keeps.refl ..
      | apply Keeps.step (State.setB_keeps ..)
      | apply Keeps.step (State.raise_keeps ..)

theorem State.pwrRefuse_keeps (s : State) (code : Nat) (target : Nat) : Keeps 2542620639233 s (State.pwrRefuse s code target) := by
  unfold State.pwrRefuse
  try dsimp only
  repeat' first
    | exact (rfl : (_ : Bool) = _)
    | with_reducible first
      | exact Keeps.refl ..
      | apply Keeps.step (State.irq_keeps ..)
      | apply Keeps.step (State.setF_keeps ..)
      | apply Keeps.step (State.raise_keeps ..)

theorem State.wDomReq_keeps (s : State) (i : Itf) (v : Word) : Keeps 2543694381057 s (State.wDomReq s i v) := by
  unfold State.wDomReq
  try dsimp only
  repeat' first
    | exact (rfl : (_ : Bool) = _)
    | with_reducible first
      | exact Keeps.refl ..
      | refine Keeps.ite (fun _ => ?_) (fun _ => ?_)
      | apply Keeps.step (State.setB_keeps ..)
      | apply Keeps.step (State.irq_keeps ..)
      | apply Keeps.step (State.setF_keeps ..)
      | apply Keeps.step (State.pwrRefuse_keeps ..)
      | apply Keeps.step (State.domEnd_keeps ..)
    | split
    | with_reducible apply Keeps.step (Keeps.with_pwr ..)

theorem State.memFail_keeps (s : State) (m : Nat) (cause : Nat) : Keeps 2542624833537 s (State.memFail s m cause) := by
  unfold State.memFail
  try dsimp only
  repeat' first
    | exact (rfl : (_ : Bool) = _)
    | with_reducible first
      | exact Keeps.refl ..
      | refine Keeps.ite (fun _ => ?_) (fun _ => ?_)
      | apply Keeps.step (State.noWeight_keeps ..)
      | apply Keeps.step (State.setF_keeps ..)
      | apply Keeps.step (State.setMemState_keeps ..)
      | apply Keeps.step (State.modMember_keeps ..)
      | apply Keeps.step (State.raise_keeps ..)
    | split

theorem State.enterWarm_keeps (s : State) (m : Nat) : Keeps 2473905356801 s (State.enterWarm s m) := by
  unfold State.enterWarm
  try dsimp only
  repeat' first
    | exact (rfl : (_ : Bool) = _)
    | with_reducible first
      | exact Keeps.refl ..
      | apply Keeps.step (State.setMemState_keeps ..)
      | apply Keeps.step (State.modMember_keeps ..)

theorem State.memReturn_keeps (s : State) (m : Nat) : Keeps 2473905356801 s (State.memReturn s m) := by
  unfold State.memReturn
  try dsimp only
  repeat' first
    | exact (rfl : (_ : Bool) = _)
    | with_reducible first
      | exact Keeps.refl ..
      | refine Keeps.ite (fun _ => ?_) (fun _ => ?_)
      | apply Keeps.step (State.enterWarm_keeps ..)
      | apply Keeps.step (State.memRejoin_keeps ..)
    | split

theorem State.failedEval_keeps (s : State) (m : Fin 4) : Keeps 2542624833537 s (State.failedEval s m) := by
  unfold State.failedEval
  try dsimp only
  repeat' first
    | exact (rfl : (_ : Bool) = _)
    | with_reducible first
      | exact Keeps.refl ..
      | refine Keeps.ite (fun _ => ?_) (fun _ => ?_)
      | apply Keeps.step (State.memFail_keeps ..)
      | apply Keeps.step (State.memReturn_keeps ..)
    | split

theorem State.memOff0_keeps (s : State) (m : Nat) : Keeps 2473905356801 s (State.memOff0 s m) := by
  unfold State.memOff0
  try dsimp only
  repeat' first
    | exact (rfl : (_ : Bool) = _)
    | with_reducible first
      | exact Keeps.refl ..
      | apply Keeps.step (State.noWeight_keeps ..)
      | apply Keeps.step (State.showMember_keeps ..)
      | apply Keeps.step (State.setF_keeps ..)
      | apply Keeps.step (State.setMemState_keeps ..)
      | apply Keeps.step (State.modMember_keeps ..)

theorem State.memStart_keeps (s : State) (m : Fin 4) : Keeps 2542624833537 s (State.memStart s m) := by
  unfold State.memStart
  try dsimp only
  repeat' first
    | exact (rfl : (_ : Bool) = _)
    | with_reducible first
      | exact Keeps.refl ..
      | refine Keeps.ite (fun _ => ?_) (fun _ => ?_)
      | apply Keeps.step (State.memFail_keeps ..)
      | apply Keeps.step (State.enterWarm_keeps ..)
      | apply Keeps.step (State.wrN_keeps ..)
      | apply Keeps.step (State.modMember_keeps ..)
    | split

theorem State.memberEval_keeps (s : State) (m : Fin 4) : Keeps 8607403876353 s (State.memberEval s m) := by
  unfold State.memberEval
  try dsimp only
  repeat' first
    | exact (rfl : (_ : Bool) = _)
    | with_reducible first
      | exact Keeps.refl ..
      | refine Keeps.ite (fun _ => ?_) (fun _ => ?_)
      | apply Keeps.step (State.memFail_keeps ..)
      | apply Keeps.step (State.ensStateEval_keeps ..)
      | apply Keeps.step (State.memOff0_keeps ..)
      | apply Keeps.step (State.memStart_keeps ..)
      | apply Keeps.step (State.carrierEval_keeps ..)
      | apply Keeps.step (State.failedEval_keeps ..)
    | split

theorem State.wEns_keeps (s : State) (a : Nat) (v : Word) : Keeps 8607403876353 s (State.wEns s a v) := by
  unfold State.wEns
  try dsimp only
  repeat' first
    | exact (rfl : (_ : Bool) = _)
    | with_reducible first
      | exact Keeps.refl ..
      | assumption
      | refine Keeps.ite (fun _ => ?_) (fun _ => ?_)
      | apply Keeps.step (State.accStore_keeps ..)
      | apply Keeps.step (State.rwStore_keeps ..)
      | apply Keeps.step (State.memberEval_keeps ..)
    | split

theorem State.modKeys_keeps (s : State) (g : Keys → Keys) (h : Shape s → (g s.keys).copyA.length = 64 ∧ (g s.keys).copyB.length = 64) :
    Keeps 34359738368 s (State.modKeys s g) := Keeps.with_keys s _ h

theorem State.authStop_keeps (s : State) (cause : Nat) : Keeps 2576980377601 s (State.authStop s cause) := by
  unfold State.authStop
  try dsimp only
  repeat' first
    | exact (rfl : (_ : Bool) = _)
    | exact Shape.lenOf (fun h => by first | (simp only [listMod_length, List.length_map, List.length_mapIdx, List.length_set, List.length_range, List.length_replicate, h.all, mapWf_nil, and_self]; done) | (simp [h.all, mapSet_wf]; done) | (split <;> simp [h.all] <;> done) | (constructor <;> split <;> simp [h.all] <;> done))
    | with_reducible first
      | exact Keeps.refl ..
      | refine Keeps.ite (fun _ => ?_) (fun _ => ?_)
      | apply Keeps.step (State.setB_keeps ..)
      | apply Keeps.step (State.irq_keeps ..)
      | apply Keeps.step (State.raise_keeps ..)
      | apply Keeps.step (State.modKeys_keeps _ _ ?_)
    | split

theorem State.nmi_keeps (s : State) : Keeps 2267742732289 s (State.nmi s) := by
  unfold State.nmi
  try dsimp only
  repeat' first
    | exact (rfl : (_ : Bool) = _)
    | with_reducible first
      | exact Keeps.refl ..
      | refine Keeps.ite (fun _ => ?_) (fun _ => ?_)
      | apply Keeps.step (State.setB_keeps ..)
      | apply Keeps.step (State.raise_keeps ..)
      | apply Keeps.step (State.msixSend_keeps ..)
      | apply Keeps.step (State.emit_keeps ..)
    | split

theorem State.safeEnter_keeps (s : State) (cause : Nat) (f : FaultId) (ofs : Nat) : Keeps 8650353549313 s (State.safeEnter s cause f ofs) := by
  unfold State.safeEnter
  try dsimp only
  repeat' first
    | exact (rfl : (_ : Bool) = _)
    | exact (rfl : (_ : List (Nat × Word × Word × Word × Word)) = _)
    | with_reducible first
      | exact Keeps.refl ..
      | assumption
      | refine Keeps.ite (fun _ => ?_) (fun _ => ?_)
      | apply Keeps.step (State.setB_keeps ..)
      | apply Keeps.step (State.nmi_keeps ..)
      | apply Keeps.step (State.wrN_keeps ..)
      | apply Keeps.step (State.raise_keeps ..)
      | apply Keeps.step (State.authStop_keeps ..)
      | apply Keeps.step (State.selEval_keeps ..)
      | refine Keeps.foldl _ _ ?_ (fun _ _ _ => ?_)
    | split
    | with_reducible apply Keeps.step (Keeps.with_flt_log _ _ ?_)

theorem State.pairFail_keeps (s : State) (o : Nat) : Keeps 8650353549313 s (State.pairFail s o) := by
  unfold State.pairFail
  try dsimp only
  repeat' first
    | exact (rfl : (_ : Bool) = _)
    | exact (rfl : (_ : List (Nat × Word × Word × Word × Word)) = _)
    | with_reducible first
      | exact Keeps.refl ..
      | apply Keeps.step (State.safeEnter_keeps ..)
    | with_reducible apply Keeps.step (Keeps.with_flt_log _ _ ?_)

theorem State.pairAccess_keeps (s : State) (os : List Nat) : Keeps 8650353549313 s (State.pairAccess s os) := by
  unfold State.pairAccess
  try dsimp only
  repeat' first
    | exact (rfl : (_ : Bool) = _)
    | with_reducible first
      | exact Keeps.refl ..
      | assumption
      | refine Keeps.ite (fun _ => ?_) (fun _ => ?_)
      | apply Keeps.step (State.pairFail_keeps ..)
      | refine Keeps.foldl _ _ ?_ (fun _ _ _ => ?_)
    | split

theorem windowReset_wf (m img : RegFile) (lo hi : Nat) (hl : lo ≤ hi) (h : mapWf resetWord m = true) (hi' : mapWf resetWord img = true) :
    mapWf resetWord (windowReset m img lo hi) = true := by
  unfold windowReset mapWf at *
  rw [List.append_assoc]
  refine append_wfFrom _ _ _ (k := lo) (filter_wfFrom _ _ _ h) ?_ (Nat.zero_le _) ?_
  · intro x hx; simpa using (List.mem_filter.1 hx).2
  · refine append_wfFrom _ _ _ (k := hi) ?_ ?_ hl (filter_ge_wfFrom _ _ _ h)
    · have e : (fun r : Nat × Word => decide (lo ≤ r.1 ∧ r.1 < hi)) = fun r => (decide (r.1 < hi) && decide (lo ≤ r.1)) := by
        funext r; by_cases a : lo ≤ r.1 <;> by_cases b : r.1 < hi <;> simp [a, b]
      rw [e, ← List.filter_filter]
      exact filter_wfFrom _ _ _ (filter_ge_wfFrom _ _ _ hi')
    · intro x hx; have := (List.mem_filter.1 hx).2; simp at this; omega

theorem State.regsReset_keeps (s : State) (lo len : Nat) : Keeps 7 s (State.regsReset s lo len) := by
  refine Keeps.with_regs_live_pendSh s _ _ _ (fun h => ?_) (fun h => ?_) <;> simp only [State.wf, Bool.and_eq_true] at h
  · exact windowReset_wf _ _ _ _ (Nat.le_add_right _ _) h.1.1.1.1.1.1.1 h.1.1.1.2
  · exact windowReset_wf _ _ _ _ (Nat.le_add_right _ _) h.1.1.1.1.1.1.2 h.1.1.1.2

theorem State.cstReset_keeps (s : State) : Keeps 2542905851911 s (State.cstReset s) := by
  unfold State.cstReset
  try dsimp only
  repeat' first
    | exact (rfl : (_ : Bool) = _)
    | with_reducible first
      | exact Keeps.refl ..
      | apply Keeps.step (State.regsReset_keeps ..)
      | apply Keeps.step (State.healthFall_keeps ..)
    | with_reducible apply Keeps.step (Keeps.with_cst ..)

theorem State.gnsPowerUp_keeps (s : State) : Keeps 21784376115201 s (State.gnsPowerUp s) := by
  unfold State.gnsPowerUp
  try dsimp only
  repeat' first
    | exact (rfl : (_ : Bool) = _)
    | with_reducible first
      | exact Keeps.refl ..
      | refine Keeps.ite (fun _ => ?_) (fun _ => ?_)
      | apply Keeps.step (State.gnsMode_keeps ..)
      | apply Keeps.step (State.gnsOn_keeps ..)
      | apply Keeps.step (State.modGns_keeps ..)
    | split

theorem State.gnsReset_keeps (s0 : State) (acq : Nat) : Keeps 26199631863815 s0 (State.gnsReset s0 acq) := by
  unfold State.gnsReset
  try dsimp only
  repeat' first
    | exact (rfl : (_ : Bool) = _)
    | exact Shape.lenOf (fun h => by first | (simp only [listMod_length, List.length_map, List.length_mapIdx, List.length_set, List.length_range, List.length_replicate, h.all, mapWf_nil, and_self]; done) | (simp [h.all, mapSet_wf]; done) | (split <;> simp [h.all] <;> done) | (constructor <;> split <;> simp [h.all] <;> done))
    | with_reducible first
      | exact Keeps.refl ..
      | refine Keeps.ite (fun _ => ?_) (fun _ => ?_)
      | apply Keeps.step (State.vaneUnit_keeps ..)
      | apply Keeps.step (State.setF_keeps ..)
      | apply Keeps.step (State.regsReset_keeps ..)
      | apply Keeps.step (State.gnsPowerUp_keeps ..)
      | apply Keeps.step (State.candRound_keeps ..)
    | split
    | with_reducible apply Keeps.step (Keeps.with_srcRes_gns _ _ _ ?_)

theorem State.unitSrcFail_keeps (s : State) (u : TiuId) : Keeps 2542621786113 s (State.unitSrcFail s u) := by
  unfold State.unitSrcFail
  try dsimp only
  repeat' first
    | exact (rfl : (_ : Bool) = _)
    | with_reducible first
      | exact Keeps.refl ..
      | assumption
      | apply Keeps.step (State.setB_keeps ..)
      | apply Keeps.step (State.abandon_keeps ..)
      | apply Keeps.step (State.alignLost_keeps ..)
    | split

theorem State.failSource_keeps (s : State) (x : EdgeSrc) : Keeps 8607405023233 s (State.failSource s x) := by
  unfold State.failSource
  try dsimp only
  repeat' first
    | exact (rfl : (_ : Bool) = _)
    | with_reducible first
      | exact Keeps.refl ..
      | assumption
      | apply Keeps.step (State.unitSrcFail_keeps ..)
      | apply Keeps.step (State.memberEval_keeps ..)
    | split

theorem State.modMonitor_keeps (s : State) (x : EdgeSrc) (g : Monitor → Monitor) : Keeps 16384 s (State.modMonitor s x g) := by
  unfold State.modMonitor
  try dsimp only
  repeat' first
    | exact (rfl : (_ : Bool) = _)
    | exact Shape.lenOf (fun h => by first | (simp only [listMod_length, List.length_map, List.length_mapIdx, List.length_set, List.length_range, List.length_replicate, h.all, mapWf_nil, and_self]; done) | (simp [h.all, mapSet_wf]; done) | (split <;> simp [h.all] <;> done) | (constructor <;> split <;> simp [h.all] <;> done))
    | with_reducible first
      | exact Keeps.refl ..
    | with_reducible apply Keeps.step (Keeps.with_monitors _ _ ?_)

theorem State.inputsReset_keeps (s : State) (xs : List EdgeSrc) : Keeps 8607405039617 s (State.inputsReset s xs) := by
  unfold State.inputsReset
  try dsimp only
  repeat' first
    | exact (rfl : (_ : Bool) = _)
    | with_reducible first
      | exact Keeps.refl ..
      | assumption
      | apply Keeps.step (State.failSource_keeps ..)
      | apply Keeps.step (State.modMonitor_keeps ..)
      | refine Keeps.foldl _ _ ?_ (fun _ _ _ => ?_)

theorem State.modLane_keeps (s : State) (m : Nat) (g : LaneRt → LaneRt) : Keeps 524288 s (State.modLane s m g) := by
  unfold State.modLane
  try dsimp only
  repeat' first
    | exact (rfl : (_ : Bool) = _)
    | exact Shape.lenOf (fun h => by first | (simp only [listMod_length, List.length_map, List.length_mapIdx, List.length_set, List.length_range, List.length_replicate, h.all, mapWf_nil, and_self]; done) | (simp [h.all, mapSet_wf]; done) | (split <;> simp [h.all] <;> done) | (constructor <;> split <;> simp [h.all] <;> done))
    | with_reducible first
      | exact Keeps.refl ..
    | with_reducible apply Keeps.step (Keeps.with_lanes _ _ ?_)

theorem State.eyeAbort_keeps (s : State) (m : Nat) : Keeps 6940667674625 s (State.eyeAbort s m) := by
  unfold State.eyeAbort
  try dsimp only
  repeat' first
    | exact (rfl : (_ : Bool) = _)
    | with_reducible first
      | exact Keeps.refl ..
      | assumption
      | refine Keeps.ite (fun _ => ?_) (fun _ => ?_)
      | apply Keeps.step (State.setB_keeps ..)
      | apply Keeps.step (State.irq_keeps ..)
      | apply Keeps.step (State.modLane_keeps ..)
      | apply Keeps.step (State.wrN_keeps ..)
      | apply Keeps.step (State.raise_keeps ..)
      | apply Keeps.step (State.takeFree_keeps ..)
      | apply Keeps.step (Keeps.ofSnd ‹_› (State.takeFree_keeps ..))
    | split

theorem State.genCount_keeps (s : State) (m : Nat) : Keeps 524289 s (State.genCount s m) := by
  unfold State.genCount
  try dsimp only
  repeat' first
    | exact (rfl : (_ : Bool) = _)
    | with_reducible first
      | exact Keeps.refl ..
      | refine Keeps.ite (fun _ => ?_) (fun _ => ?_)
      | apply Keeps.step (State.countSat_keeps ..)
      | apply Keeps.step (State.modLane_keeps ..)
    | split

theorem State.genStart_keeps (s0 : State) (s : State) (m : Nat) : Keeps 524288 s (State.genStart s0 s m) := by
  unfold State.genStart
  try dsimp only
  repeat' first
    | exact (rfl : (_ : Bool) = _)
    | with_reducible first
      | exact Keeps.refl ..
      | refine Keeps.ite (fun _ => ?_) (fun _ => ?_)
      | apply Keeps.step (State.modLane_keeps ..)
    | split

theorem State.laneBits_keeps (s : State) (m : Nat) (st : Nat) : Keeps 1 s (State.laneBits s m st) := by
  unfold State.laneBits
  try dsimp only
  repeat' first
    | exact (rfl : (_ : Bool) = _)
    | with_reducible first
      | exact Keeps.refl ..
      | apply Keeps.step (State.setB_keeps ..)

theorem State.chkCount_keeps (s : State) (m : Nat) : Keeps 524288 s (State.chkCount s m) := by
  unfold State.chkCount
  try dsimp only
  repeat' first
    | exact (rfl : (_ : Bool) = _)
    | with_reducible first
      | exact Keeps.refl ..
      | refine Keeps.ite (fun _ => ?_) (fun _ => ?_)
      | apply Keeps.step (State.modLane_keeps ..)
    | split

theorem State.chkStop_keeps (s : State) (m : Nat) : Keeps 524289 s (State.chkStop s m) := by
  unfold State.chkStop
  try dsimp only
  repeat' first
    | exact (rfl : (_ : Bool) = _)
    | with_reducible first
      | exact Keeps.refl ..
      | apply Keeps.step (State.setB_keeps ..)
      | apply Keeps.step (State.chkCount_keeps ..)

theorem State.lockChg_keeps (s : State) (m : Nat) : Keeps 2473901162497 s (State.lockChg s m) := by
  unfold State.lockChg
  try dsimp only
  repeat' first
    | exact (rfl : (_ : Bool) = _)
    | with_reducible first
      | exact Keeps.refl ..
      | apply Keeps.step (State.setB_keeps ..)
      | apply Keeps.step (State.irq_keeps ..)

theorem State.modCli_keeps (s : State) (k : Nat) (g : Client → Client) : Keeps 134217728 s (State.modCli s k g) := by
  unfold State.modCli
  try dsimp only
  repeat' first
    | exact (rfl : (_ : Bool) = _)
    | exact Shape.lenOf (fun h => by first | (simp only [listMod_length, List.length_map, List.length_mapIdx, List.length_set, List.length_range, List.length_replicate, h.all, mapWf_nil, and_self]; done) | (simp [h.all, mapSet_wf]; done) | (split <;> simp [h.all] <;> done) | (constructor <;> split <;> simp [h.all] <;> done))
    | with_reducible first
      | exact Keeps.refl ..
    | with_reducible apply Keeps.step (Keeps.with_pkt _ _ ?_)

theorem State.setCli_keeps (s : State) (k : Nat) (st : Nat) : Keeps 8607403876353 s (State.setCli s k st) := by
  unfold State.setCli
  try dsimp only
  repeat' first
    | exact (rfl : (_ : Bool) = _)
    | with_reducible first
      | exact Keeps.refl ..
      | refine Keeps.ite (fun _ => ?_) (fun _ => ?_)
      | apply Keeps.step (State.irq_keeps ..)
      | apply Keeps.step (State.setF_keeps ..)
      | apply Keeps.step (State.candRound_keeps ..)
    | split

theorem State.cliPortDown_keeps (s : State) (p : Nat) : Keeps 8607538094081 s (State.cliPortDown s p) := by
  unfold State.cliPortDown
  try dsimp only
  repeat' first
    | exact (rfl : (_ : Bool) = _)
    | with_reducible first
      | exact Keeps.refl ..
      | assumption
      | refine Keeps.ite (fun _ => ?_) (fun _ => ?_)
      | apply Keeps.step (State.modCli_keeps ..)
      | apply Keeps.step (State.setCli_keeps ..)
      | refine Keeps.foldl _ _ ?_ (fun _ _ _ => ?_)
    | split

theorem State.leaveUp_keeps (s : State) (p : Nat) (cause : Option Nat) : Keeps 26199791247361 s (State.leaveUp s p cause) := by
  unfold State.leaveUp
  try dsimp only
  repeat' first
    | exact (rfl : (_ : Bool) = _)
    | with_reducible first
      | exact Keeps.refl ..
      | assumption
      | refine Keeps.ite (fun _ => ?_) (fun _ => ?_)
      | apply Keeps.step (State.modPort_keeps ..)
      | apply Keeps.step (State.setF_keeps ..)
      | apply Keeps.step (State.wr_keeps ..)
      | apply Keeps.step (State.cliPortDown_keeps ..)
      | apply Keeps.step (State.raise_keeps ..)
      | apply Keeps.step (State.macCount_keeps ..)
      | apply Keeps.step (State.txDrop_keeps ..)
    | split

theorem State.setPortSt_keeps (s : State) (p : Nat) (st : Nat) : Keeps 2473901162497 s (State.setPortSt s p st) := by
  unfold State.setPortSt
  try dsimp only
  repeat' first
    | exact (rfl : (_ : Bool) = _)
    | with_reducible first
      | exact Keeps.refl ..
      | refine Keeps.ite (fun _ => ?_) (fun _ => ?_)
      | apply Keeps.step (State.setB_keeps ..)
      | apply Keeps.step (State.irq_keeps ..)
      | apply Keeps.step (State.setF_keeps ..)
    | split

theorem State.portTo_keeps (s : State) (p : Nat) (st : Nat) (cause : Option Nat) : Keeps 26199791247361 s (State.portTo s p st cause) := by
  unfold State.portTo
  try dsimp only
  repeat' first
    | exact (rfl : (_ : Bool) = _)
    | with_reducible first
      | exact Keeps.refl ..
      | refine Keeps.ite (fun _ => ?_) (fun _ => ?_)
      | apply Keeps.step (State.leaveUp_keeps ..)
      | apply Keeps.step (State.setPortSt_keeps ..)
    | split

theorem State.portLaneLost_keeps (s : State) (p : Nat) : Keeps 26199791247361 s (State.portLaneLost s p) := by
  unfold State.portLaneLost
  try dsimp only
  repeat' first
    | exact (rfl : (_ : Bool) = _)
    | with_reducible first
      | exact Keeps.refl ..
      | refine Keeps.ite (fun _ => ?_) (fun _ => ?_)
      | apply Keeps.step (State.portTo_keeps ..)
    | split

theorem State.portStep_keeps (s : State) (p : Nat) : Keeps 26199791247361 s (State.portStep s p) := by
  unfold State.portStep
  try dsimp only
  repeat' first
    | exact (rfl : (_ : Bool) = _)
    | with_reducible first
      | exact Keeps.refl ..
      | refine Keeps.ite (fun _ => ?_) (fun _ => ?_)
      | apply Keeps.step (State.modPort_keeps ..)
      | apply Keeps.step (State.setPortSt_keeps ..)
      | apply Keeps.step (State.portLaneLost_keeps ..)
      | apply Keeps.step (State.portTo_keeps ..)
    | split

theorem State.portEval_keeps (s : State) (p : Nat) : Keeps 26199791247361 s (State.portEval s p) := by
  unfold State.portEval
  try dsimp only
  repeat' first
    | exact (rfl : (_ : Bool) = _)
    | with_reducible first
      | exact Keeps.refl ..
      | assumption
      | apply Keeps.step (State.portStep_keeps ..)
      | refine Keeps.foldl _ _ ?_ (fun _ _ _ => ?_)

theorem State.laneLeft_keeps (s : State) (s0 : State) (m : Nat) : Keeps 26199792918529 s (State.laneLeft s s0 m) := by
  unfold State.laneLeft
  try dsimp only
  repeat' first
    | exact (rfl : (_ : Bool) = _)
    | with_reducible first
      | exact Keeps.refl ..
      | assumption
      | refine Keeps.ite (fun _ => ?_) (fun _ => ?_)
      | apply Keeps.step (State.countSat_keeps ..)
      | apply Keeps.step (State.lockChg_keeps ..)
      | apply Keeps.step (State.chkStop_keeps ..)
      | apply Keeps.step (State.unitSrcFail_keeps ..)
      | apply Keeps.step (State.candRound_keeps ..)
      | apply Keeps.step (State.portEval_keeps ..)
    | split

theorem State.txeqNow_keeps (s : State) (m : Nat) : Keeps 1 s (State.txeqNow s m) := by
  unfold State.txeqNow
  try dsimp only
  repeat' first
    | exact (rfl : (_ : Bool) = _)
    | with_reducible first
      | exact Keeps.refl ..
      | refine Keeps.ite (fun _ => ?_) (fun _ => ?_)
      | apply Keeps.step (State.wr_keeps ..)
    | split

theorem State.laneTo_keeps (s0 : State) (m : Nat) (st : Nat) : Keeps 26199792918529 s0 (State.laneTo s0 m st) := by
  unfold State.laneTo
  try dsimp only
  repeat' first
    | exact (rfl : (_ : Bool) = _)
    | with_reducible first
      | exact Keeps.refl ..
      | refine Keeps.ite (fun _ => ?_) (fun _ => ?_)
      | apply Keeps.step (State.genCount_keeps ..)
      | apply Keeps.step (State.setF_keeps ..)
      | apply Keeps.step (State.laneBits_keeps ..)
      | apply Keeps.step (State.modLane_keeps ..)
      | apply Keeps.step (State.wr_keeps ..)
      | apply Keeps.step (State.genStart_keeps ..)
      | apply Keeps.step (State.eyeAbort_keeps ..)
      | apply Keeps.step (State.txeqNow_keeps ..)
      | apply Keeps.step (State.laneLeft_keeps ..)
    | split

theorem State.laneLp_keeps (s : State) (m : Nat) : Keeps 26199792918529 s (State.laneLp s m) := by
  unfold State.laneLp
  try dsimp only
  repeat' first
    | exact (rfl : (_ : Bool) = _)
    | with_reducible first
      | exact Keeps.refl ..
      | refine Keeps.ite (fun _ => ?_) (fun _ => ?_)
      | apply Keeps.step (State.laneTo_keeps ..)
    | split

theorem State.laneCtl_keeps (s : State) (m : Nat) (old : Word) (restart : Bool) : Keeps 26199792918529 s (State.laneCtl s m old restart) := by
  unfold State.laneCtl
  try dsimp only
  repeat' first
    | exact (rfl : (_ : Bool) = _)
    | with_reducible first
      | exact Keeps.refl ..
      | refine Keeps.ite (fun _ => ?_) (fun _ => ?_)
      | apply Keeps.step (State.laneLp_keeps ..)
      | apply Keeps.step (State.laneTo_keeps ..)
      | apply Keeps.step (State.portEval_keeps ..)
    | split

theorem State.lanesReset_keeps (s : State) (ms : List Nat) : Keeps 26199792918535 s (State.lanesReset s ms) := by
  unfold State.lanesReset
  try dsimp only
  repeat' first
    | exact (rfl : (_ : Bool) = _)
    | with_reducible first
      | exact Keeps.refl ..
      | assumption
      | apply Keeps.step (State.modLane_keeps ..)
      | apply Keeps.step (State.laneCtl_keeps ..)
      | apply Keeps.step (State.laneTo_keeps ..)
      | apply Keeps.step (State.regsReset_keeps ..)
      | refine Keeps.foldl _ _ ?_ (fun _ _ _ => ?_)

theorem State.modTnd_keeps (s : State) (g : Tnd → Tnd) : Keeps 16777216 s (State.modTnd s g) := by
  unfold State.modTnd
  try dsimp only
  repeat' first
    | exact (rfl : (_ : Bool) = _)
    | with_reducible first
      | exact Keeps.refl ..
    | with_reducible apply Keeps.step (Keeps.with_tnd ..)

theorem State.spareFrom_keeps (s : State) : Keeps 17301504 s (State.spareFrom s) := by
  unfold State.spareFrom
  try dsimp only
  repeat' first
    | exact (rfl : (_ : Bool) = _)
    | with_reducible first
      | exact Keeps.refl ..
      | apply Keeps.step (State.modLane_keeps ..)
      | apply Keeps.step (State.chkCount_keeps ..)
      | apply Keeps.step (State.modTnd_keeps ..)

theorem State.tndTest_keeps (s : State) (m : Nat) (on : Bool) : Keeps 26199792918529 s (State.tndTest s m on) := by
  unfold State.tndTest
  try dsimp only
  repeat' first
    | exact (rfl : (_ : Bool) = _)
    | with_reducible first
      | exact Keeps.refl ..
      | refine Keeps.ite (fun _ => ?_) (fun _ => ?_)
      | apply Keeps.step (State.setB_keeps ..)
      | apply Keeps.step (State.genCount_keeps ..)
      | apply Keeps.step (State.setF_keeps ..)
      | apply Keeps.step (State.laneCtl_keeps ..)
      | apply Keeps.step (State.chkStop_keeps ..)
      | apply Keeps.step (State.genStart_keeps ..)
    | split

theorem State.spareTest_keeps (s : State) : Keeps 26199792918529 s (State.spareTest s) := by
  unfold State.spareTest
  try dsimp only
  repeat' first
    | exact (rfl : (_ : Bool) = _)
    | with_reducible first
      | exact Keeps.refl ..
      | apply Keeps.step (State.tndTest_keeps ..)

theorem State.laneSwap_keeps (s : State) (x : Nat) : Keeps 26199792918529 s (State.laneSwap s x) := by
  unfold State.laneSwap
  try dsimp only
  repeat' first
    | exact (rfl : (_ : Bool) = _)
    | with_reducible first
      | exact Keeps.refl ..
      | apply Keeps.step (State.setB_keeps ..)
      | apply Keeps.step (State.irq_keeps ..)
      | apply Keeps.step (State.spareFrom_keeps ..)
      | apply Keeps.step (State.setF_keeps ..)
      | apply Keeps.step (State.raise_keeps ..)
      | apply Keeps.step (State.healthFall_keeps ..)
      | apply Keeps.step (State.spareTest_keeps ..)
      | apply Keeps.step (State.modTnd_keeps ..)

theorem State.linkEmit_keeps (s : State) (f : LinkFrame) : Keeps 2199023255552 s (State.linkEmit s f) := by
  unfold State.linkEmit
  try dsimp only
  repeat' first
    | exact (rfl : (_ : Bool) = _)
    | with_reducible first
      | exact Keeps.refl ..
      | refine Keeps.ite (fun _ => ?_) (fun _ => ?_)
      | apply Keeps.step (State.emit_keeps ..)
    | split

theorem State.linkAfresh_keeps (s : State) : Keeps 2199040032768 s (State.linkAfresh s) := by
  unfold State.linkAfresh
  try dsimp only
  repeat' first
    | exact (rfl : (_ : Bool) = _)
    | with_reducible first
      | exact Keeps.refl ..
      | assumption
      | apply Keeps.step (State.linkEmit_keeps ..)
      | apply Keeps.step (State.modTnd_keeps ..)
      | refine Keeps.foldl _ _ ?_ (fun _ _ _ => ?_)

theorem State.linkTo_keeps (s0 : State) (st : Nat) : Keeps 26199792918529 s0 (State.linkTo s0 st) := by
  unfold State.linkTo
  try dsimp only
  repeat' first
    | exact (rfl : (_ : Bool) = _)
    | with_reducible first
      | exact Keeps.refl ..
      | apply Keeps.step (State.setB_keeps ..)
      | apply Keeps.step (State.irq_keeps ..)
      | apply Keeps.step (State.setF_keeps ..)
      | apply Keeps.step (State.healthFall_keeps ..)
      | apply Keeps.step (State.modTnd_keeps ..)
      | apply Keeps.step (State.tndAlign_keeps ..)
      | apply Keeps.step (State.tndTest_keeps ..)
      | apply Keeps.step (State.candRound_keeps ..)

theorem State.linkDown_keeps (s : State) : Keeps 26199792918529 s (State.linkDown s) := by
  unfold State.linkDown
  try dsimp only
  repeat' first
    | exact (rfl : (_ : Bool) = _)
    | with_reducible first
      | exact Keeps.refl ..
      | apply Keeps.step (State.raise_keeps ..)
      | apply Keeps.step (State.linkTo_keeps ..)

theorem State.linkHello_keeps (s : State) : Keeps 26199792918529 s (State.linkHello s) := by
  unfold State.linkHello
  try dsimp only
  repeat' first
    | exact (rfl : (_ : Bool) = _)
    | with_reducible first
      | exact Keeps.refl ..
      | refine Keeps.ite (fun _ => ?_) (fun _ => ?_)
      | apply Keeps.step (State.irq_keeps ..)
      | apply Keeps.step (State.spareFrom_keeps ..)
      | apply Keeps.step (State.setF_keeps ..)
      | apply Keeps.step (State.spareTest_keeps ..)
      | apply Keeps.step (State.takeFree_keeps ..)
      | apply Keeps.step (Keeps.ofSnd ‹_› (State.takeFree_keeps ..))
      | apply Keeps.step (State.modTnd_keeps ..)
    | split

theorem State.linkEval_keeps (s : State) : Keeps 26199792918529 s (State.linkEval s) := by
  unfold State.linkEval
  try dsimp only
  repeat' first
    | exact (rfl : (_ : Bool) = _)
    | with_reducible first
      | exact Keeps.refl ..
      | refine Keeps.ite (fun _ => ?_) (fun _ => ?_)
      | apply Keeps.step (State.linkHello_keeps ..)
      | apply Keeps.step (State.linkDown_keeps ..)
      | apply Keeps.step (State.linkAfresh_keeps ..)
      | apply Keeps.step (State.laneSwap_keeps ..)
      | apply Keeps.step (State.linkTo_keeps ..)
      | apply Keeps.step (State.modTnd_keeps ..)
    | split

theorem State.loElig_keeps (s : State) (m : Fin 4) : Keeps 1 s (State.loElig s m) := by
  unfold State.loElig
  try dsimp only
  repeat' first
    | exact (rfl : (_ : Bool) = _)
    | with_reducible first
      | exact Keeps.refl ..
      | apply Keeps.step (State.setB_keeps ..)

theorem State.portDrain_keeps (s : State) (p : Nat) : Keeps 67108865 s (State.portDrain s p) := by
  unfold State.portDrain
  try dsimp only
  repeat' first
    | exact (rfl : (_ : Bool) = _)
    | with_reducible first
      | exact Keeps.refl ..
      | assumption
      | refine Keeps.ite (fun _ => ?_) (fun _ => ?_)
      | apply Keeps.step (State.modPort_keeps ..)
      | apply Keeps.step (State.flightOut_keeps ..)
      | apply Keeps.step (State.macCount_keeps ..)
      | refine Keeps.foldl _ _ ?_ (fun _ _ _ => ?_)
    | split

theorem State.mtxErr_keeps (s : State) (kind : Nat) (master : Nat) (addr : Nat) : Keeps 2542620639233 s (State.mtxErr s kind master addr) := by
  unfold State.mtxErr
  try dsimp only
  repeat' first
    | exact (rfl : (_ : Bool) = _)
    | with_reducible first
      | exact Keeps.refl ..
      | refine Keeps.ite (fun _ => ?_) (fun _ => ?_)
      | apply Keeps.step (State.irq_keeps ..)
      | apply Keeps.step (State.wr64_keeps ..)
      | apply Keeps.step (State.wrN_keeps ..)
      | apply Keeps.step (State.raise_keeps ..)
    | split

theorem State.txHalt_keeps (s : State) (p : Nat) (i : Nat) : Keeps 2542687748097 s (State.txHalt s p i) := by
  unfold State.txHalt
  try dsimp only
  repeat' first
    | exact (rfl : (_ : Bool) = _)
    | with_reducible first
      | exact Keeps.refl ..
      | refine Keeps.ite (fun _ => ?_) (fun _ => ?_)
      | apply Keeps.step (State.modPort_keeps ..)
      | apply Keeps.step (State.setB_keeps ..)
      | apply Keeps.step (State.irq_keeps ..)
      | apply Keeps.step (State.raise_keeps ..)
    | split

theorem State.hostWrite_keeps (s : State) (m : Nat) (a : Nat) (l : List Byte) : Keeps 2748779069440 s (State.hostWrite s m a l) := by
  unfold State.hostWrite
  try dsimp only
  repeat' first
    | exact (rfl : (_ : Bool) = _)
    | with_reducible first
      | exact Keeps.refl ..
      | apply Keeps.step (State.tallyAdd_keeps ..)
      | apply Keeps.step (State.emit_keeps ..)

theorem State.txWriteBack_keeps (s : State) (p : Nat) (b : TxBack) : Keeps 2748779069440 s (State.txWriteBack s p b) := by
  unfold State.txWriteBack
  try dsimp only
  repeat' first
    | exact (rfl : (_ : Bool) = _)
    | with_reducible first
      | exact Keeps.refl ..
      | assumption
      | refine Keeps.ite (fun _ => ?_) (fun _ => ?_)
      | apply Keeps.step (State.hostWrite_keeps ..)
      | refine Keeps.foldl _ _ ?_ (fun _ _ _ => ?_)
    | split

theorem State.txFlush_keeps (s : State) (p : Nat) (bad : Option Nat) : Keeps 3092443561985 s (State.txFlush s p bad) := by
  unfold State.txFlush
  try dsimp only
  repeat' first
    | exact (rfl : (_ : Bool) = _)
    | with_reducible first
      | exact Keeps.refl ..
      | assumption
      | apply Keeps.step (State.modPort_keeps ..)
      | apply Keeps.step (State.txWriteBack_keeps ..)
      | apply Keeps.step (State.mtxErr_keeps ..)
      | apply Keeps.step (State.txHalt_keeps ..)
      | refine Keeps.foldl _ _ ?_ (fun _ _ _ => ?_)
    | split

theorem State.macReset_keeps (s : State) : Keeps 26199791247367 s (State.macReset s) := by
  unfold State.macReset
  try dsimp only
  repeat' first
    | exact (rfl : (_ : Bool) = _)
    | with_reducible first
      | exact Keeps.refl ..
      | assumption
      | apply Keeps.step (State.modPort_keeps ..)
      | apply Keeps.step (State.portDrain_keeps ..)
      | apply Keeps.step (State.txFlush_keeps ..)
      | apply Keeps.step (State.regsReset_keeps ..)
      | apply Keeps.step (State.portTo_keeps ..)
      | apply Keeps.step (State.portEval_keeps ..)
      | refine Keeps.foldl _ _ ?_ (fun _ _ _ => ?_)

theorem State.chanReset_keeps (s : State) (i : Nat) : Keeps 4096 s (State.chanReset s i) := by
  unfold State.chanReset
  try dsimp only
  repeat' first
    | exact (rfl : (_ : Bool) = _)
    | exact Shape.lenOf (fun h => by first | (simp only [listMod_length, List.length_map, List.length_mapIdx, List.length_set, List.length_range, List.length_replicate, h.all, mapWf_nil, and_self]; done) | (simp [h.all, mapSet_wf]; done) | (split <;> simp [h.all] <;> done) | (constructor <;> split <;> simp [h.all] <;> done))
    | with_reducible first
      | exact Keeps.refl ..
    | with_reducible apply Keeps.step (Keeps.with_chans _ _ ?_)

theorem State.waveRestart_keeps (s : State) (j : Nat) : Keeps 2542620901377 s (State.waveRestart s j) := by
  unfold State.waveRestart
  try dsimp only
  repeat' first
    | exact (rfl : (_ : Bool) = _)
    | with_reducible first
      | exact Keeps.refl ..
      | refine Keeps.ite (fun _ => ?_) (fun _ => ?_)
      | apply Keeps.step (State.drive_keeps ..)
      | apply Keeps.step (State.setWaves_keeps ..)
    | split

theorem State.outReset_keeps (s : State) : Keeps 2542640828423 s (State.outReset s) := by
  unfold State.outReset
  try dsimp only
  repeat' first
    | exact (rfl : (_ : Bool) = _)
    | exact Shape.lenOf (fun h => by first | (simp only [listMod_length, List.length_map, List.length_mapIdx, List.length_set, List.length_range, List.length_replicate, h.all, mapWf_nil, and_self]; done) | (simp [h.all, mapSet_wf]; done) | (split <;> simp [h.all] <;> done) | (constructor <;> split <;> simp [h.all] <;> done))
    | with_reducible first
      | exact Keeps.refl ..
      | assumption
      | apply Keeps.step (State.chanReset_keeps ..)
      | apply Keeps.step (State.waveRestart_keeps ..)
      | apply Keeps.step (State.regsReset_keeps ..)
      | apply Keeps.step (State.healthFall_keeps ..)
      | refine Keeps.foldl _ _ ?_ (fun _ _ _ => ?_)
    | with_reducible apply Keeps.step (Keeps.with_pps_tod _ _ _ ?_ ?_)

theorem State.pktReset_keeps (s : State) : Keeps 8607613591559 s (State.pktReset s) := by
  unfold State.pktReset
  try dsimp only
  repeat' first
    | exact (rfl : (_ : Bool) = _)
    | exact Shape.lenOf (fun h => by first | (simp only [listMod_length, List.length_map, List.length_mapIdx, List.length_set, List.length_range, List.length_replicate, h.all, mapWf_nil, and_self]; done) | (simp [h.all, mapSet_wf]; done) | (split <;> simp [h.all] <;> done) | (constructor <;> split <;> simp [h.all] <;> done))
    | with_reducible first
      | exact Keeps.refl ..
      | assumption
      | refine Keeps.ite (fun _ => ?_) (fun _ => ?_)
      | apply Keeps.step (State.setB_keeps ..)
      | apply Keeps.step (State.portDrain_keeps ..)
      | apply Keeps.step (State.regsReset_keeps ..)
      | apply Keeps.step (State.setCli_keeps ..)
      | refine Keeps.foldl _ _ ?_ (fun _ _ _ => ?_)
    | split
    | with_reducible apply Keeps.step (Keeps.with_srcRes_mac_pkt _ _ _ _ ?_ ?_ ?_)

theorem State.ueffEval_keeps (s : State) (c : Nat) : Keeps 1 s (State.ueffEval s c) := by
  unfold State.ueffEval
  try dsimp only
  repeat' first
    | exact (rfl : (_ : Bool) = _)
    | with_reducible first
      | exact Keeps.refl ..
      | apply Keeps.step (State.wrN_keeps ..)

theorem State.ctlIn_keeps (s : State) (c : Nat) : Keeps 1 s (State.ctlIn s c) := by
  unfold State.ctlIn
  try dsimp only
  repeat' first
    | exact (rfl : (_ : Bool) = _)
    | with_reducible first
      | exact Keeps.refl ..
      | refine Keeps.ite (fun _ => ?_) (fun _ => ?_)
      | apply Keeps.step (State.setF_keeps ..)
      | apply Keeps.step (State.ueffEval_keeps ..)
    | split

theorem State.selReset_keeps (s : State) : Keeps 8607403876359 s (State.selReset s) := by
  unfold State.selReset
  try dsimp only
  repeat' first
    | exact (rfl : (_ : Bool) = _)
    | with_reducible first
      | exact Keeps.refl ..
      | assumption
      | refine Keeps.ite (fun _ => ?_) (fun _ => ?_)
      | apply Keeps.step (State.setB_keeps ..)
      | apply Keeps.step (State.ctlIn_keeps ..)
      | apply Keeps.step (State.regsReset_keeps ..)
      | apply Keeps.step (State.toQualifying_keeps ..)
      | apply Keeps.step (State.selEval_keeps ..)
      | refine Keeps.foldl _ _ ?_ (fun _ _ _ => ?_)
    | split

theorem State.guardFree_keeps (s : State) (k : Nat) : Keeps 6940667150337 s (State.guardFree s k) := by
  unfold State.guardFree
  try dsimp only
  repeat' first
    | exact (rfl : (_ : Bool) = _)
    | with_reducible first
      | exact Keeps.refl ..
      | assumption
      | refine Keeps.ite (fun _ => ?_) (fun _ => ?_)
      | refine Keeps.forMapped (fun _ _ _ => ?_) ?_
      | apply Keeps.step (State.guardCount_keeps ..)
      | apply Keeps.step (State.takeFree_keeps ..)
      | apply Keeps.step (Keeps.ofSnd ‹_› (State.takeFree_keeps ..))
    | split

theorem State.synSearch_keeps (s : State) (k : Nat) : Keeps 2542637809665 s (State.synSearch s k) := by
  unfold State.synSearch
  try dsimp only
  repeat' first
    | exact (rfl : (_ : Bool) = _)
    | with_reducible first
      | exact Keeps.refl ..
      | apply Keeps.step (State.setF_keeps ..)
      | apply Keeps.step (State.synAligned_keeps ..)
      | apply Keeps.step (State.modSyn_keeps ..)
      | apply Keeps.step (State.synEnter_keeps ..)

theorem State.synReset_keeps (s : State) : Keeps 6940684324871 s (State.synReset s) := by
  unfold State.synReset
  try dsimp only
  repeat' first
    | exact (rfl : (_ : Bool) = _)
    | exact Shape.lenOf (fun h => by first | (simp only [listMod_length, List.length_map, List.length_mapIdx, List.length_set, List.length_range, List.length_replicate, h.all, mapWf_nil, and_self]; done) | (simp [h.all, mapSet_wf]; done) | (split <;> simp [h.all] <;> done) | (constructor <;> split <;> simp [h.all] <;> done))
    | with_reducible first
      | exact Keeps.refl ..
      | assumption
      | refine Keeps.ite (fun _ => ?_) (fun _ => ?_)
      | apply Keeps.step (State.chanReset_keeps ..)
      | apply Keeps.step (State.synSearch_keeps ..)
      | apply Keeps.step (State.regsReset_keeps ..)
      | apply Keeps.step (State.synAligned_keeps ..)
      | apply Keeps.step (State.synEnter_keeps ..)
      | apply Keeps.step (State.guardFree_keeps ..)
      | refine Keeps.foldl _ _ ?_ (fun _ _ _ => ?_)
    | split
    | with_reducible apply Keeps.step (Keeps.with_syns _ _ ?_)

theorem State.unitsReset_keeps (s : State) (us : List TiuId) : Keeps 98304 s (State.unitsReset s us) := by
  unfold State.unitsReset
  try dsimp only
  repeat' first
    | exact (rfl : (_ : Bool) = _)
    | with_reducible first
      | exact Keeps.refl ..
      | assumption
      | apply Keeps.step (State.modUnit_keeps ..)
      | refine Keeps.foldl _ _ ?_ (fun _ _ _ => ?_)

theorem State.tiuPReset_keeps (s : State) (ks : List (Fin 12)) : Keeps 98305 s (State.tiuPReset s ks) := by
  unfold State.tiuPReset
  try dsimp only
  repeat' first
    | exact (rfl : (_ : Bool) = _)
    | with_reducible first
      | exact Keeps.refl ..
      | assumption
      | apply Keeps.step (State.vaneUnit_keeps ..)
      | apply Keeps.step (State.setB_keeps ..)
      | apply Keeps.step (State.unitsReset_keeps ..)
      | refine Keeps.foldl _ _ ?_ (fun _ _ _ => ?_)

theorem State.setRole_keeps (s0 : State) (r : Nat) : Keeps 8607403876353 s0 (State.setRole s0 r) := by
  unfold State.setRole
  try dsimp only
  repeat' first
    | exact (rfl : (_ : Bool) = _)
    | with_reducible first
      | exact Keeps.refl ..
      | refine Keeps.ite (fun _ => ?_) (fun _ => ?_)
      | apply Keeps.step (State.irq_keeps ..)
      | apply Keeps.step (State.setF_keeps ..)
      | apply Keeps.step (State.raise_keeps ..)
      | apply Keeps.step (State.healthFall_keeps ..)
      | apply Keeps.step (State.tndAlign_keeps ..)
      | apply Keeps.step (State.count_keeps ..)
      | apply Keeps.step (State.candRound_keeps ..)
    | split

theorem State.tandemUp_keeps (s : State) : Keeps 26199792918529 s (State.tandemUp s) := by
  unfold State.tandemUp
  try dsimp only
  repeat' first
    | exact (rfl : (_ : Bool) = _)
    | with_reducible first
      | exact Keeps.refl ..
      | apply Keeps.step (State.linkEval_keeps ..)
      | apply Keeps.step (State.setF_keeps ..)
      | apply Keeps.step (State.healthFall_keeps ..)
      | apply Keeps.step (State.modTnd_keeps ..)

theorem State.tndReset_keeps (s : State) : Keeps 26199801307143 s (State.tndReset s) := by
  unfold State.tndReset
  try dsimp only
  repeat' first
    | exact (rfl : (_ : Bool) = _)
    | exact Shape.lenOf (fun h => by first | (simp only [listMod_length, List.length_map, List.length_mapIdx, List.length_set, List.length_range, List.length_replicate, h.all, mapWf_nil, and_self]; done) | (simp [h.all, mapSet_wf]; done) | (split <;> simp [h.all] <;> done) | (constructor <;> split <;> simp [h.all] <;> done))
    | with_reducible first
      | exact Keeps.refl ..
      | refine Keeps.ite (fun _ => ?_) (fun _ => ?_)
      | apply Keeps.step (State.setB_keeps ..)
      | apply Keeps.step (State.linkDown_keeps ..)
      | apply Keeps.step (State.setRole_keeps ..)
      | apply Keeps.step (State.regsReset_keeps ..)
      | apply Keeps.step (State.tandemUp_keeps ..)
    | split
    | with_reducible apply Keeps.step (Keeps.with_srcRes_tnd _ _ _ ?_)

theorem State.blockReset_keeps (s : State) (b : Blk) : Keeps 26206279823367 s (State.blockReset s b) := by
  unfold State.blockReset
  try dsimp only
  repeat' first
    | exact (rfl : (_ : Bool) = _)
    | exact Shape.lenOf (fun h => by first | (simp only [listMod_length, List.length_map, List.length_mapIdx, List.length_set, List.length_range, List.length_replicate, h.all, mapWf_nil, and_self]; done) | (simp [h.all, mapSet_wf]; done) | (split <;> simp [h.all] <;> done) | (constructor <;> split <;> simp [h.all] <;> done))
    | with_reducible first
      | exact Keeps.refl ..
      | assumption
      | apply Keeps.step (State.pktReset_keeps ..)
      | apply Keeps.step (State.unitsReset_keeps ..)
      | apply Keeps.step (State.linkEval_keeps ..)
      | apply Keeps.step (State.macReset_keeps ..)
      | apply Keeps.step (State.cstReset_keeps ..)
      | apply Keeps.step (State.selReset_keeps ..)
      | apply Keeps.step (State.gnsReset_keeps ..)
      | apply Keeps.step (State.outReset_keeps ..)
      | apply Keeps.step (State.regsReset_keeps ..)
      | apply Keeps.step (State.tiuPReset_keeps ..)
      | apply Keeps.step (State.lanesReset_keeps ..)
      | apply Keeps.step (State.loElig_keeps ..)
      | apply Keeps.step (State.synReset_keeps ..)
      | apply Keeps.step (State.inputsReset_keeps ..)
      | apply Keeps.step (State.tndReset_keeps ..)
      | apply Keeps.step (State.memberEval_keeps ..)
      | apply Keeps.step (State.candRound_keeps ..)
      | refine Keeps.foldl _ _ ?_ (fun _ _ _ => ?_)
    | split
    | with_reducible apply Keeps.step (Keeps.with_dma _ _ ?_)
    | with_reducible apply Keeps.step (Keeps.with_prf_tally _ _ _ (fun h => ?_))

theorem State.fltLog_keeps (s : State) (m : FaultMsg) (first : Bool) (round : Nat) : Keeps 2551344791553 s (State.fltLog s m first round) := by
  unfold State.fltLog
  extract_lets wr lapped w0 e y x
  have h1 : Keeps 2551344791553 s x := by
    exact Keeps.step (State.wrN_keeps _ _ _) rfl (Keeps.step (Keeps.with_flt s _ fun h => by
      simp only [State.wf, Bool.and_eq_true] at h
      exact mapSet_wf _ _ _ _ h.1.2) rfl (Keeps.refl _ _))
  split
  · exact Keeps.step (State.runRaise_keeps _ _ _ _ _) rfl
      (Keeps.step (State.irq_keeps _ _ _) rfl (Keeps.step (State.countSat_keeps _ _ _ _ _) rfl h1))
  · exact h1

theorem State.fltRecord_keeps (s : State) (o : Nat) (m : FaultMsg) (round : Nat) : Keeps 1 s (State.fltRecord s o m round) := by
  unfold State.fltRecord
  try dsimp only
  repeat' first
    | exact (rfl : (_ : Bool) = _)
    | with_reducible first
      | exact Keeps.refl ..
      | apply Keeps.step (State.wr_keeps ..)
      | apply Keeps.step (State.wrN_keeps ..)

theorem State.fltTake_keeps (s : State) (m : FaultMsg) (round : Nat) : Keeps 2551344791553 s (State.fltTake s m round) := by
  unfold State.fltTake
  try dsimp only
  repeat' first
    | exact (rfl : (_ : Bool) = _)
    | with_reducible first
      | exact Keeps.refl ..
      | refine Keeps.ite (fun _ => ?_) (fun _ => ?_)
      | apply Keeps.step (State.setB_keeps ..)
      | apply Keeps.step (State.countSat_keeps ..)
      | apply Keeps.step (State.irq_keeps ..)
      | apply Keeps.step (State.setF_keeps ..)
      | apply Keeps.step (State.fltLog_keeps ..)
      | apply Keeps.step (State.fltRecord_keeps ..)
    | split

theorem State.bresetIn_keeps (s : State) (b : Blk) (round : Nat) : Keeps 26214869757959 s (State.bresetIn s b round) := by
  unfold State.bresetIn
  dsimp only
  repeat' first
    | exact (rfl : (_ : Bool) = _)
    | with_reducible exact Keeps.refl _ _
    | (with_reducible apply Keeps.step (State.fltTake_keeps _ _ _))
    | (with_reducible apply Keeps.step (State.blockReset_keeps _ _))
    | exact (rfl : (_ : List (Nat × Word × Word × Word × Word)) = _)
    | (with_reducible apply Keeps.step (Keeps.with_flt_log _ _ ?_))

theorem State.burnCut_keeps (s : State) : Keeps 4398583382016 s (State.burnCut s) := by
  unfold State.burnCut
  dsimp only
  refine Keeps.ite (fun _ => ?_) (fun _ => Keeps.refl _ _)
  have e : ∀ (t : State) (x : Img), t.img = s.img → x.regs = s.img.regs → Keeps 536870912 t { t with img := x } :=
    fun t x h k => Keeps.with_img_regs t x (by rw [k, h])
  refine Keeps.step (e _ _ rfl rfl) rfl ?_
  exact Keeps.step (State.takeFree_keeps _ _) rfl (Keeps.step (State.takeFree_keeps _ _) rfl (Keeps.step (State.takeFree_keeps _ _) rfl (Keeps.refl _ _)))

theorem State.restart_keeps (s0 : State) (keep : Nat → Bool) : Keeps 129742372077567 s0 (State.restart s0 keep) := by
  unfold State.restart
  dsimp only
  refine Keeps.step (State.setB_keeps _ _ _ _) rfl ?_
  have h := State.burnCut_keeps s0
  generalize s0.burnCut = s at h
  refine Keeps.step (a := 129742372077567) (t := s) ?_ rfl (Keeps.step h rfl (Keeps.refl _ _))
  refine ⟨fun w => ?_, fun c hc => ?_, fun h => absurd h (by decide), fun h => absurd h (by decide), fun h => ?_⟩
  · simp only [State.wf, Memory.wf, Bool.and_eq_true] at w ⊢
    exact ⟨⟨⟨⟨⟨⟨⟨filter_wf _ _ _ w.1.1.1.1.1.1.1, rfl⟩, rfl⟩, rfl⟩, rfl⟩, rfl⟩, rfl⟩, rfl⟩
  · cases c <;> first | rfl | exact absurd hc (by decide)
  · exact ⟨rfl, rfl, rfl, rfl, rfl, rfl, rfl, rfl, rfl, rfl, rfl, rfl, rfl, rfl, rfl, rfl, rfl, rfl, rfl, h.copyA, h.copyB⟩

theorem State.creset_keeps (s : State) (cause : Nat) (src : Nat) : Keeps 129742372077567 s (State.creset s cause src) := by
  unfold State.creset
  try dsimp only
  repeat' first
    | exact (rfl : (_ : Bool) = _)
    | with_reducible first
      | exact Keeps.refl ..
      | apply Keeps.step (State.setF_keeps ..)
      | apply Keeps.step (State.restart_keeps ..)
      | apply Keeps.step (State.wrN_keeps ..)

theorem State.nmiFor_keeps (s : State) (m : FaultMsg) : Keeps 2276332666881 s (State.nmiFor s m) := by
  unfold State.nmiFor
  try dsimp only
  repeat' first
    | exact (rfl : (_ : Bool) = _)
    | exact (rfl : (_ : List (Nat × Word × Word × Word × Word)) = _)
    | with_reducible first
      | exact Keeps.refl ..
      | refine Keeps.ite (fun _ => ?_) (fun _ => ?_)
      | apply Keeps.step (State.nmi_keeps ..)
    | split
    | with_reducible apply Keeps.step (Keeps.with_flt_log _ _ ?_)

theorem State.fltServe_keeps (s : State) (round : Nat) (cres : Bool) (m : FaultMsg) : Keeps 26214869757959 s (State.fltServe s round cres m) := by
  unfold State.fltServe
  try dsimp only
  repeat' first
    | exact (rfl : (_ : Bool) = _)
    | with_reducible first
      | exact Keeps.refl ..
      | assumption
      | refine Keeps.ite (fun _ => ?_) (fun _ => ?_)
      | apply Keeps.step (State.nmiFor_keeps ..)
      | apply Keeps.step (State.countSat_keeps ..)
      | apply Keeps.step (State.irq_keeps ..)
      | apply Keeps.step (State.fltTake_keeps ..)
      | apply Keeps.step (State.bresetIn_keeps ..)
    | split

/-- The messages and an update of Watch that leaves its log alone. -/
theorem Keeps.with_flt_faults_log (s : State) (x : Watch) (l : List FaultMsg) (h : x.log = s.flt.log) :
    Keeps 35261681500160 s { s with flt := x, faults := l } :=
  Keeps.with_flt_faults s x l (fun w => by simp only [State.wf, Bool.and_eq_true] at w; rw [h]; exact w.1.2)

theorem State.fltRound_keeps (s : State) : Keeps 131941395333119 s (State.fltRound s) := by
  unfold State.fltRound
  refine Keeps.ite (fun _ => Keeps.refl _ _) (fun _ => ?_)
  split
  · exact Keeps.refl _ _
  · rename_i m r he
    extract_lets n batch round s1 cres y s2 s3
    have h1 : Keeps 131941395333119 s s1 := Keeps.step (State.pairAccess_keeps _ _) rfl (Keeps.refl _ _)
    have h2 : Keeps 131941395333119 s s2 := Keeps.step (Keeps.with_flt_faults_log s1 _ _ rfl) rfl h1
    have h3 : Keeps 131941395333119 s s3 := Keeps.foldl _ _ h2 fun x a h => Keeps.step (State.fltServe_keeps _ _ _ _) rfl h
    clear_value s3 cres
    split
    · exact Keeps.step (State.creset_keeps _ _ _) rfl h3
    · exact h3

theorem State.wBreset_keeps (s : State) (v : Word) : Keeps 131941395333119 s (State.wBreset s v) := by
  unfold State.wBreset
  try dsimp only
  repeat' first
    | exact (rfl : (_ : Bool) = _)
    | exact (rfl : (_ : List (Nat × Word × Word × Word × Word)) = _)
    | with_reducible first
      | exact Keeps.refl ..
      | assumption
      | refine Keeps.ite (fun _ => ?_) (fun _ => ?_)
      | apply Keeps.step (State.pairAccess_keeps ..)
      | apply Keeps.step (State.bresetIn_keeps ..)
      | apply Keeps.step (State.fltRound_keeps ..)
      | refine Keeps.foldl _ _ ?_ (fun _ _ _ => ?_)
    | split
    | with_reducible apply Keeps.step (Keeps.with_flt_log _ _ ?_)

theorem State.wCreset_keeps (s : State) (v : Word) : Keeps 131941395333119 s (State.wCreset s v) := by
  unfold State.wCreset
  try dsimp only
  repeat' first
    | exact (rfl : (_ : Bool) = _)
    | with_reducible first
      | exact Keeps.refl ..
      | refine Keeps.ite (fun _ => ?_) (fun _ => ?_)
      | apply Keeps.step (State.cfgBad_keeps ..)
      | apply Keeps.step (State.creset_keeps ..)
    | split

theorem State.wFlt_keeps (s : State) (a : Nat) (v : Word) : Keeps 2542620639233 s (State.wFlt s a v) := by
  unfold State.wFlt
  try dsimp only
  repeat' first
    | exact (rfl : (_ : Bool) = _)
    | with_reducible first
      | exact Keeps.refl ..
      | assumption
      | refine Keeps.ite (fun _ => ?_) (fun _ => ?_)
      | apply Keeps.step (State.cfgBad_keeps ..)
      | apply Keeps.step (State.wr_keeps ..)
      | apply Keeps.step (State.rwStore_keeps ..)
    | split

theorem State.wRecord_keeps (s : State) (o : Nat) (v : Word) : Keeps 1 s (State.wRecord s o v) := by
  unfold State.wRecord
  try dsimp only
  repeat' first
    | exact (rfl : (_ : Bool) = _)
    | with_reducible first
      | exact Keeps.refl ..
      | refine Keeps.ite (fun _ => ?_) (fun _ => ?_)
      | apply Keeps.step (State.wr_keeps ..)
    | split

theorem State.wSafeReq_keeps (s : State) (v : Word) : Keeps 8650353549313 s (State.wSafeReq s v) := by
  unfold State.wSafeReq
  try dsimp only
  repeat' first
    | exact (rfl : (_ : Bool) = _)
    | with_reducible first
      | exact Keeps.refl ..
      | refine Keeps.ite (fun _ => ?_) (fun _ => ?_)
      | apply Keeps.step (State.safeEnter_keeps ..)
      | apply Keeps.step (State.cfgBad_keeps ..)
    | split

theorem State.wFltReg_keeps (s : State) (a : Nat) (v : Word) : Keeps 131941395333119 s (State.wFltReg s a v) := by
  unfold State.wFltReg
  try dsimp only
  repeat' first
    | exact (rfl : (_ : Bool) = _)
    | with_reducible first
      | exact Keeps.refl ..
      | assumption
      | refine Keeps.ite (fun _ => ?_) (fun _ => ?_)
      | apply Keeps.step (State.pairAccess_keeps ..)
      | apply Keeps.step (State.wRecord_keeps ..)
      | apply Keeps.step (State.wFlt_keeps ..)
      | apply Keeps.step (State.accStore_keeps ..)
      | apply Keeps.step (State.wSafeReq_keeps ..)
      | apply Keeps.step (State.wBreset_keeps ..)
      | apply Keeps.step (State.wCreset_keeps ..)
    | split

theorem State.wAidCtl_keeps (s : State) (v : Word) : Keeps 2542620639233 s (State.wAidCtl s v) := by
  unfold State.wAidCtl
  try dsimp only
  repeat' first
    | exact (rfl : (_ : Bool) = _)
    | with_reducible first
      | exact Keeps.refl ..
      | refine Keeps.ite (fun _ => ?_) (fun _ => ?_)
      | apply Keeps.step (State.cfgBad_keeps ..)
      | apply Keeps.step (State.wr_keeps ..)
    | split

theorem State.wGnsReg_keeps (s : State) (a : Nat) (v : Word) : Keeps 26199623475201 s (State.wGnsReg s a v) := by
  unfold State.wGnsReg
  try dsimp only
  repeat' first
    | exact (rfl : (_ : Bool) = _)
    | with_reducible first
      | exact Keeps.refl ..
      | refine Keeps.ite (fun _ => ?_) (fun _ => ?_)
      | apply Keeps.step (State.accStore_keeps ..)
      | apply Keeps.step (State.wAidCtl_keeps ..)
      | apply Keeps.step (State.wGns_keeps ..)
    | split

theorem State.wIrqEn_keeps (s : State) (b : Blk) (v : Word) : Keeps 2473901162497 s (State.wIrqEn s b v) := by
  unfold State.wIrqEn
  try dsimp only
  repeat' first
    | exact (rfl : (_ : Bool) = _)
    | with_reducible first
      | exact Keeps.refl ..
      | refine Keeps.ite (fun _ => ?_) (fun _ => ?_)
      | apply Keeps.step (State.sendVector_keeps ..)
      | apply Keeps.step (State.rwStore_keeps ..)
    | split

theorem State.wIrqStat_keeps (s : State) (b : Blk) (v : Word) : Keeps 2473901162497 s (State.wIrqStat s b v) := by
  unfold State.wIrqStat
  try dsimp only
  repeat' first
    | exact (rfl : (_ : Bool) = _)
    | with_reducible first
      | exact Keeps.refl ..
      | refine Keeps.ite (fun _ => ?_) (fun _ => ?_)
      | apply Keeps.step (State.sendVector_keeps ..)
      | apply Keeps.step (State.accStore_keeps ..)
    | split

theorem State.keyEnd_keeps (s : State) (op : Nat) (slot : Nat) (code : Nat) : Keeps 2542620639233 s (State.keyEnd s op slot code) := by
  unfold State.keyEnd
  try dsimp only
  repeat' first
    | exact (rfl : (_ : Bool) = _)
    | with_reducible first
      | exact Keeps.refl ..
      | refine Keeps.ite (fun _ => ?_) (fun _ => ?_)
      | apply Keeps.step (State.irq_keeps ..)
      | apply Keeps.step (State.wrN_keeps ..)
      | apply Keeps.step (State.raise_keeps ..)
    | split

theorem State.setRegBytes_keeps (s : State) (o : Nat) (l : List Byte) : Keeps 1 s (State.setRegBytes s o l) := by
  unfold State.setRegBytes
  try dsimp only
  repeat' first
    | exact (rfl : (_ : Bool) = _)
    | with_reducible first
      | exact Keeps.refl ..
      | assumption
      | apply Keeps.step (State.wrN_keeps ..)
      | refine Keeps.foldl _ _ ?_ (fun _ _ _ => ?_)

theorem State.keyAttest_keeps (s : State) (slot : Nat) : Keeps 2542620639233 s (State.keyAttest s slot) := by
  unfold State.keyAttest
  try dsimp only
  repeat' first
    | exact (rfl : (_ : Bool) = _)
    | with_reducible first
      | exact Keeps.refl ..
      | assumption
      | refine Keeps.ite (fun _ => ?_) (fun _ => ?_)
      | apply Keeps.step (State.keyEnd_keeps ..)
      | apply Keeps.step (State.setRegBytes_keeps ..)
    | split

theorem State.keyDisarm_keeps (s0 : State) (slot : Nat) (loops : Nat) : Keeps 2576980377601 s0 (State.keyDisarm s0 slot loops) := by
  unfold State.keyDisarm
  try dsimp only
  repeat' first
    | exact (rfl : (_ : Bool) = _)
    | exact Shape.lenOf (fun h => by first | (simp only [listMod_length, List.length_map, List.length_mapIdx, List.length_set, List.length_range, List.length_replicate, h.all, mapWf_nil, and_self]; done) | (simp [h.all, mapSet_wf]; done) | (split <;> simp [h.all] <;> done) | (constructor <;> split <;> simp [h.all] <;> done))
    | with_reducible first
      | exact Keeps.refl ..
      | assumption
      | refine Keeps.ite (fun _ => ?_) (fun _ => ?_)
      | apply Keeps.step (State.keyEnd_keeps ..)
      | apply Keeps.step (State.wr_keeps ..)
      | apply Keeps.step (State.raise_keeps ..)
      | apply Keeps.step (State.modKeys_keeps _ _ ?_)
      | refine Keeps.foldl _ _ ?_ (fun _ _ _ => ?_)
    | split

theorem State.chestErase_keeps (s : State) (i : Nat) : Keeps 34359738369 s (State.chestErase s i) := by
  unfold State.chestErase
  try dsimp only
  repeat' first
    | exact (rfl : (_ : Bool) = _)
    | exact Shape.lenOf (fun h => by first | (simp only [listMod_length, List.length_map, List.length_mapIdx, List.length_set, List.length_range, List.length_replicate, h.all, mapWf_nil, and_self]; done) | (simp [h.all, mapSet_wf]; done) | (split <;> simp [h.all] <;> done) | (constructor <;> split <;> simp [h.all] <;> done))
    | with_reducible first
      | exact Keeps.refl ..
      | apply Keeps.step (State.setF_keeps ..)
      | apply Keeps.step (State.count_keeps ..)
      | apply Keeps.step (State.modKeys_keeps _ _ ?_)

theorem State.slotChanged_keeps (s : State) (slot : Nat) : Keeps 26199792918529 s (State.slotChanged s slot) := by
  unfold State.slotChanged
  try dsimp only
  repeat' first
    | exact (rfl : (_ : Bool) = _)
    | with_reducible first
      | exact Keeps.refl ..
      | refine Keeps.ite (fun _ => ?_) (fun _ => ?_)
      | apply Keeps.step (State.linkEval_keeps ..)
    | split

theorem State.keyErase_keeps (s : State) (slot : Nat) : Keeps 26234152656897 s (State.keyErase s slot) := by
  unfold State.keyErase
  try dsimp only
  repeat' first
    | exact (rfl : (_ : Bool) = _)
    | with_reducible first
      | exact Keeps.refl ..
      | refine Keeps.ite (fun _ => ?_) (fun _ => ?_)
      | apply Keeps.step (State.keyEnd_keeps ..)
      | apply Keeps.step (State.slotChanged_keeps ..)
      | apply Keeps.step (State.chestErase_keeps ..)
    | split

theorem State.chestCommit_keeps (s : State) (i : Nat) (v : BitVec 256) : Keeps 34359738369 s (State.chestCommit s i v) := by
  unfold State.chestCommit
  try dsimp only
  repeat' first
    | exact (rfl : (_ : Bool) = _)
    | exact Shape.lenOf (fun h => by first | (simp only [listMod_length, List.length_map, List.length_mapIdx, List.length_set, List.length_range, List.length_replicate, h.all, mapWf_nil, and_self]; done) | (simp [h.all, mapSet_wf]; done) | (split <;> simp [h.all] <;> done) | (constructor <;> split <;> simp [h.all] <;> done))
    | with_reducible first
      | exact Keeps.refl ..
      | assumption
      | refine Keeps.ite (fun _ => ?_) (fun _ => ?_)
      | apply Keeps.step (State.setF_keeps ..)
      | apply Keeps.step (State.count_keeps ..)
      | apply Keeps.step (State.modKeys_keeps _ _ ?_)
    | split

theorem State.traceSubkey_keeps (s : State) : Keeps 4209336385537 s (State.traceSubkey s) := by
  unfold State.traceSubkey
  try dsimp only
  repeat' first
    | exact (rfl : (_ : Bool) = _)
    | with_reducible first
      | exact Keeps.refl ..
      | refine Keeps.ite (fun _ => ?_) (fun _ => ?_)
      | apply Keeps.step (State.subkeyPut_keeps ..)
      | apply Keeps.step (State.traceFirst_keeps ..)
    | split

theorem State.keyGenerate_keeps (s : State) (slot : Nat) : Keeps 26234152656897 s (State.keyGenerate s slot) := by
  unfold State.keyGenerate
  try dsimp only
  repeat' first
    | exact (rfl : (_ : Bool) = _)
    | with_reducible first
      | exact Keeps.refl ..
      | refine Keeps.ite (fun _ => ?_) (fun _ => ?_)
      | apply Keeps.step (State.keyEnd_keeps ..)
      | apply Keeps.step (State.traceSubkey_keeps ..)
      | apply Keeps.step (State.slotChanged_keeps ..)
      | apply Keeps.step (State.chestCommit_keeps ..)
      | apply Keeps.step (State.takeFree_keeps ..)
      | apply Keeps.step (Keeps.ofSnd ‹_› (State.takeFree_keeps ..))
    | split

theorem State.keyLoadSlot_keeps (s : State) (slot : Nat) : Keeps 26234152656897 s (State.keyLoadSlot s slot) := by
  unfold State.keyLoadSlot
  try dsimp only
  repeat' first
    | exact (rfl : (_ : Bool) = _)
    | with_reducible first
      | exact Keeps.refl ..
      | assumption
      | refine Keeps.ite (fun _ => ?_) (fun _ => ?_)
      | apply Keeps.step (State.keyEnd_keeps ..)
      | apply Keeps.step (State.traceSubkey_keeps ..)
      | apply Keeps.step (State.slotChanged_keeps ..)
      | apply Keeps.step (State.chestCommit_keeps ..)
    | split

theorem State.setBurnPending_keeps (s : State) (v : Bool) : Keeps 1 s (State.setBurnPending s v) := by
  unfold State.setBurnPending
  try dsimp only
  repeat' first
    | exact (rfl : (_ : Bool) = _)
    | with_reducible first
      | exact Keeps.refl ..
      | apply Keeps.step (State.setB_keeps ..)

theorem State.tamperRecord_keeps (s : State) (src : Nat) (away : Nat) : Keeps 34359738369 s (State.tamperRecord s src away) := by
  unfold State.tamperRecord
  try dsimp only
  repeat' first
    | exact (rfl : (_ : Bool) = _)
    | exact Shape.lenOf (fun h => by first | (simp only [listMod_length, List.length_map, List.length_mapIdx, List.length_set, List.length_range, List.length_replicate, h.all, mapWf_nil, and_self]; done) | (simp [h.all, mapSet_wf]; done) | (split <;> simp [h.all] <;> done) | (constructor <;> split <;> simp [h.all] <;> done))
    | with_reducible first
      | exact Keeps.refl ..
      | refine Keeps.ite (fun _ => ?_) (fun _ => ?_)
      | apply Keeps.step (State.setB_keeps ..)
      | apply Keeps.step (State.countSat_keeps ..)
      | apply Keeps.step (State.wr64_keeps ..)
      | apply Keeps.step (State.setBurnPending_keeps ..)
      | apply Keeps.step (State.modKeys_keeps _ _ ?_)
    | split

theorem State.chestClear_keeps (s : State) : Keeps 34359738369 s (State.chestClear s) := by
  unfold State.chestClear
  try dsimp only
  repeat' first
    | exact (rfl : (_ : Bool) = _)
    | exact Shape.lenOf (fun h => by first | (simp only [listMod_length, List.length_map, List.length_mapIdx, List.length_set, List.length_range, List.length_replicate, h.all, mapWf_nil, and_self]; done) | (simp [h.all, mapSet_wf]; done) | (split <;> simp [h.all] <;> done) | (constructor <;> split <;> simp [h.all] <;> done))
    | with_reducible first
      | exact Keeps.refl ..
      | assumption
      | apply Keeps.step (State.setF_keeps ..)
      | apply Keeps.step (State.modKeys_keeps _ _ ?_)
      | refine Keeps.foldl _ _ ?_ (fun _ _ _ => ?_)

theorem State.cmdAbort_keeps (s : State) : Keeps 2576980377601 s (State.cmdAbort s) := by
  unfold State.cmdAbort
  try dsimp only
  repeat' first
    | exact (rfl : (_ : Bool) = _)
    | exact Shape.lenOf (fun h => by first | (simp only [listMod_length, List.length_map, List.length_mapIdx, List.length_set, List.length_range, List.length_replicate, h.all, mapWf_nil, and_self]; done) | (simp [h.all, mapSet_wf]; done) | (split <;> simp [h.all] <;> done) | (constructor <;> split <;> simp [h.all] <;> done))
    | with_reducible first
      | exact Keeps.refl ..
      | assumption
      | apply Keeps.step (State.keyEnd_keeps ..)
      | apply Keeps.step (State.modKeys_keeps _ _ ?_)
    | split

theorem State.cryptoAbort_keeps (s : State) : Keeps 2577047486465 s (State.cryptoAbort s) := by
  unfold State.cryptoAbort
  try dsimp only
  repeat' first
    | exact (rfl : (_ : Bool) = _)
    | with_reducible first
      | exact Keeps.refl ..
      | assumption
      | refine Keeps.ite (fun _ => ?_) (fun _ => ?_)
      | apply Keeps.step (State.irq_keeps ..)
      | apply Keeps.step (State.abortPort_keeps ..)
      | apply Keeps.step (State.wrN_keeps ..)
      | apply Keeps.step (State.raise_keeps ..)
      | apply Keeps.step (State.cmdAbort_keeps ..)
      | refine Keeps.foldl _ _ ?_ (fun _ _ _ => ?_)
    | split

theorem State.zeroiseChest_keeps (s : State) : Keeps 26234152656897 s (State.zeroiseChest s) := by
  unfold State.zeroiseChest
  try dsimp only
  repeat' first
    | exact (rfl : (_ : Bool) = _)
    | exact Shape.lenOf (fun h => by first | (simp only [listMod_length, List.length_map, List.length_mapIdx, List.length_set, List.length_range, List.length_replicate, h.all, mapWf_nil, and_self]; done) | (simp [h.all, mapSet_wf]; done) | (split <;> simp [h.all] <;> done) | (constructor <;> split <;> simp [h.all] <;> done))
    | with_reducible first
      | exact Keeps.refl ..
      | refine Keeps.ite (fun _ => ?_) (fun _ => ?_)
      | apply Keeps.step (State.setB_keeps ..)
      | apply Keeps.step (State.linkEval_keeps ..)
      | apply Keeps.step (State.cryptoAbort_keeps ..)
      | apply Keeps.step (State.authStop_keeps ..)
      | apply Keeps.step (State.healthFall_keeps ..)
      | apply Keeps.step (State.chestClear_keeps ..)
      | apply Keeps.step (State.modKeys_keeps _ _ ?_)
    | split

theorem State.tamperHit_keeps (s : State) (src : Nat) (away : Nat) : Keeps 26234152656897 s (State.tamperHit s src away) := by
  unfold State.tamperHit
  try dsimp only
  repeat' first
    | exact (rfl : (_ : Bool) = _)
    | exact Shape.lenOf (fun h => by first | (simp only [listMod_length, List.length_map, List.length_mapIdx, List.length_set, List.length_range, List.length_replicate, h.all, mapWf_nil, and_self]; done) | (simp [h.all, mapSet_wf]; done) | (split <;> simp [h.all] <;> done) | (constructor <;> split <;> simp [h.all] <;> done))
    | with_reducible first
      | exact Keeps.refl ..
      | assumption
      | refine Keeps.ite (fun _ => ?_) (fun _ => ?_)
      | apply Keeps.step (State.irq_keeps ..)
      | apply Keeps.step (State.wr_keeps ..)
      | apply Keeps.step (State.raise_keeps ..)
      | apply Keeps.step (State.tamperRecord_keeps ..)
      | apply Keeps.step (State.zeroiseChest_keeps ..)
      | apply Keeps.step (State.modKeys_keeps _ _ ?_)
      | refine Keeps.foldl _ _ ?_ (fun _ _ _ => ?_)
    | split

theorem State.keyZeroise_keeps (s : State) (slot : Nat) (burn : Bool) : Keeps 26234152656897 s (State.keyZeroise s slot burn) := by
  unfold State.keyZeroise
  try dsimp only
  repeat' first
    | exact (rfl : (_ : Bool) = _)
    | exact Shape.lenOf (fun h => by first | (simp only [listMod_length, List.length_map, List.length_mapIdx, List.length_set, List.length_range, List.length_replicate, h.all, mapWf_nil, and_self]; done) | (simp [h.all, mapSet_wf]; done) | (split <;> simp [h.all] <;> done) | (constructor <;> split <;> simp [h.all] <;> done))
    | with_reducible first
      | exact Keeps.refl ..
      | refine Keeps.ite (fun _ => ?_) (fun _ => ?_)
      | apply Keeps.step (State.keyEnd_keeps ..)
      | apply Keeps.step (State.tamperHit_keeps ..)
      | apply Keeps.step (State.zeroiseChest_keeps ..)
      | apply Keeps.step (State.modKeys_keeps _ _ ?_)
    | split

theorem State.keyRun_keeps (s : State) (v : Word) : Keeps 26234152656897 s (State.keyRun s v) := by
  unfold State.keyRun
  try dsimp only
  repeat' first
    | exact (rfl : (_ : Bool) = _)
    | exact Shape.lenOf (fun h => by first | (simp only [listMod_length, List.length_map, List.length_mapIdx, List.length_set, List.length_range, List.length_replicate, h.all, mapWf_nil, and_self]; done) | (simp [h.all, mapSet_wf]; done) | (split <;> simp [h.all] <;> done) | (constructor <;> split <;> simp [h.all] <;> done))
    | with_reducible first
      | exact Keeps.refl ..
      | assumption
      | refine Keeps.ite (fun _ => ?_) (fun _ => ?_)
      | apply Keeps.step (State.cfgBad_keeps ..)
      | apply Keeps.step (State.keyErase_keeps ..)
      | apply Keeps.step (State.keyGenerate_keeps ..)
      | apply Keeps.step (State.keyZeroise_keeps ..)
      | apply Keeps.step (State.wrN_keeps ..)
      | apply Keeps.step (State.keyDisarm_keeps ..)
      | apply Keeps.step (State.keyAttest_keeps ..)
      | apply Keeps.step (State.modKeys_keeps _ _ ?_)
      | apply Keeps.step (State.keyLoadSlot_keeps ..)
    | split

theorem State.wKey_keeps (s : State) (a : Nat) (v : Word) : Keeps 2542620639233 s (State.wKey s a v) := by
  unfold State.wKey
  try dsimp only
  repeat' first
    | exact (rfl : (_ : Bool) = _)
    | with_reducible first
      | exact Keeps.refl ..
      | refine Keeps.ite (fun _ => ?_) (fun _ => ?_)
      | apply Keeps.step (State.cfgBad_keeps ..)
      | apply Keeps.step (State.rwStore_keeps ..)
    | split

theorem State.wTampArm_keeps (s : State) (v : Word) (intact : Nat) : Keeps 26234152656897 s (State.wTampArm s v intact) := by
  unfold State.wTampArm
  try dsimp only
  repeat' first
    | exact (rfl : (_ : Bool) = _)
    | with_reducible first
      | exact Keeps.refl ..
      | assumption
      | refine Keeps.ite (fun _ => ?_) (fun _ => ?_)
      | apply Keeps.step (State.tamperHit_keeps ..)
      | apply Keeps.step (State.setF_keeps ..)
      | apply Keeps.step (State.wr_keeps ..)
      | refine Keeps.foldl _ _ ?_ (fun _ _ _ => ?_)
    | split

theorem State.wTampArmFree_keeps (s : State) (v : Word) : Keeps 26234152656897 s (State.wTampArmFree s v) := by
  unfold State.wTampArmFree
  try dsimp only
  repeat' first
    | exact (rfl : (_ : Bool) = _)
    | with_reducible first
      | exact Keeps.refl ..
      | apply Keeps.step (State.takeFree_keeps ..)
      | apply Keeps.step (Keeps.ofSnd ‹_› (State.takeFree_keeps ..))
      | apply Keeps.step (State.wTampArm_keeps ..)

theorem State.wKeyReg_keeps (s : State) (a : Nat) (v : Word) : Keeps 26234152656897 s (State.wKeyReg s a v) := by
  unfold State.wKeyReg
  try dsimp only
  repeat' first
    | exact (rfl : (_ : Bool) = _)
    | with_reducible first
      | exact Keeps.refl ..
      | refine Keeps.ite (fun _ => ?_) (fun _ => ?_)
      | apply Keeps.step (State.accStore_keeps ..)
      | apply Keeps.step (State.keyRun_keeps ..)
      | apply Keeps.step (State.wKey_keeps ..)
      | apply Keeps.step (State.wTampArmFree_keeps ..)
    | split

theorem State.wEyeCtl_keeps (s : State) (m : Nat) (v : Word) : Keeps 2542621163521 s (State.wEyeCtl s m v) := by
  unfold State.wEyeCtl
  try dsimp only
  repeat' first
    | exact (rfl : (_ : Bool) = _)
    | with_reducible first
      | exact Keeps.refl ..
      | refine Keeps.ite (fun _ => ?_) (fun _ => ?_)
      | apply Keeps.step (State.cfgBad_keeps ..)
      | apply Keeps.step (State.modLane_keeps ..)
      | apply Keeps.step (State.wr_keeps ..)
      | apply Keeps.step (State.rwStore_keeps ..)
    | split

theorem State.groupLp_keeps (s : State) (g : Nat) (lp : Bool) : Keeps 26199792918529 s (State.groupLp s g lp) := by
  unfold State.groupLp
  try dsimp only
  repeat' first
    | exact (rfl : (_ : Bool) = _)
    | with_reducible first
      | exact Keeps.refl ..
      | assumption
      | refine Keeps.ite (fun _ => ?_) (fun _ => ?_)
      | apply Keeps.step (State.setB_keeps ..)
      | apply Keeps.step (State.laneCtl_keeps ..)
      | refine Keeps.foldl _ _ ?_ (fun _ _ _ => ?_)
    | split

theorem State.wGroupLp_keeps (s : State) (v : Word) : Keeps 26199792918529 s (State.wGroupLp s v) := by
  unfold State.wGroupLp
  try dsimp only
  repeat' first
    | exact (rfl : (_ : Bool) = _)
    | with_reducible first
      | exact Keeps.refl ..
      | assumption
      | apply Keeps.step (State.groupLp_keeps ..)
      | refine Keeps.foldl _ _ ?_ (fun _ _ _ => ?_)

theorem State.laneTail_keeps (s : State) (m : Nat) : Keeps 26199792918529 s (State.laneTail s m) := by
  unfold State.laneTail
  try dsimp only
  repeat' first
    | exact (rfl : (_ : Bool) = _)
    | with_reducible first
      | exact Keeps.refl ..
      | refine Keeps.ite (fun _ => ?_) (fun _ => ?_)
      | apply Keeps.step (State.linkEval_keeps ..)
    | split

theorem State.wLanCtl_keeps (s : State) (m : Nat) (v : Word) : Keeps 26199792918529 s (State.wLanCtl s m v) := by
  unfold State.wLanCtl
  try dsimp only
  repeat' first
    | exact (rfl : (_ : Bool) = _)
    | with_reducible first
      | exact Keeps.refl ..
      | refine Keeps.ite (fun _ => ?_) (fun _ => ?_)
      | apply Keeps.step (State.cfgBad_keeps ..)
      | apply Keeps.step (State.genCount_keeps ..)
      | apply Keeps.step (State.wr_keeps ..)
      | apply Keeps.step (State.laneCtl_keeps ..)
      | apply Keeps.step (State.rwStore_keeps ..)
      | apply Keeps.step (State.chkStop_keeps ..)
      | apply Keeps.step (State.genStart_keeps ..)
      | apply Keeps.step (State.txeqNow_keeps ..)
      | apply Keeps.step (State.chkCount_keeps ..)
      | apply Keeps.step (State.laneTail_keeps ..)
    | split

theorem State.wPrbsCtl_keeps (s : State) (m : Nat) (v : Word) : Keeps 2542621163521 s (State.wPrbsCtl s m v) := by
  unfold State.wPrbsCtl
  try dsimp only
  repeat' first
    | exact (rfl : (_ : Bool) = _)
    | with_reducible first
      | exact Keeps.refl ..
      | refine Keeps.ite (fun _ => ?_) (fun _ => ?_)
      | apply Keeps.step (State.cfgBad_keeps ..)
      | apply Keeps.step (State.genCount_keeps ..)
      | apply Keeps.step (State.countSat_keeps ..)
      | apply Keeps.step (State.modLane_keeps ..)
      | apply Keeps.step (State.wr_keeps ..)
      | apply Keeps.step (State.rwStore_keeps ..)
      | apply Keeps.step (State.chkStop_keeps ..)
      | apply Keeps.step (State.genStart_keeps ..)
    | split

theorem State.wTxeq_keeps (s : State) (m : Nat) (v : Word) : Keeps 2542620639233 s (State.wTxeq s m v) := by
  unfold State.wTxeq
  try dsimp only
  repeat' first
    | exact (rfl : (_ : Bool) = _)
    | with_reducible first
      | exact Keeps.refl ..
      | refine Keeps.ite (fun _ => ?_) (fun _ => ?_)
      | apply Keeps.step (State.cfgBad_keeps ..)
      | apply Keeps.step (State.rwStore_keeps ..)
      | apply Keeps.step (State.txeqNow_keeps ..)
    | split

theorem State.wLan_keeps (s : State) (a : Nat) (v : Word) : Keeps 26199792918529 s (State.wLan s a v) := by
  unfold State.wLan
  try dsimp only
  repeat' first
    | exact (rfl : (_ : Bool) = _)
    | with_reducible first
      | exact Keeps.refl ..
      | assumption
      | refine Keeps.ite (fun _ => ?_) (fun _ => ?_)
      | apply Keeps.step (State.wEyeCtl_keeps ..)
      | apply Keeps.step (State.wLanCtl_keeps ..)
      | apply Keeps.step (State.accStore_keeps ..)
      | apply Keeps.step (State.wPrbsCtl_keeps ..)
      | apply Keeps.step (State.wGroupLp_keeps ..)
      | apply Keeps.step (State.wTxeq_keeps ..)
    | split

theorem State.wMacCtl_keeps (s : State) (p : Nat) (v : Word) : Keeps 26199791247361 s (State.wMacCtl s p v) := by
  unfold State.wMacCtl
  try dsimp only
  repeat' first
    | exact (rfl : (_ : Bool) = _)
    | with_reducible first
      | exact Keeps.refl ..
      | refine Keeps.ite (fun _ => ?_) (fun _ => ?_)
      | apply Keeps.step (State.cfgBad_keeps ..)
      | apply Keeps.step (State.rwStore_keeps ..)
      | apply Keeps.step (State.portEval_keeps ..)
    | split

theorem State.wMacReg_keeps (s : State) (p : Nat) (r : Nat) (v : Word) : Keeps 2542620639233 s (State.wMacReg s p r v) := by
  unfold State.wMacReg
  try dsimp only
  repeat' first
    | exact (rfl : (_ : Bool) = _)
    | with_reducible first
      | exact Keeps.refl ..
      | refine Keeps.ite (fun _ => ?_) (fun _ => ?_)
      | apply Keeps.step (State.cfgBad_keeps ..)
      | apply Keeps.step (State.rwStore_keeps ..)
    | split

theorem State.wRxCtl_keeps (s : State) (p : Nat) (v : Word) : Keeps 1 s (State.wRxCtl s p v) := by
  unfold State.wRxCtl
  try dsimp only
  repeat' first
    | exact (rfl : (_ : Bool) = _)
    | with_reducible first
      | exact Keeps.refl ..
      | refine Keeps.ite (fun _ => ?_) (fun _ => ?_)
      | apply Keeps.step (State.setB_keeps ..)
      | apply Keeps.step (State.setF_keeps ..)
    | split

theorem State.wTxCtl_keeps (s : State) (p : Nat) (v : Word) : Keeps 3092443561985 s (State.wTxCtl s p v) := by
  unfold State.wTxCtl
  try dsimp only
  repeat' first
    | exact (rfl : (_ : Bool) = _)
    | with_reducible first
      | exact Keeps.refl ..
      | refine Keeps.ite (fun _ => ?_) (fun _ => ?_)
      | apply Keeps.step (State.modPort_keeps ..)
      | apply Keeps.step (State.setB_keeps ..)
      | apply Keeps.step (State.setF_keeps ..)
      | apply Keeps.step (State.txFlush_keeps ..)
    | split

theorem State.wMac_keeps (s : State) (a : Nat) (v : Word) : Keeps 26199791247361 s (State.wMac s a v) := by
  unfold State.wMac
  try dsimp only
  repeat' first
    | exact (rfl : (_ : Bool) = _)
    | with_reducible first
      | exact Keeps.refl ..
      | assumption
      | refine Keeps.ite (fun _ => ?_) (fun _ => ?_)
      | apply Keeps.step (State.accStore_keeps ..)
      | apply Keeps.step (State.wTxCtl_keeps ..)
      | apply Keeps.step (State.wMacCtl_keeps ..)
      | apply Keeps.step (State.wRxCtl_keeps ..)
      | apply Keeps.step (State.wMacReg_keeps ..)
    | split

end Sys2Proof.Machine
end

