-- ==== Sys2Proof/Laws/KeepsC.lean ====
section
/-! SUPPORT. What each operation of the model can change (its mask of parts, `Part.idx`) and that it keeps the canonical form: one lemma for each
operation, in the order in which they rest on each other. Part 3 of 4. -/
set_option linter.unusedSimpArgs false
namespace Sys2Proof.Machine

theorem State.cliStop_keeps (s : State) (k : Nat) : Keeps 8607538094081 s (State.cliStop s k) := by
  unfold State.cliStop
  try dsimp only
  repeat' first
    | exact (rfl : (_ : Bool) = _)
    | with_reducible first
      | exact Keeps.refl ..
      | apply Keeps.step (State.modCli_keeps ..)
      | apply Keeps.step (State.setCli_keeps ..)

theorem State.buildLater_keeps (s : State) (b : PktBuild) : Keeps 134217728 s (State.buildLater s b) := by
  unfold State.buildLater
  try dsimp only
  repeat' first
    | exact (rfl : (_ : Bool) = _)
    | exact Shape.lenOf (fun h => by first | (simp only [listMod_length, List.length_map, List.length_mapIdx, List.length_set, List.length_range, List.length_replicate, h.all, mapWf_nil, and_self]; done) | (simp [h.all, mapSet_wf]; done) | (split <;> simp [h.all] <;> done) | (constructor <;> split <;> simp [h.all] <;> done))
    | with_reducible first
      | exact Keeps.refl ..
    | with_reducible apply Keeps.step (Keeps.with_pkt _ _ ?_)

theorem State.gratuitous_keeps (s : State) (k : Nat) : Keeps 21784275451905 s (State.gratuitous s k) := by
  unfold State.gratuitous
  try dsimp only
  repeat' first
    | exact (rfl : (_ : Bool) = _)
    | with_reducible first
      | exact Keeps.refl ..
      | refine Keeps.ite (fun _ => ?_) (fun _ => ?_)
      | apply Keeps.step (State.buildLater_keeps ..)
      | apply Keeps.step (State.flightIn_keeps ..)
      | apply Keeps.step (State.send_keeps ..)
    | split

theorem State.keyCmdDone_keeps (s : State) (e : Nat) (err : Bool) : Keeps 2542620639233 s (State.keyCmdDone s e err) := by
  unfold State.keyCmdDone
  try dsimp only
  repeat' first
    | exact (rfl : (_ : Bool) = _)
    | with_reducible first
      | exact Keeps.refl ..
      | refine Keeps.ite (fun _ => ?_) (fun _ => ?_)
      | apply Keeps.step (State.setB_keeps ..)
      | apply Keeps.step (State.irq_keeps ..)
      | apply Keeps.step (State.setF_keeps ..)
      | apply Keeps.step (State.raise_keeps ..)
    | split

theorem State.keyDelete_keeps (s : State) (e : Nat) : Keeps 2542754856961 s (State.keyDelete s e) := by
  unfold State.keyDelete
  try dsimp only
  repeat' first
    | exact (rfl : (_ : Bool) = _)
    | exact Shape.lenOf (fun h => by first | (simp only [listMod_length, List.length_map, List.length_mapIdx, List.length_set, List.length_range, List.length_replicate, h.all, mapWf_nil, and_self]; done) | (simp [h.all, mapSet_wf]; done) | (split <;> simp [h.all] <;> done) | (constructor <;> split <;> simp [h.all] <;> done))
    | with_reducible first
      | exact Keeps.refl ..
      | apply Keeps.step (State.keyCmdDone_keeps ..)
    | with_reducible apply Keeps.step (Keeps.with_pkt _ _ ?_)

theorem State.keyLoad_keeps (s : State) (e : Nat) : Keeps 2542754856961 s (State.keyLoad s e) := by
  unfold State.keyLoad
  try dsimp only
  repeat' first
    | exact (rfl : (_ : Bool) = _)
    | exact Shape.lenOf (fun h => by first | (simp only [listMod_length, List.length_map, List.length_mapIdx, List.length_set, List.length_range, List.length_replicate, h.all, mapWf_nil, and_self]; done) | (simp [h.all, mapSet_wf]; done) | (split <;> simp [h.all] <;> done) | (constructor <;> split <;> simp [h.all] <;> done))
    | with_reducible first
      | exact Keeps.refl ..
      | refine Keeps.ite (fun _ => ?_) (fun _ => ?_)
      | apply Keeps.step (State.keyCmdDone_keeps ..)
    | split
    | with_reducible apply Keeps.step (Keeps.with_pkt _ _ ?_)

theorem State.wKeyCmd_keeps (s : State) (v : Word) : Keeps 2542754856961 s (State.wKeyCmd s v) := by
  unfold State.wKeyCmd
  try dsimp only
  repeat' first
    | exact (rfl : (_ : Bool) = _)
    | with_reducible first
      | exact Keeps.refl ..
      | refine Keeps.ite (fun _ => ?_) (fun _ => ?_)
      | apply Keeps.step (State.cfgBad_keeps ..)
      | apply Keeps.step (State.keyLoad_keeps ..)
      | apply Keeps.step (State.keyDelete_keeps ..)
    | split

theorem State.wMint_keeps (s : State) (v : Word) : Keeps 2542620639233 s (State.wMint s v) := by
  unfold State.wMint
  try dsimp only
  repeat' first
    | exact (rfl : (_ : Bool) = _)
    | with_reducible first
      | exact Keeps.refl ..
      | refine Keeps.ite (fun _ => ?_) (fun _ => ?_)
      | apply Keeps.step (State.cfgBad_keeps ..)
      | apply Keeps.step (State.wrN_keeps ..)
    | split

theorem State.wNtsRing_keeps (s : State) (v : Word) : Keeps 2542620639233 s (State.wNtsRing s v) := by
  unfold State.wNtsRing
  try dsimp only
  repeat' first
    | exact (rfl : (_ : Bool) = _)
    | with_reducible first
      | exact Keeps.refl ..
      | refine Keeps.ite (fun _ => ?_) (fun _ => ?_)
      | apply Keeps.step (State.cfgBad_keeps ..)
      | apply Keeps.step (State.wrN_keeps ..)
    | split

theorem State.wPkt_keeps (s : State) (a : Nat) (v : Word) : Keeps 26199791247361 s (State.wPkt s a v) := by
  unfold State.wPkt
  try dsimp only
  repeat' first
    | exact (rfl : (_ : Bool) = _)
    | with_reducible first
      | exact Keeps.refl ..
      | assumption
      | refine Keeps.ite (fun _ => ?_) (fun _ => ?_)
      | apply Keeps.step (State.budgetShow_keeps ..)
      | apply Keeps.step (State.cfgBad_keeps ..)
      | apply Keeps.step (State.wNtsRing_keeps ..)
      | apply Keeps.step (State.wKeyCmd_keeps ..)
      | apply Keeps.step (State.accStore_keeps ..)
      | apply Keeps.step (State.cliStop_keeps ..)
      | apply Keeps.step (State.rwStore_keeps ..)
      | apply Keeps.step (State.wMint_keeps ..)
      | apply Keeps.step (State.gratuitous_keeps ..)
    | split

theorem State.wPrf_keeps (s : State) (a : Nat) (v : Word) : Keeps 2546915606529 s (State.wPrf s a v) := by
  unfold State.wPrf
  try dsimp only
  repeat' first
    | exact (rfl : (_ : Bool) = _)
    | with_reducible first
      | exact Keeps.refl ..
      | refine Keeps.ite (fun _ => ?_) (fun _ => ?_)
      | apply Keeps.step (State.setB_keeps ..)
      | apply Keeps.step (State.cfgBad_keeps ..)
      | apply Keeps.step (State.rwStore_keeps ..)
    | split
    | with_reducible apply Keeps.step (Keeps.with_prf ..)

theorem State.wPwr_keeps (s : State) (a : Nat) (v : Word) : Keeps 2542620639233 s (State.wPwr s a v) := by
  unfold State.wPwr
  try dsimp only
  repeat' first
    | exact (rfl : (_ : Bool) = _)
    | with_reducible first
      | exact Keeps.refl ..
      | refine Keeps.ite (fun _ => ?_) (fun _ => ?_)
      | apply Keeps.step (State.wr_keeps ..)
      | apply Keeps.step (State.pwrRefuse_keeps ..)
      | apply Keeps.step (State.rwStore_keeps ..)
    | split

theorem State.recoverSource_keeps (s : State) (x : EdgeSrc) : Keeps 8607403876353 s (State.recoverSource s x) := by
  unfold State.recoverSource
  try dsimp only
  repeat' first
    | exact (rfl : (_ : Bool) = _)
    | with_reducible first
      | exact Keeps.refl ..
      | assumption
      | apply Keeps.step (State.setB_keeps ..)
      | apply Keeps.step (State.memberEval_keeps ..)
    | split

theorem State.refCtx_keeps (s : State) (x : EdgeSrc) : Keeps 4398046511104 s (State.refCtx s x).2 := by
  unfold State.refCtx
  try dsimp only
  repeat' first
    | exact (rfl : (_ : Bool) = _)
    | with_reducible first
      | exact Keeps.refl ..
      | assumption
      | apply Keeps.step (State.takeFree_keeps ..)
      | apply Keeps.step (Keeps.ofSnd ‹_› (State.takeFree_keeps ..))
    | split

theorem State.refIrq_keeps (s : State) (x : EdgeSrc) : Keeps 2473901162497 s (State.refIrq s x) := by
  unfold State.refIrq
  try dsimp only
  repeat' first
    | exact (rfl : (_ : Bool) = _)
    | with_reducible first
      | exact Keeps.refl ..
      | assumption
      | apply Keeps.step (State.irq_keeps ..)
    | split

theorem State.sourceBack_keeps (s : State) (x : EdgeSrc) : Keeps 8607403876353 s (State.sourceBack s x) := by
  unfold State.sourceBack
  try dsimp only
  repeat' first
    | exact (rfl : (_ : Bool) = _)
    | with_reducible first
      | exact Keeps.refl ..
      | refine Keeps.ite (fun _ => ?_) (fun _ => ?_)
      | apply Keeps.step (State.refIrq_keeps ..)
      | apply Keeps.step (State.raise_keeps ..)
      | apply Keeps.step (State.recoverSource_keeps ..)
      | apply Keeps.step (State.refCtx_keeps ..)
      | apply Keeps.step (Keeps.ofSnd ‹_› (State.refCtx_keeps ..))
    | split

theorem State.loAlarmOff_keeps (s : State) (m : Fin 4) : Keeps 8607403876353 s (State.loAlarmOff s m) := by
  unfold State.loAlarmOff
  try dsimp only
  repeat' first
    | exact (rfl : (_ : Bool) = _)
    | with_reducible first
      | exact Keeps.refl ..
      | refine Keeps.ite (fun _ => ?_) (fun _ => ?_)
      | apply Keeps.step (State.setB_keeps ..)
      | apply Keeps.step (State.sourceBack_keeps ..)
      | apply Keeps.step (State.activeBit_keeps ..)
    | split

theorem State.setLosGross_keeps (s : State) (x : EdgeSrc) (l : Bool) (g : Bool) : Keeps 16385 s (State.setLosGross s x l g) := by
  unfold State.setLosGross
  try dsimp only
  repeat' first
    | exact (rfl : (_ : Bool) = _)
    | with_reducible first
      | exact Keeps.refl ..
      | assumption
      | apply Keeps.step (State.setB_keeps ..)
      | apply Keeps.step (State.modMonitor_keeps ..)
      | apply Keeps.step (State.activeBit_keeps ..)
    | split

theorem State.setLos_keeps (s : State) (x : EdgeSrc) : Keeps 8607405039617 s (State.setLos s x) := by
  unfold State.setLos
  try dsimp only
  repeat' first
    | exact (rfl : (_ : Bool) = _)
    | with_reducible first
      | exact Keeps.refl ..
      | refine Keeps.ite (fun _ => ?_) (fun _ => ?_)
      | apply Keeps.step (State.refIrq_keeps ..)
      | apply Keeps.step (State.setLosGross_keeps ..)
      | apply Keeps.step (State.failSource_keeps ..)
      | apply Keeps.step (State.raise_keeps ..)
      | apply Keeps.step (State.modMonitor_keeps ..)
      | apply Keeps.step (State.refCtx_keeps ..)
      | apply Keeps.step (Keeps.ofSnd ‹_› (State.refCtx_keeps ..))
    | split

theorem State.wLo_keeps (s : State) (m : Fin 4) (reg : LoReg) (v : Word) : Keeps 8607405039617 s (State.wLo s m reg v) := by
  unfold State.wLo
  try dsimp only
  repeat' first
    | exact (rfl : (_ : Bool) = _)
    | with_reducible first
      | exact Keeps.refl ..
      | refine Keeps.ite (fun _ => ?_) (fun _ => ?_)
      | apply Keeps.step (State.setB_keeps ..)
      | apply Keeps.step (State.setLos_keeps ..)
      | apply Keeps.step (State.wr_keeps ..)
      | apply Keeps.step (State.raise_keeps ..)
      | apply Keeps.step (State.abandon_keeps ..)
      | apply Keeps.step (State.loElig_keeps ..)
      | apply Keeps.step (State.modMonitor_keeps ..)
      | apply Keeps.step (State.activeBit_keeps ..)
      | apply Keeps.step (State.memberEval_keeps ..)
      | apply Keeps.step (State.loAlarmOff_keeps ..)
    | split

theorem State.wRefin_keeps (s : State) (n : Fin 8) (reg : RefReg) (v : Word) : Keeps 8607405039617 s (State.wRefin s n reg v) := by
  unfold State.wRefin
  try dsimp only
  repeat' first
    | exact (rfl : (_ : Bool) = _)
    | with_reducible first
      | exact Keeps.refl ..
      | assumption
      | refine Keeps.ite (fun _ => ?_) (fun _ => ?_)
      | apply Keeps.step (State.setB_keeps ..)
      | apply Keeps.step (State.setLos_keeps ..)
      | apply Keeps.step (State.wr_keeps ..)
      | apply Keeps.step (State.raise_keeps ..)
      | apply Keeps.step (State.abandon_keeps ..)
      | apply Keeps.step (State.activeBit_keeps ..)
    | split

theorem State.wRef_keeps (s : State) (a : Nat) (v : Word) : Keeps 8607405039617 s (State.wRef s a v) := by
  unfold State.wRef
  try dsimp only
  repeat' first
    | exact (rfl : (_ : Bool) = _)
    | with_reducible first
      | exact Keeps.refl ..
      | assumption
      | apply Keeps.step (State.wLo_keeps ..)
      | apply Keeps.step (State.accStore_keeps ..)
      | apply Keeps.step (State.wRefin_keeps ..)
    | split

theorem State.wSelCtl_keeps (s : State) (n : Nat) (v : Word) : Keeps 8607403876353 s (State.wSelCtl s n v) := by
  unfold State.wSelCtl
  try dsimp only
  repeat' first
    | exact (rfl : (_ : Bool) = _)
    | with_reducible first
      | exact Keeps.refl ..
      | refine Keeps.ite (fun _ => ?_) (fun _ => ?_)
      | apply Keeps.step (State.cfgBad_keeps ..)
      | apply Keeps.step (State.wr_keeps ..)
      | apply Keeps.step (State.selEval_keeps ..)
    | split

theorem State.wSel_keeps (s : State) (a : Nat) (v : Word) : Keeps 8607403876353 s (State.wSel s a v) := by
  unfold State.wSel
  try dsimp only
  repeat' first
    | exact (rfl : (_ : Bool) = _)
    | with_reducible first
      | exact Keeps.refl ..
      | assumption
      | refine Keeps.ite (fun _ => ?_) (fun _ => ?_)
      | apply Keeps.step (State.ctlIn_keeps ..)
      | apply Keeps.step (State.accStore_keeps ..)
      | apply Keeps.step (State.rwStore_keeps ..)
      | apply Keeps.step (State.wSelCtl_keeps ..)
      | apply Keeps.step (State.candRound_keeps ..)
    | split

theorem State.shadowWrite_keeps (s : State) (a : Nat) (v : Word) : Keeps 13 s (State.shadowWrite s a v) := by
  unfold State.shadowWrite
  try dsimp only
  repeat' first
    | exact (rfl : (_ : Bool) = _)
    | with_reducible first
      | exact Keeps.refl ..
      | apply Keeps.step (State.wr_keeps ..)
    | with_reducible apply Keeps.step (Keeps.with_pendSh_shStamp ..)

theorem State.wShadow_keeps (s : State) (i : Itf) (a : Nat) (v : Word) : Keeps 4109 s (State.wShadow s i a v) := by
  unfold State.wShadow
  try dsimp only
  repeat' first
    | exact (rfl : (_ : Bool) = _)
    | with_reducible first
      | exact Keeps.refl ..
      | assumption
      | apply Keeps.step (State.modChan_keeps ..)
      | apply Keeps.step (State.shadowWrite_keeps ..)
    | split

theorem State.setSnap_keeps (s : State) (i : Itf) (x : Option (Nat × Bool)) : Keeps 8192 s (State.setSnap s i x) := by
  unfold State.setSnap
  try dsimp only
  repeat' first
    | exact (rfl : (_ : Bool) = _)
    | exact Shape.lenOf (fun h => by first | (simp only [listMod_length, List.length_map, List.length_mapIdx, List.length_set, List.length_range, List.length_replicate, h.all, mapWf_nil, and_self]; done) | (simp [h.all, mapSet_wf]; done) | (split <;> simp [h.all] <;> done) | (constructor <;> split <;> simp [h.all] <;> done))
    | with_reducible first
      | exact Keeps.refl ..
      | assumption
      | apply Keeps.step (State.modSpn_keeps _ _ ?_)
    | split

theorem State.snapRequest_keeps (s : State) (i : Itf) (mask : Nat) : Keeps 8192 s (State.snapRequest s i mask) := by
  unfold State.snapRequest
  try dsimp only
  repeat' first
    | exact (rfl : (_ : Bool) = _)
    | exact Shape.lenOf (fun h => by first | (simp only [listMod_length, List.length_map, List.length_mapIdx, List.length_set, List.length_range, List.length_replicate, h.all, mapWf_nil, and_self]; done) | (simp [h.all, mapSet_wf]; done) | (split <;> simp [h.all] <;> done) | (constructor <;> split <;> simp [h.all] <;> done))
    | with_reducible first
      | exact Keeps.refl ..
      | assumption
      | apply Keeps.step (State.setSnap_keeps ..)
      | apply Keeps.step (State.modSpn_keeps _ _ ?_)
    | split

theorem State.slotRefuse_keeps (s : State) (i : Nat) (reason : Nat) : Keeps 68719476736 s (State.slotRefuse s i reason) := by
  unfold State.slotRefuse
  try dsimp only
  repeat' first
    | exact (rfl : (_ : Bool) = _)
    | with_reducible first
      | exact Keeps.refl ..
      | apply Keeps.step (State.raise_keeps ..)

theorem State.wSlotCtl_keeps (s : State) (i : Nat) (v : Word) : Keeps 68719484929 s (State.wSlotCtl s i v) := by
  unfold State.wSlotCtl
  try dsimp only
  repeat' first
    | exact (rfl : (_ : Bool) = _)
    | with_reducible first
      | exact Keeps.refl ..
      | assumption
      | refine Keeps.ite (fun _ => ?_) (fun _ => ?_)
      | apply Keeps.step (State.setB_keeps ..)
      | apply Keeps.step (State.setF_keeps ..)
      | apply Keeps.step (State.modSlot_keeps ..)
      | apply Keeps.step (State.wr_keeps ..)
      | apply Keeps.step (State.slotRefuse_keeps ..)
    | split

theorem State.wSlotReg_keeps (s : State) (i : Nat) (off : Nat) (v : Word) : Keeps 68719476737 s (State.wSlotReg s i off v) := by
  unfold State.wSlotReg
  try dsimp only
  repeat' first
    | exact (rfl : (_ : Bool) = _)
    | with_reducible first
      | exact Keeps.refl ..
      | refine Keeps.ite (fun _ => ?_) (fun _ => ?_)
      | apply Keeps.step (State.wr_keeps ..)
      | apply Keeps.step (State.slotRefuse_keeps ..)
    | split

theorem State.wSpineCtl_keeps (s : State) (v : Word) : Keeps 8607403876353 s (State.wSpineCtl s v) := by
  unfold State.wSpineCtl
  try dsimp only
  repeat' first
    | exact (rfl : (_ : Bool) = _)
    | with_reducible first
      | exact Keeps.refl ..
      | apply Keeps.step (State.wr_keeps ..)
      | apply Keeps.step (State.carrierEval_keeps ..)

theorem State.wSpn_keeps (s : State) (i : Itf) (a : Nat) (v : Word) : Keeps 8607403876353 s (State.wSpn s i a v) := by
  unfold State.wSpn
  try dsimp only
  repeat' first
    | exact (rfl : (_ : Bool) = _)
    | with_reducible first
      | exact Keeps.refl ..
      | assumption
      | refine Keeps.ite (fun _ => ?_) (fun _ => ?_)
      | apply Keeps.step (State.accStore_keeps ..)
      | apply Keeps.step (State.wSpineCtl_keeps ..)
      | apply Keeps.step (State.wSlotCtl_keeps ..)
      | apply Keeps.step (State.snapRequest_keeps ..)
      | apply Keeps.step (State.wSlotReg_keeps ..)
    | split

theorem State.calCount_keeps (s : State) (k : Fin 12) : Keeps 98304 s (State.calCount s k) := by
  unfold State.calCount
  try dsimp only
  repeat' first
    | exact (rfl : (_ : Bool) = _)
    | with_reducible first
      | exact Keeps.refl ..
      | apply Keeps.step (State.modUnit_keeps ..)

theorem State.calTrigger_keeps (s : State) (k : Fin 12) : Keeps 98305 s (State.calTrigger s k) := by
  unfold State.calTrigger
  try dsimp only
  repeat' first
    | exact (rfl : (_ : Bool) = _)
    | with_reducible first
      | exact Keeps.refl ..
      | refine Keeps.ite (fun _ => ?_) (fun _ => ?_)
      | apply Keeps.step (State.setB_keeps ..)
      | apply Keeps.step (State.modUnit_keeps ..)
    | split

theorem State.wCalCtl_keeps (s : State) (v : Word) : Keeps 98305 s (State.wCalCtl s v) := by
  unfold State.wCalCtl
  try dsimp only
  repeat' first
    | exact (rfl : (_ : Bool) = _)
    | with_reducible first
      | exact Keeps.refl ..
      | assumption
      | refine Keeps.ite (fun _ => ?_) (fun _ => ?_)
      | apply Keeps.step (State.calCount_keeps ..)
      | apply Keeps.step (State.wr_keeps ..)
      | apply Keeps.step (State.calTrigger_keeps ..)
      | refine Keeps.foldl _ _ ?_ (fun _ _ _ => ?_)
    | split

theorem State.wTiuCtl_keeps (s : State) (k : Fin 12) (v : Word) : Keeps 2542621786113 s (State.wTiuCtl s k v) := by
  unfold State.wTiuCtl
  try dsimp only
  repeat' first
    | exact (rfl : (_ : Bool) = _)
    | with_reducible first
      | exact Keeps.refl ..
      | refine Keeps.ite (fun _ => ?_) (fun _ => ?_)
      | apply Keeps.step (State.setB_keeps ..)
      | apply Keeps.step (State.wr_keeps ..)
      | apply Keeps.step (State.raise_keeps ..)
      | apply Keeps.step (State.abandon_keeps ..)
    | split

theorem State.wTiuLane_keeps (s : State) (m : Fin 18) (v : Word) : Keeps 2542621786113 s (State.wTiuLane s m v) := by
  unfold State.wTiuLane
  try dsimp only
  repeat' first
    | exact (rfl : (_ : Bool) = _)
    | with_reducible first
      | exact Keeps.refl ..
      | refine Keeps.ite (fun _ => ?_) (fun _ => ?_)
      | apply Keeps.step (State.setB_keeps ..)
      | apply Keeps.step (State.rwStore_keeps ..)
      | apply Keeps.step (State.abandon_keeps ..)
    | split

theorem State.wTiu_keeps (s : State) (a : Nat) (v : Word) : Keeps 2542621786113 s (State.wTiu s a v) := by
  unfold State.wTiu
  try dsimp only
  repeat' first
    | exact (rfl : (_ : Bool) = _)
    | with_reducible first
      | exact Keeps.refl ..
      | assumption
      | refine Keeps.ite (fun _ => ?_) (fun _ => ?_)
      | apply Keeps.step (State.wTiuLane_keeps ..)
      | apply Keeps.step (State.accStore_keeps ..)
      | apply Keeps.step (State.wTiuCtl_keeps ..)
      | apply Keeps.step (State.wCalCtl_keeps ..)
    | split

theorem State.xchkEval_keeps (s : State) : Keeps 16777216 s (State.xchkEval s) := by
  unfold State.xchkEval
  try dsimp only
  repeat' first
    | exact (rfl : (_ : Bool) = _)
    | with_reducible first
      | exact Keeps.refl ..
    | with_reducible apply Keeps.step (Keeps.with_tnd ..)

theorem State.wTnd_keeps (s : State) (a : Nat) (v : Word) : Keeps 2542638563329 s (State.wTnd s a v) := by
  unfold State.wTnd
  try dsimp only
  repeat' first
    | exact (rfl : (_ : Bool) = _)
    | with_reducible first
      | exact Keeps.refl ..
      | assumption
      | refine Keeps.ite (fun _ => ?_) (fun _ => ?_)
      | apply Keeps.step (State.xchkEval_keeps ..)
      | apply Keeps.step (State.wr_keeps ..)
      | apply Keeps.step (State.wrN_keeps ..)
      | apply Keeps.step (State.rwStore_keeps ..)
      | apply Keeps.step (State.healthFall_keeps ..)
      | apply Keeps.step (State.abandon_keeps ..)
      | apply Keeps.step (State.tndAlign_keeps ..)
    | split

theorem State.hostWr_keeps (s : State) (i : Itf) (a : Nat) (v : Word) : Keeps 131941395333119 s (State.hostWr s i a v) := by
  unfold State.hostWr
  try dsimp only
  repeat' first
    | exact (rfl : (_ : Bool) = _)
    | with_reducible first
      | exact Keeps.refl ..
      | assumption
      | refine Keeps.ite (fun _ => ?_) (fun _ => ?_)
      | apply Keeps.step (State.wGnsReg_keeps ..)
      | apply Keeps.step (State.wDmaReg_keeps ..)
      | apply Keeps.step (State.wIrqStat_keeps ..)
      | apply Keeps.step (State.wCommit_keeps ..)
      | apply Keeps.step (State.wTnd_keeps ..)
      | apply Keeps.step (State.wLan_keeps ..)
      | apply Keeps.step (State.accStore_keeps ..)
      | apply Keeps.step (State.wRef_keeps ..)
      | apply Keeps.step (State.wPrf_keeps ..)
      | apply Keeps.step (State.wPkt_keeps ..)
      | apply Keeps.step (State.wCfg_keeps ..)
      | apply Keeps.step (State.wDomReq_keeps ..)
      | apply Keeps.step (State.wMac_keeps ..)
      | apply Keeps.step (State.wSel_keeps ..)
      | apply Keeps.step (State.wIrqEn_keeps ..)
      | apply Keeps.step (State.wSpn_keeps ..)
      | apply Keeps.step (State.wPwr_keeps ..)
      | apply Keeps.step (State.wBnd_keeps ..)
      | apply Keeps.step (State.wCst_keeps ..)
      | apply Keeps.step (State.wShadow_keeps ..)
      | apply Keeps.step (State.wTiu_keeps ..)
      | apply Keeps.step (State.wFltReg_keeps ..)
      | apply Keeps.step (State.wKeyReg_keeps ..)
      | apply Keeps.step (State.wEns_keeps ..)
    | split

theorem State.setImg_keeps (s : State) (a : Nat) (w : Word) : Keeps 536870912 s (State.setImg s a w) :=
  State.modImg_keeps s _ fun h => by
    simp only [State.wf, Bool.and_eq_true] at h
    exact mapSet_wf _ _ _ _ h.1.1.1.2

theorem State.applyRecord_keeps (s : State) (r : ImgRec) : ∀ t, State.applyRecord s r = some t → Keeps 131941395333119 s t := by
  intro t h
  unfold State.applyRecord at h
  split at h
  · cases h
  · dsimp only at h
    split at h
    · cases h
    · split at h
      · cases h
      · cases h
        exact Keeps.step (State.setImg_keeps _ _ _) rfl (Keeps.step (State.hostWr_keeps _ _ _ _) rfl (Keeps.refl _ _))

theorem State.applyRecords_keeps (s : State) (l : List ImgRec) : ∀ t, State.applyRecords s l = .inr t → Keeps 131941395333119 s t := by
  induction l generalizing s with
  | nil => intro t h; cases h; exact Keeps.refl _ _
  | cons r l ih =>
    intro t h
    unfold State.applyRecords at h
    split at h
    · cases h
    · rename_i u hu
      have k := State.applyRecord_keeps s r u hu
      have k2 := ih u t h
      exact Keeps.step k2 rfl (Keeps.step k rfl (Keeps.refl _ _))

theorem State.arm_keeps (s : State) (ch : Chan) (c : CommitSet) : Keeps 4096 s (State.arm s ch c) := by
  unfold State.arm
  try dsimp only
  repeat' first
    | exact (rfl : (_ : Bool) = _)
    | with_reducible first
      | exact Keeps.refl ..
      | assumption
      | refine Keeps.ite (fun _ => ?_) (fun _ => ?_)
      | apply Keeps.step (State.modChan_keeps ..)
    | split

theorem State.arpReply_keeps (s : State) (p : Nat) (e : Eth) (k : Nat) : Keeps 21234385420289 s (State.arpReply s p e k) := by
  unfold State.arpReply
  try dsimp only
  repeat' first
    | exact (rfl : (_ : Bool) = _)
    | with_reducible first
      | exact Keeps.refl ..
      | apply Keeps.step (State.send_keeps ..)

theorem State.authVerify_keeps (s : State) (p : Nat) (m : List Byte) (t : Nat × Nat × List Byte) (slot : Option Nat) (last : Option Nat) : Keeps 618609508352 s (State.authVerify s p m t slot last).2 := by
  unfold State.authVerify
  try dsimp only
  repeat' first
    | exact (rfl : (_ : Bool) = _)
    | with_reducible first
      | exact Keeps.refl ..
      | assumption
      | refine Keeps.ite (fun _ => ?_) (fun _ => ?_)
      | apply Keeps.step (State.tallyAdd_keeps ..)
      | apply Keeps.step (State.runRaise_keeps ..)
    | split

theorem State.authCheck_keeps (s : State) (p : Nat) (m : List Byte) (tlvs : List (Nat × Nat × List Byte)) (slot : Option Nat) (last : Option Nat) : Keeps 618609508352 s (State.authCheck s p m tlvs slot last).2 := by
  unfold State.authCheck
  try dsimp only
  repeat' first
    | exact (rfl : (_ : Bool) = _)
    | with_reducible first
      | exact Keeps.refl ..
      | assumption
      | refine Keeps.ite (fun _ => ?_) (fun _ => ?_)
      | apply Keeps.step (State.authVerify_keeps ..)
      | apply Keeps.step (Keeps.ofSnd ‹_› (State.authVerify_keeps ..))
    | split

theorem State.authOut_keeps (s : State) (p : Nat) (slot : Option Nat) (spp : Nat) (keyId : Nat) : Keeps 18691764781056 s (State.authOut s p slot spp keyId).2 := by
  unfold State.authOut
  try dsimp only
  repeat' first
    | exact (rfl : (_ : Bool) = _)
    | with_reducible first
      | exact Keeps.refl ..
      | assumption
      | refine Keeps.ite (fun _ => ?_) (fun _ => ?_)
      | apply Keeps.step (State.modPort_keeps ..)
      | apply Keeps.step (State.setHot_keeps ..)
    | split

theorem State.setBank_keeps (s : State) (i : Itf) (m : RegFile) (h : s.wf = true → mapWf resetWord m = true) : Keeps 48 s (State.setBank s i m) := by
  cases i
  · exact Keeps.step (Keeps.with_bankP s m h) rfl (Keeps.refl _ _)
  · exact Keeps.step (Keeps.with_bankI s m h) rfl (Keeps.refl _ _)

theorem State.bankWr_keeps (s : State) (i : Itf) (o : Nat) (v : Word) : Keeps 48 s (State.bankWr s i o v) := by
  refine Keeps.step (State.setBank_keeps s i _ fun h => ?_) rfl (Keeps.refl _ _)
  simp only [State.wf, Bool.and_eq_true] at h
  cases i
  · exact mapSet_wf _ _ _ _ h.1.1.1.1.1.2
  · exact mapSet_wf _ _ _ _ h.1.1.1.1.2

theorem State.dramFail_keeps (s : State) (es : List EccHit) : Keeps 268435456 s (State.dramFail s es) := by
  unfold State.dramFail
  try dsimp only
  repeat' first
    | exact (rfl : (_ : Bool) = _)
    | with_reducible first
      | exact Keeps.refl ..
      | refine Keeps.ite (fun _ => ?_) (fun _ => ?_)
      | apply Keeps.step (State.setFlaws_keeps ..)
    | split

theorem State.hold_keeps (s : State) (h : HeldWrite) : Keeps 3072 s (State.hold s h) := by
  unfold State.hold
  try dsimp only
  repeat' first
    | exact (rfl : (_ : Bool) = _)
    | with_reducible first
      | exact Keeps.refl ..
      | assumption
    | split
    | with_reducible apply Keeps.step (Keeps.with_heldP ..)
    | with_reducible apply Keeps.step (Keeps.with_heldI ..)

theorem State.rBar2_keeps (s : State) (a : Nat) (n : Nat) : Keeps 21784476778689 s (State.rBar2 s a n) := by
  unfold State.rBar2
  try dsimp only
  repeat' first
    | exact (rfl : (_ : Bool) = _)
    | with_reducible first
      | exact Keeps.refl ..
      | assumption
      | refine Keeps.ite (fun _ => ?_) (fun _ => ?_)
      | apply Keeps.step (State.tallyAdd_keeps ..)
      | apply Keeps.step (State.complete_keeps ..)
      | apply Keeps.step (State.meet_keeps ..)
      | refine Keeps.foldl _ _ ?_ (fun _ _ _ => ?_)
    | split

theorem State.bar2Read_keeps (s : State) (a : Nat) (n : Nat) (errs : List EccHit) : Keeps 21784476781761 s (State.bar2Read s a n errs) := by
  unfold State.bar2Read
  try dsimp only
  repeat' first
    | exact (rfl : (_ : Bool) = _)
    | with_reducible first
      | exact Keeps.refl ..
      | refine Keeps.ite (fun _ => ?_) (fun _ => ?_)
      | apply Keeps.step (State.dramFail_keeps ..)
      | apply Keeps.step (State.rBar2_keeps ..)
      | apply Keeps.step (State.hold_keeps ..)
    | split

theorem State.vectorFree_keeps (s : State) (v : Nat) : Keeps 2473901162496 s (State.vectorFree s v) := by
  unfold State.vectorFree
  try dsimp only
  repeat' first
    | exact (rfl : (_ : Bool) = _)
    | with_reducible first
      | exact Keeps.refl ..
      | assumption
      | refine Keeps.ite (fun _ => ?_) (fun _ => ?_)
      | apply Keeps.step (State.sendVector_keeps ..)
    | split
    | with_reducible apply Keeps.step (Keeps.with_pba ..)

theorem State.setMask_keeps (s : State) (v : Nat) (m : Bool) : Keeps 2611340115968 s (State.setMask s v m) := by
  unfold State.setMask
  try dsimp only
  repeat' first
    | exact (rfl : (_ : Bool) = _)
    | with_reducible first
      | exact Keeps.refl ..
      | refine Keeps.ite (fun _ => ?_) (fun _ => ?_)
      | apply Keeps.step (State.vectorFree_keeps ..)
    | split
    | with_reducible apply Keeps.step (Keeps.with_vecMask ..)

theorem State.bar4Put_keeps (s : State) (o : Nat) (v : Word) : Keeps 72980084293632 s (State.bar4Put s o v) := by
  unfold State.bar4Put
  try dsimp only
  repeat' first
    | exact (rfl : (_ : Bool) = _)
    | with_reducible first
      | exact Keeps.refl ..
      | refine Keeps.ite (fun _ => ?_) (fun _ => ?_)
      | apply Keeps.step (State.setMask_keeps ..)
    | split
    | with_reducible apply Keeps.step (Keeps.with_pcie ..)

theorem State.bar4Read_keeps (s : State) (off : BitVec 14) (wide : Bool) : Keeps 2542620639425 s (State.bar4Read s off wide) := by
  unfold State.bar4Read
  try dsimp only
  repeat' first
    | exact (rfl : (_ : Bool) = _)
    | with_reducible first
      | exact Keeps.refl ..
      | refine Keeps.ite (fun _ => ?_) (fun _ => ?_)
      | apply Keeps.step (State.complete_keeps ..)
      | apply Keeps.step (State.mtxErr_keeps ..)
    | split

theorem State.c25Result_keeps (s : State) : Keeps 16777217 s (State.c25Result s) := by
  unfold State.c25Result
  try dsimp only
  repeat' first
    | exact (rfl : (_ : Bool) = _)
    | with_reducible first
      | exact Keeps.refl ..
      | apply Keeps.step (State.wrS64_keeps ..)
      | apply Keeps.step (State.tndAlign_keeps ..)
    | with_reducible apply Keeps.step (Keeps.with_tnd ..)

theorem State.showCal_keeps (s : State) (k : Fin 12) (s500 : Nat) (s1000 : Nat) : Keeps 1 s (State.showCal s k s500 s1000) := by
  unfold State.showCal
  try dsimp only
  repeat' first
    | exact (rfl : (_ : Bool) = _)
    | with_reducible first
      | exact Keeps.refl ..
      | apply Keeps.step (State.wrN_keeps ..)

theorem State.calEnd_keeps (s : State) (k : Fin 12) (s500 : Nat) (s1000 : Nat) : Keeps 8607405023233 s (State.calEnd s k s500 s1000) := by
  unfold State.calEnd
  try dsimp only
  repeat' first
    | exact (rfl : (_ : Bool) = _)
    | with_reducible first
      | exact Keeps.refl ..
      | assumption
      | refine Keeps.ite (fun _ => ?_) (fun _ => ?_)
      | apply Keeps.step (State.setB_keeps ..)
      | apply Keeps.step (State.showCal_keeps ..)
      | apply Keeps.step (State.modUnit_keeps ..)
      | apply Keeps.step (State.raise_keeps ..)
      | apply Keeps.step (State.abandon_keeps ..)
      | apply Keeps.step (State.count_keeps ..)
      | apply Keeps.step (State.memberEval_keeps ..)
      | apply Keeps.step (State.calTrigger_keeps ..)
    | split

theorem State.capture_keeps (s : State) (i : Itf) (n : Nat) : Keeps 8240 s (State.capture s i n) := by
  unfold State.capture
  try dsimp only
  repeat' first
    | exact (rfl : (_ : Bool) = _)
    | with_reducible first
      | exact Keeps.refl ..
      | assumption
      | refine Keeps.ite (fun _ => ?_) (fun _ => ?_)
      | apply Keeps.step (State.bankWr_keeps ..)
      | apply Keeps.step (State.modBase_keeps ..)
    | split

theorem State.setTake_keeps (s : State) (i : Itf) (x : Option Nat) : Keeps 8192 s (State.setTake s i x) := by
  unfold State.setTake
  try dsimp only
  repeat' first
    | exact (rfl : (_ : Bool) = _)
    | exact Shape.lenOf (fun h => by first | (simp only [listMod_length, List.length_map, List.length_mapIdx, List.length_set, List.length_range, List.length_replicate, h.all, mapWf_nil, and_self]; done) | (simp [h.all, mapSet_wf]; done) | (split <;> simp [h.all] <;> done) | (constructor <;> split <;> simp [h.all] <;> done))
    | with_reducible first
      | exact Keeps.refl ..
      | assumption
      | apply Keeps.step (State.modSpn_keeps _ _ ?_)
    | split

theorem State.captureEnd_keeps (s : State) (i : Itf) : Keeps 8240 s (State.captureEnd s i) := by
  unfold State.captureEnd
  try dsimp only
  repeat' first
    | exact (rfl : (_ : Bool) = _)
    | with_reducible first
      | exact Keeps.refl ..
      | assumption
      | refine Keeps.ite (fun _ => ?_) (fun _ => ?_)
      | apply Keeps.step (State.setTake_keeps ..)
      | apply Keeps.step (State.capture_keeps ..)
      | refine Keeps.foldl _ _ ?_ (fun _ _ _ => ?_)
    | split

theorem State.captureTick_keeps (s : State) (i : Itf) : Keeps 8192 s (State.captureTick s i) := by
  unfold State.captureTick
  try dsimp only
  repeat' first
    | exact (rfl : (_ : Bool) = _)
    | with_reducible first
      | exact Keeps.refl ..
      | assumption
      | apply Keeps.step (State.setTake_keeps ..)
      | apply Keeps.step (State.setSnap_keeps ..)
    | split

theorem State.cfgMatch_keeps (s : State) (gen : Nat) : Keeps 68736253953 s (State.cfgMatch s gen) := by
  unfold State.cfgMatch
  try dsimp only
  repeat' first
    | exact (rfl : (_ : Bool) = _)
    | with_reducible first
      | exact Keeps.refl ..
      | refine Keeps.ite (fun _ => ?_) (fun _ => ?_)
      | apply Keeps.step (State.setB_keeps ..)
      | apply Keeps.step (State.wrN_keeps ..)
      | apply Keeps.step (State.raise_keeps ..)
      | apply Keeps.step (State.modTnd_keeps ..)
    | split

theorem State.ringsHalt_keeps (s : State) (p : Nat) : Keeps 2542687748097 s (State.ringsHalt s p) := by
  unfold State.ringsHalt
  try dsimp only
  repeat' first
    | exact (rfl : (_ : Bool) = _)
    | with_reducible first
      | exact Keeps.refl ..
      | refine Keeps.ite (fun _ => ?_) (fun _ => ?_)
      | apply Keeps.step (State.setB_keeps ..)
      | apply Keeps.step (State.irq_keeps ..)
      | apply Keeps.step (State.raise_keeps ..)
      | apply Keeps.step (State.txHalt_keeps ..)
    | split

theorem State.linkReset_keeps (s : State) (cause : LinkReset) : Keeps 77447991141441 s (State.linkReset s cause) := by
  unfold State.linkReset
  try dsimp only
  repeat' first
    | exact (rfl : (_ : Bool) = _)
    | exact Shape.lenOf (fun h => by first | (simp only [listMod_length, List.length_map, List.length_mapIdx, List.length_set, List.length_range, List.length_replicate, h.all, mapWf_nil, and_self]; done) | (simp [h.all, mapSet_wf]; done) | (split <;> simp [h.all] <;> done) | (constructor <;> split <;> simp [h.all] <;> done))
    | with_reducible first
      | exact Keeps.refl ..
      | assumption
      | refine Keeps.ite (fun _ => ?_) (fun _ => ?_)
      | apply Keeps.step (State.setB_keeps ..)
      | apply Keeps.step (State.dmaStop_keeps ..)
      | apply Keeps.step (State.irq_keeps ..)
      | apply Keeps.step (State.setF_keeps ..)
      | apply Keeps.step (State.raise_keeps ..)
      | apply Keeps.step (State.ringsHalt_keeps ..)
      | refine Keeps.foldl _ _ ?_ (fun _ _ _ => ?_)
    | split
    | with_reducible apply Keeps.step (Keeps.with_rdP_heldP_spn_pwr_vecMask_pba_pcie _ _ _ _ _ _ _ _ ?_)

theorem State.cfgWrite_keeps (s : State) (r : CfgReg) (v : Word) : Keeps 77447991141441 s (State.cfgWrite s r v) := by
  unfold State.cfgWrite
  try dsimp only
  repeat' first
    | exact (rfl : (_ : Bool) = _)
    | with_reducible first
      | exact Keeps.refl ..
      | assumption
      | refine Keeps.ite (fun _ => ?_) (fun _ => ?_)
      | apply Keeps.step (State.setB_keeps ..)
      | apply Keeps.step (State.vectorFree_keeps ..)
      | apply Keeps.step (State.linkReset_keeps ..)
      | refine Keeps.foldl _ _ ?_ (fun _ _ _ => ?_)
    | split
    | with_reducible apply Keeps.step (Keeps.with_pcie ..)

theorem State.chestLost_keeps (s : State) : Keeps 103079215105 s (State.chestLost s) := by
  unfold State.chestLost
  try dsimp only
  repeat' first
    | exact (rfl : (_ : Bool) = _)
    | exact Shape.lenOf (fun h => by first | (simp only [listMod_length, List.length_map, List.length_mapIdx, List.length_set, List.length_range, List.length_replicate, h.all, mapWf_nil, and_self]; done) | (simp [h.all, mapSet_wf]; done) | (split <;> simp [h.all] <;> done) | (constructor <;> split <;> simp [h.all] <;> done))
    | with_reducible first
      | exact Keeps.refl ..
      | assumption
      | refine Keeps.ite (fun _ => ?_) (fun _ => ?_)
      | apply Keeps.step (State.setB_keeps ..)
      | apply Keeps.step (State.raise_keeps ..)
      | apply Keeps.step (State.modKeys_keeps _ _ ?_)
    | split

theorem State.deafEval_keeps (s : State) : Keeps 68736253953 s (State.deafEval s) := by
  unfold State.deafEval
  try dsimp only
  repeat' first
    | exact (rfl : (_ : Bool) = _)
    | with_reducible first
      | exact Keeps.refl ..
      | refine Keeps.ite (fun _ => ?_) (fun _ => ?_)
      | apply Keeps.step (State.setB_keeps ..)
      | apply Keeps.step (State.raise_keeps ..)
      | apply Keeps.step (State.modTnd_keeps ..)
    | split

theorem State.claimGood_keeps (s : State) (f : ClaimFrame) : Keeps 68736253953 s (State.claimGood s f) := by
  unfold State.claimGood
  try dsimp only
  repeat' first
    | exact (rfl : (_ : Bool) = _)
    | with_reducible first
      | exact Keeps.refl ..
      | assumption
      | refine Keeps.ite (fun _ => ?_) (fun _ => ?_)
      | apply Keeps.step (State.setB_keeps ..)
      | apply Keeps.step (State.countSat_keeps ..)
      | apply Keeps.step (State.deafEval_keeps ..)
      | apply Keeps.step (State.raise_keeps ..)
      | apply Keeps.step (State.modTnd_keeps ..)
    | split

theorem State.cliReady_keeps (s : State) (k : Nat) : Keeps 8607538094081 s (State.cliReady s k) := by
  unfold State.cliReady
  try dsimp only
  repeat' first
    | exact (rfl : (_ : Bool) = _)
    | with_reducible first
      | exact Keeps.refl ..
      | refine Keeps.ite (fun _ => ?_) (fun _ => ?_)
      | apply Keeps.step (State.raise_keeps ..)
      | apply Keeps.step (State.modCli_keeps ..)
      | apply Keeps.step (State.setCli_keeps ..)
    | split

theorem State.qualityIn_keeps (s : State) (c : Nat) (qin : Word) : Keeps 1 s (State.qualityIn s c qin) := by
  unfold State.qualityIn
  try dsimp only
  repeat' first
    | exact (rfl : (_ : Bool) = _)
    | with_reducible first
      | exact Keeps.refl ..
      | apply Keeps.step (State.setF_keeps ..)
      | apply Keeps.step (State.ueffEval_keeps ..)
      | apply Keeps.step (State.wr_keeps ..)

theorem State.cliAnnounce_keeps (s : State) (k : Nat) (m : List Byte) (bl : Option (List Byte)) : Keeps 8607546482689 s (State.cliAnnounce s k m bl) := by
  unfold State.cliAnnounce
  try dsimp only
  repeat' first
    | exact (rfl : (_ : Bool) = _)
    | exact Shape.lenOf (fun h => by first | (simp only [listMod_length, List.length_map, List.length_mapIdx, List.length_set, List.length_range, List.length_replicate, h.all, mapWf_nil, and_self]; done) | (simp [h.all, mapSet_wf]; done) | (split <;> simp [h.all] <;> done) | (constructor <;> split <;> simp [h.all] <;> done))
    | with_reducible first
      | exact Keeps.refl ..
      | assumption
      | apply Keeps.step (State.setF_keeps ..)
      | apply Keeps.step (State.wrN_keeps ..)
      | apply Keeps.step (State.modCli_keeps ..)
      | apply Keeps.step (State.qualityIn_keeps ..)
      | apply Keeps.step (State.cliReady_keeps ..)
      | apply Keeps.step (State.candRound_keeps ..)
    | split
    | with_reducible apply Keeps.step (Keeps.with_srcRes _ _ ?_)

theorem State.cliAuth_keeps (s : State) (k : Nat) : Keeps 134217728 s (State.cliAuth s k).2 := by
  unfold State.cliAuth
  try dsimp only
  repeat' first
    | exact (rfl : (_ : Bool) = _)
    | with_reducible first
      | exact Keeps.refl ..
      | assumption
      | refine Keeps.ite (fun _ => ?_) (fun _ => ?_)
      | apply Keeps.step (State.modCli_keeps ..)
    | split

theorem State.cliDelayReq_keeps (s : State) (k : Nat) : Keeps 21784275451905 s (State.cliDelayReq s k) := by
  unfold State.cliDelayReq
  try dsimp only
  repeat' first
    | exact (rfl : (_ : Bool) = _)
    | with_reducible first
      | exact Keeps.refl ..
      | assumption
      | refine Keeps.ite (fun _ => ?_) (fun _ => ?_)
      | apply Keeps.step (State.cliAuth_keeps ..)
      | apply Keeps.step (Keeps.ofSnd ‹_› (State.cliAuth_keeps ..))
      | apply Keeps.step (State.buildLater_keeps ..)
      | apply Keeps.step (State.modCli_keeps ..)
      | apply Keeps.step (State.flightIn_keeps ..)
      | apply Keeps.step (State.send_keeps ..)
    | split

theorem State.monResult_keeps (s : State) (c : Nat) (restart : Bool) : Keeps 4194305 s (State.monResult s c restart) := by
  unfold State.monResult
  try dsimp only
  repeat' first
    | exact (rfl : (_ : Bool) = _)
    | with_reducible first
      | exact Keeps.refl ..
      | refine Keeps.ite (fun _ => ?_) (fun _ => ?_)
      | apply Keeps.step (State.modMon_keeps ..)
      | apply Keeps.step (State.monReset_keeps ..)
    | split

theorem State.cliResult_keeps (s : State) (k : Nat) (xs : List (Int × Int × RxAt)) : Keeps 146800641 s (State.cliResult s k xs) := by
  unfold State.cliResult
  try dsimp only
  repeat' first
    | exact (rfl : (_ : Bool) = _)
    | exact Shape.lenOf (fun h => by first | (simp only [listMod_length, List.length_map, List.length_mapIdx, List.length_set, List.length_range, List.length_replicate, h.all, mapWf_nil, and_self]; done) | (simp [h.all, mapSet_wf]; done) | (split <;> simp [h.all] <;> done) | (constructor <;> split <;> simp [h.all] <;> done))
    | with_reducible first
      | exact Keeps.refl ..
      | assumption
      | refine Keeps.ite (fun _ => ?_) (fun _ => ?_)
      | apply Keeps.step (State.wr_keeps ..)
      | apply Keeps.step (State.wrN_keeps ..)
      | apply Keeps.step (State.monResult_keeps ..)
      | apply Keeps.step (State.wrS64_keeps ..)
      | apply Keeps.step (State.modCli_keeps ..)
      | refine Keeps.foldl _ _ ?_ (fun _ _ _ => ?_)
    | split
    | with_reducible apply Keeps.step (Keeps.with_srcRes _ _ ?_)

theorem State.cliExchange_keeps (s : State) (k : Nat) (d12 : Int) (d34 : Int) (t2 : RxAt) : Keeps 146800641 s (State.cliExchange s k d12 d34 t2) := by
  unfold State.cliExchange
  try dsimp only
  repeat' first
    | exact (rfl : (_ : Bool) = _)
    | with_reducible first
      | exact Keeps.refl ..
      | refine Keeps.ite (fun _ => ?_) (fun _ => ?_)
      | apply Keeps.step (State.cliResult_keeps ..)
      | apply Keeps.step (State.modCli_keeps ..)
    | split

theorem State.cliDenied_keeps (s : State) (k : Nat) : Keeps 68853694465 s (State.cliDenied s k) := by
  unfold State.cliDenied
  try dsimp only
  repeat' first
    | exact (rfl : (_ : Bool) = _)
    | with_reducible first
      | exact Keeps.refl ..
      | refine Keeps.ite (fun _ => ?_) (fun _ => ?_)
      | apply Keeps.step (State.countSat_keeps ..)
      | apply Keeps.step (State.raise_keeps ..)
      | apply Keeps.step (State.modCli_keeps ..)
    | split

theorem State.cliWait_keeps (s : State) (k : Nat) : Keeps 8607538094081 s (State.cliWait s k) := by
  unfold State.cliWait
  try dsimp only
  repeat' first
    | exact (rfl : (_ : Bool) = _)
    | with_reducible first
      | exact Keeps.refl ..
      | apply Keeps.step (State.modCli_keeps ..)
      | apply Keeps.step (State.setCli_keeps ..)

theorem State.cliGrant_keeps (s : State) (k : Nat) (v : List Byte) : Keeps 8607538094081 s (State.cliGrant s k v) := by
  unfold State.cliGrant
  try dsimp only
  repeat' first
    | exact (rfl : (_ : Bool) = _)
    | with_reducible first
      | exact Keeps.refl ..
      | assumption
      | refine Keeps.ite (fun _ => ?_) (fun _ => ?_)
      | apply Keeps.step (State.cliWait_keeps ..)
      | apply Keeps.step (State.modCli_keeps ..)
      | apply Keeps.step (State.cliDenied_keeps ..)
    | split

theorem State.cliSignal_keeps (s : State) (k : Nat) (tlvs : List Byte) : Keeps 21784275451905 s (State.cliSignal s k tlvs) := by
  unfold State.cliSignal
  try dsimp only
  repeat' first
    | exact (rfl : (_ : Bool) = _)
    | with_reducible first
      | exact Keeps.refl ..
      | refine Keeps.ite (fun _ => ?_) (fun _ => ?_)
      | apply Keeps.step (State.cliAuth_keeps ..)
      | apply Keeps.step (Keeps.ofSnd ‹_› (State.cliAuth_keeps ..))
      | apply Keeps.step (State.buildLater_keeps ..)
      | apply Keeps.step (State.modCli_keeps ..)
      | apply Keeps.step (State.flightIn_keeps ..)
      | apply Keeps.step (State.send_keeps ..)
    | split

theorem State.cliRequest_keeps (s : State) (k : Nat) : Keeps 26199791247361 s (State.cliRequest s k) := by
  unfold State.cliRequest
  try dsimp only
  repeat' first
    | exact (rfl : (_ : Bool) = _)
    | with_reducible first
      | exact Keeps.refl ..
      | refine Keeps.ite (fun _ => ?_) (fun _ => ?_)
      | apply Keeps.step (State.cliWait_keeps ..)
      | apply Keeps.step (State.cliSignal_keeps ..)
      | apply Keeps.step (State.modCli_keeps ..)
      | apply Keeps.step (State.setCli_keeps ..)
    | split

theorem State.cliLose_keeps (s : State) (k : Nat) (cause : Nat) : Keeps 26199791247361 s (State.cliLose s k cause) := by
  unfold State.cliLose
  try dsimp only
  repeat' first
    | exact (rfl : (_ : Bool) = _)
    | with_reducible first
      | exact Keeps.refl ..
      | refine Keeps.ite (fun _ => ?_) (fun _ => ?_)
      | apply Keeps.step (State.cliRequest_keeps ..)
      | apply Keeps.step (State.raise_keeps ..)
    | split

theorem State.cliMessage_keeps (s : State) (k : Nat) (f : RxStored) (m : List Byte) (tlvs : List (Nat × Nat × List Byte)) : Keeps 26199799635969 s (State.cliMessage s k f m tlvs) := by
  unfold State.cliMessage
  try dsimp only
  repeat' first
    | exact (rfl : (_ : Bool) = _)
    | with_reducible first
      | exact Keeps.refl ..
      | assumption
      | refine Keeps.ite (fun _ => ?_) (fun _ => ?_)
      | apply Keeps.step (State.cliExchange_keeps ..)
      | apply Keeps.step (State.cliDelayReq_keeps ..)
      | apply Keeps.step (State.cliAnnounce_keeps ..)
      | apply Keeps.step (State.cliGrant_keeps ..)
      | apply Keeps.step (State.cliLose_keeps ..)
      | apply Keeps.step (State.cliSignal_keeps ..)
      | apply Keeps.step (State.modCli_keeps ..)
      | apply Keeps.step (State.cliReady_keeps ..)
      | refine Keeps.foldl _ _ ?_ (fun _ _ _ => ?_)
    | split

theorem State.toHost_keeps (s : State) (p : Nat) (f : RxStored) (reason : Nat) : Keeps 2542821965825 s (State.toHost s p f reason) := by
  unfold State.toHost
  try dsimp only
  repeat' first
    | exact (rfl : (_ : Bool) = _)
    | with_reducible first
      | exact Keeps.refl ..
      | refine Keeps.ite (fun _ => ?_) (fun _ => ?_)
      | apply Keeps.step (State.modPort_keeps ..)
      | apply Keeps.step (State.irq_keeps ..)
      | apply Keeps.step (State.pktCount_keeps ..)
      | apply Keeps.step (State.runRaise_keeps ..)
    | split

theorem State.refuse_keeps (s : State) (q : Req) (reason : Nat) : Keeps 2542821965825 s (State.refuse s q reason) := by
  unfold State.refuse
  try dsimp only
  repeat' first
    | exact (rfl : (_ : Bool) = _)
    | with_reducible first
      | exact Keeps.refl ..
      | apply Keeps.step (State.flightOut_keeps ..)
      | apply Keeps.step (State.toHost_keeps ..)

theorem State.cliServe_keeps (s : State) (k : Nat) (q : Req) : Keeps 26199799635969 s (State.cliServe s k q) := by
  unfold State.cliServe
  try dsimp only
  repeat' first
    | exact (rfl : (_ : Bool) = _)
    | with_reducible first
      | exact Keeps.refl ..
      | assumption
      | refine Keeps.ite (fun _ => ?_) (fun _ => ?_)
      | apply Keeps.step (State.cliMessage_keeps ..)
      | apply Keeps.step (State.flightOut_keeps ..)
      | apply Keeps.step (State.refuse_keeps ..)
      | apply Keeps.step (State.modCli_keeps ..)
      | apply Keeps.step (State.pktCount_keeps ..)
      | apply Keeps.step (State.authCheck_keeps ..)
      | apply Keeps.step (Keeps.ofSnd ‹_› (State.authCheck_keeps ..))
    | split

theorem State.ndReply_keeps (s : State) (p : Nat) (e : Eth) (k : Nat) : Keeps 21234385420289 s (State.ndReply s p e k) := by
  unfold State.ndReply
  try dsimp only
  repeat' first
    | exact (rfl : (_ : Bool) = _)
    | with_reducible first
      | exact Keeps.refl ..
      | refine Keeps.ite (fun _ => ?_) (fun _ => ?_)
      | apply Keeps.step (State.send_keeps ..)
    | split

theorem State.ntpSend_keeps (s : State) (q : Req) (launch : Nat) (b : NtpBuild) : Keeps 21234385420289 s (State.ntpSend s q launch b) := by
  unfold State.ntpSend
  try dsimp only
  repeat' first
    | exact (rfl : (_ : Bool) = _)
    | with_reducible first
      | exact Keeps.refl ..
      | apply Keeps.step (State.send_keeps ..)

theorem State.ntpTake_keeps (s : State) : Keeps 134217728 s (State.ntpTake s) := by
  unfold State.ntpTake
  try dsimp only
  repeat' first
    | exact (rfl : (_ : Bool) = _)
    | exact Shape.lenOf (fun h => by first | (simp only [listMod_length, List.length_map, List.length_mapIdx, List.length_set, List.length_range, List.length_replicate, h.all, mapWf_nil, and_self]; done) | (simp [h.all, mapSet_wf]; done) | (split <;> simp [h.all] <;> done) | (constructor <;> split <;> simp [h.all] <;> done))
    | with_reducible first
      | exact Keeps.refl ..
    | with_reducible apply Keeps.step (Keeps.with_pkt _ _ ?_)

theorem State.mintCookie_keeps (s : State) (plain : List Byte) : Keeps 4947802324993 s (State.mintCookie s plain).2 := by
  unfold State.mintCookie
  try dsimp only
  repeat' first
    | exact (rfl : (_ : Bool) = _)
    | with_reducible first
      | exact Keeps.refl ..
      | assumption
      | refine Keeps.ite (fun _ => ?_) (fun _ => ?_)
      | apply Keeps.step (State.tallyAdd_keeps ..)
      | apply Keeps.step (State.pktCount_keeps ..)
      | apply Keeps.step (State.takeFree_keeps ..)
      | apply Keeps.step (Keeps.ofSnd ‹_› (State.takeFree_keeps ..))
    | split

theorem State.mintFields_keeps (s : State) (plain : List Byte) (n : Nat) : Keeps 4947802324993 s (State.mintFields s plain n).2 := by
  induction n generalizing s with
  | zero => exact Keeps.refl _ _
  | succ n ih =>
    unfold State.mintFields
    split
    · rename_i h; exact Keeps.step (Keeps.ofSnd h (State.mintCookie_keeps s plain)) rfl (Keeps.refl _ _)
    · rename_i h; exact Keeps.step (ih _) rfl (Keeps.step (Keeps.ofSnd h (State.mintCookie_keeps s plain)) rfl (Keeps.refl _ _))

theorem State.ntsNak_keeps (s : State) (q : Req) (launch : Nat) (uid : List Byte) : Keeps 21234385420289 s (State.ntsNak s q launch uid) := by
  unfold State.ntsNak
  try dsimp only
  repeat' first
    | exact (rfl : (_ : Bool) = _)
    | with_reducible first
      | exact Keeps.refl ..
      | apply Keeps.step (State.ntpSend_keeps ..)
      | apply Keeps.step (State.pktCount_keeps ..)

theorem State.ntsServe_keeps (s : State) (q : Req) (launch : Nat) (fs : List (Nat × Nat × List Byte)) (uidv : List Byte) : Keeps 26182321963009 s (State.ntsServe s q launch fs uidv) := by
  unfold State.ntsServe
  try dsimp only
  repeat' first
    | exact (rfl : (_ : Bool) = _)
    | with_reducible first
      | exact Keeps.refl ..
      | assumption
      | refine Keeps.ite (fun _ => ?_) (fun _ => ?_)
      | apply Keeps.step (State.tallyAdd_keeps ..)
      | apply Keeps.step (State.ntsNak_keeps ..)
      | apply Keeps.step (State.refuse_keeps ..)
      | apply Keeps.step (State.ntpSend_keeps ..)
      | apply Keeps.step (State.mintFields_keeps ..)
      | apply Keeps.step (Keeps.ofSnd ‹_› (State.mintFields_keeps ..))
      | apply Keeps.step (State.pktCount_keeps ..)
      | apply Keeps.step (State.takeFree_keeps ..)
      | apply Keeps.step (Keeps.ofSnd ‹_› (State.takeFree_keeps ..))
    | split

theorem State.ntpAdmit_keeps (s : State) (q : Req) (launch : Nat) (fs : List (Nat × Nat × List Byte)) : Keeps 26182321963009 s (State.ntpAdmit s q launch fs) := by
  unfold State.ntpAdmit
  try dsimp only
  repeat' first
    | exact (rfl : (_ : Bool) = _)
    | with_reducible first
      | exact Keeps.refl ..
      | assumption
      | refine Keeps.ite (fun _ => ?_) (fun _ => ?_)
      | apply Keeps.step (State.irq_keeps ..)
      | apply Keeps.step (State.tallyAdd_keeps ..)
      | apply Keeps.step (State.flightOut_keeps ..)
      | apply Keeps.step (State.ntsServe_keeps ..)
      | apply Keeps.step (State.ntpTake_keeps ..)
      | apply Keeps.step (State.ntpSend_keeps ..)
      | apply Keeps.step (State.pktCount_keeps ..)
      | apply Keeps.step (State.runRaise_keeps ..)
    | split

theorem State.ntpServe_keeps (s : State) (q : Req) (launch : Nat) : Keeps 26182321963009 s (State.ntpServe s q launch) := by
  unfold State.ntpServe
  try dsimp only
  repeat' first
    | exact (rfl : (_ : Bool) = _)
    | with_reducible first
      | exact Keeps.refl ..
      | assumption
      | refine Keeps.ite (fun _ => ?_) (fun _ => ?_)
      | apply Keeps.step (State.refuse_keeps ..)
      | apply Keeps.step (State.ntpAdmit_keeps ..)
      | apply Keeps.step (State.pktCount_keeps ..)
    | split

theorem State.delayResp_keeps (s : State) (q : Req) (slot : Option Nat) (log : Byte) (a : Option (Nat × Nat × Option Nat)) : Keeps 21784141234177 s (State.delayResp s q slot log a) := by
  unfold State.delayResp
  try dsimp only
  repeat' first
    | exact (rfl : (_ : Bool) = _)
    | with_reducible first
      | exact Keeps.refl ..
      | assumption
      | refine Keeps.ite (fun _ => ?_) (fun _ => ?_)
      | apply Keeps.step (State.tallyAdd_keeps ..)
      | apply Keeps.step (State.authOut_keeps ..)
      | apply Keeps.step (Keeps.ofSnd ‹_› (State.authOut_keeps ..))
      | apply Keeps.step (State.send_keeps ..)
    | split

theorem State.sessAccept_keeps (s : State) (q : Req) (i : Nat) (a : Option (Nat × Nat × Option Nat)) : Keeps 18691697672192 s (State.sessAccept s q i a) := by
  unfold State.sessAccept
  try dsimp only
  repeat' first
    | exact (rfl : (_ : Bool) = _)
    | with_reducible first
      | exact Keeps.refl ..
      | assumption
      | apply Keeps.step (State.mwrite_keeps ..)
      | apply Keeps.step (State.setHot_keeps ..)
    | split

theorem State.sessRefuse_keeps (s : State) (q : Req) (slot : Option Nat) (reason : Nat) : Keeps 21234519638017 s (State.sessRefuse s q slot reason) := by
  unfold State.sessRefuse
  try dsimp only
  repeat' first
    | exact (rfl : (_ : Bool) = _)
    | with_reducible first
      | exact Keeps.refl ..
      | assumption
      | refine Keeps.ite (fun _ => ?_) (fun _ => ?_)
      | apply Keeps.step (State.slotStat_keeps ..)
      | apply Keeps.step (State.refuse_keeps ..)
    | split

theorem State.setTokens_keeps (s : State) (i : Nat) (n : Nat) (t : Nat) : Keeps 18691697672192 s (State.setTokens s i n t) := by
  unfold State.setTokens
  try dsimp only
  repeat' first
    | exact (rfl : (_ : Bool) = _)
    | with_reducible first
      | exact Keeps.refl ..
      | apply Keeps.step (State.setHot_keeps ..)

theorem State.delayReq_keeps (s : State) (q : Req) (tlvs : List (Nat × Nat × List Byte)) : Keeps 21784543887361 s (State.delayReq s q tlvs) := by
  unfold State.delayReq
  try dsimp only
  repeat' first
    | exact (rfl : (_ : Bool) = _)
    | with_reducible first
      | exact Keeps.refl ..
      | assumption
      | refine Keeps.ite (fun _ => ?_) (fun _ => ?_)
      | apply Keeps.step (State.irq_keeps ..)
      | apply Keeps.step (State.tallyAdd_keeps ..)
      | apply Keeps.step (State.meetKey_keeps ..)
      | apply Keeps.step (State.flightOut_keeps ..)
      | apply Keeps.step (State.slotStat_keeps ..)
      | apply Keeps.step (State.refuse_keeps ..)
      | apply Keeps.step (State.sessRefuse_keeps ..)
      | apply Keeps.step (State.setTokens_keeps ..)
      | apply Keeps.step (State.delayResp_keeps ..)
      | apply Keeps.step (State.sessAccept_keeps ..)
      | apply Keeps.step (State.pktCount_keeps ..)
      | apply Keeps.step (State.authCheck_keeps ..)
      | apply Keeps.step (Keeps.ofSnd ‹_› (State.authCheck_keeps ..))
      | apply Keeps.step (State.runRaise_keeps ..)
    | split

theorem State.denied_keeps (s : State) (p : Nat) (cause : Nat) (slot : Option Nat) : Keeps 21234318311425 s (State.denied s p cause slot) := by
  unfold State.denied
  try dsimp only
  repeat' first
    | exact (rfl : (_ : Bool) = _)
    | with_reducible first
      | exact Keeps.refl ..
      | assumption
      | apply Keeps.step (State.irq_keeps ..)
      | apply Keeps.step (State.slotStat_keeps ..)
      | apply Keeps.step (State.raise_keeps ..)
      | apply Keeps.step (State.pktCount_keeps ..)
    | split

theorem State.streamRestart_keeps (s : State) (i : Nat) (y : Nat) : Keeps 134217728 s (State.streamRestart s i y) := by
  unfold State.streamRestart
  try dsimp only
  repeat' first
    | exact (rfl : (_ : Bool) = _)
    | exact Shape.lenOf (fun h => by first | (simp only [listMod_length, List.length_map, List.length_mapIdx, List.length_set, List.length_range, List.length_replicate, h.all, mapWf_nil, and_self]; done) | (simp [h.all, mapSet_wf]; done) | (split <;> simp [h.all] <;> done) | (constructor <;> split <;> simp [h.all] <;> done))
    | with_reducible first
      | exact Keeps.refl ..
    | with_reducible apply Keeps.step (Keeps.with_pkt _ _ ?_)

theorem State.putGrant_keeps (s : State) (i : Nat) (p : Nat) (x : Nat) (log : Byte) (dur : Nat) : Keeps 18691831889921 s (State.putGrant s i p x log dur) := by
  unfold State.putGrant
  try dsimp only
  repeat' first
    | exact (rfl : (_ : Bool) = _)
    | with_reducible first
      | exact Keeps.refl ..
      | refine Keeps.ite (fun _ => ?_) (fun _ => ?_)
      | apply Keeps.step (State.budgetShow_keeps ..)
      | apply Keeps.step (State.setTokens_keeps ..)
      | apply Keeps.step (State.streamRestart_keeps ..)
      | apply Keeps.step (State.pktCount_keeps ..)
      | apply Keeps.step (State.setHotBit_keeps ..)
      | apply Keeps.step (State.setHot_keeps ..)
    | split

theorem State.sigTlv_keeps (s : State) (q : Req) (a : Option (Nat × Nat × Option Nat)) (slot : Option Nat) (t : Nat × Nat × List Byte) : Keeps 21784476778497 s (State.sigTlv s q a slot t).2.2 := by
  unfold State.sigTlv
  try dsimp only
  repeat' first
    | exact (rfl : (_ : Bool) = _)
    | with_reducible first
      | exact Keeps.refl ..
      | assumption
      | refine Keeps.ite (fun _ => ?_) (fun _ => ?_)
      | apply Keeps.step (State.budgetShow_keeps ..)
      | apply Keeps.step (State.putGrant_keeps ..)
      | apply Keeps.step (State.tallyAdd_keeps ..)
      | apply Keeps.step (State.slotStat_keeps ..)
      | apply Keeps.step (State.sessInsert_keeps ..)
      | apply Keeps.step (Keeps.ofSnd ‹_› (State.sessInsert_keeps ..))
      | apply Keeps.step (State.setHotBit_keeps ..)
      | apply Keeps.step (State.denied_keeps ..)
    | split

theorem State.sigTlvs_keeps (s : State) (q : Req) (a : Option (Nat × Nat × Option Nat)) (slot : Option Nat) (l : List (Nat × Nat × List Byte)) :
    Keeps 21784476778497 s (State.sigTlvs s q a slot l).2.2 := by
  induction l generalizing s slot with
  | nil => exact Keeps.refl _ _
  | cons t r ih => exact Keeps.step (ih _ _) rfl (Keeps.step (State.sigTlv_keeps s q a slot t) rfl (Keeps.refl _ _))

theorem State.slotHist_keeps (s : State) (m : SessMark) (late : Bool) : Keeps 18691697672192 s (State.slotHist s m late) := by
  unfold State.slotHist
  try dsimp only
  repeat' first
    | exact (rfl : (_ : Bool) = _)
    | with_reducible first
      | exact Keeps.refl ..
      | assumption
      | refine Keeps.ite (fun _ => ?_) (fun _ => ?_)
      | apply Keeps.step (State.slotStat_keeps ..)
      | apply Keeps.step (State.mwrite_keeps ..)
    | split

theorem State.signaling_keeps (s : State) (q : Req) (tlvs : List (Nat × Nat × List Byte)) : Keeps 21784543887361 s (State.signaling s q tlvs) := by
  unfold State.signaling
  try dsimp only
  repeat' first
    | exact (rfl : (_ : Bool) = _)
    | with_reducible first
      | exact Keeps.refl ..
      | assumption
      | refine Keeps.ite (fun _ => ?_) (fun _ => ?_)
      | apply Keeps.step (State.sigTlvs_keeps ..)
      | apply Keeps.step (Keeps.ofSnd ‹_› (State.sigTlvs_keeps ..))
      | apply Keeps.step (State.tallyAdd_keeps ..)
      | apply Keeps.step (State.sessSeq_keeps ..)
      | apply Keeps.step (Keeps.ofSnd ‹_› (State.sessSeq_keeps ..))
      | apply Keeps.step (State.meetKey_keeps ..)
      | apply Keeps.step (State.flightOut_keeps ..)
      | apply Keeps.step (State.sessRelease_keeps ..)
      | apply Keeps.step (State.slotStat_keeps ..)
      | apply Keeps.step (State.refuse_keeps ..)
      | apply Keeps.step (State.sessRefuse_keeps ..)
      | apply Keeps.step (State.sessAccept_keeps ..)
      | apply Keeps.step (State.slotHist_keeps ..)
      | apply Keeps.step (State.setHotBit_keeps ..)
      | apply Keeps.step (State.authOut_keeps ..)
      | apply Keeps.step (Keeps.ofSnd ‹_› (State.authOut_keeps ..))
      | apply Keeps.step (State.authCheck_keeps ..)
      | apply Keeps.step (Keeps.ofSnd ‹_› (State.authCheck_keeps ..))
      | apply Keeps.step (State.setHot_keeps ..)
      | apply Keeps.step (State.send_keeps ..)
    | split

theorem State.ptpServe_keeps (s : State) (q : Req) : Keeps 21784543887361 s (State.ptpServe s q) := by
  unfold State.ptpServe
  try dsimp only
  repeat' first
    | exact (rfl : (_ : Bool) = _)
    | with_reducible first
      | exact Keeps.refl ..
      | assumption
      | refine Keeps.ite (fun _ => ?_) (fun _ => ?_)
      | apply Keeps.step (State.delayReq_keeps ..)
      | apply Keeps.step (State.refuse_keeps ..)
      | apply Keeps.step (State.pktCount_keeps ..)
      | apply Keeps.step (State.signaling_keeps ..)
    | split

theorem State.classifyFrame_keeps (s : State) (p : Nat) (f : RxStored) (launch : Nat) : Keeps 26199799635969 s (State.classifyFrame s p f launch) := by
  unfold State.classifyFrame
  try dsimp only
  repeat' first
    | exact (rfl : (_ : Bool) = _)
    | with_reducible first
      | exact Keeps.refl ..
      | assumption
      | refine Keeps.ite (fun _ => ?_) (fun _ => ?_)
      | apply Keeps.step (State.tallyAdd_keeps ..)
      | apply Keeps.step (State.cliServe_keeps ..)
      | apply Keeps.step (State.ndReply_keeps ..)
      | apply Keeps.step (State.toHost_keeps ..)
      | apply Keeps.step (State.flightIn_keeps ..)
      | apply Keeps.step (State.ptpServe_keeps ..)
      | apply Keeps.step (State.ntpServe_keeps ..)
      | apply Keeps.step (State.arpReply_keeps ..)
    | split

theorem State.countTake_keeps (s : State) (i : Itf) (a : Nat) (v : Nat) : Keeps 49 s (State.countTake s i a v) := by
  unfold State.countTake
  try dsimp only
  repeat' first
    | exact (rfl : (_ : Bool) = _)
    | with_reducible first
      | exact Keeps.refl ..
      | apply Keeps.step (State.bankWr_keeps ..)
      | apply Keeps.step (State.wrN_keeps ..)

theorem State.clearRead_keeps (s : State) (i : Itf) (a : Nat) (v : Word) : Keeps 49 s (State.clearRead s i a v) := by
  unfold State.clearRead
  try dsimp only
  repeat' first
    | exact (rfl : (_ : Bool) = _)
    | with_reducible first
      | exact Keeps.refl ..
      | refine Keeps.ite (fun _ => ?_) (fun _ => ?_)
      | apply Keeps.step (State.countTake_keeps ..)
      | apply Keeps.step (State.wr_keeps ..)
    | split

theorem State.clearSource_keeps (s : State) (x : EdgeSrc) : Keeps 8607403892737 s (State.clearSource s x) := by
  unfold State.clearSource
  try dsimp only
  repeat' first
    | exact (rfl : (_ : Bool) = _)
    | with_reducible first
      | exact Keeps.refl ..
      | apply Keeps.step (State.setLosGross_keeps ..)
      | apply Keeps.step (State.sourceBack_keeps ..)

theorem State.cliSent_keeps (s : State) (k : Nat) (q : Nat) (ts : Nat) : Keeps 134217728 s (State.cliSent s k q ts) := by
  unfold State.cliSent
  try dsimp only
  repeat' first
    | exact (rfl : (_ : Bool) = _)
    | with_reducible first
      | exact Keeps.refl ..
      | refine Keeps.ite (fun _ => ?_) (fun _ => ?_)
      | apply Keeps.step (State.modCli_keeps ..)
    | split

theorem State.commitLast_keeps (s : State) (ch : Chan) (code : Nat) : Keeps 1 s (State.commitLast s ch code) := by
  unfold State.commitLast
  try dsimp only
  repeat' first
    | exact (rfl : (_ : Bool) = _)
    | with_reducible first
      | exact Keeps.refl ..
      | apply Keeps.step (State.setF_keeps ..)
      | apply Keeps.step (State.commitState_keeps ..)

theorem State.commitRefused_keeps (s : State) (ch : Chan) (code : Nat) : Keeps 2542620639233 s (State.commitRefused s ch code) := by
  unfold State.commitRefused
  try dsimp only
  repeat' first
    | exact (rfl : (_ : Bool) = _)
    | with_reducible first
      | exact Keeps.refl ..
      | assumption
      | apply Keeps.step (State.irq_keeps ..)
      | apply Keeps.step (State.raise_keeps ..)
      | apply Keeps.step (State.commitLast_keeps ..)
    | split

theorem State.liveOut_keeps (s0 : State) (s : State) (j : Nat) : Keeps 2542620901377 s (State.liveOut s0 s j) := by
  unfold State.liveOut
  try dsimp only
  repeat' first
    | exact (rfl : (_ : Bool) = _)
    | with_reducible first
      | exact Keeps.refl ..
      | assumption
      | refine Keeps.ite (fun _ => ?_) (fun _ => ?_)
      | apply Keeps.step (State.drive_keeps ..)
      | apply Keeps.step (State.guarded_keeps ..)
      | apply Keeps.step (State.setWaves_keeps ..)
    | split

theorem State.putLive_keeps (s : State) (vs : Staged) : Keeps 2 s (State.putLive s vs) := by
  unfold State.putLive
  try dsimp only
  repeat' first
    | exact (rfl : (_ : Bool) = _)
    | with_reducible first
      | exact Keeps.refl ..
      | assumption
      | apply Keeps.step (State.setLv_keeps ..)
      | refine Keeps.foldl _ _ ?_ (fun _ _ _ => ?_)

theorem State.rephase_keeps (s : State) (k : Nat) : Keeps 131072 s (State.rephase s k) := by
  unfold State.rephase
  try dsimp only
  repeat' first
    | exact (rfl : (_ : Bool) = _)
    | with_reducible first
      | exact Keeps.refl ..
      | refine Keeps.ite (fun _ => ?_) (fun _ => ?_)
      | apply Keeps.step (State.realignHere_keeps ..)
    | split

theorem State.liveOutSet_keeps (s : State) (j : Nat) (vs : Staged) : Keeps 2542637809667 s (State.liveOutSet s j vs) := by
  unfold State.liveOutSet
  try dsimp only
  repeat' first
    | exact (rfl : (_ : Bool) = _)
    | with_reducible first
      | exact Keeps.refl ..
      | apply Keeps.step (State.liveOut_keeps ..)
      | apply Keeps.step (State.rephase_keeps ..)
      | apply Keeps.step (State.putLive_keeps ..)
      | apply Keeps.step (State.healthFall_keeps ..)

theorem State.todTrigger_keeps (s : State) (t : Nat) (k : Nat) (e : Nat) : Keeps 2097152 s (State.todTrigger s t k e) := by
  unfold State.todTrigger
  try dsimp only
  repeat' first
    | exact (rfl : (_ : Bool) = _)
    | exact Shape.lenOf (fun h => by first | (simp only [listMod_length, List.length_map, List.length_mapIdx, List.length_set, List.length_range, List.length_replicate, h.all, mapWf_nil, and_self]; done) | (simp [h.all, mapSet_wf]; done) | (split <;> simp [h.all] <;> done) | (constructor <;> split <;> simp [h.all] <;> done))
    | with_reducible first
      | exact Keeps.refl ..
      | refine Keeps.ite (fun _ => ?_) (fun _ => ?_)
    | split
    | with_reducible apply Keeps.step (Keeps.with_tod _ _ ?_)

theorem State.retargetPps_keeps (s : State) (k : Nat) : Keeps 4096 s (State.retargetPps s k) := by
  unfold State.retargetPps
  try dsimp only
  repeat' first
    | exact (rfl : (_ : Bool) = _)
    | exact Shape.lenOf (fun h => by first | (simp only [listMod_length, List.length_map, List.length_mapIdx, List.length_set, List.length_range, List.length_replicate, h.all, mapWf_nil, and_self]; done) | (simp [h.all, mapSet_wf]; done) | (split <;> simp [h.all] <;> done) | (constructor <;> split <;> simp [h.all] <;> done))
    | with_reducible first
      | exact Keeps.refl ..
      | refine Keeps.ite (fun _ => ?_) (fun _ => ?_)
    | split
    | with_reducible apply Keeps.step (Keeps.with_chans _ _ ?_)

theorem State.ppsMove_keeps (s : State) (k : Nat) (ofs : Nat) (last : Nat) : Keeps 1052674 s (State.ppsMove s k ofs last) := by
  unfold State.ppsMove
  try dsimp only
  repeat' first
    | exact (rfl : (_ : Bool) = _)
    | exact Shape.lenOf (fun h => by first | (simp only [listMod_length, List.length_map, List.length_mapIdx, List.length_set, List.length_range, List.length_replicate, h.all, mapWf_nil, and_self]; done) | (simp [h.all, mapSet_wf]; done) | (split <;> simp [h.all] <;> done) | (constructor <;> split <;> simp [h.all] <;> done))
    | with_reducible first
      | exact Keeps.refl ..
      | apply Keeps.step (State.setLv_keeps ..)
      | apply Keeps.step (State.retargetPps_keeps ..)
    | with_reducible apply Keeps.step (Keeps.with_pps _ _ ?_)

theorem State.trackMove_keeps (s : State) (k : Nat) (e : Nat) : Keeps 1052674 s (State.trackMove s k e) := by
  unfold State.trackMove
  try dsimp only
  repeat' first
    | exact (rfl : (_ : Bool) = _)
    | exact Shape.lenOf (fun h => by first | (simp only [listMod_length, List.length_map, List.length_mapIdx, List.length_set, List.length_range, List.length_replicate, h.all, mapWf_nil, and_self]; done) | (simp [h.all, mapSet_wf]; done) | (split <;> simp [h.all] <;> done) | (constructor <;> split <;> simp [h.all] <;> done))
    | with_reducible first
      | exact Keeps.refl ..
      | refine Keeps.ite (fun _ => ?_) (fun _ => ?_)
      | apply Keeps.step (State.ppsMove_keeps ..)
    | split
    | with_reducible apply Keeps.step (Keeps.with_pps _ _ ?_)

theorem State.ppsEdge_keeps (s : State) (k : Nat) : Keeps 2199026405379 s (State.ppsEdge s k) := by
  unfold State.ppsEdge
  try dsimp only
  repeat' first
    | exact (rfl : (_ : Bool) = _)
    | exact Shape.lenOf (fun h => by first | (simp only [listMod_length, List.length_map, List.length_mapIdx, List.length_set, List.length_range, List.length_replicate, h.all, mapWf_nil, and_self]; done) | (simp [h.all, mapSet_wf]; done) | (split <;> simp [h.all] <;> done) | (constructor <;> split <;> simp [h.all] <;> done))
    | with_reducible first
      | exact Keeps.refl ..
      | assumption
      | refine Keeps.ite (fun _ => ?_) (fun _ => ?_)
      | apply Keeps.step (State.setB_keeps ..)
      | apply Keeps.step (State.todTrigger_keeps ..)
      | apply Keeps.step (State.trackMove_keeps ..)
      | apply Keeps.step (State.emit_keeps ..)
    | split
    | with_reducible apply Keeps.step (Keeps.with_pps _ _ ?_)

theorem State.livePps_keeps (s : State) (k : Nat) (vs : Staged) : Keeps 2542640566275 s (State.livePps s k vs) := by
  unfold State.livePps
  try dsimp only
  repeat' first
    | exact (rfl : (_ : Bool) = _)
    | exact Shape.lenOf (fun h => by first | (simp only [listMod_length, List.length_map, List.length_mapIdx, List.length_set, List.length_range, List.length_replicate, h.all, mapWf_nil, and_self]; done) | (simp [h.all, mapSet_wf]; done) | (split <;> simp [h.all] <;> done) | (constructor <;> split <;> simp [h.all] <;> done))
    | with_reducible first
      | exact Keeps.refl ..
      | assumption
      | refine Keeps.ite (fun _ => ?_) (fun _ => ?_)
      | apply Keeps.step (State.ppsEdge_keeps ..)
      | apply Keeps.step (State.putLive_keeps ..)
      | apply Keeps.step (State.healthFall_keeps ..)
      | apply Keeps.step (State.retargetPps_keeps ..)
    | split
    | with_reducible apply Keeps.step (Keeps.with_pps _ _ ?_)

theorem State.lockEval_keeps (s : State) (n : Nat) (c : Nat) : Keeps 8607403876353 s (State.lockEval s n c) := by
  unfold State.lockEval
  try dsimp only
  repeat' first
    | exact (rfl : (_ : Bool) = _)
    | with_reducible first
      | exact Keeps.refl ..
      | refine Keeps.ite (fun _ => ?_) (fun _ => ?_)
      | apply Keeps.step (State.modCtl_keeps ..)
      | apply Keeps.step (State.raise_keeps ..)
      | apply Keeps.step (State.setTbState_keeps ..)
    | split

theorem State.liveServo_keeps (s : State) (n : Nat) (vs : Staged) : Keeps 8607403876355 s (State.liveServo s n vs) := by
  unfold State.liveServo
  try dsimp only
  repeat' first
    | exact (rfl : (_ : Bool) = _)
    | with_reducible first
      | exact Keeps.refl ..
      | refine Keeps.ite (fun _ => ?_) (fun _ => ?_)
      | apply Keeps.step (State.lockEval_keeps ..)
      | apply Keeps.step (State.modBase_keeps ..)
      | apply Keeps.step (State.putLive_keeps ..)
      | apply Keeps.step (State.boundEval_keeps ..)
    | split

theorem State.liveSyn_keeps (s : State) (k : Nat) (vs : Staged) : Keeps 6940684320771 s (State.liveSyn s k vs) := by
  unfold State.liveSyn
  try dsimp only
  repeat' first
    | exact (rfl : (_ : Bool) = _)
    | with_reducible first
      | exact Keeps.refl ..
      | assumption
      | refine Keeps.ite (fun _ => ?_) (fun _ => ?_)
      | apply Keeps.step (State.liveOut_keeps ..)
      | apply Keeps.step (State.freezeOuts_keeps ..)
      | apply Keeps.step (State.rephase_keeps ..)
      | apply Keeps.step (State.synSearch_keeps ..)
      | apply Keeps.step (State.putLive_keeps ..)
      | apply Keeps.step (State.setLv_keeps ..)
      | apply Keeps.step (State.healthFall_keeps ..)
      | apply Keeps.step (State.synAligned_keeps ..)
      | apply Keeps.step (State.modSyn_keeps ..)
      | apply Keeps.step (State.synEnter_keeps ..)
      | apply Keeps.step (State.guardFree_keeps ..)
      | refine Keeps.foldl _ _ ?_ (fun _ _ _ => ?_)
    | split

theorem State.setBase_keeps (s : State) (n : Nat) (t : Nat) : Keeps 2542710272001 s (State.setBase s n t) := by
  unfold State.setBase
  try dsimp only
  repeat' first
    | exact (rfl : (_ : Bool) = _)
    | with_reducible first
      | exact Keeps.refl ..
      | apply Keeps.step (State.modBase_keeps ..)
      | apply Keeps.step (State.moveBase_keeps ..)

theorem State.yokeMove_keeps (s0 : State) (s : State) (n : Nat) : Keeps 2542710272001 s (State.yokeMove s0 s n) := by
  unfold State.yokeMove
  try dsimp only
  repeat' first
    | exact (rfl : (_ : Bool) = _)
    | with_reducible first
      | exact Keeps.refl ..
      | refine Keeps.ite (fun _ => ?_) (fun _ => ?_)
      | apply Keeps.step (State.baseStepped_keeps ..)
      | apply Keeps.step (State.modBase_keeps ..)
    | split

theorem State.liveTb_keeps (s : State) (n : Nat) (vs : Staged) : Keeps 8607472529411 s (State.liveTb s n vs) := by
  unfold State.liveTb
  try dsimp only
  repeat' first
    | exact (rfl : (_ : Bool) = _)
    | with_reducible first
      | exact Keeps.refl ..
      | refine Keeps.ite (fun _ => ?_) (fun _ => ?_)
      | apply Keeps.step (State.modBase_keeps ..)
      | apply Keeps.step (State.addPadj_keeps ..)
      | apply Keeps.step (State.tbEval_keeps ..)
      | apply Keeps.step (State.putLive_keeps ..)
      | apply Keeps.step (State.boundEval_keeps ..)
      | apply Keeps.step (State.yokeMove_keeps ..)
      | apply Keeps.step (State.setBase_keeps ..)
    | split

theorem State.todSilence_keeps (s : State) (k : Fin 2) : Keeps 2097152 s (State.todSilence s k) := by
  unfold State.todSilence
  try dsimp only
  repeat' first
    | exact (rfl : (_ : Bool) = _)
    | exact Shape.lenOf (fun h => by first | (simp only [listMod_length, List.length_map, List.length_mapIdx, List.length_set, List.length_range, List.length_replicate, h.all, mapWf_nil, and_self]; done) | (simp [h.all, mapSet_wf]; done) | (split <;> simp [h.all] <;> done) | (constructor <;> split <;> simp [h.all] <;> done))
    | with_reducible first
      | exact Keeps.refl ..
      | refine Keeps.ite (fun _ => ?_) (fun _ => ?_)
    | split
    | with_reducible apply Keeps.step (Keeps.with_tod _ _ ?_)

theorem State.goLive_keeps (s : State) (ch : Chan) (c : CommitSet) : Keeps 8607474626567 s (State.goLive s ch c) := by
  unfold State.goLive
  try dsimp only
  repeat' first
    | exact (rfl : (_ : Bool) = _)
    | with_reducible first
      | exact Keeps.refl ..
      | assumption
      | apply Keeps.step (State.liveSyn_keeps ..)
      | apply Keeps.step (State.modChan_keeps ..)
      | apply Keeps.step (State.liveTb_keeps ..)
      | apply Keeps.step (State.liveServo_keeps ..)
      | apply Keeps.step (State.mapShow_keeps ..)
      | apply Keeps.step (State.liveOutSet_keeps ..)
      | apply Keeps.step (State.putLive_keeps ..)
      | apply Keeps.step (State.healthFall_keeps ..)
      | apply Keeps.step (State.commitLast_keeps ..)
      | apply Keeps.step (State.todSilence_keeps ..)
      | apply Keeps.step (State.count_keeps ..)
      | apply Keeps.step (State.appliedIrq_keeps ..)
      | apply Keeps.step (State.livePps_keeps ..)
    | split
    | with_reducible apply Keeps.step (Keeps.with_pendSh ..)

theorem State.commitNow_keeps (s : State) (ch : Chan) : Keeps 8607474626567 s (State.commitNow s ch).2 := by
  unfold State.commitNow
  try dsimp only
  repeat' first
    | exact (rfl : (_ : Bool) = _)
    | with_reducible first
      | exact Keeps.refl ..
      | assumption
      | refine Keeps.ite (fun _ => ?_) (fun _ => ?_)
      | apply Keeps.step (State.modChan_keeps ..)
      | apply Keeps.step (State.commitRefused_keeps ..)
      | apply Keeps.step (State.goLive_keeps ..)
    | split

theorem State.constrain_keeps (s : State) (fresh : Bool) (pre : List (Int × Int)) : Keeps 4194304 s (State.constrain s fresh pre) := by
  unfold State.constrain
  try dsimp only
  repeat' first
    | exact (rfl : (_ : Bool) = _)
    | with_reducible first
      | exact Keeps.refl ..
      | assumption
      | refine Keeps.ite (fun _ => ?_) (fun _ => ?_)
      | apply Keeps.step (State.modMember_keeps ..)
      | refine Keeps.foldl _ _ ?_ (fun _ _ _ => ?_)
    | split

theorem State.contestBits_keeps (s : State) (t : State) (c : Nat) : Keeps 2473901162497 s (State.contestBits s t c) := by
  unfold State.contestBits
  try dsimp only
  repeat' first
    | exact (rfl : (_ : Bool) = _)
    | with_reducible first
      | exact Keeps.refl ..
      | refine Keeps.ite (fun _ => ?_) (fun _ => ?_)
      | apply Keeps.step (State.setB_keeps ..)
      | apply Keeps.step (State.irq_keeps ..)
    | split

theorem State.takeFrees_keeps (s : State) (w n : Nat) : Keeps 4398046511104 s (State.takeFrees s w n).2 := by
  induction n generalizing s with
  | zero => exact Keeps.refl _ _
  | succ n ih => exact Keeps.step (ih _) rfl (State.takeFree_keeps s w)

theorem State.envelope_keeps (s : State) (n : Nat) : Keeps 4398046511105 s (State.envelope s n) := by
  unfold State.envelope
  try dsimp only
  repeat' first
    | exact (rfl : (_ : Bool) = _)
    | with_reducible first
      | exact Keeps.refl ..
      | refine Keeps.ite (fun _ => ?_) (fun _ => ?_)
      | apply Keeps.step (State.setEnv_keeps ..)
      | apply Keeps.step (State.takeFrees_keeps ..)
      | apply Keeps.step (Keeps.ofSnd ‹_› (State.takeFrees_keeps ..))
    | split

theorem State.track_keeps (s : State) (n : Nat) : Keeps 4194305 s (State.track s n) := by
  unfold State.track
  try dsimp only
  repeat' first
    | exact (rfl : (_ : Bool) = _)
    | with_reducible first
      | exact Keeps.refl ..
      | assumption
      | refine Keeps.ite (fun _ => ?_) (fun _ => ?_)
      | apply Keeps.step (State.modCtl_keeps ..)
      | apply Keeps.step (State.wrS48_keeps ..)
      | apply Keeps.step (State.wrN_keeps ..)
    | split

theorem State.cycBase_keeps (s : State) (n : Nat) : Keeps 4466770190337 s (State.cycBase s n) := by
  unfold State.cycBase
  try dsimp only
  repeat' first
    | exact (rfl : (_ : Bool) = _)
    | with_reducible first
      | exact Keeps.refl ..
      | refine Keeps.ite (fun _ => ?_) (fun _ => ?_)
      | apply Keeps.step (State.setFnow_keeps ..)
      | apply Keeps.step (State.wr64_keeps ..)
      | apply Keeps.step (State.setF_keeps ..)
      | apply Keeps.step (State.envelope_keeps ..)
      | apply Keeps.step (State.track_keeps ..)
    | split

theorem State.cycComp_keeps (s : State) : Keeps 8192 s (State.cycComp s) := by
  unfold State.cycComp
  try dsimp only
  repeat' first
    | exact (rfl : (_ : Bool) = _)
    | exact Shape.lenOf (fun h => by first | (simp only [listMod_length, List.length_map, List.length_mapIdx, List.length_set, List.length_range, List.length_replicate, h.all, mapWf_nil, and_self]; done) | (simp [h.all, mapSet_wf]; done) | (split <;> simp [h.all] <;> done) | (constructor <;> split <;> simp [h.all] <;> done))
    | with_reducible first
      | exact Keeps.refl ..
      | assumption
      | apply Keeps.step (State.modSpn_keeps _ _ ?_)
    | split

theorem State.cycTemp_keeps (s : State) (m : Nat) : Keeps 4194304 s (State.cycTemp s m) := by
  unfold State.cycTemp
  try dsimp only
  repeat' first
    | exact (rfl : (_ : Bool) = _)
    | with_reducible first
      | exact Keeps.refl ..
      | refine Keeps.ite (fun _ => ?_) (fun _ => ?_)
      | apply Keeps.step (State.modMember_keeps ..)
    | split

theorem State.deriveKeys_keeps (s : State) : Keeps 34359738369 s (State.deriveKeys s) := by
  unfold State.deriveKeys
  try dsimp only
  repeat' first
    | exact (rfl : (_ : Bool) = _)
    | exact Shape.lenOf (fun h => by first | (simp only [listMod_length, List.length_map, List.length_mapIdx, List.length_set, List.length_range, List.length_replicate, h.all, mapWf_nil, and_self]; done) | (simp [h.all, mapSet_wf]; done) | (split <;> simp [h.all] <;> done) | (constructor <;> split <;> simp [h.all] <;> done))
    | with_reducible first
      | exact Keeps.refl ..
      | apply Keeps.step (State.setB_keeps ..)
      | apply Keeps.step (State.setRegBytes_keeps ..)
      | apply Keeps.step (State.modKeys_keeps _ _ ?_)

theorem State.dieAlarm_keeps (s : State) (t : Int) : Keeps 2543694381057 s (State.dieAlarm s t) := by
  unfold State.dieAlarm
  try dsimp only
  repeat' first
    | exact (rfl : (_ : Bool) = _)
    | with_reducible first
      | exact Keeps.refl ..
      | refine Keeps.ite (fun _ => ?_) (fun _ => ?_)
      | apply Keeps.step (State.irq_keeps ..)
      | apply Keeps.step (State.setF_keeps ..)
      | apply Keeps.step (State.raise_keeps ..)
    | split
    | with_reducible apply Keeps.step (Keeps.with_pwr ..)

theorem State.dmaError_keeps (s : State) (c : Nat) (code : Nat) : Keeps 2473901162497 s (State.dmaError s c code) := by
  unfold State.dmaError
  try dsimp only
  repeat' first
    | exact (rfl : (_ : Bool) = _)
    | with_reducible first
      | exact Keeps.refl ..
      | apply Keeps.step (State.irq_keeps ..)
      | apply Keeps.step (State.setF_keeps ..)
      | apply Keeps.step (State.setDma_keeps ..)

theorem State.dmaBad_keeps (s : State) (c : Nat) (code : Nat) : Keeps 2542620639233 s (State.dmaBad s c code) := by
  unfold State.dmaBad
  try dsimp only
  repeat' first
    | exact (rfl : (_ : Bool) = _)
    | with_reducible first
      | exact Keeps.refl ..
      | apply Keeps.step (State.dmaError_keeps ..)
      | apply Keeps.step (State.raise_keeps ..)

theorem State.dmaBusErr_keeps (s : State) (c : Nat) (addr : Nat) : Keeps 2542620639233 s (State.dmaBusErr s c addr) := by
  unfold State.dmaBusErr
  try dsimp only
  repeat' first
    | exact (rfl : (_ : Bool) = _)
    | with_reducible first
      | exact Keeps.refl ..
      | apply Keeps.step (State.dmaError_keeps ..)
      | apply Keeps.step (State.mtxErr_keeps ..)
      | apply Keeps.step (State.raise_keeps ..)

theorem State.dmaErrAt_keeps (s : State) (c : Nat) (addr : Nat) : Keeps 21234720964609 s (State.dmaErrAt s c addr) := by
  unfold State.dmaErrAt
  try dsimp only
  repeat' first
    | exact (rfl : (_ : Bool) = _)
    | with_reducible first
      | exact Keeps.refl ..
      | refine Keeps.ite (fun _ => ?_) (fun _ => ?_)
      | apply Keeps.step (State.dmaBusErr_keeps ..)
      | apply Keeps.step (State.meet_keeps ..)
      | apply Keeps.step (State.dramFail_keeps ..)
    | split

theorem State.granRead_keeps (s : State) (m : Nat) (a : Nat) (n : Nat) : Keeps 549755813888 s (State.granRead s m a n).2 := by
  unfold State.granRead
  try dsimp only
  repeat' first
    | exact (rfl : (_ : Bool) = _)
    | with_reducible first
      | exact Keeps.refl ..
      | apply Keeps.step (State.tallyAdd_keeps ..)

theorem State.granGet_keeps (s : State) (m : Nat) (a : Nat) (n : Nat) : Keeps 21784476778497 s (State.granGet s m a n).2 := by
  unfold State.granGet
  try dsimp only
  repeat' first
    | exact (rfl : (_ : Bool) = _)
    | with_reducible first
      | exact Keeps.refl ..
      | assumption
      | apply Keeps.step (State.granRead_keeps ..)
      | apply Keeps.step (Keeps.ofSnd ‹_› (State.granRead_keeps ..))
      | apply Keeps.step (State.tallyAdd_keeps ..)
      | apply Keeps.step (State.meet_keeps ..)
    | split

theorem State.hostReadReq_keeps (s : State) (m : Nat) (a : Nat) (n : Nat) : Keeps 2748779069440 s (State.hostReadReq s m a n) := by
  unfold State.hostReadReq
  try dsimp only
  repeat' first
    | exact (rfl : (_ : Bool) = _)
    | with_reducible first
      | exact Keeps.refl ..
      | apply Keeps.step (State.tallyAdd_keeps ..)
      | apply Keeps.step (State.emit_keeps ..)

/-- The state of a pair that a fold carries. -/
theorem Keeps.foldPair {m : Nat} {s : State} {α β : Type} (g : β × State → α → β × State) (l : List α) (x : β × State) (h : Keeps m s x.2)
    (k : ∀ x a, Keeps m s x.2 → Keeps m s (g x a).2) : Keeps m s (l.foldl g x).2 := by
  induction l generalizing x with
  | nil => exact h
  | cons a r ih => exact ih (g x a) (k x a h)

theorem State.dmaGather_keeps (s : State) (d host : List Byte) : Keeps 21784476778497 s (State.dmaGather s d host).2 := by
  unfold State.dmaGather
  extract_lets
  refine Keeps.foldPair (s := s) _ _ ((.inr [], s) : (Nat ⊕ List Byte) × State) (Keeps.refl _ _) fun x i h => ?_
  dsimp only
  split
  · exact h
  · split
    · exact Keeps.step (State.hostReadReq_keeps _ _ _ _) rfl h
    · split
      · rename_i q; exact Keeps.step (Keeps.ofSnd q (State.granGet_keeps ..)) rfl h
      · rename_i q; exact Keeps.step (Keeps.ofSnd q (State.granGet_keeps ..)) rfl h

theorem State.dmaGet_keeps (s : State) (a : Nat) (n : Nat) (host : List Byte) : Keeps 21784476778497 s (State.dmaGet s a n host).2 := by
  unfold State.dmaGet
  try dsimp only
  repeat' first
    | exact (rfl : (_ : Bool) = _)
    | with_reducible first
      | exact Keeps.refl ..
      | refine Keeps.ite (fun _ => ?_) (fun _ => ?_)
      | apply Keeps.step (State.hostReadReq_keeps ..)
      | apply Keeps.step (State.granGet_keeps ..)
      | apply Keeps.step (Keeps.ofSnd ‹_› (State.granGet_keeps ..))
    | split

theorem State.dmaPut_keeps (s : State) (a : Nat) (l : List Byte) : Keeps 21784342560769 s (State.dmaPut s a l) := by
  unfold State.dmaPut
  try dsimp only
  repeat' first
    | exact (rfl : (_ : Bool) = _)
    | with_reducible first
      | exact Keeps.refl ..
      | refine Keeps.ite (fun _ => ?_) (fun _ => ?_)
      | apply Keeps.step (State.mtxErr_keeps ..)
      | apply Keeps.step (State.hostWrite_keeps ..)
      | apply Keeps.step (State.granWrite_keeps ..)
    | split

theorem State.dmaScatter_keeps (s : State) (d : List Byte) (b : List Byte) : Keeps 21784342560769 s (State.dmaScatter s d b) := by
  unfold State.dmaScatter
  try dsimp only
  repeat' first
    | exact (rfl : (_ : Bool) = _)
    | with_reducible first
      | exact Keeps.refl ..
      | assumption
      | apply Keeps.step (State.dmaPut_keeps ..)
      | refine Keeps.foldl _ _ ?_ (fun _ _ _ => ?_)

theorem State.dmaStatus_keeps (s : State) (c : Nat) (err : Nat) (code : Nat) : Keeps 21784342560769 s (State.dmaStatus s c err code) := by
  unfold State.dmaStatus
  try dsimp only
  repeat' first
    | exact (rfl : (_ : Bool) = _)
    | with_reducible first
      | exact Keeps.refl ..
      | refine Keeps.ite (fun _ => ?_) (fun _ => ?_)
      | apply Keeps.step (State.dmaPut_keeps ..)
    | split

theorem State.wBar2_keeps (s : State) (a : Nat) (bytes : List Byte) : Keeps 21784342560769 s (State.wBar2 s a bytes) := by
  unfold State.wBar2
  try dsimp only
  repeat' first
    | exact (rfl : (_ : Bool) = _)
    | with_reducible first
      | exact Keeps.refl ..
      | refine Keeps.ite (fun _ => ?_) (fun _ => ?_)
      | apply Keeps.step (State.irq_keeps ..)
      | apply Keeps.step (State.tallyAdd_keeps ..)
      | apply Keeps.step (State.heal_keeps ..)
      | apply Keeps.step (State.mwrite_keeps ..)
      | apply Keeps.step (State.raise_keeps ..)
    | split

theorem State.land_keeps (s : State) (h : HeldWrite) : Keeps 131941395333119 s (State.land s h) := by
  unfold State.land
  try dsimp only
  repeat' first
    | exact (rfl : (_ : Bool) = _)
    | with_reducible first
      | exact Keeps.refl ..
      | assumption
      | refine Keeps.ite (fun _ => ?_) (fun _ => ?_)
      | apply Keeps.step (State.hostWr_keeps ..)
      | apply Keeps.step (State.wBar2_keeps ..)
      | apply Keeps.step (State.absentHit_keeps ..)
    | split
    | with_reducible apply Keeps.step (Keeps.with_pwr ..)

theorem State.drawNonce_keeps (s : State) : Keeps 4432406249473 s (State.drawNonce s) := by
  unfold State.drawNonce
  try dsimp only
  repeat' first
    | exact (rfl : (_ : Bool) = _)
    | exact Shape.lenOf (fun h => by first | (simp only [listMod_length, List.length_map, List.length_mapIdx, List.length_set, List.length_range, List.length_replicate, h.all, mapWf_nil, and_self]; done) | (simp [h.all, mapSet_wf]; done) | (split <;> simp [h.all] <;> done) | (constructor <;> split <;> simp [h.all] <;> done))
    | with_reducible first
      | exact Keeps.refl ..
      | refine Keeps.ite (fun _ => ?_) (fun _ => ?_)
      | apply Keeps.step (State.setRegBytes_keeps ..)
      | apply Keeps.step (State.takeFree_keeps ..)
      | apply Keeps.step (Keeps.ofSnd ‹_› (State.takeFree_keeps ..))
      | apply Keeps.step (State.modKeys_keeps _ _ ?_)
    | split

theorem State.heldOne_keeps (s : State) (m : Nat) : Keeps 4952097292289 s (State.heldOne s m) := by
  unfold State.heldOne
  try dsimp only
  repeat' first
    | exact (rfl : (_ : Bool) = _)
    | with_reducible first
      | exact Keeps.refl ..
      | refine Keeps.ite (fun _ => ?_) (fun _ => ?_)
      | apply Keeps.step (State.countSat_keeps ..)
      | apply Keeps.step (State.tallyAdd_keeps ..)
      | apply Keeps.step (State.takeFree_keeps ..)
      | apply Keeps.step (Keeps.ofSnd ‹_› (State.takeFree_keeps ..))
    | split
    | with_reducible apply Keeps.step (Keeps.with_prf ..)

end Sys2Proof.Machine
end

