-- ==== Sys2Proof/Laws/KeepsD.lean ====
section
/-! SUPPORT. What each operation of the model can change (its mask of parts, `Part.idx`) and that it keeps the canonical form: one lemma for each
operation, in the order in which they rest on each other. Part 4 of 4. -/
set_option linter.unusedSimpArgs false
namespace Sys2Proof.Machine

theorem State.heldCount_keeps (s : State) : Keeps 4952097292289 s (State.heldCount s) := by
  unfold State.heldCount
  try dsimp only
  repeat' first
    | exact (rfl : (_ : Bool) = _)
    | with_reducible first
      | exact Keeps.refl ..
      | assumption
      | apply Keeps.step (State.heldOne_keeps ..)
      | refine Keeps.foldl _ _ ?_ (fun _ _ _ => ?_)

theorem State.outOne_keeps (s : State) (m : Nat) : Keeps 4398046511105 s (State.outOne s m) := by
  unfold State.outOne
  try dsimp only
  repeat' first
    | exact (rfl : (_ : Bool) = _)
    | with_reducible first
      | exact Keeps.refl ..
      | refine Keeps.ite (fun _ => ?_) (fun _ => ?_)
      | apply Keeps.step (State.setF_keeps ..)
      | apply Keeps.step (State.takeFree_keeps ..)
      | apply Keeps.step (Keeps.ofSnd ‹_› (State.takeFree_keeps ..))
    | split

theorem State.mtxShow_keeps (s : State) (a : Nat) : Keeps 4952097292289 s (State.mtxShow s a) := by
  unfold State.mtxShow
  try dsimp only
  repeat' first
    | exact (rfl : (_ : Bool) = _)
    | with_reducible first
      | exact Keeps.refl ..
      | assumption
      | refine Keeps.ite (fun _ => ?_) (fun _ => ?_)
      | apply Keeps.step (State.setF_keeps ..)
      | apply Keeps.step (State.outOne_keeps ..)
      | apply Keeps.step (State.heldCount_keeps ..)
      | apply Keeps.step (State.takeFree_keeps ..)
      | apply Keeps.step (Keeps.ofSnd ‹_› (State.takeFree_keeps ..))
      | refine Keeps.foldl _ _ ?_ (fun _ _ _ => ?_)
    | split
    | with_reducible apply Keeps.step (Keeps.with_prf ..)

theorem State.prbsErrs_keeps (s : State) (m : Nat) (errs : Option Nat) : Keeps 4398047035392 s (State.prbsErrs s m errs) := by
  unfold State.prbsErrs
  try dsimp only
  repeat' first
    | exact (rfl : (_ : Bool) = _)
    | with_reducible first
      | exact Keeps.refl ..
      | assumption
      | apply Keeps.step (State.modLane_keeps ..)
      | apply Keeps.step (State.chkCount_keeps ..)
      | apply Keeps.step (State.takeFree_keeps ..)
      | apply Keeps.step (Keeps.ofSnd ‹_› (State.takeFree_keeps ..))
    | split

theorem State.prbsRead_keeps (s : State) (i : Itf) (m : Nat) (errs : Option Nat) : Keeps 4398047035440 s (State.prbsRead s i m errs).2 := by
  unfold State.prbsRead
  try dsimp only
  repeat' first
    | exact (rfl : (_ : Bool) = _)
    | with_reducible first
      | exact Keeps.refl ..
      | assumption
      | apply Keeps.step (State.bankWr_keeps ..)
      | apply Keeps.step (State.modLane_keeps ..)
      | apply Keeps.step (State.prbsErrs_keeps ..)
    | split

theorem State.readReg_keeps (s : State) (i : Itf) (a : Nat) (errs : Option Nat) : Keeps 8654649040945 s (State.readReg s i a errs).2 := by
  unfold State.readReg
  try dsimp only
  repeat' first
    | exact (rfl : (_ : Bool) = _)
    | with_reducible first
      | exact Keeps.refl ..
      | assumption
      | refine Keeps.ite (fun _ => ?_) (fun _ => ?_)
      | apply Keeps.step (State.clearRead_keeps ..)
      | apply Keeps.step (State.prbsRead_keeps ..)
      | apply Keeps.step (Keeps.ofSnd ‹_› (State.prbsRead_keeps ..))
      | apply Keeps.step (State.mtxShow_keeps ..)
      | apply Keeps.step (State.genCount_keeps ..)
      | apply Keeps.step (State.pairAccess_keeps ..)
      | apply Keeps.step (State.bankWr_keeps ..)
      | apply Keeps.step (State.drawNonce_keeps ..)
      | refine Keeps.foldl _ _ ?_ (fun _ _ _ => ?_)
    | split

theorem State.readAt_keeps (s : State) (i : Itf) (a : Nat) (errs : Option Nat) : Keeps 8654649041137 s (State.readAt s i a errs) := by
  unfold State.readAt
  try dsimp only
  repeat' first
    | exact (rfl : (_ : Bool) = _)
    | exact Shape.lenOf (fun h => by first | (simp only [listMod_length, List.length_map, List.length_mapIdx, List.length_set, List.length_range, List.length_replicate, h.all, mapWf_nil, and_self]; done) | (simp [h.all, mapSet_wf]; done) | (split <;> simp [h.all] <;> done) | (constructor <;> split <;> simp [h.all] <;> done))
    | with_reducible first
      | exact Keeps.refl ..
      | refine Keeps.ite (fun _ => ?_) (fun _ => ?_)
      | apply Keeps.step (State.answer_keeps ..)
      | apply Keeps.step (State.absentHit_keeps ..)
      | apply Keeps.step (State.readReg_keeps ..)
      | apply Keeps.step (Keeps.ofSnd ‹_› (State.readReg_keeps ..))
      | apply Keeps.step (State.modSpn_keeps _ _ ?_)
    | split

theorem State.unwait_keeps (s : State) (l : List (Itf × Nat × Option Word)) : Keeps 131941395333119 s (State.unwait s l) := by
  induction l generalizing s with
  | nil => exact Keeps.refl _ _
  | cons x r ih =>
    obtain ⟨i, a, w⟩ := x
    refine Keeps.step (ih _) rfl ?_
    cases w
    · exact Keeps.step (State.readAt_keeps _ _ _ _) rfl (Keeps.refl _ _)
    · exact Keeps.step (State.land_keeps _ _) rfl (Keeps.refl _ _)

theorem State.domGoOn_keeps (s : State) : Keeps 131941395333119 s (State.domGoOn s) := by
  unfold State.domGoOn
  try dsimp only
  repeat' first
    | exact (rfl : (_ : Bool) = _)
    | with_reducible first
      | exact Keeps.refl ..
      | assumption
      | refine Keeps.ite (fun _ => ?_) (fun _ => ?_)
      | apply Keeps.step (State.unwait_keeps ..)
      | apply Keeps.step (State.wDomReq_keeps ..)
      | refine Keeps.foldl _ _ ?_ (fun _ _ _ => ?_)
    | split
    | with_reducible apply Keeps.step (Keeps.with_pwr ..)

theorem State.gnsQueueLost_keeps (s : State) : Keeps 33554433 s (State.gnsQueueLost s) := by
  unfold State.gnsQueueLost
  try dsimp only
  repeat' first
    | exact (rfl : (_ : Bool) = _)
    | with_reducible first
      | exact Keeps.refl ..
      | apply Keeps.step (State.countSat_keeps ..)
      | apply Keeps.step (State.modGns_keeps ..)

theorem State.tandemOff_keeps (s : State) : Keeps 26199792918529 s (State.tandemOff s) := by
  unfold State.tandemOff
  try dsimp only
  repeat' first
    | exact (rfl : (_ : Bool) = _)
    | with_reducible first
      | exact Keeps.refl ..
      | refine Keeps.ite (fun _ => ?_) (fun _ => ?_)
      | apply Keeps.step (State.linkEval_keeps ..)
      | apply Keeps.step (State.wr_keeps ..)
      | apply Keeps.step (State.setRole_keeps ..)
      | apply Keeps.step (State.wrN_keeps ..)
    | split

theorem State.domainOff_keeps (s0 : State) (d : Nat) : Keeps 26199828983809 s0 (State.domainOff s0 d) := by
  unfold State.domainOff
  try dsimp only
  repeat' first
    | exact (rfl : (_ : Bool) = _)
    | exact Shape.lenOf (fun h => by first | (simp only [listMod_length, List.length_map, List.length_mapIdx, List.length_set, List.length_range, List.length_replicate, h.all, mapWf_nil, and_self]; done) | (simp [h.all, mapSet_wf]; done) | (split <;> simp [h.all] <;> done) | (constructor <;> split <;> simp [h.all] <;> done))
    | with_reducible first
      | exact Keeps.refl ..
      | assumption
      | apply Keeps.step (State.setB_keeps ..)
      | apply Keeps.step (State.chanReset_keeps ..)
      | apply Keeps.step (State.portDrain_keeps ..)
      | apply Keeps.step (State.setLosGross_keeps ..)
      | apply Keeps.step (State.gnsQueueLost_keeps ..)
      | apply Keeps.step (State.laneTo_keeps ..)
      | apply Keeps.step (State.failSource_keeps ..)
      | apply Keeps.step (State.healthFall_keeps ..)
      | apply Keeps.step (State.tandemOff_keeps ..)
      | apply Keeps.step (State.synAligned_keeps ..)
      | apply Keeps.step (State.modMonitor_keeps ..)
      | apply Keeps.step (State.gnsOff_keeps ..)
      | apply Keeps.step (State.setCli_keeps ..)
      | apply Keeps.step (State.synEnter_keeps ..)
      | apply Keeps.step (State.candRound_keeps ..)
      | apply Keeps.step (State.guardFree_keeps ..)
      | apply Keeps.step (State.portEval_keeps ..)
      | refine Keeps.foldl _ _ ?_ (fun _ _ _ => ?_)
    | split
    | with_reducible apply Keeps.step (Keeps.with_syns_tod _ _ _ ?_ ?_)
    | with_reducible apply Keeps.step (Keeps.with_pkt _ _ ?_)
    | with_reducible apply Keeps.step (Keeps.with_trace_mem _ _ _ (fun h => ?_))

theorem State.portGratuitous_keeps (s : State) (p : Nat) : Keeps 21784275451905 s (State.portGratuitous s p) := by
  unfold State.portGratuitous
  try dsimp only
  repeat' first
    | exact (rfl : (_ : Bool) = _)
    | with_reducible first
      | exact Keeps.refl ..
      | assumption
      | refine Keeps.ite (fun _ => ?_) (fun _ => ?_)
      | apply Keeps.step (State.gratuitous_keeps ..)
      | refine Keeps.foldl _ _ ?_ (fun _ _ _ => ?_)
    | split

theorem State.domainOn_keeps (s0 : State) (d : Nat) : Keeps 26199837372423 s0 (State.domainOn s0 d) := by
  unfold State.domainOn
  try dsimp only
  repeat' first
    | exact (rfl : (_ : Bool) = _)
    | with_reducible first
      | exact Keeps.refl ..
      | assumption
      | refine Keeps.ite (fun _ => ?_) (fun _ => ?_)
      | apply Keeps.step (State.setB_keeps ..)
      | apply Keeps.step (State.pktReset_keeps ..)
      | apply Keeps.step (State.unitsReset_keeps ..)
      | apply Keeps.step (State.portGratuitous_keeps ..)
      | apply Keeps.step (State.macReset_keeps ..)
      | apply Keeps.step (State.cstReset_keeps ..)
      | apply Keeps.step (State.gnsReset_keeps ..)
      | apply Keeps.step (State.outReset_keeps ..)
      | apply Keeps.step (State.regsReset_keeps ..)
      | apply Keeps.step (State.tiuPReset_keeps ..)
      | apply Keeps.step (State.lanesReset_keeps ..)
      | apply Keeps.step (State.synReset_keeps ..)
      | apply Keeps.step (State.inputsReset_keeps ..)
      | apply Keeps.step (State.tndReset_keeps ..)
      | apply Keeps.step (State.candRound_keeps ..)
      | refine Keeps.foldl _ _ ?_ (fun _ _ _ => ?_)
    | split

theorem State.drbgStop_keeps (s : State) : Keeps 2576980377601 s (State.drbgStop s) := by
  unfold State.drbgStop
  try dsimp only
  repeat' first
    | exact (rfl : (_ : Bool) = _)
    | exact Shape.lenOf (fun h => by first | (simp only [listMod_length, List.length_map, List.length_mapIdx, List.length_set, List.length_range, List.length_replicate, h.all, mapWf_nil, and_self]; done) | (simp [h.all, mapSet_wf]; done) | (split <;> simp [h.all] <;> done) | (constructor <;> split <;> simp [h.all] <;> done))
    | with_reducible first
      | exact Keeps.refl ..
      | apply Keeps.step (State.setB_keeps ..)
      | apply Keeps.step (State.irq_keeps ..)
      | apply Keeps.step (State.raise_keeps ..)
      | apply Keeps.step (State.modKeys_keeps _ _ ?_)

theorem State.dropFe_keeps (s : State) (k : Fin 2) : Keeps 33554432 s (State.dropFe s k) := by
  unfold State.dropFe
  try dsimp only
  repeat' first
    | exact (rfl : (_ : Bool) = _)
    | with_reducible first
      | exact Keeps.refl ..
      | apply Keeps.step (State.modGns_keeps ..)

theorem State.setGross_keeps (s : State) (x : EdgeSrc) : Keeps 8607405039617 s (State.setGross s x) := by
  unfold State.setGross
  try dsimp only
  repeat' first
    | exact (rfl : (_ : Bool) = _)
    | with_reducible first
      | exact Keeps.refl ..
      | refine Keeps.ite (fun _ => ?_) (fun _ => ?_)
      | apply Keeps.step (State.refIrq_keeps ..)
      | apply Keeps.step (State.setLosGross_keeps ..)
      | apply Keeps.step (State.failSource_keeps ..)
      | apply Keeps.step (State.raise_keeps ..)
      | apply Keeps.step (State.modMonitor_keeps ..)
      | apply Keeps.step (State.refCtx_keeps ..)
      | apply Keeps.step (Keeps.ofSnd ‹_› (State.refCtx_keeps ..))
    | split

theorem State.edgeMoved_keeps (s : State) (k : Nat) : Keeps 8607405039617 s (State.edgeMoved s k) := by
  unfold State.edgeMoved
  try dsimp only
  repeat' first
    | exact (rfl : (_ : Bool) = _)
    | with_reducible first
      | exact Keeps.refl ..
      | assumption
      | refine Keeps.ite (fun _ => ?_) (fun _ => ?_)
      | apply Keeps.step (State.setGross_keeps ..)
    | split

theorem State.edgeTake_keeps (s : State) : Keeps 33554432 s (State.edgeTake s) := by
  unfold State.edgeTake
  try dsimp only
  repeat' first
    | exact (rfl : (_ : Bool) = _)
    | with_reducible first
      | exact Keeps.refl ..
      | assumption
      | apply Keeps.step (State.modGns_keeps ..)
    | split

theorem State.endLeapSec_keeps (s : State) (n : Nat) : Keeps 8192 s (State.endLeapSec s n) := by
  unfold State.endLeapSec
  try dsimp only
  repeat' first
    | exact (rfl : (_ : Bool) = _)
    | with_reducible first
      | exact Keeps.refl ..
      | refine Keeps.ite (fun _ => ?_) (fun _ => ?_)
      | apply Keeps.step (State.modBase_keeps ..)
    | split

theorem State.gate_keeps (s : State) (k : Nat) (m : Nat) : Keeps 4398046511104 s (State.gate s k m).2 := by
  unfold State.gate
  try dsimp only
  repeat' first
    | exact (rfl : (_ : Bool) = _)
    | with_reducible first
      | exact Keeps.refl ..
      | apply Keeps.step (State.takeFree_keeps ..)
      | apply Keeps.step (Keeps.ofSnd ‹_› (State.takeFree_keeps ..))

theorem State.gates_keeps (s : State) (k : Nat) (l : List Nat) : Keeps 4398046511104 s (State.gates s k l).2 := by
  induction l generalizing s with
  | nil => exact Keeps.refl _ _
  | cons m r ih => exact Keeps.step (ih _) rfl (Keeps.step (State.gate_keeps s k m) rfl (Keeps.refl _ _))

theorem State.memFree_keeps (s : State) (m : Nat) : Keeps 4398050705408 s (State.memFree s m) := by
  unfold State.memFree
  try dsimp only
  repeat' first
    | exact (rfl : (_ : Bool) = _)
    | with_reducible first
      | exact Keeps.refl ..
      | refine Keeps.ite (fun _ => ?_) (fun _ => ?_)
      | apply Keeps.step (State.takeFrees_keeps ..)
      | apply Keeps.step (Keeps.ofSnd ‹_› (State.takeFrees_keeps ..))
      | apply Keeps.step (State.modMember_keeps ..)
      | apply Keeps.step (State.takeFree_keeps ..)
      | apply Keeps.step (Keeps.ofSnd ‹_› (State.takeFree_keeps ..))
    | split

theorem State.memPass_keeps (s : State) (k : Nat) (m : Nat) : Keeps 4398050705409 s (State.memPass s k m) := by
  unfold State.memPass
  try dsimp only
  repeat' first
    | exact (rfl : (_ : Bool) = _)
    | with_reducible first
      | exact Keeps.refl ..
      | refine Keeps.ite (fun _ => ?_) (fun _ => ?_)
      | apply Keeps.step (State.memFree_keeps ..)
      | apply Keeps.step (State.setF_keeps ..)
    | split

theorem State.memReject_keeps (s : State) (m : Nat) : Keeps 2542624833537 s (State.memReject s m) := by
  unfold State.memReject
  try dsimp only
  repeat' first
    | exact (rfl : (_ : Bool) = _)
    | with_reducible first
      | exact Keeps.refl ..
      | refine Keeps.ite (fun _ => ?_) (fun _ => ?_)
      | apply Keeps.step (State.countSat_keeps ..)
      | apply Keeps.step (State.memFail_keeps ..)
      | apply Keeps.step (State.raise_keeps ..)
    | split

theorem State.gateAll_keeps (s : State) (k : Nat) (ms : List Nat) : Keeps 6940671344641 s (State.gateAll s k ms) := by
  unfold State.gateAll
  try dsimp only
  repeat' first
    | exact (rfl : (_ : Bool) = _)
    | with_reducible first
      | exact Keeps.refl ..
      | assumption
      | refine Keeps.ite (fun _ => ?_) (fun _ => ?_)
      | apply Keeps.step (State.setF_keeps ..)
      | apply Keeps.step (State.memReject_keeps ..)
      | apply Keeps.step (State.gates_keeps ..)
      | apply Keeps.step (Keeps.ofSnd ‹_› (State.gates_keeps ..))
      | apply Keeps.step (State.memPass_keeps ..)
      | refine Keeps.foldl _ _ ?_ (fun _ _ _ => ?_)
    | split

theorem State.variances_keeps (s : State) (l : List Nat) : Keeps 4398046511104 s (State.variances s l).2 := by
  induction l generalizing s with
  | nil => exact Keeps.refl _ _
  | cons m r ih => exact Keeps.step (ih _) rfl (Keeps.step (State.takeFree_keeps s 48) rfl (Keeps.refl _ _))

theorem State.newWeights_keeps (s : State) : Keeps 4398050705408 s (State.newWeights s) := by
  unfold State.newWeights
  try dsimp only
  repeat' first
    | exact (rfl : (_ : Bool) = _)
    | with_reducible first
      | exact Keeps.refl ..
      | assumption
      | refine Keeps.ite (fun _ => ?_) (fun _ => ?_)
      | apply Keeps.step (State.modMember_keeps ..)
      | apply Keeps.step (State.variances_keeps ..)
      | apply Keeps.step (Keeps.ofSnd ‹_› (State.variances_keeps ..))
      | refine Keeps.foldl _ _ ?_ (fun _ _ _ => ?_)
    | split

theorem State.predict_keeps (s : State) (m : Nat) : Keeps 4398050705408 s (State.predict s m) := by
  unfold State.predict
  try dsimp only
  repeat' first
    | exact (rfl : (_ : Bool) = _)
    | with_reducible first
      | exact Keeps.refl ..
      | refine Keeps.ite (fun _ => ?_) (fun _ => ?_)
      | apply Keeps.step (State.takeFrees_keeps ..)
      | apply Keeps.step (Keeps.ofSnd ‹_› (State.takeFrees_keeps ..))
      | apply Keeps.step (State.modMember_keeps ..)
    | split

theorem State.showWeights_keeps (s : State) : Keeps 1 s (State.showWeights s) := by
  unfold State.showWeights
  try dsimp only
  repeat' first
    | exact (rfl : (_ : Bool) = _)
    | with_reducible first
      | exact Keeps.refl ..
      | assumption
      | apply Keeps.step (State.setB_keeps ..)
      | apply Keeps.step (State.setF_keeps ..)
      | refine Keeps.foldl _ _ ?_ (fun _ _ _ => ?_)

theorem State.staleEval_keeps (s : State) (m : Nat) : Keeps 2542624833537 s (State.staleEval s m) := by
  unfold State.staleEval
  try dsimp only
  repeat' first
    | exact (rfl : (_ : Bool) = _)
    | with_reducible first
      | exact Keeps.refl ..
      | assumption
      | refine Keeps.ite (fun _ => ?_) (fun _ => ?_)
      | apply Keeps.step (State.memFail_keeps ..)
      | apply Keeps.step (State.failedEval_keeps ..)
    | split

theorem State.takeResults_keeps (s : State) (m : Nat) : Keeps 4194304 s (State.takeResults s m) := by
  unfold State.takeResults
  try dsimp only
  repeat' first
    | exact (rfl : (_ : Bool) = _)
    | with_reducible first
      | exact Keeps.refl ..
      | assumption
      | refine Keeps.ite (fun _ => ?_) (fun _ => ?_)
      | apply Keeps.step (State.modMember_keeps ..)
    | split

theorem State.trainedSec_keeps (s : State) (m : Nat) : Keeps 1 s (State.trainedSec s m) := by
  unfold State.trainedSec
  try dsimp only
  repeat' first
    | exact (rfl : (_ : Bool) = _)
    | with_reducible first
      | exact Keeps.refl ..
      | refine Keeps.ite (fun _ => ?_) (fun _ => ?_)
      | apply Keeps.step (State.countSat_keeps ..)
    | split

theorem State.useWeights_keeps (s : State) : Keeps 4194304 s (State.useWeights s) := by
  unfold State.useWeights
  try dsimp only
  repeat' first
    | exact (rfl : (_ : Bool) = _)
    | with_reducible first
      | exact Keeps.refl ..
      | assumption
      | apply Keeps.step (State.modMember_keeps ..)
      | refine Keeps.foldl _ _ ?_ (fun _ _ _ => ?_)

theorem State.ensembleCycle_keeps (s : State) : Keeps 8607403876353 s (State.ensembleCycle s) := by
  unfold State.ensembleCycle
  try dsimp only
  repeat' first
    | exact (rfl : (_ : Bool) = _)
    | exact Shape.lenOf (fun h => by first | (simp only [listMod_length, List.length_map, List.length_mapIdx, List.length_set, List.length_range, List.length_replicate, h.all, mapWf_nil, and_self]; done) | (simp [h.all, mapSet_wf]; done) | (split <;> simp [h.all] <;> done) | (constructor <;> split <;> simp [h.all] <;> done))
    | with_reducible first
      | exact Keeps.refl ..
      | assumption
      | refine Keeps.ite (fun _ => ?_) (fun _ => ?_)
      | apply Keeps.step (State.cycComp_keeps ..)
      | apply Keeps.step (State.useWeights_keeps ..)
      | apply Keeps.step (State.showMember_keeps ..)
      | apply Keeps.step (State.ensStateEval_keeps ..)
      | apply Keeps.step (State.showWeights_keeps ..)
      | apply Keeps.step (State.staleEval_keeps ..)
      | apply Keeps.step (State.modMember_keeps ..)
      | apply Keeps.step (State.newWeights_keeps ..)
      | apply Keeps.step (State.predict_keeps ..)
      | apply Keeps.step (State.carrierEval_keeps ..)
      | apply Keeps.step (State.gateAll_keeps ..)
      | apply Keeps.step (State.boundEvalAt_keeps ..)
      | apply Keeps.step (State.trainedSec_keeps ..)
      | apply Keeps.step (State.cycTemp_keeps ..)
      | apply Keeps.step (State.cycBase_keeps ..)
      | apply Keeps.step (State.takeResults_keeps ..)
      | apply Keeps.step (State.count_keeps ..)
      | apply Keeps.step (State.constrain_keeps ..)
      | refine Keeps.foldl _ _ ?_ (fun _ _ _ => ?_)
    | split
    | with_reducible apply Keeps.step (Keeps.with_ens _ _ ?_)

theorem State.esmcAge_keeps (s : State) (p : Nat) : Keeps 1 s (State.esmcAge s p) := by
  unfold State.esmcAge
  try dsimp only
  repeat' first
    | exact (rfl : (_ : Bool) = _)
    | with_reducible first
      | exact Keeps.refl ..
      | apply Keeps.step (State.countSat_keeps ..)

theorem State.esmcReceive_keeps (s : State) (p : Nat) (b : List Byte) : Keeps 8607403876353 s (State.esmcReceive s p b) := by
  unfold State.esmcReceive
  try dsimp only
  repeat' first
    | exact (rfl : (_ : Bool) = _)
    | with_reducible first
      | exact Keeps.refl ..
      | assumption
      | refine Keeps.ite (fun _ => ?_) (fun _ => ?_)
      | apply Keeps.step (State.setF_keeps ..)
      | apply Keeps.step (State.macCount_keeps ..)
      | apply Keeps.step (State.qualityIn_keeps ..)
      | apply Keeps.step (State.candRound_keeps ..)
      | refine Keeps.foldl _ _ ?_ (fun _ _ _ => ?_)
    | split

theorem State.evtActive_keeps (s : State) (p : Nat) : Keeps 1 s (State.evtActive s p) := by
  unfold State.evtActive
  try dsimp only
  repeat' first
    | exact (rfl : (_ : Bool) = _)
    | with_reducible first
      | exact Keeps.refl ..
      | apply Keeps.step (State.setB_keeps ..)

theorem State.evtPulse_keeps (s : State) (p : Nat) (n : Nat) (at_ : Nat) (width : Nat) : Keeps 2267742740481 s (State.evtPulse s p n at_ width) := by
  unfold State.evtPulse
  try dsimp only
  repeat' first
    | exact (rfl : (_ : Bool) = _)
    | exact Shape.lenOf (fun h => by first | (simp only [listMod_length, List.length_map, List.length_mapIdx, List.length_set, List.length_range, List.length_replicate, h.all, mapWf_nil, and_self]; done) | (simp [h.all, mapSet_wf]; done) | (split <;> simp [h.all] <;> done) | (constructor <;> split <;> simp [h.all] <;> done))
    | with_reducible first
      | exact Keeps.refl ..
      | refine Keeps.ite (fun _ => ?_) (fun _ => ?_)
      | apply Keeps.step (State.setB_keeps ..)
      | apply Keeps.step (State.evtActive_keeps ..)
      | apply Keeps.step (State.raise_keeps ..)
      | apply Keeps.step (State.modSpn_keeps _ _ ?_)
      | apply Keeps.step (State.emit_keeps ..)
    | split

theorem State.exceeded_keeps (s : State) (n : Nat) (c : Nat) (r : CandRes) (e : Int) : Keeps 8607387090945 s (State.exceeded s n c r e) := by
  unfold State.exceeded
  try dsimp only
  repeat' first
    | exact (rfl : (_ : Bool) = _)
    | with_reducible first
      | exact Keeps.refl ..
      | refine Keeps.ite (fun _ => ?_) (fun _ => ?_)
      | apply Keeps.step (State.countSat_keeps ..)
      | apply Keeps.step (State.irq_keeps ..)
      | apply Keeps.step (State.modCtl_keeps ..)
      | apply Keeps.step (State.traceEvent_keeps ..)
      | apply Keeps.step (State.raise_keeps ..)
    | split

theorem State.feClock_keeps (s : State) (k : Fin 2) (err : Word) : Keeps 68753031169 s (State.feClock s k err) := by
  unfold State.feClock
  try dsimp only
  repeat' first
    | exact (rfl : (_ : Bool) = _)
    | with_reducible first
      | exact Keeps.refl ..
      | refine Keeps.ite (fun _ => ?_) (fun _ => ?_)
      | apply Keeps.step (State.setB_keeps ..)
      | apply Keeps.step (State.wr_keeps ..)
      | apply Keeps.step (State.raise_keeps ..)
      | apply Keeps.step (State.dropFe_keeps ..)
    | split

theorem State.fifoStore_keeps (s : State) (p : Nat) (f : RxStored) : Keeps 2542687748097 s (State.fifoStore s p f) := by
  unfold State.fifoStore
  try dsimp only
  repeat' first
    | exact (rfl : (_ : Bool) = _)
    | with_reducible first
      | exact Keeps.refl ..
      | refine Keeps.ite (fun _ => ?_) (fun _ => ?_)
      | apply Keeps.step (State.modPort_keeps ..)
      | apply Keeps.step (State.irq_keeps ..)
      | apply Keeps.step (State.raise_keeps ..)
      | apply Keeps.step (State.macCount_keeps ..)
    | split

theorem State.firstUpdate_keeps (s : State) (n : Nat) (e : Int) : Keeps 2542710272001 s (State.firstUpdate s n e) := by
  unfold State.firstUpdate
  try dsimp only
  repeat' first
    | exact (rfl : (_ : Bool) = _)
    | with_reducible first
      | exact Keeps.refl ..
      | refine Keeps.ite (fun _ => ?_) (fun _ => ?_)
      | apply Keeps.step (State.setB_keeps ..)
      | apply Keeps.step (State.addPendServo_keeps ..)
      | apply Keeps.step (State.moveBase_keeps ..)
      | apply Keeps.step (State.raise_keeps ..)
    | split

theorem State.fltFlush_keeps (s : State) : Keeps 131941395333119 s (State.fltFlush s) := by
  unfold State.fltFlush
  try dsimp only
  repeat' first
    | exact (rfl : (_ : Bool) = _)
    | with_reducible first
      | exact Keeps.refl ..
      | assumption
      | apply Keeps.step (State.fltRound_keeps ..)
      | refine Keeps.foldl _ _ ?_ (fun _ _ _ => ?_)

theorem State.streamAuth_keeps (s : State) (p : Nat) (slot : Option Nat) : Keeps 18691764781056 s (State.streamAuth s p slot).2 := by
  unfold State.streamAuth
  try dsimp only
  repeat' first
    | exact (rfl : (_ : Bool) = _)
    | with_reducible first
      | exact Keeps.refl ..
      | assumption
      | refine Keeps.ite (fun _ => ?_) (fun _ => ?_)
      | apply Keeps.step (State.authOut_keeps ..)
      | apply Keeps.step (Keeps.ofSnd ‹_› (State.authOut_keeps ..))
    | split

theorem State.followUp_keeps (s : State) (p : Nat) (f : FollowUp) (ts : Nat) (stamp : Stamp) : Keeps 21784275451905 s (State.followUp s p f ts stamp) := by
  unfold State.followUp
  try dsimp only
  repeat' first
    | exact (rfl : (_ : Bool) = _)
    | with_reducible first
      | exact Keeps.refl ..
      | assumption
      | refine Keeps.ite (fun _ => ?_) (fun _ => ?_)
      | apply Keeps.step (State.buildLater_keeps ..)
      | apply Keeps.step (State.flightIn_keeps ..)
      | apply Keeps.step (State.streamAuth_keeps ..)
      | apply Keeps.step (Keeps.ofSnd ‹_› (State.streamAuth_keeps ..))
      | apply Keeps.step (State.send_keeps ..)
    | split

theorem State.gnsCount_keeps (s : State) (n : Nat) : Keeps 1 s (State.gnsCount s n) := by
  unfold State.gnsCount
  try dsimp only
  repeat' first
    | exact (rfl : (_ : Bool) = _)
    | with_reducible first
      | exact Keeps.refl ..
      | apply Keeps.step (State.setF_keeps ..)

theorem State.gnsDeliver_keeps (s : State) (r : CandRes) (mean : Int) (tu : Nat) (grade : Nat) : Keeps 8607412264961 s (State.gnsDeliver s r mean tu grade) := by
  unfold State.gnsDeliver
  try dsimp only
  repeat' first
    | exact (rfl : (_ : Bool) = _)
    | exact Shape.lenOf (fun h => by first | (simp only [listMod_length, List.length_map, List.length_mapIdx, List.length_set, List.length_range, List.length_replicate, h.all, mapWf_nil, and_self]; done) | (simp [h.all, mapSet_wf]; done) | (split <;> simp [h.all] <;> done) | (constructor <;> split <;> simp [h.all] <;> done))
    | with_reducible first
      | exact Keeps.refl ..
      | apply Keeps.step (State.monResult_keeps ..)
      | apply Keeps.step (State.qualityIn_keeps ..)
      | apply Keeps.step (State.candRound_keeps ..)
    | with_reducible apply Keeps.step (Keeps.with_srcRes _ _ ?_)

theorem State.gnsLose_keeps (s : State) (cause : Nat) : Keeps 26199623475201 s (State.gnsLose s cause) := by
  unfold State.gnsLose
  try dsimp only
  repeat' first
    | exact (rfl : (_ : Bool) = _)
    | with_reducible first
      | exact Keeps.refl ..
      | refine Keeps.ite (fun _ => ?_) (fun _ => ?_)
      | apply Keeps.step (State.setF_keeps ..)
      | apply Keeps.step (State.gnsEnter_keeps ..)
      | apply Keeps.step (State.raise_keeps ..)
      | apply Keeps.step (State.qualityIn_keeps ..)
      | apply Keeps.step (State.modGns_keeps ..)
      | apply Keeps.step (State.candRound_keeps ..)
    | split

theorem State.gnsMiss_keeps (s : State) : Keeps 26199623475201 s (State.gnsMiss s) := by
  unfold State.gnsMiss
  try dsimp only
  repeat' first
    | exact (rfl : (_ : Bool) = _)
    | with_reducible first
      | exact Keeps.refl ..
      | refine Keeps.ite (fun _ => ?_) (fun _ => ?_)
      | apply Keeps.step (State.gnsLose_keeps ..)
      | apply Keeps.step (State.modGns_keeps ..)
    | split

theorem State.gnsAccept_keeps (s : State) (e : Option EdgeRes) (consistent : Bool) (tu : Nat) (grade : Nat) : Keeps 26199631863809 s (State.gnsAccept s e consistent tu grade) := by
  unfold State.gnsAccept
  try dsimp only
  repeat' first
    | exact (rfl : (_ : Bool) = _)
    | with_reducible first
      | exact Keeps.refl ..
      | assumption
      | refine Keeps.ite (fun _ => ?_) (fun _ => ?_)
      | apply Keeps.step (State.setF_keeps ..)
      | apply Keeps.step (State.gnsCount_keeps ..)
      | apply Keeps.step (State.gnsEnter_keeps ..)
      | apply Keeps.step (State.raise_keeps ..)
      | apply Keeps.step (State.gnsMiss_keeps ..)
      | apply Keeps.step (State.gnsDeliver_keeps ..)
      | apply Keeps.step (State.modGns_keeps ..)
    | split

theorem State.gnsCfgUse_keeps (s : State) : Keeps 21784376115201 s (State.gnsCfgUse s) := by
  unfold State.gnsCfgUse
  try dsimp only
  repeat' first
    | exact (rfl : (_ : Bool) = _)
    | with_reducible first
      | exact Keeps.refl ..
      | refine Keeps.ite (fun _ => ?_) (fun _ => ?_)
      | apply Keeps.step (State.gnsMode_keeps ..)
      | apply Keeps.step (State.modGns_keeps ..)
    | split

theorem State.gnsJam_keeps (s : State) (k : Nat) (jam : BitVec 8) (clip : BitVec 8) : Keeps 21784376115201 s (State.gnsJam s k jam clip) := by
  unfold State.gnsJam
  try dsimp only
  repeat' first
    | exact (rfl : (_ : Bool) = _)
    | with_reducible first
      | exact Keeps.refl ..
      | refine Keeps.ite (fun _ => ?_) (fun _ => ?_)
      | apply Keeps.step (State.setB_keeps ..)
      | apply Keeps.step (State.setF_keeps ..)
      | apply Keeps.step (State.gnsEvent_keeps ..)
      | apply Keeps.step (State.raise_keeps ..)
    | split

theorem State.navDecode_keeps (s : State) (i : NavItem) : Keeps 21784376115201 s (State.navDecode s i) := by
  unfold State.navDecode
  try dsimp only
  repeat' first
    | exact (rfl : (_ : Bool) = _)
    | with_reducible first
      | exact Keeps.refl ..
      | refine Keeps.ite (fun _ => ?_) (fun _ => ?_)
      | apply Keeps.step (State.gnsEvent_keeps ..)
      | apply Keeps.step (State.modGns_keeps ..)
    | split

theorem State.gnsSecond_keeps (s : State) (q : GnssSecond) : Keeps 21784376115201 s (State.gnsSecond s q) := by
  unfold State.gnsSecond
  try dsimp only
  repeat' first
    | exact (rfl : (_ : Bool) = _)
    | with_reducible first
      | exact Keeps.refl ..
      | assumption
      | refine Keeps.ite (fun _ => ?_) (fun _ => ?_)
      | apply Keeps.step (State.gnsJam_keeps ..)
      | apply Keeps.step (State.navDecode_keeps ..)
      | apply Keeps.step (State.modGns_keeps ..)
      | refine Keeps.foldl _ _ ?_ (fun _ _ _ => ?_)
    | split

theorem State.gnsBegin_keeps (s : State) (q : GnssSecond) : Keeps 21784376115201 s (State.gnsBegin s q) := by
  unfold State.gnsBegin
  try dsimp only
  repeat' first
    | exact (rfl : (_ : Bool) = _)
    | with_reducible first
      | exact Keeps.refl ..
      | apply Keeps.step (State.gnsSecond_keeps ..)
      | apply Keeps.step (State.gnsCfgUse_keeps ..)
      | apply Keeps.step (State.modGns_keeps ..)

theorem State.gnsCfgAct_keeps (s : State) : Keeps 26199623475201 s (State.gnsCfgAct s) := by
  unfold State.gnsCfgAct
  try dsimp only
  repeat' first
    | exact (rfl : (_ : Bool) = _)
    | with_reducible first
      | exact Keeps.refl ..
      | apply Keeps.step (State.gnsLose_keeps ..)
      | apply Keeps.step (State.modGns_keeps ..)

theorem State.gnsDrain_keeps (s : State) : Keeps 21784376115201 s (State.gnsDrain s) := by
  unfold State.gnsDrain
  try dsimp only
  repeat' first
    | exact (rfl : (_ : Bool) = _)
    | with_reducible first
      | exact Keeps.refl ..
      | assumption
      | apply Keeps.step (State.gnsWrite_keeps ..)
      | apply Keeps.step (State.modGns_keeps ..)
      | refine Keeps.foldl _ _ ?_ (fun _ _ _ => ?_)

theorem State.gnsEmpty_keeps (s : State) : Keeps 26199623475201 s (State.gnsEmpty s) := by
  unfold State.gnsEmpty
  try dsimp only
  repeat' first
    | exact (rfl : (_ : Bool) = _)
    | with_reducible first
      | exact Keeps.refl ..
      | refine Keeps.ite (fun _ => ?_) (fun _ => ?_)
      | apply Keeps.step (State.gnsCfgAct_keeps ..)
      | apply Keeps.step (State.gnsMiss_keeps ..)
      | apply Keeps.step (State.edgeTake_keeps ..)
    | split

theorem State.gnsSvstat_keeps (s : State) (q : GnssSecond) (r : SolReport) : Keeps 21784376115201 s (State.gnsSvstat s q r) := by
  unfold State.gnsSvstat
  try dsimp only
  repeat' first
    | exact (rfl : (_ : Bool) = _)
    | with_reducible first
      | exact Keeps.refl ..
      | assumption
      | apply Keeps.step (State.gnsMessage_keeps ..)
      | refine Keeps.foldl _ _ ?_ (fun _ _ _ => ?_)

theorem State.gnsTiming_keeps (s : State) (q : GnssSecond) (r : SolReport) : Keeps 21784376115201 s (State.gnsTiming s q r) := by
  unfold State.gnsTiming
  try dsimp only
  repeat' first
    | exact (rfl : (_ : Bool) = _)
    | with_reducible first
      | exact Keeps.refl ..
      | assumption
      | refine Keeps.ite (fun _ => ?_) (fun _ => ?_)
      | apply Keeps.step (State.irq_keeps ..)
      | apply Keeps.step (State.wrN_keeps ..)
      | apply Keeps.step (State.gnsMessage_keeps ..)
      | refine Keeps.foldl _ _ ?_ (fun _ _ _ => ?_)
    | split

theorem State.gnsMessages_keeps (s : State) (q : GnssSecond) (r : SolReport) : Keeps 21784376115201 s (State.gnsMessages s q r) := by
  unfold State.gnsMessages
  try dsimp only
  repeat' first
    | exact (rfl : (_ : Bool) = _)
    | with_reducible first
      | exact Keeps.refl ..
      | refine Keeps.ite (fun _ => ?_) (fun _ => ?_)
      | apply Keeps.step (State.gnsTiming_keeps ..)
      | apply Keeps.step (State.gnsSvstat_keeps ..)
    | split

theorem State.posStore_keeps (s : State) (p : Int × Int × Int) (u : Nat) : Keeps 33554432 s (State.posStore s p u) := by
  unfold State.posStore
  try dsimp only
  repeat' first
    | exact (rfl : (_ : Bool) = _)
    | with_reducible first
      | exact Keeps.refl ..
      | apply Keeps.step (State.modGns_keeps ..)

theorem State.gnsSurvey_keeps (s : State) (p : Option ((Int × Int × Int) × Nat)) : Keeps 21784376115201 s (State.gnsSurvey s p) := by
  unfold State.gnsSurvey
  try dsimp only
  repeat' first
    | exact (rfl : (_ : Bool) = _)
    | with_reducible first
      | exact Keeps.refl ..
      | assumption
      | refine Keeps.ite (fun _ => ?_) (fun _ => ?_)
      | apply Keeps.step (State.setF_keeps ..)
      | apply Keeps.step (State.gnsEvent_keeps ..)
      | apply Keeps.step (State.wr_keeps ..)
      | apply Keeps.step (State.wrN_keeps ..)
      | apply Keeps.step (State.posStore_keeps ..)
      | apply Keeps.step (State.raise_keeps ..)
      | apply Keeps.step (State.modGns_keeps ..)
    | split

theorem State.gnsNoSolution_keeps (s : State) (q : GnssSecond) : Keeps 26199623475201 s (State.gnsNoSolution s q) := by
  unfold State.gnsNoSolution
  try dsimp only
  repeat' first
    | exact (rfl : (_ : Bool) = _)
    | with_reducible first
      | exact Keeps.refl ..
      | apply Keeps.step (State.gnsMessages_keeps ..)
      | apply Keeps.step (State.gnsSurvey_keeps ..)
      | apply Keeps.step (State.gnsEmpty_keeps ..)

theorem State.goes_keeps (s : State) (h : HeldWrite) : Keeps 131941395333119 s (State.goes s h) := by
  unfold State.goes
  try dsimp only
  repeat' first
    | exact (rfl : (_ : Bool) = _)
    | with_reducible first
      | exact Keeps.refl ..
      | refine Keeps.ite (fun _ => ?_) (fun _ => ?_)
      | apply Keeps.step (State.readAt_keeps ..)
      | apply Keeps.step (State.land_keeps ..)
      | apply Keeps.step (State.rBar2_keeps ..)
    | split
    | with_reducible apply Keeps.step (Keeps.with_pwr ..)

theorem State.guards_keeps (s : State) (k : Nat) (edges : List (Fin 12 × List Nat)) : Keeps 2542620639233 s (State.guards s k edges) := by
  unfold State.guards
  try dsimp only
  repeat' first
    | exact (rfl : (_ : Bool) = _)
    | with_reducible first
      | exact Keeps.refl ..
      | assumption
      | refine Keeps.ite (fun _ => ?_) (fun _ => ?_)
      | apply Keeps.step (State.guardCount_keeps ..)
      | refine Keeps.foldl _ _ ?_ (fun _ _ _ => ?_)
    | split

theorem State.missRead_keeps (s : State) (i : Itf) (a : Nat) : Keeps 2542620639425 s (State.missRead s i a) := by
  unfold State.missRead
  try dsimp only
  repeat' first
    | exact (rfl : (_ : Bool) = _)
    | with_reducible first
      | exact Keeps.refl ..
      | assumption
      | apply Keeps.step (State.answer_keeps ..)
      | apply Keeps.step (State.complete_keeps ..)
      | apply Keeps.step (State.mtxErr_keeps ..)
    | split

theorem State.regTally_keeps (s : State) (i : Itf) (write : Bool) : Keeps 549755813888 s (State.regTally s i write) := by
  unfold State.regTally
  try dsimp only
  repeat' first
    | exact (rfl : (_ : Bool) = _)
    | with_reducible first
      | exact Keeps.refl ..
      | assumption
      | refine Keeps.ite (fun _ => ?_) (fun _ => ?_)
      | apply Keeps.step (State.tallyAdd_keeps ..)
    | split

theorem State.readBy_keeps (s : State) (i : Itf) (a : Nat) (errs : Option Nat) : Keeps 8655722786033 s (State.readBy s i a errs) := by
  unfold State.readBy
  try dsimp only
  repeat' first
    | exact (rfl : (_ : Bool) = _)
    | with_reducible first
      | exact Keeps.refl ..
      | refine Keeps.ite (fun _ => ?_) (fun _ => ?_)
      | apply Keeps.step (State.missRead_keeps ..)
      | apply Keeps.step (State.answer_keeps ..)
      | apply Keeps.step (State.readAt_keeps ..)
      | apply Keeps.step (State.regTally_keeps ..)
      | apply Keeps.step (State.hold_keeps ..)
    | split
    | with_reducible apply Keeps.step (Keeps.with_pwr ..)

theorem State.hostRead_keeps (s : State) (i : Itf) (a : Nat) : Keeps 8655722786033 s (State.hostRead s i a) := by
  unfold State.hostRead
  try dsimp only
  repeat' first
    | exact (rfl : (_ : Bool) = _)
    | with_reducible first
      | exact Keeps.refl ..
      | apply Keeps.step (State.readBy_keeps ..)

theorem State.missWrite_keeps (s : State) (i : Itf) (a : Nat) : Keeps 2542620639233 s (State.missWrite s i a) := by
  unfold State.missWrite
  try dsimp only
  repeat' first
    | exact (rfl : (_ : Bool) = _)
    | with_reducible first
      | exact Keeps.refl ..
      | assumption
      | refine Keeps.ite (fun _ => ?_) (fun _ => ?_)
      | apply Keeps.step (State.mtxErr_keeps ..)
    | split

theorem Keeps.reach {m : Nat} {b s : State} {i : Itf} {a : Nat} {v : Word} {g : State → State} (hg : ∀ x, Keeps m b x → Keeps m b (g x))
    (hm : Nat.beq (Nat.land 3093450198017 m) 3093450198017 = true) (h : Keeps m b s) : Keeps m b (State.reach s i a v g) := by
  have sub : ∀ {c : Nat}, Nat.beq (Nat.land c 3093450198017) c = true → Nat.beq (Nat.land c m) c = true := fun hc => Keeps.sub hc hm
  unfold State.reach
  dsimp only
  have h1 := Keeps.step (State.regTally_keeps s i true) (sub rfl) h
  repeat' first
    | with_reducible assumption
    | (with_reducible refine Keeps.ite (fun _ => ?_) (fun _ => ?_))
    | (with_reducible apply Keeps.step (State.hold_keeps _ _) (sub rfl) h1)
    | (with_reducible apply Keeps.step (State.absentHit_keeps _ _) (sub rfl) h1)
    | (with_reducible exact hg _ h1)
    | (with_reducible apply Keeps.step (Keeps.with_pwr _ _) (sub rfl) h1)

theorem State.hostStore_keeps (s : State) (i : Itf) (a : Nat) (v : Word) : Keeps 131941395333119 s (State.hostStore s i a v) := by
  unfold State.hostStore
  try dsimp only
  repeat' first
    | exact (rfl : (_ : Bool) = _)
    | with_reducible first
      | exact Keeps.refl ..
      | assumption
      | refine Keeps.ite (fun _ => ?_) (fun _ => ?_)
      | apply Keeps.step (State.hostWr_keeps ..)
      | apply Keeps.step (State.missWrite_keeps ..)
      | refine Keeps.reach (fun _ _ => ?_) ?_ ?_
    | split

theorem State.hostAccess_keeps (s : State) (i : Itf) (a : Nat) (w : Option Word) : Keeps 131941395333119 s (State.hostAccess s i a w) := by
  unfold State.hostAccess
  try dsimp only
  repeat' first
    | exact (rfl : (_ : Bool) = _)
    | with_reducible first
      | exact Keeps.refl ..
      | assumption
      | apply Keeps.step (State.hostStore_keeps ..)
      | apply Keeps.step (State.hostRead_keeps ..)
    | split

theorem State.setHeld_keeps (s : State) (i : Itf) (l : List HeldWrite) : Keeps 3072 s (State.setHeld s i l) := by
  unfold State.setHeld
  try dsimp only
  repeat' first
    | exact (rfl : (_ : Bool) = _)
    | with_reducible first
      | exact Keeps.refl ..
      | assumption
    | split
    | with_reducible apply Keeps.step (Keeps.with_heldP ..)
    | with_reducible apply Keeps.step (Keeps.with_heldI ..)

theorem State.sweep_keeps (s : State) (i : Itf) (opened : Bool) (kept l : List HeldWrite) : Keeps 131941395333119 s (State.sweep s i opened kept l) := by
  induction l generalizing s opened kept with
  | nil => exact Keeps.step (State.setHeld_keeps s i kept) rfl (Keeps.refl _ _)
  | cons h r ih =>
    unfold State.sweep
    extract_lets h'
    refine Keeps.ite (fun _ => ?_) (fun _ => Keeps.ite (fun _ => ih ..) (fun _ => ?_))
    · exact Keeps.step (State.setHeld_keeps s i []) rfl (Keeps.refl _ _)
    · exact Keeps.step (ih ..) rfl (Keeps.step (State.goes_keeps s h') rfl (Keeps.refl _ _))

theorem State.settle_keeps (s : State) : Keeps 131941395333119 s (State.settle s) := by
  unfold State.settle
  try dsimp only
  repeat' first
    | exact (rfl : (_ : Bool) = _)
    | with_reducible first
      | exact Keeps.refl ..
      | apply Keeps.step (State.sweep_keeps ..)

theorem State.hostStoreGo_keeps (s : State) (i : Itf) (a : Nat) (v : Word) : Keeps 131941395333119 s (State.hostStoreGo s i a v) := by
  unfold State.hostStoreGo
  try dsimp only
  repeat' first
    | exact (rfl : (_ : Bool) = _)
    | with_reducible first
      | exact Keeps.refl ..
      | refine Keeps.ite (fun _ => ?_) (fun _ => ?_)
      | apply Keeps.step (State.settle_keeps ..)
      | apply Keeps.step (State.hostStore_keeps ..)
    | split

theorem State.i2cNack_keeps (s : State) (pec : Bool) (a : Nat) : Keeps 2542620639233 s (State.i2cNack s pec a) := by
  unfold State.i2cNack
  try dsimp only
  repeat' first
    | exact (rfl : (_ : Bool) = _)
    | with_reducible first
      | exact Keeps.refl ..
      | apply Keeps.step (State.setB_keeps ..)
      | apply Keeps.step (State.countSat_keeps ..)
      | apply Keeps.step (State.mtxErr_keeps ..)
      | apply Keeps.step (State.emit_keeps ..)

theorem State.undoImage_keeps (s : State) : Keeps 53979148975935 s (State.undoImage s) := by
  refine ⟨fun w => ?_, fun c hc => ?_, fun h => absurd h (by decide), fun h => absurd h (by decide), fun h => ?_⟩
  · simp only [State.wf, Memory.wf, Bool.and_eq_true] at w ⊢
    exact ⟨⟨⟨⟨⟨⟨⟨filter_wf _ _ _ w.1.1.1.1.1.1.1, rfl⟩, rfl⟩, rfl⟩, rfl⟩, w.1.1.2⟩, rfl⟩, rfl⟩
  · cases c <;> first | rfl | exact absurd hc (by decide)
  · exact ⟨rfl, rfl, rfl, rfl, rfl, rfl, rfl, rfl, rfl, rfl, rfl, rfl, rfl, rfl, rfl, rfl, rfl, rfl, rfl, h.copyA, h.copyB⟩

theorem State.imageRefuse_keeps (s : State) (code : Nat) (detail : Nat) : Keeps 53979148975935 s (State.imageRefuse s code detail) := by
  unfold State.imageRefuse
  try dsimp only
  repeat' first
    | exact (rfl : (_ : Bool) = _)
    | with_reducible first
      | exact Keeps.refl ..
      | refine Keeps.ite (fun _ => ?_) (fun _ => ?_)
      | apply Keeps.step (State.countSat_keeps ..)
      | apply Keeps.step (State.undoImage_keeps ..)
      | apply Keeps.step (State.setF_keeps ..)
      | apply Keeps.step (State.wrN_keeps ..)
      | apply Keeps.step (State.setPhase_keeps ..)
    | split

theorem State.laneLocked_keeps (s0 : State) (m : Nat) (rx : Word) (tx : Word) : Keeps 26199792918529 s0 (State.laneLocked s0 m rx tx) := by
  unfold State.laneLocked
  try dsimp only
  repeat' first
    | exact (rfl : (_ : Bool) = _)
    | with_reducible first
      | exact Keeps.refl ..
      | assumption
      | refine Keeps.ite (fun _ => ?_) (fun _ => ?_)
      | apply Keeps.step (State.setB_keeps ..)
      | apply Keeps.step (State.lockChg_keeps ..)
      | apply Keeps.step (State.wr_keeps ..)
      | apply Keeps.step (State.laneTo_keeps ..)
      | apply Keeps.step (State.raise_keeps ..)
      | apply Keeps.step (State.count_keeps ..)
      | apply Keeps.step (State.candRound_keeps ..)
      | apply Keeps.step (State.portEval_keeps ..)
    | split

theorem State.latchTim_keeps (s : State) (i : Itf) : Keeps 48 s (State.latchTim s i) := by
  unfold State.latchTim
  try dsimp only
  repeat' first
    | exact (rfl : (_ : Bool) = _)
    | with_reducible first
      | exact Keeps.refl ..
      | assumption
      | apply Keeps.step (State.bankWr_keeps ..)
      | refine Keeps.foldl _ _ ?_ (fun _ _ _ => ?_)

theorem State.lateQueue_keeps (s : State) (p src g ts : Nat) (blocked : Bool) (l : List TxFrame) :
    Keeps 21234385420289 s (State.lateQueue s p src g ts blocked l).2 := by
  induction l generalizing s with
  | nil => exact Keeps.refl _ _
  | cons f r ih =>
    unfold State.lateQueue
    split
    · exact Keeps.step (ih _) rfl (Keeps.step (State.txLate_keeps s p src f) rfl (Keeps.refl _ _))
    · exact ih _

theorem State.lateFrames_keeps (s : State) (p : Nat) (g : Nat) (ts : Nat) (blocked : Bool) : Keeps 21234385420289 s (State.lateFrames s p g ts blocked) := by
  unfold State.lateFrames
  try dsimp only
  repeat' first
    | exact (rfl : (_ : Bool) = _)
    | with_reducible first
      | exact Keeps.refl ..
      | apply Keeps.step (State.modPort_keeps ..)
      | apply Keeps.step (State.lateQueue_keeps ..)
      | apply Keeps.step (Keeps.ofSnd ‹_› (State.lateQueue_keeps ..))

theorem State.leapPps_keeps (s : State) (n : Nat) (c : Nat) (inserted : Bool) : Keeps 3145728 s (State.leapPps s n c inserted) := by
  unfold State.leapPps
  try dsimp only
  repeat' first
    | exact (rfl : (_ : Bool) = _)
    | exact Shape.lenOf (fun h => by first | (simp only [listMod_length, List.length_map, List.length_mapIdx, List.length_set, List.length_range, List.length_replicate, h.all, mapWf_nil, and_self]; done) | (simp [h.all, mapSet_wf]; done) | (split <;> simp [h.all] <;> done) | (constructor <;> split <;> simp [h.all] <;> done))
    | with_reducible first
      | exact Keeps.refl ..
      | refine Keeps.ite (fun _ => ?_) (fun _ => ?_)
    | split
    | with_reducible apply Keeps.step (Keeps.with_pps_tod _ _ _ ?_ ?_)

theorem State.leapSets_keeps (s : State) (n : Nat) (at_ : Int) (c : Int) : Keeps 4096 s (State.leapSets s n at_ c) := by
  unfold State.leapSets
  try dsimp only
  repeat' first
    | exact (rfl : (_ : Bool) = _)
    | exact Shape.lenOf (fun h => by first | (simp only [listMod_length, List.length_map, List.length_mapIdx, List.length_set, List.length_range, List.length_replicate, h.all, mapWf_nil, and_self]; done) | (simp [h.all, mapSet_wf]; done) | (split <;> simp [h.all] <;> done) | (constructor <;> split <;> simp [h.all] <;> done))
    | with_reducible first
      | exact Keeps.refl ..
      | refine Keeps.ite (fun _ => ?_) (fun _ => ?_)
    | split
    | with_reducible apply Keeps.step (Keeps.with_chans _ _ ?_)

theorem State.leaveKeys_keeps (s : State) : Keeps 1 s (State.leaveKeys s) := by
  unfold State.leaveKeys
  try dsimp only
  repeat' first
    | exact (rfl : (_ : Bool) = _)
    | with_reducible first
      | exact Keeps.refl ..
      | assumption
      | apply Keeps.step (State.setPhase_keeps ..)
    | split

theorem State.linkAcked_keeps (s : State) (ack : Nat) : Keeps 68736253953 s (State.linkAcked s ack) := by
  unfold State.linkAcked
  try dsimp only
  repeat' first
    | exact (rfl : (_ : Bool) = _)
    | with_reducible first
      | exact Keeps.refl ..
      | assumption
      | refine Keeps.ite (fun _ => ?_) (fun _ => ?_)
      | apply Keeps.step (State.countSat_keeps ..)
      | apply Keeps.step (State.raise_keeps ..)
      | apply Keeps.step (State.modTnd_keeps ..)
      | refine Keeps.foldl _ _ ?_ (fun _ _ _ => ?_)
    | split

theorem State.linkPair_keeps (s0 : State) : Keeps 8607403876353 s0 (State.linkPair s0) := by
  unfold State.linkPair
  try dsimp only
  repeat' first
    | exact (rfl : (_ : Bool) = _)
    | with_reducible first
      | exact Keeps.refl ..
      | refine Keeps.ite (fun _ => ?_) (fun _ => ?_)
      | apply Keeps.step (State.irq_keeps ..)
      | apply Keeps.step (State.setF_keeps ..)
      | apply Keeps.step (State.raise_keeps ..)
      | apply Keeps.step (State.healthFall_keeps ..)
      | apply Keeps.step (State.modTnd_keeps ..)
      | apply Keeps.step (State.candRound_keeps ..)
    | split

theorem State.linkSend_keeps (s : State) (typ : Nat) (payload : List Byte) : Keeps 2199040032768 s (State.linkSend s typ payload) := by
  unfold State.linkSend
  try dsimp only
  repeat' first
    | exact (rfl : (_ : Bool) = _)
    | with_reducible first
      | exact Keeps.refl ..
      | refine Keeps.ite (fun _ => ?_) (fun _ => ?_)
      | apply Keeps.step (State.linkEmit_keeps ..)
      | apply Keeps.step (State.modTnd_keeps ..)
    | split

theorem State.liveArmed_keeps (s : State) (ch : Chan) (c : CommitSet) : Keeps 8607474626567 s (State.liveArmed s ch c) := by
  unfold State.liveArmed
  try dsimp only
  repeat' first
    | exact (rfl : (_ : Bool) = _)
    | with_reducible first
      | exact Keeps.refl ..
      | assumption
      | refine Keeps.ite (fun _ => ?_) (fun _ => ?_)
      | apply Keeps.step (State.modChan_keeps ..)
      | apply Keeps.step (State.goLive_keeps ..)
      | apply Keeps.step (State.commitState_keeps ..)
    | split

theorem State.loTemp_keeps (s : State) (m : Nat) (t : Option (BitVec 16)) : Keeps 68723671041 s (State.loTemp s m t) := by
  unfold State.loTemp
  try dsimp only
  repeat' first
    | exact (rfl : (_ : Bool) = _)
    | with_reducible first
      | exact Keeps.refl ..
      | assumption
      | refine Keeps.ite (fun _ => ?_) (fun _ => ?_)
      | apply Keeps.step (State.setB_keeps ..)
      | apply Keeps.step (State.setF_keeps ..)
      | apply Keeps.step (State.modMember_keeps ..)
      | apply Keeps.step (State.raise_keeps ..)
    | split

theorem State.loadImg_keeps (s : State) : Keeps 3 s (State.loadImg s) := by
  unfold State.loadImg
  try dsimp only
  repeat' first
    | exact (rfl : (_ : Bool) = _)
    | with_reducible first
      | exact Keeps.refl ..
      | assumption
      | apply Keeps.step (State.wr_keeps ..)
      | apply Keeps.step (State.setLv_keeps ..)
      | refine Keeps.foldl _ _ ?_ (fun _ _ _ => ?_)

theorem State.marker_keeps (s : State) (ctx : Nat) : Keeps 26249229496327 s (State.marker s ctx) := by
  unfold State.marker
  try dsimp only
  repeat' first
    | exact (rfl : (_ : Bool) = _)
    | exact (rfl : (_ : List (Nat × Word × Word × Word × Word)) = _)
    | with_reducible first
      | exact Keeps.refl ..
      | apply Keeps.step (State.pairAccess_keeps ..)
      | apply Keeps.step (State.fltServe_keeps ..)
    | with_reducible apply Keeps.step (Keeps.with_flt_log _ _ ?_)

theorem State.meetStream_keeps (s : State) (st : Stream) : Keeps 21234720964609 s (State.meetStream s st) := by
  unfold State.meetStream
  try dsimp only
  repeat' first
    | exact (rfl : (_ : Bool) = _)
    | with_reducible first
      | exact Keeps.refl ..
      | assumption
      | apply Keeps.step (State.meetSlot_keeps ..)
    | split

theorem State.meetSweep_keeps (s : State) (i : Nat) : Keeps 21234720964609 s (State.meetSweep s i) := by
  unfold State.meetSweep
  try dsimp only
  repeat' first
    | exact (rfl : (_ : Bool) = _)
    | with_reducible first
      | exact Keeps.refl ..
      | refine Keeps.ite (fun _ => ?_) (fun _ => ?_)
      | apply Keeps.step (State.meetSlot_keeps ..)
      | apply Keeps.step (State.meet_keeps ..)
    | split

theorem State.mintRun_keeps (s : State) (src dst n j : Nat) : Keeps 26182523289601 s (State.mintRun s src dst n j).1 := by
  induction n generalizing s j with
  | zero => exact Keeps.refl _ _
  | succ n ih =>
    unfold State.mintRun
    split
    · rename_i q
      exact Keeps.step (State.mtxErr_keeps _ _ _ _) rfl (Keeps.step (Keeps.ofSnd q (State.granGet_keeps ..)) rfl (Keeps.refl _ _))
    · rename_i q
      have k := Keeps.step (m := 26182523289601) (Keeps.ofSnd q (State.granGet_keeps ..)) rfl (Keeps.refl _ _)
      split
      · exact k
      · split
        · rename_i h; exact Keeps.step (Keeps.ofSnd h (State.mintCookie_keeps _ _)) rfl k
        · rename_i h
          exact Keeps.step (ih _ _) rfl (Keeps.step (State.granWrite_keeps _ _ _ _) rfl (Keeps.step (Keeps.ofSnd h (State.mintCookie_keeps _ _)) rfl k))

theorem State.mirrorFail_keeps (s : State) (i : Nat) (used : Bool) : Keeps 2542620639233 s (State.mirrorFail s i used) := by
  unfold State.mirrorFail
  try dsimp only
  repeat' first
    | exact (rfl : (_ : Bool) = _)
    | with_reducible first
      | exact Keeps.refl ..
      | refine Keeps.ite (fun _ => ?_) (fun _ => ?_)
      | apply Keeps.step (State.irq_keeps ..)
      | apply Keeps.step (State.raise_keeps ..)
    | split

theorem State.monEntry_keeps (s : State) (c : Nat) (r : CandRes) : Keeps 4194305 s (State.monEntry s c r) := by
  unfold State.monEntry
  try dsimp only
  repeat' first
    | exact (rfl : (_ : Bool) = _)
    | with_reducible first
      | exact Keeps.refl ..
      | assumption
      | refine Keeps.ite (fun _ => ?_) (fun _ => ?_)
      | apply Keeps.step (State.setB_keeps ..)
      | apply Keeps.step (State.modMon_keeps ..)
      | apply Keeps.step (State.wrS48_keeps ..)
      | apply Keeps.step (State.wrN_keeps ..)
      | refine Keeps.foldl _ _ ?_ (fun _ _ _ => ?_)
    | split

theorem State.monTick_keeps (s : State) (c : Nat) : Keeps 4194305 s (State.monTick s c) := by
  unfold State.monTick
  try dsimp only
  repeat' first
    | exact (rfl : (_ : Bool) = _)
    | with_reducible first
      | exact Keeps.refl ..
      | refine Keeps.ite (fun _ => ?_) (fun _ => ?_)
      | apply Keeps.step (State.modMon_keeps ..)
      | apply Keeps.step (State.monEntry_keeps ..)
    | split

theorem State.monitorTick_keeps (s : State) : Keeps 8607403876353 s (State.monitorTick s) := by
  unfold State.monitorTick
  try dsimp only
  repeat' first
    | exact (rfl : (_ : Bool) = _)
    | with_reducible first
      | exact Keeps.refl ..
      | assumption
      | refine Keeps.ite (fun _ => ?_) (fun _ => ?_)
      | apply Keeps.step (State.contestBits_keeps ..)
      | apply Keeps.step (State.esmcAge_keeps ..)
      | apply Keeps.step (State.setF_keeps ..)
      | apply Keeps.step (State.candEval_keeps ..)
      | apply Keeps.step (State.monTick_keeps ..)
      | apply Keeps.step (State.selRound_keeps ..)
      | apply Keeps.step (State.count_keeps ..)
      | refine Keeps.foldl _ _ ?_ (fun _ _ _ => ?_)
    | split

theorem State.monitorOnce_keeps (s : State) : Keeps 8607403876353 s (State.monitorOnce s) := by
  unfold State.monitorOnce
  try dsimp only
  repeat' first
    | exact (rfl : (_ : Bool) = _)
    | exact Shape.lenOf (fun h => by first | (simp only [listMod_length, List.length_map, List.length_mapIdx, List.length_set, List.length_range, List.length_replicate, h.all, mapWf_nil, and_self]; done) | (simp [h.all, mapSet_wf]; done) | (split <;> simp [h.all] <;> done) | (constructor <;> split <;> simp [h.all] <;> done))
    | with_reducible first
      | exact Keeps.refl ..
      | refine Keeps.ite (fun _ => ?_) (fun _ => ?_)
      | apply Keeps.step (State.monitorTick_keeps ..)
    | split
    | with_reducible apply Keeps.step (Keeps.with_ens _ _ ?_)

theorem State.ringDrop_keeps (s : State) (p : Nat) : Keeps 2542687748097 s (State.ringDrop s p) := by
  unfold State.ringDrop
  try dsimp only
  repeat' first
    | exact (rfl : (_ : Bool) = _)
    | with_reducible first
      | exact Keeps.refl ..
      | refine Keeps.ite (fun _ => ?_) (fun _ => ?_)
      | apply Keeps.step (State.modPort_keeps ..)
      | apply Keeps.step (State.irq_keeps ..)
      | apply Keeps.step (State.raise_keeps ..)
      | apply Keeps.step (State.macCount_keeps ..)
    | split

theorem State.rxHalt_keeps (s : State) (p : Nat) (i : Nat) : Keeps 2542687748097 s (State.rxHalt s p i) := by
  unfold State.rxHalt
  try dsimp only
  repeat' first
    | exact (rfl : (_ : Bool) = _)
    | with_reducible first
      | exact Keeps.refl ..
      | apply Keeps.step (State.setB_keeps ..)
      | apply Keeps.step (State.irq_keeps ..)
      | apply Keeps.step (State.ringDrop_keeps ..)
      | apply Keeps.step (State.raise_keeps ..)

theorem State.txFetchErr_keeps (s : State) (p : Nat) (i : Nat) (addr : Nat) : Keeps 2542687748097 s (State.txFetchErr s p i addr) := by
  unfold State.txFetchErr
  try dsimp only
  repeat' first
    | exact (rfl : (_ : Bool) = _)
    | with_reducible first
      | exact Keeps.refl ..
      | apply Keeps.step (State.mtxErr_keeps ..)
      | apply Keeps.step (State.macCount_keeps ..)
      | apply Keeps.step (State.txHalt_keeps ..)

theorem State.noCompletion_keeps (s : State) (r : HostReq) : Keeps 2542687748097 s (State.noCompletion s r) := by
  unfold State.noCompletion
  try dsimp only
  repeat' first
    | exact (rfl : (_ : Bool) = _)
    | with_reducible first
      | exact Keeps.refl ..
      | assumption
      | apply Keeps.step (State.mtxErr_keeps ..)
      | apply Keeps.step (State.dmaBusErr_keeps ..)
      | apply Keeps.step (State.txFetchErr_keeps ..)
      | apply Keeps.step (State.rxHalt_keeps ..)
    | split

theorem State.noSample_keeps (s : State) (u : TiuId) (es : List Int) (c : Capture) : Keeps 98304 s (State.noSample s u es c) := by
  unfold State.noSample
  try dsimp only
  repeat' first
    | exact (rfl : (_ : Bool) = _)
    | with_reducible first
      | exact Keeps.refl ..
      | apply Keeps.step (State.modUnit_keeps ..)

theorem State.pairUpset_keeps (s : State) (o : Nat) (bits : Word) (inverted : Bool) : Keeps 8589934593 s (State.pairUpset s o bits inverted) := by
  unfold State.pairUpset
  try dsimp only
  repeat' first
    | exact (rfl : (_ : Bool) = _)
    | exact (rfl : (_ : List (Nat × Word × Word × Word × Word)) = _)
    | with_reducible first
      | exact Keeps.refl ..
      | refine Keeps.ite (fun _ => ?_) (fun _ => ?_)
      | apply Keeps.step (State.wr_keeps ..)
    | split
    | with_reducible apply Keeps.step (Keeps.with_flt_log _ _ ?_)

theorem State.pauseEnd_keeps (s : State) (p : Nat) (t : Nat) : Keeps 67108865 s (State.pauseEnd s p t) := by
  unfold State.pauseEnd
  try dsimp only
  repeat' first
    | exact (rfl : (_ : Bool) = _)
    | with_reducible first
      | exact Keeps.refl ..
      | apply Keeps.step (State.modPort_keeps ..)
      | apply Keeps.step (State.setB_keeps ..)
      | apply Keeps.step (State.wr_keeps ..)
      | apply Keeps.step (State.macCount_keeps ..)

theorem State.pauseFrame_keeps (s : State) (p : Nat) (q : Nat) : Keeps 67108865 s (State.pauseFrame s p q) := by
  unfold State.pauseFrame
  try dsimp only
  repeat' first
    | exact (rfl : (_ : Bool) = _)
    | with_reducible first
      | exact Keeps.refl ..
      | refine Keeps.ite (fun _ => ?_) (fun _ => ?_)
      | apply Keeps.step (State.modPort_keeps ..)
      | apply Keeps.step (State.setB_keeps ..)
      | apply Keeps.step (State.wrN_keeps ..)
      | apply Keeps.step (State.macCount_keeps ..)
      | apply Keeps.step (State.pauseEnd_keeps ..)
    | split

theorem State.peerResult_keeps (s : State) : Keeps 2542641610753 s (State.peerResult s) := by
  unfold State.peerResult
  try dsimp only
  repeat' first
    | exact (rfl : (_ : Bool) = _)
    | with_reducible first
      | exact Keeps.refl ..
      | assumption
      | refine Keeps.ite (fun _ => ?_) (fun _ => ?_)
      | apply Keeps.step (State.xchkEval_keeps ..)
      | apply Keeps.step (State.monResult_keeps ..)
      | apply Keeps.step (State.healthFall_keeps ..)
      | apply Keeps.step (State.c25Result_keeps ..)
    | split
    | with_reducible apply Keeps.step (Keeps.with_tnd ..)

theorem State.peerEdge_keeps (s : State) (restart : Bool) : Keeps 2542641610753 s (State.peerEdge s restart) := by
  unfold State.peerEdge
  try dsimp only
  repeat' first
    | exact (rfl : (_ : Bool) = _)
    | with_reducible first
      | exact Keeps.refl ..
      | apply Keeps.step (State.peerResult_keeps ..)
    | with_reducible apply Keeps.step (Keeps.with_tnd ..)

theorem State.runCount_keeps (s : State) (n : Nat) (e : Int) : Keeps 4194305 s (State.runCount s n e) := by
  unfold State.runCount
  try dsimp only
  repeat' first
    | exact (rfl : (_ : Bool) = _)
    | with_reducible first
      | exact Keeps.refl ..
      | refine Keeps.ite (fun _ => ?_) (fun _ => ?_)
      | apply Keeps.step (State.modCtl_keeps ..)
      | apply Keeps.step (State.setF_keeps ..)
    | split

theorem State.piUpdate_keeps (s : State) (n : Nat) (e : Int) (tau : Nat) : Keeps 68723679233 s (State.piUpdate s n e tau) := by
  unfold State.piUpdate
  try dsimp only
  repeat' first
    | exact (rfl : (_ : Bool) = _)
    | with_reducible first
      | exact Keeps.refl ..
      | apply Keeps.step (State.addPendServo_keeps ..)
      | apply Keeps.step (State.setFnow_keeps ..)
      | apply Keeps.step (State.runCount_keeps ..)
      | apply Keeps.step (State.setInteg_keeps ..)

theorem State.placeDone_keeps (s : State) (p : Nat) (slot : Option Nat) (y : Nat) (t : Nat) : Keeps 134217728 s (State.placeDone s p slot y t) := by
  unfold State.placeDone
  try dsimp only
  repeat' first
    | exact (rfl : (_ : Bool) = _)
    | exact Shape.lenOf (fun h => by first | (simp only [listMod_length, List.length_map, List.length_mapIdx, List.length_set, List.length_range, List.length_replicate, h.all, mapWf_nil, and_self]; done) | (simp [h.all, mapSet_wf]; done) | (split <;> simp [h.all] <;> done) | (constructor <;> split <;> simp [h.all] <;> done))
    | with_reducible first
      | exact Keeps.refl ..
    | with_reducible apply Keeps.step (Keeps.with_pkt _ _ ?_)

theorem State.rootCut_keeps (s : State) : Keeps 4432406249472 s (State.rootCut s) := by
  unfold State.rootCut
  try dsimp only
  repeat' first
    | exact (rfl : (_ : Bool) = _)
    | exact Shape.lenOf (fun h => by first | (simp only [listMod_length, List.length_map, List.length_mapIdx, List.length_set, List.length_range, List.length_replicate, h.all, mapWf_nil, and_self]; done) | (simp [h.all, mapSet_wf]; done) | (split <;> simp [h.all] <;> done) | (constructor <;> split <;> simp [h.all] <;> done))
    | with_reducible first
      | exact Keeps.refl ..
      | refine Keeps.ite (fun _ => ?_) (fun _ => ?_)
      | apply Keeps.step (State.takeFree_keeps ..)
      | apply Keeps.step (Keeps.ofSnd ‹_› (State.takeFree_keeps ..))
      | apply Keeps.step (State.modKeys_keeps _ _ ?_)
    | split

theorem State.powerReset_keeps (s : State) (mainLost : Bool) : Keeps 129742372077567 s (State.powerReset s mainLost) := by
  unfold State.powerReset
  try dsimp only
  repeat' first
    | exact (rfl : (_ : Bool) = _)
    | with_reducible first
      | exact Keeps.refl ..
      | apply Keeps.step (State.restart_keeps ..)
      | apply Keeps.step (State.rootCut_keeps ..)
    | with_reducible apply Keeps.step (Keeps.with_pwr ..)

theorem State.ppsAlign_keeps (s : State) (u : Nat) (m : Int) : Keeps 1052675 s (State.ppsAlign s u m) := by
  unfold State.ppsAlign
  try dsimp only
  repeat' first
    | exact (rfl : (_ : Bool) = _)
    | exact Shape.lenOf (fun h => by first | (simp only [listMod_length, List.length_map, List.length_mapIdx, List.length_set, List.length_range, List.length_replicate, h.all, mapWf_nil, and_self]; done) | (simp [h.all, mapSet_wf]; done) | (split <;> simp [h.all] <;> done) | (constructor <;> split <;> simp [h.all] <;> done))
    | with_reducible first
      | exact Keeps.refl ..
      | assumption
      | refine Keeps.ite (fun _ => ?_) (fun _ => ?_)
      | apply Keeps.step (State.setB_keeps ..)
      | apply Keeps.step (State.ppsMove_keeps ..)
      | refine Keeps.foldl _ _ ?_ (fun _ _ _ => ?_)
    | split
    | with_reducible apply Keeps.step (Keeps.with_pps _ _ ?_)

theorem State.qinUnc_keeps (s : State) (c : Nat) (qin : Word) : Keeps 8388608 s (State.qinUnc s c qin) := by
  unfold State.qinUnc
  try dsimp only
  repeat' first
    | exact (rfl : (_ : Bool) = _)
    | exact Shape.lenOf (fun h => by first | (simp only [listMod_length, List.length_map, List.length_mapIdx, List.length_set, List.length_range, List.length_replicate, h.all, mapWf_nil, and_self]; done) | (simp [h.all, mapSet_wf]; done) | (split <;> simp [h.all] <;> done) | (constructor <;> split <;> simp [h.all] <;> done))
    | with_reducible first
      | exact Keeps.refl ..
      | refine Keeps.ite (fun _ => ?_) (fun _ => ?_)
    | split
    | with_reducible apply Keeps.step (Keeps.with_srcRes _ _ ?_)

theorem State.release_keeps (s : State) (ch : Chan) (h : HeldWrite) : Keeps 4109 s (State.release s ch h) := by
  unfold State.release
  try dsimp only
  repeat' first
    | exact (rfl : (_ : Bool) = _)
    | with_reducible first
      | exact Keeps.refl ..
      | refine Keeps.ite (fun _ => ?_) (fun _ => ?_)
      | apply Keeps.step (State.wCommit_keeps ..)
      | apply Keeps.step (State.wShadow_keeps ..)
    | split

theorem State.rootCreate_keeps (s : State) : Keeps 4501125726209 s (State.rootCreate s) := by
  unfold State.rootCreate
  try dsimp only
  repeat' first
    | exact (rfl : (_ : Bool) = _)
    | exact Shape.lenOf (fun h => by first | (simp only [listMod_length, List.length_map, List.length_mapIdx, List.length_set, List.length_range, List.length_replicate, h.all, mapWf_nil, and_self]; done) | (simp [h.all, mapSet_wf]; done) | (split <;> simp [h.all] <;> done) | (constructor <;> split <;> simp [h.all] <;> done))
    | with_reducible first
      | exact Keeps.refl ..
      | apply Keeps.step (State.setB_keeps ..)
      | apply Keeps.step (State.raise_keeps ..)
      | apply Keeps.step (State.takeFree_keeps ..)
      | apply Keeps.step (Keeps.ofSnd ‹_› (State.takeFree_keeps ..))
      | apply Keeps.step (State.modKeys_keeps _ _ ?_)

theorem State.runRecord_keeps (t : State) (keep : Nat) (ms : Word) : Keeps 536870913 t (State.runRecord t keep ms) := by
  unfold State.runRecord
  try dsimp only
  repeat' first
    | exact (rfl : (_ : Bool) = _)
    | with_reducible first
      | exact Keeps.refl ..
      | apply Keeps.step (State.wr64_keeps ..)
      | apply Keeps.step (State.setF_keeps ..)
      | apply Keeps.step (State.wr_keeps ..)
      | apply Keeps.step (State.wrN_keeps ..)
      | apply Keeps.step (State.modImg_keeps' _ _ rfl)

theorem State.startBases_keeps (s : State) (t0 : Nat) : Keeps 17185120257 s (State.startBases s t0) := by
  unfold State.startBases
  extract_lets s1 s2 e3 r3 s3
  have h1 : Keeps 17185120257 s s1 := Keeps.step (State.modSpn_keeps _ _ (fun h => by simp [h.bases, h.slots])) rfl (Keeps.refl _ _)
  have h2 : Keeps 17185120257 s s2 := Keeps.foldl _ _ h1 fun x n h => by
    exact Keeps.ite (fun _ => Keeps.step (State.setF_keeps ..) rfl (Keeps.step (State.setF_keeps ..) rfl h)) (fun _ => h)
  clear_value s2
  have h3 : Keeps 17185120257 s s3 := Keeps.step (Keeps.with_ens_trace s2 _ _ (fun h => h.ensR)) rfl h2
  clear_value s3
  exact Keeps.step (Keeps.with_pps s3 _ (fun h => by simp [h.pps])) rfl h3

theorem State.startWatch_keeps (s : State) (gen : Nat) : Keeps 35261681500160 s (State.startWatch s gen) := by
  unfold State.startWatch
  extract_lets strap compat keys rest s1 s2
  have h1 : Keeps 35261681500160 s s1 := Keeps.step (State.raise_keeps _ _ _) rfl (Keeps.step (Keeps.with_faults s keys) rfl (Keeps.refl _ _))
  have h2 : Keeps 35261681500160 s s2 := Keeps.ite (fun _ => h1) (fun _ => Keeps.step (State.raise_keeps _ _ _) rfl h1)
  clear_value s2
  exact Keeps.step (Keeps.with_flt_faults_log s2 _ _ rfl) rfl h2

theorem State.runBegin_keeps (t : State) (ms : Word) : Keeps 56445270777857 t (State.runBegin t ms) := by
  unfold State.runBegin
  try dsimp only
  repeat' first
    | exact (rfl : (_ : Bool) = _)
    | with_reducible first
      | exact Keeps.refl ..
      | assumption
      | refine Keeps.ite (fun _ => ?_) (fun _ => ?_)
      | apply Keeps.step (State.startWatch_keeps ..)
      | apply Keeps.step (State.irq_keeps ..)
      | apply Keeps.step (State.runRecord_keeps ..)
      | apply Keeps.step (State.startBases_keeps ..)
      | apply Keeps.step (State.setPhase_keeps ..)
      | apply Keeps.step (State.shadowRebuild_keeps ..)
      | apply Keeps.step (State.modMonitor_keeps ..)
      | refine Keeps.foldl _ _ ?_ (fun _ _ _ => ?_)
    | split
    | with_reducible apply Keeps.step (Keeps.with_trace ..)

theorem State.rxBegins_keeps (s : State) (m : Nat) : Keeps 67108864 s (State.rxBegins s m) := by
  unfold State.rxBegins
  try dsimp only
  repeat' first
    | exact (rfl : (_ : Bool) = _)
    | exact Shape.lenOf (fun h => by first | (simp only [listMod_length, List.length_map, List.length_mapIdx, List.length_set, List.length_range, List.length_replicate, h.all, mapWf_nil, and_self]; done) | (simp [h.all, mapSet_wf]; done) | (split <;> simp [h.all] <;> done) | (constructor <;> split <;> simp [h.all] <;> done))
    | with_reducible first
      | exact Keeps.refl ..
    | with_reducible apply Keeps.step (Keeps.with_mac _ _ ?_)

theorem State.rxHello_keeps (s : State) (p : List Byte) : Keeps 68736253953 s (State.rxHello s p) := by
  unfold State.rxHello
  try dsimp only
  repeat' first
    | exact (rfl : (_ : Bool) = _)
    | with_reducible first
      | exact Keeps.refl ..
      | refine Keeps.ite (fun _ => ?_) (fun _ => ?_)
      | apply Keeps.step (State.modTnd_keeps ..)
      | apply Keeps.step (State.cfgMatch_keeps ..)
    | split

theorem State.rxMirror_keeps (s : State) (p : List Byte) : Keeps 2576980377601 s (State.rxMirror s p) := by
  unfold State.rxMirror
  try dsimp only
  repeat' first
    | exact (rfl : (_ : Bool) = _)
    | with_reducible first
      | exact Keeps.refl ..
      | assumption
      | refine Keeps.ite (fun _ => ?_) (fun _ => ?_)
      | apply Keeps.step (State.mirrorFail_keeps ..)
      | apply Keeps.step (State.chestCommit_keeps ..)
      | apply Keeps.step (State.chestErase_keeps ..)
    | split

theorem State.rxPeerTime_keeps (s0 : State) (p : List Byte) : Keeps 8607403876353 s0 (State.rxPeerTime s0 p) := by
  unfold State.rxPeerTime
  try dsimp only
  repeat' first
    | exact (rfl : (_ : Bool) = _)
    | with_reducible first
      | exact Keeps.refl ..
      | apply Keeps.step (State.peerResult_keeps ..)
      | apply Keeps.step (State.wrN_keeps ..)
      | apply Keeps.step (State.qualityIn_keeps ..)
      | apply Keeps.step (State.modTnd_keeps ..)
      | apply Keeps.step (State.candRound_keeps ..)

theorem State.rxPlace_keeps (s : State) (p n t : Nat) (b : List Byte) (i : Nat) (bad : Option Nat) (l : List (Option (List Byte))) :
    Keeps 2748779069440 s (State.rxPlace s p n t b i bad l).1 := by
  induction l generalizing s b i bad with
  | nil => unfold State.rxPlace; split <;> exact Keeps.refl _ _
  | cons d r ih =>
    unfold State.rxPlace
    split
    · exact Keeps.refl _ _
    · split
      · exact Keeps.refl _ _
      · dsimp only
        split
        · exact Keeps.refl _ _
        · have k := fun a c => Keeps.step (m := 2748779069440) (State.hostWrite_keeps s 2 a c) rfl (Keeps.refl _ _)
          split
          · exact Keeps.refl _ _
          · split
            · exact k _ _
            · split
              · rename_i h; exact Keeps.step (Keeps.ofFst h (ih ..)) rfl (k _ _)
              · exact Keeps.step (ih ..) rfl (k _ _)

theorem State.rxState_keeps (s : State) (p : List Byte) : Keeps 8607403876353 s (State.rxState s p) := by
  unfold State.rxState
  try dsimp only
  repeat' first
    | exact (rfl : (_ : Bool) = _)
    | with_reducible first
      | exact Keeps.refl ..
      | assumption
      | apply Keeps.step (State.setF_keeps ..)
      | apply Keeps.step (State.wrN_keeps ..)
      | apply Keeps.step (State.healthFall_keeps ..)
      | apply Keeps.step (State.adopt_keeps ..)
      | apply Keeps.step (State.modTnd_keeps ..)
      | apply Keeps.step (State.cfgMatch_keeps ..)
      | refine Keeps.foldl _ _ ?_ (fun _ _ _ => ?_)

theorem State.twowayResult_keeps (s0 : State) (lane : Fin 18) (t1 : Int) (t2 : Int) (t3 : Int) (t4 : Int) : Keeps 8607412264961 s0 (State.twowayResult s0 lane t1 t2 t3 t4) := by
  unfold State.twowayResult
  try dsimp only
  repeat' first
    | exact (rfl : (_ : Bool) = _)
    | exact Shape.lenOf (fun h => by first | (simp only [listMod_length, List.length_map, List.length_mapIdx, List.length_set, List.length_range, List.length_replicate, h.all, mapWf_nil, and_self]; done) | (simp [h.all, mapSet_wf]; done) | (split <;> simp [h.all] <;> done) | (constructor <;> split <;> simp [h.all] <;> done))
    | with_reducible first
      | exact Keeps.refl ..
      | refine Keeps.ite (fun _ => ?_) (fun _ => ?_)
      | apply Keeps.step (State.xchkEval_keeps ..)
      | apply Keeps.step (State.monResult_keeps ..)
      | apply Keeps.step (State.wrS64_keeps ..)
      | apply Keeps.step (State.healthFall_keeps ..)
      | apply Keeps.step (State.c25Result_keeps ..)
      | apply Keeps.step (State.modTnd_keeps ..)
      | apply Keeps.step (State.candRound_keeps ..)
    | split
    | with_reducible apply Keeps.step (Keeps.with_srcRes _ _ ?_)

theorem State.rxTwoway_keeps (s : State) (lane : Nat) (p : List Byte) : Keeps 8607412264961 s (State.rxTwoway s lane p) := by
  unfold State.rxTwoway
  try dsimp only
  repeat' first
    | exact (rfl : (_ : Bool) = _)
    | with_reducible first
      | exact Keeps.refl ..
      | refine Keeps.ite (fun _ => ?_) (fun _ => ?_)
      | apply Keeps.step (State.twowayResult_keeps ..)
      | apply Keeps.step (State.modTnd_keeps ..)
    | split

theorem State.sampleEvent_keeps (s : State) (u : TiuId) (es : List Int) (raw : Int) (c : Capture) : Keeps 2473901260801 s (State.sampleEvent s u es raw c) := by
  unfold State.sampleEvent
  try dsimp only
  repeat' first
    | exact (rfl : (_ : Bool) = _)
    | with_reducible first
      | exact Keeps.refl ..
      | assumption
      | refine Keeps.ite (fun _ => ?_) (fun _ => ?_)
      | apply Keeps.step (State.addSample_keeps ..)
      | apply Keeps.step (State.noSample_keeps ..)
    | split

theorem State.sampleStraps_keeps (s : State) (boot : Nat) (unitB : Bool) (compat : Bool) (testN : Bool) : Keeps 1 s (State.sampleStraps s boot unitB compat testN) := by
  unfold State.sampleStraps
  try dsimp only
  repeat' first
    | exact (rfl : (_ : Bool) = _)
    | with_reducible first
      | exact Keeps.refl ..
      | refine Keeps.ite (fun _ => ?_) (fun _ => ?_)
      | apply Keeps.step (State.setB_keeps ..)
      | apply Keeps.step (State.setF_keeps ..)
      | apply Keeps.step (State.setPhase_keeps ..)
    | split

theorem State.secondRecords_keeps (s : State) : Keeps 4209336385537 s (State.secondRecords s) := by
  unfold State.secondRecords
  try dsimp only
  repeat' first
    | exact (rfl : (_ : Bool) = _)
    | with_reducible first
      | exact Keeps.refl ..
      | assumption
      | refine Keeps.ite (fun _ => ?_) (fun _ => ?_)
      | apply Keeps.step (State.traceWrite_keeps ..)
      | refine Keeps.foldl _ _ ?_ (fun _ _ _ => ?_)
    | split
    | with_reducible apply Keeps.step (Keeps.with_trace ..)

theorem State.syncBuild_keeps (s : State) (p : Nat) (slot : Option Nat) (e : Encap) (log : Byte) (auth : Option AuthOut) (launch : Nat) : Keeps 21784275451905 s (State.syncBuild s p slot e log auth launch) := by
  unfold State.syncBuild
  try dsimp only
  repeat' first
    | exact (rfl : (_ : Bool) = _)
    | with_reducible first
      | exact Keeps.refl ..
      | refine Keeps.ite (fun _ => ?_) (fun _ => ?_)
      | apply Keeps.step (State.tallyAdd_keeps ..)
      | apply Keeps.step (State.flightIn_keeps ..)
      | apply Keeps.step (State.streamSeq_keeps ..)
      | apply Keeps.step (Keeps.ofSnd ‹_› (State.streamSeq_keeps ..))
      | apply Keeps.step (State.send_keeps ..)
    | split

theorem State.serveBuild_keeps (s : State) (b : PktBuild) : Keeps 21784275451905 s (State.serveBuild s b) := by
  unfold State.serveBuild
  try dsimp only
  repeat' first
    | exact (rfl : (_ : Bool) = _)
    | with_reducible first
      | exact Keeps.refl ..
      | assumption
      | refine Keeps.ite (fun _ => ?_) (fun _ => ?_)
      | apply Keeps.step (State.cliDelayReq_keeps ..)
      | apply Keeps.step (State.followUp_keeps ..)
      | apply Keeps.step (State.cliSignal_keeps ..)
      | apply Keeps.step (State.announceBuild_keeps ..)
      | apply Keeps.step (State.streamAuth_keeps ..)
      | apply Keeps.step (Keeps.ofSnd ‹_› (State.streamAuth_keeps ..))
      | apply Keeps.step (State.syncBuild_keeps ..)
      | apply Keeps.step (State.gratuitous_keeps ..)
    | split

theorem State.serveFrom_keeps (s : State) (l : List PktBuild) : Keeps 21784275451905 s (State.serveFrom s l) := by
  induction l generalizing s with
  | nil => exact Keeps.refl _ _
  | cons b r ih =>
    unfold State.serveFrom
    refine Keeps.ite (fun _ => ?_) (fun _ => ?_)
    · exact Keeps.step (Keeps.with_pkt s _ fun h => h.pktR) rfl (Keeps.refl _ _)
    · exact Keeps.step (ih _) rfl (Keeps.step (State.serveBuild_keeps _ _) rfl (Keeps.refl _ _))

theorem State.serveDue_keeps (s : State) : Keeps 21784275451905 s (State.serveDue s) := by
  unfold State.serveDue
  try dsimp only
  repeat' first
    | exact (rfl : (_ : Bool) = _)
    | exact Shape.lenOf (fun h => by first | (simp only [listMod_length, List.length_map, List.length_mapIdx, List.length_set, List.length_range, List.length_replicate, h.all, mapWf_nil, and_self]; done) | (simp [h.all, mapSet_wf]; done) | (split <;> simp [h.all] <;> done) | (constructor <;> split <;> simp [h.all] <;> done))
    | with_reducible first
      | exact Keeps.refl ..
      | refine Keeps.ite (fun _ => ?_) (fun _ => ?_)
      | apply Keeps.step (State.serveFrom_keeps ..)
    | split
    | with_reducible apply Keeps.step (Keeps.with_pkt _ _ ?_)

theorem State.servoUpdate_keeps (s : State) (n : Nat) (c : Nat) (r : CandRes) : Keeps 8607472529409 s (State.servoUpdate s n c r) := by
  unfold State.servoUpdate
  try dsimp only
  repeat' first
    | exact (rfl : (_ : Bool) = _)
    | with_reducible first
      | exact Keeps.refl ..
      | assumption
      | refine Keeps.ite (fun _ => ?_) (fun _ => ?_)
      | apply Keeps.step (State.modCtl_keeps ..)
      | apply Keeps.step (State.firstUpdate_keeps ..)
      | apply Keeps.step (State.lockEval_keeps ..)
      | apply Keeps.step (State.piUpdate_keeps ..)
      | apply Keeps.step (State.applied_keeps ..)
      | apply Keeps.step (State.boundEval_keeps ..)
      | apply Keeps.step (State.exceeded_keeps ..)
    | split

theorem State.servoTake_keeps (s : State) (n : Nat) : Keeps 8607472529409 s (State.servoTake s n) := by
  unfold State.servoTake
  try dsimp only
  repeat' first
    | exact (rfl : (_ : Bool) = _)
    | with_reducible first
      | exact Keeps.refl ..
      | refine Keeps.ite (fun _ => ?_) (fun _ => ?_)
      | apply Keeps.step (State.servoUpdate_keeps ..)
    | split

theorem State.setImgF_keeps (s : State) (a : Nat) (hi : Nat) (lo : Nat) (v : Nat) : Keeps 536870912 s (State.setImgF s a hi lo v) := by
  unfold State.setImgF
  try dsimp only
  repeat' first
    | exact (rfl : (_ : Bool) = _)
    | with_reducible first
      | exact Keeps.refl ..
      | apply Keeps.step (State.setImg_keeps ..)

theorem State.slotActions_keeps (s : State) (i : Nat) (at_ : Nat) : Keeps 8607474626567 s (State.slotActions s i at_) := by
  unfold State.slotActions
  try dsimp only
  repeat' first
    | exact (rfl : (_ : Bool) = _)
    | with_reducible first
      | exact Keeps.refl ..
      | assumption
      | refine Keeps.ite (fun _ => ?_) (fun _ => ?_)
      | apply Keeps.step (State.setB_keeps ..)
      | apply Keeps.step (State.traceWrite_keeps ..)
      | apply Keeps.step (State.irq_keeps ..)
      | apply Keeps.step (State.evtPulse_keeps ..)
      | apply Keeps.step (State.snapRequest_keeps ..)
      | apply Keeps.step (State.commitNow_keeps ..)
      | apply Keeps.step (Keeps.ofSnd ‹_› (State.commitNow_keeps ..))
    | split

theorem State.slotFaults_keeps (s : State) (bad : List (Fin 64)) : Keeps 2576980377601 s (State.slotFaults s bad) := by
  unfold State.slotFaults
  try dsimp only
  repeat' first
    | exact (rfl : (_ : Bool) = _)
    | exact Shape.lenOf (fun h => by first | (simp only [listMod_length, List.length_map, List.length_mapIdx, List.length_set, List.length_range, List.length_replicate, h.all, mapWf_nil, and_self]; done) | (simp [h.all, mapSet_wf]; done) | (split <;> simp [h.all] <;> done) | (constructor <;> split <;> simp [h.all] <;> done))
    | with_reducible first
      | exact Keeps.refl ..
      | assumption
      | refine Keeps.ite (fun _ => ?_) (fun _ => ?_)
      | apply Keeps.step (State.irq_keeps ..)
      | apply Keeps.step (State.raise_keeps ..)
      | apply Keeps.step (State.modKeys_keeps _ _ ?_)
      | refine Keeps.foldl _ _ ?_ (fun _ _ _ => ?_)
    | split

theorem State.smearOpen_keeps (s : State) (n : Nat) : Keeps 8192 s (State.smearOpen s n) := by
  unfold State.smearOpen
  try dsimp only
  repeat' first
    | exact (rfl : (_ : Bool) = _)
    | with_reducible first
      | exact Keeps.refl ..
      | refine Keeps.ite (fun _ => ?_) (fun _ => ?_)
      | apply Keeps.step (State.modBase_keeps ..)
    | split

theorem State.startCommits_keeps (s : State) (l : List Chan) : ∀ t, State.startCommits s l = .inr t → Keeps 8607474626567 s t := by
  induction l generalizing s with
  | nil => intro t h; cases h; exact Keeps.refl _ _
  | cons ch l ih =>
    intro t h
    unfold State.startCommits at h
    split at h
    · exact ih s t h
    · dsimp only at h
      split at h
      · cases h
      · exact Keeps.step (ih _ t h) rfl (Keeps.step (State.commitNow_keeps s ch) rfl (Keeps.refl _ _))

theorem State.storeReady_keeps (s : State) : Keeps 26199602495489 s (State.storeReady s) := by
  unfold State.storeReady
  try dsimp only
  repeat' first
    | exact (rfl : (_ : Bool) = _)
    | with_reducible first
      | exact Keeps.refl ..
      | refine Keeps.ite (fun _ => ?_) (fun _ => ?_)
      | apply Keeps.step (State.traceDrain_keeps ..)
      | apply Keeps.step (State.setB_keeps ..)
      | apply Keeps.step (State.irq_keeps ..)
      | apply Keeps.step (State.gnsDrain_keeps ..)
      | apply Keeps.step (State.shadowRebuild_keeps ..)
      | apply Keeps.step (State.modCst_keeps ..)
      | apply Keeps.step (State.takeFree_keeps ..)
      | apply Keeps.step (Keeps.ofSnd ‹_› (State.takeFree_keeps ..))
    | split

theorem State.storeZero_keeps (s : State) : Keeps 18691966107649 s (State.storeZero s) := by
  unfold State.storeZero
  extract_lets s1 s2
  have h1 : Keeps 18691966107649 s s1 := Keeps.step (Keeps.with_mem s _ fun h => by
    simp only [State.wf, Bool.and_eq_true] at h
    exact filter_wf _ _ _ h.2) rfl (Keeps.refl _ _)
  have h2 : Keeps 18691966107649 s s2 := Keeps.step (State.modCst_keeps _ _) rfl h1
  clear_value s2
  exact Keeps.step (State.setF_keeps _ _ _ _ _) rfl
    (Keeps.foldl _ _ (Keeps.step (State.usedShow_keeps _) rfl h2) fun x a h => Keeps.step (State.budgetShow_keeps _ _) rfl h)

theorem State.subkeyCreate_keeps (s : State) : Keeps 4432406249473 s (State.subkeyCreate s) := by
  unfold State.subkeyCreate
  try dsimp only
  repeat' first
    | exact (rfl : (_ : Bool) = _)
    | with_reducible first
      | exact Keeps.refl ..
      | refine Keeps.ite (fun _ => ?_) (fun _ => ?_)
      | apply Keeps.step (State.chestCommit_keeps ..)
      | apply Keeps.step (State.takeFree_keeps ..)
      | apply Keeps.step (Keeps.ofSnd ‹_› (State.takeFree_keeps ..))
    | split

theorem State.subsetValues_keeps (s : State) : Keeps 536870912 s (State.subsetValues s) := by
  unfold State.subsetValues
  try dsimp only
  repeat' first
    | exact (rfl : (_ : Bool) = _)
    | with_reducible first
      | exact Keeps.refl ..
      | assumption
      | refine Keeps.ite (fun _ => ?_) (fun _ => ?_)
      | apply Keeps.step (State.setImgF_keeps ..)
      | apply Keeps.step (State.setImg_keeps ..)
      | refine Keeps.foldl _ _ ?_ (fun _ _ _ => ?_)
    | split

theorem State.sweepSlot_keeps (s : State) (i : Nat) : Keeps 21234720964609 s (State.sweepSlot s i) := by
  unfold State.sweepSlot
  try dsimp only
  repeat' first
    | exact (rfl : (_ : Bool) = _)
    | with_reducible first
      | exact Keeps.refl ..
      | assumption
      | refine Keeps.ite (fun _ => ?_) (fun _ => ?_)
      | apply Keeps.step (State.budgetShow_keeps ..)
      | apply Keeps.step (State.sessRelease_keeps ..)
      | apply Keeps.step (State.meetSweep_keeps ..)
      | apply Keeps.step (State.setHotBit_keeps ..)
      | apply Keeps.step (State.setHot_keeps ..)
      | refine Keeps.foldl _ _ ?_ (fun _ _ _ => ?_)
    | split

theorem State.synRetry_keeps (s : State) (k : Nat) : Keeps 2542637809665 s (State.synRetry s k) := by
  unfold State.synRetry
  try dsimp only
  repeat' first
    | exact (rfl : (_ : Bool) = _)
    | with_reducible first
      | exact Keeps.refl ..
      | refine Keeps.ite (fun _ => ?_) (fun _ => ?_)
      | apply Keeps.step (State.irq_keeps ..)
      | apply Keeps.step (State.raise_keeps ..)
      | apply Keeps.step (State.count_keeps ..)
      | apply Keeps.step (State.synEnter_keeps ..)
    | split

theorem State.tickBases_keeps (s : State) : Keeps 8192 s (State.tickBases s) := by
  unfold State.tickBases
  try dsimp only
  repeat' first
    | exact (rfl : (_ : Bool) = _)
    | exact Shape.lenOf (fun h => by first | (simp only [listMod_length, List.length_map, List.length_mapIdx, List.length_set, List.length_range, List.length_replicate, h.all, mapWf_nil, and_self]; done) | (simp [h.all, mapSet_wf]; done) | (split <;> simp [h.all] <;> done) | (constructor <;> split <;> simp [h.all] <;> done))
    | with_reducible first
      | exact Keeps.refl ..
      | refine Keeps.ite (fun _ => ?_) (fun _ => ?_)
    | split
    | with_reducible apply Keeps.step (Keeps.with_spn _ _ ?_)

theorem State.trainOwn_keeps (s : State) (m : Nat) (answered : Bool) (own : Option TrainOwn) : Keeps 2199023779840 s (State.trainOwn s m answered own) := by
  unfold State.trainOwn
  try dsimp only
  repeat' first
    | exact (rfl : (_ : Bool) = _)
    | with_reducible first
      | exact Keeps.refl ..
      | assumption
      | refine Keeps.ite (fun _ => ?_) (fun _ => ?_)
      | apply Keeps.step (State.modLane_keeps ..)
      | apply Keeps.step (State.emit_keeps ..)
    | split

theorem State.txBad_keeps (s : State) (p : Nat) (i : Nat) (f : TxFrame) : Keeps 21234385420289 s (State.txBad s p i f) := by
  unfold State.txBad
  try dsimp only
  repeat' first
    | exact (rfl : (_ : Bool) = _)
    | with_reducible first
      | exact Keeps.refl ..
      | apply Keeps.step (State.irq_keeps ..)
      | apply Keeps.step (State.raise_keeps ..)
      | apply Keeps.step (State.txDrop_keeps ..)

theorem State.txBegin_keeps (s : State) (p : Fin 16) (src : Nat) (ts : Nat) (fec : Int) (f : TxFrame) : Keeps 549823021056 s (State.txBegin s p src ts fec f) := by
  unfold State.txBegin
  try dsimp only
  repeat' first
    | exact (rfl : (_ : Bool) = _)
    | with_reducible first
      | exact Keeps.refl ..
      | assumption
      | refine Keeps.ite (fun _ => ?_) (fun _ => ?_)
      | apply Keeps.step (State.modPort_keeps ..)
      | apply Keeps.step (State.tallyAdd_keeps ..)
      | apply Keeps.step (State.modUnit_keeps ..)
    | split

theorem State.txCounts_keeps (s : State) (p : Nat) (src : Nat) (n : Nat) (f : TxFrame) : Keeps 549755813889 s (State.txCounts s p src n f) := by
  unfold State.txCounts
  try dsimp only
  repeat' first
    | exact (rfl : (_ : Bool) = _)
    | with_reducible first
      | exact Keeps.refl ..
      | assumption
      | refine Keeps.ite (fun _ => ?_) (fun _ => ?_)
      | apply Keeps.step (State.tallyAdd_keeps ..)
      | apply Keeps.step (State.flightOut_keeps ..)
      | apply Keeps.step (State.macCount_keeps ..)
      | apply Keeps.step (State.pktCount_keeps ..)
    | split

theorem State.txFetch_keeps (s : State) (p : Nat) (descs : List (Option (List Byte))) (bufs : List (Option (List Byte))) : Keeps 21784141234177 s (State.txFetch s p descs bufs) := by
  unfold State.txFetch
  try dsimp only
  repeat' first
    | exact (rfl : (_ : Bool) = _)
    | with_reducible first
      | exact Keeps.refl ..
      | assumption
      | refine Keeps.ite (fun _ => ?_) (fun _ => ?_)
      | apply Keeps.step (State.tallyAdd_keeps ..)
      | apply Keeps.step (State.setF_keeps ..)
      | apply Keeps.step (State.txBad_keeps ..)
      | apply Keeps.step (State.hostReadReq_keeps ..)
      | apply Keeps.step (State.txFetchErr_keeps ..)
      | apply Keeps.step (State.txLaunch_keeps ..)
    | split

theorem State.txRecords_keeps (s : State) (p : Nat) (f : TxFrame) (ts : Option Nat) (st : Stamp) : Keeps 21784275451905 s (State.txRecords s p f ts st) := by
  unfold State.txRecords
  try dsimp only
  repeat' first
    | exact (rfl : (_ : Bool) = _)
    | with_reducible first
      | exact Keeps.refl ..
      | assumption
      | refine Keeps.ite (fun _ => ?_) (fun _ => ?_)
      | apply Keeps.step (State.cliSent_keeps ..)
      | apply Keeps.step (State.followUp_keeps ..)
      | apply Keeps.step (State.slotHist_keeps ..)
    | split

theorem State.unitResult_keeps (s : State) (u : TiuId) : Keeps 4194305 s (State.unitResult s u) := by
  unfold State.unitResult
  try dsimp only
  repeat' first
    | exact (rfl : (_ : Bool) = _)
    | with_reducible first
      | exact Keeps.refl ..
      | assumption
      | refine Keeps.ite (fun _ => ?_) (fun _ => ?_)
      | apply Keeps.step (State.monReset_keeps ..)
      | apply Keeps.step (State.monResult_keeps ..)
      | refine Keeps.foldl _ _ ?_ (fun _ _ _ => ?_)
    | split

theorem State.withFetchWord_keeps (s : State) (nbits w : Nat) : Keeps 0 s (State.withFetchWord s nbits w) := Keeps.refl _ _

theorem spineTick_keeps (s : State) : Keeps 8240 s (spineTick s) := by
  unfold spineTick
  try dsimp only
  repeat' first
    | exact (rfl : (_ : Bool) = _)
    | with_reducible first
      | exact Keeps.refl ..
      | assumption
      | apply Keeps.step (State.tickBases_keeps ..)
      | apply Keeps.step (State.captureEnd_keeps ..)
      | apply Keeps.step (State.captureTick_keeps ..)
      | apply Keeps.step (State.endLeapSec_keeps ..)
      | refine Keeps.foldl _ _ ?_ (fun _ _ _ => ?_)

end Sys2Proof.Machine
end

