-- ==== Sys2Proof/Laws/Access.lean ====
section
/-! SUPPORT. Host accesses that are served at once: what `reach` and `readBy` come to. -/
namespace Sys2Proof.Machine

/-- A served host write: counted, then done. -/
theorem State.reach_serves (s : State) (i : Itf) (a : Nat) (v : Word) (g : State → State) (h : s.serves i a = true) :
    s.reach i a v g = g (s.regTally i true) := by
  simp only [State.serves, Bool.and_eq_true, Bool.not_eq_true'] at h
  obtain ⟨⟨⟨⟨⟨ho, hr⟩, hf⟩, hb⟩, hm⟩, ha⟩ := h
  exact State.reach_served s i a v g ho hr hf hb hm ha

/-- A served host read: counted, then answered with the word that the register shows. -/
theorem State.readBy_reads (s : State) (i : Itf) (a : Nat) (errs : Option Nat) (h : s.reads i a = true) :
    s.readBy i a errs = ((s.regTally i false).readReg i a errs).2.answer i a ((s.regTally i false).readReg i a errs).1 := by
  simp only [State.reads, Bool.and_eq_true, Bool.not_eq_true'] at h
  obtain ⟨⟨⟨⟨⟨⟨ho, hr⟩, hg⟩, hb⟩, hm⟩, ha⟩, hs⟩ := h
  have e1 : (s.regTally i false).behind i a false = s.behind i a false := s.regTally_behind i i false a false
  have e2 : (s.regTally i false).ramping a = s.ramping a := by cases i <;> rfl
  have e3 : (s.regTally i false).absent a = s.absent a := State.absent_congr (s.regTally_regs i false) a
  have e4 : (s.regTally i false).snapOf i = s.snapOf i := by cases i <;> rfl
  have hn : ¬ ((!s.running) = true ∧ Blk.ofOff a ≠ some .cfg) := by
    simp only [Bool.or_eq_true, decide_eq_true_eq] at hr
    rcases hr with h | h <;> simp [h]
  have hg : (findReg a).isNone = false := by cases hq : findReg a <;> simp_all
  have hs : ¬ (0x01000100 ≤ a ∧ a < 0x01000200 ∧ (s.snapOf i).isSome = true) := by
    rintro ⟨h1, h2, h3⟩; simp [h1, h2, h3] at hs
  unfold State.readBy State.readAt
  simp only [ho, if_neg hn, hg, e1, e2, e3, e4, hb, hm, ha, Bool.not_true, Bool.false_eq_true, if_false, if_neg hs]

@[simp] theorem State.regTally_rd (s : State) (i : Itf) (w : Bool) (a : Nat) : (s.regTally i w).rd a = s.rd a := by
  unfold State.rd; rw [State.regTally_regs]

@[simp] theorem State.regTally_regsWf (s : State) (i : Itf) (w : Bool) (h : s.regsWf) : (s.regTally i w).regsWf := by
  unfold State.regsWf; rw [State.regTally_regs]; exact h

/-- The canonical form of a state gives that of its registers. -/
theorem State.wf_regs {s : State} (h : s.wf = true) : s.regsWf := by
  simp only [State.wf, Bool.and_eq_true] at h; exact h.1.1.1.1.1.1.1

/-- A word put where a register was reads back. -/
theorem State.wr_only (s : State) (o : Nat) (v : Word) : OnlyRegs [o] s (s.wr o v) := by
  intro a ha; exact s.rd_wr_ne o a v (by simpa [eq_comm] using ha)

theorem OnlyRegs.refl (l : List Nat) (s : State) : OnlyRegs l s s := fun _ _ => rfl

theorem OnlyRegs.trans {l : List Nat} {s t u : State} (h : OnlyRegs l s t) (k : OnlyRegs l t u) : OnlyRegs l s u :=
  fun a ha => (k a ha).trans (h a ha)

theorem OnlyRegs.mono {l k : List Nat} {s t : State} (h : OnlyRegs l s t) (hk : ∀ a, a ∈ l → a ∈ k) : OnlyRegs k s t :=
  fun a ha => h a (fun x => ha (hk a x))

/-- Registers that are the same file. -/
theorem OnlyRegs.of_regs {l : List Nat} {s t u : State} (h : OnlyRegs l s t) (e : u.regs = t.regs) : OnlyRegs l s u := by
  intro a ha
  have : u.rd a = t.rd a := by unfold State.rd; rw [e]
  rw [this, h a ha]

/-- One more register written. -/
theorem OnlyRegs.wr {l : List Nat} {s t : State} (h : OnlyRegs l s t) (o : Nat) (v : Word) (ho : o ∈ l) : OnlyRegs l s (t.wr o v) :=
  fun a ha => (t.rd_wr_ne o a v (fun e => ha (e ▸ ho))).trans (h a ha)

/-- An interrupt changes its block's IRQ_STAT only. -/
theorem OnlyRegs.irq {l : List Nat} {s t : State} (h : OnlyRegs l s t) (b : Blk) (i : Nat) (ho : b.irqOff ∈ l) : OnlyRegs l s (t.irq b i) :=
  fun a ha => (t.irq_rd_ne b i a (fun e => ha (e ▸ ho))).trans (h a ha)

end Sys2Proof.Machine
end

