-- ==== Sys2Proof/Laws/KeepsExec.lean ====
section
/-! SUPPORT. What the meaning of each command can change (its mask of parts, `Part.idx`), and that it keeps the canonical form and the shape:
one lemma for each command, from the lemmas of the operations it rests on. -/
set_option linter.unusedSimpArgs false
namespace Sys2Proof.Machine

theorem execAbsentAccess_keeps (i : Itf) (off : Nat) (write : Option Word) (s : State) : OutKeeps 131941395333119 s (execAbsentAccess i off write s) := by
  unfold execAbsentAccess
  try dsimp only
  repeat' first
    | exact (rfl : (_ : Bool) = _)
    | with_reducible first
      | exact Keeps.refl ..
      | refine OutKeeps.next ?_
      | apply Keeps.step (State.hostAccess_keeps ..)

theorem execAidDone_keeps (s : State) : OutKeeps 26199623475201 s (execAidDone s) := by
  unfold execAidDone
  try dsimp only
  repeat' first
    | exact (rfl : (_ : Bool) = _)
    | with_reducible first
      | exact Keeps.refl ..
      | assumption
      | refine OutKeeps.next ?_
      | refine OutKeeps.ite (fun _ => ?_) (fun _ => ?_)
      | refine Keeps.ite (fun _ => ?_) (fun _ => ?_)
      | apply Keeps.step (State.eccNote_keeps ..)
      | apply Keeps.step (State.granRead_keeps ..)
      | apply Keeps.step (Keeps.ofSnd ‹_› (State.granRead_keeps ..))
      | apply Keeps.step (State.irq_keeps ..)
      | apply Keeps.step (State.aidRun_keeps ..)
      | apply Keeps.step (Keeps.ofFst ‹_› (State.aidRun_keeps ..))
      | apply Keeps.step (State.gnsEvent_keeps ..)
      | apply Keeps.step (State.wrN_keeps ..)
      | apply Keeps.step (State.mtxErr_keeps ..)
      | apply Keeps.step (State.raise_keeps ..)
      | refine Keeps.foldl _ _ ?_ (fun _ _ _ => ?_)
    | split

theorem execAidGo_keeps (i : Itf) (v : Word) (s : State) : OutKeeps 3093450198017 s (execAidGo i v s) := by
  unfold execAidGo
  try dsimp only
  repeat' first
    | exact (rfl : (_ : Bool) = _)
    | with_reducible first
      | exact Keeps.refl ..
      | assumption
      | refine OutKeeps.next ?_
      | apply Keeps.step (State.wAidCtl_keeps ..)
      | refine Keeps.reach (fun _ _ => ?_) ?_ ?_

theorem execAidedFirstTimeout_keeps (s : State) : OutKeeps 33554432 s (execAidedFirstTimeout s) := by
  unfold execAidedFirstTimeout
  try dsimp only
  repeat' first
    | exact (rfl : (_ : Bool) = _)
    | with_reducible first
      | exact Keeps.refl ..
      | refine OutKeeps.next ?_
      | refine OutKeeps.ite (fun _ => ?_) (fun _ => ?_)
      | refine Keeps.ite (fun _ => ?_) (fun _ => ?_)
      | apply Keeps.step (State.modGns_keeps ..)
    | split

theorem execAlignmentLockLoss_keeps (p : Fin 16) (s : State) : OutKeeps 26199791247361 s (execAlignmentLockLoss p s) := by
  unfold execAlignmentLockLoss
  try dsimp only
  repeat' first
    | exact (rfl : (_ : Bool) = _)
    | with_reducible first
      | exact Keeps.refl ..
      | refine OutKeeps.next ?_
      | refine OutKeeps.ite (fun _ => ?_) (fun _ => ?_)
      | refine Keeps.ite (fun _ => ?_) (fun _ => ?_)
      | apply Keeps.step (State.portTo_keeps ..)
      | apply Keeps.step (State.portEval_keeps ..)
    | split

theorem execAnnounceEmit_keeps (st : Stream) (s : State) : OutKeeps 21784543887361 s (execAnnounceEmit st s) := by
  unfold execAnnounceEmit
  try dsimp only
  repeat' first
    | exact (rfl : (_ : Bool) = _)
    | with_reducible first
      | exact Keeps.refl ..
      | assumption
      | refine OutKeeps.next ?_
      | refine OutKeeps.ite (fun _ => ?_) (fun _ => ?_)
      | refine Keeps.ite (fun _ => ?_) (fun _ => ?_)
      | apply Keeps.step (State.meetStream_keeps ..)
      | apply Keeps.step (State.announceBuild_keeps ..)
      | apply Keeps.step (State.buildLater_keeps ..)
      | apply Keeps.step (State.streamAuth_keeps ..)
      | apply Keeps.step (Keeps.ofSnd ‹_› (State.streamAuth_keeps ..))
      | apply Keeps.step (State.placeDone_keeps ..)
    | split

theorem execAtomicOp_keeps (target : Option Word) (wide : Bool) (op : AtomicKind) (a : BitVec 64) (b : BitVec 64) (s : State) : OutKeeps 21784476778689 s (execAtomicOp target wide op a b s) := by
  unfold execAtomicOp
  try dsimp only
  repeat' first
    | exact (rfl : (_ : Bool) = _)
    | with_reducible first
      | exact Keeps.refl ..
      | assumption
      | refine OutKeeps.next ?_
      | refine OutKeeps.ite (fun _ => ?_) (fun _ => ?_)
      | refine Keeps.ite (fun _ => ?_) (fun _ => ?_)
      | apply Keeps.step (State.tallyAdd_keeps ..)
      | apply Keeps.step (State.complete_keeps ..)
      | apply Keeps.step (State.mwrite_keeps ..)
      | apply Keeps.step (State.mtxErr_keeps ..)
      | apply Keeps.step (State.meet_keeps ..)
      | refine Keeps.foldl _ _ ?_ (fun _ _ _ => ?_)
    | split

theorem execAttest_keeps (i : Itf) (slot : BitVec 6) (s : State) : OutKeeps 26235226401793 s (execAttest i slot s) := by
  unfold execAttest
  try dsimp only
  repeat' first
    | exact (rfl : (_ : Bool) = _)
    | with_reducible first
      | exact Keeps.refl ..
      | assumption
      | refine OutKeeps.next ?_
      | apply Keeps.step (State.keyRun_keeps ..)
      | refine Keeps.reach (fun _ _ => ?_) ?_ ?_

theorem execBadAccess_keeps (bar4 : Bool) (addr : Nat) (write : Bool) (s : State) : OutKeeps 2542620639425 s (execBadAccess bar4 addr write s) := by
  unfold execBadAccess
  try dsimp only
  repeat' first
    | exact (rfl : (_ : Bool) = _)
    | with_reducible first
      | exact Keeps.refl ..
      | refine OutKeeps.next ?_
      | refine OutKeeps.ite (fun _ => ?_) (fun _ => ?_)
      | refine Keeps.ite (fun _ => ?_) (fun _ => ?_)
      | apply Keeps.step (State.complete_keeps ..)
      | apply Keeps.step (State.mtxErr_keeps ..)
    | split

theorem execBar2Write_keeps (addr : Word) (bytes : List Byte) (s : State) : OutKeeps 21784342563841 s (execBar2Write addr bytes s) := by
  unfold execBar2Write
  try dsimp only
  repeat' first
    | exact (rfl : (_ : Bool) = _)
    | with_reducible first
      | exact Keeps.refl ..
      | refine OutKeeps.next ?_
      | refine OutKeeps.ite (fun _ => ?_) (fun _ => ?_)
      | refine Keeps.ite (fun _ => ?_) (fun _ => ?_)
      | apply Keeps.step (State.wBar2_keeps ..)
      | apply Keeps.step (State.hold_keeps ..)
    | split

theorem execBoundEval10ms_keeps (n : Fin 8) (s : State) : OutKeeps 8607403868161 s (execBoundEval10ms n s) := by
  unfold execBoundEval10ms
  try dsimp only
  repeat' first
    | exact (rfl : (_ : Bool) = _)
    | with_reducible first
      | exact Keeps.refl ..
      | refine OutKeeps.next ?_
      | refine OutKeeps.ite (fun _ => ?_) (fun _ => ?_)
      | refine Keeps.ite (fun _ => ?_) (fun _ => ?_)
      | apply Keeps.step (State.boundEval_keeps ..)
    | split

theorem execBrownOut_keeps (s : State) : OutKeeps 129742372077567 s (execBrownOut s) := by
  unfold execBrownOut
  try dsimp only
  repeat' first
    | exact (rfl : (_ : Bool) = _)
    | with_reducible first
      | exact Keeps.refl ..
      | refine OutKeeps.next ?_
      | apply Keeps.step (State.powerReset_keeps ..)

theorem execBurnDone_keeps (s : State) : OutKeeps 2576980377601 s (execBurnDone s) := by
  unfold execBurnDone
  try dsimp only
  repeat' first
    | exact (rfl : (_ : Bool) = _)
    | exact Shape.lenOf (fun h => by first | (simp only [listMod_length, List.length_map, List.length_mapIdx, List.length_set, List.length_range, List.length_replicate, h.all, mapWf_nil, and_self]; done) | (simp [h.all, mapSet_wf]; done) | (split <;> simp [h.all] <;> done) | (constructor <;> split <;> simp [h.all] <;> done))
    | with_reducible first
      | exact Keeps.refl ..
      | assumption
      | refine OutKeeps.next ?_
      | refine OutKeeps.ite (fun _ => ?_) (fun _ => ?_)
      | refine Keeps.ite (fun _ => ?_) (fun _ => ?_)
      | apply Keeps.step (State.setB_keeps ..)
      | apply Keeps.step (State.irq_keeps ..)
      | apply Keeps.step (State.setBurnPending_keeps ..)
      | apply Keeps.step (State.raise_keeps ..)
      | apply Keeps.step (State.modKeys_keeps _ _ ?_)
    | split

theorem execBurnIncomplete_keeps (s : State) : OutKeeps 2576980377601 s (execBurnIncomplete s) := by
  unfold execBurnIncomplete
  try dsimp only
  repeat' first
    | exact (rfl : (_ : Bool) = _)
    | exact Shape.lenOf (fun h => by first | (simp only [listMod_length, List.length_map, List.length_mapIdx, List.length_set, List.length_range, List.length_replicate, h.all, mapWf_nil, and_self]; done) | (simp [h.all, mapSet_wf]; done) | (split <;> simp [h.all] <;> done) | (constructor <;> split <;> simp [h.all] <;> done))
    | with_reducible first
      | exact Keeps.refl ..
      | refine OutKeeps.next ?_
      | refine OutKeeps.ite (fun _ => ?_) (fun _ => ?_)
      | refine Keeps.ite (fun _ => ?_) (fun _ => ?_)
      | apply Keeps.step (State.irq_keeps ..)
      | apply Keeps.step (State.raise_keeps ..)
      | apply Keeps.step (State.modKeys_keeps _ _ ?_)
    | split

theorem execCandidateSourceReport_keeps (c : Fin 30) (s : State) : OutKeeps 8607403876353 s (execCandidateSourceReport c s) := by
  unfold execCandidateSourceReport
  try dsimp only
  repeat' first
    | exact (rfl : (_ : Bool) = _)
    | with_reducible first
      | exact Keeps.refl ..
      | refine OutKeeps.next ?_
      | apply Keeps.step (State.candRound_keeps ..)

theorem execCarrierNamed_keeps (m : Fin 4) (s : State) : OutKeeps 8607403876353 s (execCarrierNamed m s) := by
  unfold execCarrierNamed
  try dsimp only
  repeat' first
    | exact (rfl : (_ : Bool) = _)
    | with_reducible first
      | exact Keeps.refl ..
      | refine OutKeeps.next ?_
      | refine OutKeeps.ite (fun _ => ?_) (fun _ => ?_)
      | refine Keeps.ite (fun _ => ?_) (fun _ => ?_)
      | apply Keeps.step (State.name_keeps ..)
      | apply Keeps.step (State.carrierEval_keeps ..)
    | split

theorem execCarrierRampEnd_keeps (s : State) : OutKeeps 8607403876353 s (execCarrierRampEnd s) := by
  unfold execCarrierRampEnd
  try dsimp only
  repeat' first
    | exact (rfl : (_ : Bool) = _)
    | exact Shape.lenOf (fun h => by first | (simp only [listMod_length, List.length_map, List.length_mapIdx, List.length_set, List.length_range, List.length_replicate, h.all, mapWf_nil, and_self]; done) | (simp [h.all, mapSet_wf]; done) | (split <;> simp [h.all] <;> done) | (constructor <;> split <;> simp [h.all] <;> done))
    | with_reducible first
      | exact Keeps.refl ..
      | assumption
      | refine OutKeeps.next ?_
      | refine OutKeeps.ite (fun _ => ?_) (fun _ => ?_)
      | refine Keeps.ite (fun _ => ?_) (fun _ => ?_)
      | apply Keeps.step (State.setB_keeps ..)
      | apply Keeps.step (State.setF_keeps ..)
      | apply Keeps.step (State.carrierEval_keeps ..)
      | apply Keeps.step (State.count_keeps ..)
      | apply Keeps.step (State.modSpn_keeps _ _ ?_)
      | apply Keeps.step (State.forcedBit_keeps ..)
    | split

theorem execChannelDrop_keeps (x : Signal) (s : State) : OutKeeps 33554432 s (execChannelDrop x s) := by
  unfold execChannelDrop
  try dsimp only
  repeat' first
    | exact (rfl : (_ : Bool) = _)
    | with_reducible first
      | exact Keeps.refl ..
      | refine OutKeeps.next ?_
      | refine OutKeeps.ite (fun _ => ?_) (fun _ => ?_)
      | refine Keeps.ite (fun _ => ?_) (fun _ => ?_)
      | apply Keeps.step (State.modGns_keeps ..)
    | split

theorem execClaimBoundary_keeps (s : State) : OutKeeps 8607403876353 s (execClaimBoundary s) := by
  unfold execClaimBoundary
  try dsimp only
  repeat' first
    | exact (rfl : (_ : Bool) = _)
    | with_reducible first
      | exact Keeps.refl ..
      | assumption
      | refine OutKeeps.next ?_
      | refine OutKeeps.ite (fun _ => ?_) (fun _ => ?_)
      | refine Keeps.ite (fun _ => ?_) (fun _ => ?_)
      | apply Keeps.step (State.setRole_keeps ..)
      | apply Keeps.step (State.wrN_keeps ..)
      | apply Keeps.step (State.modTnd_keeps ..)
    | split

theorem execClaimFrameReceive_keeps (bytes : List Byte) (s : State) : OutKeeps 68736253953 s (execClaimFrameReceive bytes s) := by
  unfold execClaimFrameReceive
  try dsimp only
  repeat' first
    | exact (rfl : (_ : Bool) = _)
    | with_reducible first
      | exact Keeps.refl ..
      | refine OutKeeps.next ?_
      | refine OutKeeps.ite (fun _ => ?_) (fun _ => ?_)
      | refine Keeps.ite (fun _ => ?_) (fun _ => ?_)
      | apply Keeps.step (State.countSat_keeps ..)
      | apply Keeps.step (State.claimGood_keeps ..)
      | apply Keeps.step (State.modTnd_keeps ..)
    | split

theorem execClaimFrameSend_keeps (s : State) : OutKeeps 2542637416449 s (execClaimFrameSend s) := by
  unfold execClaimFrameSend
  try dsimp only
  repeat' first
    | exact (rfl : (_ : Bool) = _)
    | with_reducible first
      | exact Keeps.refl ..
      | refine OutKeeps.next ?_
      | refine OutKeeps.ite (fun _ => ?_) (fun _ => ?_)
      | refine Keeps.ite (fun _ => ?_) (fun _ => ?_)
      | apply Keeps.step (State.setB_keeps ..)
      | apply Keeps.step (State.deafEval_keeps ..)
      | apply Keeps.step (State.healthFall_keeps ..)
      | apply Keeps.step (State.modTnd_keeps ..)
      | apply Keeps.step (State.emit_keeps ..)
    | split

theorem execClaimHoldoffEnd_keeps (s : State) : OutKeeps 16777216 s (execClaimHoldoffEnd s) := by
  unfold execClaimHoldoffEnd
  try dsimp only
  repeat' first
    | exact (rfl : (_ : Bool) = _)
    | with_reducible first
      | exact Keeps.refl ..
      | refine OutKeeps.next ?_
      | refine OutKeeps.ite (fun _ => ?_) (fun _ => ?_)
      | refine Keeps.ite (fun _ => ?_) (fun _ => ?_)
      | apply Keeps.step (State.modTnd_keeps ..)
    | split

theorem execClassify_keeps (p : Fin 16) (launch : Nat) (errs : List EccHit) (s : State) : OutKeeps 26199799635969 s (execClassify p launch errs s) := by
  unfold execClassify
  try dsimp only
  repeat' first
    | exact (rfl : (_ : Bool) = _)
    | with_reducible first
      | exact Keeps.refl ..
      | assumption
      | refine OutKeeps.next ?_
      | refine OutKeeps.ite (fun _ => ?_) (fun _ => ?_)
      | refine Keeps.ite (fun _ => ?_) (fun _ => ?_)
      | apply Keeps.step (State.modPort_keeps ..)
      | apply Keeps.step (State.classifyFrame_keeps ..)
      | apply Keeps.step (State.toHost_keeps ..)
      | apply Keeps.step (State.dramFail_keeps ..)
      | apply Keeps.step (State.serveDue_keeps ..)
    | split

theorem execClientLost_keeps (k : Fin 4) (cause : LostCause) (s : State) : OutKeeps 26199791247361 s (execClientLost k cause s) := by
  unfold execClientLost
  try dsimp only
  repeat' first
    | exact (rfl : (_ : Bool) = _)
    | with_reducible first
      | exact Keeps.refl ..
      | assumption
      | refine OutKeeps.next ?_
      | refine OutKeeps.ite (fun _ => ?_) (fun _ => ?_)
      | refine Keeps.ite (fun _ => ?_) (fun _ => ?_)
      | apply Keeps.step (State.cliLose_keeps ..)
    | split

theorem execClientRenew_keeps (k : Fin 4) (grant : Fin 3) (s : State) : OutKeeps 21784275451905 s (execClientRenew k grant s) := by
  unfold execClientRenew
  try dsimp only
  repeat' first
    | exact (rfl : (_ : Bool) = _)
    | with_reducible first
      | exact Keeps.refl ..
      | refine OutKeeps.next ?_
      | refine OutKeeps.ite (fun _ => ?_) (fun _ => ?_)
      | refine Keeps.ite (fun _ => ?_) (fun _ => ?_)
      | apply Keeps.step (State.cliSignal_keeps ..)
    | split

theorem execClientRequest_keeps (k : Fin 4) (s : State) : OutKeeps 26199791247361 s (execClientRequest k s) := by
  unfold execClientRequest
  try dsimp only
  repeat' first
    | exact (rfl : (_ : Bool) = _)
    | with_reducible first
      | exact Keeps.refl ..
      | refine OutKeeps.next ?_
      | refine OutKeeps.ite (fun _ => ?_) (fun _ => ?_)
      | refine Keeps.ite (fun _ => ?_) (fun _ => ?_)
      | apply Keeps.step (State.cliRequest_keeps ..)
      | apply Keeps.step (State.setCli_keeps ..)
    | split

theorem execClientRequestRetry_keeps (k : Fin 4) (s : State) : OutKeeps 68853694465 s (execClientRequestRetry k s) := by
  unfold execClientRequestRetry
  try dsimp only
  repeat' first
    | exact (rfl : (_ : Bool) = _)
    | with_reducible first
      | exact Keeps.refl ..
      | refine OutKeeps.next ?_
      | refine OutKeeps.ite (fun _ => ?_) (fun _ => ?_)
      | refine Keeps.ite (fun _ => ?_) (fun _ => ?_)
      | apply Keeps.step (State.cliDenied_keeps ..)
    | split

theorem execClientWaitTimeout_keeps (k : Fin 4) (s : State) : OutKeeps 26199791247361 s (execClientWaitTimeout k s) := by
  unfold execClientWaitTimeout
  try dsimp only
  repeat' first
    | exact (rfl : (_ : Bool) = _)
    | with_reducible first
      | exact Keeps.refl ..
      | refine OutKeeps.next ?_
      | refine OutKeeps.ite (fun _ => ?_) (fun _ => ?_)
      | refine Keeps.ite (fun _ => ?_) (fun _ => ?_)
      | apply Keeps.step (State.cliRequest_keeps ..)
    | split

theorem execClkLost_keeps (k : Fin 2) (s : State) : OutKeeps 68753031169 s (execClkLost k s) := by
  unfold execClkLost
  try dsimp only
  repeat' first
    | exact (rfl : (_ : Bool) = _)
    | with_reducible first
      | exact Keeps.refl ..
      | refine OutKeeps.next ?_
      | refine OutKeeps.ite (fun _ => ?_) (fun _ => ?_)
      | refine Keeps.ite (fun _ => ?_) (fun _ => ?_)
      | apply Keeps.step (State.setB_keeps ..)
      | apply Keeps.step (State.raise_keeps ..)
      | apply Keeps.step (State.dropFe_keeps ..)
    | split

theorem execClkRange_keeps (k : Fin 2) (err : Word) (s : State) : OutKeeps 68753031169 s (execClkRange k err s) := by
  unfold execClkRange
  try dsimp only
  repeat' first
    | exact (rfl : (_ : Bool) = _)
    | with_reducible first
      | exact Keeps.refl ..
      | refine OutKeeps.next ?_
      | apply Keeps.step (State.feClock_keeps ..)

theorem execCoefficientUpdate_keeps (m : Fin 18) (req : CoefReq) (answered : Bool) (own : Option TrainOwn) (s : State) : OutKeeps 2199023779841 s (execCoefficientUpdate m req answered own s) := by
  unfold execCoefficientUpdate
  try dsimp only
  repeat' first
    | exact (rfl : (_ : Bool) = _)
    | with_reducible first
      | exact Keeps.refl ..
      | assumption
      | refine OutKeeps.next ?_
      | refine OutKeeps.ite (fun _ => ?_) (fun _ => ?_)
      | refine Keeps.ite (fun _ => ?_) (fun _ => ?_)
      | apply Keeps.step (State.setF_keeps ..)
      | apply Keeps.step (State.trainOwn_keeps ..)
      | apply Keeps.step (State.emit_keeps ..)
      | refine Keeps.foldl _ _ ?_ (fun _ _ _ => ?_)
    | split

theorem execCommitCheck_keeps (ch : Chan) (s : State) : OutKeeps 131941395333119 s (execCommitCheck ch s) := by
  unfold execCommitCheck
  try dsimp only
  repeat' first
    | exact (rfl : (_ : Bool) = _)
    | with_reducible first
      | exact Keeps.refl ..
      | assumption
      | refine OutKeeps.next ?_
      | apply Keeps.step (State.modChan_keeps ..)
      | apply Keeps.step (State.commitRefused_keeps ..)
      | apply Keeps.step (State.settle_keeps ..)
      | apply Keeps.step (State.arm_keeps ..)
      | apply Keeps.step (State.commitLast_keeps ..)
      | apply Keeps.step (State.release_keeps ..)
      | refine Keeps.foldl _ _ ?_ (fun _ _ _ => ?_)
    | split

theorem execCommitLive_keeps (ch : Chan) (s : State) : OutKeeps 8607474626567 s (execCommitLive ch s) := by
  unfold execCommitLive
  try dsimp only
  repeat' first
    | exact (rfl : (_ : Bool) = _)
    | with_reducible first
      | exact Keeps.refl ..
      | assumption
      | refine OutKeeps.next ?_
      | refine OutKeeps.ite (fun _ => ?_) (fun _ => ?_)
      | refine Keeps.ite (fun _ => ?_) (fun _ => ?_)
      | apply Keeps.step (State.liveArmed_keeps ..)
    | split

theorem execCommitWrite_keeps (i : Itf) (ch : Chan) (v : Word) (s : State) : OutKeeps 3093450202113 s (execCommitWrite i ch v s) := by
  unfold execCommitWrite
  try dsimp only
  repeat' first
    | exact (rfl : (_ : Bool) = _)
    | with_reducible first
      | exact Keeps.refl ..
      | assumption
      | refine OutKeeps.next ?_
      | apply Keeps.step (State.wCommit_keeps ..)
      | refine Keeps.reach (fun _ _ => ?_) ?_ ?_

theorem execCompletionTimeout_keeps (r : HostReq) (s : State) : OutKeeps 72911431925761 s (execCompletionTimeout r s) := by
  unfold execCompletionTimeout
  try dsimp only
  repeat' first
    | exact (rfl : (_ : Bool) = _)
    | with_reducible first
      | exact Keeps.refl ..
      | refine OutKeeps.next ?_
      | refine OutKeeps.ite (fun _ => ?_) (fun _ => ?_)
      | refine Keeps.ite (fun _ => ?_) (fun _ => ?_)
      | apply Keeps.step (State.aerLog_keeps ..)
      | apply Keeps.step (State.noCompletion_keeps ..)
    | split

theorem execCoreDeparture_keeps (s : State) : OutKeeps 34359738368 s (execCoreDeparture s) := by
  unfold execCoreDeparture
  try dsimp only
  repeat' first
    | exact (rfl : (_ : Bool) = _)
    | exact Shape.lenOf (fun h => by first | (simp only [listMod_length, List.length_map, List.length_mapIdx, List.length_set, List.length_range, List.length_replicate, h.all, mapWf_nil, and_self]; done) | (simp [h.all, mapSet_wf]; done) | (split <;> simp [h.all] <;> done) | (constructor <;> split <;> simp [h.all] <;> done))
    | with_reducible first
      | exact Keeps.refl ..
      | refine OutKeeps.next ?_
      | refine OutKeeps.ite (fun _ => ?_) (fun _ => ?_)
      | refine Keeps.ite (fun _ => ?_) (fun _ => ?_)
      | apply Keeps.step (State.modKeys_keeps _ _ ?_)
    | split

theorem execCoreDepartureDecided_keeps (glitch : Bool) (s : State) : OutKeeps 131941395333119 s (execCoreDepartureDecided glitch s) := by
  unfold execCoreDepartureDecided
  try dsimp only
  repeat' first
    | exact (rfl : (_ : Bool) = _)
    | exact Shape.lenOf (fun h => by first | (simp only [listMod_length, List.length_map, List.length_mapIdx, List.length_set, List.length_range, List.length_replicate, h.all, mapWf_nil, and_self]; done) | (simp [h.all, mapSet_wf]; done) | (split <;> simp [h.all] <;> done) | (constructor <;> split <;> simp [h.all] <;> done))
    | with_reducible first
      | exact Keeps.refl ..
      | refine OutKeeps.next ?_
      | refine OutKeeps.ite (fun _ => ?_) (fun _ => ?_)
      | refine Keeps.ite (fun _ => ?_) (fun _ => ?_)
      | apply Keeps.step (State.traceDrain_keeps ..)
      | apply Keeps.step (State.tamperHit_keeps ..)
      | apply Keeps.step (State.settle_keeps ..)
      | apply Keeps.step (State.powerReset_keeps ..)
      | apply Keeps.step (State.modKeys_keeps _ _ ?_)
    | split

theorem execCreate_keeps (i : Itf) (s : State) : OutKeeps 21785550523393 s (execCreate i s) := by
  unfold execCreate
  try dsimp only
  repeat' first
    | exact (rfl : (_ : Bool) = _)
    | with_reducible first
      | exact Keeps.refl ..
      | assumption
      | refine OutKeeps.next ?_
      | apply Keeps.step (State.cstCreate_keeps ..)
      | refine Keeps.reach (fun _ _ => ?_) ?_ ?_

theorem execDecodeMiss_keeps (i : Itf) (off : Nat) (write : Option Word) (s : State) : OutKeeps 131941395333119 s (execDecodeMiss i off write s) := by
  unfold execDecodeMiss
  try dsimp only
  repeat' first
    | exact (rfl : (_ : Bool) = _)
    | with_reducible first
      | exact Keeps.refl ..
      | refine OutKeeps.next ?_
      | apply Keeps.step (State.hostAccess_keeps ..)

theorem execDeskewDone_keeps (p : Fin 16) (k1 : Word) (k2 : Word) (k3 : Word) (s : State) : OutKeeps 2473968271361 s (execDeskewDone p k1 k2 k3 s) := by
  unfold execDeskewDone
  try dsimp only
  repeat' first
    | exact (rfl : (_ : Bool) = _)
    | with_reducible first
      | exact Keeps.refl ..
      | assumption
      | refine OutKeeps.next ?_
      | refine OutKeeps.ite (fun _ => ?_) (fun _ => ?_)
      | refine Keeps.ite (fun _ => ?_) (fun _ => ?_)
      | apply Keeps.step (State.modPort_keeps ..)
      | apply Keeps.step (State.setPortSt_keeps ..)
      | apply Keeps.step (State.wrN_keeps ..)
      | refine Keeps.foldl _ _ ?_ (fun _ _ _ => ?_)
    | split

theorem execDeskewFail_keeps (p : Fin 16) (s : State) : OutKeeps 68786585600 s (execDeskewFail p s) := by
  unfold execDeskewFail
  try dsimp only
  repeat' first
    | exact (rfl : (_ : Bool) = _)
    | with_reducible first
      | exact Keeps.refl ..
      | refine OutKeeps.next ?_
      | refine OutKeeps.ite (fun _ => ?_) (fun _ => ?_)
      | refine Keeps.ite (fun _ => ?_) (fun _ => ?_)
      | apply Keeps.step (State.modPort_keeps ..)
      | apply Keeps.step (State.raise_keeps ..)
    | split

theorem execDieTempSample_keeps (t : BitVec 16) (s : State) : OutKeeps 2543694479361 s (execDieTempSample t s) := by
  unfold execDieTempSample
  try dsimp only
  repeat' first
    | exact (rfl : (_ : Bool) = _)
    | with_reducible first
      | exact Keeps.refl ..
      | assumption
      | refine OutKeeps.next ?_
      | refine OutKeeps.ite (fun _ => ?_) (fun _ => ?_)
      | refine Keeps.ite (fun _ => ?_) (fun _ => ?_)
      | apply Keeps.step (State.setF_keeps ..)
      | apply Keeps.step (State.dieAlarm_keeps ..)
      | apply Keeps.step (State.calTrigger_keeps ..)
      | refine Keeps.foldl _ _ ?_ (fun _ _ _ => ?_)
    | split

theorem execDisarm_keeps (i : Itf) (loops : BitVec 4) (s : State) : OutKeeps 26235226401793 s (execDisarm i loops s) := by
  unfold execDisarm
  try dsimp only
  repeat' first
    | exact (rfl : (_ : Bool) = _)
    | with_reducible first
      | exact Keeps.refl ..
      | assumption
      | refine OutKeeps.next ?_
      | apply Keeps.step (State.keyRun_keeps ..)
      | refine Keeps.reach (fun _ _ => ?_) ?_ ?_

theorem execDividedEdge_keeps (x : EdgeSrc) (spacing : Nat) (s : State) : OutKeeps 8607405039617 s (execDividedEdge x spacing s) := by
  unfold execDividedEdge
  try dsimp only
  repeat' first
    | exact (rfl : (_ : Bool) = _)
    | with_reducible first
      | exact Keeps.refl ..
      | assumption
      | refine OutKeeps.next ?_
      | refine OutKeeps.ite (fun _ => ?_) (fun _ => ?_)
      | refine Keeps.ite (fun _ => ?_) (fun _ => ?_)
      | apply Keeps.step (State.modMonitor_keeps ..)
      | apply Keeps.step (State.clearSource_keeps ..)
      | apply Keeps.step (State.setGross_keeps ..)
      | apply Keeps.step (State.count_keeps ..)
    | split

theorem execDmaDescFetched_keeps (c : Fin 16) (desc : Option (List Byte)) (s : State) : OutKeeps 21786624262145 s (execDmaDescFetched c desc s) := by
  unfold execDmaDescFetched
  extract_lets cur
  clear_value cur
  refine OutKeeps.ite (fun _ => ?_) (fun _ => OutKeeps.next (Keeps.refl _ _))
  cases desc with
  | none => exact OutKeeps.next (Keeps.step (State.dmaErrAt_keeps _ _ _) rfl (Keeps.refl _ _))
  | some b =>
    refine OutKeeps.next ?_
    have q := State.dmaGet_keeps s cur 64 b
    revert q
    generalize s.dmaGet cur 64 b = r
    intro q
    obtain ⟨x, t⟩ := r
    have k : Keeps 21786624262145 s t := Keeps.step q rfl (Keeps.refl _ _)
    cases x with
    | inl x => exact Keeps.step (State.dmaBusErr_keeps _ _ _) rfl k
    | inr d =>
      have h : Keeps 21786624262145 s { t with dma := listMod t.dma c (fun _ => d) } :=
        Keeps.step (Keeps.with_dma t _ fun h => (listMod_length _ _ _).trans h.dma) rfl k
      exact Keeps.ite (fun _ => Keeps.step (State.setDma_keeps _ _ _) rfl h)
        (fun _ => Keeps.step (State.dmaBad_keeps _ _ _) rfl (Keeps.step (State.dmaStatus_keeps _ _ _ _) rfl h))

theorem execDmaDisable_keeps (i : Itf) (c : Fin 16) (s : State) : OutKeeps 7491496709121 s (execDmaDisable i c s) := by
  unfold execDmaDisable
  try dsimp only
  repeat' first
    | exact (rfl : (_ : Bool) = _)
    | with_reducible first
      | exact Keeps.refl ..
      | assumption
      | refine OutKeeps.next ?_
      | refine Keeps.reach (fun _ _ => ?_) ?_ ?_
      | apply Keeps.step (State.wDma_keeps ..)

theorem execDmaDoorbell_keeps (i : Itf) (c : Fin 16) (s : State) : OutKeeps 7491496709121 s (execDmaDoorbell i c s) := by
  unfold execDmaDoorbell
  try dsimp only
  repeat' first
    | exact (rfl : (_ : Bool) = _)
    | with_reducible first
      | exact Keeps.refl ..
      | assumption
      | refine OutKeeps.next ?_
      | refine Keeps.reach (fun _ _ => ?_) ?_ ?_
      | apply Keeps.step (State.wDma_keeps ..)

theorem execDmaEnable_keeps (i : Itf) (c : Fin 16) (s : State) : OutKeeps 7491496709121 s (execDmaEnable i c s) := by
  unfold execDmaEnable
  try dsimp only
  repeat' first
    | exact (rfl : (_ : Bool) = _)
    | with_reducible first
      | exact Keeps.refl ..
      | assumption
      | refine OutKeeps.next ?_
      | refine Keeps.reach (fun _ _ => ?_) ?_ ?_
      | apply Keeps.step (State.wDma_keeps ..)

theorem execDmaLinkRead_keeps (c : Fin 16) (next : Option (BitVec 64)) (s : State) : OutKeeps 21784476778497 s (execDmaLinkRead c next s) := by
  unfold execDmaLinkRead
  extract_lets o cur
  clear_value cur
  refine OutKeeps.ite (fun _ => OutKeeps.next (Keeps.refl _ _)) (fun _ => ?_)
  cases next with
  | none => exact OutKeeps.next (Keeps.step (State.dmaErrAt_keeps _ _ _) rfl (Keeps.refl _ _))
  | some x =>
    refine OutKeeps.next ?_
    have q := State.dmaGet_keeps s (cur + 40) 8 (leBytes 8 x.toNat)
    revert q
    generalize s.dmaGet (cur + 40) 8 (leBytes 8 x.toNat) = r
    intro q
    obtain ⟨y, t⟩ := r
    have k : Keeps 21784476778497 s t := Keeps.step q rfl (Keeps.refl _ _)
    cases y with
    | inl y => exact Keeps.step (State.dmaBusErr_keeps _ _ _) rfl k
    | inr b =>
      exact Keeps.ite (fun _ => Keeps.step (State.dmaBad_keeps _ _ _) rfl k)
        (fun _ => Keeps.ite (fun _ => Keeps.step (State.dmaBad_keeps _ _ _) rfl k)
        (fun _ => Keeps.ite (fun _ => Keeps.step (State.setDma_keeps _ _ _) rfl (Keeps.step (State.wr64_keeps _ _ _) rfl k))
        (fun _ => Keeps.ite (fun _ => Keeps.step (State.setB_keeps _ _ _ _) rfl k) (fun _ => Keeps.step (State.setDma_keeps _ _ _) rfl k))))

theorem execDmaStopped_keeps (c : Fin 16) (s : State) : OutKeeps 1 s (execDmaStopped c s) := by
  unfold execDmaStopped
  try dsimp only
  repeat' first
    | exact (rfl : (_ : Bool) = _)
    | with_reducible first
      | exact Keeps.refl ..
      | refine OutKeeps.next ?_
      | refine OutKeeps.ite (fun _ => ?_) (fun _ => ?_)
      | refine Keeps.ite (fun _ => ?_) (fun _ => ?_)
      | apply Keeps.step (State.setDma_keeps ..)
    | split

theorem execDmaTransferDone_keeps (c : Fin 16) (src : List Byte) (err : Option (BitVec 64)) (s : State) : OutKeeps 21784476778497 s (execDmaTransferDone c src err s) := by
  unfold execDmaTransferDone
  try dsimp only
  repeat' first
    | exact (rfl : (_ : Bool) = _)
    | with_reducible first
      | exact Keeps.refl ..
      | assumption
      | refine OutKeeps.next ?_
      | refine OutKeeps.ite (fun _ => ?_) (fun _ => ?_)
      | refine Keeps.ite (fun _ => ?_) (fun _ => ?_)
      | apply Keeps.step (State.setB_keeps ..)
      | apply Keeps.step (State.dmaGather_keeps ..)
      | apply Keeps.step (Keeps.ofSnd ‹_› (State.dmaGather_keeps ..))
      | apply Keeps.step (State.irq_keeps ..)
      | apply Keeps.step (State.tallyAdd_keeps ..)
      | apply Keeps.step (State.wr64_keeps ..)
      | apply Keeps.step (State.setDma_keeps ..)
      | apply Keeps.step (State.dmaErrAt_keeps ..)
      | apply Keeps.step (State.dmaBusErr_keeps ..)
      | apply Keeps.step (State.dmaScatter_keeps ..)
      | apply Keeps.step (State.dmaStatus_keeps ..)
      | apply Keeps.step (State.count_keeps ..)
    | split

theorem execDomReqWrite_keeps (i : Itf) (v : Word) (s : State) : OutKeeps 3093450198017 s (execDomReqWrite i v s) := by
  unfold execDomReqWrite
  try dsimp only
  repeat' first
    | exact (rfl : (_ : Bool) = _)
    | with_reducible first
      | exact Keeps.refl ..
      | assumption
      | refine OutKeeps.next ?_
      | apply Keeps.step (State.wDomReq_keeps ..)
      | refine Keeps.reach (fun _ _ => ?_) ?_ ?_

theorem execDomainSwitched_keeps (s : State) : OutKeeps 131941395333119 s (execDomainSwitched s) := by
  unfold execDomainSwitched
  try dsimp only
  repeat' first
    | exact (rfl : (_ : Bool) = _)
    | with_reducible first
      | exact Keeps.refl ..
      | assumption
      | refine OutKeeps.next ?_
      | refine OutKeeps.ite (fun _ => ?_) (fun _ => ?_)
      | refine Keeps.ite (fun _ => ?_) (fun _ => ?_)
      | apply Keeps.step (State.domainOff_keeps ..)
      | apply Keeps.step (State.irq_keeps ..)
      | apply Keeps.step (State.setF_keeps ..)
      | apply Keeps.step (State.settle_keeps ..)
      | apply Keeps.step (State.domEnd_keeps ..)
      | apply Keeps.step (State.domainOn_keeps ..)
      | apply Keeps.step (State.domGoOn_keeps ..)
    | split
    | with_reducible apply Keeps.step (Keeps.with_pwr ..)

theorem execDomainsUp_keeps (failed : Option (Fin 10)) (s : State) : OutKeeps 131941395333119 s (execDomainsUp failed s) := by
  unfold execDomainsUp
  split
  · exact OutKeeps.next (Keeps.refl _ _)
  · split
    · exact OutKeeps.next (Keeps.step (State.imageRefuse_keeps _ _ _) rfl (Keeps.refl _ _))
    · extract_lets dom s1 s2 s3
      have h1 : Keeps 131941395333119 s s1 := Keeps.step (State.loadImg_keeps _) rfl (Keeps.step (State.subsetValues_keeps _) rfl (Keeps.refl _ _))
      have h2 : Keeps 131941395333119 s s2 := Keeps.foldl _ _ h1 fun x a h => Keeps.step (State.ctlIn_keeps _ _) rfl h
      clear_value s2
      have h3 : Keeps 131941395333119 s s3 := Keeps.foldl _ _ h2 fun x a h => Keeps.step (State.domainOn_keeps _ _) rfl h
      clear_value s3
      split
      · exact OutKeeps.next (Keeps.step (State.imageRefuse_keeps _ _ _) rfl h3)
      · rename_i t ht
        exact OutKeeps.next (Keeps.step (State.setPhase_keeps _ _) rfl (Keeps.step (State.applyRecords_keeps _ _ _ ht) rfl h3))

theorem execDumpCtlWrite_keeps (i : Itf) (v : Word) (s : State) : OutKeeps 3097745165313 s (execDumpCtlWrite i v s) := by
  unfold execDumpCtlWrite
  try dsimp only
  repeat' first
    | exact (rfl : (_ : Bool) = _)
    | with_reducible first
      | exact Keeps.refl ..
      | assumption
      | refine OutKeeps.next ?_
      | apply Keeps.step (State.wPrf_keeps ..)
      | refine Keeps.reach (fun _ _ => ?_) ?_ ?_

theorem execDumpWritten_keeps (ok : Bool) (s : State) : OutKeeps 21788637528065 s (execDumpWritten ok s) := by
  unfold execDumpWritten
  try dsimp only
  repeat' first
    | exact (rfl : (_ : Bool) = _)
    | with_reducible first
      | exact Keeps.refl ..
      | assumption
      | refine OutKeeps.next ?_
      | refine OutKeeps.ite (fun _ => ?_) (fun _ => ?_)
      | refine Keeps.ite (fun _ => ?_) (fun _ => ?_)
      | apply Keeps.step (State.setB_keeps ..)
      | apply Keeps.step (State.countSat_keeps ..)
      | apply Keeps.step (State.irq_keeps ..)
      | apply Keeps.step (State.mtxErr_keeps ..)
      | apply Keeps.step (State.raise_keeps ..)
      | apply Keeps.step (State.hostWrite_keeps ..)
      | apply Keeps.step (State.granWrite_keeps ..)
    | split
    | with_reducible apply Keeps.step (Keeps.with_prf ..)

theorem execEnsembleCycle_keeps (s : State) : OutKeeps 8607472529409 s (execEnsembleCycle s) := by
  unfold execEnsembleCycle
  try dsimp only
  repeat' first
    | exact (rfl : (_ : Bool) = _)
    | exact Shape.lenOf (fun h => by first | (simp only [listMod_length, List.length_map, List.length_mapIdx, List.length_set, List.length_range, List.length_replicate, h.all, mapWf_nil, and_self]; done) | (simp [h.all, mapSet_wf]; done) | (split <;> simp [h.all] <;> done) | (constructor <;> split <;> simp [h.all] <;> done))
    | with_reducible first
      | exact Keeps.refl ..
      | assumption
      | refine OutKeeps.next ?_
      | refine OutKeeps.ite (fun _ => ?_) (fun _ => ?_)
      | refine Keeps.ite (fun _ => ?_) (fun _ => ?_)
      | apply Keeps.step (State.ensembleCycle_keeps ..)
      | apply Keeps.step (State.servoTake_keeps ..)
      | apply Keeps.step (State.monitorOnce_keeps ..)
      | apply Keeps.step (State.secondRecords_keeps ..)
      | refine Keeps.foldl _ _ ?_ (fun _ _ _ => ?_)
    | split
    | with_reducible apply Keeps.step (Keeps.with_ens _ _ ?_)

theorem execEnterRun_keeps (ms : Word) (s : State) : OutKeeps 61400852463423 s (execEnterRun ms s) := by
  unfold execEnterRun
  split
  · exact OutKeeps.next (Keeps.refl _ _)
  · split
    · exact OutKeeps.next (Keeps.step (State.imageRefuse_keeps _ _ _) rfl (Keeps.refl _ _))
    · rename_i t ht
      have k : Keeps 61400852463423 s t := Keeps.step (State.startCommits_keeps s allChans t ht) rfl (Keeps.refl _ _)
      split
      · exact OutKeeps.next (Keeps.step (State.imageRefuse_keeps _ _ _) rfl (Keeps.refl _ _))
      · exact OutKeeps.next (Keeps.step (State.runBegin_keeps _ _) rfl k)

theorem execEntropyRetry_keeps (passed : Bool) (s : State) : OutKeeps 2508260900865 s (execEntropyRetry passed s) := by
  unfold execEntropyRetry
  try dsimp only
  repeat' first
    | exact (rfl : (_ : Bool) = _)
    | exact Shape.lenOf (fun h => by first | (simp only [listMod_length, List.length_map, List.length_mapIdx, List.length_set, List.length_range, List.length_replicate, h.all, mapWf_nil, and_self]; done) | (simp [h.all, mapSet_wf]; done) | (split <;> simp [h.all] <;> done) | (constructor <;> split <;> simp [h.all] <;> done))
    | with_reducible first
      | exact Keeps.refl ..
      | refine OutKeeps.next ?_
      | refine OutKeeps.ite (fun _ => ?_) (fun _ => ?_)
      | refine Keeps.ite (fun _ => ?_) (fun _ => ?_)
      | apply Keeps.step (State.setB_keeps ..)
      | apply Keeps.step (State.irq_keeps ..)
      | apply Keeps.step (State.modKeys_keeps _ _ ?_)
    | split

theorem execErase_keeps (i : Itf) (slot : BitVec 6) (s : State) : OutKeeps 26235226401793 s (execErase i slot s) := by
  unfold execErase
  try dsimp only
  repeat' first
    | exact (rfl : (_ : Bool) = _)
    | with_reducible first
      | exact Keeps.refl ..
      | assumption
      | refine OutKeeps.next ?_
      | apply Keeps.step (State.keyRun_keeps ..)
      | refine Keeps.reach (fun _ _ => ?_) ?_ ?_

theorem execEsmcTimeout_keeps (p : Fin 16) (s : State) : OutKeeps 8607403876353 s (execEsmcTimeout p s) := by
  unfold execEsmcTimeout
  try dsimp only
  repeat' first
    | exact (rfl : (_ : Bool) = _)
    | with_reducible first
      | exact Keeps.refl ..
      | assumption
      | refine OutKeeps.next ?_
      | refine OutKeeps.ite (fun _ => ?_) (fun _ => ?_)
      | refine Keeps.ite (fun _ => ?_) (fun _ => ?_)
      | apply Keeps.step (State.setF_keeps ..)
      | apply Keeps.step (State.candRound_keeps ..)
      | refine Keeps.foldl _ _ ?_ (fun _ _ _ => ?_)
    | split

theorem execEsmcTx_keeps (p : Fin 16) (event : Bool) (s : State) : OutKeeps 67108864 s (execEsmcTx p event s) := by
  unfold execEsmcTx
  try dsimp only
  repeat' first
    | exact (rfl : (_ : Bool) = _)
    | with_reducible first
      | exact Keeps.refl ..
      | refine OutKeeps.next ?_
      | refine OutKeeps.ite (fun _ => ?_) (fun _ => ?_)
      | refine Keeps.ite (fun _ => ?_) (fun _ => ?_)
      | apply Keeps.step (State.modPort_keeps ..)
      | apply Keeps.step (State.txQueue_keeps ..)
    | split

theorem execEvtPulseEnd_keeps (p : Fin 8) (s : State) : OutKeeps 8193 s (execEvtPulseEnd p s) := by
  unfold execEvtPulseEnd
  try dsimp only
  repeat' first
    | exact (rfl : (_ : Bool) = _)
    | exact Shape.lenOf (fun h => by first | (simp only [listMod_length, List.length_map, List.length_mapIdx, List.length_set, List.length_range, List.length_replicate, h.all, mapWf_nil, and_self]; done) | (simp [h.all, mapSet_wf]; done) | (split <;> simp [h.all] <;> done) | (constructor <;> split <;> simp [h.all] <;> done))
    | with_reducible first
      | exact Keeps.refl ..
      | assumption
      | refine OutKeeps.next ?_
      | refine OutKeeps.ite (fun _ => ?_) (fun _ => ?_)
      | refine Keeps.ite (fun _ => ?_) (fun _ => ?_)
      | apply Keeps.step (State.evtActive_keeps ..)
      | apply Keeps.step (State.modSpn_keeps _ _ ?_)
      | refine Keeps.foldl _ _ ?_ (fun _ _ _ => ?_)
    | split

theorem execExceededFlagExpiry_keeps (n : Fin 8) (s : State) : OutKeeps 4194304 s (execExceededFlagExpiry n s) := by
  unfold execExceededFlagExpiry
  try dsimp only
  repeat' first
    | exact (rfl : (_ : Bool) = _)
    | with_reducible first
      | exact Keeps.refl ..
      | assumption
      | refine OutKeeps.next ?_
      | refine OutKeeps.ite (fun _ => ?_) (fun _ => ?_)
      | refine Keeps.ite (fun _ => ?_) (fun _ => ?_)
      | apply Keeps.step (State.modCtl_keeps ..)
    | split

theorem execEyeGo_keeps (i : Itf) (m : Fin 18) (v : Word) (s : State) : OutKeeps 3093450722305 s (execEyeGo i m v s) := by
  unfold execEyeGo
  try dsimp only
  repeat' first
    | exact (rfl : (_ : Bool) = _)
    | with_reducible first
      | exact Keeps.refl ..
      | assumption
      | refine OutKeeps.next ?_
      | apply Keeps.step (State.wEyeCtl_keeps ..)
      | refine Keeps.reach (fun _ _ => ?_) ?_ ?_

theorem execEyePointDone_keeps (m : Fin 18) (errs : Nat) (s : State) : OutKeeps 2473901162497 s (execEyePointDone m errs s) := by
  unfold execEyePointDone
  try dsimp only
  repeat' first
    | exact (rfl : (_ : Bool) = _)
    | with_reducible first
      | exact Keeps.refl ..
      | refine OutKeeps.next ?_
      | refine OutKeeps.ite (fun _ => ?_) (fun _ => ?_)
      | refine Keeps.ite (fun _ => ?_) (fun _ => ?_)
      | apply Keeps.step (State.setB_keeps ..)
      | apply Keeps.step (State.irq_keeps ..)
      | apply Keeps.step (State.wrN_keeps ..)
    | split

theorem execFeClockReturn_keeps (k : Fin 2) (err : Word) (s : State) : OutKeeps 68753031169 s (execFeClockReturn k err s) := by
  unfold execFeClockReturn
  try dsimp only
  repeat' first
    | exact (rfl : (_ : Bool) = _)
    | with_reducible first
      | exact Keeps.refl ..
      | refine OutKeeps.next ?_
      | apply Keeps.step (State.feClock_keeps ..)

theorem execFenceComplete_keeps (i : Itf) (s : State) : OutKeeps 131941395333119 s (execFenceComplete i s) := by
  unfold execFenceComplete
  try dsimp only
  repeat' first
    | exact (rfl : (_ : Bool) = _)
    | with_reducible first
      | exact Keeps.refl ..
      | assumption
      | refine OutKeeps.next ?_
      | refine OutKeeps.ite (fun _ => ?_) (fun _ => ?_)
      | refine Keeps.ite (fun _ => ?_) (fun _ => ?_)
      | apply Keeps.step (State.traceWrite_keeps ..)
      | apply Keeps.step (State.fltFlush_keeps ..)
      | apply Keeps.step (State.fenceStat_keeps ..)
      | apply Keeps.step (State.marker_keeps ..)
      | apply Keeps.step (State.setFence_keeps ..)
      | apply Keeps.step (State.settle_keeps ..)
      | apply Keeps.step (State.setHeld_keeps ..)
    | split

theorem execFenceOpen_keeps (i : Itf) (v : Word) (s : State) : OutKeeps 3093450198785 s (execFenceOpen i v s) := by
  unfold execFenceOpen
  try dsimp only
  repeat' first
    | exact (rfl : (_ : Bool) = _)
    | with_reducible first
      | exact Keeps.refl ..
      | assumption
      | refine OutKeeps.next ?_
      | apply Keeps.step (State.wFence_keeps ..)
      | refine Keeps.reach (fun _ _ => ?_) ?_ ?_

theorem execFenceSlow_keeps (i : Itf) (s : State) : OutKeeps 2542620640001 s (execFenceSlow i s) := by
  unfold execFenceSlow
  try dsimp only
  repeat' first
    | exact (rfl : (_ : Bool) = _)
    | with_reducible first
      | exact Keeps.refl ..
      | assumption
      | refine OutKeeps.next ?_
      | refine OutKeeps.ite (fun _ => ?_) (fun _ => ?_)
      | refine Keeps.ite (fun _ => ?_) (fun _ => ?_)
      | apply Keeps.step (State.irq_keeps ..)
      | apply Keeps.step (State.setFence_keeps ..)
      | apply Keeps.step (State.raise_keeps ..)
    | split

theorem execFlrComplete_keeps (s : State) : OutKeeps 1 s (execFlrComplete s) := by
  unfold execFlrComplete
  try dsimp only
  repeat' first
    | exact (rfl : (_ : Bool) = _)
    | with_reducible first
      | exact Keeps.refl ..
      | refine OutKeeps.next ?_
      | apply Keeps.step (State.setB_keeps ..)

theorem execFltBresetWrite_keeps (i : Itf) (v : Word) (s : State) : OutKeeps 131941395333119 s (execFltBresetWrite i v s) := by
  unfold execFltBresetWrite
  try dsimp only
  repeat' first
    | exact (rfl : (_ : Bool) = _)
    | with_reducible first
      | exact Keeps.refl ..
      | assumption
      | refine OutKeeps.next ?_
      | apply Keeps.step (State.settle_keeps ..)
      | refine Keeps.reach (fun _ _ => ?_) ?_ ?_
      | apply Keeps.step (State.wBreset_keeps ..)

theorem execFltCresetWrite_keeps (i : Itf) (v : Word) (s : State) : OutKeeps 131941395333119 s (execFltCresetWrite i v s) := by
  unfold execFltCresetWrite
  try dsimp only
  repeat' first
    | exact (rfl : (_ : Bool) = _)
    | with_reducible first
      | exact Keeps.refl ..
      | assumption
      | refine OutKeeps.next ?_
      | refine Keeps.reach (fun _ _ => ?_) ?_ ?_
      | apply Keeps.step (State.wCreset_keeps ..)

theorem execFltSafeReqWrite_keeps (i : Itf) (v : Word) (s : State) : OutKeeps 8651427294209 s (execFltSafeReqWrite i v s) := by
  unfold execFltSafeReqWrite
  try dsimp only
  repeat' first
    | exact (rfl : (_ : Bool) = _)
    | with_reducible first
      | exact Keeps.refl ..
      | assumption
      | refine OutKeeps.next ?_
      | apply Keeps.step (State.wSafeReq_keeps ..)
      | refine Keeps.reach (fun _ _ => ?_) ?_ ?_

theorem execFrameReceive_keeps (p : Fin 16) (x : RxFrame) (s : State) : OutKeeps 8607471083521 s (execFrameReceive p x s) := by
  unfold execFrameReceive
  try dsimp only
  repeat' first
    | exact (rfl : (_ : Bool) = _)
    | with_reducible first
      | exact Keeps.refl ..
      | refine OutKeeps.next ?_
      | refine OutKeeps.ite (fun _ => ?_) (fun _ => ?_)
      | refine Keeps.ite (fun _ => ?_) (fun _ => ?_)
      | apply Keeps.step (State.modPort_keeps ..)
      | apply Keeps.step (State.tallyAdd_keeps ..)
      | apply Keeps.step (State.esmcReceive_keeps ..)
      | apply Keeps.step (State.modUnit_keeps ..)
      | apply Keeps.step (State.fifoStore_keeps ..)
      | apply Keeps.step (State.macCount_keeps ..)
      | apply Keeps.step (State.pauseFrame_keeps ..)
    | split

theorem execFuse_keeps (i : Itf) (req : Bool) (s : State) : OutKeeps 3093987068929 s (execFuse i req s) := by
  unfold execFuse
  try dsimp only
  repeat' first
    | exact (rfl : (_ : Bool) = _)
    | with_reducible first
      | exact Keeps.refl ..
      | assumption
      | refine OutKeeps.next ?_
      | refine OutKeeps.ite (fun _ => ?_) (fun _ => ?_)
      | refine Keeps.ite (fun _ => ?_) (fun _ => ?_)
      | apply Keeps.step (State.ownerFuse_keeps ..)
      | refine Keeps.reach (fun _ _ => ?_) ?_ ?_
    | split

theorem execGenerate_keeps (i : Itf) (slot : BitVec 6) (s : State) : OutKeeps 26235226401793 s (execGenerate i slot s) := by
  unfold execGenerate
  try dsimp only
  repeat' first
    | exact (rfl : (_ : Bool) = _)
    | with_reducible first
      | exact Keeps.refl ..
      | assumption
      | refine OutKeeps.next ?_
      | apply Keeps.step (State.keyRun_keeps ..)
      | refine Keeps.reach (fun _ _ => ?_) ?_ ?_

theorem execGnsTimRead_keeps (i : Itf) (s : State) : OutKeeps 8655722786033 s (execGnsTimRead i s) := by
  unfold execGnsTimRead
  try dsimp only
  repeat' first
    | exact (rfl : (_ : Bool) = _)
    | with_reducible first
      | exact Keeps.refl ..
      | refine OutKeeps.next ?_
      | apply Keeps.step (State.hostRead_keeps ..)

theorem execGnssConfigChange_keeps (i : Itf) (off : Nat) (v : Word) (s : State) : OutKeeps 26200697220097 s (execGnssConfigChange i off v s) := by
  unfold execGnssConfigChange
  try dsimp only
  repeat' first
    | exact (rfl : (_ : Bool) = _)
    | with_reducible first
      | exact Keeps.refl ..
      | assumption
      | refine OutKeeps.next ?_
      | refine OutKeeps.ite (fun _ => ?_) (fun _ => ?_)
      | refine Keeps.ite (fun _ => ?_) (fun _ => ?_)
      | refine Keeps.reach (fun _ _ => ?_) ?_ ?_
      | apply Keeps.step (State.wGns_keeps ..)
    | split

theorem execGnssMissingSecond_keeps (q : GnssSecond) (s : State) : OutKeeps 26199623475201 s (execGnssMissingSecond q s) := by
  unfold execGnssMissingSecond
  try dsimp only
  repeat' first
    | exact (rfl : (_ : Bool) = _)
    | with_reducible first
      | exact Keeps.refl ..
      | refine OutKeeps.next ?_
      | refine OutKeeps.ite (fun _ => ?_) (fun _ => ?_)
      | refine Keeps.ite (fun _ => ?_) (fun _ => ?_)
      | apply Keeps.step (State.gnsNoSolution_keeps ..)
      | apply Keeps.step (State.gnsBegin_keeps ..)
    | split

theorem execGnssSolution_keeps (q : GnssSecond) (g : GnssSolution) (s : State) : OutKeeps 26199631863809 s (execGnssSolution q g s) := by
  unfold execGnssSolution
  try dsimp only
  repeat' first
    | exact (rfl : (_ : Bool) = _)
    | with_reducible first
      | exact Keeps.refl ..
      | assumption
      | refine OutKeeps.next ?_
      | refine OutKeeps.ite (fun _ => ?_) (fun _ => ?_)
      | refine Keeps.ite (fun _ => ?_) (fun _ => ?_)
      | apply Keeps.step (State.gnsNoSolution_keeps ..)
      | apply Keeps.step (State.setF_keeps ..)
      | apply Keeps.step (State.gnsLose_keeps ..)
      | apply Keeps.step (State.gnsCfgAct_keeps ..)
      | apply Keeps.step (State.posStore_keeps ..)
      | apply Keeps.step (State.raise_keeps ..)
      | apply Keeps.step (State.gnsMessages_keeps ..)
      | apply Keeps.step (State.gnsMiss_keeps ..)
      | apply Keeps.step (State.gnsSurvey_keeps ..)
      | apply Keeps.step (State.edgeTake_keeps ..)
      | apply Keeps.step (State.gnsAccept_keeps ..)
      | apply Keeps.step (State.modGns_keeps ..)
      | apply Keeps.step (State.gnsBegin_keeps ..)
      | refine Keeps.foldl _ _ ?_ (fun _ _ _ => ?_)
    | split

theorem execGnssWake_keeps (crcOk : Bool) (s : State) : OutKeeps 21784376115201 s (execGnssWake crcOk s) := by
  unfold execGnssWake
  try dsimp only
  repeat' first
    | exact (rfl : (_ : Bool) = _)
    | with_reducible first
      | exact Keeps.refl ..
      | assumption
      | refine OutKeeps.next ?_
      | refine OutKeeps.ite (fun _ => ?_) (fun _ => ?_)
      | refine Keeps.ite (fun _ => ?_) (fun _ => ?_)
      | apply Keeps.step (State.gnsEvent_keeps ..)
      | apply Keeps.step (State.wr_keeps ..)
      | apply Keeps.step (State.wrN_keeps ..)
      | apply Keeps.step (State.raise_keeps ..)
      | apply Keeps.step (State.modGns_keeps ..)
      | refine Keeps.foldl _ _ ?_ (fun _ _ _ => ?_)
    | split

theorem execGroupLpWrite_keeps (i : Itf) (v : Word) (s : State) : OutKeeps 26200866663425 s (execGroupLpWrite i v s) := by
  unfold execGroupLpWrite
  try dsimp only
  repeat' first
    | exact (rfl : (_ : Bool) = _)
    | with_reducible first
      | exact Keeps.refl ..
      | assumption
      | refine OutKeeps.next ?_
      | apply Keeps.step (State.wGroupLp_keeps ..)
      | refine Keeps.reach (fun _ _ => ?_) ?_ ?_

theorem execHealthSecond_keeps (katPassed : Bool) (s : State) : OutKeeps 2542637416449 s (execHealthSecond katPassed s) := by
  unfold execHealthSecond
  try dsimp only
  repeat' first
    | exact (rfl : (_ : Bool) = _)
    | with_reducible first
      | exact Keeps.refl ..
      | assumption
      | refine OutKeeps.next ?_
      | refine OutKeeps.ite (fun _ => ?_) (fun _ => ?_)
      | refine Keeps.ite (fun _ => ?_) (fun _ => ?_)
      | apply Keeps.step (State.setB_keeps ..)
      | apply Keeps.step (State.healthFall_keeps ..)
      | apply Keeps.step (State.modTnd_keeps ..)
      | refine Keeps.foldl _ _ ?_ (fun _ _ _ => ?_)
    | split

theorem execHealthTestFail_keeps (restarts : Nat) (s : State) : OutKeeps 2576980377601 s (execHealthTestFail restarts s) := by
  unfold execHealthTestFail
  try dsimp only
  repeat' first
    | exact (rfl : (_ : Bool) = _)
    | with_reducible first
      | exact Keeps.refl ..
      | refine OutKeeps.next ?_
      | refine OutKeeps.ite (fun _ => ?_) (fun _ => ?_)
      | refine Keeps.ite (fun _ => ?_) (fun _ => ?_)
      | apply Keeps.step (State.drbgStop_keeps ..)
    | split

theorem execHostRingDeliver_keeps (p : Fin 16) (descs : List (Option (List Byte))) (bad : Option RingWrite) (s : State) : OutKeeps 3092443561985 s (execHostRingDeliver p descs bad s) := by
  unfold execHostRingDeliver
  try dsimp only
  repeat' first
    | exact (rfl : (_ : Bool) = _)
    | with_reducible first
      | exact Keeps.refl ..
      | assumption
      | refine OutKeeps.next ?_
      | refine OutKeeps.ite (fun _ => ?_) (fun _ => ?_)
      | refine Keeps.ite (fun _ => ?_) (fun _ => ?_)
      | apply Keeps.step (State.modPort_keeps ..)
      | apply Keeps.step (State.tallyAdd_keeps ..)
      | apply Keeps.step (State.ringDrop_keeps ..)
      | apply Keeps.step (State.setF_keeps ..)
      | apply Keeps.step (State.mtxErr_keeps ..)
      | apply Keeps.step (State.rxPlace_keeps ..)
      | apply Keeps.step (Keeps.ofFst ‹_› (State.rxPlace_keeps ..))
      | apply Keeps.step (State.hostWrite_keeps ..)
      | apply Keeps.step (State.hostReadReq_keeps ..)
      | apply Keeps.step (State.rxHalt_keeps ..)
      | refine Keeps.foldl _ _ ?_ (fun _ _ _ => ?_)
    | split

theorem execI2cRead_keeps (bytes : List Byte) (s : State) : OutKeeps 8655722786033 s (execI2cRead bytes s) := by
  unfold execI2cRead
  try dsimp only
  repeat' first
    | exact (rfl : (_ : Bool) = _)
    | with_reducible first
      | exact Keeps.refl ..
      | assumption
      | refine OutKeeps.next ?_
      | refine OutKeeps.ite (fun _ => ?_) (fun _ => ?_)
      | refine Keeps.ite (fun _ => ?_) (fun _ => ?_)
      | apply Keeps.step (State.answer_keeps ..)
      | apply Keeps.step (State.hostRead_keeps ..)
      | apply Keeps.step (State.mtxErr_keeps ..)
    | split

theorem execI2cWrite_keeps (bytes : List Byte) (s : State) : OutKeeps 131941395333119 s (execI2cWrite bytes s) := by
  unfold execI2cWrite
  try dsimp only
  repeat' first
    | exact (rfl : (_ : Bool) = _)
    | with_reducible first
      | exact Keeps.refl ..
      | assumption
      | refine OutKeeps.next ?_
      | refine OutKeeps.ite (fun _ => ?_) (fun _ => ?_)
      | refine Keeps.ite (fun _ => ?_) (fun _ => ?_)
      | apply Keeps.step (State.hostStoreGo_keeps ..)
      | apply Keeps.step (State.i2cNack_keeps ..)
    | split

theorem execImageFetched_keeps (prim : List Byte) (sec : List Byte) (s : State) : OutKeeps 536870913 s (execImageFetched prim sec s) := by
  unfold execImageFetched
  try dsimp only
  repeat' first
    | exact (rfl : (_ : Bool) = _)
    | with_reducible first
      | exact Keeps.refl ..
      | assumption
      | refine OutKeeps.next ?_
      | refine OutKeeps.ite (fun _ => ?_) (fun _ => ?_)
      | refine Keeps.ite (fun _ => ?_) (fun _ => ?_)
      | apply Keeps.step (State.modImg_keeps' _ _ rfl)
      | apply Keeps.step (State.setPhase_keeps ..)
    | split

theorem execImageVerified_keeps (s : State) : OutKeeps 53979148975935 s (execImageVerified s) := by
  unfold execImageVerified
  try dsimp only
  repeat' first
    | exact (rfl : (_ : Bool) = _)
    | with_reducible first
      | exact Keeps.refl ..
      | assumption
      | refine OutKeeps.next ?_
      | refine OutKeeps.ite (fun _ => ?_) (fun _ => ?_)
      | refine Keeps.ite (fun _ => ?_) (fun _ => ?_)
      | apply Keeps.step (State.setF_keeps ..)
      | apply Keeps.step (State.modImg_keeps' _ _ rfl)
      | apply Keeps.step (State.setPhase_keeps ..)
      | apply Keeps.step (State.imageRefuse_keeps ..)
    | split

theorem execIrqStatWrite_keeps (i : Itf) (b : Fin 21) (v : Word) (s : State) : OutKeeps 3093450198017 s (execIrqStatWrite i b v s) := by
  unfold execIrqStatWrite
  try dsimp only
  repeat' first
    | exact (rfl : (_ : Bool) = _)
    | with_reducible first
      | exact Keeps.refl ..
      | assumption
      | refine OutKeeps.next ?_
      | apply Keeps.step (State.wIrqStat_keeps ..)
      | refine Keeps.reach (fun _ _ => ?_) ?_ ?_
    | split

theorem execKeepCopy_keeps (s : State) : OutKeeps 1073741824 s (execKeepCopy s) := by
  unfold execKeepCopy
  try dsimp only
  repeat' first
    | exact (rfl : (_ : Bool) = _)
    | with_reducible first
      | exact Keeps.refl ..
      | refine OutKeeps.next ?_
      | refine OutKeeps.ite (fun _ => ?_) (fun _ => ?_)
      | refine Keeps.ite (fun _ => ?_) (fun _ => ?_)
    | split
    | with_reducible apply Keeps.step (Keeps.with_pwr ..)

theorem execKeyDelete_keeps (i : Itf) (v : Word) (s : State) : OutKeeps 3093584415745 s (execKeyDelete i v s) := by
  unfold execKeyDelete
  try dsimp only
  repeat' first
    | exact (rfl : (_ : Bool) = _)
    | with_reducible first
      | exact Keeps.refl ..
      | assumption
      | refine OutKeeps.next ?_
      | apply Keeps.step (State.keyDelete_keeps ..)
      | refine Keeps.reach (fun _ _ => ?_) ?_ ?_

theorem execKeyLoad_keeps (i : Itf) (v : Word) (s : State) : OutKeeps 3093584415745 s (execKeyLoad i v s) := by
  unfold execKeyLoad
  try dsimp only
  repeat' first
    | exact (rfl : (_ : Bool) = _)
    | with_reducible first
      | exact Keeps.refl ..
      | assumption
      | refine OutKeeps.next ?_
      | apply Keeps.step (State.keyLoad_keeps ..)
      | refine Keeps.reach (fun _ _ => ?_) ?_ ?_

theorem execKeysPhase_keeps (healthOk : Bool) (bad : List (Fin 64)) (s : State) : OutKeeps 6975026888705 s (execKeysPhase healthOk bad s) := by
  unfold execKeysPhase
  try dsimp only
  repeat' first
    | exact (rfl : (_ : Bool) = _)
    | with_reducible first
      | exact Keeps.refl ..
      | assumption
      | refine OutKeeps.next ?_
      | refine OutKeeps.ite (fun _ => ?_) (fun _ => ?_)
      | refine Keeps.ite (fun _ => ?_) (fun _ => ?_)
      | apply Keeps.step (State.setB_keeps ..)
      | apply Keeps.step (State.rootCreate_keeps ..)
      | apply Keeps.step (State.deriveKeys_keeps ..)
      | apply Keeps.step (State.setF_keeps ..)
      | apply Keeps.step (State.subkeyCreate_keeps ..)
      | apply Keeps.step (State.leaveKeys_keeps ..)
      | apply Keeps.step (State.drbgStop_keeps ..)
      | apply Keeps.step (State.raise_keeps ..)
      | apply Keeps.step (State.setPhase_keeps ..)
      | apply Keeps.step (State.slotFaults_keeps ..)
      | apply Keeps.step (State.chestLost_keeps ..)
    | split

theorem execLaneAlignLock_keeps (m : Fin 18) (rx : Word) (tx : Word) (s : State) : OutKeeps 26199792918529 s (execLaneAlignLock m rx tx s) := by
  unfold execLaneAlignLock
  try dsimp only
  repeat' first
    | exact (rfl : (_ : Bool) = _)
    | with_reducible first
      | exact Keeps.refl ..
      | refine OutKeeps.next ?_
      | refine OutKeeps.ite (fun _ => ?_) (fun _ => ?_)
      | refine Keeps.ite (fun _ => ?_) (fun _ => ?_)
      | apply Keeps.step (State.laneLocked_keeps ..)
      | apply Keeps.step (State.laneTail_keeps ..)
    | split

theorem execLaneCalFail_keeps (m : Fin 18) (s : State) : OutKeeps 2542621786113 s (execLaneCalFail m s) := by
  unfold execLaneCalFail
  try dsimp only
  repeat' first
    | exact (rfl : (_ : Bool) = _)
    | with_reducible first
      | exact Keeps.refl ..
      | refine OutKeeps.next ?_
      | refine OutKeeps.ite (fun _ => ?_) (fun _ => ?_)
      | refine Keeps.ite (fun _ => ?_) (fun _ => ?_)
      | apply Keeps.step (State.setB_keeps ..)
      | apply Keeps.step (State.raise_keeps ..)
      | apply Keeps.step (State.abandon_keeps ..)
    | split

theorem execLaneCdrLock_keeps (m : Fin 18) (rx : Word) (tx : Word) (s : State) : OutKeeps 26199792918529 s (execLaneCdrLock m rx tx s) := by
  unfold execLaneCdrLock
  try dsimp only
  repeat' first
    | exact (rfl : (_ : Bool) = _)
    | with_reducible first
      | exact Keeps.refl ..
      | refine OutKeeps.next ?_
      | refine OutKeeps.ite (fun _ => ?_) (fun _ => ?_)
      | refine Keeps.ite (fun _ => ?_) (fun _ => ?_)
      | apply Keeps.step (State.setB_keeps ..)
      | apply Keeps.step (State.laneTo_keeps ..)
      | apply Keeps.step (State.laneLocked_keeps ..)
      | apply Keeps.step (State.laneTail_keeps ..)
    | split

theorem execLaneLpEnter_keeps (i : Itf) (m : Fin 18) (v : Word) (s : State) : OutKeeps 26200866663425 s (execLaneLpEnter i m v s) := by
  unfold execLaneLpEnter
  try dsimp only
  repeat' first
    | exact (rfl : (_ : Bool) = _)
    | with_reducible first
      | exact Keeps.refl ..
      | assumption
      | refine OutKeeps.next ?_
      | apply Keeps.step (State.wLanCtl_keeps ..)
      | refine Keeps.reach (fun _ _ => ?_) ?_ ?_

theorem execLaneLpExit_keeps (i : Itf) (m : Fin 18) (v : Word) (s : State) : OutKeeps 26200866663425 s (execLaneLpExit i m v s) := by
  unfold execLaneLpExit
  try dsimp only
  repeat' first
    | exact (rfl : (_ : Bool) = _)
    | with_reducible first
      | exact Keeps.refl ..
      | assumption
      | refine OutKeeps.next ?_
      | apply Keeps.step (State.wLanCtl_keeps ..)
      | refine Keeps.reach (fun _ _ => ?_) ?_ ?_

theorem execLanePllReady_keeps (m : Fin 18) (s : State) : OutKeeps 26199792918529 s (execLanePllReady m s) := by
  unfold execLanePllReady
  try dsimp only
  repeat' first
    | exact (rfl : (_ : Bool) = _)
    | with_reducible first
      | exact Keeps.refl ..
      | refine OutKeeps.next ?_
      | refine OutKeeps.ite (fun _ => ?_) (fun _ => ?_)
      | refine Keeps.ite (fun _ => ?_) (fun _ => ?_)
      | apply Keeps.step (State.laneLp_keeps ..)
      | apply Keeps.step (State.laneTo_keeps ..)
      | apply Keeps.step (State.laneTail_keeps ..)
    | split

theorem execLaneRestart_keeps (i : Itf) (m : Fin 18) (v : Word) (s : State) : OutKeeps 26200866663425 s (execLaneRestart i m v s) := by
  unfold execLaneRestart
  try dsimp only
  repeat' first
    | exact (rfl : (_ : Bool) = _)
    | with_reducible first
      | exact Keeps.refl ..
      | assumption
      | refine OutKeeps.next ?_
      | apply Keeps.step (State.wLanCtl_keeps ..)
      | refine Keeps.reach (fun _ _ => ?_) ?_ ?_

theorem execLaneTestWrite_keeps (i : Itf) (m : Fin 18) (v : Word) (s : State) : OutKeeps 26200866663425 s (execLaneTestWrite i m v s) := by
  unfold execLaneTestWrite
  try dsimp only
  repeat' first
    | exact (rfl : (_ : Bool) = _)
    | with_reducible first
      | exact Keeps.refl ..
      | assumption
      | refine OutKeeps.next ?_
      | apply Keeps.step (State.wLanCtl_keeps ..)
      | refine Keeps.reach (fun _ _ => ?_) ?_ ?_

theorem execLaneTrimDone_keeps (m : Fin 18) (slow : Word) (fast : Word) (s : State) : OutKeeps 98305 s (execLaneTrimDone m slow fast s) := by
  unfold execLaneTrimDone
  try dsimp only
  repeat' first
    | exact (rfl : (_ : Bool) = _)
    | with_reducible first
      | exact Keeps.refl ..
      | refine OutKeeps.next ?_
      | refine OutKeeps.ite (fun _ => ?_) (fun _ => ?_)
      | refine Keeps.ite (fun _ => ?_) (fun _ => ?_)
      | apply Keeps.step (State.setB_keeps ..)
      | apply Keeps.step (State.modUnit_keeps ..)
      | apply Keeps.step (State.wr_keeps ..)
    | split

theorem execLaneUnitEvent_keeps (m : Fin 18) (ch : LaneChan) (steps : Nat) (s : State) : OutKeeps 2473972563969 s (execLaneUnitEvent m ch steps s) := by
  unfold execLaneUnitEvent
  try dsimp only
  repeat' first
    | exact (rfl : (_ : Bool) = _)
    | exact fun h => (listMod_length _ _ _).trans ((congrArg List.length (show _ = s.mac from (State.modUnit_keeps s _ _).same .mac (by decide))).symm.trans h.mac)
    | with_reducible first
      | exact Keeps.refl ..
      | assumption
      | refine OutKeeps.next ?_
      | refine OutKeeps.ite (fun _ => ?_) (fun _ => ?_)
      | refine Keeps.ite (fun _ => ?_) (fun _ => ?_)
      | apply Keeps.step (State.modUnit_keeps ..)
      | apply Keeps.step (State.sampleEvent_keeps ..)
      | apply Keeps.step (State.rxBegins_keeps ..)
      | apply Keeps.step (State.unitResult_keeps ..)
    | split

theorem execLaunchPassedNotUp_keeps (p : Fin 16) (bad : Option Nat) (s : State) : OutKeeps 21784275451905 s (execLaunchPassedNotUp p bad s) := by
  unfold execLaunchPassedNotUp
  try dsimp only
  repeat' first
    | exact (rfl : (_ : Bool) = _)
    | with_reducible first
      | exact Keeps.refl ..
      | assumption
      | refine OutKeeps.next ?_
      | refine OutKeeps.ite (fun _ => ?_) (fun _ => ?_)
      | refine Keeps.ite (fun _ => ?_) (fun _ => ?_)
      | apply Keeps.step (State.modPort_keeps ..)
      | apply Keeps.step (State.txFlush_keeps ..)
      | apply Keeps.step (State.txDrop_keeps ..)
      | apply Keeps.step (State.serveDue_keeps ..)
      | refine Keeps.foldl _ _ ?_ (fun _ _ _ => ?_)
    | split

theorem execLeapApplied_keeps (n : Fin 8) (s : State) : OutKeeps 2542624190467 s (execLeapApplied n s) := by
  unfold execLeapApplied
  try dsimp only
  repeat' first
    | exact (rfl : (_ : Bool) = _)
    | with_reducible first
      | exact Keeps.refl ..
      | refine OutKeeps.next ?_
      | refine OutKeeps.ite (fun _ => ?_) (fun _ => ?_)
      | refine Keeps.ite (fun _ => ?_) (fun _ => ?_)
      | apply Keeps.step (State.irq_keeps ..)
      | apply Keeps.step (State.modBase_keeps ..)
      | apply Keeps.step (State.slotPass_keeps ..)
      | apply Keeps.step (State.smearOpen_keeps ..)
      | apply Keeps.step (State.leapSets_keeps ..)
      | apply Keeps.step (State.synShift_keeps ..)
      | apply Keeps.step (State.raise_keeps ..)
      | apply Keeps.step (State.setLv_keeps ..)
      | apply Keeps.step (State.leapPps_keeps ..)
    | split

theorem execLinkAckTimeout_keeps (s : State) : OutKeeps 26199792918529 s (execLinkAckTimeout s) := by
  unfold execLinkAckTimeout
  try dsimp only
  repeat' first
    | exact (rfl : (_ : Bool) = _)
    | with_reducible first
      | exact Keeps.refl ..
      | refine OutKeeps.next ?_
      | refine OutKeeps.ite (fun _ => ?_) (fun _ => ?_)
      | refine Keeps.ite (fun _ => ?_) (fun _ => ?_)
      | apply Keeps.step (State.linkDown_keeps ..)
      | apply Keeps.step (State.linkEval_keeps ..)
      | apply Keeps.step (State.linkAfresh_keeps ..)
      | apply Keeps.step (State.laneSwap_keeps ..)
      | apply Keeps.step (State.modTnd_keeps ..)
    | split

theorem execLinkFaultReceived_keeps (p : Fin 16) (lf : Bool) (rf : Bool) (s : State) : OutKeeps 2199023255553 s (execLinkFaultReceived p lf rf s) := by
  unfold execLinkFaultReceived
  try dsimp only
  repeat' first
    | exact (rfl : (_ : Bool) = _)
    | with_reducible first
      | exact Keeps.refl ..
      | refine OutKeeps.next ?_
      | refine OutKeeps.ite (fun _ => ?_) (fun _ => ?_)
      | refine Keeps.ite (fun _ => ?_) (fun _ => ?_)
      | apply Keeps.step (State.setB_keeps ..)
      | apply Keeps.step (State.emit_keeps ..)
    | split

theorem execLinkFrameReceive_keeps (lane : Fin 2) (bytes : List Byte) (s : State) : OutKeeps 26234161045505 s (execLinkFrameReceive lane bytes s) := by
  unfold execLinkFrameReceive
  try dsimp only
  repeat' first
    | exact (rfl : (_ : Bool) = _)
    | with_reducible first
      | exact Keeps.refl ..
      | assumption
      | refine OutKeeps.next ?_
      | refine OutKeeps.ite (fun _ => ?_) (fun _ => ?_)
      | refine Keeps.ite (fun _ => ?_) (fun _ => ?_)
      | apply Keeps.step (State.rxState_keeps ..)
      | apply Keeps.step (State.countSat_keeps ..)
      | apply Keeps.step (State.irq_keeps ..)
      | apply Keeps.step (State.rxTwoway_keeps ..)
      | apply Keeps.step (State.rxPeerTime_keeps ..)
      | apply Keeps.step (State.linkAfresh_keeps ..)
      | apply Keeps.step (State.laneSwap_keeps ..)
      | apply Keeps.step (State.rxHello_keeps ..)
      | apply Keeps.step (State.spareTest_keeps ..)
      | apply Keeps.step (State.modTnd_keeps ..)
      | apply Keeps.step (State.linkAcked_keeps ..)
      | apply Keeps.step (State.linkPair_keeps ..)
      | apply Keeps.step (State.rxMirror_keeps ..)
      | apply Keeps.step (State.runRaise_keeps ..)
      | apply Keeps.step (State.candRound_keeps ..)
    | split

theorem execLinkFrameSend_keeps (due : LinkDue) (s : State) : OutKeeps 2199040032768 s (execLinkFrameSend due s) := by
  unfold execLinkFrameSend
  try dsimp only
  repeat' first
    | exact (rfl : (_ : Bool) = _)
    | with_reducible first
      | exact Keeps.refl ..
      | assumption
      | refine OutKeeps.next ?_
      | refine OutKeeps.ite (fun _ => ?_) (fun _ => ?_)
      | refine Keeps.ite (fun _ => ?_) (fun _ => ?_)
      | apply Keeps.step (State.linkSend_keeps ..)
      | apply Keeps.step (State.modTnd_keeps ..)
    | split

theorem execLinkRetry_keeps (s : State) : OutKeeps 2199040032768 s (execLinkRetry s) := by
  unfold execLinkRetry
  try dsimp only
  repeat' first
    | exact (rfl : (_ : Bool) = _)
    | with_reducible first
      | exact Keeps.refl ..
      | assumption
      | refine OutKeeps.next ?_
      | refine OutKeeps.ite (fun _ => ?_) (fun _ => ?_)
      | refine Keeps.ite (fun _ => ?_) (fun _ => ?_)
      | apply Keeps.step (State.linkEmit_keeps ..)
      | apply Keeps.step (State.modTnd_keeps ..)
      | refine Keeps.foldl _ _ ?_ (fun _ _ _ => ?_)
    | split

theorem execLinkUp_keeps (p : Fin 16) (s : State) : OutKeeps 21784275451905 s (execLinkUp p s) := by
  unfold execLinkUp
  try dsimp only
  repeat' first
    | exact (rfl : (_ : Bool) = _)
    | with_reducible first
      | exact Keeps.refl ..
      | refine OutKeeps.next ?_
      | refine OutKeeps.ite (fun _ => ?_) (fun _ => ?_)
      | refine Keeps.ite (fun _ => ?_) (fun _ => ?_)
      | apply Keeps.step (State.setPortSt_keeps ..)
      | apply Keeps.step (State.portGratuitous_keeps ..)
      | apply Keeps.step (State.wrN_keeps ..)
      | apply Keeps.step (State.raise_keeps ..)
    | split

theorem execLoAlarmClear_keeps (m : Fin 4) (s : State) : OutKeeps 8607403876353 s (execLoAlarmClear m s) := by
  unfold execLoAlarmClear
  try dsimp only
  repeat' first
    | exact (rfl : (_ : Bool) = _)
    | with_reducible first
      | exact Keeps.refl ..
      | refine OutKeeps.next ?_
      | apply Keeps.step (State.loAlarmOff_keeps ..)

theorem execLoAlarmSet_keeps (m : Fin 4) (s : State) : OutKeeps 8607405023233 s (execLoAlarmSet m s) := by
  unfold execLoAlarmSet
  try dsimp only
  repeat' first
    | exact (rfl : (_ : Bool) = _)
    | with_reducible first
      | exact Keeps.refl ..
      | refine OutKeeps.next ?_
      | refine OutKeeps.ite (fun _ => ?_) (fun _ => ?_)
      | refine Keeps.ite (fun _ => ?_) (fun _ => ?_)
      | apply Keeps.step (State.refIrq_keeps ..)
      | apply Keeps.step (State.setB_keeps ..)
      | apply Keeps.step (State.failSource_keeps ..)
      | apply Keeps.step (State.raise_keeps ..)
      | apply Keeps.step (State.activeBit_keeps ..)
    | split

theorem execLoConfigWrite_keeps (i : Itf) (m : Fin 4) (reg : LoReg) (v : Word) (s : State) : OutKeeps 8608478784513 s (execLoConfigWrite i m reg v s) := by
  unfold execLoConfigWrite
  try dsimp only
  repeat' first
    | exact (rfl : (_ : Bool) = _)
    | with_reducible first
      | exact Keeps.refl ..
      | assumption
      | refine OutKeeps.next ?_
      | apply Keeps.step (State.wLo_keeps ..)
      | refine Keeps.reach (fun _ _ => ?_) ?_ ?_

theorem execLoTempSample_keeps (t0 : Option (BitVec 16)) (t1 : Option (BitVec 16)) (t2 : Option (BitVec 16)) (t3 : Option (BitVec 16)) (s : State) : OutKeeps 68723671041 s (execLoTempSample t0 t1 t2 t3 s) := by
  unfold execLoTempSample
  try dsimp only
  repeat' first
    | exact (rfl : (_ : Bool) = _)
    | with_reducible first
      | exact Keeps.refl ..
      | refine OutKeeps.next ?_
      | apply Keeps.step (State.loTemp_keeps ..)

theorem execLoad_keeps (i : Itf) (slot : BitVec 6) (s : State) : OutKeeps 26235226401793 s (execLoad i slot s) := by
  unfold execLoad
  try dsimp only
  repeat' first
    | exact (rfl : (_ : Bool) = _)
    | with_reducible first
      | exact Keeps.refl ..
      | assumption
      | refine OutKeeps.next ?_
      | apply Keeps.step (State.keyRun_keeps ..)
      | refine Keeps.reach (fun _ _ => ?_) ?_ ?_

theorem execLoadData_keeps (i : Itf) (v : Word) (s : State) : OutKeeps 3093987068929 s (execLoadData i v s) := by
  unfold execLoadData
  try dsimp only
  repeat' first
    | exact (rfl : (_ : Bool) = _)
    | with_reducible first
      | exact Keeps.refl ..
      | assumption
      | refine OutKeeps.next ?_
      | apply Keeps.step (State.wLoadData_keeps ..)
      | refine Keeps.reach (fun _ _ => ?_) ?_ ?_

theorem execLoadGo_keeps (i : Itf) (s : State) : OutKeeps 3093987068929 s (execLoadGo i s) := by
  unfold execLoadGo
  try dsimp only
  repeat' first
    | exact (rfl : (_ : Bool) = _)
    | with_reducible first
      | exact Keeps.refl ..
      | assumption
      | refine OutKeeps.next ?_
      | apply Keeps.step (State.loadGo_keeps ..)
      | refine Keeps.reach (fun _ _ => ?_) ?_ ?_

theorem execLoadStart_keeps (i : Itf) (s : State) : OutKeeps 3093987068929 s (execLoadStart i s) := by
  unfold execLoadStart
  try dsimp only
  repeat' first
    | exact (rfl : (_ : Bool) = _)
    | with_reducible first
      | exact Keeps.refl ..
      | assumption
      | refine OutKeeps.next ?_
      | refine Keeps.reach (fun _ _ => ?_) ?_ ?_
      | apply Keeps.step (State.loadStart_keeps ..)

theorem execLockLost_keeps (m : Fin 18) (cause : LossCause) (eye : Nat) (s : State) : OutKeeps 26199792918529 s (execLockLost m cause eye s) := by
  unfold execLockLost
  try dsimp only
  repeat' first
    | exact (rfl : (_ : Bool) = _)
    | with_reducible first
      | exact Keeps.refl ..
      | assumption
      | refine OutKeeps.next ?_
      | refine OutKeeps.ite (fun _ => ?_) (fun _ => ?_)
      | refine Keeps.ite (fun _ => ?_) (fun _ => ?_)
      | apply Keeps.step (State.setB_keeps ..)
      | apply Keeps.step (State.modLane_keeps ..)
      | apply Keeps.step (State.laneTo_keeps ..)
      | apply Keeps.step (State.raise_keeps ..)
      | apply Keeps.step (State.laneTail_keeps ..)
    | split

theorem execLockPoint_keeps (ch : Chan) (s : State) : OutKeeps 4096 s (execLockPoint ch s) := by
  unfold execLockPoint
  try dsimp only
  repeat' first
    | exact (rfl : (_ : Bool) = _)
    | with_reducible first
      | exact Keeps.refl ..
      | assumption
      | refine OutKeeps.next ?_
      | refine OutKeeps.ite (fun _ => ?_) (fun _ => ?_)
      | refine Keeps.ite (fun _ => ?_) (fun _ => ?_)
      | apply Keeps.step (State.modChan_keeps ..)
    | split

theorem execLockTimeout_keeps (addr : Word) (master : Fin 5) (s : State) : OutKeeps 2542620639425 s (execLockTimeout addr master s) := by
  unfold execLockTimeout
  try dsimp only
  repeat' first
    | exact (rfl : (_ : Bool) = _)
    | with_reducible first
      | exact Keeps.refl ..
      | refine OutKeeps.next ?_
      | apply Keeps.step (State.complete_keeps ..)
      | apply Keeps.step (State.mtxErr_keeps ..)

theorem execLookup_keeps (i : Itf) (s : State) : OutKeeps 21785550523393 s (execLookup i s) := by
  unfold execLookup
  try dsimp only
  repeat' first
    | exact (rfl : (_ : Bool) = _)
    | with_reducible first
      | exact Keeps.refl ..
      | assumption
      | refine OutKeeps.next ?_
      | apply Keeps.step (State.cstLookup_keeps ..)
      | refine Keeps.reach (fun _ _ => ?_) ?_ ?_

theorem execLos_keeps (x : EdgeSrc) (s : State) : OutKeeps 8607405039617 s (execLos x s) := by
  unfold execLos
  try dsimp only
  repeat' first
    | exact (rfl : (_ : Bool) = _)
    | with_reducible first
      | exact Keeps.refl ..
      | refine OutKeeps.next ?_
      | refine OutKeeps.ite (fun _ => ?_) (fun _ => ?_)
      | refine Keeps.ite (fun _ => ?_) (fun _ => ?_)
      | apply Keeps.step (State.setLos_keeps ..)
    | split

theorem execMacCounterRead_keeps (i : Itf) (p : Fin 16) (c : Fin 24) (s : State) : OutKeeps 8655722786033 s (execMacCounterRead i p c s) := by
  unfold execMacCounterRead
  try dsimp only
  repeat' first
    | exact (rfl : (_ : Bool) = _)
    | with_reducible first
      | exact Keeps.refl ..
      | refine OutKeeps.next ?_
      | apply Keeps.step (State.hostRead_keeps ..)

theorem execMapHoldExpiry_keeps (n : Fin 8) (s : State) : OutKeeps 8607387090945 s (execMapHoldExpiry n s) := by
  unfold execMapHoldExpiry
  try dsimp only
  repeat' first
    | exact (rfl : (_ : Bool) = _)
    | with_reducible first
      | exact Keeps.refl ..
      | assumption
      | refine OutKeeps.next ?_
      | refine OutKeeps.ite (fun _ => ?_) (fun _ => ?_)
      | refine Keeps.ite (fun _ => ?_) (fun _ => ?_)
      | apply Keeps.step (State.mapForce_keeps ..)
    | split

theorem execMaskWindowEnd_keeps (b : Fin 21) (s : State) : OutKeeps 8589934592 s (execMaskWindowEnd b s) := by
  unfold execMaskWindowEnd
  try dsimp only
  repeat' first
    | exact (rfl : (_ : Bool) = _)
    | exact (rfl : (_ : List (Nat × Word × Word × Word × Word)) = _)
    | with_reducible first
      | exact Keeps.refl ..
      | refine OutKeeps.next ?_
    | with_reducible apply Keeps.step (Keeps.with_flt_log _ _ ?_)

theorem execMemberRejoin_keeps (m : Fin 4) (s : State) : OutKeeps 8607403868161 s (execMemberRejoin m s) := by
  unfold execMemberRejoin
  try dsimp only
  repeat' first
    | exact (rfl : (_ : Bool) = _)
    | with_reducible first
      | exact Keeps.refl ..
      | refine OutKeeps.next ?_
      | refine OutKeeps.ite (fun _ => ?_) (fun _ => ?_)
      | refine Keeps.ite (fun _ => ?_) (fun _ => ?_)
      | apply Keeps.step (State.ensStateEval_keeps ..)
      | apply Keeps.step (State.setMemState_keeps ..)
      | apply Keeps.step (State.wrN_keeps ..)
      | apply Keeps.step (State.raise_keeps ..)
    | split

theorem execMintDone_keeps (s : State) : OutKeeps 26182523289601 s (execMintDone s) := by
  unfold execMintDone
  try dsimp only
  repeat' first
    | exact (rfl : (_ : Bool) = _)
    | with_reducible first
      | exact Keeps.refl ..
      | assumption
      | refine OutKeeps.next ?_
      | refine OutKeeps.ite (fun _ => ?_) (fun _ => ?_)
      | refine Keeps.ite (fun _ => ?_) (fun _ => ?_)
      | apply Keeps.step (State.irq_keeps ..)
      | apply Keeps.step (State.wrN_keeps ..)
      | apply Keeps.step (State.raise_keeps ..)
      | apply Keeps.step (State.mintRun_keeps ..)
      | apply Keeps.step (Keeps.ofFst ‹_› (State.mintRun_keeps ..))
    | split

theorem execMintGo_keeps (i : Itf) (v : Word) (s : State) : OutKeeps 3093450198017 s (execMintGo i v s) := by
  unfold execMintGo
  try dsimp only
  repeat' first
    | exact (rfl : (_ : Bool) = _)
    | with_reducible first
      | exact Keeps.refl ..
      | assumption
      | refine OutKeeps.next ?_
      | apply Keeps.step (State.wMint_keeps ..)
      | refine Keeps.reach (fun _ _ => ?_) ?_ ?_

theorem execMonitorTick_keeps (s : State) : OutKeeps 8607403876353 s (execMonitorTick s) := by
  unfold execMonitorTick
  try dsimp only
  repeat' first
    | exact (rfl : (_ : Bool) = _)
    | exact Shape.lenOf (fun h => by first | (simp only [listMod_length, List.length_map, List.length_mapIdx, List.length_set, List.length_range, List.length_replicate, h.all, mapWf_nil, and_self]; done) | (simp [h.all, mapSet_wf]; done) | (split <;> simp [h.all] <;> done) | (constructor <;> split <;> simp [h.all] <;> done))
    | with_reducible first
      | exact Keeps.refl ..
      | refine OutKeeps.next ?_
      | refine OutKeeps.ite (fun _ => ?_) (fun _ => ?_)
      | refine Keeps.ite (fun _ => ?_) (fun _ => ?_)
      | apply Keeps.step (State.monitorOnce_keeps ..)
    | split
    | with_reducible apply Keeps.step (Keeps.with_ens _ _ ?_)

theorem execMsixUnmask_keeps (w : MsixWrite) (s : State) : OutKeeps 73048803770369 s (execMsixUnmask w s) := by
  unfold execMsixUnmask
  try dsimp only
  repeat' first
    | exact (rfl : (_ : Bool) = _)
    | with_reducible first
      | exact Keeps.refl ..
      | assumption
      | refine OutKeeps.next ?_
      | refine OutKeeps.ite (fun _ => ?_) (fun _ => ?_)
      | refine Keeps.ite (fun _ => ?_) (fun _ => ?_)
      | apply Keeps.step (State.bar4Put_keeps ..)
      | apply Keeps.step (State.setMask_keeps ..)
      | apply Keeps.step (State.mtxErr_keeps ..)
    | split

theorem execNonceRead_keeps (i : Itf) (s : State) : OutKeeps 8655722786033 s (execNonceRead i s) := by
  unfold execNonceRead
  try dsimp only
  repeat' first
    | exact (rfl : (_ : Bool) = _)
    | with_reducible first
      | exact Keeps.refl ..
      | refine OutKeeps.next ?_
      | apply Keeps.step (State.hostRead_keeps ..)

theorem execNtsRingWrite_keeps (i : Itf) (v : Word) (s : State) : OutKeeps 3093450198017 s (execNtsRingWrite i v s) := by
  unfold execNtsRingWrite
  try dsimp only
  repeat' first
    | exact (rfl : (_ : Bool) = _)
    | with_reducible first
      | exact Keeps.refl ..
      | assumption
      | refine OutKeeps.next ?_
      | apply Keeps.step (State.wNtsRing_keeps ..)
      | refine Keeps.reach (fun _ _ => ?_) ?_ ?_

theorem execOwnerBurnDone_keeps (missed : BitVec 520) (s : State) : OutKeeps 2474438033409 s (execOwnerBurnDone missed s) := by
  unfold execOwnerBurnDone
  try dsimp only
  repeat' first
    | exact (rfl : (_ : Bool) = _)
    | with_reducible first
      | exact Keeps.refl ..
      | refine OutKeeps.next ?_
      | refine OutKeeps.ite (fun _ => ?_) (fun _ => ?_)
      | refine Keeps.ite (fun _ => ?_) (fun _ => ?_)
      | apply Keeps.step (State.modImg_keeps' _ _ rfl)
      | apply Keeps.step (State.ownerEnd_keeps ..)
    | split

theorem execPairCheck_keeps (run : PairRun) (s : State) : OutKeeps 8650353549313 s (execPairCheck run s) := by
  unfold execPairCheck
  try dsimp only
  repeat' first
    | exact (rfl : (_ : Bool) = _)
    | with_reducible first
      | exact Keeps.refl ..
      | assumption
      | refine OutKeeps.next ?_
      | refine OutKeeps.ite (fun _ => ?_) (fun _ => ?_)
      | refine Keeps.ite (fun _ => ?_) (fun _ => ?_)
      | apply Keeps.step (State.pairAccess_keeps ..)
      | apply Keeps.step (State.pairUpset_keeps ..)
    | split

theorem execPauseExpire_keeps (p : Fin 16) (s : State) : OutKeeps 67108865 s (execPauseExpire p s) := by
  unfold execPauseExpire
  try dsimp only
  repeat' first
    | exact (rfl : (_ : Bool) = _)
    | with_reducible first
      | exact Keeps.refl ..
      | refine OutKeeps.next ?_
      | refine OutKeeps.ite (fun _ => ?_) (fun _ => ?_)
      | refine Keeps.ite (fun _ => ?_) (fun _ => ?_)
      | apply Keeps.step (State.pauseEnd_keeps ..)
    | split

theorem execPauseHoldoffEnd_keeps (p : Fin 16) (s : State) : OutKeeps 67108864 s (execPauseHoldoffEnd p s) := by
  unfold execPauseHoldoffEnd
  try dsimp only
  repeat' first
    | exact (rfl : (_ : Bool) = _)
    | with_reducible first
      | exact Keeps.refl ..
      | refine OutKeeps.next ?_
      | refine OutKeeps.ite (fun _ => ?_) (fun _ => ?_)
      | refine Keeps.ite (fun _ => ?_) (fun _ => ?_)
      | apply Keeps.step (State.modPort_keeps ..)
    | split

theorem execPauseWd_keeps (p : Fin 16) (s : State) : OutKeeps 2542687748097 s (execPauseWd p s) := by
  unfold execPauseWd
  try dsimp only
  repeat' first
    | exact (rfl : (_ : Bool) = _)
    | with_reducible first
      | exact Keeps.refl ..
      | refine OutKeeps.next ?_
      | refine OutKeeps.ite (fun _ => ?_) (fun _ => ?_)
      | refine Keeps.ite (fun _ => ?_) (fun _ => ?_)
      | apply Keeps.step (State.modPort_keeps ..)
      | apply Keeps.step (State.irq_keeps ..)
      | apply Keeps.step (State.raise_keeps ..)
      | apply Keeps.step (State.macCount_keeps ..)
      | apply Keeps.step (State.pauseEnd_keeps ..)
    | split

theorem execPcieLinkReset_keeps (e : LinkEvent) (s : State) : OutKeeps 77447991141441 s (execPcieLinkReset e s) := by
  unfold execPcieLinkReset
  try dsimp only
  repeat' first
    | exact (rfl : (_ : Bool) = _)
    | with_reducible first
      | exact Keeps.refl ..
      | assumption
      | refine OutKeeps.next ?_
      | refine OutKeeps.ite (fun _ => ?_) (fun _ => ?_)
      | refine Keeps.ite (fun _ => ?_) (fun _ => ?_)
      | apply Keeps.step (State.setB_keeps ..)
      | apply Keeps.step (State.setF_keeps ..)
      | apply Keeps.step (State.aerLog_keeps ..)
      | apply Keeps.step (State.linkReset_keeps ..)
      | apply Keeps.step (State.cfgWrite_keeps ..)
    | split

theorem execPeerStale_keeps (s : State) : OutKeeps 2542637416449 s (execPeerStale s) := by
  unfold execPeerStale
  try dsimp only
  repeat' first
    | exact (rfl : (_ : Bool) = _)
    | with_reducible first
      | exact Keeps.refl ..
      | refine OutKeeps.next ?_
      | refine OutKeeps.ite (fun _ => ?_) (fun _ => ?_)
      | refine Keeps.ite (fun _ => ?_) (fun _ => ?_)
      | apply Keeps.step (State.setB_keeps ..)
      | apply Keeps.step (State.irq_keeps ..)
      | apply Keeps.step (State.deafEval_keeps ..)
      | apply Keeps.step (State.wrN_keeps ..)
      | apply Keeps.step (State.raise_keeps ..)
      | apply Keeps.step (State.modTnd_keeps ..)
    | split

theorem execPllFail_keeps (m : Fin 18) (s : State) : OutKeeps 26199792918529 s (execPllFail m s) := by
  unfold execPllFail
  try dsimp only
  repeat' first
    | exact (rfl : (_ : Bool) = _)
    | with_reducible first
      | exact Keeps.refl ..
      | refine OutKeeps.next ?_
      | refine OutKeeps.ite (fun _ => ?_) (fun _ => ?_)
      | refine Keeps.ite (fun _ => ?_) (fun _ => ?_)
      | apply Keeps.step (State.irq_keeps ..)
      | apply Keeps.step (State.laneLp_keeps ..)
      | apply Keeps.step (State.laneTo_keeps ..)
      | apply Keeps.step (State.raise_keeps ..)
    | split

theorem execPowerOnReset_keeps (mainLost : Bool) (s : State) : OutKeeps 129742372077567 s (execPowerOnReset mainLost s) := by
  unfold execPowerOnReset
  try dsimp only
  repeat' first
    | exact (rfl : (_ : Bool) = _)
    | with_reducible first
      | exact Keeps.refl ..
      | refine OutKeeps.next ?_
      | apply Keeps.step (State.powerReset_keeps ..)

theorem execPpsEdge_keeps (k : Fin 4) (s : State) : OutKeeps 2199026405379 s (execPpsEdge k s) := by
  unfold execPpsEdge
  try dsimp only
  repeat' first
    | exact (rfl : (_ : Bool) = _)
    | with_reducible first
      | exact Keeps.refl ..
      | refine OutKeeps.next ?_
      | apply Keeps.step (State.ppsEdge_keeps ..)

theorem execPpsPulseEnd_keeps (k : Fin 4) (s : State) : OutKeeps 1 s (execPpsPulseEnd k s) := by
  unfold execPpsPulseEnd
  try dsimp only
  repeat' first
    | exact (rfl : (_ : Bool) = _)
    | with_reducible first
      | exact Keeps.refl ..
      | refine OutKeeps.next ?_
      | refine OutKeeps.ite (fun _ => ?_) (fun _ => ?_)
      | refine Keeps.ite (fun _ => ?_) (fun _ => ?_)
      | apply Keeps.step (State.setB_keeps ..)
    | split

theorem execPrbsChkLock_keeps (m : Fin 18) (rx : List Bool) (s : State) : OutKeeps 524289 s (execPrbsChkLock m rx s) := by
  unfold execPrbsChkLock
  try dsimp only
  repeat' first
    | exact (rfl : (_ : Bool) = _)
    | with_reducible first
      | exact Keeps.refl ..
      | refine OutKeeps.next ?_
      | refine OutKeeps.ite (fun _ => ?_) (fun _ => ?_)
      | refine Keeps.ite (fun _ => ?_) (fun _ => ?_)
      | apply Keeps.step (State.setB_keeps ..)
      | apply Keeps.step (State.chkCount_keeps ..)
    | split

theorem execPrbsErrRead_keeps (i : Itf) (m : Fin 18) (errs : Nat) (s : State) : OutKeeps 8655722786033 s (execPrbsErrRead i m errs s) := by
  unfold execPrbsErrRead
  try dsimp only
  repeat' first
    | exact (rfl : (_ : Bool) = _)
    | with_reducible first
      | exact Keeps.refl ..
      | refine OutKeeps.next ?_
      | apply Keeps.step (State.readBy_keeps ..)

theorem execPrbsInj_keeps (i : Itf) (m : Fin 18) (v : Word) (s : State) : OutKeeps 3093450722305 s (execPrbsInj i m v s) := by
  unfold execPrbsInj
  try dsimp only
  repeat' first
    | exact (rfl : (_ : Bool) = _)
    | with_reducible first
      | exact Keeps.refl ..
      | assumption
      | refine OutKeeps.next ?_
      | apply Keeps.step (State.wPrbsCtl_keeps ..)
      | refine Keeps.reach (fun _ _ => ?_) ?_ ?_

theorem execPrbsLockLost_keeps (m : Fin 18) (errs : Nat) (window : BitVec 64) (s : State) : OutKeeps 6940667674625 s (execPrbsLockLost m errs window s) := by
  unfold execPrbsLockLost
  try dsimp only
  repeat' first
    | exact (rfl : (_ : Bool) = _)
    | with_reducible first
      | exact Keeps.refl ..
      | refine OutKeeps.next ?_
      | refine OutKeeps.ite (fun _ => ?_) (fun _ => ?_)
      | refine Keeps.ite (fun _ => ?_) (fun _ => ?_)
      | apply Keeps.step (State.setB_keeps ..)
      | apply Keeps.step (State.countSat_keeps ..)
      | apply Keeps.step (State.irq_keeps ..)
      | apply Keeps.step (State.raise_keeps ..)
      | apply Keeps.step (State.prbsErrs_keeps ..)
    | split

theorem execPrfCounterRead_keeps (i : Itf) (k : Fin 256) (s : State) : OutKeeps 8655722786033 s (execPrfCounterRead i k s) := by
  unfold execPrfCounterRead
  try dsimp only
  repeat' first
    | exact (rfl : (_ : Bool) = _)
    | with_reducible first
      | exact Keeps.refl ..
      | refine OutKeeps.next ?_
      | apply Keeps.step (State.hostRead_keeps ..)

theorem execProvision_keeps (i : Itf) (s : State) : OutKeeps 21785550523393 s (execProvision i s) := by
  unfold execProvision
  try dsimp only
  repeat' first
    | exact (rfl : (_ : Bool) = _)
    | with_reducible first
      | exact Keeps.refl ..
      | assumption
      | refine OutKeeps.next ?_
      | apply Keeps.step (State.cstProvision_keeps ..)
      | refine Keeps.reach (fun _ _ => ?_) ?_ ?_

theorem execQualityInput_keeps (c : Fin 30) (qin : Word) (s : State) : OutKeeps 8607412264961 s (execQualityInput c qin s) := by
  unfold execQualityInput
  try dsimp only
  repeat' first
    | exact (rfl : (_ : Bool) = _)
    | with_reducible first
      | exact Keeps.refl ..
      | refine OutKeeps.next ?_
      | apply Keeps.step (State.qinUnc_keeps ..)
      | apply Keeps.step (State.qualityIn_keeps ..)
      | apply Keeps.step (State.candRound_keeps ..)

theorem execRailFault_keeps (rail : Fin 10) (s : State) : OutKeeps 2542620639233 s (execRailFault rail s) := by
  unfold execRailFault
  try dsimp only
  repeat' first
    | exact (rfl : (_ : Bool) = _)
    | with_reducible first
      | exact Keeps.refl ..
      | refine OutKeeps.next ?_
      | refine OutKeeps.ite (fun _ => ?_) (fun _ => ?_)
      | refine Keeps.ite (fun _ => ?_) (fun _ => ?_)
      | apply Keeps.step (State.setB_keeps ..)
      | apply Keeps.step (State.irq_keeps ..)
      | apply Keeps.step (State.raise_keeps ..)
    | split

theorem execRampDone_keeps (k : Fin 4) (edges : List (Fin 12 × List Nat)) (s : State) : OutKeeps 2542637809667 s (execRampDone k edges s) := by
  unfold execRampDone
  try dsimp only
  repeat' first
    | exact (rfl : (_ : Bool) = _)
    | with_reducible first
      | exact Keeps.refl ..
      | assumption
      | refine OutKeeps.next ?_
      | refine OutKeeps.ite (fun _ => ?_) (fun _ => ?_)
      | refine Keeps.ite (fun _ => ?_) (fun _ => ?_)
      | apply Keeps.step (State.guards_keeps ..)
      | apply Keeps.step (State.irq_keeps ..)
      | apply Keeps.step (State.raise_keeps ..)
      | apply Keeps.step (State.realignHere_keeps ..)
      | apply Keeps.step (State.setLv_keeps ..)
      | apply Keeps.step (State.synEnter_keeps ..)
    | split

theorem execRampFail_keeps (s : State) : OutKeeps 131941395333119 s (execRampFail s) := by
  unfold execRampFail
  try dsimp only
  repeat' first
    | exact (rfl : (_ : Bool) = _)
    | with_reducible first
      | exact Keeps.refl ..
      | assumption
      | refine OutKeeps.next ?_
      | refine OutKeeps.ite (fun _ => ?_) (fun _ => ?_)
      | refine Keeps.ite (fun _ => ?_) (fun _ => ?_)
      | apply Keeps.step (State.pwrRefuse_keeps ..)
      | apply Keeps.step (State.settle_keeps ..)
      | apply Keeps.step (State.domEnd_keeps ..)
      | apply Keeps.step (State.domGoOn_keeps ..)
    | split

theorem execRcRead_keeps (r : HostRead) (s : State) : OutKeeps 26248043048177 s (execRcRead r s) := by
  unfold execRcRead
  try dsimp only
  repeat' first
    | exact (rfl : (_ : Bool) = _)
    | with_reducible first
      | exact Keeps.refl ..
      | assumption
      | refine OutKeeps.next ?_
      | refine OutKeeps.ite (fun _ => ?_) (fun _ => ?_)
      | refine Keeps.ite (fun _ => ?_) (fun _ => ?_)
      | apply Keeps.step (State.bar4Read_keeps ..)
      | apply Keeps.step (State.complete_keeps ..)
      | apply Keeps.step (State.bar2Read_keeps ..)
      | apply Keeps.step (State.hostRead_keeps ..)
    | split

theorem execRecordClear_keeps (i : Itf) (worst : Bool) (s : State) : OutKeeps 3093450198017 s (execRecordClear i worst s) := by
  unfold execRecordClear
  try dsimp only
  repeat' first
    | exact (rfl : (_ : Bool) = _)
    | with_reducible first
      | exact Keeps.refl ..
      | assumption
      | refine OutKeeps.next ?_
      | refine OutKeeps.ite (fun _ => ?_) (fun _ => ?_)
      | refine Keeps.ite (fun _ => ?_) (fun _ => ?_)
      | apply Keeps.step (State.wRecord_keeps ..)
      | refine Keeps.reach (fun _ _ => ?_) ?_ ?_
    | split

theorem execRefinConfigWrite_keeps (i : Itf) (n : Fin 8) (reg : RefReg) (v : Word) (s : State) : OutKeeps 8608478784513 s (execRefinConfigWrite i n reg v s) := by
  unfold execRefinConfigWrite
  try dsimp only
  repeat' first
    | exact (rfl : (_ : Bool) = _)
    | with_reducible first
      | exact Keeps.refl ..
      | assumption
      | refine OutKeeps.next ?_
      | apply Keeps.step (State.wRefin_keeps ..)
      | refine Keeps.reach (fun _ _ => ?_) ?_ ?_

theorem execRegisterWrite_keeps (i : Itf) (off : Nat) (v : Word) (s : State) : OutKeeps 131941395333119 s (execRegisterWrite i off v s) := by
  unfold execRegisterWrite
  try dsimp only
  repeat' first
    | exact (rfl : (_ : Bool) = _)
    | with_reducible first
      | exact Keeps.refl ..
      | refine OutKeeps.next ?_
      | apply Keeps.step (State.hostStoreGo_keeps ..)

theorem execRelease_keeps (i : Itf) (s : State) : OutKeeps 21785550523393 s (execRelease i s) := by
  unfold execRelease
  try dsimp only
  repeat' first
    | exact (rfl : (_ : Bool) = _)
    | with_reducible first
      | exact Keeps.refl ..
      | assumption
      | refine OutKeeps.next ?_
      | refine Keeps.reach (fun _ _ => ?_) ?_ ?_
      | apply Keeps.step (State.cstRelease_keeps ..)

theorem execResetRelease_keeps (away : Nat) (boot : Fin 4) (unitB : Bool) (compat : Bool) (testN : Bool) (s : State) : OutKeeps 37762426208257 s (execResetRelease away boot unitB compat testN s) := by
  unfold execResetRelease
  try dsimp only
  repeat' first
    | exact (rfl : (_ : Bool) = _)
    | exact Shape.lenOf (fun h => by first | (simp only [listMod_length, List.length_map, List.length_mapIdx, List.length_set, List.length_range, List.length_replicate, h.all, mapWf_nil, and_self]; done) | (simp [h.all, mapSet_wf]; done) | (split <;> simp [h.all] <;> done) | (constructor <;> split <;> simp [h.all] <;> done))
    | with_reducible first
      | exact Keeps.refl ..
      | refine OutKeeps.next ?_
      | refine OutKeeps.ite (fun _ => ?_) (fun _ => ?_)
      | refine Keeps.ite (fun _ => ?_) (fun _ => ?_)
      | apply Keeps.step (State.setB_keeps ..)
      | apply Keeps.step (State.irq_keeps ..)
      | apply Keeps.step (State.setF_keeps ..)
      | apply Keeps.step (State.setPhase_keeps ..)
      | apply Keeps.step (State.sampleStraps_keeps ..)
      | apply Keeps.step (State.modKeys_keeps _ _ ?_)
    | split
    | with_reducible apply Keeps.step (Keeps.with_pwr ..)
    | with_reducible apply Keeps.step (Keeps.with_keys_faults _ _ _ ?_)

theorem execRxRingReset_keeps (i : Itf) (p : Fin 16) (v : Word) (s : State) : OutKeeps 3093450198017 s (execRxRingReset i p v s) := by
  unfold execRxRingReset
  try dsimp only
  repeat' first
    | exact (rfl : (_ : Bool) = _)
    | with_reducible first
      | exact Keeps.refl ..
      | assumption
      | refine OutKeeps.next ?_
      | refine Keeps.reach (fun _ _ => ?_) ?_ ?_
      | apply Keeps.step (State.wRxCtl_keeps ..)

theorem execRxTailWrite_keeps (i : Itf) (p : Fin 16) (v : Word) (s : State) : OutKeeps 3093450198017 s (execRxTailWrite i p v s) := by
  unfold execRxTailWrite
  try dsimp only
  repeat' first
    | exact (rfl : (_ : Bool) = _)
    | with_reducible first
      | exact Keeps.refl ..
      | assumption
      | refine OutKeeps.next ?_
      | apply Keeps.step (State.rwStore_keeps ..)
      | refine Keeps.reach (fun _ _ => ?_) ?_ ?_

theorem execScrubLine_keeps (errs : List EccHit) (s : State) : OutKeeps 21784493555713 s (execScrubLine errs s) := by
  unfold execScrubLine
  try dsimp only
  repeat' first
    | exact (rfl : (_ : Bool) = _)
    | with_reducible first
      | exact Keeps.refl ..
      | refine OutKeeps.next ?_
      | refine OutKeeps.ite (fun _ => ?_) (fun _ => ?_)
      | refine Keeps.ite (fun _ => ?_) (fun _ => ?_)
      | apply Keeps.step (State.tallyAdd_keeps ..)
      | apply Keeps.step (State.healthFall_keeps ..)
      | apply Keeps.step (State.modCst_keeps ..)
      | apply Keeps.step (State.meet_keeps ..)
      | apply Keeps.step (State.dramFail_keeps ..)
      | apply Keeps.step (State.count_keeps ..)
    | split

theorem execSelPrefWrite_keeps (i : Itf) (n : Fin 8) (v : Word) (s : State) : OutKeeps 8608477621249 s (execSelPrefWrite i n v s) := by
  unfold execSelPrefWrite
  try dsimp only
  repeat' first
    | exact (rfl : (_ : Bool) = _)
    | with_reducible first
      | exact Keeps.refl ..
      | assumption
      | refine OutKeeps.next ?_
      | apply Keeps.step (State.wSelCtl_keeps ..)
      | refine Keeps.reach (fun _ _ => ?_) ?_ ?_

theorem execServoUpdate_keeps (n : Fin 8) (s : State) : OutKeeps 8607472529409 s (execServoUpdate n s) := by
  unfold execServoUpdate
  try dsimp only
  repeat' first
    | exact (rfl : (_ : Bool) = _)
    | exact Shape.lenOf (fun h => by first | (simp only [listMod_length, List.length_map, List.length_mapIdx, List.length_set, List.length_range, List.length_replicate, h.all, mapWf_nil, and_self]; done) | (simp [h.all, mapSet_wf]; done) | (split <;> simp [h.all] <;> done) | (constructor <;> split <;> simp [h.all] <;> done))
    | with_reducible first
      | exact Keeps.refl ..
      | refine OutKeeps.next ?_
      | refine OutKeeps.ite (fun _ => ?_) (fun _ => ?_)
      | refine Keeps.ite (fun _ => ?_) (fun _ => ?_)
      | apply Keeps.step (State.servoTake_keeps ..)
    | split
    | with_reducible apply Keeps.step (Keeps.with_ens _ _ ?_)

theorem execSessionSweep_keeps (s : State) : OutKeeps 21234720964609 s (execSessionSweep s) := by
  unfold execSessionSweep
  try dsimp only
  repeat' first
    | exact (rfl : (_ : Bool) = _)
    | with_reducible first
      | exact Keeps.refl ..
      | assumption
      | refine OutKeeps.next ?_
      | refine OutKeeps.ite (fun _ => ?_) (fun _ => ?_)
      | refine Keeps.ite (fun _ => ?_) (fun _ => ?_)
      | apply Keeps.step (State.modCst_keeps ..)
      | apply Keeps.step (State.sweepSlot_keeps ..)
      | refine Keeps.foldl _ _ ?_ (fun _ _ _ => ?_)
    | split

theorem execSetRequire_keeps (i : Itf) (s : State) : OutKeeps 3093987068929 s (execSetRequire i s) := by
  unfold execSetRequire
  try dsimp only
  repeat' first
    | exact (rfl : (_ : Bool) = _)
    | with_reducible first
      | exact Keeps.refl ..
      | assumption
      | refine OutKeeps.next ?_
      | refine OutKeeps.ite (fun _ => ?_) (fun _ => ?_)
      | refine Keeps.ite (fun _ => ?_) (fun _ => ?_)
      | apply Keeps.step (State.ownerRequire_keeps ..)
      | refine Keeps.reach (fun _ _ => ?_) ?_ ?_
    | split

theorem execSignalAcquired_keeps (x : Signal) (bin : Int) (s : State) : OutKeeps 33554432 s (execSignalAcquired x bin s) := by
  unfold execSignalAcquired
  try dsimp only
  repeat' first
    | exact (rfl : (_ : Bool) = _)
    | with_reducible first
      | exact Keeps.refl ..
      | refine OutKeeps.next ?_
      | refine OutKeeps.ite (fun _ => ?_) (fun _ => ?_)
      | refine Keeps.ite (fun _ => ?_) (fun _ => ?_)
      | apply Keeps.step (State.modGns_keeps ..)
    | split

theorem execSlotArm_keeps (i : Itf) (k : Fin 64) (v : Word) (s : State) : OutKeeps 3093450206209 s (execSlotArm i k v s) := by
  unfold execSlotArm
  try dsimp only
  repeat' first
    | exact (rfl : (_ : Bool) = _)
    | with_reducible first
      | exact Keeps.refl ..
      | assumption
      | refine OutKeeps.next ?_
      | apply Keeps.step (State.wSlotCtl_keeps ..)
      | refine Keeps.reach (fun _ _ => ?_) ?_ ?_

theorem execSlotCancel_keeps (i : Itf) (k : Fin 64) (v : Word) (s : State) : OutKeeps 3093450206209 s (execSlotCancel i k v s) := by
  unfold execSlotCancel
  try dsimp only
  repeat' first
    | exact (rfl : (_ : Bool) = _)
    | with_reducible first
      | exact Keeps.refl ..
      | assumption
      | refine OutKeeps.next ?_
      | apply Keeps.step (State.wSlotCtl_keeps ..)
      | refine Keeps.reach (fun _ _ => ?_) ?_ ?_

theorem execSlotFire_keeps (k : Fin 64) (s : State) : OutKeeps 8607474626567 s (execSlotFire k s) := by
  unfold execSlotFire
  try dsimp only
  repeat' first
    | exact (rfl : (_ : Bool) = _)
    | with_reducible first
      | exact Keeps.refl ..
      | assumption
      | refine OutKeeps.next ?_
      | refine OutKeeps.ite (fun _ => ?_) (fun _ => ?_)
      | refine Keeps.ite (fun _ => ?_) (fun _ => ?_)
      | apply Keeps.step (State.setB_keeps ..)
      | apply Keeps.step (State.modSlot_keeps ..)
      | apply Keeps.step (State.raise_keeps ..)
      | apply Keeps.step (State.slotActions_keeps ..)
      | apply Keeps.step (State.count_keeps ..)
    | split

theorem execSmearWindowEnd_keeps (n : Fin 8) (s : State) : OutKeeps 8194 s (execSmearWindowEnd n s) := by
  unfold execSmearWindowEnd
  try dsimp only
  repeat' first
    | exact (rfl : (_ : Bool) = _)
    | with_reducible first
      | exact Keeps.refl ..
      | refine OutKeeps.next ?_
      | refine OutKeeps.ite (fun _ => ?_) (fun _ => ?_)
      | refine Keeps.ite (fun _ => ?_) (fun _ => ?_)
      | apply Keeps.step (State.modBase_keeps ..)
      | apply Keeps.step (State.setLv_keeps ..)
    | split

theorem execSmearWindowStart_keeps (n : Fin 8) (s : State) : OutKeeps 8192 s (execSmearWindowStart n s) := by
  unfold execSmearWindowStart
  try dsimp only
  repeat' first
    | exact (rfl : (_ : Bool) = _)
    | with_reducible first
      | exact Keeps.refl ..
      | refine OutKeeps.next ?_
      | apply Keeps.step (State.smearOpen_keeps ..)

theorem execSnapDone_keeps (i : Itf) (s : State) : OutKeeps 131941395333119 s (execSnapDone i s) := by
  unfold execSnapDone
  try dsimp only
  repeat' first
    | exact (rfl : (_ : Bool) = _)
    | exact Shape.lenOf (fun h => by first | (simp only [listMod_length, List.length_map, List.length_mapIdx, List.length_set, List.length_range, List.length_replicate, h.all, mapWf_nil, and_self]; done) | (simp [h.all, mapSet_wf]; done) | (split <;> simp [h.all] <;> done) | (constructor <;> split <;> simp [h.all] <;> done))
    | with_reducible first
      | exact Keeps.refl ..
      | assumption
      | refine OutKeeps.next ?_
      | apply Keeps.step (State.answer_keeps ..)
      | apply Keeps.step (State.irq_keeps ..)
      | apply Keeps.step (State.bankWr_keeps ..)
      | apply Keeps.step (State.captureEnd_keeps ..)
      | apply Keeps.step (State.settle_keeps ..)
      | apply Keeps.step (State.setSnap_keeps ..)
      | apply Keeps.step (State.modSpn_keeps _ _ ?_)
      | refine Keeps.foldl _ _ ?_ (fun _ _ _ => ?_)
    | split

theorem execSnapReq_keeps (i : Itf) (v : Word) (s : State) : OutKeeps 3093450206209 s (execSnapReq i v s) := by
  unfold execSnapReq
  try dsimp only
  repeat' first
    | exact (rfl : (_ : Bool) = _)
    | with_reducible first
      | exact Keeps.refl ..
      | assumption
      | refine OutKeeps.next ?_
      | apply Keeps.step (State.snapRequest_keeps ..)
      | refine Keeps.reach (fun _ _ => ?_) ?_ ?_

theorem execSpareCheck_keeps (errs : Nat) (s : State) : OutKeeps 6940684451841 s (execSpareCheck errs s) := by
  unfold execSpareCheck
  try dsimp only
  repeat' first
    | exact (rfl : (_ : Bool) = _)
    | with_reducible first
      | exact Keeps.refl ..
      | refine OutKeeps.next ?_
      | refine OutKeeps.ite (fun _ => ?_) (fun _ => ?_)
      | refine Keeps.ite (fun _ => ?_) (fun _ => ?_)
      | apply Keeps.step (State.setB_keeps ..)
      | apply Keeps.step (State.spareFrom_keeps ..)
      | apply Keeps.step (State.healthFall_keeps ..)
      | apply Keeps.step (State.prbsErrs_keeps ..)
    | split

theorem execSpineForceWrite_keeps (i : Itf) (v : Word) (s : State) : OutKeeps 8608477621249 s (execSpineForceWrite i v s) := by
  unfold execSpineForceWrite
  try dsimp only
  repeat' first
    | exact (rfl : (_ : Bool) = _)
    | with_reducible first
      | exact Keeps.refl ..
      | assumption
      | refine OutKeeps.next ?_
      | apply Keeps.step (State.wSpineCtl_keeps ..)
      | refine Keeps.reach (fun _ _ => ?_) ?_ ?_

theorem execStatusBankRead_keeps (i : Itf) (off : Nat) (s : State) : OutKeeps 8655722786033 s (execStatusBankRead i off s) := by
  unfold execStatusBankRead
  try dsimp only
  repeat' first
    | exact (rfl : (_ : Bool) = _)
    | with_reducible first
      | exact Keeps.refl ..
      | refine OutKeeps.next ?_
      | apply Keeps.step (State.hostRead_keeps ..)

theorem execStoreInit_keeps (trained : Bool) (s : State) : OutKeeps 26199619272705 s (execStoreInit trained s) := by
  unfold execStoreInit
  try dsimp only
  repeat' first
    | exact (rfl : (_ : Bool) = _)
    | with_reducible first
      | exact Keeps.refl ..
      | assumption
      | refine OutKeeps.next ?_
      | refine OutKeeps.ite (fun _ => ?_) (fun _ => ?_)
      | refine Keeps.ite (fun _ => ?_) (fun _ => ?_)
      | apply Keeps.step (State.storeReady_keeps ..)
      | apply Keeps.step (State.raise_keeps ..)
      | apply Keeps.step (State.healthFall_keeps ..)
      | apply Keeps.step (State.modCst_keeps ..)
      | apply Keeps.step (State.storeZero_keeps ..)
    | split

theorem structOf_wf (l : List ImgRec) (m : RegFile) (h : mapWf resetWord m = true) : ∀ x, structOf l m = .inr x → mapWf resetWord x = true := by
  induction l generalizing m with
  | nil => intro x hx; cases hx; exact h
  | cons r l ih =>
    intro x hx
    unfold structOf at hx
    dsimp only at hx
    split at hx
    · cases hx
    · exact ih _ (mapSet_wf _ _ _ _ h) x hx

theorem execStructChecked_keeps (s : State) : OutKeeps 53979148975935 s (execStructChecked s) := by
  unfold execStructChecked
  dsimp only
  split
  · exact OutKeeps.next (Keeps.refl _ _)
  · split
    · exact OutKeeps.next (Keeps.step (State.imageRefuse_keeps _ _ _) rfl (Keeps.refl _ _))
    · rename_i m hm
      split
      · exact OutKeeps.next (Keeps.step (State.imageRefuse_keeps _ _ _) rfl (Keeps.refl _ _))
      · split
        · exact OutKeeps.next (Keeps.step (State.imageRefuse_keeps _ _ _) rfl (Keeps.refl _ _))
        · refine OutKeeps.next (Keeps.step (State.setPhase_keeps _ _) rfl (Keeps.step (State.modImg_keeps s _ fun _ => ?_) rfl (Keeps.refl _ _)))
          exact mapSet_wf _ _ _ _ (mapSet_wf _ _ _ _ (structOf_wf _ _ rfl _ hm))

theorem execSynAlignStart_keeps (k : Fin 4) (edges : List (Fin 12 × List Nat)) (s : State) : OutKeeps 2542637809665 s (execSynAlignStart k edges s) := by
  unfold execSynAlignStart
  try dsimp only
  repeat' first
    | exact (rfl : (_ : Bool) = _)
    | with_reducible first
      | exact Keeps.refl ..
      | refine OutKeeps.next ?_
      | refine OutKeeps.ite (fun _ => ?_) (fun _ => ?_)
      | refine Keeps.ite (fun _ => ?_) (fun _ => ?_)
      | apply Keeps.step (State.guards_keeps ..)
      | apply Keeps.step (State.irq_keeps ..)
      | apply Keeps.step (State.raise_keeps ..)
      | apply Keeps.step (State.synAligned_keeps ..)
      | apply Keeps.step (State.count_keeps ..)
      | apply Keeps.step (State.synEnter_keeps ..)
    | split

theorem execSynLockingTimeout_keeps (k : Fin 4) (edges : List (Fin 12 × List Nat)) (s : State) : OutKeeps 2542637809665 s (execSynLockingTimeout k edges s) := by
  unfold execSynLockingTimeout
  try dsimp only
  repeat' first
    | exact (rfl : (_ : Bool) = _)
    | with_reducible first
      | exact Keeps.refl ..
      | refine OutKeeps.next ?_
      | refine OutKeeps.ite (fun _ => ?_) (fun _ => ?_)
      | refine Keeps.ite (fun _ => ?_) (fun _ => ?_)
      | apply Keeps.step (State.synRetry_keeps ..)
      | apply Keeps.step (State.guards_keeps ..)
    | split

theorem execSynLoopSettled_keeps (k : Fin 4) (edges : List (Fin 12 × List Nat)) (s : State) : OutKeeps 2542637809665 s (execSynLoopSettled k edges s) := by
  unfold execSynLoopSettled
  try dsimp only
  repeat' first
    | exact (rfl : (_ : Bool) = _)
    | with_reducible first
      | exact Keeps.refl ..
      | refine OutKeeps.next ?_
      | refine OutKeeps.ite (fun _ => ?_) (fun _ => ?_)
      | refine Keeps.ite (fun _ => ?_) (fun _ => ?_)
      | apply Keeps.step (State.guards_keeps ..)
      | apply Keeps.step (State.synEnter_keeps ..)
    | split

theorem execSynRealigned_keeps (k : Fin 4) (edges : List (Fin 12 × List Nat)) (s : State) : OutKeeps 2542637809665 s (execSynRealigned k edges s) := by
  unfold execSynRealigned
  try dsimp only
  repeat' first
    | exact (rfl : (_ : Bool) = _)
    | with_reducible first
      | exact Keeps.refl ..
      | refine OutKeeps.next ?_
      | refine OutKeeps.ite (fun _ => ?_) (fun _ => ?_)
      | refine Keeps.ite (fun _ => ?_) (fun _ => ?_)
      | apply Keeps.step (State.guards_keeps ..)
      | apply Keeps.step (State.synAligned_keeps ..)
      | apply Keeps.step (State.synEnter_keeps ..)
    | split

theorem execSynSearchDone_keeps (k : Fin 4) (found : Bool) (edges : List (Fin 12 × List Nat)) (s : State) : OutKeeps 2542637809665 s (execSynSearchDone k found edges s) := by
  unfold execSynSearchDone
  try dsimp only
  repeat' first
    | exact (rfl : (_ : Bool) = _)
    | with_reducible first
      | exact Keeps.refl ..
      | refine OutKeeps.next ?_
      | refine OutKeeps.ite (fun _ => ?_) (fun _ => ?_)
      | refine Keeps.ite (fun _ => ?_) (fun _ => ?_)
      | apply Keeps.step (State.synRetry_keeps ..)
      | apply Keeps.step (State.guards_keeps ..)
      | apply Keeps.step (State.setF_keeps ..)
      | apply Keeps.step (State.synEnter_keeps ..)
    | split

theorem execSynUnlock_keeps (k : Fin 4) (edges : List (Fin 12 × List Nat)) (s : State) : OutKeeps 2542637809665 s (execSynUnlock k edges s) := by
  unfold execSynUnlock
  try dsimp only
  repeat' first
    | exact (rfl : (_ : Bool) = _)
    | with_reducible first
      | exact Keeps.refl ..
      | refine OutKeeps.next ?_
      | refine OutKeeps.ite (fun _ => ?_) (fun _ => ?_)
      | refine Keeps.ite (fun _ => ?_) (fun _ => ?_)
      | apply Keeps.step (State.guards_keeps ..)
      | apply Keeps.step (State.irq_keeps ..)
      | apply Keeps.step (State.synSearch_keeps ..)
      | apply Keeps.step (State.raise_keeps ..)
    | split

theorem execSyncEmit_keeps (st : Stream) (launch : Nat) (s : State) : OutKeeps 21784543887361 s (execSyncEmit st launch s) := by
  unfold execSyncEmit
  try dsimp only
  repeat' first
    | exact (rfl : (_ : Bool) = _)
    | with_reducible first
      | exact Keeps.refl ..
      | assumption
      | refine OutKeeps.next ?_
      | refine OutKeeps.ite (fun _ => ?_) (fun _ => ?_)
      | refine Keeps.ite (fun _ => ?_) (fun _ => ?_)
      | apply Keeps.step (State.meetStream_keeps ..)
      | apply Keeps.step (State.buildLater_keeps ..)
      | apply Keeps.step (State.streamAuth_keeps ..)
      | apply Keeps.step (Keeps.ofSnd ‹_› (State.streamAuth_keeps ..))
      | apply Keeps.step (State.syncBuild_keeps ..)
      | apply Keeps.step (State.placeDone_keeps ..)
    | split

theorem execSynsLock_keeps (s : State) : OutKeeps 8607403876353 s (execSynsLock s) := by
  unfold execSynsLock
  try dsimp only
  repeat' first
    | exact (rfl : (_ : Bool) = _)
    | exact Shape.lenOf (fun h => by first | (simp only [listMod_length, List.length_map, List.length_mapIdx, List.length_set, List.length_range, List.length_replicate, h.all, mapWf_nil, and_self]; done) | (simp [h.all, mapSet_wf]; done) | (split <;> simp [h.all] <;> done) | (constructor <;> split <;> simp [h.all] <;> done))
    | with_reducible first
      | exact Keeps.refl ..
      | assumption
      | refine OutKeeps.next ?_
      | refine OutKeeps.ite (fun _ => ?_) (fun _ => ?_)
      | refine Keeps.ite (fun _ => ?_) (fun _ => ?_)
      | apply Keeps.step (State.setB_keeps ..)
      | apply Keeps.step (State.setF_keeps ..)
      | apply Keeps.step (State.boundEvalAll_keeps ..)
      | apply Keeps.step (State.count_keeps ..)
      | apply Keeps.step (State.modSpn_keeps _ _ ?_)
      | apply Keeps.step (State.forcedBit_keeps ..)
    | split

theorem execTallyCapture_keeps (step : Bool) (s : State) : OutKeeps 7494852149249 s (execTallyCapture step s) := by
  unfold execTallyCapture
  try dsimp only
  repeat' first
    | exact (rfl : (_ : Bool) = _)
    | with_reducible first
      | exact Keeps.refl ..
      | assumption
      | refine OutKeeps.next ?_
      | refine OutKeeps.ite (fun _ => ?_) (fun _ => ?_)
      | refine Keeps.ite (fun _ => ?_) (fun _ => ?_)
      | apply Keeps.step (State.countSat_keeps ..)
      | apply Keeps.step (State.irq_keeps ..)
      | apply Keeps.step (State.wrN_keeps ..)
      | apply Keeps.step (State.heldCount_keeps ..)
      | apply Keeps.step (State.runRaise_keeps ..)
    | split
    | with_reducible apply Keeps.step (Keeps.with_prf ..)

theorem execTampArmWrite_keeps (i : Itf) (v : Word) (intact : BitVec 4) (s : State) : OutKeeps 26235226401793 s (execTampArmWrite i v intact s) := by
  unfold execTampArmWrite
  try dsimp only
  repeat' first
    | exact (rfl : (_ : Bool) = _)
    | with_reducible first
      | exact Keeps.refl ..
      | assumption
      | refine OutKeeps.next ?_
      | refine Keeps.reach (fun _ _ => ?_) ?_ ?_
      | apply Keeps.step (State.wTampArm_keeps ..)

theorem execTamper_keeps (hit : TamperHit) (s : State) : OutKeeps 26234152656897 s (execTamper hit s) := by
  unfold execTamper
  try dsimp only
  repeat' first
    | exact (rfl : (_ : Bool) = _)
    | with_reducible first
      | exact Keeps.refl ..
      | refine OutKeeps.next ?_
      | refine OutKeeps.ite (fun _ => ?_) (fun _ => ?_)
      | refine Keeps.ite (fun _ => ?_) (fun _ => ?_)
      | apply Keeps.step (State.setB_keeps ..)
      | apply Keeps.step (State.tamperHit_keeps ..)
    | split

theorem execTiuCalEnd_keeps (k : Fin 12) (s500 : Nat) (s1000 : Nat) (s : State) : OutKeeps 8607405023233 s (execTiuCalEnd k s500 s1000 s) := by
  unfold execTiuCalEnd
  try dsimp only
  repeat' first
    | exact (rfl : (_ : Bool) = _)
    | with_reducible first
      | exact Keeps.refl ..
      | refine OutKeeps.next ?_
      | refine OutKeeps.ite (fun _ => ?_) (fun _ => ?_)
      | refine Keeps.ite (fun _ => ?_) (fun _ => ?_)
      | apply Keeps.step (State.calEnd_keeps ..)
    | split

theorem execTiuCalNow_keeps (i : Itf) (v : Word) (s : State) : OutKeeps 3093450296321 s (execTiuCalNow i v s) := by
  unfold execTiuCalNow
  try dsimp only
  repeat' first
    | exact (rfl : (_ : Bool) = _)
    | with_reducible first
      | exact Keeps.refl ..
      | assumption
      | refine OutKeeps.next ?_
      | apply Keeps.step (State.wCalCtl_keeps ..)
      | refine Keeps.reach (fun _ _ => ?_) ?_ ?_

theorem execTiuCalPeriod_keeps (k : Fin 12) (s : State) : OutKeeps 98305 s (execTiuCalPeriod k s) := by
  unfold execTiuCalPeriod
  try dsimp only
  repeat' first
    | exact (rfl : (_ : Bool) = _)
    | with_reducible first
      | exact Keeps.refl ..
      | refine OutKeeps.next ?_
      | refine OutKeeps.ite (fun _ => ?_) (fun _ => ?_)
      | refine Keeps.ite (fun _ => ?_) (fun _ => ?_)
      | apply Keeps.step (State.calTrigger_keeps ..)
    | split

theorem execTiuCalRetry_keeps (k : Fin 12) (s : State) : OutKeeps 98305 s (execTiuCalRetry k s) := by
  unfold execTiuCalRetry
  try dsimp only
  repeat' first
    | exact (rfl : (_ : Bool) = _)
    | with_reducible first
      | exact Keeps.refl ..
      | refine OutKeeps.next ?_
      | refine OutKeeps.ite (fun _ => ?_) (fun _ => ?_)
      | refine Keeps.ite (fun _ => ?_) (fun _ => ?_)
      | apply Keeps.step (State.modUnit_keeps ..)
      | apply Keeps.step (State.calTrigger_keeps ..)
    | split

theorem execTiuConfigWrite_keeps (i : Itf) (k : Fin 12) (v : Word) (s : State) : OutKeeps 3093451344897 s (execTiuConfigWrite i k v s) := by
  unfold execTiuConfigWrite
  try dsimp only
  repeat' first
    | exact (rfl : (_ : Bool) = _)
    | with_reducible first
      | exact Keeps.refl ..
      | assumption
      | refine OutKeeps.next ?_
      | apply Keeps.step (State.wTiuCtl_keeps ..)
      | refine Keeps.reach (fun _ _ => ?_) ?_ ?_

theorem execTiuConversionDone_keeps (k : Fin 12) (code : BitVec 12) (s : State) : OutKeeps 2542642761731 s (execTiuConversionDone k code s) := by
  unfold execTiuConversionDone
  try dsimp only
  repeat' first
    | exact (rfl : (_ : Bool) = _)
    | with_reducible first
      | exact Keeps.refl ..
      | assumption
      | refine OutKeeps.next ?_
      | refine OutKeeps.ite (fun _ => ?_) (fun _ => ?_)
      | refine Keeps.ite (fun _ => ?_) (fun _ => ?_)
      | apply Keeps.step (State.peerEdge_keeps ..)
      | apply Keeps.step (State.modUnit_keeps ..)
      | apply Keeps.step (State.c25Result_keeps ..)
      | apply Keeps.step (State.sampleEvent_keeps ..)
      | apply Keeps.step (State.ppsAlign_keeps ..)
      | apply Keeps.step (State.unitResult_keeps ..)
    | split

theorem execTiuDensityTest_keeps (k : Fin 12) (nl : List Int) (s500 : Nat) (s1000 : Nat) (s : State) : OutKeeps 8607405023233 s (execTiuDensityTest k nl s500 s1000 s) := by
  unfold execTiuDensityTest
  try dsimp only
  repeat' first
    | exact (rfl : (_ : Bool) = _)
    | with_reducible first
      | exact Keeps.refl ..
      | refine OutKeeps.next ?_
      | refine OutKeeps.ite (fun _ => ?_) (fun _ => ?_)
      | refine Keeps.ite (fun _ => ?_) (fun _ => ?_)
      | apply Keeps.step (State.modUnit_keeps ..)
      | apply Keeps.step (State.calEnd_keeps ..)
    | split

theorem execTiuEvent_keeps (k : Fin 12) (spacing : Nat) (s : State) : OutKeeps 8607405039617 s (execTiuEvent k spacing s) := by
  unfold execTiuEvent
  try dsimp only
  repeat' first
    | exact (rfl : (_ : Bool) = _)
    | with_reducible first
      | exact Keeps.refl ..
      | assumption
      | refine OutKeeps.next ?_
      | refine OutKeeps.ite (fun _ => ?_) (fun _ => ?_)
      | refine Keeps.ite (fun _ => ?_) (fun _ => ?_)
      | apply Keeps.step (State.countSat_keeps ..)
      | apply Keeps.step (State.modUnit_keeps ..)
      | apply Keeps.step (State.setGross_keeps ..)
    | split

theorem execTiuResultRead_keeps (i : Itf) (u : TiuId) (s : State) : OutKeeps 8655722786033 s (execTiuResultRead i u s) := by
  unfold execTiuResultRead
  try dsimp only
  repeat' first
    | exact (rfl : (_ : Bool) = _)
    | with_reducible first
      | exact Keeps.refl ..
      | refine OutKeeps.next ?_
      | apply Keeps.step (State.hostRead_keeps ..)

theorem execTndLinkDown_keeps (s : State) : OutKeeps 26199792918529 s (execTndLinkDown s) := by
  unfold execTndLinkDown
  try dsimp only
  repeat' first
    | exact (rfl : (_ : Bool) = _)
    | with_reducible first
      | exact Keeps.refl ..
      | refine OutKeeps.next ?_
      | refine OutKeeps.ite (fun _ => ?_) (fun _ => ?_)
      | refine Keeps.ite (fun _ => ?_) (fun _ => ?_)
      | apply Keeps.step (State.linkDown_keeps ..)
      | apply Keeps.step (State.linkEval_keeps ..)
    | split

theorem execTodMessage_keeps (k : Fin 2) (s : State) : OutKeeps 2199025352705 s (execTodMessage k s) := by
  unfold execTodMessage
  try dsimp only
  repeat' first
    | exact (rfl : (_ : Bool) = _)
    | exact Shape.lenOf (fun h => by first | (simp only [listMod_length, List.length_map, List.length_mapIdx, List.length_set, List.length_range, List.length_replicate, h.all, mapWf_nil, and_self]; done) | (simp [h.all, mapSet_wf]; done) | (split <;> simp [h.all] <;> done) | (constructor <;> split <;> simp [h.all] <;> done))
    | with_reducible first
      | exact Keeps.refl ..
      | assumption
      | refine OutKeeps.next ?_
      | refine OutKeeps.ite (fun _ => ?_) (fun _ => ?_)
      | refine Keeps.ite (fun _ => ?_) (fun _ => ?_)
      | apply Keeps.step (State.setB_keeps ..)
      | apply Keeps.step (State.setF_keeps ..)
      | apply Keeps.step (State.emit_keeps ..)
    | split
    | with_reducible apply Keeps.step (Keeps.with_tod _ _ ?_)

theorem execTodMessageEnd_keeps (k : Fin 2) (s : State) : OutKeeps 8607474626567 s (execTodMessageEnd k s) := by
  unfold execTodMessageEnd
  try dsimp only
  repeat' first
    | exact (rfl : (_ : Bool) = _)
    | with_reducible first
      | exact Keeps.refl ..
      | assumption
      | refine OutKeeps.next ?_
      | refine OutKeeps.ite (fun _ => ?_) (fun _ => ?_)
      | refine Keeps.ite (fun _ => ?_) (fun _ => ?_)
      | apply Keeps.step (State.setB_keeps ..)
      | apply Keeps.step (State.modChan_keeps ..)
      | apply Keeps.step (State.goLive_keeps ..)
    | split

theorem execTraceSecond_keeps (s : State) : OutKeeps 4209336385537 s (execTraceSecond s) := by
  unfold execTraceSecond
  try dsimp only
  repeat' first
    | exact (rfl : (_ : Bool) = _)
    | with_reducible first
      | exact Keeps.refl ..
      | refine OutKeeps.next ?_
      | refine OutKeeps.ite (fun _ => ?_) (fun _ => ?_)
      | refine Keeps.ite (fun _ => ?_) (fun _ => ?_)
      | apply Keeps.step (State.secondRecords_keeps ..)
    | split
    | with_reducible apply Keeps.step (Keeps.with_trace ..)

theorem execTrainDone_keeps (m : Fin 18) (s : State) : OutKeeps 26199792918529 s (execTrainDone m s) := by
  unfold execTrainDone
  try dsimp only
  repeat' first
    | exact (rfl : (_ : Bool) = _)
    | with_reducible first
      | exact Keeps.refl ..
      | refine OutKeeps.next ?_
      | refine OutKeeps.ite (fun _ => ?_) (fun _ => ?_)
      | refine Keeps.ite (fun _ => ?_) (fun _ => ?_)
      | apply Keeps.step (State.setB_keeps ..)
      | apply Keeps.step (State.setF_keeps ..)
      | apply Keeps.step (State.laneTo_keeps ..)
      | apply Keeps.step (State.emit_keeps ..)
    | split

theorem execTrainFail_keeps (m : Fin 18) (signal : Bool) (s : State) : OutKeeps 26199792918529 s (execTrainFail m signal s) := by
  unfold execTrainFail
  try dsimp only
  repeat' first
    | exact (rfl : (_ : Bool) = _)
    | with_reducible first
      | exact Keeps.refl ..
      | refine OutKeeps.next ?_
      | refine OutKeeps.ite (fun _ => ?_) (fun _ => ?_)
      | refine Keeps.ite (fun _ => ?_) (fun _ => ?_)
      | apply Keeps.step (State.irq_keeps ..)
      | apply Keeps.step (State.laneTo_keeps ..)
      | apply Keeps.step (State.raise_keeps ..)
      | apply Keeps.step (State.count_keeps ..)
    | split

theorem execTrained_keeps (m : Fin 4) (s : State) : OutKeeps 8607403868161 s (execTrained m s) := by
  unfold execTrained
  try dsimp only
  repeat' first
    | exact (rfl : (_ : Bool) = _)
    | with_reducible first
      | exact Keeps.refl ..
      | refine OutKeeps.next ?_
      | refine OutKeeps.ite (fun _ => ?_) (fun _ => ?_)
      | refine Keeps.ite (fun _ => ?_) (fun _ => ?_)
      | apply Keeps.step (State.ensStateEval_keeps ..)
      | apply Keeps.step (State.setMemState_keeps ..)
      | apply Keeps.step (State.raise_keeps ..)
    | split

theorem execTrefFixed_keeps (m : Fin 4) (s : State) : OutKeeps 4194305 s (execTrefFixed m s) := by
  unfold execTrefFixed
  try dsimp only
  repeat' first
    | exact (rfl : (_ : Bool) = _)
    | with_reducible first
      | exact Keeps.refl ..
      | refine OutKeeps.next ?_
      | refine OutKeeps.ite (fun _ => ?_) (fun _ => ?_)
      | refine Keeps.ite (fun _ => ?_) (fun _ => ?_)
      | apply Keeps.step (State.setF_keeps ..)
      | apply Keeps.step (State.modMember_keeps ..)
    | split

theorem execTxFrameEnd_keeps (p : Fin 16) (bad : Option Nat) (s : State) : OutKeeps 21784275451905 s (execTxFrameEnd p bad s) := by
  unfold execTxFrameEnd
  try dsimp only
  repeat' first
    | exact (rfl : (_ : Bool) = _)
    | with_reducible first
      | exact Keeps.refl ..
      | assumption
      | refine OutKeeps.next ?_
      | refine OutKeeps.ite (fun _ => ?_) (fun _ => ?_)
      | refine Keeps.ite (fun _ => ?_) (fun _ => ?_)
      | apply Keeps.step (State.modPort_keeps ..)
      | apply Keeps.step (State.txFlush_keeps ..)
      | apply Keeps.step (State.txCounts_keeps ..)
      | apply Keeps.step (State.txOwe_keeps ..)
      | apply Keeps.step (State.txRecords_keeps ..)
      | apply Keeps.step (State.serveDue_keeps ..)
      | apply Keeps.step (State.emit_keeps ..)
    | split

theorem execTxFrameFetch_keeps (p : Fin 16) (descs : List (Option (List Byte))) (bufs : List (Option (List Byte))) (bad : Option Nat) (s : State) : OutKeeps 21784141234177 s (execTxFrameFetch p descs bufs bad s) := by
  unfold execTxFrameFetch
  try dsimp only
  repeat' first
    | exact (rfl : (_ : Bool) = _)
    | with_reducible first
      | exact Keeps.refl ..
      | refine OutKeeps.next ?_
      | apply Keeps.step (State.txFlush_keeps ..)
      | apply Keeps.step (State.txFetch_keeps ..)

theorem execTxFrameStart_keeps (p : Fin 16) (pos : TxPos) (skip : Fin 21) (bad : Option Nat) (s : State) : OutKeeps 21784275550209 s (execTxFrameStart p pos skip bad s) := by
  unfold execTxFrameStart
  try dsimp only
  repeat' first
    | exact (rfl : (_ : Bool) = _)
    | with_reducible first
      | exact Keeps.refl ..
      | assumption
      | refine OutKeeps.next ?_
      | refine OutKeeps.ite (fun _ => ?_) (fun _ => ?_)
      | refine Keeps.ite (fun _ => ?_) (fun _ => ?_)
      | apply Keeps.step (State.lateFrames_keeps ..)
      | apply Keeps.step (State.txFlush_keeps ..)
      | apply Keeps.step (State.txBegin_keeps ..)
      | apply Keeps.step (State.serveDue_keeps ..)
    | split

theorem execTxRingReset_keeps (i : Itf) (p : Fin 16) (v : Word) (s : State) : OutKeeps 3093517306881 s (execTxRingReset i p v s) := by
  unfold execTxRingReset
  try dsimp only
  repeat' first
    | exact (rfl : (_ : Bool) = _)
    | with_reducible first
      | exact Keeps.refl ..
      | assumption
      | refine OutKeeps.next ?_
      | apply Keeps.step (State.wTxCtl_keeps ..)
      | refine Keeps.reach (fun _ _ => ?_) ?_ ?_

theorem execTxTailWrite_keeps (i : Itf) (p : Fin 16) (v : Word) (s : State) : OutKeeps 3093450198017 s (execTxTailWrite i p v s) := by
  unfold execTxTailWrite
  try dsimp only
  repeat' first
    | exact (rfl : (_ : Bool) = _)
    | with_reducible first
      | exact Keeps.refl ..
      | assumption
      | refine OutKeeps.next ?_
      | apply Keeps.step (State.rwStore_keeps ..)
      | refine Keeps.reach (fun _ _ => ?_) ?_ ?_

theorem execUnpin_keeps (i : Itf) (s : State) : OutKeeps 21785550523393 s (execUnpin i s) := by
  unfold execUnpin
  try dsimp only
  repeat' first
    | exact (rfl : (_ : Bool) = _)
    | with_reducible first
      | exact Keeps.refl ..
      | assumption
      | refine OutKeeps.next ?_
      | apply Keeps.step (State.cstUnpin_keeps ..)
      | refine Keeps.reach (fun _ _ => ?_) ?_ ?_

theorem execVanePpsEdge_keeps (sec : Nat) (s : State) : OutKeeps 8607438594049 s (execVanePpsEdge sec s) := by
  unfold execVanePpsEdge
  try dsimp only
  repeat' first
    | exact (rfl : (_ : Bool) = _)
    | with_reducible first
      | exact Keeps.refl ..
      | assumption
      | refine OutKeeps.next ?_
      | refine OutKeeps.ite (fun _ => ?_) (fun _ => ?_)
      | refine Keeps.ite (fun _ => ?_) (fun _ => ?_)
      | apply Keeps.step (State.edgeMoved_keeps ..)
      | apply Keeps.step (State.modGns_keeps ..)
      | apply Keeps.step (State.emit_keeps ..)
    | split

theorem execVbatLoss_keeps (cellLost : Bool) (s : State) : OutKeeps 35433480193 s (execVbatLoss cellLost s) := by
  unfold execVbatLoss
  try dsimp only
  repeat' first
    | exact (rfl : (_ : Bool) = _)
    | exact Shape.lenOf (fun h => by first | (simp only [listMod_length, List.length_map, List.length_mapIdx, List.length_set, List.length_range, List.length_replicate, h.all, mapWf_nil, and_self]; done) | (simp [h.all, mapSet_wf]; done) | (split <;> simp [h.all] <;> done) | (constructor <;> split <;> simp [h.all] <;> done))
    | with_reducible first
      | exact Keeps.refl ..
      | refine OutKeeps.next ?_
      | refine OutKeeps.ite (fun _ => ?_) (fun _ => ?_)
      | refine Keeps.ite (fun _ => ?_) (fun _ => ?_)
      | apply Keeps.step (State.wr64_keeps ..)
      | apply Keeps.step (State.setBurnPending_keeps ..)
      | apply Keeps.step (State.wr_keeps ..)
      | apply Keeps.step (State.chestClear_keeps ..)
      | apply Keeps.step (State.modKeys_keeps _ _ ?_)
    | split
    | with_reducible apply Keeps.step (Keeps.with_pwr ..)

theorem execWarmupEnd_keeps (m : Fin 4) (s : State) : OutKeeps 8607403876353 s (execWarmupEnd m s) := by
  unfold execWarmupEnd
  try dsimp only
  repeat' first
    | exact (rfl : (_ : Bool) = _)
    | with_reducible first
      | exact Keeps.refl ..
      | refine OutKeeps.next ?_
      | refine OutKeeps.ite (fun _ => ?_) (fun _ => ?_)
      | refine Keeps.ite (fun _ => ?_) (fun _ => ?_)
      | apply Keeps.step (State.showMember_keeps ..)
      | apply Keeps.step (State.ensStateEval_keeps ..)
      | apply Keeps.step (State.setMemState_keeps ..)
      | apply Keeps.step (State.takeFrees_keeps ..)
      | apply Keeps.step (Keeps.ofSnd ‹_› (State.takeFrees_keeps ..))
      | apply Keeps.step (State.modMember_keeps ..)
      | apply Keeps.step (State.carrierEval_keeps ..)
      | apply Keeps.step (State.takeFree_keeps ..)
      | apply Keeps.step (Keeps.ofSnd ‹_› (State.takeFree_keeps ..))
    | split

theorem execWatchRound_keeps (s : State) : OutKeeps 131941395333119 s (execWatchRound s) := by
  unfold execWatchRound
  try dsimp only
  repeat' first
    | exact (rfl : (_ : Bool) = _)
    | with_reducible first
      | exact Keeps.refl ..
      | refine OutKeeps.next ?_
      | apply Keeps.step (State.settle_keeps ..)
      | apply Keeps.step (State.fltRound_keeps ..)

theorem execZeroise_keeps (i : Itf) (burn : Bool) (s : State) : OutKeeps 26235226401793 s (execZeroise i burn s) := by
  unfold execZeroise
  try dsimp only
  repeat' first
    | exact (rfl : (_ : Bool) = _)
    | with_reducible first
      | exact Keeps.refl ..
      | assumption
      | refine OutKeeps.next ?_
      | refine OutKeeps.ite (fun _ => ?_) (fun _ => ?_)
      | refine Keeps.ite (fun _ => ?_) (fun _ => ?_)
      | apply Keeps.step (State.keyRun_keeps ..)
      | refine Keeps.reach (fun _ _ => ?_) ?_ ?_
    | split

end Sys2Proof.Machine
end

