-- ==== Sys2Proof/WellFormed.lean ====
section
/-! DEFINITION. What a command must look like for the outside world to be able to send it: the ranges that the operands' types do not
already give. `exec` gives every command a meaning all the same; a sender keeps to these. -/
namespace Sys2Proof

/-- A BAR0 offset (R391, R397): below 64 MB, as the sideband's bits [31:26] are 0. -/
def offOk (a : Nat) : Bool := decide (a < 0x4000000)

/-- The offset of a 32-bit register (R12). -/
def regOk (a : Nat) : Bool := offOk a && decide (a % 4 = 0)

/-- A time of the base in seconds: 48 bits (R55). -/
def secOk (t : Nat) : Bool := decide (t < 2 ^ 48)

/-- A word that the ECC of the store covers is aligned (R326). -/
def eccOk (l : List EccHit) : Bool := l.all (fun h => decide (h.addr.toNat % 8 = 0))

/-- What a read of host memory brings, where it completes, is a nonempty list of bytes. -/
def bytesOk (l : List (Option (List Byte))) : Bool := l.all (fun d => match d with | some b => !b.isEmpty | none => true)

/-- A command that a sender can send. -/
def Instr.wellFormed : Instr → Bool
  | .registerWrite _ a _ => regOk a
  | .rcRead (.reg _ a) => regOk a
  | .rcRead (.zero a) => offOk a
  | .rcRead (.bar2 a n errs) => decide (0 < n) && decide (a.toNat + n ≤ 2 ^ 32) && eccOk errs
  | .absentAccess _ a _ => regOk a
  | .decodeMiss _ a _ => offOk a
  | .badAccess bar4 a _ => bar4 || offOk a
  | .gnssConfigChange _ a _ => regOk a
  | .statusBankRead _ a => regOk a
  | .dividedEdge _ spacing => decide (0 < spacing)
  | .tiuEvent _ spacing => decide (0 < spacing)
  | .tiuDensityTest _ nl _ _ => decide (nl.length = 64)
  | .vanePpsEdge sec => secOk sec
  | .signalAcquired _ bin => decide (bin.natAbs ≤ 12)
  | .gnssSolution q _ => secOk q.sec
  | .gnssMissingSecond q => secOk q.sec
  | .scrubLine errs => eccOk errs
  | .classify _ _ errs => eccOk errs
  | .bar2Write _ bytes => !bytes.isEmpty
  | .i2cWrite bytes => !bytes.isEmpty
  | .i2cRead bytes => !bytes.isEmpty
  | .hostRingDeliver _ descs _ => bytesOk descs
  | .txFrameFetch _ descs bufs _ => bytesOk descs && bytesOk bufs
  | .keysPhase _ bad => decide bad.Nodup
  | _ => true

end Sys2Proof
end

