-- ==== Sys2Proof/Tests/Slice0.lean ====
section
/-! SUPPORT. Tests: small states, one step on each of some commands with the result the manual states, terms that the well-formedness
checks refuse, and for each statement with hypotheses a state and operands that meet them together, one for each of its clauses. -/
-- One theorem after the other: in parallel the stacks of the waiting threads exceed the memory limit.
set_option Elab.async false
namespace Sys2Proof.Machine.Tests

/-! ### Small states -/

def st (l : List (Nat × Nat)) : State := l.foldl (fun s r => s.wrN r.1 r.2) State.reset
def run (l : List (Nat × Nat)) : State := st ((0x10, 0x90000000) :: l)
def on (l : List (Nat × Nat)) : State := run ((0x00100014, 0x3FF) :: l)
def car1 : State := on [(0x01100000, 0xF00), (0x01102008, 0x20), (0x01102048, 0x20), (0x01400104, 3), (0x01400144, 3), (0x01400140, 0x50000), (0x01000014, 0x20)]
def yoked : State := (on [(0x01000000, 0x203)]).setLv (tbOff 1 + 0x60) 0x10000
def refs : State := on [(0x01200000, 0xFFF), (0x01201104, 2), (0x01101088, 1), (0x01101084, 1), (0x01101080, 0x02030400)]
def tius : State := (car1.wrN 0x01200000 0xFFF |>.wrN 0x01201480 0x80000010).modUnit (.p 9) (fun u => { u with ready := true })
def sel1 : State := on [(0x01300000, 0x3FFFFFFF), (0x01301100, 0x80000000), (0x01301110, 6), (0x01301600, 0x80000000), (0x01301610, 6), (0x01201104, 2), (0x01200000, 0xFFF), (0x01000000, 1), (0x01303000, 4), (0x02001404, 0x50000000)]
def servo1 : State :=
  let s := on [(0x01000000, 1), (0x01400000, 0x1F0F), (0x01401004, 0x30000002 ||| (1 <<< 26)), (0x01201104, 2), (0x01200000, 0xFFF)]
  { s with tiuP := listMod s.tiuP 2 (fun u => { u with results := 3, resMean := 500, resIn := [500, 0, 0, 0, 0, 0, 0, 0], resEs := [7, 0, 0, 0, 0, 0, 0, 0] }) }
def traceSt : State := let s := on [(0x01000000, 3), (0x01500010, 0x301), (0x02300014, 0x80000000)]; { s with trace := { s.trace with started := true } }
def syn (q : Nat) : State := on [(synOff 1 + 4, q <<< 28)]
def pps1 : State := (((on [(0x01700000, 0x0F000000), (0x01000000, 1)]).setLv (ppsOff 1) 0x80000000).setLv (ppsOff 1 + 0x10) 1000000000).setLv (ppsOff 1 + 0x14) 100
def gns1 (q : Nat) : State :=
  let s := on [(0x01200000, 0xFFF), (0x01201084, 8), (0x01800014, q <<< 28), (0x0180002C, 0xFFFFFFFF), (0x01800020, 0x0505), (0x01800000, 3), (0x01800084, 64), (0x01800080, 0xD0000000)]
  { s with tiuP := listMod s.tiuP 1 (fun u => { u with results := 3, resMean := 500, resRestart := true, resIn := [500, 0, 0, 0, 0, 0, 0, 0], resEs := [7, 0, 0, 0, 0, 0, 0, 0] }) }
def qsec : GnssSecond := ⟨5, 1, 2, 3, 4, [], [], []⟩
def sig6 : List Signal := (List.range 6).map (fun i => ⟨0, BitVec.ofNat 8 (3 + i), 0⟩)
def qsec6 : GnssSecond := { qsec with obs := sig6.map (fun x => ⟨x, 11000, 30, 10, true⟩) }
def gsol6 : GnssSolution := ⟨100, 50, 9, 0, sig6.map (fun x => (x, 0, 0, 0)), (1, 2, 3), 400⟩
def gns6 (q : Nat) : State := (gns1 q).modGns (fun g => { g with tracked := sig6, utc := [⟨0, 37, 0, 0, 0⟩] })
def lane (c q : Nat) : State := on [(0x02000000, 0x3FFFF), (lanOff 1, c), (lanOff 1 + 4, q <<< 28)]
def portS (q : Nat) : State := (lane 0x80000003 5).wrN (macOff 1) 0x80000600 |>.wrN 0x02100000 0xFFFF |>.wrN (macOff 1 + 4) (q <<< 29 ||| 0x30) |>.wrN (macOff 1 + 8) 0x44332211 |>.wrN (macOff 1 + 0xC) 0x6655
def grpS (q : Nat) : State := [0, 1, 2, 3].foldl (fun s m => (s.wrN (lanOff m) 0x80000004).wrN (lanOff m + 4) (5 <<< 28)) (portS 0) |>.wrN 0x02100000 0xFFFFF |>.wrN (macOff 0) 0x80000600 |>.wrN (macOff 0 + 4) (q <<< 29 ||| 0x40)
def ftail (n : Nat) : List Byte := List.replicate n 7
def sealed (b : List Byte) : List Byte := b ++ leBytes 4 (crc32 b)
def frTo (m : List Byte) (e : Nat) (l : List Byte) : List Byte := let b := m ++ [1, 2, 3, 4, 5, 6] ++ beBytes 2 e ++ l; b ++ ftail (60 - b.length)
def portMac : List Byte := (portS 4).macReg (macOff 1 + 8)
def ksl : State := let s := on [(0x02400010, 0x0D), (slotOff 9, 0)]; { s with keys := { s.keys with rootField := 1, root := 5, derived := some (1, 2, 3) } }
def phaseSt (p : Nat) : State := st [(0x00000010, p <<< 28 ||| 0x80000)]
def secBytes (typ : Nat) (recs : List (Nat × Nat × Nat)) : List Byte :=
  let body := recs.flatMap (fun r => leBytes 4 r.1 ++ leBytes 4 r.2.1 ++ leBytes 4 r.2.2 ++ leBytes 4 0)
  leBytes 2 typ ++ leBytes 2 0 ++ leBytes 4 body.length ++ leBytes 4 (crc32c body) ++ leBytes 4 0 ++ body
def mkImage (dom : Nat) (st rg : List (Nat × Nat × Nat)) : List Byte :=
  let secs := secBytes 1 st ++ secBytes 2 rg
  let len := 64 + secs.length + 256
  let h := magic ++ leBytes 2 1 ++ leBytes 2 0x40 ++ leBytes 4 len ++ leBytes 4 7 ++ leBytes 2 0x9440 ++ [0, 0] ++ leBytes 4 0 ++ leBytes 2 dom ++ leBytes 2 2 ++ leBytes 4 9 ++ List.replicate 28 0
  h ++ leBytes 4 (crc32c h) ++ secs ++ List.replicate 256 0
def recs0 : List (Nat × Nat × Nat) := [(0x01000000, 0xFFFF, 1), (0x01800000, 0xF0000, 0xF0000)] ++ (List.range 8).map (fun k => (0x01201004 + k * 0x80, 0xF, 0xF))
def img0 : List Byte := mkImage 0x13 recs0 []
def imgSt (p : Nat) (b : List Byte) : State := (phaseSt p).modImg (fun m => { m with buf := b, regs := match structOf (imageRecords b 1) [] with | .inl _ => [] | .inr m => m })
def pkt1 : State := portS 4 |>.wrN 0x02200000 0xFFFFF |>.wrN (pktOff 1) 0xA0000000 |>.wrN (ifOff 0) 0xB0010000 |>.wrN (ifOff 0 + 0x10) 0x0A000001 |>.wrN 0x0220003C 0x00100010 |>.wrN 0x02200038 1000
def withFifo (s : State) (b : List Byte) : State := s.modPort 1 (fun x => { x with fifo := [⟨b, 5 * sec16, 7, [1], {}⟩] })
def arpReq : List Byte := List.replicate 6 0xFF ++ [1, 2, 3, 4, 5, 6] ++ [8, 6] ++ [0, 1, 8, 0, 6, 4, 0, 1] ++ [1, 2, 3, 4, 5, 6] ++ [10, 0, 0, 9] ++ List.replicate 6 0 ++ [10, 0, 0, 1] ++ List.replicate 18 0
def ntpReq : List Byte := portMac ++ [1, 2, 3, 4, 5, 6] ++ [8, 0] ++ [0x45, 0, 0, 76, 0, 0, 0, 0, 64, 17, 0, 0, 10, 0, 0, 9, 10, 0, 0, 1] ++ [0x12, 0x34, 0, 123, 0, 56, 0, 0] ++ [0x23] ++ List.replicate 47 0
def cli1 (q : Nat) : State := pkt1 |>.wrN (cliOff 1) 0x81000000 |>.wrN (cliOff 1 + 0x28) (q <<< 28)
def store : State := on [(0x02300014, 0x80000000), (0x02300010, 1), (0x02200000, 0xFFFFF), (0x02400010, 0xD), (0x02300110, 1)]
def stored (i : Nat) : State := ({ store with cst := { store.cst with used := [i] } }).wrN 0x02300108 i |>.setHot i 0 1 1
def kept : State :=
  match store.cstKey with
  | some k =>
    let h := store.hashOf k
    let s := store.mwrite (slotAddr 0) ([BitVec.ofNat 8 (1 + k.flags % 4 * 2), BitVec.ofNat 8 k.port] ++ leBytes 2 (k.vid + if k.flags / 4 % 2 = 1 then 0x8000 else 0) ++ k.addr ++ k.pid)
    { s.mwrite (entryAddr h.1 0) (leBytes 8 (h.2.2 + 2 ^ 63)) with cst := { s.cst with used := [0] } }
  | none => store
def gsol : GnssSolution := ⟨100, 50, 9, 0, [], (1, 2, 3), 400⟩


/-- The state after one command; the state itself where the command stops. -/
def after (c : Instr) (s : State) : State := match exec c s with
  | .next t => t
  | _ => s

/-- The worked example of 15: three messages latched in round 0x2A7. -/
def threeFaults : State :=
  let s := on [(0x00201000 + 4 * 0x58, 0x12110500)]
  { s with flt := { s.flt with round := 0x2A7 },
           faults := [⟨0x58, 0x02, 1, 0x25⟩, ⟨0x4C, 0x04, 2, 0x10000027⟩, ⟨0x65, 0x02, 2, 0x251E0C40⟩] }

/-! ### Results that the manual states -/

/-- 15, worked example: FLT_FIRST = FLT_WORST = 0x4C04_92A7, and their contexts 0x1000_0027. -/
theorem test_watchRound_first :
    (let t := after .watchRound threeFaults; (t.rd 0x00200030, t.rd 0x00200034, t.rd 0x00200038)) = (0x4C0492A7, 0x10000027, 0x4C0492A7) := by
  decide +kernel

/-- 15, worked example: LAN is reset with the masking of LAN, MAC, TIU, SEL and TND open, and FLT/BRESET has context 0x0000_8000. -/
theorem test_watchRound_breset :
    (let t := after .watchRound threeFaults; (t.maskedSrc 0x5C, t.maskedSrc 0x3C, t.maskedSrc 0x40, t.maskedSrc 0x4C, t.flt.windows.map (·.1))) = (true, true, true, false, [15]) := by
  decide +kernel

/-- 19, worked example: 0x0100_1538 is the slew of TB5, and absent where the image does not create TB5. -/
theorem test_absentAccess_tb5 :
    ((findReg 0x01001538).isSome, (run []).absent 0x01001538, (after (.absentAccess .pcie 0x01001538 none) (run [])).faults.map (fun m => m.ctx)) =
      (true, true, [0x01001538]) := by decide +kernel

/-- 19, worked example: a PCIe read of 0x0210_2CBC completes with Completer Abort and raises MTX/DECODE with context 0x0210_2CBC. -/
theorem test_decodeMiss_port7 :
    (let t := after (.decodeMiss .pcie 0x02102CBC none) (run []); (findReg 0x02102CBC, t.readOf .pcie, t.faults.map (fun m => m.ctx))) =
      (none, some { aborted := true }, [0x02102CBC]) := by decide +kernel

/-- 14, worked example: HEALTH 0xBFFF with PRIO 0x80 on unit A makes the claim 0x80BF_FF02. -/
theorem test_claimNow : (on [(0x02500010, 0x80000000), (0x02500014, 0x8000BFFF)]).claimNow = 0x80BFFF02 := by decide +kernel

/-- 14, worked example: the bound 4,762 units of a STANDBY unit scores 252, and 4,608 units of an ACTIVE one with TND_HYST 50 ns 255. -/
theorem test_boundScore :
    ((on [(0x01501000, 4762), (0x02500014, 0x40000000)]).boundScore, (on [(0x01501000, 4608), (0x02500014, 0x80000000), (0x02500040, 12800)]).boundScore) =
      (252, 255) := by decide +kernel

/-- 12, worked example: slot 0x4_A3C1 lies at 0x251E_0800. -/
theorem test_slotAddr : slotAddr 0x4A3C1 = 0x251E0800 := by decide

/-- 06, worked example: root dispersion of 43.42 ns is 1 unit. -/
theorem test_rootDispersion : rootDispersion 0x2B6C = 1 := by decide

/-- R62: a move of TB0 by 5 ns is one step, with one SPN/STEP. -/
theorem test_moveBase_step : ((on [(0x01000000, 1)]).moveBase 0 (5 * 2 ^ 40)).faults.length = 1 := by decide +kernel

/-- R420: START, one data word and its place in the buffer. -/
theorem test_loadData :
    (let t := after (.loadData .pcie 0x04030201) (after (.loadStart .pcie) (phaseSt 5)); t.rd 0x00000034) = 4 := by decide +kernel

/-- R446: PD5 without PD6 and PD7 is refused with code 1, DEPENDENCY. -/
theorem test_domReqWrite_dependency :
    (after (.domReqWrite .pcie 0x33) (run [(0x00100000, 0x3FF), (0x00100014, 0x13)])).f 0x00100014 27 24 = 1 := by decide +kernel

/-- R446: PD1 off is refused with code 3, ALWAYS_ON. -/
theorem test_domReqWrite_alwaysOn :
    (after (.domReqWrite .pcie 0x11) (run [(0x00100000, 0x3FF), (0x00100014, 0x13)])).f 0x00100014 27 24 = 3 := by decide +kernel

/-- R330: a BAR2 write to a session slot is discarded. -/
theorem test_bar2Write_slot : (after (.bar2Write 0x251E0800 [1]) store).mget 0x251E0800 = 0 := by decide +kernel

/-- R312: a BAR2 write into scratch stores its bytes. -/
theorem test_bar2Write_scratch : (after (.bar2Write 0xD0000000 [7, 8]) store).mread 0xD0000000 2 = [7, 8] := by decide +kernel

/-- R16 order: a write of 1 clears its bit, and an event after it sets it again. -/
theorem test_irqStatWrite :
    (let s := (run []).irq .spn 3
     let t := after (.irqStatWrite .pcie 6 8) s
     (s.b 0x01000030 3, t.b 0x01000030 3, (t.irq .spn 3).b 0x01000030 3)) = (true, false, true) := by decide +kernel

/-- R14, R17: a shadowed word waits for its commit. -/
theorem test_shadow_waits :
    (let t := after (.registerWrite .pcie 0x01001018 7) (on [(0x01000000, 1)]); (t.rd 0x01001018, t.lv 0x01001018)) = (7, 0) := by
  decide +kernel

/-- 16: SMBus CRC-8 with polynomial 0x07 and initial value 0x00, hand calculation: one byte 0x01 gives 0x07, and 0x80 gives 0x89. -/
theorem test_crc8 : (crc8 [1], crc8 [0x80]) = (7, 0x89) := by decide

/-- The block has no encoding of commands: no word spells one. -/
theorem test_decodeTableWord : decodeTableWord 32 0x12345678 = none := by decide

/-! ### Terms that no sender can send -/

theorem test_wf_registerWrite : (Instr.registerWrite .pcie 0x01000002 0).wellFormed = false := by decide
theorem test_wf_rcRead : (Instr.rcRead (.reg .pcie 0x04000000)).wellFormed = false := by decide
theorem test_wf_rcRead_bar2 : (Instr.rcRead (.bar2 0xFFFFFFFF 2 [])).wellFormed = false := by decide
theorem test_wf_tiuDensityTest : (Instr.tiuDensityTest 0 [] 0 0).wellFormed = false := by decide
theorem test_wf_signalAcquired : (Instr.signalAcquired ⟨0, 1, 0⟩ 13).wellFormed = false := by decide
theorem test_wf_absentAccess : (Instr.absentAccess .i2c 1 none).wellFormed = false := by decide
theorem test_wf_decodeMiss : (Instr.decodeMiss .pcie 0x04000000 none).wellFormed = false := by decide
theorem test_wf_badAccess : (Instr.badAccess false 0x04000000 true).wellFormed = false := by decide
theorem test_wf_gnssConfigChange : (Instr.gnssConfigChange .pcie 3 0).wellFormed = false := by decide
theorem test_wf_statusBankRead : (Instr.statusBankRead .pcie 5).wellFormed = false := by decide
theorem test_wf_dividedEdge : (Instr.dividedEdge (.refin 0) 0).wellFormed = false := by decide
theorem test_wf_tiuEvent : (Instr.tiuEvent 0 0).wellFormed = false := by decide
theorem test_wf_vanePpsEdge : (Instr.vanePpsEdge (2 ^ 48)).wellFormed = false := by decide
theorem test_wf_gnssMissingSecond : (Instr.gnssMissingSecond { qsec with sec := 2 ^ 48 }).wellFormed = false := by decide
theorem test_wf_gnssSolution : (Instr.gnssSolution { qsec with sec := 2 ^ 48 } gsol).wellFormed = false := by decide
theorem test_wf_scrubLine : (Instr.scrubLine [⟨4, false⟩]).wellFormed = false := by decide
theorem test_wf_classify : (Instr.classify 0 0 [⟨1, true⟩]).wellFormed = false := by decide
theorem test_wf_bar2Write : (Instr.bar2Write 0xD0000000 []).wellFormed = false := by decide
theorem test_wf_i2cWrite : (Instr.i2cWrite []).wellFormed = false := by decide
theorem test_wf_i2cRead : (Instr.i2cRead []).wellFormed = false := by decide
theorem test_wf_hostRingDeliver : (Instr.hostRingDeliver 0 [some []] none).wellFormed = false := by decide
theorem test_wf_txFrameFetch : (Instr.txFrameFetch 0 [some []] [] none).wellFormed = false := by decide
theorem test_wf_keysPhase : (Instr.keysPhase true [1, 1]).wellFormed = false := by decide
theorem test_wf_ok : (Instr.registerWrite .pcie 0x01000010 0).wellFormed = true := by decide

/-- A third of a second is no whole number of 2^-16 ns (R107): an edge on the second, one period late, is measured against the truncated
point before it (R108). -/
theorem test_unwrap_takes_the_point_of_its_edge : unwrapSample (3 * sec16) 21845333333333 3 = 21845333333334 := by decide

/-! ### Each statement's hypotheses are met together -/

theorem wit_AbsentAccessAnswersZeroOrIsDiscarded :
    (∃ (i : Itf) (off : Nat) (s : State), s.inv = true ∧ s.hostOn = true ∧ (s.running = true ∨ Blk.ofOff off = some .cfg) ∧ (findReg off).isSome = true
        ∧ s.absent off = true ∧ s.ramping off = false ∧ off ≠ 0x00200060 ∧ s.fenceHolds i off = false ∧ s.behind i off true = false)
    ∧ (∃ (i : Itf) (off : Nat) (s : State), s.inv = true ∧ s.hostOn = true ∧ (s.running = true ∨ Blk.ofOff off = some .cfg) ∧ (findReg off).isSome = true
        ∧ s.absent off = true ∧ s.ramping off = false ∧ s.behind i off false = false)
    ∧ (∃ (off : Nat) (s : State), s.inv = true ∧ s.hostOn = true ∧ (s.running = true ∨ Blk.ofOff off = some .cfg) ∧ findReg off = none ∧ off < 2 ^ 26) :=
  ⟨⟨.pcie, 0x01001018, run [], by decide +kernel⟩,
   ⟨.i2c, 0x01001018, run [], by decide +kernel⟩,
   ⟨0x000FFFF0, run [], by decide +kernel⟩⟩

theorem wit_Bar2WriteOutsideScratchIsDiscarded :
    ∃ (addr : Word) (bytes : List Byte) (s : State), s.inv = true ∧ s.fenceHolds .pcie 0x02300000 = false ∧ s.bar2Behind = false
        ∧ (s.cstReady = false ∨ inScratch addr.toNat bytes.length = false) :=
  ⟨0xC0000010, [1, 2, 3], store, by decide +kernel⟩

theorem wit_TallyCounterReadBanksItsHighBits :
    (∃ (i : Itf) (k : Fin 256) (s : State), s.inv = true ∧ s.reads i (0x00501000 + k.val * 8) = true ∧ (k.val < 0xA3 ∨ 0xB3 < k.val ∨ k.val % 4 ≠ 3))
    ∧ (∃ (i : Itf) (m : Fin 5) (k : Fin 256) (s : State), s.inv = true ∧ s.reads i (0x00501000 + k.val * 8) = true ∧ k.val = 0xA3 + 4 * m.val) :=
  ⟨⟨.pcie, 0xB4, on [] |>.tallyAdd 0xB4 0x500000002, by decide +kernel⟩,
   ⟨.pcie, 1, 0xA7, (on []).tallyAdd 0xA6 0x7, by decide +kernel⟩⟩

theorem wit_DomainRequestIsRefusedWithTheFirstCode :
    (∃ (i : Itf) (v : Word) (s : State), s.inv = true ∧ s.serves i 0x00100010 = true ∧ s.domBusy = false ∧ v.field 9 0 &&& s.f 0x00100000 9 0 ≠ v.field 9 0)
    ∧ (∃ (i : Itf) (v : Word) (s : State), s.inv = true ∧ s.serves i 0x00100010 = true ∧ s.domBusy = false
        ∧ v.field 9 0 &&& s.f 0x00100000 9 0 = v.field 9 0 ∧ v.field 9 0 &&& 0x13 ≠ 0x13)
    ∧ (∃ (i : Itf) (v : Word) (s : State), s.inv = true ∧ s.serves i 0x00100010 = true ∧ s.domBusy = false
        ∧ v.field 9 0 &&& s.f 0x00100000 9 0 = v.field 9 0 ∧ v.field 9 0 &&& 0x13 = 0x13 ∧ [(5, 6), (5, 7), (8, 2), (9, 2), (9,
        3)].any (fun p => (v.field 9 0).testBit p.1 && !(v.field 9 0).testBit p.2) = true) :=
  ⟨⟨.pcie, 0x3FF, on [], by decide +kernel⟩,
   ⟨.pcie, 3, on [(0x00100000, 0x3FF)], by decide +kernel⟩,
   ⟨.pcie, 0x33, on [(0x00100000, 0x3FF)], by decide +kernel⟩⟩

theorem wit_PlainWriteFollowsAccessCodes :
    ∃ (i : Itf) (a : Nat) (d : RegDesc) (b : Blk) (s : State), s.inv = true ∧ s.serves i a = true ∧ findReg a = some d ∧ Blk.ofOff a = some b
        ∧ (b = .mtx ∨ b = .syn ∨ b = .out) ∧ (∀ b ∈ Blk.all, a ≠ b.irqOff ∧ a ≠ b.irqOff + 4) ∧ shMask a = 0 ∧ (∀ ch ∈ allChans, chanOff ch + 8 ≠ a) :=
  ⟨.pcie, 0x00300010, ((findReg 0x00300010).getD ⟨0, 0, 1, 0, 1, 0, 0, 0, 0, 0, 0, 0, 0⟩), .mtx, run [], by decide +kernel⟩

theorem wit_ShadowWriteWaitsForItsCommit :
    (∃ (i : Itf) (a : Nat) (s : State), s.inv = true ∧ s.serves i a = true ∧ shMask a ≠ 0 ∧ (∀ b ∈ Blk.all, a ≠ b.irqOff ∧ a ≠ b.irqOff + 4)
        ∧ s.copying a = none)
    ∧ (∃ (i : Itf) (a : Nat) (ch : Chan) (s : State), s.inv = true ∧ s.serves i a = true ∧ shMask a ≠ 0 ∧ (∀ b ∈ Blk.all, a ≠ b.irqOff ∧ a ≠ b.irqOff + 4)
        ∧ s.copying a = some ch) :=
  ⟨⟨.i2c, 0x01001018, run [(0x01000000, 1), (0x00100014, 0x3FF)], by decide +kernel⟩,
   ⟨.i2c, 0x01001018, .tb 0, ((run [(0x01000000, 1), (0x00100014, 0x3FF)]).modChan (.tb 0) (fun c => { c with staging := some ⟨0, [], 0, false⟩ })), by decide +kernel⟩⟩

theorem wit_UnmappedAndBadAccessesAreReported :
    (∃ (off : Nat) (s : State), s.inv = true ∧ s.hostOn = true ∧ (s.running = true ∨ Blk.ofOff off = some .cfg) ∧ findReg off = none ∧ off < 2 ^ 26)
    ∧ (∃ (off : Nat) (s : State), s.inv = true ∧ s.hostOn = true ∧ (s.running = true ∨ Blk.ofOff off = some .cfg) ∧ findReg off = none ∧ off < 2 ^ 26)
    ∧ (∃ (addr : Nat) (s : State), s.inv = true ∧ s.hostOn = true ∧ s.running = true ∧ addr < 2 ^ 28)
    ∧ (∃ (addr : Nat) (s : State), s.inv = true ∧ s.hostOn = true ∧ s.running = true ∧ addr < 2 ^ 28) :=
  ⟨⟨0x000FFFF0, run [], by decide +kernel⟩,
   ⟨0x000FFFF0, run [], by decide +kernel⟩,
   ⟨0x13, run [], by decide +kernel⟩,
   ⟨0x13, run [], by decide +kernel⟩⟩

theorem wit_FenceOpensHoldsAndCompletes :
    (∃ (i : Itf) (s : State), s.inv = true ∧ s.serves i 0x00000100 = true ∧ s.running = true)
    ∧ (∃ (i : Itf) (a : Nat) (s : State), s.inv = true ∧ s.hostOn = true ∧ (findReg a).isSome = true ∧ a ≠ 0x00200060 ∧ s.running = true
        ∧ s.fenceHolds i a = true)
    ∧ (∃ (i : Itf) (f : Fence) (s : State), s.inv = true ∧ s.running = true ∧ s.fence i = some f ∧ s.fenceWaits i f.mask = false ∧ s.faults = []
        ∧ s.flt.split = [] ∧ s.heldP = [] ∧ s.heldI = [] ∧ s.maskedBits.testBit Blk.cfg.bit = false)
    ∧ (∃ (i : Itf) (f : Fence) (s : State), s.inv = true ∧ s.fence i = some f ∧ f.slow = false ∧ f.since + 2000000 ≤ s.spn.ticks)
    ∧ (∃ (i : Itf) (f : Fence) (s : State), s.inv = true ∧ s.fence i = some f ∧ (f.slow = true ∨ s.spn.ticks < f.since + 2000000)) :=
  ⟨⟨.pcie, run [], by decide +kernel⟩,
   ⟨.i2c, 0x01000010, { run [] with fenceI := some ⟨1, 64, 0, false⟩ }, by decide +kernel⟩,
   ⟨.i2c, ⟨1, 64, 0, false⟩, { run [] with fenceI := some ⟨1, 64, 0, false⟩ }, by decide +kernel⟩,
   ⟨.pcie, ⟨1, 64, 0, false⟩, { (run []).modSpn (fun p => { p with ticks := 2000000 }) with fenceP := some ⟨1, 64, 0, false⟩ }, by decide +kernel⟩,
   ⟨.pcie, ⟨1, 64, 0, true⟩, { run [] with fenceP := some ⟨1, 64, 0, true⟩ }, by decide +kernel⟩⟩

theorem wit_SnapshotCaptures :
    (∃ (i : Itf) (s : State), s.inv = true ∧ s.serves i 0x01000020 = true ∧ s.snapOf i = none)
    ∧ (∃ (i : Itf) (c : Nat × Bool) (s : State), s.inv = true ∧ s.serves i 0x01000020 = true ∧ s.snapOf i = some c)
    ∧ (∃ (i : Itf) (m : Nat) (s : State), s.inv = true ∧ s.snapOf i = some (m, true) ∧ (∀ h ∈ s.spn.snapHeld, h.itf ≠ i) ∧ s.heldP = [] ∧ s.heldI = [])
    ∧ (∃ (i : Itf) (m : Nat) (h : HeldWrite) (r : List HeldWrite) (s : State), s.inv = true ∧ s.snapOf i = some (m, true)
        ∧ s.spn.snapHeld.filter (fun h => h.itf = i) = h :: r ∧ s.heldP = [] ∧ s.heldI = []) :=
  ⟨⟨.pcie, run [], by decide +kernel⟩,
   ⟨.i2c, (1, true), (run []).modSpn (fun p => { p with snapI := some (1, true) }), by decide +kernel⟩,
   ⟨.i2c, 1, (run []).modSpn (fun p => { p with snapI := some (1, true) }), by decide +kernel⟩,
   ⟨.i2c, 1, ⟨.i2c, 0x01000020, 2, none, false, false, none⟩, [], (run []).modSpn (fun p => { p with snapI := some (1, true), snapHeld := [⟨.i2c, 0x01000020, 2, none, false, false, none⟩] }), by decide +kernel⟩⟩

theorem wit_CarrierFollowsTheEnsemble :
    (∃ (m : Fin 4) (s : State), s.inv = true ∧ s.stoodFirst m.val = true ∧ s.named ≠ some m.val)
    ∧ (∃ (m : Fin 4) (cur : Nat) (s : State), s.inv = true ∧ s.stoodFirst m.val = true ∧ s.named ≠ some m.val ∧ s.carrier = some cur ∧ cur ≠ m.val
        ∧ s.carOk cur = true ∧ s.b 0x01000010 4 = false ∧ s.b spineStat 6 = false)
    ∧ (∃ (r : Ramp) (s : State), s.inv = true ∧ s.spn.ramp = some r ∧ 200000000 ≤ r.ticks ∧ s.b spineStat 5 = true ∧ s.named = some s.ens.rampTo
        ∧ s.carOk s.ens.rampTo = true ∧ s.b 0x01000010 4 = false)
    ∧ (∃ (x : Nat) (s : State), s.inv = true ∧ s.b spineStat 5 = false ∧ s.wanted = some x)
    ∧ (∃ (i : Itf) (s : State), s.inv = true ∧ s.serves i 0x01000010 = true) :=
  ⟨⟨1, { car1.modSpn (fun p => { p with ticks := 120000000000 }) with ens := { car1.ens with first := some (1, 0) } }, by decide +kernel⟩,
   ⟨1, 0, { car1.modSpn (fun p => { p with ticks := 120000000000 }) with ens := { car1.ens with first := some (1, 0) } }, by decide +kernel⟩,
   ⟨⟨0, 5, 200000000⟩, let c := car1.modSpn (fun p => { p with ramp := some ⟨0, 5, 200000000⟩ }); { (c.wrN ensStat 0x180) with ens := { c.ens with rampTo := 1 } }, by decide +kernel⟩,
   ⟨1, (car1.setB spineStat 5 false).wrN ensStat 0x180, by decide +kernel⟩,
   ⟨.i2c, car1, by decide +kernel⟩⟩

theorem wit_SchedulerSlots :
    (∃ (i : Itf) (k : Fin 64) (v : Word) (s : State), s.inv = true ∧ s.serves i (spnSlot k.val) = true ∧ (s.slot k.val).armed = false
        ∧ (s.wr (spnSlot k.val) ((v ||| 0x80000000) &&& 0x271F0007)).slotCheck k.val = none)
    ∧ (∃ (i : Itf) (k : Fin 64) (v : Word) (r : Nat) (s : State), s.inv = true ∧ s.serves i (spnSlot k.val) = true ∧ (s.slot k.val).armed = false
        ∧ (s.wr (spnSlot k.val) ((v ||| 0x80000000) &&& 0x271F0007)).slotCheck k.val = some r)
    ∧ (∃ (i : Itf) (k : Fin 64) (v : Word) (s : State), s.inv = true ∧ s.serves i (spnSlot k.val) = true ∧ (s.slot k.val).armed = true ∧ v.bit 30 = false)
    ∧ (∃ (i : Itf) (k : Fin 64) (s : State), s.inv = true ∧ s.serves i (spnSlot k.val) = true ∧ (s.slot k.val).armed = true)
    ∧ (∃ (k : Fin 64) (s : State), s.inv = true ∧ (s.slot k.val).armed = true ∧ s.slotDue k.val = true ∧ (∀ j, j < k.val → s.slotDue j = false)
        ∧ (s.slot k.val).skip = none ∧ (s.slot k.val).late = false ∧ s.f (spnSlot k.val) 20 16 = 0)
    ∧ (∃ (k : Fin 64) (s : State), s.inv = true ∧ (s.slot k.val).armed = true ∧ s.slotDue k.val = true ∧ (∀ j, j < k.val → s.slotDue j = false)
        ∧ (s.slot k.val).skip = none ∧ (s.slot k.val).late = false ∧ s.f (spnSlot k.val) 20 16 = 2)
    ∧ (∃ (p : Fin 8) (s : State), s.inv = true ∧ (s.spn.evtOn.getD p.val []).any (fun x => decide (x.1 ≤ ((s.spn.ticks * nominalInc : Nat) : Int))) = true)
    ∧ (∃ (p : Fin 8) (s : State), s.inv = true ∧ (∀ x ∈ s.spn.evtOn.getD p.val [], ¬ x.1 ≤ ((s.spn.ticks * nominalInc : Nat) : Int))) :=
  ⟨⟨.pcie, 3, 0x20000000, on [(0x01000000, 1), (0x01002060 + 0x14, 5)], by decide +kernel⟩,
   ⟨.pcie, 3, 0, 6, on [], by decide +kernel⟩,
   ⟨.i2c, 3, 0, (on []).modSlot 3 (fun x => { x with armed := true }), by decide +kernel⟩,
   ⟨.pcie, 3, (on []).modSlot 3 (fun x => { x with armed := true }), by decide +kernel⟩,
   ⟨3, (on []).modSlot 3 (fun x => { x with armed := true }), by decide +kernel⟩,
   ⟨3, (on [(0x01002060, 0x20000)]).modSlot 3 (fun x => { x with armed := true }), by decide +kernel⟩,
   ⟨2, (on []).modSpn (fun x => { x with evtOn := [[], [], [(0, true), (9, true)], [], [], [], [], []] }), by decide +kernel⟩,
   ⟨2, (on []).modSpn (fun x => { x with evtOn := [[], [], [(9, true)], [], [], [], [], []] }), by decide +kernel⟩⟩

theorem wit_CommitsCopyCheckAndGoLive :
    (∃ (i : Itf) (ch : Chan) (s : State), s.inv = true ∧ s.serves i (chanOff ch + 8) = true ∧ (s.chan ch).staging = none)
    ∧ (∃ (i : Itf) (ch : Chan) (s : State), s.inv = true ∧ s.serves i (chanOff ch + 8) = true ∧ (s.chan ch).staging.isSome = true)
    ∧ (∃ (ch : Chan) (c : CommitSet) (code : Nat) (s : State), s.inv = true ∧ (s.chan ch).staging = some c ∧ (s.chan ch).held = [] ∧ s.heldP = []
        ∧ s.heldI = [] ∧ (s.modChan ch (fun x => { x with staging := none, held := [] })).commitCode ch c.boundary c.vals = some code)
    ∧ (∃ (ch : Chan) (c : CommitSet) (s : State), s.inv = true ∧ (s.chan ch).staging = some c ∧ (s.chan ch).held = [] ∧ s.heldP = [] ∧ s.heldI = []
        ∧ (s.modChan ch (fun x => { x with staging := none, held := [] })).commitCode ch c.boundary c.vals = none ∧ (s.chan ch).armed = none)
    ∧ (∃ (ch : Chan) (c : CommitSet) (s : State), s.inv = true ∧ (s.chan ch).armed = some c ∧ c.boundary ≠ 0 ∧ c.target ≤ s.tbTime (s.chanTb ch) + lockLead)
    ∧ (∃ (ch : Chan) (c : CommitSet) (s : State), s.inv = true ∧ (s.chan ch).armed = some c ∧ (c.boundary = 0 ∨ c.target ≤ s.tbTime (s.chanTb ch))
        ∧ (∀ k : Fin 4, ch ≠ .syn k ∧ ch ≠ .pps k) ∧ (∀ k : Fin 2, ch = .tod k → s.b (todOff k.val + 4) 0 = false))
    ∧ (∃ (k : Fin 4) (c : CommitSet) (s : State), s.inv = true ∧ (s.chan (.syn k)).armed = some c
        ∧ (c.boundary = 0 ∨ c.target ≤ s.tbTime (s.chanTb (.syn k))))
    ∧ (∃ (k : Fin 4) (c : CommitSet) (s : State), s.inv = true ∧ (s.chan (.pps k)).armed = some c
        ∧ (c.boundary = 0 ∨ c.target ≤ s.tbTime (s.chanTb (.pps k))))
    ∧ (∃ (k : Fin 2) (c : CommitSet) (s : State), s.inv = true ∧ (s.chan (.tod k)).armed = some c
        ∧ (c.boundary = 0 ∨ c.target ≤ s.tbTime (s.chanTb (.tod k))) ∧ s.b (todOff k.val + 4) 0 = true)
    ∧ (∃ (k : Fin 2) (s : State), s.inv = true ∧ s.b (todOff k.val + 4) 0 = true
        ∧ ((s.tod.getD k.val {}).ends ≤ s.tbTime (s.chanTb (.tod k)) ∨ (s.base (s.chanTb (.tod k))).steps ≠ (s.tod.getD k.val {}).steps)
        ∧ (s.chan (.tod k)).due = none)
    ∧ (∃ (k : Fin 2) (c : CommitSet) (s : State), s.inv = true ∧ s.b (todOff k.val + 4) 0 = true
        ∧ ((s.tod.getD k.val {}).ends ≤ s.tbTime (s.chanTb (.tod k)) ∨ (s.base (s.chanTb (.tod k))).steps ≠ (s.tod.getD k.val {}).steps)
        ∧ (s.chan (.tod k)).due = some c) :=
  ⟨⟨.pcie, .tb 0, on [(0x01000000, 0xFF), (0x01700000, 0x3F000FFF)], by decide +kernel⟩,
   ⟨.pcie, .tb 0, (let s := on [(0x01000000, 0xFF), (0x01700000, 0x3F000FFF), (0x01600000, 15)]; { s with  chans := s.chans.map (fun c => { c with staging := some ⟨0, [], 0, false⟩ }) }), by decide +kernel⟩,
   ⟨.tb 0, ⟨3, [], 0, false⟩, 7, (let s := on [(0x01000000, 0xFF), (0x01700000, 0x3F000FFF), (0x01600000, 15)]; { s with  chans := s.chans.map (fun c => { c with staging := some ⟨3, [], 0, false⟩ }) }), by decide +kernel⟩,
   ⟨.tb 0, ⟨0, [], 0, false⟩, (let s := on [(0x01000000, 0xFF), (0x01700000, 0x3F000FFF), (0x01600000, 15)]; { s with  chans := s.chans.map (fun c => { c with staging := some ⟨0, [], 0, false⟩ }) }), by decide +kernel⟩,
   ⟨.tb 0, ⟨1, [], 0, false⟩, (let s := on [(0x01000000, 0xFF), (0x01700000, 0x3F000FFF), (0x01600000, 15)]; { s with  chans := s.chans.map (fun c => { c with armed := some ⟨1, [], 0, false⟩ }) }), by decide +kernel⟩,
   ⟨.tb 0, ⟨0, [(0x01001018, 5, 3)], 0, false⟩, (let s := on [(0x01000000, 0xFF), (0x01700000, 0x3F000FFF), (0x01600000, 15)]; { s with pendSh := [(0x01001018, 3)], chans := s.chans.map (fun c => { c with armed := some ⟨0, [(0x01001018, 5, 3)], 0, false⟩ }) }), by decide +kernel⟩,
   ⟨1, ⟨0, [(0x01001018, 5, 3)], 0, false⟩, (let s := on [(0x01000000, 0xFF), (0x01700000, 0x3F000FFF), (0x01600000, 15)]; { s with pendSh := [(0x01001018, 3)], chans := s.chans.map (fun c => { c with armed := some ⟨0, [(0x01001018, 5, 3)], 0, false⟩ }) }), by decide +kernel⟩,
   ⟨1, ⟨0, [(0x01001018, 5, 3)], 0, false⟩, (let s := on [(0x01000000, 0xFF), (0x01700000, 0x3F000FFF), (0x01600000, 15)]; { s with pendSh := [(0x01001018, 3)], chans := s.chans.map (fun c => { c with armed := some ⟨0, [(0x01001018, 5, 3)], 0, false⟩ }) }), by decide +kernel⟩,
   ⟨1, ⟨0, [(0x01001018, 5, 3)], 0, false⟩, (let s := (on [(0x01000000, 0xFF), (0x01700000, 0x3F000FFF), (0x01600000, 15)]).setB (todOff 1 + 4) 0 true; { s with pendSh := [(0x01001018, 3)], chans := s.chans.map (fun c => { c with armed := some ⟨0, [(0x01001018, 5, 3)], 0, false⟩ }) }), by decide +kernel⟩,
   ⟨1, (on []).setB (todOff 1 + 4) 0 true, by decide +kernel⟩,
   ⟨1, ⟨0, [(0x01703040, 5, 3)], 0, false⟩, ((on []).setB (todOff 1 + 4) 0 true).modChan (.tod 1) (fun c => { c with due := some ⟨0, [(0x01703040, 5, 3)], 0, false⟩ }), by decide +kernel⟩⟩

theorem wit_LeapSecondsApply :
    (∃ (n : Fin 8) (s : State), s.inv = true ∧ s.tbOffsetYoked n.val = true ∧ (s.leapDir n.val = 1 ∨ s.leapDir n.val = 3)
        ∧ (s.base n.val).leapDone = false ∧ s.leapAt n.val ≤ s.tbSec (s.tbMaster n.val) ∧ (s.base n.val).smearing = false
        ∧ (s.smearWaits n.val && decide (s.smearStart2 n.val * (secU / 2) ≤ s.tbTime (s.tbMaster n.val))) = false)
    ∧ (∃ (n : Fin 8) (s : State), s.inv = true ∧ s.tbOffsetYoked n.val = true ∧ (s.leapDir n.val = 1 ∨ s.leapDir n.val = 3)
        ∧ (s.base n.val).leapDone = false ∧ s.leapAt n.val ≤ s.tbSec (s.tbMaster n.val) ∧ (s.base n.val).smearing = true)
    ∧ (∃ (n : Fin 8) (s : State), s.inv = true ∧ s.tbOffsetYoked n.val = true ∧ (s.leapDir n.val = 1 ∨ s.leapDir n.val = 3)
        ∧ (s.base n.val).leapDone = false ∧ s.leapAt n.val ≤ s.tbSec (s.tbMaster n.val)
        ∧ (s.smearWaits n.val && decide (s.smearStart2 n.val * (secU / 2) ≤ s.tbTime (s.tbMaster n.val))) = true)
    ∧ (∃ (n : Fin 8) (s : State), s.inv = true ∧ s.tbOffsetYoked n.val = true ∧ s.lb (tbOff n.val + 0x6C) 31 = true ∧ s.leapDir n.val ≠ 0
        ∧ (s.base n.val).smearing = false
        ∧ (2 * s.leapAt n.val - (if s.lb (tbOff n.val + 0x6C) 30 then 1 else 2) * s.smearW n.val) * (secU / 2) ≤ s.tbTime (s.tbMaster n.val)
        ∧ n.val < s.spn.bases.length)
    ∧ (∃ (n : Fin 8) (s : State), s.inv = true ∧ (s.base n.val).smearing = true ∧ (s.base n.val).leapDone = true
        ∧ (s.base n.val).winStart * (secU / 2) + s.smearW n.val * secU ≤ s.tbTime (s.tbMaster n.val)) :=
  ⟨⟨1, yoked, by decide +kernel⟩,
   ⟨1, yoked.modBase 1 (fun b => { b with smearing := true }), by decide +kernel⟩,
   ⟨1, yoked.setLv (tbOff 1 + 0x6C) 0xC0000010, by decide +kernel⟩,
   ⟨1, yoked.setLv (tbOff 1 + 0x6C) 0xC0000010, by decide +kernel⟩,
   ⟨1, (yoked.modBase 1 (fun b => { b with smearing := true, leapDone := true })).setLv (tbOff 1 + 0x6C) 0, by decide +kernel⟩⟩

theorem wit_InputSettingsAreCheckedWhole :
    (∃ (i : Itf) (n : Fin 8) (reg : RefReg) (v : Word) (s : State), s.inv = true ∧ s.serves i (refOff n.val + (refRegOff reg).1) = true
        ∧ (s.wr (refOff n.val + (refRegOff reg).1) (v &&& (refRegOff reg).2)).refinOk n = false)
    ∧ (∃ (i : Itf) (n : Fin 8) (reg : RefReg) (v : Word) (s : State), s.inv = true ∧ s.serves i (refOff n.val + (refRegOff reg).1) = true
        ∧ (s.wr (refOff n.val + (refRegOff reg).1) (v &&& (refRegOff reg).2)).refinOk n = true
        ∧ (s.wr (refOff n.val + (refRegOff reg).1) (v &&& (refRegOff reg).2)).refinKey n.val ≠ s.refinKey n.val)
    ∧ (∃ (i : Itf) (n : Fin 8) (reg : RefReg) (v : Word) (s : State), s.inv = true ∧ s.serves i (refOff n.val + (refRegOff reg).1) = true
        ∧ (s.wr (refOff n.val + (refRegOff reg).1) (v &&& (refRegOff reg).2)).refinOk n = true
        ∧ (s.wr (refOff n.val + (refRegOff reg).1) (v &&& (refRegOff reg).2)).refinKey n.val = s.refinKey n.val)
    ∧ (∃ (i : Itf) (m : Fin 4) (reg : LoReg) (v : Word) (s : State), s.inv = true ∧ s.serves i (loOff m.val + (loRegOff reg).1) = true
        ∧ (s.wr (loOff m.val + (loRegOff reg).1) (v &&& (loRegOff reg).2)).loOk m = false)
    ∧ (∃ (i : Itf) (m : Fin 4) (reg : LoReg) (v : Word) (s : State), s.inv = true ∧ s.serves i (loOff m.val + (loRegOff reg).1) = true
        ∧ (s.wr (loOff m.val + (loRegOff reg).1) (v &&& (loRegOff reg).2)).loOk m = true) :=
  ⟨⟨.pcie, 2, .div, 0, refs, by decide +kernel⟩,
   ⟨.pcie, 2, .div, 5, refs, by decide +kernel⟩,
   ⟨.i2c, 2, .ctl, 0x02040500, refs.wrN (refOff 2) 0x02030400, by decide +kernel⟩,
   ⟨.pcie, 1, .ctl, 0, car1, by decide +kernel⟩,
   ⟨.pcie, 1, .freq, 10000000, car1.wrN (loOff 1) 0x02030400, by decide +kernel⟩⟩

theorem wit_EdgesDriveTheInputMonitors :
    (∃ (src : EdgeSrc) (s : State), s.inv = true ∧ s.srcEn src = true ∧ s.srcOn src = true ∧ (s.monitor src).seen = false)
    ∧ (∃ (src : EdgeSrc) (spacing : Nat) (s : State), s.inv = true ∧ s.srcEn src = true ∧ s.srcOn src = true ∧ (s.monitor src).seen = true
        ∧ grossSpacing (s.fDiv src) spacing = false ∧ s.srcLos src = false ∧ s.srcGross src = false)
    ∧ (∃ (src : EdgeSrc) (spacing : Nat) (s : State), s.inv = true ∧ s.srcEn src = true ∧ s.srcOn src = true ∧ (s.monitor src).seen = true
        ∧ grossSpacing (s.fDiv src) spacing = false ∧ (s.srcLos src = true ∨ s.srcGross src = true) ∧ s.clrCnt src ≤ (s.monitor src).good + 1)
    ∧ (∃ (src : EdgeSrc) (spacing : Nat) (s : State), s.inv = true ∧ s.srcEn src = true ∧ s.srcOn src = true ∧ (s.monitor src).seen = true
        ∧ grossSpacing (s.fDiv src) spacing = true)
    ∧ (∃ (src : EdgeSrc) (s : State), s.inv = true ∧ (s.monitor src).lim.getD (s.losLim src) * 2000000000 ≤ (s.spn.ticks - (s.monitor src).at_) * s.fDiv src)
    ∧ (∃ (src : EdgeSrc) (s : State), s.inv = true ∧ (s.spn.ticks - (s.monitor src).at_) * s.fDiv src < (s.monitor src).lim.getD (s.losLim src) * 2000000000)
    ∧ (∃ (m : Fin 4) (s : State), s.inv = true ∧ s.b (loOff m.val) 7 = true ∧ s.running = true ∧ s.b (loOff m.val + 8) 4 = false
        ∧ (s.monitor (.lo m)).almFrom + 2000000 ≤ s.spn.ticks)
    ∧ (∃ (m : Fin 4) (s : State), s.inv = true ∧ s.b (loOff m.val + 8) 4 = true)
    ∧ (∃ (s : State), s.inv = true ∧ s.f 0x01100000 11 8 = 15)
    ∧ (∃ (s : State), s.inv = true ∧ s.f 0x01100000 11 8 = 15 ∧ s.b (loOff 0 + 8) 6 = false)
    ∧ (∃ (s : State), s.inv = true)
    ∧ (∃ (v : BitVec 16) (s : State), s.inv = true ∧ signedOf 16 (s.f 0x00100040 15 0) ≤ signedOf 16 v.toNat ∧ s.pwr.hot = false) :=
  ⟨⟨.vanePps, on [], by decide +kernel⟩,
   ⟨.refin 2, 1000000000000, ((refs.wrN (refOff 2) 0x82030400).wrN (refOff 2 + 0x10) 0).modMonitor (.refin 2) (fun m => { m with seen := true }), by decide +kernel⟩,
   ⟨.refin 2, 1000000000000, ((refs.wrN (refOff 2) 0x82030400).wrN (refOff 2 + 0x10) 2).modMonitor (.refin 2) (fun m => { m with seen := true, good := 3 }), by decide +kernel⟩,
   ⟨.refin 2, 1100000000000, ((refs.wrN (refOff 2) 0x82030400).wrN (refOff 2 + 0x10) 0).modMonitor (.refin 2) (fun m => { m with seen := true, good := 3 }), by decide +kernel⟩,
   ⟨.refin 2, (refs.wrN (refOff 2 + 0x10) 0).modSpn (fun p => { p with ticks := 6000000000 }), by decide +kernel⟩,
   ⟨.refin 2, refs.wrN (refOff 2 + 0x10) 0, by decide +kernel⟩,
   ⟨1, (car1.wrN (loOff 1) 0x80).modSpn (fun p => { p with ticks := 2000000 }), by decide +kernel⟩,
   ⟨1, car1.wrN (loOff 1 + 8) 0x10, by decide +kernel⟩,
   ⟨car1, by decide +kernel⟩,
   ⟨car1, by decide +kernel⟩,
   ⟨on [], by decide +kernel⟩,
   ⟨0x7900, on [], by decide +kernel⟩⟩

theorem wit_IntervalUnitsMeasure :
    (∃ (k : Fin 12) (spacing : Nat) (x : EdgeSrc) (s : State), s.inv = true ∧ s.unitSrc k = some x ∧ s.unitOn k = true ∧ 20000 ≤ spacing
        ∧ s.b (tiuOff (.p k)) 31 = true ∧ s.srcFailed x = false ∧ (s.unit (.p k)).ready = true ∧ (s.unit (.p k)).fails < 3
        ∧ (s.unit (.p k)).events % 2 ^ s.f (tiuOff (.p k)) 23 20 = 0)
    ∧ (∃ (k : Fin 12) (spacing : Nat) (x : EdgeSrc) (s : State), s.inv = true ∧ s.unitSrc k = some x ∧ s.unitOn k = true ∧ spacing < 20000)
    ∧ (∃ (k : Fin 12) (c : Capture) (rest : List Capture) (x : EdgeSrc) (s : State), s.inv = true ∧ (s.unit (.p k)).converting = c :: rest
        ∧ s.unitSrc k = some x ∧ s.unitOn k = true ∧ s.fDiv x ≠ 0)
    ∧ (∃ (i : Itf) (k : Fin 12) (v : Word) (s : State), s.inv = true ∧ 8 ≤ k.val ∧ s.serves i (tiuOff (.p k)) = true
        ∧ s.tiuOk k ((s.rd (tiuOff (.p k)) &&& ~~~0x8FF0FFFF) ||| (v &&& 0x8FF0FFFF)) = true)
    ∧ (∃ (i : Itf) (k : Fin 12) (v : Word) (s : State), s.inv = true ∧ k.val < 8 ∧ s.unitSrc k ≠ some .vanePps ∧ s.serves i (tiuOff (.p k)) = true
        ∧ s.tiuOk k ((s.rd (tiuOff (.p k)) &&& ~~~0xFFF0FFFF) ||| (v &&& 0xFFF0FFFF)) = true)
    ∧ (∃ (i : Itf) (k : Fin 12) (v : Word) (s : State), s.inv = true ∧ v.field 15 0 = 0 ∧ k.val < 8 ∧ s.unitSrc k ≠ some .vanePps
        ∧ s.serves i (tiuOff (.p k)) = true) :=
  ⟨⟨9, 30000, .lo 1, tius, by decide +kernel⟩,
   ⟨9, 300, .lo 1, tius, by decide +kernel⟩,
   ⟨9, ⟨[0, 0, 0, 0, 0, 0, 0, 0], 100, 0⟩, [], .lo 1, tius.modUnit (.p 9) (fun u => { u with converting := [⟨[0, 0, 0, 0, 0, 0, 0, 0], 100, 0⟩] }), by decide +kernel⟩,
   ⟨.pcie, 9, 0x80000010, tius, by decide +kernel⟩,
   ⟨.pcie, 2, 0x80000010, refs, by decide +kernel⟩,
   ⟨.pcie, 2, 0x80000000, refs, by decide +kernel⟩⟩

theorem wit_IntervalUnitsCalibrate :
    (∃ (k : Fin 12) (sum500 sum1000 : Nat) (s : State), s.inv = true ∧ (s.unit (.p k)).ready = false ∧ (s.unit (.p k)).calFrom = none
        ∧ s.unitOn k = true ∧ calGainOk sum500 sum1000 = true ∧ (s.unit (.p k)).again = false)
    ∧ (∃ (k : Fin 12) (sum500 sum1000 : Nat) (s : State), s.inv = true ∧ s.b 0x01200014 k.val = true ∧ s.unitOn k = true ∧ calGainOk sum500 sum1000 = true
        ∧ ((s.unit (.p k)).ready = false ∨ (calMeanOk (s.unit (.p k)).sum500 (s.unit (.p k)).sum1000 sum500 (s.unit (.p k)).sum500 && calMeanOk (s.unit (.p k)).sum500 (s.unit (.p k)).sum1000 sum1000 (s.unit (.p k)).sum1000) = true)
        ∧ (s.unit (.p k)).again = false)
    ∧ (∃ (k : Fin 12) (sum500 sum1000 : Nat) (s : State), s.inv = true ∧ s.b 0x01200014 k.val = true ∧ s.unitOn k = true
        ∧ calGainOk sum500 sum1000 = false ∧ (s.unit (.p k)).again = false)
    ∧ (∃ (k : Fin 12) (s : State), s.inv = true ∧ s.f 0x01200010 15 0 ≠ 0 ∧ s.msPassed (s.unit (.p k)).calFrom (s.f 0x01200010 15 0) = true
        ∧ s.unitOn k = true)
    ∧ (∃ (i : Itf) (v : Word) (k : Fin 12) (s : State), s.inv = true ∧ s.serves i 0x01200010 = true ∧ v.bit 31 = true
        ∧ (s.unit (.p k)).calFrom.isSome = true ∧ s.unitOn k = true)
    ∧ (∃ (k : Fin 12) (s : State), s.inv = true ∧ s.msPassed (s.unit (.p k)).retry 10 = true ∧ (s.unit (.p k)).calFrom.isSome = true ∧ s.unitOn k = true)
    ∧ (∃ (m : Fin 18) (s : State), s.inv = true ∧ s.b (tiuOff (.lane m) + 8) 4 = false ∧ s.f (lanOff m.val + 4) 31 28 = 5)
    ∧ (∃ (m : Fin 18) (s : State), s.inv = true ∧ s.b (tiuOff (.lane m) + 8) 4 = false ∧ s.f (lanOff m.val + 4) 31 28 = 5)
    ∧ (∃ (m : Fin 18) (s : State), s.inv = true ∧ s.b (tiuOff (.lane m) + 8) 4 = false ∧ s.f (lanOff m.val + 4) 31 28 = 5 ∧ s.b (tiuOff (.lane m)) 31 = true)
    ∧ (∃ (m : Fin 18) (s : State), s.inv = true ∧ s.b (tiuOff (.lane m) + 8) 4 = false)
    ∧ (∃ (m : Fin 18) (slow fast : Word) (s : State), s.inv = true ∧ s.b (tiuOff (.lane m) + 8) 4 = true ∧ trimOk slow.toNat fast.toNat = true) :=
  ⟨⟨9, 76800000, 207872000, tius.modUnit (.p 9) (fun u => { u with ready := false }), by decide +kernel⟩,
   ⟨9, 76800000, 207872000, (tius.wrN 0x01200014 0xFFF).modUnit (.p 9) (fun u => { u with ready := false }), by decide +kernel⟩,
   ⟨9, 76800000, 76800001, tius.wrN 0x01200014 0xFFF, by decide +kernel⟩,
   ⟨9, ((tius.modUnit (.p 9) (fun u => { u with calFrom := some 0 })).wrN 0x01200010 5).modSpn (fun p => { p with ticks := 10000000 }), by decide +kernel⟩,
   ⟨.pcie, 0x80000000, 9, tius.modUnit (.p 9) (fun u => { u with calFrom := some 0 }), by decide +kernel⟩,
   ⟨9, (tius.modUnit (.p 9) (fun u => { u with retry := some 0, calFrom := some 0 })).modSpn (fun p => { p with ticks := 20000000 }), by decide +kernel⟩,
   ⟨3, on [(0x02001304, 0x50000000)], by decide +kernel⟩,
   ⟨3, on [(0x02001304, 0x50000000)], by decide +kernel⟩,
   ⟨3, on [(0x02001304, 0x50000000), (0x01203180, 0x80000010)], by decide +kernel⟩,
   ⟨3, on [], by decide +kernel⟩,
   ⟨3, 70000, 4464, on [(0x01203188, 0x10)], by decide +kernel⟩⟩

theorem wit_CandidatesQualifyAndFail :
    (∃ (s : State), s.inv = true ∧ s.cycleDone = true ∧ s.ens.tickSec ≠ some (s.tbSec 0))
    ∧ (∃ (c : Fin 30) (s : State), s.inv = true ∧ s.cycleDone = true ∧ s.ens.tickSec ≠ some (s.tbSec 0) ∧ s.b (candOff c.val) 31 = true
        ∧ s.b 0x01300000 c.val = true ∧ 3 ≤ s.candState c.val ∧ s.candUnavail c.val = false ∧ s.candSrcFail c.val = true)
    ∧ (∃ (s : State), s.inv = true ∧ s.cycleDone = true ∧ s.ens.tickSec = some (s.tbSec 0))
    ∧ (∃ (s : State), s.inv = true ∧ s.cycleDone = false)
    ∧ (∃ (c : Fin 30) (s : State), s.inv = true ∧ s.b (candOff c.val) 31 = true ∧ s.b 0x01300000 c.val = true ∧ 3 ≤ s.candState c.val
        ∧ s.candUnavail c.val = false ∧ s.candSrcFail c.val = true)
    ∧ (∃ (c : Fin 30) (s : State), s.inv = true ∧ s.b (candOff c.val) 31 = true ∧ s.b 0x01300000 c.val = true ∧ s.candState c.val ≠ cOFF
        ∧ s.candState c.val ≠ cUNAVAIL ∧ s.candUnavail c.val = true)
    ∧ (∃ (s : State), s.inv = true)
    ∧ (∃ (i : Itf) (n : Fin 8) (v : Word) (s : State), s.inv = true ∧ s.serves i (selOff n.val + 4) = true ∧ s.tbYoked n.val = false
        ∧ (v.field 4 0 = 0x1F ∨ (v.field 4 0 ≠ 0x1E ∧ s.b (selOff n.val) (v.field 4 0) = true)))
    ∧ (∃ (i : Itf) (n : Fin 8) (v : Word) (s : State), s.inv = true ∧ s.serves i (selOff n.val + 4) = true ∧ s.tbYoked n.val = false ∧ v.field 4 0 = 0x1E)
    ∧ (∃ (i : Itf) (n : Fin 8) (s : State), s.inv = true ∧ s.serves i (selOff n.val + 4) = true ∧ s.tbYoked n.val = true) :=
  ⟨⟨sel1, by decide +kernel⟩,
   ⟨2, sel1, by decide +kernel⟩,
   ⟨{ sel1 with ens := { sel1.ens with tickSec := some (sel1.tbSec 0) } }, by decide +kernel⟩,
   ⟨sel1.modSpn (fun p => { p with bases := listMod p.bases 0 (fun b => { b with time := 5000000000 * 2 ^ 40 }) }), by decide +kernel⟩,
   ⟨2, sel1, by decide +kernel⟩,
   ⟨12, sel1.wrN 0x00100014 0, by decide +kernel⟩,
   ⟨sel1, by decide +kernel⟩,
   ⟨.pcie, 0, 2, sel1, by decide +kernel⟩,
   ⟨.pcie, 0, 0x1E, sel1, by decide +kernel⟩,
   ⟨.pcie, 1, yoked, by decide +kernel⟩⟩

theorem wit_EnsembleMembersAdvance :
    (∃ (s : State), s.inv = true ∧ s.cycleDone = false)
    ∧ (∃ (s : State), s.inv = true ∧ s.cycleDone = true)
    ∧ (∃ (m : Fin 4) (s : State), s.inv = true ∧ s.memState m.val = 1 ∧ s.loFailed m = false
        ∧ ((s.member m.val).warmOk = true ∨ (s.kindOf m.val).warmMax ≤ ticksSec (s.member m.val).warmTick s.spn.ticks))
    ∧ (∃ (m : Fin 4) (s : State), s.inv = true ∧ s.memState m.val = 2 ∧ (s.member m.val).trefFixed = false ∧ 3600 ≤ (s.member m.val).learnCyc
        ∧ (s.member m.val).trefCnt ≠ 0)
    ∧ (∃ (m : Fin 4) (s : State), s.inv = true ∧ s.memState m.val = 2 ∧ (s.kindOf m.val).trainMin ≤ (s.rd (memOff m.val + 8)).toNat)
    ∧ (∃ (m : Fin 4) (s : State), s.inv = true ∧ s.memState m.val = 5 ∧ 3600 ≤ (s.member m.val).joinCyc) :=
  ⟨⟨car1.modSpn (fun p => { p with bases := listMod p.bases 0 (fun b => { b with time := 5000000000 * 2 ^ 40 }) }), by decide +kernel⟩,
   ⟨car1, by decide +kernel⟩,
   ⟨1, car1.setF (memOff 1 + 4) 3 0 1, by decide +kernel⟩,
   ⟨1, (car1.setF (memOff 1 + 4) 3 0 2).modMember 1 (fun r => { r with trefSum := -720000, trefCnt := 3600, learnCyc := 3600 }), by decide +kernel⟩,
   ⟨1, car1.setF (memOff 1 + 4) 3 0 2, by decide +kernel⟩,
   ⟨1, (car1.setF (memOff 1 + 4) 3 0 5).modMember 1 (fun r => { r with joinCyc := 3600 }), by decide +kernel⟩⟩

theorem wit_ServoUpdates :
    (∃ (n : Fin 8) (c : Nat) (r : CandRes) (e : Int) (s : State), s.inv = true ∧ s.cycleDone = true ∧ c = s.followed n.val ∧ r = s.candRes c
        ∧ s.freeBase n.val = true ∧ s.tbHost n.val = false ∧ c ≠ 0x1F ∧ (s.ctl n.val).taken < r.count
        ∧ e = r.meanIn.getD n.val r.mean - (if s.candFreqOnly c then (s.ctl n.val).anchor.getD (r.meanIn.getD n.val r.mean) else 0) + (s.base n.val).pendServo / 2 ^ 24
        ∧ s.b (ensOff n.val + 4) 24 = true)
    ∧ (∃ (n : Fin 8) (c : Nat) (r : CandRes) (e : Int) (tau : Nat) (s : State), s.inv = true ∧ s.cycleDone = true ∧ c = s.followed n.val ∧ r = s.candRes c
        ∧ s.freeBase n.val = true ∧ s.tbHost n.val = false ∧ c ≠ 0x1F ∧ (s.ctl n.val).taken < r.count
        ∧ e = r.meanIn.getD n.val r.mean - (if s.candFreqOnly c then (s.ctl n.val).anchor.getD (r.meanIn.getD n.val r.mean) else 0) + (s.base n.val).pendServo / 2 ^ 24
        ∧ tau = (match (s.ctl n.val).prevT with | some p => if p < r.timeIn.getD n.val r.time then (r.timeIn.getD n.val r.time - p).toNat else sec16 | none => sec16)
        ∧ s.b (ensOff n.val + 4) 24 = false)
    ∧ (∃ (n : Fin 8) (s : State), s.inv = true ∧ s.cycleDone = true
        ∧ (s.freeBase n.val = false ∨ s.tbHost n.val = true ∨ s.followed n.val = 0x1F ∨ (s.candRes (s.followed n.val)).count ≤ (s.ctl n.val).taken))
    ∧ (∃ (s : State), s.inv = true ∧ s.cycleDone = false ∧ s.ens.waitServo = []) :=
  ⟨⟨0, 2, servo1.candRes 2, (servo1.candRes 2).meanIn.getD 0 (servo1.candRes 2).mean, servo1.setB (ensOff 0 + 4) 24 true, by decide +kernel⟩,
   ⟨0, 2, servo1.candRes 2, (servo1.candRes 2).meanIn.getD 0 (servo1.candRes 2).mean, sec16, servo1, by decide +kernel⟩,
   ⟨0, car1, by decide +kernel⟩,
   ⟨servo1.modSpn (fun p => { p with bases := listMod p.bases 0 (fun b => { b with time := 5000000000 * 2 ^ 40 }) }), by decide +kernel⟩⟩

theorem wit_BoundsAndMapFollow :
    (∃ (n : Fin 8) (s : State), s.inv = true ∧ (s.base n.val).pendHost + (s.base n.val).pendServo ≠ 0 ∧ s.freeBase n.val = true)
    ∧ (∃ (n : Fin 8) (s : State), s.inv = true ∧ (s.base n.val).pendHost + (s.base n.val).pendServo ≠ 0 ∧ s.freeBase n.val = true
        ∧ (s.tbState n.val = stFREERUN ∨ s.tbState n.val = stHOST))
    ∧ (∃ (n : Fin 8) (s : State), s.inv = true ∧ (s.base n.val).pendHost + (s.base n.val).pendServo = 0)
    ∧ (∃ (n : Fin 8) (k since : Nat) (s : State), s.inv = true ∧ (s.ctl n.val).betterRow = some (k, since) ∧ k < 8
        ∧ s.lf (bndOff n.val + 0x40) 15 0 ≤ ticksSec since s.spn.ticks)
    ∧ (∃ (n : Fin 8) (k since : Nat) (s : State), s.inv = true ∧ (s.ctl n.val).betterRow = some (k, since)
        ∧ ticksSec since s.spn.ticks < s.lf (bndOff n.val + 0x40) 15 0)
    ∧ (∃ (n : Fin 8) (at_ : Nat) (s : State), s.inv = true ∧ (s.ctl n.val).exceeded = some at_ ∧ 86400 ≤ ticksSec at_ s.spn.ticks)
    ∧ (∃ (n : Fin 8) (at_ : Nat) (s : State), s.inv = true ∧ (s.ctl n.val).exceeded = some at_ ∧ ticksSec at_ s.spn.ticks < 86400)
    ∧ (∃ (s : State), s.inv = true ∧ s.trace.sec ≠ s.tbSec 0 ∧ s.cycleDone = true ∧ s.traceOn = true ∧ s.trace.started = true ∧ s.trace.subkeyDue = false
        ∧ s.trace.queue = [])
    ∧ (∃ (n : Fin 8) (s : State), s.inv = true ∧ s.trace.sec ≠ s.tbSec 0 ∧ s.cycleDone = true ∧ s.traceOn = true ∧ s.trace.started = true
        ∧ s.trace.subkeyDue = false ∧ s.trace.queue = [] ∧ s.tbPresent n.val = true ∧ s.f 0x01500010 15 8 = 2 ^ n.val)
    ∧ (∃ (s : State), s.inv = true ∧ s.trace.sec = s.tbSec 0)
    ∧ (∃ (s : State), s.inv = true ∧ s.trace.sec ≠ s.tbSec 0 ∧ s.cycleDone = false)
    ∧ (∃ (s : State), s.inv = true ∧ s.trace.sec ≠ s.tbSec 0 ∧ s.cycleDone = true ∧ s.traceRuns = false) :=
  ⟨⟨0, servo1.modBase 0 (fun b => { b with pendHost := 5 }), by decide +kernel⟩,
   ⟨0, (servo1.modBase 0 (fun b => { b with pendHost := 5 })).setF (ensOff 0 + 4) 31 28 stFREERUN, by decide +kernel⟩,
   ⟨0, servo1, by decide +kernel⟩,
   ⟨0, 3, 0, (servo1.modCtl 0 (fun c => { c with betterRow := some (3, 0) })).modSpn (fun p => { p with ticks := 172800000000000 }), by decide +kernel⟩,
   ⟨0, 3, 0, (servo1.modCtl 0 (fun c => { c with betterRow := some (3, 0) })).setLv (bndOff 0 + 0x40) 9, by decide +kernel⟩,
   ⟨0, 0, (servo1.modCtl 0 (fun c => { c with exceeded := some 0 })).modSpn (fun p => { p with ticks := 172800000000000 }), by decide +kernel⟩,
   ⟨0, 0, servo1.modCtl 0 (fun c => { c with exceeded := some 0 }), by decide +kernel⟩,
   ⟨(let s := on [(0x01000000, 3), (0x01500010, 0x301), (0x02300014, 0x80000000)]; { (s.modBase 0 (fun b => { b with time := 5000000000 * 2 ^ 40 })) with trace := { s.trace with started := true }, ens := { s.ens with sec := 5 } }), by decide +kernel⟩,
   ⟨1, (let s := on [(0x01000000, 3), (0x01500010, 0x201), (0x02300014, 0x80000000)]; { (s.modBase 0 (fun b => { b with time := 5000000000 * 2 ^ 40 })) with trace := { s.trace with started := true }, ens := { s.ens with sec := 5 } }), by decide +kernel⟩,
   ⟨traceSt, by decide +kernel⟩,
   ⟨traceSt.modBase 0 (fun b => { b with time := 5000000000 * 2 ^ 40 }), by decide +kernel⟩,
   ⟨(let s := on [(0x01000000, 3), (0x01500010, 0xFF00), (0x02300014, 0x80000000)]; { (s.modBase 0 (fun b => { b with time := 5000000000 * 2 ^ 40 })) with trace := { s.trace with started := true }, ens := { s.ens with sec := 5 } }), by decide +kernel⟩⟩

theorem wit_SynthesizersMoveThroughTheirStates :
    (∃ (k : Fin 4) (s : State), s.inv = true ∧ s.synState k.val = synSEARCH)
    ∧ (∃ (k : Fin 4) (s : State), s.inv = true ∧ s.synState k.val = synSEARCH ∧ s.f (synOff k.val + 4) 1 0 ≠ 2)
    ∧ (∃ (k : Fin 4) (s : State), s.inv = true ∧ s.synState k.val = synSEARCH ∧ s.f (synOff k.val + 4) 1 0 = 2)
    ∧ (∃ (k : Fin 4) (s : State), s.inv = true ∧ s.synState k.val = synLOCKING ∧ (s.syn k.val).since + 100000 ≤ s.spn.ticks)
    ∧ (∃ (k : Fin 4) (s : State), s.inv = true ∧ s.spn.ticks < (s.syn k.val).since + 100000)
    ∧ (∃ (k : Fin 4) (s : State), s.inv = true ∧ s.synState k.val = synLOCKING ∧ (s.syn k.val).since + 4000000 ≤ s.spn.ticks ∧ s.f (synOff k.val + 4) 1 0 ≠ 2)
    ∧ (∃ (k : Fin 4) (s : State), s.inv = true ∧ s.spn.ticks < (s.syn k.val).since + 4000000)
    ∧ (∃ (k : Fin 4) (s : State), s.inv = true ∧ s.synState k.val = synALIGN ∧ (s.syn k.val).alignFrom / secU < s.synNow k.val / secU)
    ∧ (∃ (k : Fin 4) (s : State), s.inv = true ∧ s.synNow k.val / secU ≤ (s.syn k.val).alignFrom / secU)
    ∧ (∃ (k : Fin 4) (s : State), s.inv = true ∧ (s.synState k.val = synRUN ∨ s.synState k.val = synRAMP ∨ s.synState k.val = synREALIGN))
    ∧ (∃ (k : Fin 4) (r : SynRamp) (s : State), s.inv = true ∧ s.synState k.val = synRAMP ∧ (s.syn k.val).ramp = some r
        ∧ r.start + rampLasts r.segs ≤ s.synNow k.val)
    ∧ (∃ (k : Fin 4) (s : State), s.inv = true ∧ s.synState k.val = synREALIGN ∧ (s.corePhase k.val).natAbs * 500 ≤ s.synRef k.val * 2 ^ 40) :=
  ⟨⟨1, (syn (synSEARCH)).setLv (synOff 1 + 0x10) 1700000000, by decide +kernel⟩,
   ⟨1, syn (synSEARCH), by decide +kernel⟩,
   ⟨1, (syn (synSEARCH)).setF (synOff 1 + 4) 1 0 2, by decide +kernel⟩,
   ⟨1, (syn (synLOCKING)).modSpn (fun p => { p with ticks := 100000 }), by decide +kernel⟩,
   ⟨1, syn (synLOCKING), by decide +kernel⟩,
   ⟨1, (syn (synLOCKING)).modSpn (fun p => { p with ticks := 4000000 }), by decide +kernel⟩,
   ⟨1, syn (synLOCKING), by decide +kernel⟩,
   ⟨1, (syn (synALIGN)).modSyn 1 (fun y => { y with alignFrom := -5 }), by decide +kernel⟩,
   ⟨1, syn (synALIGN), by decide +kernel⟩,
   ⟨1, syn (synRUN), by decide +kernel⟩,
   ⟨1, ⟨5, -9000000000 * 2 ^ 40, 7, [(1700000000 * 65536, 3)]⟩, (syn (synRAMP)).modSyn 1 (fun y => { y with ramp := some ⟨5, -9000000000 * 2 ^ 40, 7, [(1700000000 * 65536, 3)]⟩ }), by decide +kernel⟩,
   ⟨1, syn (synREALIGN), by decide +kernel⟩⟩

theorem wit_PpsEdgesAndTodMessages :
    (∃ (k : Fin 4) (e : Nat) (s : State), s.inv = true ∧ s.b 0x01700000 (24 + k.val) = true ∧ s.lb (ppsOff k.val) 31 = true ∧ s.domOn 3 = true
        ∧ s.leapDue (s.ppsTb k.val) = false ∧ s.ppsDue k.val = some e ∧ (s.pps.getD k.val {}).track = 0 ∧ s.released (20 + k.val) = false)
    ∧ (∃ (k : Fin 4) (e : Nat) (s : State), s.inv = true ∧ s.b 0x01700000 (24 + k.val) = true ∧ s.lb (ppsOff k.val) 31 = true ∧ s.domOn 3 = true
        ∧ s.leapDue (s.ppsTb k.val) = false ∧ s.ppsDue k.val = some e ∧ s.released (20 + k.val) = true)
    ∧ (∃ (k : Fin 4) (s : State), s.inv = true ∧ s.b (ppsOff k.val + 4) 0 = true ∧ (s.pps.getD k.val {}).ends ≤ s.tbTime (s.ppsTb k.val))
    ∧ (∃ (k : Fin 4) (s : State), s.inv = true ∧ s.tbTime (s.ppsTb k.val) < (s.pps.getD k.val {}).ends
        ∧ (s.base (s.ppsTb k.val)).steps = (s.pps.getD k.val {}).steps)
    ∧ (∃ (k : Fin 2) (g : TodTrigger) (m : List Byte) (s : State), s.inv = true ∧ (s.tod.getD k.val {}).trig = some g ∧ s.lb (todOff k.val) 31 = true
        ∧ s.b (todOff k.val + 4) 0 = false ∧ s.domOn 3 = true ∧ (s.base (s.ppsTb (s.f (todOff k.val + 4) 2 1))).steps = g.steps
        ∧ g.from_ + s.lf (todOff k.val) 8 0 * 1000000 * 2 ^ 40 ≤ s.countNow (s.ppsTb (s.f (todOff k.val + 4) 2 1)) ∧ s.lb (todOff k.val) 30 = false
        ∧ s.released (24 + k.val) = false ∧ m = s.todBody k.val g.edge g (s.tod.getD k.val {}).sent) :=
  ⟨⟨1, 0, pps1, by decide +kernel⟩,
   ⟨1, 0, pps1.setB 0x02500000 21 true, by decide +kernel⟩,
   ⟨1, pps1.setB (ppsOff 1 + 4) 0 true, by decide +kernel⟩,
   ⟨1, { pps1 with pps := List.replicate 4 { ends := 5 } }, by decide +kernel⟩,
   ⟨1, ⟨0, 0, [], 0, 5, 0, 0⟩, (pps1.setLv (todOff 1) 0x90000000).todBody 1 0 ⟨0, 0, [], 0, 5, 0, 0⟩ 3, { pps1.setLv (todOff 1) 0x90000000 with tod := [{}, { trig := some ⟨0, 0, [], 0, 5, 0, 0⟩, sent := 3 }] }, by decide +kernel⟩⟩

theorem wit_GnssSourceFollowsItsSolutions :
    (∃ (q : GnssSecond) (g : GnssSolution) (k : Fin 12) (used ex : List Signal) (s : State), s.inv = true ∧ s.gnsSrc = srcNOFIX ∧ s.domOn 8 = true
        ∧ s.gns.doneSec ≠ some q.sec ∧ s.gns.cfgChange = false ∧ s.routedUnit .vanePps = some k ∧ (s.unitRes (.p k)).count ≠ s.gns.taken
        ∧ (s.gnsBegin q).unknowns ((s.gnsBegin q).usable q g) ≤ satCount ((s.gnsBegin q).usable q g)
        ∧ (s.gnsBegin q).raim g 2 ((s.gnsBegin q).usable q g) [] = (used, ex, .passed) ∧ (s.gnsBegin q).gnsTu g.sigma ≤ (s.rd 0x0180002C).toNat
        ∧ (s.gnsBegin q).scaleParams = true)
    ∧ (∃ (q : GnssSecond) (g : GnssSolution) (k : Fin 12) (used ex : List Signal) (s : State), s.inv = true ∧ s.gnsSrc = srcVALID ∧ s.domOn 8 = true
        ∧ s.gns.doneSec ≠ some q.sec ∧ s.gns.cfgChange = false ∧ s.routedUnit .vanePps = some k ∧ (s.unitRes (.p k)).count ≠ s.gns.taken
        ∧ (s.gnsBegin q).unknowns ((s.gnsBegin q).usable q g) ≤ satCount ((s.gnsBegin q).usable q g)
        ∧ (s.gnsBegin q).raim g 2 ((s.gnsBegin q).usable q g) [] = (used, ex, .passed) ∧ (s.gnsBegin q).gnsTu g.sigma ≤ (s.rd 0x0180002C).toNat
        ∧ (s.gnsBegin q).scaleParams = true ∧ (s.unitRes (.p k)).restart = true)
    ∧ (∃ (q : GnssSecond) (g : GnssSolution) (used ex : List Signal) (s : State), s.inv = true ∧ (s.gnsSrc = srcNOFIX ∨ s.gnsSrc = srcCONFIRM)
        ∧ s.domOn 8 = true ∧ s.gns.doneSec ≠ some q.sec ∧ s.gns.cfgChange = false ∧ s.routedUnit .vanePps = none
        ∧ (s.gnsBegin q).unknowns ((s.gnsBegin q).usable q g) ≤ satCount ((s.gnsBegin q).usable q g)
        ∧ (s.gnsBegin q).raim g 2 ((s.gnsBegin q).usable q g) [] = (used, ex, .passed) ∧ (s.gnsBegin q).gnsTu g.sigma ≤ (s.rd 0x0180002C).toNat
        ∧ (s.gnsBegin q).scaleParams = true)
    ∧ (∃ (q : GnssSecond) (g : GnssSolution) (s : State), s.inv = true ∧ s.gnsSrc = srcCONFIRM ∧ s.domOn 8 = true ∧ s.gns.doneSec ≠ some q.sec
        ∧ s.gns.cfgChange = false ∧ s.edgeAbandoned = false
        ∧ satCount ((s.gnsBegin q).usable q g) < (s.gnsBegin q).unknowns ((s.gnsBegin q).usable q g))
    ∧ (∃ (q : GnssSecond) (s : State), s.inv = true ∧ (s.gnsSrc = srcOFF ∨ s.domOn 8 = false ∨ s.gns.doneSec = some q.sec))
    ∧ (∃ (q : GnssSecond) (s : State), s.inv = true ∧ s.gnsSrc = srcCONFIRM ∧ s.domOn 8 = true ∧ s.gns.doneSec ≠ some q.sec ∧ s.gns.cfgChange = false
        ∧ s.routedUnit .vanePps = none)
    ∧ (∃ (q : GnssSecond) (k : Fin 12) (s : State), s.inv = true ∧ s.gnsSrc = srcVALID ∧ s.domOn 8 = true ∧ s.gns.doneSec ≠ some q.sec
        ∧ s.gns.cfgChange = false ∧ s.routedUnit .vanePps = some k ∧ (s.unit (.p k)).restart = false ∧ s.gns.misses + 1 ≠ s.f 0x01800020 15 8)
    ∧ (∃ (q : GnssSecond) (k : Fin 12) (s : State), s.inv = true ∧ s.gnsSrc = srcVALID ∧ s.domOn 8 = true ∧ s.gns.doneSec ≠ some q.sec
        ∧ s.gns.cfgChange = false ∧ s.routedUnit .vanePps = some k ∧ (s.unit (.p k)).restart = false ∧ s.gns.misses + 1 = s.f 0x01800020 15 8)
    ∧ (∃ (i : Itf) (off : Nat) (v : Word) (s : State), s.inv = true ∧ off ∈ gnsCfgRegs ∧ off ≠ 0x10 ∧ s.serves i (0x01800000 + off) = true
        ∧ (s.rwStore (0x01800000 + off) v).gnsOk off = true ∧ (s.rwStore (0x01800000 + off) v).rd (0x01800000 + off) ≠ s.rd (0x01800000 + off))
    ∧ (∃ (i : Itf) (v : Word) (s : State), s.inv = true ∧ s.serves i 0x01800010 = true ∧ (s.rwStore 0x01800010 v).gnsOk 0x10 = true ∧ v.bit 31 = true
        ∧ s.gnsSrc = srcOFF)
    ∧ (∃ (i : Itf) (off : Nat) (v : Word) (s : State), s.inv = true ∧ off ∈ gnsCfgRegs ∧ s.serves i (0x01800000 + off) = true
        ∧ (s.rwStore (0x01800000 + off) v).gnsOk off = false) :=
  ⟨⟨qsec6, gsol6, 1, sig6, [], gns6 1, by decide +kernel⟩,
   ⟨qsec6, gsol6, 1, sig6, [], gns6 3, by decide +kernel⟩,
   ⟨qsec6, gsol6, sig6, [], (gns6 1).wrN 0x01201084 0xF, by decide +kernel⟩,
   ⟨qsec, gsol, gns6 2, by decide +kernel⟩,
   ⟨qsec, gns6 0, by decide +kernel⟩,
   ⟨qsec, (gns1 2).wrN 0x01201084 0xF, by decide +kernel⟩,
   ⟨qsec, 1, (gns1 3).modUnit (.p 1) (fun u => { u with restart := false }), by decide +kernel⟩,
   ⟨qsec, 1, ((gns1 3).modUnit (.p 1) (fun u => { u with restart := false })).wrN 0x01800020 0x0105, by decide +kernel⟩,
   ⟨.pcie, 0x38, 77, gns1 1, by decide +kernel⟩,
   ⟨.pcie, 0x80000101, gns1 0, by decide +kernel⟩,
   ⟨.i2c, 0x100, 0, gns1 1, by decide +kernel⟩⟩

theorem wit_GnssFrontEndsAndAiding :
    (∃ (k : Fin 2) (s : State), s.inv = true ∧ s.b (feOff k.val + 0x0C) 0 = true)
    ∧ (∃ (k : Fin 2) (err : Word) (s : State), s.inv = true ∧ s.b (feOff k.val + 0x0C) 1 = false ∧ clkLimit < (signedOf 32 err.toNat).natAbs)
    ∧ (∃ (k : Fin 2) (err : Word) (s : State), s.inv = true ∧ s.b (feOff k.val + 0x0C) 0 = true ∧ s.b (feOff k.val + 0x0C) 1 = false
        ∧ (signedOf 32 err.toNat).natAbs ≤ clkLimit)
    ∧ (∃ (k : Fin 2) (err : Word) (s : State), s.inv = true ∧ (s.b (feOff k.val + 0x0C) 0 = false ∨ s.b (feOff k.val + 0x0C) 1 = true)
        ∧ (signedOf 32 err.toNat).natAbs ≤ clkLimit)
    ∧ (∃ (x : Signal) (w : Nat) (s : State), s.inv = true ∧ (x, w) ∈ s.gns.weak ∧ w + 4000000000 ≤ s.spn.ticks)
    ∧ (∃ (x : Signal) (s : State), s.inv = true ∧ (∀ y ∈ s.gns.weak, y.1 = x → s.spn.ticks < y.2 + 4000000000))
    ∧ (∃ (x : Signal) (bin : Int) (s : State), s.inv = true ∧ s.gnsSrc ≠ srcOFF ∧ s.domOn 8 = true ∧ s.gns.aidWait = false
        ∧ s.b 0x01800010 x.con.val = true ∧ s.b 0x01800010 (8 + x.fe.val) = true ∧ s.b (feOff x.fe.val) 31 = true
        ∧ s.b (feOff x.fe.val + 0x0C) 0 = true ∧ s.b (feOff x.fe.val + 0x0C) 1 = false ∧ s.gns.tracked.length < 192 ∧ x ∉ s.gns.tracked
        ∧ 500 * bin.natAbs ≤ s.searchHalf x)
    ∧ (∃ (sec : Nat) (e p : Int) (s : State), s.inv = true ∧ s.domOn 8 = true ∧ s.vaneSecond sec = some e ∧ s.gnssPpsAt sec = some p
        ∧ e / nominalInc ≤ s.spn.ticks ∧ s.gns.edge.any (fun x => decide (e / nominalInc ≤ x.2)) = false ∧ s.b 0x01800060 31 = true)
    ∧ (∃ (sec : Nat) (e : Int) (s : State), s.inv = true ∧ s.vaneSecond sec = some e ∧ s.spn.ticks < e / nominalInc)
    ∧ (∃ (i : Itf) (v : Word) (s : State), s.inv = true ∧ s.serves i 0x01800078 = true ∧ v.bit 0 = true ∧ s.b 0x0180007C 0 = false
        ∧ inScratch (s.rd 0x01800070).toNat (s.rd 0x01800074).toNat = true)
    ∧ (∃ (s : State), s.inv = true ∧ s.b 0x0180007C 0 = true ∧ s.b 0x02300014 31 = true ∧ s.damaged (s.rd 0x01800070).toNat (s.f 0x01800074 23 0) = none)
    ∧ (∃ (x : Nat) (s : State), s.inv = true ∧ s.b 0x0180007C 0 = true ∧ s.b 0x02300014 31 = true
        ∧ s.damaged (s.rd 0x01800070).toNat (s.f 0x01800074 23 0) = some x)
    ∧ (∃ (s : State), s.inv = true ∧ (s.b 0x0180007C 0 = false ∨ s.b 0x02300014 31 = false))
    ∧ (∃ (s : State), s.inv = true ∧ s.gns.upTick + 120000000000 ≤ s.spn.ticks)
    ∧ (∃ (s : State), s.inv = true ∧ s.spn.ticks < s.gns.upTick + 120000000000)
    ∧ (∃ (s : State), s.inv = true ∧ s.domOn 8 = true ∧ s.gns.wake = true)
    ∧ (∃ (s : State), s.inv = true ∧ s.domOn 8 = true ∧ s.gns.wake = true) :=
  ⟨⟨1, (gns1 1).wrN (feOff 1 + 0x0C) 1, by decide +kernel⟩,
   ⟨1, 0x10000000, (gns1 1).wrN (feOff 1 + 0x0C) 1, by decide +kernel⟩,
   ⟨1, 9, (gns1 1).wrN (feOff 1 + 0x0C) 1, by decide +kernel⟩,
   ⟨1, 9, (gns1 1).wrN (feOff 1 + 0x0C) 2, by decide +kernel⟩,
   ⟨⟨0, 3, 1⟩, 0, ((gns1 1).modGns (fun g => { g with tracked := [⟨0, 3, 1⟩], weak := [(⟨0, 3, 1⟩, 0)] })).modSpn (fun p => { p with ticks := 4000000000 }), by decide +kernel⟩,
   ⟨⟨0, 3, 1⟩, (gns1 1).modGns (fun g => { g with weak := [(⟨0, 3, 1⟩, 0)] }), by decide +kernel⟩,
   ⟨⟨0, 3, 1⟩, -12, (((gns1 1).wrN (feOff 1) 0x80000000).wrN (feOff 1 + 0x0C) 1).wrN 0x01800010 0x80000301, by decide +kernel⟩,
   ⟨0, 0, 0, (gns1 1).wrN 0x01800060 0x80000064, by decide +kernel⟩,
   ⟨1, 2000000000 * nominalInc, gns1 1, by decide +kernel⟩,
   ⟨.pcie, 1, (gns1 1).wrN 0x01800070 0xD0000000, by decide +kernel⟩,
   ⟨(((gns1 1).wrN 0x01800070 0xD0000000).wrN 0x0180007C 1).wrN 0x02300014 0x80000000, by decide +kernel⟩,
   ⟨0xD0000000, ((((gns1 1).wrN 0x01800070 0xD0000000).wrN 0x01800074 20).wrN 0x0180007C 1).wrN 0x02300014 0x80000000 |>.modCst (fun c => { c with flaws := [⟨0xD0000000, true⟩] }), by decide +kernel⟩,
   ⟨gns1 1, by decide +kernel⟩,
   ⟨((gns1 1).modGns (fun g => { g with aidWait := true })).modSpn (fun p => { p with ticks := 120000000000 }), by decide +kernel⟩,
   ⟨(gns1 1).modGns (fun g => { g with aidWait := true }), by decide +kernel⟩,
   ⟨(gns1 1).modGns (fun g => { g with wake := true }), by decide +kernel⟩,
   ⟨(gns1 1).modGns (fun g => { g with wake := true }), by decide +kernel⟩⟩

theorem wit_LaneControlMovesTheLane :
    (∃ (i : Itf) (m : Fin 18) (v : Word) (s : State), s.inv = true ∧ s.serves i (lanOff m.val) = true ∧ m.val < 16 ∧ s.laneThere m.val = true
        ∧ s.laneMode m.val ≠ 4 ∧ (v &&& 0xA0000000) = 0xA0000000 ∧ s.laneSt m.val ≠ lOFF ∧ s.laneSt m.val ≠ lLPEXIT)
    ∧ (∃ (i : Itf) (m : Fin 18) (v : Word) (s : State), s.inv = true ∧ s.serves i (lanOff m.val) = true ∧ s.laneMode m.val = 4 ∧ v.bit 29 = true)
    ∧ (∃ (i : Itf) (m : Fin 18) (v : Word) (s : State), s.inv = true ∧ s.serves i (lanOff m.val) = true ∧ m.val < 16 ∧ s.laneThere m.val = true
        ∧ s.laneSt m.val = lLP ∧ v.bit 31 = true ∧ v.bit 29 = false)
    ∧ (∃ (i : Itf) (m : Fin 18) (v : Word) (s : State), s.inv = true ∧ s.serves i (lanOff m.val) = true ∧ s.laneThere m.val = true
        ∧ s.laneSt m.val = lFAIL ∧ (v &&& 0xE0000000) = 0xC0000000 ∧ (m.val < 16 ∨ s.b (lanOff m.val) 29 = false))
    ∧ (∃ (i : Itf) (m : Fin 18) (v : Word) (s : State), s.inv = true ∧ s.serves i (lanOff m.val) = true ∧ m.val < 16 ∧ s.laneThere m.val = true
        ∧ (v &&& 0xA0000000) = 0x80000000 ∧ 3 ≤ s.laneSt m.val ∧ s.laneSt m.val ≤ 5 ∧ v.bit 27 ≠ s.b (lanOff m.val) 27)
    ∧ (∃ (i : Itf) (v : Word) (m : Fin 16) (s : State), s.inv = true ∧ s.serves i 0x0200001C = true ∧ s.laneMode m.val = 4 ∧ s.laneThere m.val = true
        ∧ s.b (lanOff m.val) 31 = true ∧ v.bit (m.val / 4) = true ∧ s.laneSt m.val ≠ lOFF ∧ s.laneSt m.val ≠ lLPEXIT)
    ∧ (∃ (i : Itf) (m : Fin 18) (v : Word) (s : State), s.inv = true ∧ s.serves i (lanOff m.val + 0x40) = true
        ∧ (s.laneSt m.val = lALIGN ∨ s.laneSt m.val = lLOCKED) ∧ s.b (lanOff m.val + 0x44) 0 = false ∧ v.bit 31 = true
        ∧ -32 ≤ signedOf 7 (v.field 22 16) ∧ signedOf 7 (v.field 22 16) ≤ 31 ∧ v.field 15 8 ≠ 0x80 ∧ v.field 4 0 ≠ 31)
    ∧ (∃ (i : Itf) (m : Fin 18) (v : Word) (s : State), s.inv = true ∧ s.serves i (lanOff m.val + 0x40) = true ∧ v.bit 31 = true
        ∧ s.b (lanOff m.val + 0x44) 0 = true)
    ∧ (∃ (i : Itf) (m : Fin 18) (v : Word) (s : State), s.inv = true ∧ s.serves i (lanOff m.val + 0x24) = true ∧ m.val < 16
        ∧ (v &&& 0xE0000000) = 0xE0000000 ∧ v.field 21 16 = 0 ∧ v.field 26 24 < 6 ∧ s.b (lanOff m.val) 27 = true ∧ s.laneSt m.val = lLOCKED
        ∧ s.b (lanOff m.val + 0x24) 31 = false) :=
  ⟨⟨.pcie, 1, 0xA0000000, lane 0x80000001 5, by decide +kernel⟩,
   ⟨.i2c, 1, 0xA0000000, lane 0x80000004 5, by decide +kernel⟩,
   ⟨.pcie, 1, 0x80000001, lane 0xA0000001 6, by decide +kernel⟩,
   ⟨.pcie, 1, 0xC0000001, lane 0x80000001 8, by decide +kernel⟩,
   ⟨.pcie, 1, 0x88000001, lane 0x80000001 5, by decide +kernel⟩,
   ⟨.pcie, 0x1, 1, lane 0x80000004 5, by decide +kernel⟩,
   ⟨.pcie, 1, 0x80000105, lane 0x80000001 5, by decide +kernel⟩,
   ⟨.pcie, 1, 0x80000105, (lane 0x80000001 5).wrN (lanOff 1 + 0x44) 1, by decide +kernel⟩,
   ⟨.pcie, 1, 0xE3000000, lane 0x88000001 5, by decide +kernel⟩⟩

theorem wit_LaneStatesFollowTheirEvents :
    (∃ (m : Fin 18) (s : State), s.inv = true ∧ (s.laneSt m.val = lWAIT ∨ s.laneSt m.val = lLPEXIT) ∧ s.b (lanOff m.val) 29 = false)
    ∧ (∃ (m : Fin 18) (s : State), s.inv = true ∧ (s.laneSt m.val = lWAIT ∨ s.laneSt m.val = lLPEXIT) ∧ s.b (lanOff m.val) 29 = true)
    ∧ (∃ (m : Fin 18) (s : State), s.inv = true ∧ (s.laneSt m.val = lWAIT ∨ s.laneSt m.val = lLPEXIT) ∧ s.b (lanOff m.val) 29 = false
        ∧ (s.lane m.val).since + 4000000 ≤ s.spn.ticks)
    ∧ (∃ (m : Fin 18) (s : State), s.inv = true ∧ s.spn.ticks < (s.lane m.val).since + 4000000)
    ∧ (∃ (m : Fin 18) (s : State), s.inv = true ∧ s.laneSt m.val = lCDR ∧ s.b (lanOff m.val) 29 = false ∧ s.b (lanOff m.val) 27 = false
        ∧ s.b (lanOff m.val) 28 = true ∧ 2 ≤ s.laneMode m.val ∧ s.laneMode m.val ≤ 4)
    ∧ (∃ (m : Fin 18) (s : State), s.inv = true ∧ s.laneSt m.val = lCDR ∧ s.b (lanOff m.val) 29 = false ∧ s.b (lanOff m.val) 27 = false
        ∧ (s.b (lanOff m.val) 28 = false ∨ s.laneMode m.val < 2 ∨ 4 < s.laneMode m.val))
    ∧ (∃ (m : Fin 18) (s : State), s.inv = true ∧ s.laneSt m.val = lCDR ∧ s.b (lanOff m.val) 29 = false ∧ s.b (lanOff m.val) 27 = true)
    ∧ (∃ (m : Fin 18) (s : State), s.inv = true ∧ s.laneSt m.val = lTRAIN)
    ∧ (∃ (m : Fin 18) (signal : Bool) (s : State), s.inv = true ∧ s.laneSt m.val = lTRAIN
        ∧ (signal = true ∨ (s.lane m.val).since + s.trainWait m.val ≤ s.spn.ticks))
    ∧ (∃ (m : Fin 18) (s : State), s.inv = true ∧ s.spn.ticks < (s.lane m.val).since + s.trainWait m.val)
    ∧ (∃ (m : Fin 18) (s : State), s.inv = true ∧ s.laneSt m.val = lALIGN ∧ s.b (lanOff m.val) 29 = false)
    ∧ (∃ (m : Fin 18) (s : State), s.inv = true ∧ s.laneSt m.val = lLOCKED)
    ∧ (∃ (m : Fin 18) (s : State), s.inv = true ∧ s.laneSt m.val = lTRAIN ∧ (s.f (lanOff m.val + 0x0C) 13 8) < 62 ∧ 20 ≤ (s.f (lanOff m.val + 0x0C) 13 8)
        ∧ s.f (lanOff m.val + 0x0C) 3 0 + (s.f (lanOff m.val + 0x0C) 13 8) + s.f (lanOff m.val + 0x0C) 20 16 < 63)
    ∧ (∃ (m : Fin 18) (s : State), s.inv = true ∧ s.laneSt m.val = lTRAIN)
    ∧ (∃ (m : Fin 18) (n : Nat) (s : State), s.inv = true ∧ s.b (lanOff m.val + 0x44) 0 = true ∧ n = 2 ^ (s.f (lanOff m.val + 0x40) 4 0 + 10)
        ∧ n ≤ bitsAt (s.laneRate m.val) s.spn.ticks - bitsAt (s.laneRate m.val) (s.lane m.val).eyeTick)
    ∧ (∃ (m : Fin 18) (rx : List Bool) (s : State), s.inv = true ∧ s.chkRuns m.val = true ∧ s.laneSt m.val = lLOCKED
        ∧ prbsPredicted (prbsPoly (s.f (lanOff m.val + 0x24) 26 24)).1 (prbsPoly (s.f (lanOff m.val + 0x24) 26 24)).2 rx = true)
    ∧ (∃ (m : Fin 18) (window : BitVec 64) (s : State), s.inv = true ∧ s.b (lanOff m.val + 0x38) 0 = true ∧ 16 ≤ popCount window.toNat) :=
  ⟨⟨1, lane 0x80000001 1, by decide +kernel⟩,
   ⟨1, lane 0xA0000001 7, by decide +kernel⟩,
   ⟨1, (lane 0x80000001 1).modSpn (fun p => { p with ticks := 4000000 }), by decide +kernel⟩,
   ⟨1, lane 0x80000001 1, by decide +kernel⟩,
   ⟨1, lane 0x90000002 2, by decide +kernel⟩,
   ⟨1, lane 0x80000002 2, by decide +kernel⟩,
   ⟨1, lane 0x88000002 2, by decide +kernel⟩,
   ⟨1, lane 0x80000002 3, by decide +kernel⟩,
   ⟨1, true, lane 0x80000002 3, by decide +kernel⟩,
   ⟨1, lane 0x80000002 3, by decide +kernel⟩,
   ⟨1, lane 0x80000001 4, by decide +kernel⟩,
   ⟨1, lane 0x80000001 5, by decide +kernel⟩,
   ⟨1, (lane 0x80000002 3).wrN (lanOff 1 + 0x0C) 0x02001E02, by decide +kernel⟩,
   ⟨1, (lane 0x80000002 3).wrN (lanOff 1 + 0x0C) 0x02003002, by decide +kernel⟩,
   ⟨1, 1024, (((lane 0x80000001 5).modSpn (fun p => { p with ticks := 4000000 })).wrN (lanOff 1 + 0x44) 1).wrN (lanOff 1 + 0x40) 0, by decide +kernel⟩,
   ⟨1, List.replicate 71 false, (lane 0x88000001 5).wrN (lanOff 1 + 0x24) 0x40000000, by decide +kernel⟩,
   ⟨1, 0xFFFF, (lane 0x88000001 5).wrN (lanOff 1 + 0x38) 1, by decide +kernel⟩⟩

theorem wit_PortsComeUpAndGoDown :
    (∃ (p : Fin 16) (k1 k2 k3 : Word) (s : State), s.inv = true ∧ s.portSt p.val = pDESKEW ∧ s.portLocked p.val = true ∧ skewsOk ([0,
        signedOf 32 k1.toNat, signedOf 32 k2.toNat, signedOf 32 k3.toNat] : List Int) = true)
    ∧ (∃ (k1 k2 k3 : Word) (s : State), s.inv = true ∧ skewsOk ([0, signedOf 32 k1.toNat, signedOf 32 k2.toNat, signedOf 32 k3.toNat] : List Int) = false)
    ∧ (∃ (p : Fin 16) (s : State), s.inv = true ∧ s.portSt p.val = pDESKEW ∧ (s.port p.val).deskewFail = false
        ∧ (s.port p.val).deskewAt + 20000000 ≤ s.spn.ticks)
    ∧ (∃ (p : Fin 16) (s : State), s.inv = true ∧ s.portSt p.val = pCAL ∧ s.portLocked p.val = true ∧ s.isGroup p.val = false)
    ∧ (∃ (p : Fin 16) (s : State), s.inv = true ∧ s.portSt p.val = pUP ∧ s.isGroup p.val = true ∧ s.b (macOff p.val) 31 = true
        ∧ s.b 0x02100000 p.val = true ∧ s.domOn 7 = true ∧ s.portTest p.val = false ∧ s.portLocked p.val = true)
    ∧ (∃ (p : Fin 16) (s : State), s.inv = true ∧ s.portSt p.val = pCAL ∧ s.isGroup p.val = true ∧ s.b (macOff p.val) 31 = true
        ∧ s.b 0x02100000 p.val = true ∧ s.domOn 7 = true ∧ s.portTest p.val = false ∧ s.portLocked p.val = false)
    ∧ (∃ (p : Fin 16) (lf : Bool) (s : State), s.inv = true ∧ s.portSt p.val = pUP ∧ 2 ≤ s.portMode p.val ∧ lf ≠ s.b (macOff p.val + 4) 27) :=
  ⟨⟨1, 77, 5, 0xFFFFFFF0, portS pDESKEW, by decide +kernel⟩,
   ⟨77, 5, 0x00F00000, portS pDESKEW, by decide +kernel⟩,
   ⟨1, (portS pDESKEW).modSpn (fun p => { p with ticks := 20000000 }), by decide +kernel⟩,
   ⟨1, portS pCAL, by decide +kernel⟩,
   ⟨0, grpS 4, by decide +kernel⟩,
   ⟨0, (grpS 3).wrN (lanOff 2 + 4) (2 <<< 28), by decide +kernel⟩,
   ⟨1, true, portS pUP, by decide +kernel⟩⟩

theorem wit_FramesAreCheckedAndStored :
    (∃ (p : Fin 16) (x : RxFrame) (s : State), s.inv = true ∧ s.portSt p.val = pUP
        ∧ crc32 (x.bytes.take (x.bytes.length - 4)) ≠ leNat (x.bytes.drop (x.bytes.length - 4)))
    ∧ (∃ (p : Fin 16) (x : RxFrame) (b : List Byte) (s : State), s.inv = true ∧ s.portSt p.val = pUP ∧ x.bytes = b ++ leBytes 4 (crc32 b)
        ∧ (x.codeErr = true ∨ 0 < x.uncorr))
    ∧ (∃ (p : Fin 16) (x : RxFrame) (b : List Byte) (s : State), s.inv = true ∧ s.portSt p.val = pUP ∧ x.bytes = b ++ leBytes 4 (crc32 b)
        ∧ x.codeErr = false ∧ x.uncorr = 0 ∧ b.length < 60)
    ∧ (∃ (p : Fin 16) (x : RxFrame) (b : List Byte) (s : State), s.inv = true ∧ s.portSt p.val = pUP ∧ x.bytes = b ++ leBytes 4 (crc32 b)
        ∧ x.codeErr = false ∧ x.uncorr = 0 ∧ 60 ≤ b.length ∧ s.f (macOff p.val) 13 0 < b.length + 4)
    ∧ (∃ (p : Fin 16) (x : RxFrame) (b : List Byte) (s : State), s.inv = true ∧ s.portSt p.val = pUP ∧ x.bytes = b ++ leBytes 4 (crc32 b)
        ∧ x.codeErr = false ∧ x.uncorr = 0 ∧ 60 ≤ b.length ∧ b.length + 4 ≤ s.f (macOff p.val) 13 0 ∧ beAt b 12 2 ≠ 0x8808 ∧ beAt b 12 2 ≠ 0x8809
        ∧ s.macFilter p.val (slice b 0 6) = false)
    ∧ (∃ (p : Fin 16) (x : RxFrame) (b : List Byte) (s : State), s.inv = true ∧ s.portSt p.val = pUP ∧ x.bytes = b ++ leBytes 4 (crc32 b)
        ∧ x.codeErr = false ∧ x.uncorr = 0 ∧ 60 ≤ b.length ∧ b.length + 4 ≤ s.f (macOff p.val) 13 0 ∧ beAt b 12 2 ≠ 0x8808 ∧ beAt b 12 2 ≠ 0x8809
        ∧ s.macFilter p.val (slice b 0 6) = true ∧ s.fifoUse p.val + b.length ≤ s.fifoSize p.val)
    ∧ (∃ (p : Fin 16) (x : RxFrame) (b : List Byte) (s : State), s.inv = true ∧ s.portSt p.val = pUP ∧ x.bytes = b ++ leBytes 4 (crc32 b)
        ∧ x.codeErr = false ∧ x.uncorr = 0 ∧ 60 ≤ b.length ∧ b.length + 4 ≤ s.f (macOff p.val) 13 0 ∧ beAt b 12 2 ≠ 0x8808 ∧ beAt b 12 2 ≠ 0x8809
        ∧ s.macFilter p.val (slice b 0 6) = true ∧ s.fifoSize p.val < s.fifoUse p.val + b.length ∧ (s.port p.val).fifoRun = false)
    ∧ (∃ (p : Fin 16) (x : RxFrame) (b : List Byte) (s : State), s.inv = true ∧ s.portSt p.val = pUP ∧ x.bytes = b ++ leBytes 4 (crc32 b)
        ∧ x.codeErr = false ∧ x.uncorr = 0 ∧ 60 ≤ b.length ∧ b.length + 4 ≤ s.f (macOff p.val) 13 0 ∧ beAt b 12 2 = 0x8808 ∧ beAt b 14 2 = 1
        ∧ slice b 0 6 = s.macReg (macOff p.val + 8) ∧ s.b (macOff p.val) 30 = false ∧ (s.port p.val).ignoring = false ∧ beAt b 16 2 ≠ 0)
    ∧ (∃ (p : Fin 16) (s : State), s.inv = true ∧ s.b (macOff p.val + 4) 28 = true ∧ s.portSt p.val = pUP ∧ (s.port p.val).pauseTo ≤ s.spn.ticks)
    ∧ (∃ (p : Fin 16) (s : State), s.inv = true ∧ s.b (macOff p.val + 4) 28 = true ∧ s.portSt p.val = pUP ∧ s.f (macOff p.val + 0x10) 15 0 ≠ 0
        ∧ (s.port p.val).pauseFrom + s.f (macOff p.val + 0x10) 15 0 * 2000 < s.spn.ticks
        ∧ (s.port p.val).pauseFrom + s.f (macOff p.val + 0x10) 15 0 * 2000 < (s.port p.val).pauseTo)
    ∧ (∃ (p : Fin 16) (s : State), s.inv = true
        ∧ (s.f (macOff p.val + 0x10) 15 0 = 0 ∨ s.spn.ticks ≤ (s.port p.val).pauseFrom + s.f (macOff p.val + 0x10) 15 0 * 2000))
    ∧ (∃ (p : Fin 16) (s : State), s.inv = true ∧ (s.port p.val).pauseLast + s.f (macOff p.val + 0x10) 31 24 * 2000000 ≤ s.spn.ticks)
    ∧ (∃ (p : Fin 16) (event : Bool) (s : State), s.inv = true ∧ s.b (macOff p.val + 0x40) 31 = true ∧ s.portSt p.val = pUP ∧ s.esmcDue p.val event = true)
    ∧ (∃ (p : Fin 16) (s : State), s.inv = true ∧ s.isGroup p.val = false ∧ s.esmcSilent p.val = true) :=
  ⟨⟨1, ⟨[1, 2, 3, 4, 5, 6], false, 0, 0, ⟨0, false, 0⟩⟩, portS pUP, by decide +kernel⟩,
   ⟨1, ⟨sealed [1, 2, 3, 4, 5, 6], false, 0, 2, ⟨0, false, 0⟩⟩, [1, 2, 3, 4, 5, 6], portS pUP, by decide +kernel⟩,
   ⟨1, ⟨sealed [1, 2, 3, 4, 5, 6], false, 0, 0, ⟨0, false, 0⟩⟩, [1, 2, 3, 4, 5, 6], portS pUP, by decide +kernel⟩,
   ⟨1, ⟨sealed (ftail 70), false, 0, 0, ⟨0, false, 0⟩⟩, ftail 70, (portS pUP).wrN (macOff 1) 0x80000040, by decide +kernel⟩,
   ⟨1, ⟨sealed (ftail 70), false, 0, 0, ⟨0, false, 0⟩⟩, ftail 70, portS pUP, by decide +kernel⟩,
   ⟨1, ⟨sealed (frTo portMac 0x800 []), false, 0, 0, ⟨0, false, 0⟩⟩, frTo portMac 0x800 [], portS pUP, by decide +kernel⟩,
   ⟨1, ⟨sealed (frTo portMac 0x800 []), false, 0, 0, ⟨0, false, 0⟩⟩, frTo portMac 0x800 [], (portS pUP).modPort 1 (fun x => { x with fifo := List.replicate 28 ⟨ftail 9400, 0, 0, [], {}⟩ }), by decide +kernel⟩,
   ⟨1, ⟨sealed (frTo portMac 0x8808 [0, 1, 0, 9]), false, 0, 0, ⟨0, false, 0⟩⟩, frTo portMac 0x8808 [0, 1, 0, 9], portS pUP, by decide +kernel⟩,
   ⟨1, ((portS pUP).setB (macOff 1 + 4) 28 true).modPort 1 (fun x => { x with pauseFrom := 100, pauseTo := 400 }) |>.modSpn (fun p => { p with ticks := 500 }), by decide +kernel⟩,
   ⟨1, ((((portS pUP).setB (macOff 1 + 4) 28 true).wrN (macOff 1 + 0x10) 0x10000064).modSpn (fun p => { p with ticks := 300000 })).modPort 1 (fun x => { x with pauseTo := 400000 }), by decide +kernel⟩,
   ⟨1, (portS pUP).setB (macOff 1 + 4) 28 true, by decide +kernel⟩,
   ⟨1, ((portS pUP).modPort 1 (fun x => { x with ignoring := true })).modSpn (fun p => { p with ticks := 600000000 }), by decide +kernel⟩,
   ⟨1, false, (portS pUP).wrN (macOff 1 + 0x40) 0x80000000, by decide +kernel⟩,
   ⟨1, (portS pUP).wrN (macOff 1 + 0x44) 0x50000, by decide +kernel⟩⟩

theorem wit_RingsMoveFramesBetweenHostAndPort :
    (∃ (p : Fin 16) (d : List Byte) (h : HostFrame) (r : List HostFrame) (s : State), s.inv = true ∧ s.domOn 7 = true ∧ (s.port p.val).host = h :: r
        ∧ s.b (macOff p.val + 0x94) 31 = true ∧ s.b (macOff p.val + 0xB8) 0 = false
        ∧ s.f (macOff p.val + 0x8C) 15 0 ≠ s.f (macOff p.val + 0x90) 15 0 ∧ leNat (slice d 8 2) % 64 = 0 ∧ 64 ≤ leNat (slice d 8 2)
        ∧ leNat (slice d 8 2) ≤ 16320 ∧ h.f.bytes.length ≤ leNat (slice d 8 2))
    ∧ (∃ (p : Fin 16) (h : HostFrame) (r : List HostFrame) (s : State), s.inv = true ∧ s.domOn 7 = true ∧ (s.port p.val).host = h :: r
        ∧ s.portSt p.val ≠ pOFF ∧ (s.b (macOff p.val + 0x94) 31 = false ∨ s.b (macOff p.val + 0xB8) 0 = true) ∧ (s.port p.val).ringRun = false)
    ∧ (∃ (p : Fin 16) (d : List Byte) (h : HostFrame) (r : List HostFrame) (s : State), s.inv = true ∧ s.domOn 7 = true ∧ s.portSt p.val = pUP
        ∧ (s.port p.val).host = h :: r ∧ s.b (macOff p.val + 0x94) 31 = true ∧ s.b (macOff p.val + 0xB8) 0 = false
        ∧ s.f (macOff p.val + 0x8C) 15 0 ≠ s.f (macOff p.val + 0x90) 15 0 ∧ leNat (slice d 8 2) % 64 = 0 ∧ 64 ≤ leNat (slice d 8 2)
        ∧ leNat (slice d 8 2) ≤ 16320)
    ∧ (∃ (i : Itf) (p : Fin 16) (s : State), s.inv = true ∧ s.serves i (macOff p.val + 0x90) = true)
    ∧ (∃ (i : Itf) (p : Fin 16) (v : Word) (s : State), s.inv = true ∧ s.serves i (macOff p.val + 0x94) = true ∧ v.bit 30 = true)
    ∧ (∃ (i : Itf) (p : Fin 16) (s : State), s.inv = true ∧ s.serves i (macOff p.val + 0xB0) = true)
    ∧ (∃ (i : Itf) (p : Fin 16) (v : Word) (s : State), s.inv = true ∧ s.serves i (macOff p.val + 0xB4) = true ∧ v.bit 30 = true ∧ (s.port p.val).back = [])
    ∧ (∃ (p : Fin 16) (d b : List Byte) (k : Nat) (s : State), s.inv = true ∧ (s.port p.val).back = [] ∧ s.domOn 7 = true
        ∧ s.b (macOff p.val + 0xB4) 31 = true ∧ s.b (macOff p.val + 0xB8) 1 = false ∧ s.f (macOff p.val + 0xA8) 16 0 ≠ 0
        ∧ (s.f (macOff p.val + 0xB0) 15 0 + s.f (macOff p.val + 0xA8) 16 0 - s.f (macOff p.val + 0xAC) 15 0) % s.f (macOff p.val + 0xA8) 16 0 = k + 1
        ∧ byteAt d 30 % 4 = 3 ∧ byteAt d 30 / 4 % 2 = 0 ∧ (b.take (leNat (slice d 8 2))).length + 4 ≤ s.f (macOff p.val) 13 0)
    ∧ (∃ (p : Fin 16) (k : Nat) (s : State), s.inv = true ∧ (s.port p.val).back = [] ∧ s.domOn 7 = true ∧ s.portSt p.val ≠ pOFF
        ∧ s.b (macOff p.val + 0xB4) 31 = true ∧ s.b (macOff p.val + 0xB8) 1 = false ∧ s.f (macOff p.val + 0xA8) 16 0 ≠ 0
        ∧ (s.f (macOff p.val + 0xB0) 15 0 + s.f (macOff p.val + 0xA8) 16 0 - s.f (macOff p.val + 0xAC) 15 0) % s.f (macOff p.val + 0xA8) 16 0 = k + 1) :=
  ⟨⟨1, leBytes 8 0x1000 ++ leBytes 2 2048 ++ ftail 22, ⟨⟨ftail 60, 5, 6, [1], {}⟩, 3⟩, [], (((portS pUP).wrN (macOff 1 + 0x94) 0x80000000).wrN (macOff 1 + 0x90) 4).wrN (macOff 1 + 0x88) 16 |>.modPort 1 (fun x => { x with host := [⟨⟨ftail 60, 5, 6, [1], {}⟩, 3⟩] }), by decide +kernel⟩,
   ⟨1, ⟨⟨ftail 60, 5, 6, [1], {}⟩, 3⟩, [], (portS pUP).modPort 1 (fun x => { x with host := [⟨⟨ftail 60, 5, 6, [1], {}⟩, 3⟩] }), by decide +kernel⟩,
   ⟨1, leBytes 8 0x1000 ++ leBytes 2 2048 ++ ftail 22, ⟨⟨ftail 60, 5, 6, [1], {}⟩, 3⟩, [], (((portS pUP).wrN (macOff 1 + 0x94) 0x80000000).wrN (macOff 1 + 0x90) 4).wrN (macOff 1 + 0x88) 16 |>.modPort 1 (fun x => { x with host := [⟨⟨ftail 60, 5, 6, [1], {}⟩, 3⟩] }), by decide +kernel⟩,
   ⟨.pcie, 1, portS pUP, by decide +kernel⟩,
   ⟨.pcie, 1, 0x40000000, portS pUP, by decide +kernel⟩,
   ⟨.pcie, 1, portS pUP, by decide +kernel⟩,
   ⟨.pcie, 1, 0xC0000000, portS pUP, by decide +kernel⟩,
   ⟨1, leBytes 8 0x1000 ++ leBytes 2 64 ++ ftail 20 ++ [0x0B, 0], ftail 64, 1, (((portS pUP).wrN (macOff 1 + 0xB4) 0x80000000).wrN (macOff 1 + 0xB0) 2).wrN (macOff 1 + 0xA8) 16, by decide +kernel⟩,
   ⟨1, 1, (((portS pUP).wrN (macOff 1 + 0xB4) 0x80000000).wrN (macOff 1 + 0xB0) 2).wrN (macOff 1 + 0xA8) 16, by decide +kernel⟩⟩

theorem wit_FramesStartAndLeave :
    (∃ (p : Fin 16) (pos : TxPos) (skip : Fin 21) (src : Nat) (f : TxFrame) (s : State), s.inv = true ∧ s.portSt p.val = pUP ∧ (s.port p.val).cur = none
        ∧ s.f (macOff p.val + 4) 28 26 = 0
        ∧ (s.lateFrames p.val (s.gridStep p.val * (1 + if s.isGroup p.val = true then skip.val else 0)) (s.txTime p.val (s.tbTime (s.portBase p.val) + pos.off.val * 2 ^ 24) (s.startDelay p.val true pos.fec)) false).arbiter p.val (s.txTime p.val (s.tbTime (s.portBase p.val) + pos.off.val * 2 ^ 24) (s.startDelay p.val true pos.fec)) pos.marker (if s.isGroup p.val = true then pos.run.val else 0) = some (src, f))
    ∧ (∃ (p : Fin 16) (pos : TxPos) (skip : Fin 21) (s : State), s.inv = true ∧ s.portSt p.val = pUP ∧ (s.port p.val).cur = none
        ∧ s.f (macOff p.val + 4) 28 26 = 0
        ∧ (s.lateFrames p.val (s.gridStep p.val * (1 + if s.isGroup p.val = true then skip.val else 0)) (s.txTime p.val (s.tbTime (s.portBase p.val) + pos.off.val * 2 ^ 24) (s.startDelay p.val true pos.fec)) false).arbiter p.val (s.txTime p.val (s.tbTime (s.portBase p.val) + pos.off.val * 2 ^ 24) (s.startDelay p.val true pos.fec)) pos.marker (if s.isGroup p.val = true then pos.run.val else 0) = none)
    ∧ (∃ (p : Fin 16) (s : State), s.inv = true ∧ s.portSt p.val = pUP ∧ (s.port p.val).cur = none ∧ s.f (macOff p.val + 4) 28 26 ≠ 0)
    ∧ (∃ (p : Fin 16) (s : State), s.inv = true ∧ (s.portSt p.val ≠ pUP ∨ (s.port p.val).cur.isSome = true))
    ∧ (∃ (p : Fin 16) (f : TxFrame) (l : List Byte) (r : List TxFrame) (s : State), s.inv = true ∧ s.portSt p.val = pUP ∧ (s.port p.val).cur = none
        ∧ (s.port p.val).back = [] ∧ s.pkt.builds = [] ∧ s.f (macOff p.val + 4) 28 26 = 0 ∧ (s.port p.val).esmc = [] ∧ (s.port p.val).pkt = []
        ∧ (s.port p.val).ring = f :: r ∧ f.launch = none ∧ f.body = .raw l ∧ f.mark = none)
    ∧ (∃ (p : Fin 16) (pos : TxPos) (skip : Fin 21) (f : TxFrame) (l : List Byte) (r : List TxFrame) (lt : Nat) (s : State), s.inv = true
        ∧ s.portSt p.val = pUP ∧ (s.port p.val).cur = none ∧ (s.port p.val).back = [] ∧ s.f (macOff p.val + 4) 28 26 = 0 ∧ (s.port p.val).esmc = []
        ∧ (s.port p.val).pkt = [] ∧ (s.port p.val).ring = f :: r ∧ f.launch = some lt ∧ f.late = false ∧ f.passed = false ∧ f.onGrid = false
        ∧ f.body = .raw l ∧ lt ≤ (s.txTime p.val (s.tbTime (s.portBase p.val) + pos.off.val * 2 ^ 24) (s.startDelay p.val true pos.fec))
        ∧ (s.txTime p.val (s.tbTime (s.portBase p.val) + pos.off.val * 2 ^ 24) (s.startDelay p.val true pos.fec)) < lt + (s.gridStep p.val * (1 + if s.isGroup p.val = true then skip.val else 0)))
    ∧ (∃ (p : Fin 16) (f : TxFrame) (r : List TxFrame) (s : State), s.inv = true ∧ s.portSt p.val = pUP ∧ (s.port p.val).cur = none
        ∧ (s.port p.val).back = [] ∧ s.pkt.builds = [] ∧ s.f (macOff p.val + 4) 28 26 ≠ 0 ∧ (s.port p.val).pkt = [] ∧ (s.port p.val).ring = f :: r
        ∧ f.launch = none)
    ∧ (∃ (p : Fin 16) (src : Nat) (f : TxFrame) (l : List Byte) (s : State), s.inv = true ∧ (s.port p.val).cur = some (src, f) ∧ f.body = .raw l)
    ∧ (∃ (p : Fin 16) (s : State), s.inv = true ∧ (s.port p.val).cur = none)
    ∧ (∃ (p : Fin 16) (f : TxFrame) (l : List Byte) (s : State), s.inv = true ∧ s.portSt p.val ≠ pOFF ∧ (s.port p.val).back = [] ∧ s.pkt.builds = []
        ∧ (s.port p.val).cur = some (2, f) ∧ f.body = .raw l ∧ f.mark = none ∧ f.follow = none ∧ f.client = none ∧ f.kind = none
        ∧ f.inFlight = false ∧ f.esmc = false ∧ f.wb = false ∧ f.onGrid = false)
    ∧ (∃ (p : Fin 16) (n : Nat) (s : State), s.inv = true ∧ s.portSt p.val ≠ pUP ∧ s.pkt.builds = []
        ∧ n = (((s.port p.val).pkt ++ (s.port p.val).ring).filter (fun f => launchGone (s.tbTime (s.portBase p.val) / 2 ^ 24) f)).length)
    ∧ (∃ (p : Fin 16) (s : State), s.inv = true ∧ s.portSt p.val = pUP)
    ∧ (∃ (p : Fin 16) (f : TxFrame) (s : State), s.inv = true ∧ s.portSt p.val = pDOWN ∧ (s.port p.val).back = [] ∧ s.pkt.builds = []
        ∧ (s.port p.val).pkt = [] ∧ (s.port p.val).ring = [f] ∧ launchGone (s.tbTime (s.portBase p.val) / 2 ^ 24) f = true ∧ f.inFlight = false
        ∧ f.mark = none ∧ f.descs = []) :=
  ⟨⟨1, ⟨⟨0, false, 0⟩, 5, 0, 0⟩, 3, 2, { body := .raw [1, 2] }, (portS pUP).modPort 1 (fun x => { x with ring := [{ body := .raw [1, 2] }] }), by decide +kernel⟩,
   ⟨1, ⟨⟨0, false, 0⟩, 5, 0, 0⟩, 3, portS pUP, by decide +kernel⟩,
   ⟨1, ((portS pUP).modPort 1 (fun x => { x with ring := [{ body := .raw [1, 2] }] })).setB (macOff 1 + 4) 28 true, by decide +kernel⟩,
   ⟨1, portS pDOWN, by decide +kernel⟩,
   ⟨1, { body := .raw [1, 2] }, [1, 2], [], (portS pUP).modPort 1 (fun x => { x with ring := [{ body := .raw [1, 2] }] }), by decide +kernel⟩,
   ⟨1, ⟨⟨0, false, 0⟩, 5, 0, 0⟩, 3, { body := .raw [1, 2], launch := some 0 }, [1, 2], [], 0, (portS pUP).modPort 1 (fun x => { x with ring := [{ body := .raw [1, 2], launch := some 0 }] }), by decide +kernel⟩,
   ⟨1, { body := .raw [1, 2] }, [], ((portS pUP).modPort 1 (fun x => { x with ring := [{ body := .raw [1, 2] }] })).setB (macOff 1 + 4) 28 true, by decide +kernel⟩,
   ⟨1, 2, { body := .raw [1, 2] }, [1, 2], (portS pUP).modPort 1 (fun x => { x with cur := some (2, { body := .raw [1, 2] }) }), by decide +kernel⟩,
   ⟨1, portS pUP, by decide +kernel⟩,
   ⟨1, { body := .raw [1, 2], wb := false }, [1, 2], (portS pUP).modPort 1 (fun x => { x with cur := some (2, { body := .raw [1, 2], wb := false }) }), by decide +kernel⟩,
   ⟨1, 1, (portS pDOWN).modPort 1 (fun x => { x with ring := [{ body := .raw [1, 2], launch := some 0 }, { body := .raw [1, 2] }] }), by decide +kernel⟩,
   ⟨1, portS pUP, by decide +kernel⟩,
   ⟨1, { body := .raw [1, 2], launch := some 0 }, (portS pDOWN).modPort 1 (fun x => { x with ring := [{ body := .raw [1, 2], launch := some 0 }] }), by decide +kernel⟩⟩

theorem wit_ReadsAnswerClearAndBank :
    (∃ (i : Itf) (off : Nat) (s : State), s.inv = true ∧ s.reads i off = true ∧ rcMask off ≠ 0 ∧ latched off = [] ∧ banked off = false
        ∧ counterLo off = false ∧ laneOf off = none ∧ off ≠ 0x01000024 ∧ off ≠ 0x02400080 ∧ off ≠ 0x00300040 ∧ instOf off 0x00300100 4 5 = none
        ∧ (Blk.ofOff off ≠ some .flt ∨ s.flt.split = []))
    ∧ (∃ (i : Itf) (off : Nat) (s : State), s.inv = true ∧ s.reads i off = true ∧ rcMask off = 0 ∧ latched off = [] ∧ banked off = false
        ∧ counterLo off = false ∧ laneOf off = none ∧ off ≠ 0x01000024 ∧ off ≠ 0x02400080 ∧ off ≠ 0x00300040 ∧ instOf off 0x00300100 4 5 = none
        ∧ (Blk.ofOff off ≠ some .flt ∨ s.flt.split = []))
    ∧ (∃ (a : Word) (n : Nat) (s : State), s.inv = true ∧ s.hostOn = true ∧ s.bar2Behind = false ∧ s.cstReady = true ∧ n ≤ 8 ∧ s.flawsIn a.toNat n = [])
    ∧ (∃ (a : Word) (n : Nat) (e : EccHit) (s : State), s.inv = true ∧ s.hostOn = true ∧ s.bar2Behind = false ∧ s.cstReady = true
        ∧ s.flawsIn a.toNat n = [e] ∧ e.uncorrectable = true)
    ∧ (∃ (s : State), s.inv = true ∧ s.hostOn = true ∧ s.bar2Behind = false ∧ s.cstReady = false)
    ∧ (∃ (off : BitVec 14) (s : State), s.inv = true ∧ s.hostOn = true ∧ bar4Ok off false = true)
    ∧ (∃ (off : BitVec 14) (s : State), s.inv = true ∧ s.hostOn = true ∧ bar4Ok off true = true)
    ∧ (∃ (s : State), s.inv = true ∧ s.hostOn = true)
    ∧ (∃ (s : State), s.inv = true ∧ s.hostOn = true)
    ∧ (∃ (i : Itf) (m : Fin 5) (s : State), s.inv = true ∧ s.reads i (0x00300100 + 4 * m.val) = true)
    ∧ (∃ (i : Itf) (s : State), s.inv = true ∧ s.reads i 0x00300040 = true)
    ∧ (∃ (i : Itf) (off : Nat) (s : State), s.inv = true ∧ s.reads i off = true ∧ rcMask off = 0 ∧ latched off ≠ [] ∧ banked off = false
        ∧ counterLo off = false ∧ laneOf off = none ∧ off ≠ 0x01000024 ∧ off ≠ 0x02400080 ∧ Blk.ofOff off ≠ some .prf ∧ off ≠ 0x00300040
        ∧ instOf off 0x00300100 4 5 = none ∧ (Blk.ofOff off ≠ some .flt ∨ s.flt.split = []))
    ∧ (∃ (i : Itf) (u : TiuId) (s : State), s.inv = true ∧ s.reads i (tiuOff u + 0x10) = true)
    ∧ (∃ (i : Itf) (s : State), s.inv = true ∧ s.reads i 0x01800200 = true)
    ∧ (∃ (i : Itf) (p : Fin 16) (c : Fin 24) (s : State), s.inv = true ∧ s.reads i (macOff p.val + 0x100 + c.val * 8) = true)
    ∧ (∃ (i : Itf) (m : Fin 18) (errs : Nat) (e b : Nat) (s : State), s.inv = true ∧ s.reads i (lanOff m.val + 0x28) = true
        ∧ e = (match i with | .pcie => ((s.prbsErrs m.val errs).lane m.val).errP | .i2c => ((s.prbsErrs m.val errs).lane m.val).errI)
        ∧ b = (match i with | .pcie => ((s.prbsErrs m.val errs).lane m.val).bitsP | .i2c => ((s.prbsErrs m.val errs).lane m.val).bitsI))
    ∧ (∃ (i : Itf) (s : State), s.inv = true ∧ s.reads i 0x02400080 = true ∧ s.drbgOk = true) :=
  ⟨⟨.i2c, 0x00300050, run [(0x00300050, 0x00030020)], by decide +kernel⟩,
   ⟨.i2c, 0x14, on [], by decide +kernel⟩,
   ⟨0xD0000000, 4, store.mwrite 0xD0000000 [1, 2, 3, 4], by decide +kernel⟩,
   ⟨0xD0000000, 4, ⟨0xD0000000, true⟩, store.dramFail [⟨0xD0000000, true⟩], by decide +kernel⟩,
   ⟨on [], by decide +kernel⟩,
   ⟨0x2000, { on [] with pba := 5 }, by decide +kernel⟩,
   ⟨0x10, on [], by decide +kernel⟩,
   ⟨on [], by decide +kernel⟩,
   ⟨on [], by decide +kernel⟩,
   ⟨.pcie, 1, (on [(dmaOff 1 + 4, 0x20000000)]).tallyAdd 0xA6 7, by decide +kernel⟩,
   ⟨.pcie, (on [(dmaOff 1 + 4, 0x20000000)]).tallyAdd 0xA6 7, by decide +kernel⟩,
   ⟨.i2c, 0x01301010, on [(0x01300000, 0x3FFFFFFF), (0x01301018, 5)], by decide +kernel⟩,
   ⟨.pcie, .p 2, on [(0x01200000, 0xFFF), (tiuOff (.p 2) + 0x14, 8)], by decide +kernel⟩,
   ⟨.pcie, on [(0x01800204, 9)], by decide +kernel⟩,
   ⟨.pcie, 1, 3, (portS 4).wrN (macOff 1 + 0x11C) 4, by decide +kernel⟩,
   ⟨.pcie, 1, 5, 5, 125, ((lane 0x88000001 5).wrN (lanOff 1 + 0x38) 1).modSpn (fun p => { p with ticks := 200 }), by decide +kernel⟩,
   ⟨.pcie, on [(0x02400010, 5)], by decide +kernel⟩⟩

theorem wit_DmaChannelsMoveData :
    (∃ (i : Itf) (c : Fin 16) (s : State), s.inv = true ∧ s.serves i (dmaOff c.val) = true ∧ s.dmaSt c.val = dIDLE)
    ∧ (∃ (i : Itf) (c : Fin 16) (s : State), s.inv = true ∧ s.serves i (dmaOff c.val) = true ∧ s.dmaSt c.val ≠ dIDLE)
    ∧ (∃ (c : Fin 16) (s : State), s.inv = true ∧ s.dmaSt c.val = dSTOPPING)
    ∧ (∃ (i : Itf) (c : Fin 16) (s : State), s.inv = true ∧ s.serves i (dmaOff c.val + 0x10) = true ∧ s.dmaSt c.val = dPARKED)
    ∧ (∃ (i : Itf) (c : Fin 16) (s : State), s.inv = true ∧ s.serves i (dmaOff c.val + 0x10) = true ∧ s.dmaSt c.val ≠ dPARKED)
    ∧ (∃ (c : Fin 16) (d : List Byte) (s : State), s.inv = true ∧ s.dmaSt c.val = dFETCH ∧ isHost (s.rd64 (dmaOff c.val + 0x14)) = true
        ∧ s.rd64 (dmaOff c.val + 0x14) % 64 = 0 ∧ descCheck (d.take 64) = 0)
    ∧ (∃ (c : Fin 16) (d : List Byte) (s : State), s.inv = true ∧ s.dmaSt c.val = dFETCH ∧ isHost (s.rd64 (dmaOff c.val + 0x14)) = true
        ∧ s.rd64 (dmaOff c.val + 0x14) % 64 = 0 ∧ descCheck (d.take 64) ≠ 0 ∧ byteAt (d.take 64) 48 / 2 % 2 = 0)
    ∧ (∃ (c : Fin 16) (s : State), s.inv = true ∧ s.dmaSt c.val = dRUN ∧ isHost (leNat (slice (s.dma.getD c.val []) 8 8)) = true
        ∧ isHost (leNat (slice (s.dma.getD c.val []) 0 8)) = true ∧ leNat (slice (s.dma.getD c.val []) 36 4) = 1
        ∧ leNat (slice (s.dma.getD c.val []) 40 8) ≠ 0 ∧ byteAt (s.dma.getD c.val []) 48 = 0)
    ∧ (∃ (c : Fin 16) (s : State), s.inv = true ∧ s.dmaSt c.val = dRUN ∧ isHost (leNat (slice (s.dma.getD c.val []) 8 8)) = true
        ∧ (isHost (leNat (slice (s.dma.getD c.val []) 0 8)) = true ∨ s.cstReady = true ∧ s.cst.flaws = [])
        ∧ leNat (slice (s.dma.getD c.val []) 40 8) = 0 ∧ byteAt (s.dma.getD c.val []) 48 = 0 ∧ s.b (dmaOff c.val + 4) 27 = false)
    ∧ (∃ (c : Fin 16) (n : BitVec 64) (s : State), s.inv = true ∧ s.dmaSt c.val = dLINK ∧ isHost (s.rd64 (dmaOff c.val + 0x14)) = true ∧ n.toNat % 64 = 0
        ∧ n ≠ 0 ∧ isHost n.toNat = true)
    ∧ (∃ (c : Fin 16) (s : State), s.inv = true ∧ s.dmaSt c.val = dLINK ∧ isHost (s.rd64 (dmaOff c.val + 0x14)) = true ∧ s.b (dmaOff c.val + 4) 27 = false)
    ∧ (∃ (c : Fin 16) (s : State), s.inv = true ∧ s.pcie.devCtl2.bit 4 = false ∧ s.dmaSt c.val = dFETCH)
    ∧ (∃ (c : Fin 16) (s : State), s.inv = true ∧ s.pcie.devCtl2.bit 4 = false ∧ s.dmaSt c.val = dRUN)
    ∧ (∃ (c : Fin 16) (s : State), s.inv = true ∧ s.pcie.devCtl2.bit 4 = false ∧ s.dmaSt c.val = dLINK)
    ∧ (∃ (p : Fin 16) (s : State), s.inv = true ∧ s.pcie.devCtl2.bit 4 = false ∧ s.b (macOff p.val + 0x94) 31 = true ∧ s.b (macOff p.val + 0xB8) 0 = false
        ∧ (s.port p.val).host ≠ [])
    ∧ (∃ (p : Fin 16) (s : State), s.inv = true ∧ s.pcie.devCtl2.bit 4 = false ∧ s.b (macOff p.val + 0xB4) 31 = true ∧ s.b (macOff p.val + 0xB8) 1 = false
        ∧ s.f (macOff p.val + 0xB0) 15 0 ≠ s.f (macOff p.val + 0xAC) 15 0)
    ∧ (∃ (r : HostReq) (s : State), s.inv = true ∧ (s.asks r = false ∨ s.pcie.devCtl2.bit 4 = true)) :=
  ⟨⟨.pcie, 1, on [(dmaOff 1 + 8, 0x1000)], by decide +kernel⟩,
   ⟨.pcie, 1, on [(dmaOff 1, 0x80000000), (dmaOff 1 + 4, 0x20000000)], by decide +kernel⟩,
   ⟨1, on [(dmaOff 1 + 4, 0x60000000)], by decide +kernel⟩,
   ⟨.pcie, 1, on [(dmaOff 1 + 4, 0x40000000)], by decide +kernel⟩,
   ⟨.pcie, 1, on [(dmaOff 1 + 4, 0x20000000)], by decide +kernel⟩,
   ⟨1, leBytes 8 (2 ^ 63) ++ leBytes 8 (2 ^ 63 + 4096) ++ leBytes 4 8 ++ leBytes 4 8 ++ leBytes 4 1 ++ leBytes 4 8 ++ leBytes 4 8 ++ leBytes 4 1 ++ List.replicate 24 0, on [(dmaOff 1 + 4, 0x10000000), (dmaOff 1 + 0x18, 0x80000000)], by decide +kernel⟩,
   ⟨1, leBytes 8 (2 ^ 63) ++ leBytes 8 (2 ^ 63 + 4096) ++ leBytes 4 8 ++ leBytes 4 8 ++ leBytes 4 1 ++ leBytes 4 8 ++ leBytes 4 8 ++ leBytes 4 2 ++ List.replicate 24 0, on [(dmaOff 1 + 4, 0x10000000), (dmaOff 1 + 0x18, 0x80000000)], by decide +kernel⟩,
   ⟨1, { on [(dmaOff 1 + 4, 0x20000000)] with dma := [[], leBytes 8 (2 ^ 63) ++ leBytes 8 (2 ^ 63 + 4096) ++ leBytes 4 8 ++ leBytes 4 8 ++ leBytes 4 1 ++ leBytes 4 8 ++ leBytes 4 8 ++ leBytes 4 1 ++ leBytes 8 64 ++ List.replicate 16 0] ++ List.replicate 14 [] }, by decide +kernel⟩,
   ⟨1, { on [(dmaOff 1 + 4, 0x20000000)] with dma := [[], leBytes 8 (2 ^ 63) ++ leBytes 8 (2 ^ 63 + 4096) ++ leBytes 4 8 ++ leBytes 4 8 ++ leBytes 4 1 ++ leBytes 4 8 ++ leBytes 4 8 ++ leBytes 4 1 ++ List.replicate 24 0] ++ List.replicate 14 [] }, by decide +kernel⟩,
   ⟨1, 0x8000000000000040, on [(dmaOff 1 + 4, 0x30000000), (dmaOff 1 + 0x18, 0x80000000)], by decide +kernel⟩,
   ⟨1, on [(dmaOff 1 + 4, 0x30000000), (dmaOff 1 + 0x18, 0x80000000)], by decide +kernel⟩,
   ⟨1, on [(dmaOff 1 + 4, 0x10000000), (dmaOff 1 + 0x14, 0x40)], by decide +kernel⟩,
   ⟨1, on [(dmaOff 1 + 4, 0x20000000)], by decide +kernel⟩,
   ⟨1, on [(dmaOff 1 + 4, 0x30000000)], by decide +kernel⟩,
   ⟨1, ((portS 4).wrN (macOff 1 + 0x94) 0x80000000).modPort 1 (fun x => { x with host := [⟨⟨[1], 0, 0, [], {}⟩, 3⟩] }), by decide +kernel⟩,
   ⟨1, ((portS 4).wrN (macOff 1 + 0xB4) 0x80000000).wrN (macOff 1 + 0xB0) 2, by decide +kernel⟩,
   ⟨.dmaDesc 1, on [], by decide +kernel⟩⟩

theorem wit_TallyCapturesAndDumps :
    (∃ (s : State), s.inv = true ∧ s.b 0x00500010 31 = true ∧ s.prf.instant < s.tallyInstant ∧ s.prf.queue.length < 2)
    ∧ (∃ (q r : DumpRec) (s : State), s.inv = true ∧ s.b 0x00500010 31 = true ∧ s.prf.instant < s.tallyInstant ∧ s.prf.queue = [q, r])
    ∧ (∃ (s : State), s.inv = true ∧ (s.b 0x00500010 31 = false ∨ s.tallyInstant ≤ s.prf.instant))
    ∧ (∃ (q : DumpRec) (r : List DumpRec) (s : State), s.inv = true ∧ s.prf.queue = q :: r ∧ s.b 0x0050003C 1 = false ∧ isHost (s.rd64 0x00500018) = true
        ∧ (q.seq + 2 ^ 32 - (s.rd 0x00500038).toNat) % 2 ^ 32 < s.f 0x00500030 16 0)
    ∧ (∃ (q : DumpRec) (r : List DumpRec) (s : State), s.inv = true ∧ s.prf.queue = q :: r ∧ s.b 0x0050003C 1 = false ∧ s.dmaMay [s.rd64 0x00500018] = true)
    ∧ (∃ (i : Itf) (v : Word) (s : State), s.inv = true ∧ s.serves i 0x00500010 = true ∧ v.bit 31 = true ∧ s.b 0x00500010 31 = false)
    ∧ (∃ (i : Itf) (v : Word) (s : State), s.inv = true ∧ s.serves i 0x00500010 = true ∧ v.bit 31 = false) :=
  ⟨⟨((on [(0x00500010, 0x80000000), (0x00500014, 1000)]).modBase 0 (fun b => { b with time := 5 * secU })), by decide +kernel⟩,
   ⟨⟨0, []⟩, ⟨1, []⟩, { ((on [(0x00500010, 0x80000000), (0x00500014, 1000)]).modBase 0 (fun b => { b with time := 5 * secU })) with prf := { State.reset.prf with queue := [⟨0, []⟩, ⟨1, []⟩] } }, by decide +kernel⟩,
   ⟨on [(0x00500010, 0x80000000), (0x00500014, 1000)], by decide +kernel⟩,
   ⟨⟨0, []⟩, [], { on [(0x00500010, 0x80000000), (0x0050001C, 0x80000000), (0x00500030, 4)] with prf := { State.reset.prf with queue := [⟨0, []⟩] } }, by decide +kernel⟩,
   ⟨⟨0, []⟩, [], { on [(0x00500010, 0x80000000), (0x0050001C, 0x80000000), (0x00500030, 4)] with prf := { State.reset.prf with queue := [⟨0, []⟩] } }, by decide +kernel⟩,
   ⟨.pcie, 0x80000000, on [], by decide +kernel⟩,
   ⟨.pcie, 0, on [(0x00500010, 0x80000000)], by decide +kernel⟩⟩

theorem wit_HostLinkInterruptsAndSideband :
    (∃ (i : Itf) (b : Fin 21) (k : Blk) (s : State), s.inv = true ∧ Blk.all[b.val]? = some k ∧ s.serves i k.irqOff = true)
    ∧ (∃ (v : Fin 32) (b : Blk) (s : State), s.inv = true ∧ s.hostOn = true ∧ s.pcie.funcMask = false ∧ vectorBlk v.val = some b
        ∧ s.pba.testBit v.val = true ∧ s.summary b ≠ 0 ∧ s.b 0x00300010 2 = true)
    ∧ (∃ (v : Fin 32) (s : State), s.inv = true ∧ s.hostOn = true ∧ s.pba.testBit v.val = false)
    ∧ (∃ (x : BitVec 64) (s : State), s.inv = true ∧ s.hostOn = true ∧ x.getLsbD 0 = true)
    ∧ (∃ (s : State), s.inv = true ∧ s.hostOn = true)
    ∧ (∃ (cause : LinkReset) (s : State), s.inv = true ∧ s.hostOn = true ∧ cause ≠ .flr)
    ∧ (∃ (s : State), s.inv = true ∧ s.hostOn = true)
    ∧ (∃ (s : State), s.inv = true ∧ s.hostOn = true)
    ∧ (∃ (s : State), s.inv = true ∧ s.hostOn = true)
    ∧ (∃ (bits : BitVec 21) (unc : Bool) (s : State), s.inv = true ∧ s.hostOn = true
        ∧ bits &&& ~~~((if unc then s.pcie.aerUncor else s.pcie.aerCor).setWidth 21) ≠ 0)
    ∧ (∃ (s : State), s.inv = true)
    ∧ (∃ (ad p : Byte) (o d : List Byte) (s : State), s.inv = true ∧ s.hostOn = true ∧ ad.toNat = s.f 0x00300050 6 0 * 2 ∧ o.length = 4 ∧ d.length = 4
        ∧ crc8 (ad :: (o ++ d)) = p.toNat ∧ beNat o < 2 ^ 26)
    ∧ (∃ (ad : Byte) (l : List Byte) (s : State), s.inv = true ∧ s.hostOn = true ∧ ad.toNat = s.f 0x00300050 6 0 * 2 ∧ l.length = 9
        ∧ crc8 ((ad :: l).take 9) ≠ (l.getD 8 0).toNat)
    ∧ (∃ (o3 o2 o1 o0 : Byte) (w r : Byte) (s : State), s.inv = true ∧ s.hostOn = true ∧ w.toNat = s.f 0x00300050 6 0 * 2
        ∧ r.toNat = s.f 0x00300050 6 0 * 2 + 1 ∧ beNat [o3, o2, o1, o0] < 2 ^ 26 ∧ s.reads .i2c (beNat [o3, o2, o1, o0]) = true ∧ rcMask (beNat [o3,
        o2, o1, o0]) = 0 ∧ latched (beNat [o3, o2, o1, o0]) = [] ∧ banked (beNat [o3, o2, o1, o0]) = false ∧ counterLo (beNat [o3, o2, o1,
        o0]) = false ∧ laneOf (beNat [o3, o2, o1, o0]) = none ∧ beNat [o3, o2, o1, o0] ≠ 0x02400080 ∧ beNat [o3, o2, o1, o0] ≠ 0x01000024
        ∧ (beNat [o3, o2, o1, o0]) ≠ 0x00300040 ∧ instOf (beNat [o3, o2, o1, o0]) 0x00300100 4 5 = none ∧ (Blk.ofOff (beNat [o3, o2, o1,
        o0]) ≠ some .flt ∨ s.flt.split = [])) :=
  ⟨⟨.pcie, 4, .dma, on [(0x00400020, 3)], by decide +kernel⟩,
   ⟨5, .dma, { on [(0x00400020, 3), (0x00400024, 3), (0x00300010, 4)] with pba := 32, vecMask := 32 }, by decide +kernel⟩,
   ⟨3, on [], by decide +kernel⟩,
   ⟨1, on [], by decide +kernel⟩,
   ⟨on [], by decide +kernel⟩,
   ⟨.hotReset, on [(0x00300010, 7)], by decide +kernel⟩,
   ⟨on [(0x00300010, 7), (dmaOff 3, 0x80000000)], by decide +kernel⟩,
   ⟨on [], by decide +kernel⟩,
   ⟨on [], by decide +kernel⟩,
   ⟨0x4000, true, on [], by decide +kernel⟩,
   ⟨on [(0x00300010, 7)], by decide +kernel⟩,
   ⟨0, BitVec.ofNat 8 (crc8 (0 :: ([0x01, 0, 0, 0x10] ++ [0, 0, 0, 3]))), [0x01, 0, 0, 0x10], [0, 0, 0, 3], on [], by decide +kernel⟩,
   ⟨0, ftail 9, on [], by decide +kernel⟩,
   ⟨0, 0, 0, 0x14, 0, 1, on [], by decide +kernel⟩⟩

theorem wit_KeyCommandsEndWithTheirCode :
    (∃ (i : Itf) (slot : BitVec 6) (kid ld mask : BitVec 256) (s : State), s.inv = true ∧ s.serves i 0x02400100 = true ∧ s.keys.frozen = false
        ∧ s.keyBar = 0 ∧ s.drbgOk = true ∧ s.keys.derived = some (kid, ld, mask) ∧ slot.toNat ≠ 4 ∧ slot.toNat ≠ 5)
    ∧ (∃ (i : Itf) (kid ld mask : BitVec 256) (s : State), s.inv = true ∧ s.serves i 0x02400100 = true ∧ s.keys.frozen = false ∧ s.keyBar = 0
        ∧ s.drbgOk = true ∧ s.keys.derived = some (kid, ld, mask))
    ∧ (∃ (i : Itf) (s : State), s.inv = true ∧ s.serves i 0x02400100 = true ∧ s.keys.frozen = false ∧ s.keyBar = 0 ∧ s.drbgOk = false)
    ∧ (∃ (i : Itf) (s : State), s.inv = true ∧ s.serves i 0x02400100 = true ∧ s.keys.frozen = false ∧ s.rootValid = false)
    ∧ (∃ (i : Itf) (s : State), s.inv = true ∧ s.serves i 0x02400100 = true ∧ s.keys.frozen = true)
    ∧ (∃ (i : Itf) (slot : BitVec 6) (kid ld mask : BitVec 256) (s : State), s.inv = true ∧ s.serves i 0x02400100 = true ∧ s.keys.frozen = false
        ∧ s.keyBar = 0 ∧ s.keys.derived = some (kid, ld, mask) ∧ slot.toNat ≠ 4 ∧ slot.toNat ≠ 5)
    ∧ (∃ (i : Itf) (kid ld mask : BitVec 256) (s : State), s.inv = true ∧ s.serves i 0x02400100 = true ∧ s.keys.frozen = false ∧ s.keyBar = 0
        ∧ s.keys.derived = some (kid, ld, mask))
    ∧ (∃ (i : Itf) (s : State), s.inv = true ∧ s.serves i 0x02400100 = true ∧ s.keys.frozen = false ∧ s.rootValid = true ∧ s.keys.notAuth = true)
    ∧ (∃ (i : Itf) (s : State), s.inv = true ∧ s.serves i 0x02400100 = true ∧ s.keys.frozen = false ∧ s.rootValid = false)
    ∧ (∃ (i : Itf) (s : State), s.inv = true ∧ s.serves i 0x02400100 = true ∧ s.keys.frozen = true)
    ∧ (∃ (i : Itf) (slot : BitVec 6) (s : State), s.inv = true ∧ s.serves i 0x02400100 = true ∧ s.keyBar = 0
        ∧ (4 ≤ slot.toNat ∨ s.ringState slot.toNat = 0) ∧ slot.toNat ≠ 5)
    ∧ (∃ (i : Itf) (slot : BitVec 6) (s : State), s.inv = true ∧ s.serves i 0x02400100 = true ∧ s.keyBar = 0 ∧ slot.toNat < 4 ∧ s.ringState slot.toNat ≠ 0)
    ∧ (∃ (i : Itf) (kid ld mask : BitVec 256) (s : State), s.inv = true ∧ s.serves i 0x02400100 = true ∧ s.keys.frozen = false ∧ s.keyBar = 0
        ∧ s.keys.derived = some (kid, ld, mask))
    ∧ (∃ (i : Itf) (s : State), s.inv = true ∧ s.serves i 0x02400100 = true ∧ s.keys.frozen = true)
    ∧ (∃ (i : Itf) (pub : BitVec 256) (n : BitVec 128) (s : State), s.inv = true ∧ s.serves i 0x02400100 = true ∧ s.keys.chestOnly = false
        ∧ s.img.ownerKey = some pub ∧ s.keys.nonce = some n)
    ∧ (∃ (i : Itf) (s : State), s.inv = true ∧ s.serves i 0x02400100 = true ∧ s.keys.chestOnly = false ∧ s.img.ownerKey = none)
    ∧ (∃ (i : Itf) (s : State), s.inv = true ∧ s.serves i 0x02400100 = true ∧ s.keys.chestOnly = true)
    ∧ (∃ (i : Itf) (s : State), s.inv = true ∧ s.serves i 0x02400100 = true ∧ s.pwr.mainOff = false)
    ∧ (∃ (i : Itf) (s : State), s.inv = true ∧ s.serves i 0x02400100 = true ∧ s.pwr.mainOff = false ∧ s.keys.zeroTo ≤ s.spn.ticks) :=
  ⟨⟨.pcie, 9, 1, 2, 3, ksl, by decide +kernel⟩,
   ⟨.pcie, 1, 2, 3, ksl, by decide +kernel⟩,
   ⟨.pcie, ksl.setB 0x02400010 2 false, by decide +kernel⟩,
   ⟨.pcie, on [], by decide +kernel⟩,
   ⟨.pcie, ksl.modKeys (fun k => { k with frozen := true }), by decide +kernel⟩,
   ⟨.pcie, 9, 1, 2, 3, ksl, by decide +kernel⟩,
   ⟨.pcie, 1, 2, 3, ksl, by decide +kernel⟩,
   ⟨.pcie, ksl.modKeys (fun k => { k with notAuth := true }), by decide +kernel⟩,
   ⟨.pcie, on [], by decide +kernel⟩,
   ⟨.pcie, ksl.modKeys (fun k => { k with frozen := true }), by decide +kernel⟩,
   ⟨.pcie, 9, ksl, by decide +kernel⟩,
   ⟨.pcie, 1, ksl.wrN 0x02203420 4, by decide +kernel⟩,
   ⟨.pcie, 1, 2, 3, ksl, by decide +kernel⟩,
   ⟨.pcie, ksl.modKeys (fun k => { k with frozen := true }), by decide +kernel⟩,
   ⟨.pcie, 7, 5, (ksl.modKeys (fun k => { k with nonce := some 5 })).modImg (fun m => { m with pub := 7, ownerHash := keyHash 7, ownerComp := ~~~(keyHash 7), ownerBits := 1 }), by decide +kernel, by decide +kernel, rfl, by simp [State.modImg, Img.ownerKey, Img.ownerMatches, Img.ownerRow], rfl⟩,
   ⟨.pcie, ksl, by decide +kernel⟩,
   ⟨.pcie, ksl.modKeys (fun k => { k with chestOnly := true }), by decide +kernel⟩,
   ⟨.pcie, ksl, by decide +kernel⟩,
   ⟨.pcie, ksl, by decide +kernel⟩⟩

theorem wit_TamperDetectionsAndTheRoot :
    (∃ (source : Fin 7) (s : State), s.inv = true ∧ s.pwr.mainOff = false ∧ (4 ≤ source.val ∨ s.b 0x02402000 source.val = true)
        ∧ s.keys.zeroTo ≤ s.spn.ticks)
    ∧ (∃ (source : Fin 7) (s : State), s.inv = true ∧ s.pwr.mainOff = true ∧ 4 ≤ source.val)
    ∧ (∃ (source : Fin 7) (s : State), s.inv = true ∧ s.pwr.mainOff = false ∧ 4 ≤ source.val ∧ s.spn.ticks < s.keys.zeroTo)
    ∧ (∃ (source : Fin 7) (s : State), s.inv = true ∧ source.val < 4 ∧ s.b 0x02402000 source.val = false)
    ∧ (∃ (b : Nat) (s : State), s.inv = true ∧ s.keys.burnFrom = some b ∧ b + 9000000 ≤ s.spn.ticks)
    ∧ (∃ (b : Nat) (s : State), s.inv = true ∧ s.keys.burnFrom = some b ∧ s.spn.ticks < b + 9000000)
    ∧ (∃ (b : Nat) (s : State), s.inv = true ∧ s.keys.burnFrom = some b ∧ s.keys.rootField ≠ 3)
    ∧ (∃ (i : Itf) (v : Word) (intact : BitVec 4) (s : State), s.inv = true ∧ s.serves i 0x02402000 = true ∧ v.field 3 0 &&& intact.toNat = v.field 3 0)
    ∧ (∃ (i : Itf) (v : Word) (intact : BitVec 4) (k : Fin 4) (s : State), s.inv = true ∧ s.serves i 0x02402000 = true ∧ s.pwr.mainOff = false
        ∧ s.keys.zeroTo ≤ s.spn.ticks ∧ v.bit k.val = true ∧ intact.toNat.testBit k.val = false)
    ∧ (∃ (restarts : Nat) (s : State), s.inv = true ∧ s.drbgOk = true ∧ 2 ≤ restarts)
    ∧ (∃ (restarts : Nat) (s : State), s.inv = true ∧ restarts < 2)
    ∧ (∃ (s : State), s.inv = true ∧ s.drbgOk = false ∧ 3 ≤ s.phase ∧ 60 ≤ ticksSec s.keys.retryFrom s.spn.ticks)
    ∧ (∃ (s : State), s.inv = true ∧ ticksSec s.keys.retryFrom s.spn.ticks < 60)
    ∧ (∃ (s : State), s.inv = true ∧ s.pwr.mainOff = false ∧ s.keys.frozen = false)
    ∧ (∃ (s : State), s.inv = true ∧ s.keys.frozen = true ∧ s.spn.ticks ≤ s.keys.frozenTo ∧ s.keys.zeroTo ≤ s.spn.ticks ∧ s.pwr.mainOff = false
        ∧ s.heldP = [] ∧ s.heldI = [])
    ∧ (∃ (s : State), s.inv = true ∧ s.keys.frozen = true ∧ s.keys.frozenTo ≤ s.spn.ticks)
    ∧ (∃ (s : State), s.inv = true ∧ s.pwr.mainOff = true) :=
  ⟨⟨5, ksl, by decide +kernel⟩,
   ⟨5, { ksl with pwr := { ksl.pwr with mainOff := true } }, by decide +kernel⟩,
   ⟨5, ksl.modKeys (fun k => { k with zeroTo := 5 }), by decide +kernel⟩,
   ⟨2, ksl, by decide +kernel⟩,
   ⟨0, ((ksl.setB 0x02402010 31 true).modKeys (fun k => { k with burnFrom := some 0 })).modSpn (fun p => { p with ticks := 9000000 }), by decide +kernel⟩,
   ⟨0, ksl.modKeys (fun k => { k with burnFrom := some 0 }), by decide +kernel⟩,
   ⟨0, ksl.modKeys (fun k => { k with burnFrom := some 0 }), by decide +kernel⟩,
   ⟨.pcie, 5, 7, ksl, by decide +kernel⟩,
   ⟨.pcie, 5, 2, 2, ksl, by decide +kernel⟩,
   ⟨2, ksl, by decide +kernel⟩,
   ⟨1, ksl, by decide +kernel⟩,
   ⟨(on []).modSpn (fun p => { p with ticks := 120000000000 }), by decide +kernel⟩,
   ⟨on [], by decide +kernel⟩,
   ⟨ksl, by decide +kernel⟩,
   ⟨ksl.modKeys (fun k => { k with frozen := true, frozenTo := 9 }), by decide +kernel⟩,
   ⟨ksl.modKeys (fun k => { k with frozen := true }), by decide +kernel⟩,
   ⟨{ ksl with pwr := { ksl.pwr with mainOff := true } }, by decide +kernel⟩⟩

theorem wit_LoadWindowAndOwnerRow :
    (∃ (i : Itf) (s : State), s.inv = true ∧ s.serves i 0x00000030 = true ∧ s.phase = phLOADWAIT)
    ∧ (∃ (i : Itf) (s : State), s.inv = true ∧ s.serves i 0x00000030 = true ∧ s.phase ≠ phLOADWAIT)
    ∧ (∃ (i : Itf) (s : State), s.inv = true ∧ s.serves i 0x00000038 = true ∧ s.phase = phLOADWAIT ∧ s.img.full = false ∧ s.f 0x00000034 18 0 % 4 = 0
        ∧ s.f 0x00000034 18 0 ≤ s.img.buf.length)
    ∧ (∃ (i : Itf) (s : State), s.inv = true ∧ s.serves i 0x00000030 = true ∧ s.phase = phLOADWAIT)
    ∧ (∃ (i : Itf) (s : State), s.inv = true ∧ s.serves i 0x00000038 = true ∧ s.phase ≠ phLOADWAIT)
    ∧ (∃ (i : Itf) (s : State), s.inv = true ∧ s.serves i 0x00000030 = true ∧ s.phase ≠ phLOADWAIT)
    ∧ (∃ (i : Itf) (s : State), s.inv = true ∧ s.serves i 0x00000060 = true ∧ s.ownerTakes = true ∧ s.img.ownerRow = 0)
    ∧ (∃ (i : Itf) (s : State), s.inv = true ∧ s.serves i 0x00000060 = true ∧ s.ownerTakes = true ∧ s.img.ownerRow ≠ 0)
    ∧ (∃ (i : Itf) (s : State), s.inv = true ∧ s.serves i 0x00000060 = true ∧ s.ownerTakes = true ∧ s.img.ownerRow = 1)
    ∧ (∃ (i : Itf) (s : State), s.inv = true ∧ s.serves i 0x00000060 = true ∧ s.ownerTakes = true ∧ s.img.ownerRow ≠ 1)
    ∧ (∃ (s : State), s.inv = true ∧ s.b 0x00000064 31 = true) :=
  ⟨⟨.i2c, phaseSt 5, by decide +kernel⟩,
   ⟨.i2c, phaseSt 9, by decide +kernel⟩,
   ⟨.i2c, phaseSt 5, by decide +kernel⟩,
   ⟨.i2c, phaseSt 5, by decide +kernel⟩,
   ⟨.i2c, phaseSt 9, by decide +kernel⟩,
   ⟨.i2c, phaseSt 9, by decide +kernel⟩,
   ⟨.i2c, phaseSt 5, by decide +kernel⟩,
   ⟨.i2c, (phaseSt 5).modImg (fun m => { m with ownerBits := 8 }), by decide +kernel⟩,
   ⟨.i2c, (phaseSt 5).modImg (fun m => { m with ownerBits := 1, ownerComp := ~~~0 }), by decide +kernel⟩,
   ⟨.i2c, phaseSt 5, by decide +kernel⟩,
   ⟨((phaseSt 5).setB 0x00000064 31 true).modImg (fun m => { m with burnHash := 5 }), by decide +kernel⟩⟩

theorem wit_StartUpRunsItsPhases :
    (∃ (s : State), s.inv = true ∧ s.phase = phRESET ∧ s.b 0x02402010 31 = false)
    ∧ (∃ (s : State), s.inv = true ∧ s.phase = phRESET ∧ s.b 0x02402010 31 = true)
    ∧ (∃ (s : State), s.inv = true ∧ s.phase = phKEYS ∧ s.b 0x00000010 19 = true ∧ s.keys.rootField = 1 ∧ s.f 0x00000010 23 22 = 1
        ∧ s.keys.vbatLost = none ∧ s.keys.notAuth = false)
    ∧ (∃ (s : State), s.inv = true ∧ s.phase = phKEYS ∧ s.b 0x00000010 19 = true ∧ s.keys.rootField = 1 ∧ s.f 0x00000010 23 22 = 1
        ∧ s.keys.vbatLost = none ∧ s.keys.notAuth = true)
    ∧ (∃ (s : State), s.inv = true ∧ s.phase = phKEYS ∧ s.b 0x00000010 19 = true ∧ s.keys.rootField = 0 ∧ s.b 0x02402010 31 = false ∧ s.keys.vbatLost = none)
    ∧ (∃ (s : State), s.inv = true ∧ s.phase = phKEYS ∧ s.b 0x00000010 19 = true ∧ s.keys.rootField = 0 ∧ s.b 0x02402010 31 = true)
    ∧ (∃ (s : State), s.inv = true ∧ s.phase = phKEYS ∧ s.b 0x00000010 19 = true ∧ s.keys.rootField = 3 ∧ s.f 0x00000010 23 22 = 0 ∧ s.keys.vbatLost = none)
    ∧ (∃ (s : State), s.inv = true ∧ s.phase = phKEYS ∧ s.b 0x00000010 19 = false)
    ∧ (∃ (prim sec : List Byte) (s : State), s.inv = true ∧ s.phase = phFETCH ∧ s.copyOk 0 prim = true ∧ imageGen sec ≤ imageGen prim)
    ∧ (∃ (prim sec : List Byte) (s : State), s.inv = true ∧ s.phase = phFETCH ∧ s.copyOk 1 sec = true
        ∧ (s.copyOk 0 prim = false ∨ imageGen prim < imageGen sec))
    ∧ (∃ (prim sec : List Byte) (s : State), s.inv = true ∧ s.phase = phFETCH ∧ s.copyOk 0 prim = false ∧ s.copyOk 1 sec = false)
    ∧ (∃ (s : State), s.inv = true ∧ s.phase = phVERIFY)
    ∧ (∃ (s : State), s.inv = true ∧ s.phase = phVERIFY ∧ slice s.img.buf 0 4 ≠ magic ∧ s.img.src = 2)
    ∧ (∃ (m : RegFile) (s : State), s.inv = true ∧ s.phase = phSTRUCT ∧ structOf (imageRecords s.img.buf 1) [] = .inr m
        ∧ (structIfs m (imageRecords s.img.buf 2)).ruleFail = none ∧ (structState m).domainFail (imageDomains s.img.buf) = none)
    ∧ (∃ (o : Nat) (s : State), s.inv = true ∧ s.phase = phSTRUCT ∧ structOf (imageRecords s.img.buf 1) [] = .inl o ∧ o < 2 ^ 32)
    ∧ (∃ (m : RegFile) (n : Nat) (s : State), s.inv = true ∧ s.phase = phSTRUCT ∧ structOf (imageRecords s.img.buf 1) [] = .inr m
        ∧ (structIfs m (imageRecords s.img.buf 2)).ruleFail = some n)
    ∧ (∃ (s : State), s.inv = true ∧ s.phase = phPOWER)
    ∧ (∃ (s : State), s.inv = true ∧ s.phase = phPOWER ∧ imageRecords s.img.buf 2 = [])
    ∧ (∃ (s : State), s.inv = true ∧ s.phase = phREGS ∧ (∀ ch ∈ allChans, s.pendingOf ch = []) ∧ s.todRuleFail = none) :=
  ⟨⟨State.reset, by decide +kernel⟩,
   ⟨State.reset.setB 0x02402010 31 true, by decide +kernel⟩,
   ⟨((phaseSt 2).setF 0x00000010 23 22 1).modKeys (fun k => { k with rootField := 1 }), by decide +kernel⟩,
   ⟨((phaseSt 2).setF 0x00000010 23 22 1).modKeys (fun k => { k with rootField := 1, notAuth := true }), by decide +kernel⟩,
   ⟨phaseSt 2, by decide +kernel⟩,
   ⟨(phaseSt 2).setB 0x02402010 31 true, by decide +kernel⟩,
   ⟨(phaseSt 2).modKeys (fun k => { k with rootField := 3 }), by decide +kernel⟩,
   ⟨(phaseSt 2).setB 0x00000010 19 false, by decide +kernel⟩,
   ⟨img0, [], phaseSt 3, by decide +kernel⟩,
   ⟨[], img0, phaseSt 3, by decide +kernel⟩,
   ⟨[], [1], phaseSt 3, by decide +kernel⟩,
   ⟨imgSt 4 [], by decide +kernel⟩,
   ⟨(imgSt 4 []).modImg (fun m => { m with src := 2 }), by decide +kernel⟩,
   ⟨(imgSt 6 img0).img.regs, imgSt 6 img0, by decide +kernel⟩,
   ⟨80, imgSt 6 (mkImage 0x13 [(0x01000010, 1, 1)] []), by decide +kernel⟩,
   ⟨[], 1, imgSt 6 (mkImage 0x13 [] []), by decide +kernel⟩,
   ⟨imgSt 7 img0, by decide +kernel⟩,
   ⟨imgSt 7 img0, by decide +kernel⟩,
   ⟨imgSt 8 img0, by decide +kernel⟩⟩

theorem wit_DomainRequestsAndRails :
    (∃ (i : Itf) (s : State), s.inv = true ∧ s.serves i 0x00100010 = true ∧ s.domBusy = true)
    ∧ (∃ (i : Itf) (v : Word) (s : State), s.inv = true ∧ s.serves i 0x00100010 = true ∧ s.domBusy = false
        ∧ v.field 9 0 &&& s.f 0x00100000 9 0 = v.field 9 0 ∧ v.field 9 0 &&& 0x13 = 0x13 ∧ domClosed (v.field 9 0) = true
        ∧ s.f 0x00100014 9 0 &&& 0x13 = 0x13 ∧ s.f 0x00100014 9 0 ≠ v.field 9 0)
    ∧ (∃ (d : Nat) (s : State), s.inv = true ∧ s.domBusy = true ∧ s.domNext = some d ∧ d < 10 ∧ s.pwr.waits = [] ∧ s.pwr.reqs = [] ∧ s.heldP = []
        ∧ s.heldI = [])
    ∧ (∃ (d : Nat) (s : State), s.inv = true ∧ s.domBusy = true ∧ s.domNext = some d ∧ s.domOn d = false ∧ s.pwr.domTick + 2000000 ≤ s.spn.ticks
        ∧ s.pwr.waits = [] ∧ s.pwr.reqs = [] ∧ s.heldP = [] ∧ s.heldI = [])
    ∧ (∃ (s : State), s.inv = true ∧ s.spn.ticks < s.pwr.domTick + 2000000)
    ∧ (∃ (s : State), s.inv = true ∧ s.pwr.mainOff = false)
    ∧ (∃ (s : State), s.inv = true)
    ∧ (∃ (s : State), s.inv = true)
    ∧ (∃ (s : State), s.inv = true ∧ s.running = true ∧ s.rd (bndOff 0) ≠ 0xFFFFFFFF ∧ s.pwr.keepCopy / 2 ^ 15 ≠ s.tbSec 0) :=
  ⟨⟨.pcie, on [(0x00100014, 0x800003FF)], by decide +kernel⟩,
   ⟨.pcie, 0x13, on [(0x00100000, 0x3FF)], by decide +kernel⟩,
   ⟨2, (run [(0x00100000, 0x3FF), (0x00100014, 0x80000013), (0x00100010, 0x17)]), by decide +kernel⟩,
   ⟨2, (run [(0x00100000, 0x3FF), (0x00100014, 0x80000013), (0x00100010, 0x17)]).modSpn (fun p => { p with ticks := 2000000 }), by decide +kernel⟩,
   ⟨run [(0x00100000, 0x3FF), (0x00100014, 0x80000013), (0x00100010, 0x17)], by decide +kernel⟩,
   ⟨on [(0x00100030, 0x3FF)], by decide +kernel⟩,
   ⟨ksl, by decide +kernel⟩,
   ⟨ksl, by decide +kernel⟩,
   ⟨(on [(bndOff 0, 500)]).modBase 0 (fun b => { b with time := 5 * secU }), by decide +kernel⟩⟩

theorem wit_WatchTakesItsMessages :
    (∃ (m : FaultMsg) (s : State), s.inv = true ∧ s.running = true ∧ s.faults = [m] ∧ s.flt.early = 0 ∧ s.flt.split = [] ∧ s.heldP = [] ∧ s.heldI = []
        ∧ s.maskedSrc m.src = false ∧ m.sev = 0 ∧ m.src < 0x70 ∧ ((s.rd 0x00200040).toNat + 2 ^ 32 - (s.rd 0x00200044).toNat) % 2 ^ 32 < 1024)
    ∧ (∃ (m : FaultMsg) (s : State), s.inv = true ∧ s.running = true ∧ s.faults = [m] ∧ s.flt.early = 0 ∧ s.flt.split = [] ∧ s.heldP = [] ∧ s.heldI = []
        ∧ s.maskedSrc m.src = true)
    ∧ (∃ (m : FaultMsg) (s : State), s.inv = true ∧ s.running = true ∧ s.faults = [m] ∧ s.flt.early = 0 ∧ s.flt.split = [] ∧ s.heldP = [] ∧ s.heldI = []
        ∧ s.maskedSrc m.src = false ∧ 1 ≤ m.sev ∧ m.sev ≤ 3 ∧ m.src < 0x70 ∧ s.b 0x00200030 12 = false ∧ s.b 0x00200038 12 = false
        ∧ s.reaction m = 0 ∧ ((s.rd 0x00200040).toNat + 2 ^ 32 - (s.rd 0x00200044).toNat) % 2 ^ 32 < 1024)
    ∧ (∃ (m : FaultMsg) (s : State), s.inv = true ∧ s.running = true ∧ s.faults = [m] ∧ s.flt.early = 0 ∧ s.flt.split = [] ∧ s.heldP = [] ∧ s.heldI = []
        ∧ s.maskedSrc m.src = false ∧ (s.reaction m).testBit 3 = true ∧ m.src < 0x70)
    ∧ (∃ (m : FaultMsg) (s : State), s.inv = true ∧ s.running = true ∧ s.faults = [m] ∧ s.flt.early = 0 ∧ s.flt.split = [] ∧ s.heldP = [] ∧ s.heldI = []
        ∧ s.maskedSrc m.src = false ∧ m.sev = 0 ∧ m.src < 0x70 ∧ 1024 ≤ ((s.rd 0x00200040).toNat + 2 ^ 32 - (s.rd 0x00200044).toNat) % 2 ^ 32)
    ∧ (∃ (i : Itf) (worst : Bool) (s : State), s.inv = true ∧ s.serves i (if worst then 0x00200038 else 0x00200030) = true) :=
  ⟨⟨⟨0x5C, 1, 0, 5⟩, { on [] with faults := [⟨0x5C, 1, 0, 5⟩] }, by decide +kernel⟩,
   ⟨⟨0x5C, 1, 1, 5⟩, { on [] with faults := [⟨0x5C, 1, 1, 5⟩], flt := { State.reset.flt with windows := [(Blk.bit .mac, 0)] } }, by decide +kernel⟩,
   ⟨⟨0x5C, 1, 2, 5⟩, (({ on [] with faults := [⟨0x5C, 1, 2, 5⟩] } : State)).wrN (reactOff 0x5C) 0, by decide +kernel⟩,
   ⟨⟨0x5C, 1, 1, 5⟩, (({ on [] with faults := [⟨0x5C, 1, 1, 5⟩] } : State)).wrN (reactOff 0x5C) 0x800, by decide +kernel⟩,
   ⟨⟨0x5C, 1, 0, 5⟩, { on [(0x00200040, 1024)] with faults := [⟨0x5C, 1, 0, 5⟩] }, by decide +kernel⟩,
   ⟨.pcie, true, on [(0x00200038, 0x5C015003)], by decide +kernel⟩⟩

theorem wit_BlockResetsRestartAndSafeState :
    (∃ (i : Itf) (v : Word) (b : Blk) (s : State), s.inv = true ∧ s.serves i 0x00200060 = true ∧ s.safe = false ∧ b ∈ Blk.all ∧ v.bit b.bit = true
        ∧ b.resets = true ∧ s.flt.split = [] ∧ s.heldP = [] ∧ s.heldI = [])
    ∧ (∃ (i : Itf) (s : State), s.inv = true ∧ s.serves i 0x00200060 = true ∧ s.safe = true ∧ s.flt.split = [] ∧ s.heldP = [] ∧ s.heldI = [])
    ∧ (∃ (b : Fin 21) (s : State), s.inv = true
        ∧ s.flt.windows.all (fun x => decide (x.1 ≠ b.val) || decide (x.2 + resetWindow x.1 + 20000 ≤ s.spn.ticks)) = true)
    ∧ (∃ (s : State), s.inv = true ∧ s.flt.windows.all (fun x => decide (s.spn.ticks < x.2 + resetWindow x.1 + 20000)) = true)
    ∧ (∃ (i : Itf) (v : Word) (s : State), s.inv = true ∧ s.serves i 0x00200070 = true ∧ v.field 31 24 = 0xA5)
    ∧ (∃ (i : Itf) (v : Word) (s : State), s.inv = true ∧ s.serves i 0x00200070 = true ∧ v.field 31 24 ≠ 0xA5)
    ∧ (∃ (i : Itf) (v : Word) (s : State), s.inv = true ∧ s.serves i 0x00200074 = true ∧ v.field 15 0 = 0x5AFE ∧ s.safe = false)
    ∧ (∃ (i : Itf) (v : Word) (s : State), s.inv = true ∧ s.serves i 0x00200074 = true ∧ v.field 15 0 = 0x5AFE ∧ s.safe = true)
    ∧ (∃ (o : BitVec 16) (x : Word) (s : State), s.inv = true ∧ s.running = true ∧ s.safe = false ∧ isPair o.toNat = true ∧ s.flt.split = []
        ∧ x &&& pairBits o.toNat ≠ 0)
    ∧ (∃ (o : BitVec 16) (x : Word) (s : State), s.inv = true ∧ s.running = true ∧ isPair o.toNat = true ∧ s.flt.split = [] ∧ x &&& pairBits o.toNat ≠ 0)
    ∧ (∃ (i : Itf) (o : Nat) (x : Word) (s : State), s.inv = true ∧ s.reads i (0x00200000 + o) = true ∧ s.flt.split = [(o, x)] ∧ s.safe = false
        ∧ o < 0x100000)
    ∧ (∃ (s : State), s.inv = true ∧ (s.running = false ∨ s.flt.split = [])) :=
  ⟨⟨.pcie, 0x20, .prf, on [], by decide +kernel⟩,
   ⟨.pcie, on [(0x00200014, 0x80000000)], by decide +kernel⟩,
   ⟨3, ({ on [] with flt := { State.reset.flt with windows := [(3, 0), (4, 0)] } } : State).modSpn (fun p => { p with ticks := 10000000000 }), by decide +kernel⟩,
   ⟨{ on [] with flt := { State.reset.flt with windows := [(3, 0), (4, 0)] } }, by decide +kernel⟩,
   ⟨.pcie, 0xA5000000, ksl, by decide +kernel⟩,
   ⟨.pcie, 0, ksl, by decide +kernel⟩,
   ⟨.pcie, 0x5AFE, on [], by decide +kernel⟩,
   ⟨.pcie, 0x5AFE, on [(0x00200014, 0x80000000)], by decide +kernel⟩,
   ⟨0x10, 1, on [], by decide +kernel⟩,
   ⟨0x10, 1, on [], by decide +kernel⟩,
   ⟨.pcie, 0x10, 1, { on [] with flt := { State.reset.flt with split := [(0x10, 1)] } }, by decide +kernel⟩,
   ⟨on [], by decide +kernel⟩⟩

theorem wit_TandemClaimsDecideTheRole :
    (∃ (s : State), s.inv = true ∧ s.domOn 9 = true ∧ s.tandemUs ≠ s.tnd.cAt)
    ∧ (∃ (s : State), s.inv = true ∧ s.tandemUs = s.tnd.cAt)
    ∧ (∃ (l : List Byte) (c : Byte) (s : State), s.inv = true ∧ s.domOn 9 = true ∧ l.length = 10 ∧ crc8 l = c.toNat)
    ∧ (∃ (l : List Byte) (c : Byte) (s : State), s.inv = true ∧ s.domOn 9 = true ∧ (l.length ≠ 10 ∨ crc8 l ≠ c.toNat))
    ∧ (∃ (peer : Nat) (s : State), s.inv = true ∧ s.domOn 9 = true ∧ s.peerClaim (s.tandemUs % 256) = some peer ∧ s.tnd.cmpAt ≠ some s.tandemUs
        ∧ s.role = 2 ∧ (s.claimFor s.tandemUs = 0 ∨ s.claimFor s.tandemUs ≤ peer))
    ∧ (∃ (peer : Nat) (s : State), s.inv = true ∧ s.domOn 9 = true ∧ s.peerClaim (s.tandemUs % 256) = some peer ∧ s.tnd.cmpAt ≠ some s.tandemUs
        ∧ s.role = 1 ∧ peer < s.claimFor s.tandemUs ∧ (s.b 0x02500014 29 = true ∨ s.b 0x02500014 28 = false ∨ s.b 0x02500014 27 = false))
    ∧ (∃ (peer : Nat) (s : State), s.inv = true ∧ s.domOn 9 = true ∧ s.peerClaim (s.tandemUs % 256) = some peer ∧ s.tnd.cmpAt ≠ some s.tandemUs
        ∧ s.role = 2 ∧ peer < s.claimFor s.tandemUs)
    ∧ (∃ (s : State), s.inv = true ∧ s.tnd.cmpAt = some s.tandemUs)
    ∧ (∃ (s : State), s.inv = true ∧ s.domOn 9 = true ∧ s.b 0x02500014 28 = true ∧ s.tnd.heard.all (fun h => decide (h.1 + 10000 < s.spn.ticks)) = true)
    ∧ (∃ (s : State), s.inv = true ∧ s.tnd.upTick + 10000 ≤ s.spn.ticks)
    ∧ (∃ (s : State), s.inv = true ∧ s.spn.ticks < s.tnd.upTick + 10000)
    ∧ (∃ (s : State), s.inv = true ∧ s.domOn 9 = true ∧ s.tnd.healthSec ≠ s.tbSec 0)
    ∧ (∃ (s : State), s.inv = true ∧ s.domOn 9 = true ∧ s.tnd.healthSec ≠ s.tbSec 0 ∧ s.tnd.failed.testBit 12 = false) :=
  ⟨⟨(on []).modTnd (fun t => { t with cAt := 9 }), by decide +kernel⟩,
   ⟨on [], by decide +kernel⟩,
   ⟨[7, 3, 0, 0, 0, 1, 0, 0, 0, 2], BitVec.ofNat 8 (crc8 [7, 3, 0, 0, 0, 1, 0, 0, 0, 2]), on [], by decide +kernel⟩,
   ⟨[7, 3], 3, on [], by decide +kernel⟩,
   ⟨0, (on [(0x02500014, 0x80000000)]).modTnd (fun t => { t with holdoff := false }), by decide +kernel⟩,
   ⟨0, (on [(0x02500014, 0x40000000)]).modTnd (fun t => { t with holdoff := false, c0 := 5 }), by decide +kernel⟩,
   ⟨0, (on [(0x02500014, 0x80000000)]).modTnd (fun t => { t with holdoff := false, c0 := 5 }), by decide +kernel⟩,
   ⟨(on []).modTnd (fun t => { t with cmpAt := some 0 }), by decide +kernel⟩,
   ⟨on [(0x02500014, 0x10000000), (0x02500034, 7)], by decide +kernel⟩,
   ⟨(on []).modSpn (fun p => { p with ticks := 10000000 }), by decide +kernel⟩,
   ⟨on [], by decide +kernel⟩,
   ⟨(on [(0x02500014, 0xFF00)]).modTnd (fun t => { t with healthSec := 7 }), by decide +kernel⟩,
   ⟨(on []).modTnd (fun t => { t with failed := 0, healthSec := 7 }), by decide +kernel⟩⟩

theorem wit_TheTandemLinkCarriesItsFrames :
    (∃ (s : State), s.inv = true ∧ s.linkSt = kPAIRED ∧ s.after s.tnd.beatAt 100000 = true)
    ∧ (∃ (s : State), s.inv = true ∧ s.linkSt = kPAIRED ∧ s.tnd.hold = false ∧ s.tnd.relock = false ∧ s.otherDue = false)
    ∧ (∃ (s : State), s.inv = true ∧ s.otherDue = true)
    ∧ (∃ (slot : BitVec 6) (s : State), s.inv = true ∧ s.keyDue slot.toNat = false)
    ∧ (∃ (slot : BitVec 6) (s : State), s.inv = true ∧ s.keyDue slot.toNat = true ∧ s.chestKey slot.toNat = none ∧ s.keys.frozen = false)
    ∧ (∃ (f : LinkFrame) (s : State), s.inv = true ∧ s.tnd.unacked = [f] ∧ f.slot < s.retrySlot f ∧ s.tnd.hold = false ∧ s.tnd.relock = false)
    ∧ (∃ (s : State), s.inv = true ∧ s.linkSt = kPAIRED ∧ s.ackLate = true ∧ s.tnd.relock = false ∧ s.unitB = true)
    ∧ (∃ (s : State), s.inv = true ∧ s.linkSt = kPAIRED ∧ s.ackLate = true ∧ s.tnd.relock = false ∧ s.unitB = false ∧ s.b 0x02500018 25 = false)
    ∧ (∃ (q : Nat) (s : State), s.inv = true ∧ s.linkSt = kPAIRED ∧ q < 65536 ∧ s.unitB = false ∧ s.tnd.rxSeq = some q ∧ s.tnd.hold = false
        ∧ s.timeMissing = false)
    ∧ (∃ (q : Nat) (p : List Byte) (s : State), s.inv = true ∧ s.linkSt = kPAIRED ∧ q < 65536 ∧ p.length = 16 ∧ s.unitB = false ∧ s.tnd.rxSeq = some q
        ∧ s.tnd.hold = false)
    ∧ (∃ (bytes : List Byte) (s : State), s.inv = true ∧ crc32c (bytes.take (bytes.length - 4)) ≠ beAt bytes (bytes.length - 4) 4)
    ∧ (∃ (s : State), s.inv = true ∧ s.linkSt = kPAIRED ∧ s.tnd.rxAt + s.f 0x02500044 15 0 * 2000 ≤ s.spn.ticks)
    ∧ (∃ (from_ : Nat) (s : State), s.inv = true ∧ (s.linkSt = kHELLO ∨ s.linkSt = kPAIRED) ∧ s.tnd.spareAt = some from_ ∧ from_ + 2000000000 ≤ s.spn.ticks) :=
  ⟨⟨on [(0x02500018, 0x40000000)], by decide +kernel⟩,
   ⟨(on [(0x02500018, 0x40000000)]).modTnd (fun t => { t with beatAt := some 0, timeSec := some 0, stateSec := some 0, askSec := some 0 }), by decide +kernel⟩,
   ⟨on [(0x02500018, 0x40000000)], by decide +kernel⟩,
   ⟨3, on [(0x02500018, 0x40000000)], by decide +kernel⟩,
   ⟨3, on [(0x02500018, 0x48000000), (0x02500014, 0x80000000), (0x02500010, 0x400000)], by decide +kernel⟩,
   ⟨{ seq := 1, typ := 2, payload := [] }, ((on [(0x02500018, 0x40000000)]).modTnd (fun t => { t with unacked := [{ seq := 1, typ := 2, payload := [] }] })).modSpn (fun p => { p with ticks := 1000000000 }), by decide +kernel⟩,
   ⟨((on [(0x02500018, 0x40000000), (0x10, 0x90200000)]).modTnd (fun t => { t with unacked := [{ seq := 1, typ := 2, payload := [] }] })).modSpn (fun p => { p with ticks := 1000000000 }), by decide +kernel⟩,
   ⟨((on [(0x02500018, 0x40000000)]).modTnd (fun t => { t with unacked := [{ seq := 1, typ := 2, payload := [] }] })).modSpn (fun p => { p with ticks := 1000000000 }), by decide +kernel⟩,
   ⟨7, (on [(0x02500018, 0x40000000)]).modTnd (fun t => { t with rxSeq := some 7, timeTick := some 0 }), by decide +kernel⟩,
   ⟨7, ftail 16, (on [(0x02500018, 0x40000000)]).modTnd (fun t => { t with rxSeq := some 7 }), by decide +kernel⟩,
   ⟨ftail 24, on [(0x02500018, 0x40000000)], by decide +kernel⟩,
   ⟨(on [(0x02500018, 0x40000000)]).modSpn (fun p => { p with ticks := 1000000000 }), by decide +kernel⟩,
   ⟨5, ((on [(0x02500018, 0x40000000)]).modTnd (fun t => { t with spareAt := some 5 })).modSpn (fun p => { p with ticks := 3000000000 }), by decide +kernel⟩⟩

theorem wit_ClassifierSendsFramesOn :
    (∃ (p : Fin 16) (f : RxStored) (r : List RxStored) (s : State), s.inv = true ∧ (s.port p.val).fifo = f :: r ∧ s.pkt.builds = []
        ∧ s.served p.val = false)
    ∧ (∃ (p : Fin 16) (f : RxStored) (r : List RxStored) (s : State), s.inv = true ∧ (s.port p.val).fifo = f :: r ∧ s.served p.val = true
        ∧ s.f 0x02200014 13 0 < 8191 ∧ s.pkt.builds = [] ∧ (ethOf f.bytes).etype ≠ 0x0806 ∧ (ethOf f.bytes).etype ≠ 0x86DD
        ∧ (ethOf f.bytes).etype ≠ 0x0800 ∧ (ethOf f.bytes).etype ≠ 0x88F7)
    ∧ (∃ (p : Fin 16) (f : RxStored) (r : List RxStored) (k : Nat) (s : State), s.inv = true ∧ (s.port p.val).fifo = f :: r ∧ s.served p.val = true
        ∧ s.f 0x02200014 13 0 < 8191 ∧ s.pkt.builds = [] ∧ (ethOf f.bytes).etype = 0x0806 ∧ beAt (ethOf f.bytes).pay 6 2 = 1
        ∧ s.findIf p.val (ethOf f.bytes).vid (fun k => !s.b (ifOff k) 30 && decide (s.ifIp k = slice (ethOf f.bytes).pay 24 4)) = some k)
    ∧ (∃ (p : Fin 16) (launch : Nat) (f : RxStored) (r : List RxStored) (d : Udp) (k : Nat) (s : State), s.inv = true ∧ (s.port p.val).fifo = f :: r
        ∧ s.served p.val = true ∧ s.f 0x02200014 13 0 < 8191 ∧ s.pkt.builds = [] ∧ (ethOf f.bytes).etype = 0x0800 ∧ udpOf (ethOf f.bytes) = some d
        ∧ d.dport = 123 ∧ d.pay.length = 48 ∧ ntpForeign d.pay = false ∧ f.bluta ≠ [] ∧ tokensOut s.ntpUsed < 1024
        ∧ s.tbTime (s.portBase p.val) / 2 ^ 24 + 500 * 65536 ≤ launch
        ∧ s.findIf p.val (ethOf f.bytes).vid (fun k => s.b (ifOff k) 28 && decide (s.b (ifOff k) 30 = d.v6) && decide (s.ifIp k = d.dip)) = some k)
    ∧ (∃ (p : Fin 16) (f : RxStored) (r : List RxStored) (s : State), s.inv = true ∧ (s.port p.val).fifo = f :: r ∧ s.served p.val = true
        ∧ 8192 ≤ s.f 0x02200014 13 0) :=
  ⟨⟨1, ⟨arpReq, 5 * sec16, 7, [1], {}⟩, [], withFifo (pkt1.wrN (pktOff 1) 0) arpReq, by decide +kernel⟩,
   ⟨1, ⟨ftail 64, 5 * sec16, 7, [1], {}⟩, [], withFifo pkt1 (ftail 64), by decide +kernel⟩,
   ⟨1, ⟨arpReq, 5 * sec16, 7, [1], {}⟩, [], 0, withFifo pkt1 arpReq, by decide +kernel⟩,
   ⟨1, 900 * sec16, ⟨ntpReq, 5 * sec16, 7, [1], {}⟩, [], (udpOf (ethOf ntpReq)).getD ⟨false, [], [], 0, 0, []⟩, 0, withFifo pkt1 ntpReq, by decide +kernel⟩,
   ⟨1, ⟨arpReq, 5 * sec16, 7, [1], {}⟩, [], withFifo (pkt1.wrN 0x02200014 8192) arpReq, by decide +kernel⟩⟩

theorem wit_StreamsEmitTheirMessages :
    (∃ (p : Fin 16) (launch pl : Nat) (s : State), s.inv = true ∧ s.served p.val = true ∧ s.hasStreams p.val = true ∧ s.f 0x02200014 13 0 < 8191
        ∧ s.pkt.builds = [] ∧ s.f (pktOff p.val) 27 26 = 0
        ∧ s.placeDue p.val none 0 (BitVec.ofNat 8 (s.f (pktOff p.val + 8) 31 24)) buildLead = some pl ∧ s.firstStart p.val pl launch = true
        ∧ s.tbTime (s.portBase p.val) / 2 ^ 24 + 500 * 65536 ≤ launch)
    ∧ (∃ (p : Fin 16) (pl : Nat) (s : State), s.inv = true ∧ s.served p.val = true ∧ s.hasStreams p.val = true ∧ s.f 0x02200014 13 0 < 8191
        ∧ s.pkt.builds = [] ∧ s.f (pktOff p.val) 27 26 = 0 ∧ s.placeDue p.val none 1 (BitVec.ofNat 8 (s.f (pktOff p.val + 8) 23 16)) 0 = some pl)
    ∧ (∃ (p : Fin 16) (launch pl : Nat) (s : State), s.inv = true ∧ s.served p.val = true ∧ s.hasStreams p.val = true ∧ s.mayBuild = false
        ∧ s.f (pktOff p.val) 27 26 = 0 ∧ s.placeDue p.val none 0 (BitVec.ofNat 8 (s.f (pktOff p.val + 8) 31 24)) buildLead = some pl
        ∧ s.firstStart p.val pl launch = true)
    ∧ (∃ (p : Fin 16) (pl : Nat) (s : State), s.inv = true ∧ s.served p.val = true ∧ s.hasStreams p.val = true ∧ s.mayBuild = false
        ∧ s.f (pktOff p.val) 27 26 = 0 ∧ s.placeDue p.val none 1 (BitVec.ofNat 8 (s.f (pktOff p.val + 8) 23 16)) 0 = some pl)
    ∧ (∃ (slot : BitVec 20) (s : State), s.inv = true ∧ s.slotUsed slot.toNat = false ∧ s.flawsIn (slotAddr slot.toNat) 0x100 = [])
    ∧ (∃ (slot : BitVec 20) (s : State), s.inv = true ∧ s.slotUsed slot.toNat = false ∧ s.flawsIn (slotAddr slot.toNat) 0x100 = []) :=
  ⟨⟨1, 62500000 * 65536, 62500000 * 2 ^ 40, pkt1.modBase 0 (fun b => { b with time := 62490000 * 2 ^ 40 }), by decide +kernel⟩,
   ⟨1, 0, pkt1, by decide +kernel⟩,
   ⟨1, 62500000 * 65536, 62500000 * 2 ^ 40, (pkt1.modBase 0 (fun b => { b with time := 62490000 * 2 ^ 40 })).wrN 0x02200014 8192, by decide +kernel⟩,
   ⟨1, 0, pkt1.wrN 0x02200014 8192, by decide +kernel⟩,
   ⟨3, pkt1, by decide +kernel⟩,
   ⟨3, pkt1, by decide +kernel⟩⟩

theorem wit_GroupKeysRingAndMint :
    (∃ (i : Itf) (v : Word) (s : State), s.inv = true ∧ s.serves i 0x02203200 = true
        ∧ (s.pkt.keys.any (fun x => decide (x.1 ≠ v.field 7 0) && x.2.valid && decide (x.2.spp = s.f 0x02203208 3 0) && decide (x.2.keyId = (s.rd 0x02203204).toNat))) = false)
    ∧ (∃ (i : Itf) (s : State), s.inv = true ∧ s.serves i 0x02203200 = true ∧ s.f 0x02203208 13 8 < 6)
    ∧ (∃ (i : Itf) (s : State), s.inv = true ∧ s.serves i 0x02203200 = true)
    ∧ (∃ (i : Itf) (r : Fin 4) (s : State), s.inv = true ∧ s.serves i 0x02203420 = true ∧ s.rd 0x02203420 = 0
        ∧ (s.slotActive r.val = 1 ∨ s.slotActive r.val = 2))
    ∧ (∃ (i : Itf) (v : Word) (r : Fin 4) (s : State), s.inv = true ∧ s.serves i 0x02203420 = true ∧ v.field (2 * r.val + 1) (2 * r.val) = 3)
    ∧ (∃ (i : Itf) (s : State), s.inv = true ∧ s.serves i 0x0220344C = true ∧ s.b 0x02203450 31 = false
        ∧ inScratch (s.rd 0x02203440).toNat (72 * s.f 0x02203448 16 0) = true ∧ inScratch (s.rd 0x02203444).toNat (104 * s.f 0x02203448 16 0) = true)
    ∧ (∃ (s : State), s.inv = true ∧ s.b 0x02203450 31 = true ∧ s.cstReady = true)
    ∧ (∃ (s : State), s.inv = true ∧ s.b 0x02203450 31 = true ∧ s.cstReady = true ∧ s.drbgOk = false ∧ s.f 0x02203448 16 0 ≠ 0
        ∧ s.damaged (s.rd 0x02203440).toNat 72 = none)
    ∧ (∃ (s : State), s.inv = true ∧ (s.b 0x02203450 31 = false ∨ s.cstReady = false)) :=
  ⟨⟨.pcie, 3, pkt1, by decide +kernel⟩,
   ⟨.pcie, pkt1, by decide +kernel⟩,
   ⟨.pcie, { pkt1 with pkt := { pkt1.pkt with keys := [(3, { valid := true })] } }, by decide +kernel⟩,
   ⟨.pcie, 2, pkt1.wrN (slotOff 2) (1 <<< 26), by decide +kernel⟩,
   ⟨.pcie, 0x30, 2, pkt1, by decide +kernel⟩,
   ⟨.pcie, (pkt1.wrN 0x02203440 0xD0000000).wrN 0x02203444 0xE0000000, by decide +kernel⟩,
   ⟨((pkt1.wrN 0x02203450 0x80000000).wrN 0x02203448 2).wrN 0x02300014 0x80000000, by decide +kernel⟩,
   ⟨((pkt1.wrN 0x02203450 0x80000000).wrN 0x02203448 2).wrN 0x02300014 0x80000000, by decide +kernel⟩,
   ⟨pkt1.wrN 0x02203450 0x80000000, by decide +kernel⟩⟩

theorem wit_ClientInstancesFollowTheirServer :
    (∃ (k : Fin 4) (s : State), s.inv = true ∧ s.cliMay k.val = true ∧ s.cliMcast k.val = false
        ∧ (s.cliState k.val = clOFF ∨ s.cliState k.val = clREQUEST ∧ (s.cli k.val).failed = true ∧ s.since (s.cli k.val).failAt 10 = true))
    ∧ (∃ (k : Fin 4) (s : State), s.inv = true ∧ s.cliMay k.val = false)
    ∧ (∃ (k : Fin 4) (s : State), s.inv = true ∧ s.cliState k.val = clREQUEST ∧ (s.cli k.val).failed = false ∧ s.since (s.cli k.val).asked 5 = true)
    ∧ (∃ (k : Fin 4) (s : State), s.inv = true ∧ s.cliState k.val = clWAIT ∧ s.cliMcast k.val = false ∧ s.since (s.cli k.val).waitAt 10 = true)
    ∧ (∃ (k : Fin 4) (s : State), s.inv = true ∧ s.cliState k.val = clRUN ∧ s.cliMcast k.val = false ∧ s.since (s.cli k.val).syncAt 3 = true)
    ∧ (∃ (k : Fin 4) (g : Fin 3) (s : State), s.inv = true ∧ 2 ≤ s.cliState k.val ∧ s.cliHalf k.val g.val = true
        ∧ s.f (pktOff (s.cliPort k.val)) 27 26 = 0 ∧ s.f 0x02200014 13 0 < 8191 ∧ s.pkt.builds = []) :=
  ⟨⟨1, (cli1 0).wrN (pktOff 1) 0x80000000, by decide +kernel⟩,
   ⟨1, (cli1 3).wrN (cliOff 1) 0, by decide +kernel⟩,
   ⟨1, (cli1 1).modSpn (fun p => { p with ticks := 40000000000 }), by decide +kernel⟩,
   ⟨1, ((cli1 2).wrN (pktOff 1) 0x80000000).modSpn (fun p => { p with ticks := 40000000000 }), by decide +kernel⟩,
   ⟨1, ((cli1 3).wrN (pktOff 1) 0x80000000).modSpn (fun p => { p with ticks := 40000000000 }), by decide +kernel⟩,
   ⟨1, 2, ((cli1 3).wrN (pktOff 1) 0x80000000).modCli 1 (fun c => { c with grants := 7 }), by decide +kernel⟩⟩

theorem wit_StoreCommandsEndWithTheirCode :
    (∃ (i : Itf) (k : SessKey) (n : Nat) (s : State), s.inv = true ∧ s.serves i 0x02300100 = true ∧ s.cst.flaws = [] ∧ s.cstKey = some k
        ∧ s.sessFind k = some n ∧ n < 2 ^ 20)
    ∧ (∃ (i : Itf) (k : SessKey) (s : State), s.inv = true ∧ s.serves i 0x02300100 = true ∧ s.cst.flaws = [] ∧ s.cstKey = some k ∧ s.sessFind k = none)
    ∧ (∃ (i : Itf) (s : State), s.inv = true ∧ s.serves i 0x02300100 = true ∧ s.cstKey = none)
    ∧ (∃ (i : Itf) (k : SessKey) (n : Nat) (s : State), s.inv = true ∧ s.serves i 0x02300100 = true ∧ s.cst.flaws = [] ∧ s.cstKey = some k
        ∧ s.sessFind k = some n ∧ n < 2 ^ 20)
    ∧ (∃ (i : Itf) (k : SessKey) (s : State), s.inv = true ∧ s.serves i 0x02300100 = true ∧ s.cst.flaws = [] ∧ s.cstKey = some k ∧ s.sessFind k = none
        ∧ s.freeSlot = none)
    ∧ (∃ (i : Itf) (k : SessKey) (n j : Nat) (s : State), s.inv = true ∧ s.serves i 0x02300100 = true ∧ s.cst.flaws = [] ∧ s.cstKey = some k
        ∧ s.sessFind k = none ∧ s.freeSlot = some n ∧ s.bucketFree (s.hashOf k).1 = some j)
    ∧ (∃ (i : Itf) (s : State), s.inv = true ∧ s.serves i 0x02300100 = true ∧ s.cstKey = none)
    ∧ (∃ (i : Itf) (s : State), s.inv = true ∧ s.serves i 0x02300100 = true ∧ s.flawsIn (slotAddr (s.f 0x02300108 20 0)) 0x100 = []
        ∧ s.slotUsed (s.f 0x02300108 20 0) = true)
    ∧ (∃ (i : Itf) (s : State), s.inv = true ∧ s.serves i 0x02300100 = true ∧ s.flawsIn (slotAddr (s.f 0x02300108 20 0)) 0x100 = []
        ∧ s.slotUsed (s.f 0x02300108 20 0) = false)
    ∧ (∃ (i : Itf) (s : State), s.inv = true ∧ s.serves i 0x02300100 = true ∧ s.flawsIn (slotAddr (s.f 0x02300108 20 0)) 0x100 = []
        ∧ s.slotUsed (s.f 0x02300108 20 0) = true)
    ∧ (∃ (i : Itf) (s : State), s.inv = true ∧ s.serves i 0x02300100 = true ∧ s.flawsIn (slotAddr (s.f 0x02300108 20 0)) 0x100 = []
        ∧ s.slotUsed (s.f 0x02300108 20 0) = false)
    ∧ (∃ (i : Itf) (s : State), s.inv = true ∧ s.serves i 0x02300100 = true ∧ s.flawsIn (slotAddr (s.f 0x02300108 20 0)) 0x100 = []
        ∧ s.slotUsed (s.f 0x02300108 20 0) = true) :=
  ⟨⟨.pcie, (store.cstKey).getD ⟨0, 0, 0, [], []⟩, 0, kept, by decide +kernel⟩,
   ⟨.pcie, (store.cstKey).getD ⟨0, 0, 0, [], []⟩, store, by decide +kernel⟩,
   ⟨.pcie, store.wrN 0x02300110 0x10, by decide +kernel⟩,
   ⟨.pcie, (store.cstKey).getD ⟨0, 0, 0, [], []⟩, 0, kept, by decide +kernel⟩,
   ⟨.pcie, (store.cstKey).getD ⟨0, 0, 0, [], []⟩, store.wrN 0x02300014 0, by decide +kernel⟩,
   ⟨.pcie, (store.cstKey).getD ⟨0, 0, 0, [], []⟩, 0, 0, store, by decide +kernel⟩,
   ⟨.pcie, store.wrN 0x02300110 0x10, by decide +kernel⟩,
   ⟨.pcie, stored 3, by decide +kernel⟩,
   ⟨.pcie, store, by decide +kernel⟩,
   ⟨.pcie, stored 3, by decide +kernel⟩,
   ⟨.pcie, store, by decide +kernel⟩,
   ⟨.pcie, stored 3, by decide +kernel⟩⟩

theorem wit_StoreStartsSweepsAndScrubs :
    (∃ (a : Nat) (s : State), s.inv = true ∧ s.domOn 6 = true ∧ s.b 0x02400010 2 = true ∧ s.cstReady = false ∧ s.cst.ready = none ∧ s.trace.queue = []
        ∧ s.gns.queue = [] ∧ a < 0xF0000000)
    ∧ (∃ (s : State), s.inv = true ∧ s.domOn 6 = true ∧ s.cstReady = false ∧ s.cst.ready = none)
    ∧ (∃ (n : Nat) (s : State), s.inv = true ∧ s.cstReady = true ∧ s.cst.sweepSec ≠ some (s.tbSec 0) ∧ s.cst.used = [n] ∧ n < 2 ^ 20
        ∧ s.hot n 36 1 % 8 = 0 ∧ s.hotBit n 0 5 = false ∧ s.cst.flaws = [])
    ∧ (∃ (s : State), s.inv = true ∧ s.domOn 6 = true ∧ s.cstReady = false ∧ s.cst.ready = some true ∧ s.b 0x02400010 2 = true)
    ∧ (∃ (s : State), s.inv = true ∧ s.domOn 6 = true ∧ s.b 0x02400010 2 = false ∧ s.cstReady = false ∧ s.cst.ready = none)
    ∧ (∃ (s : State), s.inv = true ∧ (s.domOn 6 = false ∨ s.cstReady = true ∨ s.cst.ready = some false))
    ∧ (∃ (s : State), s.inv = true ∧ s.cstReady = true ∧ s.b 0x02300010 0 = true ∧ s.scrubDue = true ∧ s.cst.scrubAt + 64 < 0xF0000000
        ∧ s.flawsIn (s.cst.scrubAt / 64 * 64) 64 = [])
    ∧ (∃ (a : Word) (s : State), s.inv = true ∧ a.toNat / 64 = s.cst.scrubAt / 64 ∧ a.toNat % 8 = 0 ∧ s.cstReady = true ∧ s.b 0x02300010 0 = true
        ∧ s.scrubDue = true ∧ s.cst.scrubAt + 64 < 0xF0000000 ∧ s.flawsIn (s.cst.scrubAt / 64 * 64) 64 = [])
    ∧ (∃ (a : Word) (s : State), s.inv = true ∧ a.toNat / 64 = s.cst.scrubAt / 64 ∧ a.toNat % 8 = 0 ∧ s.cstReady = true ∧ s.b 0x02300010 0 = true
        ∧ s.scrubDue = true ∧ s.cst.scrubAt + 64 < 0xF0000000 ∧ s.flawsIn (s.cst.scrubAt / 64 * 64) 64 = [] ∧ a.toNat < 0x80000000
        ∧ s.slotUsed (a.toNat / 0x800) = false ∧ s.cst.retired.contains (a.toNat / 0x800) = false) :=
  ⟨⟨5, (stored 3).setB 0x02300014 31 false, by decide +kernel⟩,
   ⟨(stored 3).setB 0x02300014 31 false, by decide +kernel⟩,
   ⟨3, stored 3, by decide +kernel⟩,
   ⟨((stored 3).setB 0x02300014 31 false).modCst (fun c => { c with ready := some true }), by decide +kernel⟩,
   ⟨((stored 3).setB 0x02300014 31 false).setB 0x02400010 2 false, by decide +kernel⟩,
   ⟨stored 3, by decide +kernel⟩,
   ⟨store, by decide +kernel⟩,
   ⟨8, store, by decide +kernel⟩,
   ⟨0x28, store, by decide +kernel⟩⟩

theorem wit_ScratchWritesAndAtomics :
    (∃ (addr : Word) (bytes : List Byte) (s : State), s.inv = true ∧ s.fenceHolds .pcie 0x02300000 = false ∧ s.bar2Behind = false ∧ s.cstReady = true
        ∧ inScratch addr.toNat bytes.length = true)
    ∧ (∃ (s : State), s.inv = true ∧ (s.fenceHolds .pcie 0x02300000 = true ∨ s.bar2Behind = true))
    ∧ (∃ (addr : Word) (wide : Bool) (n : Nat) (s : State), s.inv = true ∧ n = (if wide then 8 else 4) ∧ s.running = true ∧ s.cstReady = true
        ∧ inScratch addr.toNat n = true ∧ addr.toNat % n = 0 ∧ s.flawsIn (addr.toNat / 8 * 8) 8 = [])
    ∧ (∃ (addr : Word) (wide : Bool) (n : Nat) (s : State), s.inv = true ∧ n = (if wide then 8 else 4) ∧ s.running = true ∧ s.cstReady = true
        ∧ inScratch addr.toNat n = true ∧ addr.toNat % n = 0 ∧ (s.damaged (addr.toNat / 8 * 8) 8).isSome = true)
    ∧ (∃ (addr : Word) (wide : Bool) (n : Nat) (s : State), s.inv = true ∧ n = (if wide then 8 else 4)
        ∧ (s.running = false ∨ s.cstReady = false ∨ inScratch addr.toNat n = false ∨ addr.toNat % n ≠ 0))
    ∧ (∃ (s : State), s.inv = true)
    ∧ (∃ (s : State), s.inv = true) :=
  ⟨⟨0xD0000010, [1, 2, 3], store, by decide +kernel⟩,
   ⟨{ store with fenceP := some ⟨1, 0x40000, 0, false⟩ }, by decide +kernel⟩,
   ⟨0xD0000010, false, 4, store, by decide +kernel⟩,
   ⟨0xD0000010, true, 8, store.dramFail [⟨0xD0000010, true⟩], by decide +kernel⟩,
   ⟨0xC0000010, true, 8, store, by decide +kernel⟩,
   ⟨store, by decide +kernel⟩,
   ⟨store, by decide +kernel⟩⟩

end Sys2Proof.Machine.Tests
end

/-! SUPPORT. Proofs for 00_scope.md, part 1: the state after reset, and the invariant that every step keeps. -/
namespace Sys2Proof.Machine

theorem State.inv_iff (s : State) : s.inv = true ↔ s.wf = true ∧ Shape s := by
  simp only [State.inv, Bool.and_eq_true, State.shaped_iff]

theorem State.inv_regsWf {s : State} (h : s.inv = true) : s.regsWf := State.wf_regs (s.inv_iff.mp h).1

theorem State.inv_shape {s : State} (h : s.inv = true) : Shape s := (s.inv_iff.mp h).2

/-- Whatever parts an operation changes, it keeps the invariant. -/
theorem Keeps.inv {m : Nat} {s t : State} (k : Keeps m s t) (h : s.inv = true) : t.inv = true := by
  rw [State.inv_iff] at h ⊢
  exact ⟨k.wf h.1, k.shape h.2⟩

/-- From a state that meets the invariant an outcome, where it is a next state, meets it. -/
def OutInv (s : State) (o : Out) : Prop := ∀ t, s.inv = true → o = .next t → t.inv = true

theorem OutKeeps.inv {m : Nat} {s : State} {o : Out} (k : OutKeeps m s o) : OutInv s o := fun t h e => (k t e).inv h

/-- Every command keeps the invariant, by what its meaning keeps (Laws/KeepsExec.lean). -/
theorem exec_inv (c : Instr) (s : State) : OutInv s (exec c s) := by
  unfold exec
  cases c with
  | registerWrite itf off v => exact (execRegisterWrite_keeps _ _ _ s).inv
  | rcRead r => exact (execRcRead_keeps _ s).inv
  | absentAccess itf off write => exact (execAbsentAccess_keeps _ _ _ s).inv
  | decodeMiss itf off write => exact (execDecodeMiss_keeps _ _ _ s).inv
  | badAccess bar4 addr write => exact (execBadAccess_keeps _ _ _ s).inv
  | fenceOpen itf v => exact (execFenceOpen_keeps _ _ s).inv
  | fenceComplete itf => exact (execFenceComplete_keeps _ s).inv
  | fenceSlow itf => exact (execFenceSlow_keeps _ s).inv
  | carrierNamed m => exact (execCarrierNamed_keeps _ s).inv
  | carrierRampEnd => exact (execCarrierRampEnd_keeps s).inv
  | synsLock => exact (execSynsLock_keeps s).inv
  | spineForceWrite itf v => exact (execSpineForceWrite_keeps _ _ s).inv
  | snapReq itf v => exact (execSnapReq_keeps _ _ s).inv
  | snapDone itf => exact (execSnapDone_keeps _ s).inv
  | commitWrite itf ch v => exact (execCommitWrite_keeps _ _ _ s).inv
  | commitCheck ch => exact (execCommitCheck_keeps _ s).inv
  | lockPoint ch => exact (execLockPoint_keeps _ s).inv
  | commitLive ch => exact (execCommitLive_keeps _ s).inv
  | leapApplied n => exact (execLeapApplied_keeps _ s).inv
  | smearWindowStart n => exact (execSmearWindowStart_keeps _ s).inv
  | smearWindowEnd n => exact (execSmearWindowEnd_keeps _ s).inv
  | slotArm itf sl v => exact (execSlotArm_keeps _ _ _ s).inv
  | slotCancel itf sl v => exact (execSlotCancel_keeps _ _ _ s).inv
  | slotFire sl => exact (execSlotFire_keeps _ s).inv
  | evtPulseEnd p => exact (execEvtPulseEnd_keeps _ s).inv
  | refinConfigWrite itf n reg v => exact (execRefinConfigWrite_keeps _ _ _ _ s).inv
  | loConfigWrite itf m reg v => exact (execLoConfigWrite_keeps _ _ _ _ s).inv
  | dividedEdge src spacing => exact (execDividedEdge_keeps _ _ s).inv
  | los src => exact (execLos_keeps _ s).inv
  | loAlarmSet m => exact (execLoAlarmSet_keeps _ s).inv
  | loAlarmClear m => exact (execLoAlarmClear_keeps _ s).inv
  | loTempSample t0 t1 t2 t3 => exact (execLoTempSample_keeps _ _ _ _ s).inv
  | dieTempSample t => exact (execDieTempSample_keeps _ s).inv
  | tiuEvent k spacing => exact (execTiuEvent_keeps _ _ s).inv
  | tiuConversionDone k code => exact (execTiuConversionDone_keeps _ _ s).inv
  | tiuConfigWrite itf k v => exact (execTiuConfigWrite_keeps _ _ _ s).inv
  | tiuDensityTest k nl sum500 sum1000 => exact (execTiuDensityTest_keeps _ _ _ _ s).inv
  | tiuCalPeriod k => exact (execTiuCalPeriod_keeps _ s).inv
  | tiuCalNow itf v => exact (execTiuCalNow_keeps _ _ s).inv
  | tiuCalEnd k sum500 sum1000 => exact (execTiuCalEnd_keeps _ _ _ s).inv
  | tiuCalRetry k => exact (execTiuCalRetry_keeps _ s).inv
  | tiuResultRead itf u => exact (execTiuResultRead_keeps _ _ s).inv
  | laneUnitEvent m ch steps => exact (execLaneUnitEvent_keeps _ _ _ s).inv
  | laneCalFail m => exact (execLaneCalFail_keeps _ s).inv
  | synSearchDone k found edges => exact (execSynSearchDone_keeps _ _ _ s).inv
  | synLoopSettled k edges => exact (execSynLoopSettled_keeps _ _ s).inv
  | synLockingTimeout k edges => exact (execSynLockingTimeout_keeps _ _ s).inv
  | synAlignStart k edges => exact (execSynAlignStart_keeps _ _ s).inv
  | synUnlock k edges => exact (execSynUnlock_keeps _ _ s).inv
  | rampDone k edges => exact (execRampDone_keeps _ _ s).inv
  | synRealigned k edges => exact (execSynRealigned_keeps _ _ s).inv
  | ppsEdge k => exact (execPpsEdge_keeps _ s).inv
  | ppsPulseEnd k => exact (execPpsPulseEnd_keeps _ s).inv
  | todMessage k => exact (execTodMessage_keeps _ s).inv
  | todMessageEnd k => exact (execTodMessageEnd_keeps _ s).inv
  | monitorTick => exact (execMonitorTick_keeps s).inv
  | candidateSourceReport c => exact (execCandidateSourceReport_keeps _ s).inv
  | qualityInput c qin => exact (execQualityInput_keeps _ _ s).inv
  | selPrefWrite itf n v => exact (execSelPrefWrite_keeps _ _ _ s).inv
  | ensembleCycle => exact (execEnsembleCycle_keeps s).inv
  | warmupEnd m => exact (execWarmupEnd_keeps _ s).inv
  | trefFixed m => exact (execTrefFixed_keeps _ s).inv
  | trained m => exact (execTrained_keeps _ s).inv
  | memberRejoin m => exact (execMemberRejoin_keeps _ s).inv
  | servoUpdate n => exact (execServoUpdate_keeps _ s).inv
  | exceededFlagExpiry n => exact (execExceededFlagExpiry_keeps _ s).inv
  | boundEval10ms n => exact (execBoundEval10ms_keeps _ s).inv
  | mapHoldExpiry n => exact (execMapHoldExpiry_keeps _ s).inv
  | traceSecond => exact (execTraceSecond_keeps s).inv
  | laneTrimDone m slow fast => exact (execLaneTrimDone_keeps _ _ _ s).inv
  | vanePpsEdge sec => exact (execVanePpsEdge_keeps _ s).inv
  | gnssSolution q g => exact (execGnssSolution_keeps _ _ s).inv
  | gnssMissingSecond q => exact (execGnssMissingSecond_keeps _ s).inv
  | gnssConfigChange itf off v => exact (execGnssConfigChange_keeps _ _ _ s).inv
  | clkLost k => exact (execClkLost_keeps _ s).inv
  | clkRange k err => exact (execClkRange_keeps _ _ s).inv
  | feClockReturn k err => exact (execFeClockReturn_keeps _ _ s).inv
  | channelDrop x => exact (execChannelDrop_keeps _ s).inv
  | signalAcquired x bin => exact (execSignalAcquired_keeps _ _ s).inv
  | aidGo itf v => exact (execAidGo_keeps _ _ s).inv
  | aidDone => exact (execAidDone_keeps s).inv
  | aidedFirstTimeout => exact (execAidedFirstTimeout_keeps s).inv
  | gnssWake crcOk => exact (execGnssWake_keeps _ s).inv
  | gnsTimRead itf => exact (execGnsTimRead_keeps _ s).inv
  | deskewDone p k1 k2 k3 => exact (execDeskewDone_keeps _ _ _ _ s).inv
  | deskewFail p => exact (execDeskewFail_keeps _ s).inv
  | linkUp p => exact (execLinkUp_keeps _ s).inv
  | frameReceive p x => exact (execFrameReceive_keeps _ _ s).inv
  | pauseExpire p => exact (execPauseExpire_keeps _ s).inv
  | pauseWd p => exact (execPauseWd_keeps _ s).inv
  | pauseHoldoffEnd p => exact (execPauseHoldoffEnd_keeps _ s).inv
  | esmcTx p event => exact (execEsmcTx_keeps _ _ s).inv
  | esmcTimeout p => exact (execEsmcTimeout_keeps _ s).inv
  | hostRingDeliver p descs bad => exact (execHostRingDeliver_keeps _ _ _ s).inv
  | rxTailWrite itf p v => exact (execRxTailWrite_keeps _ _ _ s).inv
  | txTailWrite itf p v => exact (execTxTailWrite_keeps _ _ _ s).inv
  | txFrameFetch p descs bufs bad => exact (execTxFrameFetch_keeps _ _ _ _ s).inv
  | rxRingReset itf p v => exact (execRxRingReset_keeps _ _ _ s).inv
  | txRingReset itf p v => exact (execTxRingReset_keeps _ _ _ s).inv
  | txFrameStart p pos skip bad => exact (execTxFrameStart_keeps _ _ _ _ s).inv
  | txFrameEnd p bad => exact (execTxFrameEnd_keeps _ _ s).inv
  | linkFaultReceived p lf rf => exact (execLinkFaultReceived_keeps _ _ _ s).inv
  | alignmentLockLoss p => exact (execAlignmentLockLoss_keeps _ s).inv
  | launchPassedNotUp p bad => exact (execLaunchPassedNotUp_keeps _ _ s).inv
  | classify p launch errs => exact (execClassify_keeps _ _ _ s).inv
  | syncEmit st launch => exact (execSyncEmit_keeps _ _ s).inv
  | announceEmit st => exact (execAnnounceEmit_keeps _ s).inv
  | keyLoad itf v => exact (execKeyLoad_keeps _ _ s).inv
  | keyDelete itf v => exact (execKeyDelete_keeps _ _ s).inv
  | ntsRingWrite itf v => exact (execNtsRingWrite_keeps _ _ s).inv
  | mintGo itf v => exact (execMintGo_keeps _ _ s).inv
  | mintDone => exact (execMintDone_keeps s).inv
  | clientRequest k => exact (execClientRequest_keeps _ s).inv
  | clientRequestRetry k => exact (execClientRequestRetry_keeps _ s).inv
  | clientWaitTimeout k => exact (execClientWaitTimeout_keeps _ s).inv
  | clientLost k cause => exact (execClientLost_keeps _ _ s).inv
  | clientRenew k grant => exact (execClientRenew_keeps _ _ s).inv
  | storeInit trained => exact (execStoreInit_keeps _ s).inv
  | sessionSweep => exact (execSessionSweep_keeps s).inv
  | lookup itf => exact (execLookup_keeps _ s).inv
  | create itf => exact (execCreate_keeps _ s).inv
  | provision itf => exact (execProvision_keeps _ s).inv
  | release itf => exact (execRelease_keeps _ s).inv
  | unpin itf => exact (execUnpin_keeps _ s).inv
  | scrubLine errs => exact (execScrubLine_keeps _ s).inv
  | bar2Write addr bytes => exact (execBar2Write_keeps _ _ s).inv
  | atomicOp target wide op a b => exact (execAtomicOp_keeps _ _ _ _ _ s).inv
  | lockTimeout addr master => exact (execLockTimeout_keeps _ _ s).inv
  | claimFrameSend => exact (execClaimFrameSend_keeps s).inv
  | claimFrameReceive bytes => exact (execClaimFrameReceive_keeps _ s).inv
  | claimBoundary => exact (execClaimBoundary_keeps s).inv
  | peerStale => exact (execPeerStale_keeps s).inv
  | claimHoldoffEnd => exact (execClaimHoldoffEnd_keeps s).inv
  | linkFrameReceive lane bytes => exact (execLinkFrameReceive_keeps _ _ s).inv
  | linkFrameSend due => exact (execLinkFrameSend_keeps _ s).inv
  | linkRetry => exact (execLinkRetry_keeps s).inv
  | linkAckTimeout => exact (execLinkAckTimeout_keeps s).inv
  | tndLinkDown => exact (execTndLinkDown_keeps s).inv
  | spareCheck errs => exact (execSpareCheck_keeps _ s).inv
  | healthSecond katPassed => exact (execHealthSecond_keeps _ s).inv
  | laneLpEnter itf m v => exact (execLaneLpEnter_keeps _ _ _ s).inv
  | laneLpExit itf m v => exact (execLaneLpExit_keeps _ _ _ s).inv
  | groupLpWrite itf v => exact (execGroupLpWrite_keeps _ _ s).inv
  | laneRestart itf m v => exact (execLaneRestart_keeps _ _ _ s).inv
  | laneTestWrite itf m v => exact (execLaneTestWrite_keeps _ _ _ s).inv
  | lanePllReady m => exact (execLanePllReady_keeps _ s).inv
  | pllFail m => exact (execPllFail_keeps _ s).inv
  | laneCdrLock m rx tx => exact (execLaneCdrLock_keeps _ _ _ s).inv
  | trainDone m => exact (execTrainDone_keeps _ s).inv
  | trainFail m signal => exact (execTrainFail_keeps _ _ s).inv
  | laneAlignLock m rx tx => exact (execLaneAlignLock_keeps _ _ _ s).inv
  | lockLost m cause eye => exact (execLockLost_keeps _ _ _ s).inv
  | eyeGo itf m v => exact (execEyeGo_keeps _ _ _ s).inv
  | eyePointDone m errs => exact (execEyePointDone_keeps _ _ s).inv
  | prbsChkLock m rx => exact (execPrbsChkLock_keeps _ _ s).inv
  | prbsLockLost m errs window => exact (execPrbsLockLost_keeps _ _ _ s).inv
  | prbsInj itf m v => exact (execPrbsInj_keeps _ _ _ s).inv
  | prbsErrRead itf m errs => exact (execPrbsErrRead_keeps _ _ _ s).inv
  | coefficientUpdate m req answered own => exact (execCoefficientUpdate_keeps _ _ _ _ s).inv
  | entropyRetry passed => exact (execEntropyRetry_keeps _ s).inv
  | healthTestFail restarts => exact (execHealthTestFail_keeps _ s).inv
  | generate itf slot => exact (execGenerate_keeps _ _ s).inv
  | load itf slot => exact (execLoad_keeps _ _ s).inv
  | erase itf slot => exact (execErase_keeps _ _ s).inv
  | attest itf slot => exact (execAttest_keeps _ _ s).inv
  | disarm itf loops => exact (execDisarm_keeps _ _ s).inv
  | zeroise itf burn => exact (execZeroise_keeps _ _ s).inv
  | nonceRead itf => exact (execNonceRead_keeps _ s).inv
  | tampArmWrite itf v intact => exact (execTampArmWrite_keeps _ _ _ s).inv
  | tamper hit => exact (execTamper_keeps _ s).inv
  | burnDone => exact (execBurnDone_keeps s).inv
  | burnIncomplete => exact (execBurnIncomplete_keeps s).inv
  | coreDeparture => exact (execCoreDeparture_keeps s).inv
  | coreDepartureDecided glitch => exact (execCoreDepartureDecided_keeps _ s).inv
  | vbatLoss cellLost => exact (execVbatLoss_keeps _ s).inv
  | dmaEnable itf c => exact (execDmaEnable_keeps _ _ s).inv
  | dmaDisable itf c => exact (execDmaDisable_keeps _ _ s).inv
  | dmaStopped c => exact (execDmaStopped_keeps _ s).inv
  | dmaDoorbell itf c => exact (execDmaDoorbell_keeps _ _ s).inv
  | dmaDescFetched c desc => exact (execDmaDescFetched_keeps _ _ s).inv
  | dmaTransferDone c src err => exact (execDmaTransferDone_keeps _ _ _ s).inv
  | dmaLinkRead c next => exact (execDmaLinkRead_keeps _ _ s).inv
  | prfCounterRead itf ix => exact (execPrfCounterRead_keeps _ _ s).inv
  | tallyCapture step => exact (execTallyCapture_keeps _ s).inv
  | dumpWritten ok => exact (execDumpWritten_keeps _ s).inv
  | dumpCtlWrite itf v => exact (execDumpCtlWrite_keeps _ _ s).inv
  | completionTimeout r => exact (execCompletionTimeout_keeps _ s).inv
  | pcieLinkReset e => exact (execPcieLinkReset_keeps _ s).inv
  | flrComplete => exact (execFlrComplete_keeps s).inv
  | msixUnmask w => exact (execMsixUnmask_keeps _ s).inv
  | watchRound => exact (execWatchRound_keeps s).inv
  | fltBresetWrite itf v => exact (execFltBresetWrite_keeps _ _ s).inv
  | fltCresetWrite itf v => exact (execFltCresetWrite_keeps _ _ s).inv
  | fltSafeReqWrite itf v => exact (execFltSafeReqWrite_keeps _ _ s).inv
  | pairCheck run => exact (execPairCheck_keeps _ s).inv
  | maskWindowEnd b => exact (execMaskWindowEnd_keeps _ s).inv
  | recordClear itf worst => exact (execRecordClear_keeps _ _ s).inv
  | irqStatWrite itf b v => exact (execIrqStatWrite_keeps _ _ _ s).inv
  | i2cWrite bytes => exact (execI2cWrite_keeps _ s).inv
  | i2cRead bytes => exact (execI2cRead_keeps _ s).inv
  | macCounterRead itf p c => exact (execMacCounterRead_keeps _ _ _ s).inv
  | statusBankRead itf off => exact (execStatusBankRead_keeps _ _ s).inv
  | powerOnReset mainLost => exact (execPowerOnReset_keeps _ s).inv
  | resetRelease away boot unitB compat testN => exact (execResetRelease_keeps _ _ _ _ _ s).inv
  | keysPhase healthOk bad => exact (execKeysPhase_keeps _ _ s).inv
  | imageFetched prim sec => exact (execImageFetched_keeps _ _ s).inv
  | loadStart itf => exact (execLoadStart_keeps _ s).inv
  | loadData itf v => exact (execLoadData_keeps _ _ s).inv
  | loadGo itf => exact (execLoadGo_keeps _ s).inv
  | imageVerified => exact (execImageVerified_keeps s).inv
  | structChecked => exact (execStructChecked_keeps s).inv
  | domainsUp failed => exact (execDomainsUp_keeps _ s).inv
  | enterRun ms => exact (execEnterRun_keeps _ s).inv
  | keepCopy => exact (execKeepCopy_keeps s).inv
  | fuse itf req => exact (execFuse_keeps _ _ s).inv
  | setRequire itf => exact (execSetRequire_keeps _ s).inv
  | ownerBurnDone missed => exact (execOwnerBurnDone_keeps _ s).inv
  | domReqWrite itf v => exact (execDomReqWrite_keeps _ _ s).inv
  | domainSwitched => exact (execDomainSwitched_keeps s).inv
  | rampFail => exact (execRampFail_keeps s).inv
  | railFault rail => exact (execRailFault_keeps _ s).inv
  | brownOut => exact (execBrownOut_keeps s).inv

/-- A step is a spine tick, or a command on the state with a rest of the queue (log entry 4). -/
theorem step_cases (s : State) : step s = .next (spineTick s) ∨ ∃ c r, step s = exec c { s with pending := r } := by
  unfold step
  cases s.pending with
  | nil => exact .inl rfl
  | cons c r => exact .inr ⟨c, r, rfl⟩

theorem inv_setPending (s : State) (r : List Instr) : ({ s with pending := r } : State).inv = s.inv := rfl

/-- Settles O5: a spine tick and every command keep the canonical form and the shape, and the queue is no part of either. -/
theorem everyStepKeepsTheInvariant : Obligations.EveryStepKeepsTheInvariant := by
  unfold Obligations.EveryStepKeepsTheInvariant
  intro s t h e
  rcases step_cases s with hs | ⟨c, r, hs⟩
  · exact (OutKeeps.next (spineTick_keeps s)).inv t h (hs.symm.trans e)
  · exact exec_inv c _ t ((inv_setPending s r).trans h) (hs.symm.trans e)

/-- Settles O2, by evaluation of the one state. -/
theorem resetStateMeetsTheInvariant : Obligations.ResetStateMeetsTheInvariant := by
  unfold Obligations.ResetStateMeetsTheInvariant
  decide +kernel

/-- Settles O1, by evaluation of the one state at each of the registers. -/
theorem resetStateHoldsTheStatedValues : Obligations.ResetStateHoldsTheStatedValues := by
  unfold Obligations.ResetStateHoldsTheStatedValues
  refine ⟨rfl, rfl, rfl, rfl, ?_, ?_, ?_, ?_, ?_⟩ <;> decide +kernel

end Sys2Proof.Machine

/-! SUPPORT. Proofs for 00_scope.md, part 2: host accesses to the registers. -/
namespace Sys2Proof.Machine

/-! ### Which block an offset lies in -/

theorem Blk.ofOff_some {a : Nat} {b : Blk} (h : Blk.ofOff a = some b) : b.base ≤ a ∧ a < b.base + 0x100000 := by
  simpa using List.find?_some h

/-- FLT_BRESET, after whose write accesses that waited may go on, lies in FLT. -/
theorem ne_bresetOff_of_ofOff {a : Nat} {b : Blk} (h : Blk.ofOff a = some b) (hb : b ≠ .flt) : a ≠ 0x00200060 := by
  rintro rfl
  exact hb (Option.some.inj (h.symm.trans (by decide)))

/-- An offset outside every block names no register (R461). -/
theorem findReg_eq_none_of_ofOff {a : Nat} (h : Blk.ofOff a = none) : findReg a = none := by
  have out : ∀ b ∈ Blk.all, ¬ (b.base ≤ a ∧ a < b.base + 0x100000) := by
    simpa [Blk.ofOff] using h
  have win : ∀ b ∈ Blk.all, a / 0x100000 ≠ b.base / 0x100000 := by
    intro b hb e
    have hd : b.base % 0x100000 = 0 := by cases b <;> rfl
    have := out b hb
    omega
  simp only [Blk.all, List.forall_mem_cons, Blk.base, Nat.reduceDiv] at win
  unfold findReg blockRegs
  split
  case h_22 => rfl
  all_goals omega

theorem Blk.mem_all (b : Blk) : b ∈ Blk.all := by cases b <;> decide

/-! ### A register write that is served -/

theorem and_or_absorb (a b : Nat) : a &&& (a ||| b) = a := by
  apply Nat.eq_of_testBit_eq
  intro i
  rw [Nat.testBit_and, Nat.testBit_or]
  cases a.testBit i <;> rfl

/-- What an operation changes after an access has been counted, and Tally's counters: no more changes in all. -/
theorem Keeps.counted {m : Nat} {s t : State} {i : Itf} {w : Bool} (k : Keeps m (s.regTally i w) t) : Keeps (m ||| 549755813888) s t := by
  have hm : m &&& (m ||| 549755813888) = m := and_or_absorb m _
  have ht : 549755813888 &&& (m ||| 549755813888) = 549755813888 := by rw [Nat.or_comm]; exact and_or_absorb _ m
  exact Keeps.step k (Nat.beq_eq.mpr hm) (Keeps.step (s.regTally_keeps i w) (Nat.beq_eq.mpr ht) (Keeps.refl _ s))

/-- A served REGISTER_WRITE to a register but FLT_BRESET is counted and lands. -/
theorem exec_registerWrite_serves {s : State} {i : Itf} {a : Nat} {d : RegDesc} (v : Word) (hs : s.serves i a = true) (hd : findReg a = some d)
    (ha : a ≠ 0x00200060) : exec (.registerWrite i a v) s = .next ((s.regTally i true).hostWr i a v) := by
  show execRegisterWrite i a v s = _
  simp only [execRegisterWrite, State.hostStoreGo, if_neg ha, State.hostStore, hd, State.reach_serves s i a v _ hs]

/-- Outside the ranges of the data that commands take, only RW, W1C and W1S bits answer a write (R14). -/
theorem State.accStore_of_not_woData (s : State) {a : Nat} {d : RegDesc} (v : Word) (hd : findReg a = some d) (hw : woData a = false) :
    s.accStore a v = s.wr a ((((s.rd a &&& ~~~(BitVec.ofNat 32 d.rw)) ||| (v &&& BitVec.ofNat 32 d.rw))
      &&& ~~~(v &&& BitVec.ofNat 32 d.w1c)) ||| (v &&& BitVec.ofNat 32 d.w1s)) := by
  simp [State.accStore, hd, hw]

/-- The data that commands take lies in PKT, CST and KEY. -/
theorem woData_eq_false_of_ofOff {a : Nat} {b : Blk} (h : Blk.ofOff a = some b) (hb : b = .mtx ∨ b = .syn ∨ b = .out) : woData a = false := by
  obtain ⟨-, hi⟩ := Blk.ofOff_some h
  have hbase : b.base < 0x02000000 := by rcases hb with rfl | rfl | rfl <;> decide
  simp only [woData, Bool.or_eq_false_iff, Bool.and_eq_false_iff, decide_eq_false_iff_not]
  omega

/-- A write to MTX, SYN or OUT that is to no interrupt register, no shadow and no COMMIT register follows the access codes. -/
theorem State.hostWr_of_plain (s : State) (i : Itf) {a : Nat} {b : Blk} (v : Word) (h : Blk.ofOff a = some b) (hb : b = .mtx ∨ b = .syn ∨ b = .out)
    (hirq : ∀ b ∈ Blk.all, a ≠ b.irqOff ∧ a ≠ b.irqOff + 4) (hsh : shMask a = 0) (hch : ∀ ch ∈ allChans, chanOff ch + 8 ≠ a) :
    s.hostWr i a v = s.accStore a v := by
  have hfind : allChans.find? (fun ch => decide (chanOff ch + 8 = a)) = none := by simpa using hch
  obtain ⟨h1, h2⟩ := hirq b b.mem_all
  unfold State.hostWr
  rcases hb with rfl | rfl | rfl <;> simp only [h, h1, h2, hsh, hfind, if_false, ne_eq, not_true_eq_false]

/-- A write to a shadowed register that is no interrupt register goes to the shadow (R17). -/
theorem State.hostWr_of_shadowed (s : State) (i : Itf) {a : Nat} (v : Word) (hsh : shMask a ≠ 0)
    (hirq : ∀ b ∈ Blk.all, a ≠ b.irqOff ∧ a ≠ b.irqOff + 4) :
    s.hostWr i a v = s.wShadow i a ((s.rd a &&& ~~~(shMask a)) ||| (v &&& shMask a)) := by
  cases h : Blk.ofOff a with
  | none => exact absurd (by simp [shMask, findReg_eq_none_of_ofOff h]) hsh
  | some b =>
    obtain ⟨h1, h2⟩ := hirq b b.mem_all
    simp only [State.hostWr, h, h1, h2, if_false, if_pos hsh]

/-- Settles O14: the write lands through `accStore` alone, and the count of the access is in Tally. -/
theorem plainWriteFollowsAccessCodes : Obligations.PlainWriteFollowsAccessCodes := by
  unfold Obligations.PlainWriteFollowsAccessCodes
  intro i a v d b s hinv hs hd h hb hirq hsh hch
  have hflt : b ≠ .flt := by rcases hb with rfl | rfl | rfl <;> decide
  have hwf : (s.regTally i true).regsWf := s.regTally_regsWf i true (State.inv_regsWf hinv)
  refine ⟨_, exec_registerWrite_serves v hs hd (ne_bresetOff_of_ofOff h hflt), ?_⟩
  rw [State.hostWr_of_plain _ i v h hb hirq hsh hch]
  have hk := (State.accStore_keeps (s.regTally i true) a v).counted
  refine ⟨?_, ?_, hk.frame (fun c => by cases c <;> decide)⟩
  all_goals rw [State.accStore_of_not_woData _ v hd (woData_eq_false_of_ofOff h hb)]
  · rw [State.rd_wr_same _ _ _ hwf, State.regTally_rd]
  · exact OnlyRegs.wr (OnlyRegs.of_regs (OnlyRegs.refl [a] s) (s.regTally_regs i true)) a _ (List.mem_singleton_self a)

/-! ### Shadowed registers -/

/-- A value that is not the default is read where it was written, whatever form the map has. -/
theorem mapGet_mapSet_of_ne_default {α : Type} [DecidableEq α] (dv : Nat → α) (m : List (Nat × α)) (k : Nat) {v : α} (hv : v ≠ dv k) :
    mapGet dv (mapSet dv m k v) k = v := by
  induction m with
  | nil => simp [mapSet, mapGet, hv]
  | cons x r ih =>
    obtain ⟨k', v'⟩ := x
    unfold mapSet
    by_cases h1 : k < k'
    · simp [h1, hv, mapGet]
    · by_cases h2 : k' = k
      · simp [h2, hv, mapGet]
      · simp [h1, h2, mapGet, ih]

theorem State.rd_shadowWrite_same (s : State) (a : Nat) (v : Word) (h : s.regsWf) : (s.shadowWrite a v).rd a = v := s.rd_wr_same a v h

theorem State.shadowWrite_only (s : State) (a : Nat) (v : Word) : OnlyRegs [a] s (s.shadowWrite a v) := (s.wr_only a v).of_regs rfl

/-- A write to a shadow leaves its pending flag set: its stamp is not 0. -/
theorem State.shadowWrite_pendSh (s : State) (a : Nat) (v : Word) : mapGet (fun _ => 0) (s.shadowWrite a v).pendSh a = s.shStamp + 1 :=
  mapGet_mapSet_of_ne_default _ _ a (Nat.succ_ne_zero s.shStamp)

@[simp] theorem State.regTally_copying (s : State) (i : Itf) (w : Bool) (a : Nat) : (s.regTally i w).copying a = s.copying a := by cases i <;> rfl

@[simp] theorem State.regTally_chan (s : State) (i : Itf) (w : Bool) (ch : Chan) : (s.regTally i w).chan ch = s.chan ch := by cases i <;> rfl

theorem listMod_getD {α : Type} (l : List α) (n : Nat) (g : α → α) (d : α) (h : n < l.length) : (listMod l n g).getD n d = g (l.getD n d) := by
  induction l generalizing n with
  | nil => exact absurd h (Nat.not_lt_zero n)
  | cons x r ih =>
    cases n with
    | zero => rfl
    | succ n => exact ih n (Nat.lt_of_succ_lt_succ h)

theorem chanIdx_lt (ch : Chan) : chanIdx ch < 46 := by cases ch <;> simp only [chanIdx] <;> omega

/-- The machine of a channel after a change of it. -/
theorem State.chan_modChan_same {s : State} (h : s.chans.length = 46) (ch : Chan) (g : CommitChan → CommitChan) :
    (s.modChan ch g).chan ch = g (s.chan ch) :=
  listMod_getD s.chans (chanIdx ch) g {} (h ▸ chanIdx_lt ch)

/-- A served REGISTER_WRITE to a shadowed register is counted and goes to the shadow. -/
theorem exec_registerWrite_shadowed {s : State} {i : Itf} {a : Nat} (v : Word) (hs : s.serves i a = true) (hsh : shMask a ≠ 0)
    (hirq : ∀ b ∈ Blk.all, a ≠ b.irqOff ∧ a ≠ b.irqOff + 4) :
    exec (.registerWrite i a v) s = .next ((s.regTally i true).wShadow i a ((s.rd a &&& ~~~(shMask a)) ||| (v &&& shMask a))) := by
  have ha : a ≠ 0x00200060 := by rintro rfl; exact hsh (by decide)
  cases hd : findReg a with
  | none => exact absurd (by simp [shMask, hd]) hsh
  | some d => rw [exec_registerWrite_serves v hs hd ha, State.hostWr_of_shadowed _ i v hsh hirq, State.regTally_rd]

/-- Settles O15: `wShadow` writes the shadow and its stamp, or appends to the writes that the copying channel holds. -/
theorem shadowWriteWaitsForItsCommit : Obligations.ShadowWriteWaitsForItsCommit := by
  unfold Obligations.ShadowWriteWaitsForItsCommit
  refine ⟨?_, ?_⟩
  · intro i a v s hinv hs hsh hirq hcopy
    refine ⟨_, exec_registerWrite_shadowed v hs hsh hirq, ?_⟩
    have hcopy : (s.regTally i true).copying a = none := by rw [State.regTally_copying, hcopy]
    simp only [State.wShadow, hcopy]
    exact ⟨State.rd_shadowWrite_same _ a _ (s.regTally_regsWf i true (State.inv_regsWf hinv)),
      ⟨_, Nat.succ_ne_zero _, State.shadowWrite_pendSh _ a _⟩,
      OnlyRegs.trans (OnlyRegs.of_regs (OnlyRegs.refl [a] s) (s.regTally_regs i true)) (State.shadowWrite_only _ a _),
      (State.shadowWrite_keeps _ a _).counted.frame (fun c => by cases c <;> decide)⟩
  · intro i a v ch s hinv hs hsh hirq hcopy
    refine ⟨_, exec_registerWrite_shadowed v hs hsh hirq, ?_⟩
    have hcopy : (s.regTally i true).copying a = some ch := by rw [State.regTally_copying, hcopy]
    have hlen : (s.regTally i true).chans.length = 46 := by rw [State.regTally_chans]; exact (State.inv_shape hinv).chans
    simp only [State.wShadow, hcopy]
    exact ⟨by rw [State.chan_modChan_same hlen, State.regTally_chan],
      (State.modChan_keeps _ ch _).counted.frame (fun c => by cases c <;> decide)⟩

/-! ### A pair found by a register write (15 R388) -/

/-- The part runs, with every other register at its Reset column. -/
def inRun : State := State.reset.wrN 0x00000010 0x90000000

theorem exec_pairCheck (r : PairRun) (s : State) : exec (.pairCheck r) s = execPairCheck r s := rfl

/-- What a late PAIR_CHECK leaves of the running part: the inverted half of FLT_FIRST is disturbed in bit 0. -/
def firstSplit : State := inRun.pairUpset 0x30 1 true

theorem firstSplit_of_pairCheck : exec (.pairCheck { upset := some ⟨0x30, 1, true⟩, late := true }) inRun = .next firstSplit := by
  have hrun : inRun.running = true := by decide +kernel
  have hpair : isPair 0x30 = true := by decide
  simp [exec_pairCheck, execPairCheck, hrun, hpair, firstSplit]

theorem firstSplit_serves : firstSplit.inv = true ∧ firstSplit.serves .pcie 0x00200030 = true := by decide +kernel

/-- A host write to FLT_FIRST finds the pair, whose halves agree from then on. -/
theorem registerWrite_finds_firstSplit : (firstSplit.hostStoreGo .pcie 0x00200030 0x1000).flt.split = [] := by decide +kernel

/-- RECORD_CLEAR of the same word to the same register does not look at the pair. -/
theorem recordClear_leaves_firstSplit :
    (firstSplit.reach .pcie 0x00200030 0x1000 (fun s => s.wRecord 0x00200030 0x1000)).flt.split = [(0x30, 1)] := by decide +kernel

/-- Refutes O8: where the pair of FLT_FIRST differs, a REGISTER_WRITE to it finds the mismatch (R388), and RECORD_CLEAR, which stands for the
same write, does not. The state meets the invariant, serves the write, and is what a late PAIR_CHECK leaves. -/
theorem not_registerWriteIsTheRowOfItsRegister : ¬ Obligations.RegisterWriteIsTheRowOfItsRegister := by
  unfold Obligations.RegisterWriteIsTheRowOfItsRegister
  rintro ⟨-, -, -, -, -, -, -, -, -, -, -, -, -, -, -, -, -, -, -, -, -, -, -, -, -, -, -, -, -, -, -, -, -, -, -, -, -, -, -, -, -, -, -, -,
    -, -, -, -, -, -, hrec, -, -⟩
  have e : firstSplit.hostStoreGo .pcie 0x00200030 0x1000 = firstSplit.reach .pcie 0x00200030 0x1000 (fun s => s.wRecord 0x00200030 0x1000) :=
    Host.Outcome.next.inj (hrec .pcie false firstSplit)
  have hsplit := congrArg (fun t : State => t.flt.split) e
  simp only [registerWrite_finds_firstSplit, recordClear_leaves_firstSplit] at hsplit
  exact List.cons_ne_nil _ _ hsplit.symm

/-! ### A generator that injects errors while PRBS_ERR is read (09 R250) -/

/-- Lane 1 runs its PRBS generator, which injects one error in 2^10 bits, and one second of its base has passed since it was last counted. -/
def injecting : State :=
  let s := [(0x00100014, 0x3FF), (0x02000000, 0x3FFFF), (lanOff 1, 0x88000000), (lanOff 1 + 4, 0x50000000),
    (lanOff 1 + 0x24, 0x800A0000)].foldl (fun s r => s.wrN r.1 r.2) inRun
  s.modSpn (fun p => { p with bases := p.bases.map (fun b => { b with osc := secU }) })

theorem injecting_reads : injecting.inv = true ∧ injecting.reads .pcie (lanOff 1 + 0x28) = true := by decide +kernel

theorem injecting_injCnt : injecting.rd (lanOff 1 + 0x34) = 0 := by decide +kernel

/-- The access counts the errors injected up to it (R250). -/
theorem readBy_injecting_injCnt : (injecting.readBy .pcie (lanOff 1 + 0x28) (some 0)).rd (lanOff 1 + 0x34) = 1220703 := by decide +kernel

/-- Refutes O41: its clause for PRBS_ERR_READ leaves the registers out of what the read may change, but the read also counts the errors that
the lane's generator has injected by then, in LAN_Lm_PRBS_INJ_CNT (R250). The state meets the invariant and serves the read. -/
theorem not_readsAnswerClearAndBank : ¬ Obligations.ReadsAnswerClearAndBank := by
  unfold Obligations.ReadsAnswerClearAndBank
  rintro ⟨-, -, -, -, -, -, -, -, -, -, -, -, -, -, -, hprbs, -⟩
  obtain ⟨hinv, hreads⟩ := injecting_reads
  obtain ⟨t, ht, -, -, -, -, -, hframe⟩ := hprbs .pcie 1 0 _ _ injecting hinv hreads rfl rfl
  have ht : injecting.readBy .pcie (lanOff 1 + 0x28) (some 0) = t := Host.Outcome.next.inj ht
  have hregs : t.regs = injecting.regs := hframe .regs (by decide)
  have hcnt : t.rd (lanOff 1 + 0x34) = injecting.rd (lanOff 1 + 0x34) := by unfold State.rd; rw [hregs]
  rw [← ht, readBy_injecting_injCnt, injecting_injCnt] at hcnt
  exact absurd hcnt (by decide)

end Sys2Proof.Machine

/-! SUPPORT. Proofs for 01_architecture.md, part 1: the step and its queue. -/
namespace Sys2Proof.Machine

/-- Settles O3, by the definition of a step. -/
theorem stepRunsTheCommandInFront : Obligations.StepRunsTheCommandInFront := by
  unfold Obligations.StepRunsTheCommandInFront
  intro c r s h
  simp only [step, h]

/-! ### The count of a spine tick -/

theorem State.capture_ticks (s : State) (i : Itf) (n : Nat) : (s.capture i n).spn.ticks = s.spn.ticks := by
  unfold State.capture
  split <;> simp [State.modBase]

theorem State.setSnap_ticks (s : State) (i : Itf) (x : Option (Nat × Bool)) : (s.setSnap i x).spn.ticks = s.spn.ticks := by cases i <;> rfl

theorem State.setTake_ticks (s : State) (i : Itf) (x : Option Nat) : (s.setTake i x).spn.ticks = s.spn.ticks := by cases i <;> rfl

/-- An operation that leaves the count alone leaves it alone when repeated over a list. -/
theorem foldl_ticks {α : Type} {g : State → α → State} (hg : ∀ s a, (g s a).spn.ticks = s.spn.ticks) (l : List α) (s : State) :
    (l.foldl g s).spn.ticks = s.spn.ticks := by
  induction l generalizing s with
  | nil => rfl
  | cons a r ih => exact (ih (g s a)).trans (hg s a)

theorem State.captureEnd_ticks (s : State) (i : Itf) : (s.captureEnd i).spn.ticks = s.spn.ticks := by
  unfold State.captureEnd
  split
  · rw [State.setTake_ticks]
    refine foldl_ticks (fun s n => ?_) _ s
    split
    · exact s.capture_ticks i n
    · rfl
  · rfl

theorem State.tickBases_ticks (s : State) : s.tickBases.spn.ticks = s.spn.ticks + 1 := rfl

theorem State.endLeapSec_ticks (s : State) (n : Nat) : (s.endLeapSec n).spn.ticks = s.spn.ticks := by
  unfold State.endLeapSec
  split <;> rfl

theorem State.captureTick_ticks (s : State) (i : Itf) : (s.captureTick i).spn.ticks = s.spn.ticks := by
  unfold State.captureTick
  split
  · rw [State.setTake_ticks, State.setSnap_ticks]
  · rfl

/-- Of the parts of a spine tick the advance of the bases alone counts it. -/
theorem spineTick_ticks (s : State) : (spineTick s).spn.ticks = s.spn.ticks + 1 := by
  unfold spineTick
  rw [State.captureTick_ticks, State.captureTick_ticks, foldl_ticks State.endLeapSec_ticks, State.tickBases_ticks,
    State.captureEnd_ticks, State.captureEnd_ticks]

theorem spineTick_pending (s : State) : (spineTick s).pending = s.pending := (spineTick_keeps s).same .pending (by decide)

theorem step_of_idle {s : State} (h : s.pending = []) : step s = .next (spineTick s) := by
  simp only [step, h]

/-- Settles O4: a tick counts itself and leaves the queue as it was. -/
theorem idleStepIsOneSpineTick : Obligations.IdleStepIsOneSpineTick := by
  unfold Obligations.IdleStepIsOneSpineTick
  exact fun s h => ⟨step_of_idle h, spineTick_ticks s, (spineTick_pending s).trans h⟩

/-! ### Every command answers a next state -/

/-- An outcome is a next state, whichever it is. -/
def IsNext (o : Out) : Prop := ∃ t, o = .next t

theorem IsNext.next (t : State) : IsNext (.next t) := ⟨t, rfl⟩

theorem IsNext.ite {c : Prop} [Decidable c] {a b : Out} (h : IsNext a) (k : IsNext b) : IsNext (if c then a else b) := by
  split
  · exact h
  · exact k

/-- A choice between two next states. -/
theorem IsNext.guard {c : Prop} [Decidable c] {s t : State} : IsNext (if c then .next s else .next t) := .ite (.next s) (.next t)

/-! ### The commands whose meaning looks at the form of a value -/

theorem execRcRead_isNext (r : HostRead) (s : State) : IsNext (execRcRead r s) := by
  unfold execRcRead
  cases r with
  | reg i off => exact .next _
  | bar2 a n errs => exact .next _
  | bar4 off wide => exact .next _
  | config r => exact .next _
  | zero b => exact .next _

theorem execFenceComplete_isNext (i : Itf) (s : State) : IsNext (execFenceComplete i s) := by
  unfold execFenceComplete
  split
  · exact .next _
  · exact .ite (.next _) .guard

theorem execFenceSlow_isNext (i : Itf) (s : State) : IsNext (execFenceSlow i s) := by
  unfold execFenceSlow
  split
  · exact .next _
  · exact .guard

theorem execCarrierRampEnd_isNext (s : State) : IsNext (execCarrierRampEnd s) := by
  unfold execCarrierRampEnd
  split
  · exact .next _
  · exact .guard

theorem execSynsLock_isNext (s : State) : IsNext (execSynsLock s) := by
  unfold execSynsLock
  refine .ite (.next _) ?_
  split <;> exact .next _

theorem execSnapDone_isNext (i : Itf) (s : State) : IsNext (execSnapDone i s) := by
  unfold execSnapDone
  split
  · dsimp only
    split <;> exact .next _
  · exact .next _

theorem execCommitCheck_isNext (ch : Chan) (s : State) : IsNext (execCommitCheck ch s) := by
  unfold execCommitCheck
  split <;> exact .next _

theorem execLockPoint_isNext (ch : Chan) (s : State) : IsNext (execLockPoint ch s) := by
  unfold execLockPoint
  split
  · exact .guard
  · exact .next _

theorem execCommitLive_isNext (ch : Chan) (s : State) : IsNext (execCommitLive ch s) := by
  unfold execCommitLive
  split
  · exact .guard
  · exact .next _

theorem execTiuEvent_isNext (k : Fin 12) (spacing : Nat) (s : State) : IsNext (execTiuEvent k spacing s) := by
  unfold execTiuEvent
  split
  · exact .next _
  · exact .ite (.next _) (.ite (.next _) .guard)

theorem execTiuConversionDone_isNext (k : Fin 12) (code : BitVec 12) (s : State) : IsNext (execTiuConversionDone k code s) := by
  unfold execTiuConversionDone
  dsimp only
  split
  · exact .ite (.next _) .guard
  · exact .next _

theorem execLaneUnitEvent_isNext (m : Fin 18) (ch : LaneChan) (steps : Nat) (s : State) : IsNext (execLaneUnitEvent m ch steps s) := by
  unfold execLaneUnitEvent
  cases ch with
  | rx => exact .guard
  | tx => exact .guard
  | freq => exact .ite (.next _) .guard

theorem execRampDone_isNext (k : Fin 4) (edges : List (Fin 12 × List Nat)) (s : State) : IsNext (execRampDone k edges s) := by
  unfold execRampDone
  split
  · exact .next _
  · exact .guard

theorem execTodMessage_isNext (k : Fin 2) (s : State) : IsNext (execTodMessage k s) := by
  unfold execTodMessage
  dsimp only
  split
  · exact .next _
  · exact .guard

theorem execTodMessageEnd_isNext (k : Fin 2) (s : State) : IsNext (execTodMessageEnd k s) := by
  unfold execTodMessageEnd
  refine .ite ?_ (.next _)
  dsimp only
  split <;> exact .next _

theorem execExceededFlagExpiry_isNext (n : Fin 8) (s : State) : IsNext (execExceededFlagExpiry n s) := by
  unfold execExceededFlagExpiry
  split <;> exact .next _

theorem execMapHoldExpiry_isNext (n : Fin 8) (s : State) : IsNext (execMapHoldExpiry n s) := by
  unfold execMapHoldExpiry
  split <;> exact .next _

theorem execVanePpsEdge_isNext (sec : Nat) (s : State) : IsNext (execVanePpsEdge sec s) := by
  unfold execVanePpsEdge
  refine .ite (.next _) ?_
  split
  · exact .ite (.next _) .guard
  · exact .next _

theorem execHostRingDeliver_isNext (p : Fin 16) (descs : List (Option (List Byte))) (bad : Option RingWrite) (s : State) :
    IsNext (execHostRingDeliver p descs bad s) := by
  unfold execHostRingDeliver
  split
  · exact .next _
  · refine .ite (.next _) (.ite (.next _) ?_)
    extract_lets
    split
    · exact .next _
    · exact .next _
    · exact .next _
    · extract_lets wb stop
      clear_value stop
      split <;> exact .next _

theorem execTxFrameStart_isNext (p : Fin 16) (pos : TxPos) (skip : Fin 21) (bad : Option Nat) (s : State) :
    IsNext (execTxFrameStart p pos skip bad s) := by
  unfold execTxFrameStart
  refine .ite (.next _) (.ite (.next _) ?_)
  split <;> exact .next _

theorem execTxFrameEnd_isNext (p : Fin 16) (bad : Option Nat) (s : State) : IsNext (execTxFrameEnd p bad s) := by
  unfold execTxFrameEnd
  dsimp only
  split <;> exact .next _

theorem execClassify_isNext (p : Fin 16) (launch : Nat) (errs : List EccHit) (s : State) : IsNext (execClassify p launch errs s) := by
  unfold execClassify
  dsimp only
  split
  · exact .next _
  · exact .ite (.next _) .guard

theorem execSyncEmit_isNext (st : Stream) (launch : Nat) (s : State) : IsNext (execSyncEmit st launch s) := by
  unfold execSyncEmit
  dsimp only
  split
  · exact .next _
  · split
    · exact .next _
    · exact .ite (.next _) (.ite (.next _) .guard)

theorem execAnnounceEmit_isNext (st : Stream) (s : State) : IsNext (execAnnounceEmit st s) := by
  unfold execAnnounceEmit
  dsimp only
  split
  · exact .next _
  · split
    · exact .next _
    · exact .ite (.next _) .guard

theorem execStoreInit_isNext (trained : Bool) (s : State) : IsNext (execStoreInit trained s) := by
  unfold execStoreInit
  refine .ite (.next _) ?_
  split
  · exact .next _
  · exact .next _
  · exact .guard

theorem execClaimBoundary_isNext (s : State) : IsNext (execClaimBoundary s) := by
  unfold execClaimBoundary
  refine .ite (.next _) ?_
  extract_lets
  split
  · exact .next _
  · exact .ite (.next _) .guard

theorem execLinkFrameSend_isNext (due : LinkDue) (s : State) : IsNext (execLinkFrameSend due s) := by
  unfold execLinkFrameSend
  cases due with
  | hello => exact .guard
  | heartbeat => exact .next _
  | time => exact .next _
  | state => exact .next _
  | key slot => exact .guard
  | twowayRequest l => exact .next _
  | twowayAnswer l =>
    dsimp only
    split <;> exact .next _
  | ack => exact .next _

theorem execLinkRetry_isNext (s : State) : IsNext (execLinkRetry s) := by
  unfold execLinkRetry
  split
  · exact .guard
  · exact .next _

theorem execBurnDone_isNext (s : State) : IsNext (execBurnDone s) := by
  unfold execBurnDone
  split
  · exact .next _
  · exact .guard

theorem execDmaDescFetched_isNext (c : Fin 16) (desc : Option (List Byte)) (s : State) : IsNext (execDmaDescFetched c desc s) := by
  unfold execDmaDescFetched
  refine .ite ?_ (.next _)
  split <;> exact .next _

theorem execDmaTransferDone_isNext (c : Fin 16) (src : List Byte) (err : Option (BitVec 64)) (s : State) :
    IsNext (execDmaTransferDone c src err s) := by
  unfold execDmaTransferDone
  refine .ite (.next _) ?_
  split
  · exact .next _
  · split <;> exact .next _

theorem execDmaLinkRead_isNext (c : Fin 16) (next : Option (BitVec 64)) (s : State) : IsNext (execDmaLinkRead c next s) := by
  unfold execDmaLinkRead
  refine .ite (.next _) ?_
  split <;> exact .next _

theorem execDumpWritten_isNext (ok : Bool) (s : State) : IsNext (execDumpWritten ok s) := by
  unfold execDumpWritten
  split
  · exact .next _
  · exact .ite (.next _) .guard

theorem execPcieLinkReset_isNext (e : LinkEvent) (s : State) : IsNext (execPcieLinkReset e s) := by
  unfold execPcieLinkReset
  refine .ite (.next _) ?_
  split <;> exact .next _

theorem execMsixUnmask_isNext (w : MsixWrite) (s : State) : IsNext (execMsixUnmask w s) := by
  unfold execMsixUnmask
  refine .ite (.next _) ?_
  split
  · exact .next _
  · exact .guard

theorem execIrqStatWrite_isNext (i : Itf) (b : Fin 21) (v : Word) (s : State) : IsNext (execIrqStatWrite i b v s) := by
  unfold execIrqStatWrite
  split <;> exact .next _

theorem execI2cWrite_isNext (bytes : List Byte) (s : State) : IsNext (execI2cWrite bytes s) := by
  unfold execI2cWrite
  split
  · exact .next _
  · exact .ite (.next _) .guard

theorem execI2cRead_isNext (bytes : List Byte) (s : State) : IsNext (execI2cRead bytes s) := by
  unfold execI2cRead
  split
  · exact .ite (.next _) .guard
  · exact .next _

theorem execImageFetched_isNext (prim sec : List Byte) (s : State) : IsNext (execImageFetched prim sec s) := by
  unfold execImageFetched
  refine .ite (.next _) ?_
  extract_lets p q pick
  clear_value pick
  split <;> exact .next _

theorem execImageVerified_isNext (s : State) : IsNext (execImageVerified s) := by
  unfold execImageVerified
  refine .ite (.next _) ?_
  split <;> exact .next _

theorem execStructChecked_isNext (s : State) : IsNext (execStructChecked s) := by
  unfold execStructChecked
  refine .ite (.next _) ?_
  dsimp only
  split
  · exact .next _
  · split
    · exact .next _
    · split <;> exact .next _

theorem execDomainsUp_isNext (failed : Option (Fin 10)) (s : State) : IsNext (execDomainsUp failed s) := by
  unfold execDomainsUp
  refine .ite (.next _) ?_
  split
  · exact .next _
  · extract_lets
    split <;> exact .next _

theorem execEnterRun_isNext (ms : Word) (s : State) : IsNext (execEnterRun ms s) := by
  unfold execEnterRun
  refine .ite (.next _) ?_
  split
  · exact .next _
  · split <;> exact .next _

theorem execDomainSwitched_isNext (s : State) : IsNext (execDomainSwitched s) := by
  unfold execDomainSwitched
  refine .ite (.next _) ?_
  split
  · exact .next _
  · exact .guard

theorem execRampFail_isNext (s : State) : IsNext (execRampFail s) := by
  unfold execRampFail
  refine .ite (.next _) ?_
  split
  · exact .next _
  · exact .guard

/-- No command is refused and none stops the block: each meaning is one next state, or a choice between next states. -/
theorem exec_isNext (c : Instr) (s : State) : IsNext (exec c s) := by
  cases c with
  | registerWrite | absentAccess | decodeMiss | fenceOpen | spineForceWrite | snapReq | commitWrite | smearWindowStart | slotArm | slotCancel
  | refinConfigWrite | loConfigWrite | los | loAlarmClear | loTempSample | dieTempSample | tiuConfigWrite | tiuDensityTest | tiuCalPeriod
  | tiuCalNow | tiuCalRetry | tiuResultRead | ppsEdge | monitorTick | candidateSourceReport | qualityInput | selPrefWrite | servoUpdate
  | traceSecond | laneTrimDone | clkRange | feClockReturn | aidGo | gnsTimRead | pauseExpire | pauseHoldoffEnd | rxTailWrite | txTailWrite
  | txFrameFetch | rxRingReset | txRingReset | keyLoad | keyDelete | ntsRingWrite | mintGo | clientRequestRetry | clientWaitTimeout | clientLost
  | lookup | create | provision | release | unpin | lockTimeout | claimHoldoffEnd | laneLpEnter | laneLpExit | groupLpWrite | laneRestart
  | laneTestWrite | eyeGo | prbsInj | prbsErrRead | healthTestFail | generate | load | erase | attest | disarm | zeroise | nonceRead
  | tampArmWrite | coreDeparture | dmaEnable | dmaDisable | dmaStopped | dmaDoorbell | prfCounterRead | dumpCtlWrite | completionTimeout
  | flrComplete | watchRound | fltBresetWrite | fltCresetWrite | fltSafeReqWrite | pairCheck | maskWindowEnd | recordClear | macCounterRead
  | statusBankRead | powerOnReset | loadStart | loadData | loadGo | fuse | setRequire | domReqWrite | brownOut => exact .next _
  | carrierNamed | smearWindowEnd | evtPulseEnd | loAlarmSet | tiuCalEnd | laneCalFail | synLoopSettled | synLockingTimeout | synAlignStart
  | synUnlock | synRealigned | ppsPulseEnd | ensembleCycle | warmupEnd | trefFixed | trained | memberRejoin | boundEval10ms | gnssMissingSecond
  | gnssConfigChange | clkLost | channelDrop | signalAcquired | aidDone | aidedFirstTimeout | gnssWake | deskewDone | deskewFail | linkUp
  | pauseWd | esmcTx | esmcTimeout | linkFaultReceived | alignmentLockLoss | launchPassedNotUp | mintDone | clientRenew | sessionSweep
  | bar2Write | claimFrameSend | peerStale | tndLinkDown | spareCheck | healthSecond | lanePllReady | pllFail | trainDone | trainFail
  | laneAlignLock | lockLost | eyePointDone | prbsChkLock | prbsLockLost | coefficientUpdate | entropyRetry | tamper | burnIncomplete | vbatLoss
  | tallyCapture | keepCopy | ownerBurnDone | railFault => exact .guard
  | badAccess | gnssSolution | clientRequest | scrubLine | claimFrameReceive | keysPhase => exact .ite (.next _) .guard
  | slotFire | synSearchDone | atomicOp => exact .ite .guard (.next _)
  | coreDepartureDecided => exact .ite (.next _) (.ite .guard .guard)
  | resetRelease => exact .ite .guard (.ite .guard (.next _))
  | leapApplied | laneCdrLock => exact .ite (.ite (.next _) .guard) (.next _)
  | linkAckTimeout => exact .ite (.next _) (.ite (.next _) .guard)
  | dividedEdge | linkFrameReceive => exact .ite (.next _) (.ite (.next _) (.ite (.next _) .guard))
  | frameReceive => exact .ite (.next _) (.ite (.next _) (.ite (.next _) (.ite (.next _) (.ite (.next _)
      (.ite .guard (.ite (.next _) .guard))))))
  | rcRead r => exact execRcRead_isNext r s
  | fenceComplete itf => exact execFenceComplete_isNext itf s
  | fenceSlow itf => exact execFenceSlow_isNext itf s
  | carrierRampEnd => exact execCarrierRampEnd_isNext s
  | synsLock => exact execSynsLock_isNext s
  | snapDone itf => exact execSnapDone_isNext itf s
  | commitCheck ch => exact execCommitCheck_isNext ch s
  | lockPoint ch => exact execLockPoint_isNext ch s
  | commitLive ch => exact execCommitLive_isNext ch s
  | tiuEvent k spacing => exact execTiuEvent_isNext k spacing s
  | tiuConversionDone k code => exact execTiuConversionDone_isNext k code s
  | laneUnitEvent m ch steps => exact execLaneUnitEvent_isNext m ch steps s
  | rampDone k edges => exact execRampDone_isNext k edges s
  | todMessage k => exact execTodMessage_isNext k s
  | todMessageEnd k => exact execTodMessageEnd_isNext k s
  | exceededFlagExpiry n => exact execExceededFlagExpiry_isNext n s
  | mapHoldExpiry n => exact execMapHoldExpiry_isNext n s
  | vanePpsEdge sec => exact execVanePpsEdge_isNext sec s
  | hostRingDeliver p descs bad => exact execHostRingDeliver_isNext p descs bad s
  | txFrameStart p pos skip bad => exact execTxFrameStart_isNext p pos skip bad s
  | txFrameEnd p bad => exact execTxFrameEnd_isNext p bad s
  | classify p launch errs => exact execClassify_isNext p launch errs s
  | syncEmit st launch => exact execSyncEmit_isNext st launch s
  | announceEmit st => exact execAnnounceEmit_isNext st s
  | storeInit trained => exact execStoreInit_isNext trained s
  | claimBoundary => exact execClaimBoundary_isNext s
  | linkFrameSend due => exact execLinkFrameSend_isNext due s
  | linkRetry => exact execLinkRetry_isNext s
  | burnDone => exact execBurnDone_isNext s
  | dmaDescFetched c desc => exact execDmaDescFetched_isNext c desc s
  | dmaTransferDone c src err => exact execDmaTransferDone_isNext c src err s
  | dmaLinkRead c next => exact execDmaLinkRead_isNext c next s
  | dumpWritten ok => exact execDumpWritten_isNext ok s
  | pcieLinkReset e => exact execPcieLinkReset_isNext e s
  | msixUnmask w => exact execMsixUnmask_isNext w s
  | irqStatWrite itf b v => exact execIrqStatWrite_isNext itf b v s
  | i2cWrite bytes => exact execI2cWrite_isNext bytes s
  | i2cRead bytes => exact execI2cRead_isNext bytes s
  | imageFetched prim sec => exact execImageFetched_isNext prim sec s
  | imageVerified => exact execImageVerified_isNext s
  | structChecked => exact execStructChecked_isNext s
  | domainsUp failed => exact execDomainsUp_isNext failed s
  | enterRun ms => exact execEnterRun_isNext ms s
  | domainSwitched => exact execDomainSwitched_isNext s
  | rampFail => exact execRampFail_isNext s

/-! ### The queue -/

/-- A mask within another. -/
theorem OutKeeps.mono {m n : Nat} {s : State} {o : Out} (k : OutKeeps m s o) (h : Nat.beq (Nat.land m n) m = true) : OutKeeps n s o :=
  fun t e => Keeps.step (k t e) h (Keeps.refl n s)

/-- The mask of all that can change but the queue (`Part.idx`). -/
def allButQueue : Nat := 2 ^ 47 - 1 - 2 ^ Part.pending.idx

/-- No command touches the queue, by what its meaning keeps (Laws/KeepsExec.lean). -/
theorem exec_keeps (c : Instr) (s : State) : OutKeeps allButQueue s (exec c s) := by
  unfold exec
  cases c with
  | registerWrite itf off v => exact (execRegisterWrite_keeps _ _ _ s).mono rfl
  | rcRead r => exact (execRcRead_keeps _ s).mono rfl
  | absentAccess itf off write => exact (execAbsentAccess_keeps _ _ _ s).mono rfl
  | decodeMiss itf off write => exact (execDecodeMiss_keeps _ _ _ s).mono rfl
  | badAccess bar4 addr write => exact (execBadAccess_keeps _ _ _ s).mono rfl
  | fenceOpen itf v => exact (execFenceOpen_keeps _ _ s).mono rfl
  | fenceComplete itf => exact (execFenceComplete_keeps _ s).mono rfl
  | fenceSlow itf => exact (execFenceSlow_keeps _ s).mono rfl
  | carrierNamed m => exact (execCarrierNamed_keeps _ s).mono rfl
  | carrierRampEnd => exact (execCarrierRampEnd_keeps s).mono rfl
  | synsLock => exact (execSynsLock_keeps s).mono rfl
  | spineForceWrite itf v => exact (execSpineForceWrite_keeps _ _ s).mono rfl
  | snapReq itf v => exact (execSnapReq_keeps _ _ s).mono rfl
  | snapDone itf => exact (execSnapDone_keeps _ s).mono rfl
  | commitWrite itf ch v => exact (execCommitWrite_keeps _ _ _ s).mono rfl
  | commitCheck ch => exact (execCommitCheck_keeps _ s).mono rfl
  | lockPoint ch => exact (execLockPoint_keeps _ s).mono rfl
  | commitLive ch => exact (execCommitLive_keeps _ s).mono rfl
  | leapApplied n => exact (execLeapApplied_keeps _ s).mono rfl
  | smearWindowStart n => exact (execSmearWindowStart_keeps _ s).mono rfl
  | smearWindowEnd n => exact (execSmearWindowEnd_keeps _ s).mono rfl
  | slotArm itf sl v => exact (execSlotArm_keeps _ _ _ s).mono rfl
  | slotCancel itf sl v => exact (execSlotCancel_keeps _ _ _ s).mono rfl
  | slotFire sl => exact (execSlotFire_keeps _ s).mono rfl
  | evtPulseEnd p => exact (execEvtPulseEnd_keeps _ s).mono rfl
  | refinConfigWrite itf n reg v => exact (execRefinConfigWrite_keeps _ _ _ _ s).mono rfl
  | loConfigWrite itf m reg v => exact (execLoConfigWrite_keeps _ _ _ _ s).mono rfl
  | dividedEdge src spacing => exact (execDividedEdge_keeps _ _ s).mono rfl
  | los src => exact (execLos_keeps _ s).mono rfl
  | loAlarmSet m => exact (execLoAlarmSet_keeps _ s).mono rfl
  | loAlarmClear m => exact (execLoAlarmClear_keeps _ s).mono rfl
  | loTempSample t0 t1 t2 t3 => exact (execLoTempSample_keeps _ _ _ _ s).mono rfl
  | dieTempSample t => exact (execDieTempSample_keeps _ s).mono rfl
  | tiuEvent k spacing => exact (execTiuEvent_keeps _ _ s).mono rfl
  | tiuConversionDone k code => exact (execTiuConversionDone_keeps _ _ s).mono rfl
  | tiuConfigWrite itf k v => exact (execTiuConfigWrite_keeps _ _ _ s).mono rfl
  | tiuDensityTest k nl sum500 sum1000 => exact (execTiuDensityTest_keeps _ _ _ _ s).mono rfl
  | tiuCalPeriod k => exact (execTiuCalPeriod_keeps _ s).mono rfl
  | tiuCalNow itf v => exact (execTiuCalNow_keeps _ _ s).mono rfl
  | tiuCalEnd k sum500 sum1000 => exact (execTiuCalEnd_keeps _ _ _ s).mono rfl
  | tiuCalRetry k => exact (execTiuCalRetry_keeps _ s).mono rfl
  | tiuResultRead itf u => exact (execTiuResultRead_keeps _ _ s).mono rfl
  | laneUnitEvent m ch steps => exact (execLaneUnitEvent_keeps _ _ _ s).mono rfl
  | laneCalFail m => exact (execLaneCalFail_keeps _ s).mono rfl
  | synSearchDone k found edges => exact (execSynSearchDone_keeps _ _ _ s).mono rfl
  | synLoopSettled k edges => exact (execSynLoopSettled_keeps _ _ s).mono rfl
  | synLockingTimeout k edges => exact (execSynLockingTimeout_keeps _ _ s).mono rfl
  | synAlignStart k edges => exact (execSynAlignStart_keeps _ _ s).mono rfl
  | synUnlock k edges => exact (execSynUnlock_keeps _ _ s).mono rfl
  | rampDone k edges => exact (execRampDone_keeps _ _ s).mono rfl
  | synRealigned k edges => exact (execSynRealigned_keeps _ _ s).mono rfl
  | ppsEdge k => exact (execPpsEdge_keeps _ s).mono rfl
  | ppsPulseEnd k => exact (execPpsPulseEnd_keeps _ s).mono rfl
  | todMessage k => exact (execTodMessage_keeps _ s).mono rfl
  | todMessageEnd k => exact (execTodMessageEnd_keeps _ s).mono rfl
  | monitorTick => exact (execMonitorTick_keeps s).mono rfl
  | candidateSourceReport c => exact (execCandidateSourceReport_keeps _ s).mono rfl
  | qualityInput c qin => exact (execQualityInput_keeps _ _ s).mono rfl
  | selPrefWrite itf n v => exact (execSelPrefWrite_keeps _ _ _ s).mono rfl
  | ensembleCycle => exact (execEnsembleCycle_keeps s).mono rfl
  | warmupEnd m => exact (execWarmupEnd_keeps _ s).mono rfl
  | trefFixed m => exact (execTrefFixed_keeps _ s).mono rfl
  | trained m => exact (execTrained_keeps _ s).mono rfl
  | memberRejoin m => exact (execMemberRejoin_keeps _ s).mono rfl
  | servoUpdate n => exact (execServoUpdate_keeps _ s).mono rfl
  | exceededFlagExpiry n => exact (execExceededFlagExpiry_keeps _ s).mono rfl
  | boundEval10ms n => exact (execBoundEval10ms_keeps _ s).mono rfl
  | mapHoldExpiry n => exact (execMapHoldExpiry_keeps _ s).mono rfl
  | traceSecond => exact (execTraceSecond_keeps s).mono rfl
  | laneTrimDone m slow fast => exact (execLaneTrimDone_keeps _ _ _ s).mono rfl
  | vanePpsEdge sec => exact (execVanePpsEdge_keeps _ s).mono rfl
  | gnssSolution q g => exact (execGnssSolution_keeps _ _ s).mono rfl
  | gnssMissingSecond q => exact (execGnssMissingSecond_keeps _ s).mono rfl
  | gnssConfigChange itf off v => exact (execGnssConfigChange_keeps _ _ _ s).mono rfl
  | clkLost k => exact (execClkLost_keeps _ s).mono rfl
  | clkRange k err => exact (execClkRange_keeps _ _ s).mono rfl
  | feClockReturn k err => exact (execFeClockReturn_keeps _ _ s).mono rfl
  | channelDrop x => exact (execChannelDrop_keeps _ s).mono rfl
  | signalAcquired x bin => exact (execSignalAcquired_keeps _ _ s).mono rfl
  | aidGo itf v => exact (execAidGo_keeps _ _ s).mono rfl
  | aidDone => exact (execAidDone_keeps s).mono rfl
  | aidedFirstTimeout => exact (execAidedFirstTimeout_keeps s).mono rfl
  | gnssWake crcOk => exact (execGnssWake_keeps _ s).mono rfl
  | gnsTimRead itf => exact (execGnsTimRead_keeps _ s).mono rfl
  | deskewDone p k1 k2 k3 => exact (execDeskewDone_keeps _ _ _ _ s).mono rfl
  | deskewFail p => exact (execDeskewFail_keeps _ s).mono rfl
  | linkUp p => exact (execLinkUp_keeps _ s).mono rfl
  | frameReceive p x => exact (execFrameReceive_keeps _ _ s).mono rfl
  | pauseExpire p => exact (execPauseExpire_keeps _ s).mono rfl
  | pauseWd p => exact (execPauseWd_keeps _ s).mono rfl
  | pauseHoldoffEnd p => exact (execPauseHoldoffEnd_keeps _ s).mono rfl
  | esmcTx p event => exact (execEsmcTx_keeps _ _ s).mono rfl
  | esmcTimeout p => exact (execEsmcTimeout_keeps _ s).mono rfl
  | hostRingDeliver p descs bad => exact (execHostRingDeliver_keeps _ _ _ s).mono rfl
  | rxTailWrite itf p v => exact (execRxTailWrite_keeps _ _ _ s).mono rfl
  | txTailWrite itf p v => exact (execTxTailWrite_keeps _ _ _ s).mono rfl
  | txFrameFetch p descs bufs bad => exact (execTxFrameFetch_keeps _ _ _ _ s).mono rfl
  | rxRingReset itf p v => exact (execRxRingReset_keeps _ _ _ s).mono rfl
  | txRingReset itf p v => exact (execTxRingReset_keeps _ _ _ s).mono rfl
  | txFrameStart p pos skip bad => exact (execTxFrameStart_keeps _ _ _ _ s).mono rfl
  | txFrameEnd p bad => exact (execTxFrameEnd_keeps _ _ s).mono rfl
  | linkFaultReceived p lf rf => exact (execLinkFaultReceived_keeps _ _ _ s).mono rfl
  | alignmentLockLoss p => exact (execAlignmentLockLoss_keeps _ s).mono rfl
  | launchPassedNotUp p bad => exact (execLaunchPassedNotUp_keeps _ _ s).mono rfl
  | classify p launch errs => exact (execClassify_keeps _ _ _ s).mono rfl
  | syncEmit st launch => exact (execSyncEmit_keeps _ _ s).mono rfl
  | announceEmit st => exact (execAnnounceEmit_keeps _ s).mono rfl
  | keyLoad itf v => exact (execKeyLoad_keeps _ _ s).mono rfl
  | keyDelete itf v => exact (execKeyDelete_keeps _ _ s).mono rfl
  | ntsRingWrite itf v => exact (execNtsRingWrite_keeps _ _ s).mono rfl
  | mintGo itf v => exact (execMintGo_keeps _ _ s).mono rfl
  | mintDone => exact (execMintDone_keeps s).mono rfl
  | clientRequest k => exact (execClientRequest_keeps _ s).mono rfl
  | clientRequestRetry k => exact (execClientRequestRetry_keeps _ s).mono rfl
  | clientWaitTimeout k => exact (execClientWaitTimeout_keeps _ s).mono rfl
  | clientLost k cause => exact (execClientLost_keeps _ _ s).mono rfl
  | clientRenew k grant => exact (execClientRenew_keeps _ _ s).mono rfl
  | storeInit trained => exact (execStoreInit_keeps _ s).mono rfl
  | sessionSweep => exact (execSessionSweep_keeps s).mono rfl
  | lookup itf => exact (execLookup_keeps _ s).mono rfl
  | create itf => exact (execCreate_keeps _ s).mono rfl
  | provision itf => exact (execProvision_keeps _ s).mono rfl
  | release itf => exact (execRelease_keeps _ s).mono rfl
  | unpin itf => exact (execUnpin_keeps _ s).mono rfl
  | scrubLine errs => exact (execScrubLine_keeps _ s).mono rfl
  | bar2Write addr bytes => exact (execBar2Write_keeps _ _ s).mono rfl
  | atomicOp target wide op a b => exact (execAtomicOp_keeps _ _ _ _ _ s).mono rfl
  | lockTimeout addr master => exact (execLockTimeout_keeps _ _ s).mono rfl
  | claimFrameSend => exact (execClaimFrameSend_keeps s).mono rfl
  | claimFrameReceive bytes => exact (execClaimFrameReceive_keeps _ s).mono rfl
  | claimBoundary => exact (execClaimBoundary_keeps s).mono rfl
  | peerStale => exact (execPeerStale_keeps s).mono rfl
  | claimHoldoffEnd => exact (execClaimHoldoffEnd_keeps s).mono rfl
  | linkFrameReceive lane bytes => exact (execLinkFrameReceive_keeps _ _ s).mono rfl
  | linkFrameSend due => exact (execLinkFrameSend_keeps _ s).mono rfl
  | linkRetry => exact (execLinkRetry_keeps s).mono rfl
  | linkAckTimeout => exact (execLinkAckTimeout_keeps s).mono rfl
  | tndLinkDown => exact (execTndLinkDown_keeps s).mono rfl
  | spareCheck errs => exact (execSpareCheck_keeps _ s).mono rfl
  | healthSecond katPassed => exact (execHealthSecond_keeps _ s).mono rfl
  | laneLpEnter itf m v => exact (execLaneLpEnter_keeps _ _ _ s).mono rfl
  | laneLpExit itf m v => exact (execLaneLpExit_keeps _ _ _ s).mono rfl
  | groupLpWrite itf v => exact (execGroupLpWrite_keeps _ _ s).mono rfl
  | laneRestart itf m v => exact (execLaneRestart_keeps _ _ _ s).mono rfl
  | laneTestWrite itf m v => exact (execLaneTestWrite_keeps _ _ _ s).mono rfl
  | lanePllReady m => exact (execLanePllReady_keeps _ s).mono rfl
  | pllFail m => exact (execPllFail_keeps _ s).mono rfl
  | laneCdrLock m rx tx => exact (execLaneCdrLock_keeps _ _ _ s).mono rfl
  | trainDone m => exact (execTrainDone_keeps _ s).mono rfl
  | trainFail m signal => exact (execTrainFail_keeps _ _ s).mono rfl
  | laneAlignLock m rx tx => exact (execLaneAlignLock_keeps _ _ _ s).mono rfl
  | lockLost m cause eye => exact (execLockLost_keeps _ _ _ s).mono rfl
  | eyeGo itf m v => exact (execEyeGo_keeps _ _ _ s).mono rfl
  | eyePointDone m errs => exact (execEyePointDone_keeps _ _ s).mono rfl
  | prbsChkLock m rx => exact (execPrbsChkLock_keeps _ _ s).mono rfl
  | prbsLockLost m errs window => exact (execPrbsLockLost_keeps _ _ _ s).mono rfl
  | prbsInj itf m v => exact (execPrbsInj_keeps _ _ _ s).mono rfl
  | prbsErrRead itf m errs => exact (execPrbsErrRead_keeps _ _ _ s).mono rfl
  | coefficientUpdate m req answered own => exact (execCoefficientUpdate_keeps _ _ _ _ s).mono rfl
  | entropyRetry passed => exact (execEntropyRetry_keeps _ s).mono rfl
  | healthTestFail restarts => exact (execHealthTestFail_keeps _ s).mono rfl
  | generate itf slot => exact (execGenerate_keeps _ _ s).mono rfl
  | load itf slot => exact (execLoad_keeps _ _ s).mono rfl
  | erase itf slot => exact (execErase_keeps _ _ s).mono rfl
  | attest itf slot => exact (execAttest_keeps _ _ s).mono rfl
  | disarm itf loops => exact (execDisarm_keeps _ _ s).mono rfl
  | zeroise itf burn => exact (execZeroise_keeps _ _ s).mono rfl
  | nonceRead itf => exact (execNonceRead_keeps _ s).mono rfl
  | tampArmWrite itf v intact => exact (execTampArmWrite_keeps _ _ _ s).mono rfl
  | tamper hit => exact (execTamper_keeps _ s).mono rfl
  | burnDone => exact (execBurnDone_keeps s).mono rfl
  | burnIncomplete => exact (execBurnIncomplete_keeps s).mono rfl
  | coreDeparture => exact (execCoreDeparture_keeps s).mono rfl
  | coreDepartureDecided glitch => exact (execCoreDepartureDecided_keeps _ s).mono rfl
  | vbatLoss cellLost => exact (execVbatLoss_keeps _ s).mono rfl
  | dmaEnable itf c => exact (execDmaEnable_keeps _ _ s).mono rfl
  | dmaDisable itf c => exact (execDmaDisable_keeps _ _ s).mono rfl
  | dmaStopped c => exact (execDmaStopped_keeps _ s).mono rfl
  | dmaDoorbell itf c => exact (execDmaDoorbell_keeps _ _ s).mono rfl
  | dmaDescFetched c desc => exact (execDmaDescFetched_keeps _ _ s).mono rfl
  | dmaTransferDone c src err => exact (execDmaTransferDone_keeps _ _ _ s).mono rfl
  | dmaLinkRead c next => exact (execDmaLinkRead_keeps _ _ s).mono rfl
  | prfCounterRead itf ix => exact (execPrfCounterRead_keeps _ _ s).mono rfl
  | tallyCapture step => exact (execTallyCapture_keeps _ s).mono rfl
  | dumpWritten ok => exact (execDumpWritten_keeps _ s).mono rfl
  | dumpCtlWrite itf v => exact (execDumpCtlWrite_keeps _ _ s).mono rfl
  | completionTimeout r => exact (execCompletionTimeout_keeps _ s).mono rfl
  | pcieLinkReset e => exact (execPcieLinkReset_keeps _ s).mono rfl
  | flrComplete => exact (execFlrComplete_keeps s).mono rfl
  | msixUnmask w => exact (execMsixUnmask_keeps _ s).mono rfl
  | watchRound => exact (execWatchRound_keeps s).mono rfl
  | fltBresetWrite itf v => exact (execFltBresetWrite_keeps _ _ s).mono rfl
  | fltCresetWrite itf v => exact (execFltCresetWrite_keeps _ _ s).mono rfl
  | fltSafeReqWrite itf v => exact (execFltSafeReqWrite_keeps _ _ s).mono rfl
  | pairCheck run => exact (execPairCheck_keeps _ s).mono rfl
  | maskWindowEnd b => exact (execMaskWindowEnd_keeps _ s).mono rfl
  | recordClear itf worst => exact (execRecordClear_keeps _ _ s).mono rfl
  | irqStatWrite itf b v => exact (execIrqStatWrite_keeps _ _ _ s).mono rfl
  | i2cWrite bytes => exact (execI2cWrite_keeps _ s).mono rfl
  | i2cRead bytes => exact (execI2cRead_keeps _ s).mono rfl
  | macCounterRead itf p c => exact (execMacCounterRead_keeps _ _ _ s).mono rfl
  | statusBankRead itf off => exact (execStatusBankRead_keeps _ _ s).mono rfl
  | powerOnReset mainLost => exact (execPowerOnReset_keeps _ s).mono rfl
  | resetRelease away boot unitB compat testN => exact (execResetRelease_keeps _ _ _ _ _ s).mono rfl
  | keysPhase healthOk bad => exact (execKeysPhase_keeps _ _ s).mono rfl
  | imageFetched prim sec => exact (execImageFetched_keeps _ _ s).mono rfl
  | loadStart itf => exact (execLoadStart_keeps _ s).mono rfl
  | loadData itf v => exact (execLoadData_keeps _ _ s).mono rfl
  | loadGo itf => exact (execLoadGo_keeps _ s).mono rfl
  | imageVerified => exact (execImageVerified_keeps s).mono rfl
  | structChecked => exact (execStructChecked_keeps s).mono rfl
  | domainsUp failed => exact (execDomainsUp_keeps _ s).mono rfl
  | enterRun ms => exact (execEnterRun_keeps _ s).mono rfl
  | keepCopy => exact (execKeepCopy_keeps s).mono rfl
  | fuse itf req => exact (execFuse_keeps _ _ s).mono rfl
  | setRequire itf => exact (execSetRequire_keeps _ s).mono rfl
  | ownerBurnDone missed => exact (execOwnerBurnDone_keeps _ s).mono rfl
  | domReqWrite itf v => exact (execDomReqWrite_keeps _ _ s).mono rfl
  | domainSwitched => exact (execDomainSwitched_keeps s).mono rfl
  | rampFail => exact (execRampFail_keeps s).mono rfl
  | railFault rail => exact (execRailFault_keeps _ s).mono rfl
  | brownOut => exact (execBrownOut_keeps s).mono rfl

theorem exec_pending (c : Instr) (s t : State) (h : exec c s = .next t) : t.pending = s.pending := (exec_keeps c s t h).same .pending (by decide)

/-- Settles O6: a spine tick and every command answer a next state and leave the queue as they find it, which is its rest where a command ran. -/
theorem everyStepAnswersAndTakesOneCommand : Obligations.EveryStepAnswersAndTakesOneCommand := by
  unfold Obligations.EveryStepAnswersAndTakesOneCommand
  intro s
  cases h : s.pending with
  | nil => exact ⟨spineTick s, step_of_idle h, (spineTick_pending s).trans h⟩
  | cons c r =>
    obtain ⟨t, ht⟩ := exec_isNext c { s with pending := r }
    exact ⟨t, (stepRunsTheCommandInFront c r s h).trans ht, exec_pending c _ t ht⟩

end Sys2Proof.Machine

/-! SUPPORT. Proofs for 01_architecture.md, part 2: accesses to registers that are absent or that no offset names. -/
namespace Sys2Proof.Machine

/-! ### What an access finds after it has been counted -/

@[simp] theorem State.regTally_running (s : State) (i : Itf) (w : Bool) : (s.regTally i w).running = s.running := by cases i <;> rfl

@[simp] theorem State.regTally_fenceHolds (s : State) (i j : Itf) (w : Bool) (a : Nat) : (s.regTally i w).fenceHolds j a = s.fenceHolds j a := by
  cases i <;> rfl

@[simp] theorem State.regTally_ramping (s : State) (i : Itf) (w : Bool) (a : Nat) : (s.regTally i w).ramping a = s.ramping a := by cases i <;> rfl

@[simp] theorem State.regTally_absent (s : State) (i : Itf) (w : Bool) (a : Nat) : (s.regTally i w).absent a = s.absent a :=
  State.absent_congr (s.regTally_regs i w) a

/-- The part runs, or an access is to CFG: it does not end before RUN (R430). -/
theorem State.not_beforeRun {s : State} {a : Nat} (h : s.running = true ∨ Blk.ofOff a = some .cfg) :
    ¬ ((!s.running) = true ∧ Blk.ofOff a ≠ some .cfg) := by
  rcases h with h | h <;> simp [h]

/-- A host write that nothing holds to an absent register is counted and recorded, and never done (R33). -/
theorem State.reach_absent (s : State) (i : Itf) {a : Nat} (v : Word) (g : State → State) (ho : s.hostOn = true)
    (hr : s.running = true ∨ Blk.ofOff a = some .cfg) (hf : s.fenceHolds i a = false) (hb : s.behind i a true = false)
    (hm : s.ramping a = false) (ha : s.absent a = true) : s.reach i a v g = (s.regTally i true).absentHit a := by
  simp only [State.reach, ho, State.regTally_running, if_neg (State.not_beforeRun hr), State.regTally_fenceHolds, hf, State.regTally_behind, hb,
    State.regTally_ramping, hm, State.regTally_absent, ha, Bool.not_true, Bool.or_self, Bool.false_eq_true, if_false, if_true]

/-- A host read that nothing holds of an absent register is counted and recorded, and answers 0 (R33). -/
theorem State.readBy_absent (s : State) (i : Itf) {a : Nat} (errs : Option Nat) (ho : s.hostOn = true)
    (hr : s.running = true ∨ Blk.ofOff a = some .cfg) (hd : (findReg a).isSome = true) (hb : s.behind i a false = false)
    (hm : s.ramping a = false) (ha : s.absent a = true) :
    s.readBy i a errs = ((s.regTally i false).absentHit a).answer i a 0 := by
  have hd : (findReg a).isNone = false := by rw [← Option.not_isSome, hd]; rfl
  simp only [State.readBy, State.readAt, ho, if_neg (State.not_beforeRun hr), hd, State.regTally_behind, hb, State.regTally_ramping, hm,
    State.regTally_absent, ha, Bool.not_true, Bool.false_eq_true, if_false, if_true]

/-! ### What is recorded -/

theorem State.raise_sent (s : State) (f : FaultId) (ctx : Nat) : (s.raise f ctx).sent f ctx :=
  List.mem_append_right _ (List.mem_singleton_self _)

/-- An interrupt follows a message, which waits at the collector still. -/
theorem State.irq_sent {s : State} {f : FaultId} {ctx : Nat} (h : s.sent f ctx) (b : Blk) (i : Nat) : (s.irq b i).sent f ctx := by
  unfold State.sent
  rw [State.irq_faults]
  exact h

theorem State.answer_sent {s : State} {f : FaultId} {ctx : Nat} (h : s.sent f ctx) (i : Itf) (a : Nat) (v : Word) : (s.answer i a v).sent f ctx := by
  unfold State.sent
  rw [State.answer_faults]
  exact h

theorem State.absentHit_sent (s : State) (a : Nat) : (s.absentHit a).sent Flt.cfgAbsent a := State.irq_sent (s.raise_sent _ a) .cfg 3

theorem State.absentHit_irq (s : State) (a : Nat) (h : s.regsWf) : (s.absentHit a).b Blk.cfg.irqOff 3 = true :=
  (s.raise Flt.cfgAbsent a).irq_bit .cfg 3 h (by decide)

theorem State.absentHit_only (s : State) (a : Nat) : OnlyRegs [Blk.cfg.irqOff] s (s.absentHit a) :=
  OnlyRegs.irq (OnlyRegs.of_regs (OnlyRegs.refl _ s) (s.raise_regs _ _)) .cfg 3 (List.mem_singleton_self _)

theorem State.answer_readOf (s : State) (i : Itf) (a : Nat) (v : Word) : (s.answer i a v).readOf i = some { value := v.setWidth 64 } := by
  cases i <;> rfl

/-- Registers that a write changes after an access has been counted. -/
theorem OnlyRegs.counted {l : List Nat} {s t : State} {i : Itf} {w : Bool} (h : OnlyRegs l (s.regTally i w) t) : OnlyRegs l s t :=
  fun a ha => (h a ha).trans (s.regTally_rd i w a)

/-- ABSENT_ACCESS as a write. -/
theorem absentAccess_write (i : Itf) (off : Nat) (v : Word) (s : State) (hinv : s.inv = true) (ho : s.hostOn = true)
    (hr : s.running = true ∨ Blk.ofOff off = some .cfg) (hd : (findReg off).isSome = true) (ha : s.absent off = true)
    (hm : s.ramping off = false) (hf : s.fenceHolds i off = false) (hb : s.behind i off true = false) :
    Nexts (exec (.absentAccess i off (some v)) s) fun t =>
      Flt.cfgAbsent.sev = 1
      ∧ t.sent Flt.cfgAbsent off
      ∧ t.b Blk.cfg.irqOff 3 = true
      ∧ t.readOf .pcie = s.readOf .pcie ∧ t.readOf .i2c = s.readOf .i2c
      ∧ OnlyRegs [Blk.cfg.irqOff] s t
      ∧ Frame [.regs, .faults, .pba, .tally, .out] s t := by
  obtain ⟨d, hd⟩ := Option.isSome_iff_exists.mp hd
  have e : exec (.absentAccess i off (some v)) s = .next ((s.regTally i true).absentHit off) := by
    show Host.Outcome.next (s.hostStore i off v) = _
    simp only [State.hostStore, hd, State.reach_absent s i v _ ho hr hf hb hm ha]
  have hk := ((s.regTally i true).absentHit_keeps off).counted
  exact ⟨_, e, rfl, State.absentHit_sent _ off, State.absentHit_irq _ off (s.regTally_regsWf i true (State.inv_regsWf hinv)),
    hk.same .rdP (by decide), hk.same .rdI (by decide), (State.absentHit_only _ off).counted, hk.frame (fun c => by cases c <;> decide)⟩

/-- ABSENT_ACCESS as a read. -/
theorem absentAccess_read (i : Itf) (off : Nat) (s : State) (hinv : s.inv = true) (ho : s.hostOn = true)
    (hr : s.running = true ∨ Blk.ofOff off = some .cfg) (hd : (findReg off).isSome = true) (ha : s.absent off = true)
    (hm : s.ramping off = false) (hb : s.behind i off false = false) :
    Nexts (exec (.absentAccess i off none) s) fun t =>
      Flt.cfgAbsent.sev = 1
      ∧ t.sent Flt.cfgAbsent off
      ∧ t.b Blk.cfg.irqOff 3 = true
      ∧ t.readOf i = some { value := 0 }
      ∧ OnlyRegs [Blk.cfg.irqOff] s t
      ∧ Frame [.regs, .rdP, .rdI, .faults, .pba, .tally, .out] s t := by
  have e : exec (.absentAccess i off none) s = .next (((s.regTally i false).absentHit off).answer i off 0) :=
    congrArg Host.Outcome.next (State.readBy_absent s i none ho hr hd hb hm ha)
  have hk := (Keeps.step (State.answer_keeps _ i off 0) (m := 2542620639233 ||| 2199023255744) rfl
    (Keeps.step ((s.regTally i false).absentHit_keeps off) rfl (Keeps.refl _ _))).counted
  have hirq := State.absentHit_irq _ off (s.regTally_regsWf i false (State.inv_regsWf hinv))
  refine ⟨_, e, rfl, State.answer_sent (State.absentHit_sent _ off) i off 0, ?_, State.answer_readOf _ i off 0, ?_,
    hk.frame (fun c => by cases c <;> decide)⟩
  · unfold State.b State.rd at hirq ⊢
    rwa [State.answer_regs]
  · exact OnlyRegs.of_regs (State.absentHit_only _ off).counted (State.answer_regs _ i off 0)

/-! ### A decode miss (R393) -/

theorem State.rd64_wr64_same (s : State) (o : Nat) {v : Nat} (h : s.regsWf) (hv : v < 2 ^ 64) : (s.wr64 o v).rd64 o = v := by
  have hlo : (s.wr64 o v).rd o = BitVec.ofNat 32 v := by
    unfold State.wr64
    rw [State.rd_wr_ne _ _ _ _ (by omega), State.rd_wr_same _ _ _ h]
  have hhi : (s.wr64 o v).rd (o + 4) = BitVec.ofNat 32 (v / 2 ^ 32) := State.rd_wr_same _ _ _ (s.wr_regsWf o _ h)
  simp only [State.rd64, hlo, hhi, BitVec.toNat_ofNat]
  omega

/-- Registers that are the same words hold the same pair. -/
theorem State.rd64_congr {s t : State} {o : Nat} (hlo : t.rd o = s.rd o) (hhi : t.rd (o + 4) = s.rd (o + 4)) : t.rd64 o = s.rd64 o := by
  simp only [State.rd64, hlo, hhi]

/-- The record of a decode error: address and kind in MTX_ERR, the message, the interrupt. -/
theorem State.mtxErr_decode (s : State) (m a : Nat) :
    s.mtxErr 1 m a = (((s.wr64 0x00300030 a).wrN 0x00300038 (m * 2 ^ 28 + 1 * 2 ^ 24)).raise Flt.mtxDecode (m * 2 ^ 28 + a % 2 ^ 28)).irq .mtx 0 := rfl

theorem State.mtxErr_decode_sent (s : State) (m : Nat) {a : Nat} (h : a < 2 ^ 28) : (s.mtxErr 1 m a).sent Flt.mtxDecode (m * 2 ^ 28 + a) := by
  rw [State.mtxErr_decode, Nat.mod_eq_of_lt h]
  exact State.irq_sent (State.raise_sent _ _ _) .mtx 0

theorem State.mtxErr_decode_irq (s : State) (m a : Nat) (h : s.regsWf) : (s.mtxErr 1 m a).b Blk.mtx.irqOff 0 = true := by
  rw [State.mtxErr_decode]
  refine State.irq_bit _ .mtx 0 ?_ (by decide)
  unfold State.regsWf
  rw [State.raise_regs]
  exact State.wrN_regsWf _ _ _ (s.wr64_regsWf _ a h)

theorem State.raise_rd (s : State) (f : FaultId) (ctx o : Nat) : (s.raise f ctx).rd o = s.rd o := rfl

theorem State.mtxErr_decode_rd (s : State) (m a : Nat) {o : Nat} (h : o ≠ 0x00300038) (h' : o ≠ Blk.mtx.irqOff) :
    (s.mtxErr 1 m a).rd o = (s.wr64 0x00300030 a).rd o := by
  rw [State.mtxErr_decode, State.irq_rd_ne _ _ _ _ h'.symm, State.raise_rd]
  exact State.rd_wr_ne _ _ _ _ h.symm

theorem State.mtxErr_decode_addr (s : State) (m : Nat) {a : Nat} (h : s.regsWf) (ha : a < 2 ^ 64) : (s.mtxErr 1 m a).rd64 0x00300030 = a := by
  rw [State.rd64_congr (s.mtxErr_decode_rd m a (by decide) (by decide)) (s.mtxErr_decode_rd m a (by decide) (by decide)),
    State.rd64_wr64_same _ _ h ha]

theorem State.mtxErr_decode_only (s : State) (m a : Nat) :
    OnlyRegs [0x00300030, 0x00300034, 0x00300038, Blk.mtx.irqOff] s (s.mtxErr 1 m a) := by
  have h := (((OnlyRegs.refl [0x00300030, 0x00300034, 0x00300038, Blk.mtx.irqOff] s).wr 0x00300030 (BitVec.ofNat 32 a) (by simp)).wr 0x00300034
    (BitVec.ofNat 32 (a / 2 ^ 32)) (by simp)).wr 0x00300038 (BitVec.ofNat 32 (m * 2 ^ 28 + 1 * 2 ^ 24)) (by simp)
  exact OnlyRegs.irq (h.of_regs (State.raise_regs _ _ _)) .mtx 0 (by simp)

theorem State.missWrite_decode {s : State} {i : Itf} {a : Nat} (hr : s.running = true ∨ Blk.ofOff a = some .cfg) :
    s.missWrite i a = s.mtxErr 1 (if i = .pcie then 0 else 5) a := by
  have h := State.not_beforeRun hr
  cases i with
  | pcie => exact if_neg h
  | i2c => exact if_neg h

/-- DECODE_MISS as a write. -/
theorem decodeMiss_write (i : Itf) (off : Nat) (v : Word) (s : State) (hinv : s.inv = true) (ho : s.hostOn = true)
    (hr : s.running = true ∨ Blk.ofOff off = some .cfg) (hd : findReg off = none) (hoff : off < 2 ^ 26) :
    Nexts (exec (.decodeMiss i off (some v)) s) fun t =>
      t.sent Flt.mtxDecode ((if i = .pcie then 0 else 5) * 2 ^ 28 + off)
      ∧ t.b Blk.mtx.irqOff 0 = true
      ∧ t.rd64 0x00300030 = off
      ∧ OnlyRegs [0x00300030, 0x00300034, 0x00300038, Blk.mtx.irqOff] s t
      ∧ Frame [.regs, .faults, .pba, .out] s t := by
  have e : exec (.decodeMiss i off (some v)) s = .next (s.mtxErr 1 (if i = .pcie then 0 else 5) off) := by
    show Host.Outcome.next (s.hostStore i off v) = _
    simp only [State.hostStore, hd, ho, if_true, State.missWrite_decode hr]
  have hwf := State.inv_regsWf hinv
  exact ⟨_, e, s.mtxErr_decode_sent _ (by omega), s.mtxErr_decode_irq _ _ hwf, s.mtxErr_decode_addr _ hwf (by omega), s.mtxErr_decode_only _ _,
    (s.mtxErr_keeps 1 _ off).frame (fun c => by cases c <;> decide)⟩

/-! ### Which registers are absent -/

theorem Blk.eq_of_window : ∀ b ∈ Blk.all, ∀ c ∈ Blk.all, b.base / 0x100000 = c.base / 0x100000 → b = c := by decide

theorem Blk.base_mod (b : Blk) : b.base % 0x100000 = 0 := by cases b <;> rfl

/-- The windows of the blocks are disjoint (R461). -/
theorem Blk.ofOff_eq {a : Nat} (b : Blk) (hl : b.base ≤ a) (hu : a < b.base + 0x100000) : Blk.ofOff a = some b := by
  cases h : Blk.ofOff a with
  | none =>
    have := List.find?_eq_none.mp h b b.mem_all
    simp [hl, hu] at this
  | some c =>
    obtain ⟨hcl, hcu⟩ := Blk.ofOff_some h
    have hb := b.base_mod
    have hc := c.base_mod
    rw [Blk.eq_of_window c c.mem_all b b.mem_all (by omega)]

/-- CAP, IRQ_STAT or IRQ_EN of a block, which are never absent. -/
def Blk.common (b : Blk) (a : Nat) : Prop := a - b.base = 0 ∨ a = b.irqOff ∨ a = b.irqOff + 4

theorem Blk.not_common {a : Nat} (b : Blk) (h : b.base + 0x100 ≤ a) : ¬ b.common a := by
  have hi : b.irqOff < b.base + 0x40 := by cases b <;> decide
  unfold Blk.common
  omega

/-- An offset in the window of a block, behind its common registers. -/
theorem Blk.in_window {a : Nat} (b : Blk) (hl : b.base + 0x100 ≤ a) (hu : a < b.base + 0x100000) : Blk.ofOff a = some b ∧ ¬ b.common a :=
  ⟨b.ofOff_eq (by omega) hu, b.not_common hl⟩

/-- An offset inside element `i` of a range of elements, where element `i` fails the test. -/
theorem instFails_of {o base stride n : Nat} {ok : Nat → Bool} (i : Nat) (hi : i < n) (hok : ok i = false) (hl : base + i * stride ≤ o)
    (hu : o < base + i * stride + stride) : instFails o base stride n ok = true := by
  have hn : i * stride + stride ≤ n * stride := by
    rw [← Nat.succ_mul]
    exact Nat.mul_le_mul_right _ hi
  have hd : (o - base) / stride = i := Nat.div_eq_of_lt_le (by omega) (by rw [Nat.succ_mul]; omega)
  have hin : base ≤ o ∧ o < base + stride * n := by rw [Nat.mul_comm stride]; omega
  simp only [instFails, instOf, if_pos hin, hd, hok, Bool.not_false]

section Elements
variable (s : State) {a : Nat}

theorem State.absent_spn (hb : Blk.ofOff a = some .spn) (hc : ¬ Blk.common .spn a) :
    s.absent a = instFails (a - Blk.spn.base) 0x1000 0x100 8 s.tbPresent := by
  unfold Blk.common at hc
  simp only [State.absent, hb, if_neg hc]

theorem State.absent_ref (hb : Blk.ofOff a = some .ref) (hc : ¬ Blk.common .ref a) :
    s.absent a = (instFails (a - Blk.ref.base) 0x1000 0x40 8 (fun n => s.domOn 2 &&
        (List.range 12).any (fun k => s.b 0x01200000 k && decide (k < 8) && decide (s.f (0x01201004 + k * 0x80) 3 0 = n)))
      || instFails (a - Blk.ref.base) 0x2000 0x40 4 (fun m => s.b 0x01100000 (8 + m))) := by
  unfold Blk.common at hc
  simp only [State.absent, hb, if_neg hc]

theorem State.absent_tiu (hb : Blk.ofOff a = some .tiu) (hc : ¬ Blk.common .tiu a) :
    s.absent a = (instFails (a - Blk.tiu.base) 0x1000 0x80 12 (fun k => s.b 0x01200000 k && (decide (8 ≤ k) || s.domOn 2))
      || instFails (a - Blk.tiu.base) 0x3000 0x80 18 (fun m => s.b 0x02000000 m && s.domOn (if m < 16 then 7 else 9))) := by
  unfold Blk.common at hc
  simp only [State.absent, hb, if_neg hc]

theorem State.absent_out (hb : Blk.ofOff a = some .out) (hc : ¬ Blk.common .out a)
    (h : instFails (a - Blk.out.base) 0x1000 0x40 12 (fun k => s.b 0x01700000 k) = true) : s.absent a = true := by
  unfold Blk.common at hc
  simp only [State.absent, hb, if_neg hc, h, Bool.or_true, Bool.true_or]

theorem State.absent_lan (hb : Blk.ofOff a = some .lan) (hc : ¬ Blk.common .lan a) :
    s.absent a = instFails (a - Blk.lan.base) 0x1000 0x100 18 (fun m => s.b 0x02000000 m && s.domOn (if m < 16 then 7 else 9)) := by
  unfold Blk.common at hc
  simp only [State.absent, hb, if_neg hc]

/-- The blocks that lie in one domain: all their registers but the common ones are absent while it is off (R462). -/
theorem State.absent_of_domain_off {b : Blk} {d : Nat}
    (hp : (b, d) ∈ [(Blk.syn, 3), (Blk.out, 3), (Blk.gns, 8), (Blk.mac, 7), (Blk.pkt, 5), (Blk.tnd, 9)]) (hb : Blk.ofOff a = some b)
    (hc : ¬ b.common a) (hd : s.domOn d = false) : s.absent a = true := by
  unfold Blk.common at hc
  simp only [List.mem_cons, Prod.mk.injEq, List.not_mem_nil, or_false] at hp
  rcases hp with ⟨rfl, rfl⟩ | ⟨rfl, rfl⟩ | ⟨rfl, rfl⟩ | ⟨rfl, rfl⟩ | ⟨rfl, rfl⟩ | ⟨rfl, rfl⟩ <;>
    simp only [State.absent, hb, if_neg hc, hd, Bool.not_false, Bool.true_or]

end Elements

/-! ### The elements whose registers are absent -/

section Windows
variable (s : State) (off : Nat)

/-- A time base that the structure does not create. -/
theorem State.absent_timeBase (n : Fin 8) (h : s.tbPresent n.val = false) (hl : tbOff n.val ≤ off) (hu : off < tbOff n.val + 0x100) :
    s.absent off = true := by
  have hn := n.isLt
  have hbase : Blk.spn.base = 0x01000000 := rfl
  simp only [tbOff] at hl hu
  obtain ⟨hb, hc⟩ := Blk.in_window (a := off) .spn (by omega) (by omega)
  rw [s.absent_spn hb hc]
  exact instFails_of n.val hn h (by omega) (by omega)

/-- A unit of TIU-P that is not routed, or whose domain is off. -/
theorem State.absent_tiuP (k : Fin 12) (h : (s.b 0x01200000 k.val && (decide (8 ≤ k.val) || s.domOn 2)) = false) (hl : tiuOff (.p k) ≤ off)
    (hu : off < tiuOff (.p k) + 0x80) : s.absent off = true := by
  have hk := k.isLt
  have hbase : Blk.tiu.base = 0x01200000 := rfl
  simp only [tiuOff] at hl hu
  obtain ⟨hb, hc⟩ := Blk.in_window (a := off) .tiu (by omega) (by omega)
  rw [s.absent_tiu hb hc, Bool.or_eq_true]
  exact .inl (instFails_of k.val hk h (by omega) (by omega))

/-- A REFIN pin that no unit measures, or whose domain is off. -/
theorem State.absent_refin (n : Fin 8)
    (h : (s.domOn 2 && (List.range 12).any (fun k => s.b 0x01200000 k && decide (k < 8) && decide (s.f (0x01201004 + k * 0x80) 3 0 = n.val))) = false)
    (hl : refOff n.val ≤ off) (hu : off < refOff n.val + 0x40) : s.absent off = true := by
  have hn := n.isLt
  have hbase : Blk.ref.base = 0x01100000 := rfl
  simp only [refOff] at hl hu
  obtain ⟨hb, hc⟩ := Blk.in_window (a := off) .ref (by omega) (by omega)
  rw [s.absent_ref hb hc, Bool.or_eq_true]
  exact .inl (instFails_of n.val hn h (by omega) (by omega))

/-- An output that is not mapped. -/
theorem State.absent_output (k : Fin 12) (h : s.b 0x01700000 k.val = false) (hl : 0x01701000 + k.val * 0x40 ≤ off)
    (hu : off < 0x01701000 + k.val * 0x40 + 0x40) : s.absent off = true := by
  have hk := k.isLt
  have hbase : Blk.out.base = 0x01700000 := rfl
  obtain ⟨hb, hc⟩ := Blk.in_window (a := off) .out (by omega) (by omega)
  exact s.absent_out hb hc (instFails_of k.val hk h (by omega) (by omega))

/-- A lane whose domain is off. -/
theorem State.absent_lane (m : Fin 18) (h : s.domOn (if m.val < 16 then 7 else 9) = false) (hl : lanOff m.val ≤ off)
    (hu : off < lanOff m.val + 0x100) : s.absent off = true := by
  have hm := m.isLt
  have hbase : Blk.lan.base = 0x02000000 := rfl
  simp only [lanOff] at hl hu
  obtain ⟨hb, hc⟩ := Blk.in_window (a := off) .lan (by omega) (by omega)
  rw [s.absent_lan hb hc]
  exact instFails_of m.val hm (by rw [h, Bool.and_false]) (by omega) (by omega)

/-- The unit of a lane whose domain is off. -/
theorem State.absent_laneUnit (m : Fin 18) (h : s.domOn (if m.val < 16 then 7 else 9) = false) (hl : tiuOff (.lane m) ≤ off)
    (hu : off < tiuOff (.lane m) + 0x80) : s.absent off = true := by
  have hm := m.isLt
  have hbase : Blk.tiu.base = 0x01200000 := rfl
  simp only [tiuOff] at hl hu
  obtain ⟨hb, hc⟩ := Blk.in_window (a := off) .tiu (by omega) (by omega)
  rw [s.absent_tiu hb hc, Bool.or_eq_true]
  exact .inr (instFails_of m.val hm (by rw [h, Bool.and_false]) (by omega) (by omega))

/-- No routed unit measures the pin. -/
theorem State.no_unit_measures (n : Fin 8) (h : ∀ k : Fin 8, s.b 0x01200000 k.val = true → s.f (0x01201004 + k.val * 0x80) 3 0 ≠ n.val) :
    (List.range 12).any (fun k => s.b 0x01200000 k && decide (k < 8) && decide (s.f (0x01201004 + k * 0x80) 3 0 = n.val)) = false := by
  rw [List.any_eq_false]
  intro k _ hk
  simp only [Bool.and_eq_true, decide_eq_true_eq] at hk
  obtain ⟨⟨hroute, hlt⟩, hpin⟩ := hk
  exact h ⟨k, hlt⟩ hroute hpin

end Windows

/-- Settles O9: the gate before a register discards or answers 0 and records, and each element's window is one that the gate finds absent. -/
theorem absentAccessAnswersZeroOrIsDiscarded : Obligations.AbsentAccessAnswersZeroOrIsDiscarded := by
  unfold Obligations.AbsentAccessAnswersZeroOrIsDiscarded
  refine ⟨?_, ?_, ?_, ?_, ?_, ?_, ?_, ?_, ?_, ?_⟩
  · exact fun i off v s hinv ho hr hd ha hm _ hf hb => absentAccess_write i off v s hinv ho hr hd ha hm hf hb
  · exact absentAccess_read
  · exact decodeMiss_write
  · exact fun n off s h hl hu => s.absent_timeBase off n h hl hu
  · exact fun k off s h hl hu => s.absent_tiuP off k (by rw [h, Bool.false_and]) hl hu
  · exact fun n off s h hl hu => s.absent_refin off n (by rw [s.no_unit_measures n h, Bool.and_false]) hl hu
  · exact fun k off s h hl hu => s.absent_output off k h hl hu
  · rintro ⟨b, d⟩ off s hp hd hb h0 h1 h2
    have hle := (Blk.ofOff_some hb).1
    dsimp only at hle h0 h1 h2
    exact s.absent_of_domain_off hp hb (by unfold Blk.common; omega) hd
  · rintro m off s h (⟨hl, hu⟩ | ⟨hl, hu⟩)
    · exact s.absent_lane off m h hl hu
    · exact s.absent_laneUnit off m h hl hu
  · rintro n off s h (⟨hl, hu⟩ | ⟨hl, hu⟩)
    · exact s.absent_refin off n (by rw [h, Bool.false_and]) hl hu
    · have hn : decide (8 ≤ n.val) = false := decide_eq_false (by omega)
      exact s.absent_tiuP off ⟨n.val, by omega⟩ (by rw [h, hn, Bool.or_false, Bool.and_false]) hl hu

end Sys2Proof.Machine

/-! SUPPORT. Proofs for 01_architecture.md, part 3: fences. -/
namespace Sys2Proof.Machine

/-- The words of the DRAM in error in the state that an outcome answers. -/
def flawsOf (o : Out) : List EccHit :=
  match o with
  | .next t => t.cst.flaws
  | _ => []

/-- The part runs with the store ready, the trace writer on, and a word of the trace ring in error. -/
def flawedRing : State := ((inRun.wrN 0x00100014 0x3FF).wrN 0x02300014 0x80000000).dramFail [⟨0x90000000, false⟩]

/-- What FENCE_OPEN leaves of it: a fence with tag 0x5A over CFG. -/
def fencedRing : State := flawedRing.reach .pcie 0x00000100 0x5A000001 (fun s => s.wFence .pcie 0x5A000001)

theorem fencedRing_of_fenceOpen : exec (.fenceOpen .pcie 0x5A000001) flawedRing = .next fencedRing := rfl

theorem fencedRing_quiet : fencedRing.inv = true ∧ fencedRing.running = true ∧ fencedRing.fence .pcie = some ⟨0x5A, 1, 0, false⟩
    ∧ fencedRing.fenceWaits .pcie 1 = false ∧ fencedRing.faults = [] ∧ fencedRing.flt.split = [] ∧ fencedRing.heldP = [] ∧ fencedRing.heldI = []
    ∧ fencedRing.maskedBits.testBit Blk.cfg.bit = false := by decide +kernel

theorem fencedRing_flaws : fencedRing.cst.flaws = [⟨0x90000000, false⟩] := by decide +kernel

/-- The record of the completion covers the word in error, which has new check bits from then on. -/
theorem fenceComplete_heals : flawsOf (exec (.fenceComplete .pcie) fencedRing) = [] := by decide +kernel

/-- Refutes O17: its clause for a completion leaves the client store out of what may change, but the fence's record (R44) is written to the trace
ring, and a write gives the words that it covers new check bits, so that a word in error there is in error no longer. The state meets the
invariant and is what FENCE_OPEN leaves. -/
theorem not_fenceOpensHoldsAndCompletes : ¬ Obligations.FenceOpensHoldsAndCompletes := by
  unfold Obligations.FenceOpensHoldsAndCompletes
  rintro ⟨-, -, hcomplete, -, -⟩
  obtain ⟨hinv, hrun, hfence, hwaits, hfaults, hsplit, hheldP, hheldI, hmask⟩ := fencedRing_quiet
  obtain ⟨t, ht, -, -, -, -, -, -, hframe, -⟩ := hcomplete .pcie _ fencedRing hinv hrun hfence hwaits hfaults hsplit hheldP hheldI hmask
  have hcst : t.cst = fencedRing.cst := hframe .cst (by decide)
  have hflaws : t.cst.flaws = [] := by
    have h := fenceComplete_heals
    rwa [ht] at h
  rw [hcst, fencedRing_flaws] at hflaws
  exact List.cons_ne_nil _ _ hflaws

end Sys2Proof.Machine

/-! SUPPORT. Proofs for 06_error_bound.md: the trace record of a second. -/
namespace Sys2Proof.Machine

/-- Second 1 of TB0 begins, which is present and traced, with a word of the trace ring in error; the START record stands in the ring already. -/
def secondBegins : State :=
  let s := (flawedRing.wrN 0x01000000 1).modBase 0 (fun b => { b with time := secU })
  { s with trace := { s.trace with started := true } }

/-- What ENSEMBLE_CYCLE leaves of it: the cycle of the second is done, and its record is due (R178). -/
def recordDue : State := secondBegins.ensembleCycle

/-- A cycle for which no command waited is the cycle alone. -/
theorem execEnsembleCycle_of_none_waiting {s t : State} (ht : s.ensembleCycle = t) (hopen : s.cycleDone = false) (htick : t.ens.waitTick = false)
    (hservo : t.ens.waitServo = []) (hsecond : t.trace.waitSecond = false) : execEnsembleCycle s = .next t := by
  have hens : { t.ens with waitTick := false, waitServo := [] } = t.ens := by rw [← htick, ← hservo]
  simp only [execEnsembleCycle, hopen, ht, htick, hservo, hens, List.foldl_nil, hsecond, Bool.false_eq_true, if_false]

theorem secondBegins_open : secondBegins.cycleDone = false := by decide +kernel

theorem recordDue_none_waiting : recordDue.ens.waitTick = false ∧ recordDue.ens.waitServo = [] ∧ recordDue.trace.waitSecond = false := by
  decide +kernel

theorem recordDue_of_ensembleCycle : exec .ensembleCycle secondBegins = .next recordDue := by
  obtain ⟨htick, hservo, hsecond⟩ := recordDue_none_waiting
  exact execEnsembleCycle_of_none_waiting rfl secondBegins_open htick hservo hsecond

theorem recordDue_quiet : recordDue.inv = true ∧ recordDue.trace.sec ≠ recordDue.tbSec 0 ∧ recordDue.cycleDone = true
    ∧ recordDue.traceOn = true ∧ recordDue.trace.started = true ∧ recordDue.trace.subkeyDue = false ∧ recordDue.trace.queue = [] := by
  decide +kernel

theorem recordDue_flaws : recordDue.cst.flaws = [⟨0x90000000, false⟩] := by decide +kernel

/-- The SECOND record covers the word in error, which has new check bits from then on. -/
theorem traceSecond_heals : flawsOf (exec .traceSecond recordDue) = [] := by decide +kernel

/-- Refutes O30: its clause for TRACE_SECOND while the writer runs leaves the client store out of what may change, but the SECOND record (R178) is
written to the trace ring, and a write gives the words that it covers new check bits, so that a word in error there is in error no longer. The
state meets the invariant and is what ENSEMBLE_CYCLE leaves. -/
theorem not_boundsAndMapFollow : ¬ Obligations.BoundsAndMapFollow := by
  unfold Obligations.BoundsAndMapFollow
  rintro ⟨-, -, -, -, -, -, -, hsecond, -, -, -, -⟩
  obtain ⟨hinv, hnew, hcycle, hon, hstarted, hsubkey, hqueue⟩ := recordDue_quiet
  obtain ⟨t, ht, -, -, -, hframe, -⟩ := hsecond recordDue hinv hnew hcycle hon hstarted hsubkey hqueue
  have hcst : t.cst = recordDue.cst := hframe .cst (by decide)
  have hflaws : t.cst.flaws = [] := by
    have h := traceSecond_heals
    rwa [ht] at h
  rw [hcst, recordDue_flaws] at hflaws
  exact List.cons_ne_nil _ _ hflaws

end Sys2Proof.Machine

/-! SUPPORT. Proofs for 07_synthesis_and_outputs.md, part 1: the states of a synthesizer. -/
namespace Sys2Proof

/-- The field of all bits is the word. -/
theorem Word.field_full (w : Word) : w.field 31 0 = w.toNat := by
  have hlt := w.isLt
  simp only [Word.field, Nat.reduceAdd, Nat.sub_zero]
  omega

theorem Word.setField_full (w : Word) (v : Nat) : w.setField 31 0 v = BitVec.ofNat 32 v := by
  have hfull : (w.setField 31 0 v).toNat = v % 2 ^ 32 := (Word.field_full _).symm.trans (Word.field_setField_same w 31 0 v (by decide) (by decide))
  exact BitVec.eq_of_toNat_eq (hfull.trans (BitVec.toNat_ofNat v 32).symm)

namespace Machine

/-! ### The registers below OUT -/

/-- From `s` to `t` every register below the base of OUT holds what it held. The registers of SYN are among these; those of OUT and the health word,
which the outputs of a synthesizer bring with them, are not. -/
def BelowOut (s t : State) : Prop := ∀ a, a < 0x01700000 → t.rd a = s.rd a

theorem State.rd_congr {s t : State} (h : t.regs = s.regs) (a : Nat) : t.rd a = s.rd a := by
  unfold State.rd
  rw [h]

theorem BelowOut.of_regs {s t : State} (h : t.regs = s.regs) : BelowOut s t := fun a _ => State.rd_congr h a

theorem BelowOut.trans {s t u : State} (h : BelowOut s t) (k : BelowOut t u) : BelowOut s u := fun a ha => (k a ha).trans (h a ha)

theorem BelowOut.wr {s t : State} (h : BelowOut s t) {o : Nat} (v : Word) (ho : 0x01700000 ≤ o) : BelowOut s (t.wr o v) :=
  h.trans fun a ha => t.rd_wr_ne o a v (Nat.ne_of_gt (Nat.lt_of_lt_of_le ha ho))

theorem BelowOut.setB {s t : State} (h : BelowOut s t) {o : Nat} (i : Nat) (v : Bool) (ho : 0x01700000 ≤ o) : BelowOut s (t.setB o i v) := h.wr _ ho

theorem BelowOut.raise {s t : State} (h : BelowOut s t) (f : FaultId) (ctx : Nat) : BelowOut s (t.raise f ctx) := h.trans (.of_regs rfl)

theorem BelowOut.irq {s t : State} (h : BelowOut s t) {b : Blk} (i : Nat) (hb : 0x01700000 ≤ b.irqOff) : BelowOut s (t.irq b i) :=
  h.trans fun a ha => t.irq_rd_ne b i a (Nat.ne_of_gt (Nat.lt_of_lt_of_le ha hb))

theorem BelowOut.ite {s t u : State} {c : Prop} [Decidable c] (h : BelowOut s t) (k : BelowOut s u) : BelowOut s (if c then t else u) := by
  split
  · exact h
  · exact k

theorem BelowOut.foldl {α : Type} {g : State → α → State} (hg : ∀ s x, BelowOut s (g s x)) (l : List α) (s : State) :
    BelowOut s (l.foldl g s) := by
  induction l generalizing s with
  | nil => exact .of_regs rfl
  | cons x r ih => exact (hg s x).trans (ih (g s x))

/-- Every register of an output lies above the base of OUT. -/
theorem outReg_ge (j o : Nat) : 0x01700000 ≤ outOff j + o := by
  unfold outOff
  omega

theorem State.setWaves_belowOut (s : State) (j : Nat) (ws : List Wave) : BelowOut s (s.setWaves j ws) := .of_regs rfl

theorem State.guardCount_belowOut (s : State) (j n runs : Nat) : BelowOut s (s.guardCount j n runs) :=
  (BelowOut.wr (.of_regs rfl) _ (outReg_ge j 0x24)).trans
    (BelowOut.foldl (fun s _ => ((BelowOut.of_regs (s := s) rfl).raise Flt.outGuard j).irq 2 (by decide)) _ _)

theorem State.guarded_belowOut (s : State) (j : Nat) (ws : List Wave) : BelowOut s (s.guarded j ws) :=
  BelowOut.ite ((s.guardCount_belowOut j 1 1).trans (State.setWaves_belowOut _ _ _)) (s.setWaves_belowOut _ _)

/-- However output j is driven from now on, the registers that change are its own STAT and those of its guard. -/
theorem State.drive_belowOut (s : State) (j st : Nat) : BelowOut s (s.drive j st) := by
  have hstat (v : Nat) : BelowOut s (s.setF (outOff j + 4) 3 2 v) := BelowOut.wr (.of_regs rfl) _ (outReg_ge j 4)
  have hset (v : Nat) (ws : List Wave) : BelowOut s ((s.setF (outOff j + 4) 3 2 v).setWaves j ws) := (hstat v).trans (State.setWaves_belowOut _ _ _)
  have hguard (v : Nat) (ws : List Wave) : BelowOut s ((s.setF (outOff j + 4) 3 2 v).guarded j ws) := (hstat v).trans (State.guarded_belowOut _ _ _)
  -- held low; its synthesizer, which drives it or settles; the fallback path
  exact .ite (.ite (hset _ _) (hset _ _)) (.ite (.ite (.ite (hset _ _) (hguard _ _)) (hset _ _)) (.ite (hset _ _) (hguard _ _)))

theorem State.healthBit_belowOut (s : State) (bit : Nat) : BelowOut s (s.healthBit bit) := by
  have hfailed (n : Nat) : BelowOut s { s with tnd := { s.tnd with failed := n } } := .of_regs rfl
  exact .ite (.of_regs rfl) (.ite ((((hfailed _).setB bit false (by decide)).raise _ bit).irq 3 (by decide)) (hfailed _))

theorem State.healthFall_belowOut (s : State) : BelowOut s s.healthFall :=
  .ite (BelowOut.wr (BelowOut.foldl State.healthBit_belowOut _ s) _ (by decide)) (.of_regs rfl)

theorem State.guards_belowOut (s : State) (k : Nat) (edges : List (Fin 12 × List Nat)) : BelowOut s (s.guards k edges) :=
  BelowOut.foldl (fun t _ => .ite (t.guardCount_belowOut _ _ _) (.of_regs rfl)) edges s

/-! ### The registers of a synthesizer -/

theorem State.f_congr {s t : State} {a : Nat} (h : t.rd a = s.rd a) (hi lo : Nat) : t.f a hi lo = s.f a hi lo := by
  unfold State.f
  rw [h]

theorem State.b_congr {s t : State} {a : Nat} (h : t.rd a = s.rd a) (i : Nat) : t.b a i = s.b a i := by
  unfold State.b
  rw [h]

theorem State.inv_wf {s : State} (h : s.inv = true) : s.wf = true := (s.inv_iff.mp h).1

/-- A count of all bits goes up by one. -/
theorem State.count_rd_same {s : State} (o : Nat) (h : s.regsWf) : (s.count o 31 0 1).rd o = s.rd o + 1 := by
  unfold State.count State.setF State.f
  rw [State.rd_wr_same _ _ _ h, Word.setField_full, Word.field_full, BitVec.ofNat_add, BitVec.ofNat_toNat, BitVec.setWidth_eq]
  rfl

theorem State.wf_live {s : State} (h : s.wf = true) : mapWf resetWord s.live = true := by
  simp only [State.wf, Bool.and_eq_true] at h
  obtain ⟨⟨⟨⟨⟨⟨⟨-, hlive⟩, -⟩, -⟩, -⟩, -⟩, -⟩, -⟩ := h
  exact hlive

theorem State.lv_setLv_same {s : State} (h : s.wf = true) (a : Nat) (v : Word) : (s.setLv a v).lv a = v :=
  mapGet_mapSet_same resetWord s.live a v (State.wf_live h)

theorem synReg_lt {k o : Nat} (hk : k < 4) (ho : o < 0x100) : synOff k + o < 0x01700000 := by
  unfold synOff
  omega

theorem synIrq_ne (k o : Nat) : Blk.syn.irqOff ≠ synOff k + o := by
  have h : Blk.syn.irqOff = 0x01600020 := rfl
  rw [h]
  unfold synOff
  omega

/-- The guards leave every register of SYNk as it was. -/
theorem State.guards_rd (s : State) {k o : Nat} (edges : List (Fin 12 × List Nat)) (hk : k < 4) (ho : o < 0x100) :
    (s.guards k edges).rd (synOff k + o) = s.rd (synOff k + o) := s.guards_belowOut k edges _ (synReg_lt hk ho)

theorem State.guards_stat (s : State) {k : Nat} (edges : List (Fin 12 × List Nat)) (hk : k < 4) (hi lo : Nat) :
    (s.guards k edges).f (synOff k + 4) hi lo = s.f (synOff k + 4) hi lo := State.f_congr (s.guards_rd edges hk (by decide)) hi lo

theorem State.guards_wf {s : State} (k : Nat) (edges : List (Fin 12 × List Nat)) (h : s.wf = true) : (s.guards k edges).wf = true :=
  (s.guards_keeps k edges).wf h

theorem State.guards_lv (s : State) (k : Nat) (edges : List (Fin 12 × List Nat)) (a : Nat) : (s.guards k edges).lv a = s.lv a := by
  have h : (s.guards k edges).live = s.live := (s.guards_keeps k edges).same .live rfl
  unfold State.lv
  rw [h]

/-- Of the registers below OUT the entry into a state changes that of the state alone. -/
theorem State.synEnter_rd (s : State) (k st : Nat) {a : Nat} (ha : a < 0x01700000) : (s.synEnter k st).rd a = (s.setSynState k st).rd a := by
  have hfreeze : (if synDrives st then s else s.freezeOuts k).regs = s.regs := by
    split
    · rfl
    · exact (s.freezeOuts_keeps k).same .regs rfl
  have hstate : ((if synDrives st then s else s.freezeOuts k).setSynState k st).regs = (s.setSynState k st).regs := by
    simp only [State.setSynState, State.setF, State.wr, State.rd_congr hfreeze, hfreeze]
  unfold State.synEnter State.forMapped
  dsimp only
  rw [State.healthFall_belowOut _ a ha, BelowOut.foldl (fun s j => s.drive_belowOut j st) _ _ a ha]
  exact State.rd_congr hstate a

theorem State.synEnter_rd_ne (s : State) (k st : Nat) {a : Nat} (ha : a < 0x01700000) (hne : synOff k + 4 ≠ a) : (s.synEnter k st).rd a = s.rd a := by
  rw [State.synEnter_rd s k st ha]
  exact s.rd_setF_ne _ _ _ _ _ hne

theorem State.synEnter_synState {s : State} {k st : Nat} (h : s.wf = true) (hk : k < 4) (hst : st < 16) : (s.synEnter k st).synState k = st := by
  unfold State.synState
  rw [State.f_congr (s.synEnter_rd k st (synReg_lt hk (by decide)))]
  exact (s.f_setF_same _ 31 28 st (State.wf_regs h) (by decide) (by decide)).trans (Nat.mod_eq_of_lt hst)

/-- The other fields of STAT are as they were. -/
theorem State.synEnter_stat {s : State} {k : Nat} (st : Nat) (h : s.wf = true) (hk : k < 4) {hi : Nat} (lo : Nat) (hhi : hi < 28) :
    (s.synEnter k st).f (synOff k + 4) hi lo = s.f (synOff k + 4) hi lo := by
  rw [State.f_congr (s.synEnter_rd k st (synReg_lt hk (by decide)))]
  exact s.f_setF_disj _ 31 28 st hi lo (State.wf_regs h) (by decide) (by decide) (.inr hhi)

theorem State.synEnter_wf {s : State} (k st : Nat) (h : s.wf = true) : (s.synEnter k st).wf = true := (s.synEnter_keeps k st).wf h

/-- Of the registers below OUT, ALIGNED is a bit of STAT. -/
theorem State.synAligned_rd (s : State) (k : Nat) (v : Bool) {a : Nat} (ha : a < 0x01700000) :
    (s.synAligned k v).rd a = (s.setB (synOff k + 4) 27 v).rd a :=
  BelowOut.foldl (fun _ j => BelowOut.wr (.of_regs rfl) _ (outReg_ge j 4)) _ _ a ha

theorem State.synAligned_aligned {s : State} {k : Nat} (v : Bool) (h : s.wf = true) (hk : k < 4) : (s.synAligned k v).b (synOff k + 4) 27 = v := by
  rw [State.b_congr (s.synAligned_rd k v (synReg_lt hk (by decide)))]
  exact s.b_setB_same _ 27 v (State.wf_regs h) (by decide)

theorem State.synAligned_stat {s : State} {k : Nat} (v : Bool) (h : s.wf = true) (hk : k < 4) {hi lo : Nat} (hd : 27 < lo ∨ hi < 27) :
    (s.synAligned k v).f (synOff k + 4) hi lo = s.f (synOff k + 4) hi lo := by
  rw [State.f_congr (s.synAligned_rd k v (synReg_lt hk (by decide)))]
  exact s.f_setF_disj _ 27 27 _ hi lo (State.wf_regs h) (by decide) (by decide) hd

theorem State.synAligned_rd_ne (s : State) (k : Nat) (v : Bool) {a : Nat} (ha : a < 0x01700000) (hne : synOff k + 4 ≠ a) :
    (s.synAligned k v).rd a = s.rd a := by
  rw [State.synAligned_rd s k v ha]
  exact s.rd_setB_ne _ _ _ _ hne

theorem State.synAligned_wf {s : State} (k : Nat) (v : Bool) (h : s.wf = true) : (s.synAligned k v).wf = true := (s.synAligned_keeps k v).wf h

/-- A message with its interrupt in SYN leaves the STAT of every synthesizer. -/
theorem State.synReport_stat (s : State) (f : FaultId) (ctx i k hi lo : Nat) :
    ((s.raise f ctx).irq .syn i).f (synOff k + 4) hi lo = s.f (synOff k + 4) hi lo :=
  (State.irq_f_ne _ .syn i _ hi lo (synIrq_ne k 4)).trans (State.f_congr (s.raise_rd f ctx _) hi lo)

theorem State.synReport_sent (s : State) (f : FaultId) (ctx i : Nat) : ((s.raise f ctx).irq .syn i).sent f ctx :=
  State.irq_sent (s.raise_sent f ctx) .syn i

theorem State.synReport_syn (s : State) (f : FaultId) (ctx i k : Nat) : ((s.raise f ctx).irq .syn i).syn k = s.syn k := by
  unfold State.syn
  rw [State.irq_syns, State.raise_syns]

/-! ### The record of a synthesizer -/

theorem State.syn_modSyn_same {s : State} {k : Nat} (h : Shape s) (hk : k < 4) (g : Syn → Syn) : (s.modSyn k g).syn k = g (s.syn k) :=
  listMod_getD s.syns k g {} (h.syns ▸ hk)

/-- A change of an entry that leaves a part of each leaves that part of all. -/
theorem listMod_getD_part {α β : Type} (p : α → β) {g : α → α} (hg : ∀ x, p (g x) = p x) (l : List α) (n m : Nat) (d : α) :
    p ((listMod l n g).getD m d) = p (l.getD m d) := by
  induction l generalizing n m with
  | nil => rfl
  | cons x r ih =>
    cases n with
    | zero => cases m <;> simp [listMod, hg]
    | succ n =>
      cases m with
      | zero => rfl
      | succ m => exact ih n m

/-- The entry into a state leaves the ramp. -/
theorem State.synEnter_ramp (s : State) (k st : Nat) : ((s.synEnter k st).syn k).ramp = (s.syn k).ramp := by
  have hfreeze : (if synDrives st then s else s.freezeOuts k).syns = s.syns := by
    split
    · rfl
    · exact (s.freezeOuts_keeps k).same .syns rfl
  have hdrive (t : State) : (t.forMapped k (fun s j => s.drive j st)).syns = t.syns :=
    (Keeps.foldl _ _ (.refl 2542620901377 t) (fun x j h => Keeps.step (x.drive_keeps j st) rfl h)).same .syns rfl
  have hfall (t : State) : t.healthFall.syns = t.syns := t.healthFall_keeps.same .syns rfl
  unfold State.synEnter
  dsimp only
  rw [State.syn, hfall, hdrive]
  refine (listMod_getD_part Syn.ramp (fun y => ?_) _ k k {}).trans ?_
  · split
    · rfl
    · split <;> rfl
  · rw [State.setSynState, State.setF_syns, hfreeze]
    rfl

/-! ### Searching (R188) -/

theorem State.synRetry_of_more {s : State} {k : Nat} (h : s.f (synOff k + 4) 1 0 ≠ 2) :
    s.synRetry k = (s.count (synOff k + 4) 1 0 1).synEnter k synSEARCH := if_neg h

theorem State.synRetry_of_last {s : State} {k : Nat} (h : s.f (synOff k + 4) 1 0 = 2) :
    s.synRetry k = ((s.synEnter k synFAIL).raise Flt.synLockFail (k * 2 ^ 28)).irq .syn 4 := if_pos h

/-- A further attempt is a search, and is counted. -/
theorem State.synRetry_again {s : State} {k : Nat} (hwf : s.wf = true) (hk : k < 4) (h : s.f (synOff k + 4) 1 0 ≠ 2) :
    (s.synRetry k).synState k = synSEARCH ∧ (s.synRetry k).f (synOff k + 4) 1 0 = (s.f (synOff k + 4) 1 0 + 1) % 4 := by
  have hc : (s.count (synOff k + 4) 1 0 1).wf = true := (s.count_keeps _ _ _ _).wf hwf
  rw [State.synRetry_of_more h]
  refine ⟨State.synEnter_synState hc hk (by decide), ?_⟩
  rw [State.synEnter_stat _ hc hk 0 (by decide)]
  exact s.f_setF_same _ 1 0 _ (State.wf_regs hwf) (by decide) (by decide)

/-- So it is after the guards have counted. -/
theorem State.guards_synRetry_again {s : State} {k : Nat} (edges : List (Fin 12 × List Nat)) (hwf : s.wf = true) (hk : k < 4)
    (h : s.f (synOff k + 4) 1 0 ≠ 2) : ((s.guards k edges).synRetry k).synState k = synSEARCH
      ∧ ((s.guards k edges).synRetry k).f (synOff k + 4) 1 0 = (s.f (synOff k + 4) 1 0 + 1) % 4 := by
  have hstat := s.guards_stat edges hk 1 0
  rw [← hstat] at h ⊢
  exact State.synRetry_again (State.guards_wf k edges hwf) hk h

/-- The third attempt that finds nothing is the last. -/
theorem State.synRetry_fails {s : State} {k : Nat} (hwf : s.wf = true) (hk : k < 4) (h : s.f (synOff k + 4) 1 0 = 2) :
    (s.synRetry k).synState k = synFAIL ∧ (s.synRetry k).sent Flt.synLockFail (k * 2 ^ 28) := by
  rw [State.synRetry_of_last h]
  exact ⟨(State.synReport_stat _ _ _ 4 k 31 28).trans (State.synEnter_synState hwf hk (by decide)), State.synReport_sent _ _ _ 4⟩

/-- What SEARCH begins with: no ramp, and ATTEMPTS 0, beside which the fields of STAT between stay. -/
theorem State.synSearch_enters {s : State} {k : Nat} (hwf : s.wf = true) (hsh : Shape s) (hk : k < 4) :
    (s.synSearch k).synState k = synSEARCH ∧ ((s.synSearch k).syn k).ramp = none
      ∧ (s.synSearch k).f (synOff k + 4) 21 16 = s.f (synOff k + 4) 21 16 := by
  have hzero : (s.setF (synOff k + 4) 1 0 0).wf = true := (s.setF_keeps _ _ _ _).wf hwf
  have henter := State.synEnter_wf k synSEARCH hzero
  have hshape : Shape ((s.setF (synOff k + 4) 1 0 0).synEnter k synSEARCH) := (State.synEnter_keeps _ _ _).shape ((s.setF_keeps _ _ _ _).shape hsh)
  have hmod := (State.modSyn_keeps _ k (fun y => { y with ramp := none })).wf henter
  unfold State.synSearch
  refine ⟨?_, ?_, ?_⟩
  · unfold State.synState
    rw [State.synAligned_stat false hmod hk (.inl (by decide))]
    exact State.synEnter_synState hzero hk (by decide)
  · have hsyns := (State.synAligned_keeps (State.modSyn ((s.setF (synOff k + 4) 1 0 0).synEnter k synSEARCH) k (fun y => { y with ramp := none }))
      k false).same .syns rfl
    unfold State.syn
    rw [hsyns]
    exact congrArg Syn.ramp (State.syn_modSyn_same hshape hk _)
  · rw [State.synAligned_stat false hmod hk (.inr (by decide))]
    exact (State.synEnter_stat synSEARCH hzero hk 16 (by decide)).trans
      (s.f_setF_disj _ 1 0 0 21 16 (State.wf_regs hwf) (by decide) (by decide) (.inl (by decide)))

/-- A band fits its field. -/
theorem bandOf_lt (f : Nat) : bandOf f < 64 :=
  Nat.lt_of_le_of_lt (List.length_filter_le _ _) (by decide)

/-! ### The commands (R188) -/

/-- The parts that the commands of a synthesizer may change. -/
theorem Keeps.synFrame {s t : State} (h : Keeps 2542637809665 s t) : Frame [.regs, .syns, .outs, .tnd, .faults, .pba, .out] s t :=
  h.frame fun c => by cases c <;> decide

section
variable {k : Fin 4} {s : State} (edges : List (Fin 12 × List Nat))

theorem synSearchDone_found (hinv : s.inv = true) (hst : s.synState k.val = synSEARCH) :
    Nexts (exec (.synSearchDone k true edges) s) fun t =>
      t.synState k.val = synLOCKING
      ∧ t.f (synOff k.val + 4) 21 16 = bandOf (s.lv (synOff k.val + 0x10)).toNat
      ∧ Frame [.regs, .syns, .outs, .tnd, .faults, .pba, .out] s t := by
  have hg := State.guards_wf k.val edges (State.inv_wf hinv)
  have hb := ((s.guards k.val edges).setF_keeps (synOff k.val + 4) 21 16 (bandOf ((s.guards k.val edges).lv (synOff k.val + 0x10)).toNat)).wf hg
  have e : exec (.synSearchDone k true edges) s = .next (((s.guards k.val edges).setF (synOff k.val + 4) 21 16
      (bandOf ((s.guards k.val edges).lv (synOff k.val + 0x10)).toNat)).synEnter k.val synLOCKING) := if_pos hst
  refine ⟨_, e, State.synEnter_synState hb k.isLt (by decide), ?_, (execSynSearchDone_keeps k true edges s _ e).synFrame⟩
  rw [State.synEnter_stat _ hb k.isLt 16 (by decide), State.f_setF_same _ _ 21 16 _ (State.wf_regs hg) (by decide) (by decide), State.guards_lv]
  exact Nat.mod_eq_of_lt (bandOf_lt _)

theorem exec_synSearchDone_lost (hst : s.synState k.val = synSEARCH) :
    exec (.synSearchDone k false edges) s = .next ((s.guards k.val edges).synRetry k.val) := if_pos hst

theorem exec_synLoopSettled_of_settled (hst : s.synState k.val = synLOCKING) (ht : (s.syn k.val).since + 100000 ≤ s.spn.ticks) :
    exec (.synLoopSettled k edges) s = .next ((s.guards k.val edges).synEnter k.val synALIGN) := if_pos ⟨hst, ht⟩

theorem exec_synLoopSettled_of_early (ht : s.spn.ticks < (s.syn k.val).since + 100000) : exec (.synLoopSettled k edges) s = .next s :=
  if_neg fun h => Nat.not_le_of_lt ht h.2

theorem exec_synLockingTimeout_of_late (hst : s.synState k.val = synLOCKING) (ht : (s.syn k.val).since + 4000000 ≤ s.spn.ticks) :
    exec (.synLockingTimeout k edges) s = .next ((s.guards k.val edges).synRetry k.val) := if_pos ⟨hst, ht⟩

theorem exec_synLockingTimeout_of_early (ht : s.spn.ticks < (s.syn k.val).since + 4000000) : exec (.synLockingTimeout k edges) s = .next s :=
  if_neg fun h => Nat.not_le_of_lt ht h.2

theorem exec_synAlignStart_of_early (ht : s.synNow k.val / secU ≤ (s.syn k.val).alignFrom / secU) : exec (.synAlignStart k edges) s = .next s :=
  if_neg fun h => Int.not_lt.mpr ht h.2

/-- What a start of the dividers leaves before it is reported (R187). -/
def State.synStarted (s : State) (k : Nat) (edges : List (Fin 12 × List Nat)) : State :=
  (((s.guards k edges).synEnter k synRUN).synAligned k true).count (synOff k + 0x1C) 31 0 1

theorem State.synStarted_wf {s : State} (k : Nat) (edges : List (Fin 12 × List Nat)) (hwf : s.wf = true) : (s.synStarted k edges).wf = true :=
  (State.count_keeps _ _ _ _ _).wf (State.synAligned_wf k true (State.synEnter_wf k synRUN (State.guards_wf k edges hwf)))

theorem State.synStarted_synState {s : State} {k : Nat} (hwf : s.wf = true) (hk : k < 4) : (s.synStarted k edges).synState k = synRUN := by
  have hg := State.guards_wf k edges hwf
  unfold State.synState State.synStarted State.count
  rw [State.f_setF_ne _ _ _ _ _ _ _ _ (by omega), State.synAligned_stat true (State.synEnter_wf k synRUN hg) hk (.inl (by decide))]
  exact State.synEnter_synState hg hk (by decide)

theorem State.synStarted_band {s : State} {k : Nat} (hwf : s.wf = true) (hk : k < 4) :
    (s.synStarted k edges).f (synOff k + 4) 21 16 = s.f (synOff k + 4) 21 16 := by
  have hg := State.guards_wf k edges hwf
  unfold State.synStarted State.count
  rw [State.f_setF_ne _ _ _ _ _ _ _ _ (by omega), State.synAligned_stat true (State.synEnter_wf k synRUN hg) hk (.inr (by decide)),
    State.synEnter_stat synRUN hg hk 16 (by decide), State.guards_stat s edges hk]

theorem State.synStarted_locks {s : State} {k : Nat} (hwf : s.wf = true) (hk : k < 4) :
    (s.synStarted k edges).rd (synOff k + 0x1C) = s.rd (synOff k + 0x1C) + 1 := by
  have ha := State.synAligned_wf k true (State.synEnter_wf k synRUN (State.guards_wf k edges hwf))
  have hlt := synReg_lt (o := 0x1C) hk (by decide)
  unfold State.synStarted
  rw [State.count_rd_same _ (State.wf_regs ha), State.synAligned_rd_ne _ _ _ hlt (by omega), State.synEnter_rd_ne _ _ _ hlt (by omega),
    State.guards_rd s edges hk (by decide)]

theorem synAlignStart_on_boundary (hinv : s.inv = true) (hst : s.synState k.val = synALIGN)
    (ht : (s.syn k.val).alignFrom / secU < s.synNow k.val / secU) :
    Nexts (exec (.synAlignStart k edges) s) fun t =>
      t.synState k.val = synRUN
      ∧ t.rd (synOff k.val + 0x1C) = s.rd (synOff k.val + 0x1C) + 1
      ∧ t.sent Flt.synLocked (k.val * 2 ^ 28 + s.f (synOff k.val + 4) 21 16)
      ∧ t.b Blk.syn.irqOff 2 = true
      ∧ Frame [.regs, .syns, .outs, .tnd, .faults, .pba, .out] s t := by
  have hwf := State.inv_wf hinv
  have e : exec (.synAlignStart k edges) s = .next (((s.synStarted k.val edges).raise Flt.synLocked
      (k.val * 2 ^ 28 + (s.synStarted k.val edges).f (synOff k.val + 4) 21 16)).irq .syn 2) := if_pos ⟨hst, ht⟩
  refine ⟨_, e, ?_, ?_, ?_, ?_, (execSynAlignStart_keeps k edges s _ e).synFrame⟩
  · exact (State.synReport_stat _ _ _ 2 k.val 31 28).trans (State.synStarted_synState edges hwf k.isLt)
  · rw [State.irq_rd_ne _ _ _ _ (synIrq_ne k.val 0x1C), State.raise_rd]
    exact State.synStarted_locks edges hwf k.isLt
  · rw [State.synStarted_band edges hwf k.isLt]
    exact State.synReport_sent _ _ _ 2
  · exact State.irq_bit _ .syn 2 (State.wf_regs (State.synStarted_wf k.val edges hwf)) (by decide)

theorem synUnlock_while_driving (hinv : s.inv = true) (hst : s.synState k.val = synRUN ∨ s.synState k.val = synRAMP ∨ s.synState k.val = synREALIGN) :
    Nexts (exec (.synUnlock k edges) s) fun t =>
      t.synState k.val = synSEARCH
      ∧ (t.syn k.val).ramp = none
      ∧ t.sent Flt.synUnlock (k.val * 2 ^ 28 + s.f (synOff k.val + 4) 21 16)
      ∧ Frame [.regs, .syns, .outs, .tnd, .faults, .pba, .out] s t := by
  have hg := State.guards_wf k.val edges (State.inv_wf hinv)
  have hshape := (s.guards_keeps k.val edges).shape (State.inv_shape hinv)
  obtain ⟨hsearch, hramp, hband⟩ := State.synSearch_enters hg hshape k.isLt
  have e : exec (.synUnlock k edges) s = .next ((((s.guards k.val edges).synSearch k.val).raise Flt.synUnlock
      (k.val * 2 ^ 28 + ((s.guards k.val edges).synSearch k.val).f (synOff k.val + 4) 21 16)).irq .syn 3) := if_pos (decide_eq_true hst)
  refine ⟨_, e, ?_, ?_, ?_, (execSynUnlock_keeps k edges s _ e).synFrame⟩
  · exact (State.synReport_stat _ _ _ 3 k.val 31 28).trans hsearch
  · rw [State.synReport_syn, hramp]
  · rw [hband, State.guards_stat s edges k.isLt]
    exact State.synReport_sent _ _ _ 3

/-- The end of a ramp before it is reported (R190): FREQ in force is `f`, and the phase moves on from `off`. -/
def State.rampEnded (s : State) (k f : Nat) (off : Int) (edges : List (Fin 12 × List Nat)) : State :=
  (((s.guards k edges).setLv (synOff k + 0x10) (BitVec.ofNat 32 f)).realignHere k off).synEnter k synREALIGN

theorem State.rampEnded_enters {s : State} {k : Nat} (hinv : s.inv = true) (hk : k < 4) (f : Nat) (off : Int) :
    (s.rampEnded k f off edges).synState k = synREALIGN
      ∧ (s.rampEnded k f off edges).lv (synOff k + 0x10) = BitVec.ofNat 32 f
      ∧ ((s.rampEnded k f off edges).syn k).ramp = none := by
  have hg := State.guards_wf k edges (State.inv_wf hinv)
  have hset := (State.setLv_keeps _ (synOff k + 0x10) (BitVec.ofNat 32 f)).wf hg
  have hshape := (State.setLv_keeps _ (synOff k + 0x10) (BitVec.ofNat 32 f)).shape ((s.guards_keeps k edges).shape (State.inv_shape hinv))
  unfold State.rampEnded
  refine ⟨State.synEnter_synState ((State.realignHere_keeps _ k off).wf hset) hk (by decide), ?_, ?_⟩
  · have hlive := (State.synEnter_keeps (State.realignHere ((s.guards k edges).setLv (synOff k + 0x10) (BitVec.ofNat 32 f)) k off) k synREALIGN).same
      .live rfl
    unfold State.lv
    rw [hlive]
    exact State.lv_setLv_same hg _ _
  · rw [State.synEnter_ramp]
    exact congrArg Syn.ramp (State.syn_modSyn_same hshape hk _)

theorem rampDone_after_segments {r : SynRamp} (hinv : s.inv = true) (hst : s.synState k.val = synRAMP) (hr : (s.syn k.val).ramp = some r)
    (ht : r.start + rampLasts r.segs ≤ s.synNow k.val) :
    Nexts (exec (.rampDone k edges) s) fun t =>
      t.synState k.val = synREALIGN
      ∧ t.lv (synOff k.val + 0x10) = BitVec.ofNat 32 (((r.segs.getLast?).getD (0, 0)).1 / 65536)
      ∧ (t.syn k.val).ramp = none
      ∧ t.sent Flt.synRampDone (k.val * 2 ^ 28)
      ∧ Frame [.regs, .live, .syns, .outs, .tnd, .faults, .pba, .out] s t := by
  have e : exec (.rampDone k edges) s = .next (((s.rampEnded k.val (((r.segs.getLast?).getD (0, 0)).1 / 65536)
      (s.corePhase k.val + ((r.ref : Int) - (((r.segs.getLast?).getD (0, 0)).1 / 65536 : Nat)) * s.synNow k.val) edges).raise Flt.synRampDone
      (k.val * 2 ^ 28)).irq .syn 5) := by
    show execRampDone k edges s = _
    simp only [execRampDone, hr]
    exact if_pos ⟨hst, ht⟩
  obtain ⟨hstate, hfreq, hramp⟩ := State.rampEnded_enters edges hinv k.isLt (((r.segs.getLast?).getD (0, 0)).1 / 65536)
    (s.corePhase k.val + ((r.ref : Int) - (((r.segs.getLast?).getD (0, 0)).1 / 65536 : Nat)) * s.synNow k.val)
  refine ⟨_, e, (State.synReport_stat _ _ _ 5 k.val 31 28).trans hstate, ?_, ?_, State.synReport_sent _ _ _ 5,
    (execRampDone_keeps k edges s _ e).frame fun c => by cases c <;> decide⟩
  · unfold State.lv
    rw [State.irq_live]
    exact hfreq
  · rw [State.synReport_syn, hramp]

theorem synRealigned_when_near (hinv : s.inv = true) (hst : s.synState k.val = synREALIGN)
    (hp : (s.corePhase k.val).natAbs * 500 ≤ s.synRef k.val * 2 ^ 40) :
    Nexts (exec (.synRealigned k edges) s) fun t =>
      t.synState k.val = synRUN
      ∧ t.b (synOff k.val + 4) 27 = true
      ∧ Frame [.regs, .syns, .outs, .tnd, .faults, .pba, .out] s t := by
  have hg := State.guards_wf k.val edges (State.inv_wf hinv)
  have hrun := State.synEnter_wf k.val synRUN hg
  have e : exec (.synRealigned k edges) s = .next (((s.guards k.val edges).synEnter k.val synRUN).synAligned k.val true) := if_pos ⟨hst, hp⟩
  refine ⟨_, e, ?_, State.synAligned_aligned true hrun k.isLt, (execSynRealigned_keeps k edges s _ e).synFrame⟩
  exact (State.synAligned_stat true hrun k.isLt (.inl (by decide))).trans (State.synEnter_synState hg k.isLt (by decide))

end

/-- Settles O31, by what the entry into a state leaves of the registers of a synthesizer, for each row of the state table. -/
theorem synthesizersMoveThroughTheirStates : Obligations.SynthesizersMoveThroughTheirStates := by
  unfold Obligations.SynthesizersMoveThroughTheirStates
  refine ⟨?found, ?again, ?fails, ?settled, ?early, ?timeout, ?waits, ?start, ?before, ?unlock, ?ramp, ?realigned⟩
  case found => exact fun k edges s hinv hst => synSearchDone_found edges hinv hst
  case again =>
    intro k edges s hinv hst hmore
    have e := exec_synSearchDone_lost edges hst
    obtain ⟨hsearch, hcount⟩ := State.guards_synRetry_again edges (State.inv_wf hinv) k.isLt hmore
    exact ⟨_, e, hsearch, hcount, (execSynSearchDone_keeps k false edges s _ e).synFrame⟩
  case fails =>
    intro k edges s hinv hst hlast
    have e := exec_synSearchDone_lost edges hst
    obtain ⟨hfail, hsent⟩ := State.synRetry_fails (State.guards_wf k.val edges (State.inv_wf hinv)) k.isLt
      ((State.guards_stat s edges k.isLt 1 0).trans hlast)
    exact ⟨_, e, hfail, hsent, (execSynSearchDone_keeps k false edges s _ e).synFrame⟩
  case settled =>
    intro k edges s hinv hst ht
    have e := exec_synLoopSettled_of_settled edges hst ht
    exact ⟨_, e, State.synEnter_synState (State.guards_wf k.val edges (State.inv_wf hinv)) k.isLt (by decide),
      (execSynLoopSettled_keeps k edges s _ e).synFrame⟩
  case early => exact fun k edges s _ ht => ⟨s, exec_synLoopSettled_of_early edges ht, rfl⟩
  case timeout =>
    intro k edges s hinv hst ht hmore
    have e := exec_synLockingTimeout_of_late edges hst ht
    obtain ⟨hsearch, hcount⟩ := State.guards_synRetry_again edges (State.inv_wf hinv) k.isLt hmore
    exact ⟨_, e, hsearch, hcount, (execSynLockingTimeout_keeps k edges s _ e).synFrame⟩
  case waits => exact fun k edges s _ ht => ⟨s, exec_synLockingTimeout_of_early edges ht, rfl⟩
  case start => exact fun k edges s hinv hst ht => synAlignStart_on_boundary edges hinv hst ht
  case before => exact fun k edges s _ ht => ⟨s, exec_synAlignStart_of_early edges ht, rfl⟩
  case unlock => exact fun k edges s hinv hst => synUnlock_while_driving edges hinv hst
  case ramp => exact fun k edges r s hinv hst hr ht => rampDone_after_segments edges hinv hst hr ht
  case realigned => exact fun k edges s hinv hst hp => synRealigned_when_near edges hinv hst hp

end Machine
end Sys2Proof

/-! SUPPORT. Proofs for 07_synthesis_and_outputs.md, part 2: a PPS pulse over a leap. -/
namespace Sys2Proof.Machine

/-- TB1 is an OFFSET base on TB0 with a deleted second due without smear at second 86,399 of TB0 (R70), half a nanosecond before it. PPS0 is on TB1
with EN 1 and the reset values of PERIOD and WIDTH, 1 s and 1,000 ns, and an OFS half a nanosecond below PERIOD, so that an edge is due. -/
def leapEve : State :=
  let regs := [(0x00100014, 0x3FF), (0x01000000, 0x203), (0x01700000, 0x01000000), (ppsOff 0 + 4, 0x100)]
  let live := [(tbOff 1 + 0x60, 0x30000), (tbOff 1 + 0x64, 86399), (ppsOff 0, 0x80000000), (ppsOff 0 + 0x18, 0xC9FF8000), (ppsOff 0 + 0x1C, 0x3B9A)]
  let s := live.foldl (fun s r => s.setLv r.1 (BitVec.ofNat 32 r.2)) (regs.foldl (fun s r => s.wrN r.1 r.2) inRun)
  s.modBase 0 (fun b => { b with time := 86399 * secU - 2 ^ 39 })

/-- What PPS_EDGE leaves of it: a pulse of 1,000 ns has begun. -/
def pulseBegun : State := leapEve.ppsEdge 0

/-- The tick after: TB0 reaches LEAP_AT, and the count of TB1 passes over a second. -/
def leapTick : State := spineTick pulseBegun

theorem leapTick_reached : exec (.ppsEdge 0) leapEve = .next pulseBegun ∧ step pulseBegun = .next leapTick :=
  ⟨rfl, step_of_idle (by decide +kernel)⟩

/-- On the tick of the leap the time of the base is past the end of the pulse, but the count that the pins follow (R71) is not. -/
theorem leapTick_pulse : leapTick.inv = true ∧ leapTick.b (ppsOff 0 + 4) 0 = true
    ∧ (leapTick.pps.getD 0 {}).ends ≤ leapTick.tbTime (leapTick.ppsTb 0) ∧ leapTick.countNow (leapTick.ppsTb 0) < (leapTick.pps.getD 0 {}).ends
    ∧ (leapTick.base (leapTick.ppsTb 0)).steps = (leapTick.pps.getD 0 {}).steps := by decide +kernel

/-- A pulse whose end the count has not reached goes on while the base does not step. -/
theorem exec_ppsPulseEnd_of_running {k : Fin 4} {s : State} (hcount : s.countNow (s.ppsTb k.val) < (s.pps.getD k.val {}).ends)
    (hsteps : (s.base (s.ppsTb k.val)).steps = (s.pps.getD k.val {}).steps) : exec (.ppsPulseEnd k) s = .next s := by
  show execPpsPulseEnd k s = _
  simp only [execPpsPulseEnd, hsteps, Nat.not_le_of_lt hcount, ne_eq, not_true_eq_false, decide_false, Bool.or_self, Bool.and_false,
    Bool.false_eq_true, if_false]

/-- Refutes O32: its clause for PPS_PULSE_END ends the pulse once the time of the base has reached its end, but on the tick of an unsmeared leap that
deletes a second that time is a second ahead of the count that the pin follows (R71), in which the pulse still has 999.5 of its 1,000 ns to run
(R197). The state meets the invariant, and is what PPS_EDGE and the next spine tick leave. -/
theorem not_ppsEdgesAndTodMessages : ¬ Obligations.PpsEdgesAndTodMessages := by
  unfold Obligations.PpsEdgesAndTodMessages
  rintro ⟨-, -, hend, -, -⟩
  obtain ⟨hinv, hactive, hpast, hcount, hsteps⟩ := leapTick_pulse
  obtain ⟨t, ht, hended, -⟩ := hend 0 leapTick hinv hactive hpast
  obtain rfl : leapTick = t := Host.Outcome.next.inj ((exec_ppsPulseEnd_of_running (k := 0) hcount hsteps).symm.trans ht)
  exact Bool.false_ne_true (hended.symm.trans hactive)

end Sys2Proof.Machine

/-! SUPPORT. Proofs for 09_serial_lanes.md: a lane that is in LP already, and a lane that has said that its receiver is ready. -/
namespace Sys2Proof.Machine

-- One theorem after the other, as in the tests: the stacks of waiting threads count against the memory limit of the check.
set_option Elab.async false

/-- The part runs with its domains on and its lanes in the structure; lane 1 is in mode 1 and has the control word `ctl` and the status word `stat`. -/
def laneOne (ctl stat : Nat) : State :=
  [(0x00100014, 0x3FF), (0x02000000, 0x3FFFF), (lanOff 1, ctl), (lanOff 1 + 4, stat)].foldl (fun s r => s.wrN r.1 r.2) inRun

/-! ### LP written to a lane in LP (R240, R252) -/

/-- Lane 1 is in LP with EN and LP set, and its status shows PLL_LOCK. -/
def lpWithPll : State := laneOne 0xA0000001 0x60000002

theorem lpWithPll_inLp : lpWithPll.inv = true ∧ lpWithPll.serves .pcie (lanOff 1) = true ∧ lpWithPll.laneThere 1 = true
    ∧ lpWithPll.laneMode 1 ≠ 4 ∧ lpWithPll.laneSt 1 ≠ lOFF ∧ lpWithPll.laneSt 1 ≠ lLPEXIT := by decide +kernel

/-- PLL_LOCK of lane 1 in the state that an outcome answers. -/
def pllOneOf (o : Out) : Bool :=
  match o with
  | .next t => t.b (lanOff 1 + 4) 1
  | _ => false

/-- No row of the state table moves a lane from LP to LP, so that the write leaves the status as it was. -/
theorem lpWrite_keepsPll : pllOneOf (exec (.laneLpEnter .pcie 1 0xA0000001) lpWithPll) = true := by decide +kernel

/-- Refutes O35: its clause for LP = 1 says of every lane that is not in OFF or LP_EXIT that the write clears PLL_LOCK, and so of a lane that is in LP
already. PLL_LOCK follows the transitions of a lane (R240), and such a lane makes none. The state meets the invariant, which does not tie PLL_LOCK
to the state of the lane; the statement's words hold of a lane that enters LP, because `State.laneTo` clears the bit. -/
theorem not_laneControlMovesTheLane : ¬ Obligations.LaneControlMovesTheLane := by
  unfold Obligations.LaneControlMovesTheLane
  rintro ⟨henter, -⟩
  obtain ⟨hinv, hserves, hthere, hmode, hoff, hexit⟩ := lpWithPll_inLp
  obtain ⟨t, ht, -, -, hpll, -⟩ := henter .pcie 1 0xA0000001 lpWithPll hinv hserves (by decide) hthere hmode (by decide) hoff hexit
  have hkept : t.b (lanOff 1 + 4) 1 = true := by
    have h := lpWrite_keepsPll
    rwa [ht] at h
  exact Bool.false_ne_true (hpll.symm.trans hkept)

/-! ### The end of training (R240, R243) -/

theorem State.genCount_out (s : State) (m : Nat) : (s.genCount m).out = s.out := (s.genCount_keeps m).same .out (by decide)

theorem State.laneBits_out (s : State) (m st : Nat) : (s.laneBits m st).out = s.out := (s.laneBits_keeps m st).same .out (by decide)

theorem State.genStart_out (s0 s : State) (m : Nat) : (s0.genStart s m).out = s.out := (s0.genStart_keeps s m).same .out (by decide)

/-- A lane that goes from TRAIN to ALIGN puts nothing out. -/
theorem State.laneTo_align_out {s : State} {m : Nat} (hst : s.laneSt m = lTRAIN) : (s.laneTo m lALIGN).out = s.out := by
  simp [State.laneTo, hst, lTRAIN, lALIGN, lLOCKED, lCDR, State.genStart_out, State.laneBits_out, State.genCount_out]

/-- At the end of training a lane that has said that its receiver is ready does not say it again. -/
theorem exec_trainDone_of_ready {m : Fin 18} {s t : State} (hst : s.laneSt m.val = lTRAIN) (hready : (s.lane m.val).ready = true)
    (ht : exec (.trainDone m) s = .next t) : t.out = s.out := by
  change execTrainDone m s = .next t at ht
  simp only [execTrainDone, hst, hready, if_true, Host.Outcome.next.injEq] at ht
  rw [← ht, State.setF_out, State.setB_out, State.laneTo_align_out hst]

/-- Lane 1 trains. -/
def trainingOne : State := laneOne 0x90000002 0x30000007

/-- What COEFFICIENT_UPDATE leaves of it when its own receiver is ready and the partner is on hold. -/
def toldReady : State :=
  let o := lanOff 1 + 0x0C
  let held := ((trainingOne.setF o 3 0 (trainingOne.f o 3 0)).setF o 13 8 (trainingOne.f o 13 8)).setF o 20 16 (trainingOne.f o 20 16)
  held.trainOwn 1 true (some .ready)

theorem toldReady_of_coefficientUpdate : exec (.coefficientUpdate 1 .hold true (some .ready)) trainingOne = .next toldReady := by
  have hst : trainingOne.laneSt 1 = lTRAIN := by decide +kernel
  exact if_pos (e := .next trainingOne) hst

theorem toldReady_trains : toldReady.inv = true ∧ toldReady.laneSt 1 = lTRAIN ∧ (toldReady.lane 1).ready = true := by decide +kernel

/-- Refutes O36: its clause for TRAIN_DONE has the lane say that its receiver is ready at the end of every training, but a lane whose receiver has said so
in a COEFFICIENT_UPDATE before (R243) does not say it again. The state meets the invariant, and is what such a COEFFICIENT_UPDATE
leaves of a lane in TRAIN (`toldReady_of_coefficientUpdate`). -/
theorem not_laneStatesFollowTheirEvents : ¬ Obligations.LaneStatesFollowTheirEvents := by
  unfold Obligations.LaneStatesFollowTheirEvents
  rintro ⟨-, -, -, -, -, -, -, hdone, -⟩
  obtain ⟨hinv, hst, hready⟩ := toldReady_trains
  obtain ⟨t, ht, -, -, -, hout, -⟩ := hdone 1 toldReady hinv hst
  have hsilent : t.out = toldReady.out := exec_trainDone_of_ready (m := 1) hst hready ht
  exact List.cons_ne_self _ _ (hout.symm.trans hsilent)

end Sys2Proof.Machine
